-- ==== Sys2Proof/Word.lean ====
section
/-! DEFINITION. The words of the machine: bytes, instruction words, 64-bit registers, lane masks. -/

namespace Sys2Proof

/-- One byte (R6). -/
abbrev Byte := BitVec 8

/-- One instruction word (R46). -/
abbrev Word := BitVec 32

/-- A uniform register, a lane's 64 bits of a vector register, a special register (R15, R20). -/
abbrev Reg := BitVec 64

/-- A lane mask: bit l for lane l (R21, R35). -/
abbrev Mask := BitVec 32

/-- A warp by the number its workgroup got at dispatch and its index in the workgroup: the handle by which
everything names a warp (R417). -/
structure WRef where
  wg : Nat
  wp : Nat
deriving DecidableEq, Repr

/-- Bytes of one 128-byte line: those that mask names, with their values at their places in data (R284, R449). -/
structure LineBytes where
  mask : BitVec 128
  data : BitVec 1024
deriving DecidableEq, Repr

end Sys2Proof
end

