-- ==== Sys2Proof/Syntax.lean ====
section
/-! DEFINITION. The operations of the machine: one constructor per row of spec/opcode_table.json, in the table's order
but for the two events that a warp meets at its own fetch, which stand with the words.
Instruction words carry the fields of their encoding, named as the table names them, from the high bits to the low
(R62, R66). Rows without bits are the events of the hardware's other agents and of the outside world (file
95_what_each_step_holds.md), with what identifies the event. -/

namespace Sys2Proof

inductive Instr where
  /-- Integer add of two vector operands with wrap, per sub-element of each lane in the execution mask (R118). -/
  | vaddRrr (d a b : BitVec 7) (p : BitVec 3)
  /-- Integer subtract of two vector operands with wrap (R118). -/
  | vsubRrr (d a b : BitVec 7) (p : BitVec 3)
  /-- Integer multiply, low w bits kept (R118). -/
  | vmulRrr (d a b : BitVec 7) (p : BitVec 3)
  /-- High half of the 2w-bit integer product, signed or unsigned by tag (R118). -/
  | vmulh (d a b : BitVec 7) (p : BitVec 3)
  /-- Integer multiply-add into d with wrap (R118). -/
  | vmad (d a b : BitVec 7) (p : BitVec 3)
  /-- Integer add clamped to the format's range (R118). -/
  | vaddsat (d a b : BitVec 7) (p : BitVec 3)
  /-- Integer subtract clamped to the format's range (R118). -/
  | vsubsat (d a b : BitVec 7) (p : BitVec 3)
  /-- Integer minimum, signed or unsigned by tag (R118). -/
  | vmin (d a b : BitVec 7) (p : BitVec 3)
  /-- Integer maximum, signed or unsigned by tag (R118). -/
  | vmax (d a b : BitVec 7) (p : BitVec 3)
  /-- Integer absolute value with wrap (R118). -/
  | vabs (d a : BitVec 7) (p : BitVec 3)
  /-- Integer negation with wrap (R118). -/
  | vneg (d a : BitVec 7) (p : BitVec 3)
  /-- Bitwise AND of two vector operands (R118). -/
  | vandRrr (d a b : BitVec 7) (p : BitVec 3)
  /-- Bitwise OR of two vector operands (R118). -/
  | vorRrr (d a b : BitVec 7) (p : BitVec 3)
  /-- Bitwise exclusive OR (R118). -/
  | vxor (d a b : BitVec 7) (p : BitVec 3)
  /-- Bitwise x AND NOT y (R118). -/
  | vandn (d a b : BitVec 7) (p : BitVec 3)
  /-- Bitwise complement (R118). -/
  | vnot (d a : BitVec 7) (p : BitVec 3)
  /-- Left shift by per-sub-element amount, zero fill (R119). -/
  | vshlRrr (d a b : BitVec 7) (p : BitVec 3)
  /-- Logical right shift by per-sub-element amount (R119). -/
  | vshrRrr (d a b : BitVec 7) (p : BitVec 3)
  /-- Arithmetic right shift by per-sub-element amount (R119). -/
  | vsarRrr (d a b : BitVec 7) (p : BitVec 3)
  /-- Rotate left by amount modulo w (R119). -/
  | vrol (d a b : BitVec 7) (p : BitVec 3)
  /-- Count leading zeros of each sub-element (R118). -/
  | vclz (d a : BitVec 7) (p : BitVec 3)
  /-- Count one bits of each sub-element (R118). -/
  | vpopc (d a : BitVec 7) (p : BitVec 3)
  /-- Reverse the bits of each sub-element (R118). -/
  | vbrev (d a : BitVec 7) (p : BitVec 3)
  /-- Extract a bit field selected by an s-register, sign- or zero-extended (R120). -/
  | vbfx (d a b : BitVec 7) (p : BitVec 3)
  /-- Insert low bits of a into a bit field of d (R120). -/
  | vbfi (d a b : BitVec 7) (p : BitVec 3)
  /-- Integer compare writing a predicate, AND or ANY over sub-elements (R121). -/
  | vcmp (q : BitVec 3) (n : BitVec 1) (c : BitVec 3) (a b : BitVec 7) (p : BitVec 3)
  /-- Per-lane select of a or b by a predicate register (R123). -/
  | vsel (d a b : BitVec 7) (k : BitVec 3)
  /-- Copy a vector operand and its tag (R124). -/
  | vmov (d a : BitVec 7) (p : BitVec 3)
  /-- Broadcast an s-register or immediate into every sub-element with a given format (R125). -/
  | vmovs (d : BitVec 7) (f : BitVec 5) (b : BitVec 7) (p : BitVec 3)
  /-- Clamped minimum of d and exact x + y (R119). -/
  | vamin (d a b : BitVec 7) (p : BitVec 3)
  /-- Clamped maximum of d and exact x + y (R119). -/
  | vamax (d a b : BitVec 7) (p : BitVec 3)
  /-- Floating add rounded RNE (R127). -/
  | vfaddRrr (d a b : BitVec 7) (p : BitVec 3)
  /-- Floating subtract rounded RNE (R127). -/
  | vfsub (d a b : BitVec 7) (p : BitVec 3)
  /-- Floating multiply rounded RNE (R127). -/
  | vfmulRrr (d a b : BitVec 7) (p : BitVec 3)
  /-- Fused multiply-add rounded once (R127). -/
  | vfma (d a b : BitVec 7) (p : BitVec 3)
  /-- IEEE 754-2019 minimum (R127). -/
  | vfmin (d a b : BitVec 7) (p : BitVec 3)
  /-- IEEE 754-2019 maximum (R127). -/
  | vfmax (d a b : BitVec 7) (p : BitVec 3)
  /-- Clear the sign bit of each floating element (R127). -/
  | vfabs (d a : BitVec 7) (p : BitVec 3)
  /-- Invert the sign bit of each floating element (R127). -/
  | vfneg (d a : BitVec 7) (p : BitVec 3)
  /-- Floating compare writing a predicate (R121). -/
  | vfcmp (q : BitVec 3) (n : BitVec 1) (c : BitVec 3) (a b : BitVec 7) (p : BitVec 3)
  /-- Reciprocal, correctly rounded for f32 (R128). -/
  | vfrcp (d a : BitVec 7) (p : BitVec 3)
  /-- Reciprocal square root (R128). -/
  | vfrsq (d a : BitVec 7) (p : BitVec 3)
  /-- Square root, correctly rounded (R128). -/
  | vfsqrt (d a : BitVec 7) (p : BitVec 3)
  /-- Base-2 exponential (R128). -/
  | vfex2 (d a : BitVec 7) (p : BitVec 3)
  /-- Base-2 logarithm (R128). -/
  | vflg2 (d a : BitVec 7) (p : BitVec 3)
  /-- Sine in radians (R128). -/
  | vfsin (d a : BitVec 7) (p : BitVec 3)
  /-- Cosine in radians (R128). -/
  | vfcos (d a : BitVec 7) (p : BitVec 3)
  /-- Write the class mask of up to four elements as n16 (R130). -/
  | vfclass (d a : BitVec 7) (p : BitVec 3)
  /-- Convert elements to a format with a rounding mode (R131). -/
  | vcvt (d a : BitVec 7) (f : BitVec 5) (m : BitVec 2) (p : BitVec 3)
  /-- Stochastically rounded conversion, advancing SRSEED (R132). -/
  | vcvts (d a : BitVec 7) (f : BitVec 5) (p : BitVec 3)
  /-- Copy bits and set a new tag without conversion (R126). -/
  | vtag (d a : BitVec 7) (f : BitVec 5) (p : BitVec 3)
  /-- Replace group h of d with the low group of a (R133). -/
  | vpack (d a : BitVec 7) (h : BitVec 4) (g p : BitVec 3)
  /-- Shift a right by h groups into d (R133). -/
  | vunpk (d a : BitVec 7) (h : BitVec 4) (g p : BitVec 3)
  /-- Integer add of an s-register or immediate (R112). -/
  | vaddRrs (d a b : BitVec 7) (p : BitVec 3)
  /-- Integer subtract of an s-register or immediate (R112). -/
  | vsubRrs (d a b : BitVec 7) (p : BitVec 3)
  /-- Integer multiply by an s-register or immediate (R112). -/
  | vmulRrs (d a b : BitVec 7) (p : BitVec 3)
  /-- Bitwise AND with an s-register or immediate (R112). -/
  | vandRrs (d a b : BitVec 7) (p : BitVec 3)
  /-- Bitwise OR with an s-register or immediate (R112). -/
  | vorRrs (d a b : BitVec 7) (p : BitVec 3)
  /-- Left shift by a uniform 64-bit amount (R119). -/
  | vshlRrs (d a b : BitVec 7) (p : BitVec 3)
  /-- Logical right shift by a uniform amount (R119). -/
  | vshrRrs (d a b : BitVec 7) (p : BitVec 3)
  /-- Arithmetic right shift by a uniform amount (R119). -/
  | vsarRrs (d a b : BitVec 7) (p : BitVec 3)
  /-- Floating add of an s-register value (R127). -/
  | vfaddRrs (d a b : BitVec 7) (p : BitVec 3)
  /-- Floating multiply by an s-register value (R127). -/
  | vfmulRrs (d a b : BitVec 7) (p : BitVec 3)
  /-- Shuffle lanes by an index register within sub-groups (R141). -/
  | vshuf (d a : BitVec 7) (z : BitVec 1) (w : BitVec 3) (k : BitVec 2)
  /-- Exchange lanes by an XOR pattern within sub-groups (R141). -/
  | vshufi (d a : BitVec 7) (z : BitVec 1) (w : BitVec 3) (m : BitVec 5)
  /-- Shift values up or down the lanes of each sub-group (R141). -/
  | vlsh (d a : BitVec 7) (z : BitVec 1) (w : BitVec 3) (x : BitVec 1) (n : BitVec 5)
  /-- Broadcast lane k of each sub-group (R141). -/
  | vbcst (d a : BitVec 7) (z : BitVec 1) (w : BitVec 3) (k : BitVec 5)
  /-- Reduce across active lanes of each sub-group by the fixed tree (R145). -/
  | vred (d a : BitVec 7) (w o : BitVec 3)
  /-- Inclusive or exclusive scan across lanes (R146). -/
  | vscan (d a : BitVec 7) (w : BitVec 3) (x : BitVec 1) (o : BitVec 3)
  /-- Cavity reduction: each lane gets the combination of all other active lanes (R147). -/
  | vcav (d a : BitVec 7) (w o : BitVec 3)
  /-- Write the sub-group mask of a predicate and its popcount (R143). -/
  | vballot (d : BitVec 7) (w k : BitVec 3)
  /-- Permute sub-elements within each lane by a selector word (R142). -/
  | vsubel (d a : BitVec 7) (s : BitVec 5)
  /-- Post an arrival to exchange a register with a partner warp (R150). -/
  | vxswap (d a : BitVec 7) (z : BitVec 1) (s : BitVec 5)
  /-- Per-lane global load of one element (R188). -/
  | vld (d b : BitVec 7) (t : BitVec 5) (f : BitVec 1) (o : BitVec 4)
  /-- Per-lane global store of one element (R188). -/
  | vst (d b : BitVec 7) (t : BitVec 5) (f : BitVec 1) (o : BitVec 4)
  /-- Per-lane global atomic at the channel's atomic unit (R192). -/
  | vatom (d b : BitVec 7) (t : BitVec 5) (f : BitVec 1) (o : BitVec 4)
  /-- Per-lane compare and swap (R193). -/
  | vcas (d b : BitVec 7) (t : BitVec 5) (f : BitVec 1) (o : BitVec 4)
  /-- Prefetch lines into the line buffer, never faulting (R195). -/
  | vprf (b : BitVec 7) (f : BitVec 1) (o : BitVec 4)
  /-- Per-lane scratchpad load (R188). -/
  | vlds (d b : BitVec 7) (t : BitVec 5) (f : BitVec 1) (o : BitVec 4)
  /-- Per-lane scratchpad store (R188). -/
  | vsts (d b : BitVec 7) (t : BitVec 5) (f : BitVec 1) (o : BitVec 4)
  /-- Per-lane scratchpad atomic at the bank (R192). -/
  | vatoms (d b : BitVec 7) (t : BitVec 5) (f : BitVec 1) (o : BitVec 4)
  /-- Lane-set branch that may split the warp onto path entries (R168). -/
  | br (p : BitVec 3) (s : BitVec 1) (o : BitVec 20)
  /-- Set an index register from a vector value, clamped to 255 (R178). -/
  | xset (k : BitVec 2) (a : BitVec 7) (p : BitVec 3)
  /-- Add a uniform value to an index register, clamped (R178). -/
  | xadd (k j : BitVec 2) (b : BitVec 7) (p : BitVec 3)
  /-- Uniform 64-bit add (R156). -/
  | sadd (d a b : BitVec 6)
  /-- Uniform subtract (R156). -/
  | ssub (d a b : BitVec 6)
  /-- Uniform multiply, low 64 bits (R156). -/
  | smul (d a b : BitVec 6)
  /-- Signed high 64 bits of the product (R156). -/
  | smulh (d a b : BitVec 6)
  /-- Unsigned high 64 bits of the product (R156). -/
  | smulhU (d a b : BitVec 6)
  /-- Signed division toward zero, never trapping (R157). -/
  | sdiv (d a b : BitVec 6)
  /-- Unsigned division (R157). -/
  | sdivU (d a b : BitVec 6)
  /-- Signed remainder (R157). -/
  | srem (d a b : BitVec 6)
  /-- Unsigned remainder (R157). -/
  | sremU (d a b : BitVec 6)
  /-- Uniform bitwise AND (R156). -/
  | sand (d a b : BitVec 6)
  /-- Uniform bitwise OR (R156). -/
  | sor (d a b : BitVec 6)
  /-- Uniform bitwise XOR (R156). -/
  | sxor (d a b : BitVec 6)
  /-- Uniform bitwise NOT (R156). -/
  | snot (d a : BitVec 6)
  /-- Uniform left shift by a register (R156). -/
  | sshl (d a b : BitVec 6)
  /-- Uniform logical right shift by a register (R156). -/
  | sshr (d a b : BitVec 6)
  /-- Uniform arithmetic right shift by a register (R156). -/
  | ssar (d a b : BitVec 6)
  /-- Signed minimum (R156). -/
  | smin (d a b : BitVec 6)
  /-- Unsigned minimum (R156). -/
  | sminU (d a b : BitVec 6)
  /-- Signed maximum (R156). -/
  | smax (d a b : BitVec 6)
  /-- Unsigned maximum (R156). -/
  | smaxU (d a b : BitVec 6)
  /-- Select a or b by the old value of sd (R156). -/
  | ssel (d a b : BitVec 6)
  /-- Copy an s-register (R156). -/
  | smov (d a : BitVec 6)
  /-- Compare two s-registers under a condition and write 1 or 0 (R156). -/
  | scmp (d a b : BitVec 6) (c : BitVec 4)
  /-- Write a sign-extended 18-bit immediate to sd (R159). -/
  | smovi (d : BitVec 6) (i : BitVec 18)
  /-- Add a signed 12-bit immediate (R158). -/
  | saddImm (d a : BitVec 6) (i : BitVec 12)
  /-- AND with a sign-extended immediate (R158). -/
  | sandImm (d a : BitVec 6) (i : BitVec 12)
  /-- OR with a sign-extended immediate (R158). -/
  | sorImm (d a : BitVec 6) (i : BitVec 12)
  /-- XOR with a sign-extended immediate (R158). -/
  | sxorImm (d a : BitVec 6) (i : BitVec 12)
  /-- Left shift by an unsigned immediate (R158). -/
  | sshlImm (d a : BitVec 6) (i : BitVec 12)
  /-- Logical right shift by an unsigned immediate (R158). -/
  | sshrImm (d a : BitVec 6) (i : BitVec 12)
  /-- Arithmetic right shift by an unsigned immediate (R158). -/
  | ssarImm (d a : BitVec 6) (i : BitVec 12)
  /-- Copy lane k of a vector operand into an s-register (R160). -/
  | slane (d : BitVec 6) (v : BitVec 7) (k : BitVec 5)
  /-- Read a predicate into an s-register (R161). -/
  | spredGet (d : BitVec 6) (k : BitVec 3)
  /-- Write a predicate from an s-register (R161). -/
  | spredSet (a : BitVec 6) (k : BitVec 3)
  /-- Read the active mask into an s-register (R161). -/
  | spredAct (d : BitVec 6)
  /-- Uniform unconditional branch (R163). -/
  | bra (o : BitVec 24)
  /-- Branch if the s-register is nonzero (R163). -/
  | brasNz (d : BitVec 6) (o : BitVec 17)
  /-- Branch if the s-register is zero (R163). -/
  | brasZ (d : BitVec 6) (o : BitVec 17)
  /-- Write the return address to a link register and branch (R163). -/
  | call (d : BitVec 6) (o : BitVec 18)
  /-- Branch to the address held in an s-register (R164). -/
  | ret (a : BitVec 6)
  /-- Push a rejoin entry with the active mask (R167). -/
  | mark (o : BitVec 24)
  /-- Pop finished paths and rejoin or switch to a deferred path (R169). -/
  | join
  /-- Start a counted loop run from the loop buffer (R174). -/
  | loop (d : BitVec 6) (n : BitVec 2) (l : BitVec 9)
  /-- Add the active lanes to the exited mask (R171). -/
  | exit
  /-- Take one issue slot of pipe U with no effect (R165). -/
  | nop
  /-- Set the register window base and length (R179). -/
  | xwin (a : BitVec 6)
  /-- Uniform load of 1 to 8 bytes (R196). -/
  | sld (d a : BitVec 6) (f : BitVec 1) (z : BitVec 2) (g : BitVec 1) (o : BitVec 8)
  /-- Uniform store of 1 to 8 bytes (R196). -/
  | sst (d a : BitVec 6) (f : BitVec 1) (z : BitVec 2) (o : BitVec 8)
  /-- Uniform atomic at the channel's atomic unit (R194). -/
  | satom (d a b : BitVec 6) (f : BitVec 1) (o : BitVec 4)
  /-- Uniform 8-byte compare and swap (R194). -/
  | scas (d a b : BitVec 6) (f : BitVec 1)
  /-- Load a 32-bit literal from the code stream (R177). -/
  | ldlW (d : BitVec 6) (o : BitVec 17)
  /-- Load a 64-bit literal from the code stream (R177). -/
  | ldlD (d : BitVec 6) (o : BitVec 17)
  /-- Read an object and invalidate lines of its bound regions (R197). -/
  | acq (d a : BitVec 6) (s : BitVec 3)
  /-- Perform writes to bound regions, then write the object (R197). -/
  | rel (d a : BitVec 6) (s : BitVec 3)
  /-- Release, acquire or both at a scope (R198). -/
  | fence (k : BitVec 2) (s : BitVec 3)
  /-- Fence, then exchange a range's live and shadow offsets (R199). -/
  | publish (d a : BitVec 6) (s : BitVec 3)
  /-- Load a stream descriptor and start prefetch (R201). -/
  | stset (a : BitVec 6) (n : BitVec 3)
  /-- Read one word of a stream into an s-register (R202). -/
  | stsave (d : BitVec 6) (w n : BitVec 3)
  /-- Set a stream's position (R202). -/
  | stpos (a : BitVec 6) (n : BitVec 3)
  /-- Advance a stream's position, saturating (R202). -/
  | stskip (a : BitVec 6) (n : BitVec 3)
  /-- Read a group register (R205). -/
  | grd (d : BitVec 6) (k : BitVec 4)
  /-- Write a group register (R206). -/
  | gwr (a : BitVec 6) (k : BitVec 4)
  /-- Atomic operation on a group register (R205). -/
  | gatom (d : BitVec 6) (k : BitVec 4) (b : BitVec 6) (o : BitVec 4)
  /-- Bind or unbind a queue register to a pipe (R209). -/
  | qbind (a : BitVec 6) (k : BitVec 3)
  /-- Append one entry to a pipe (R210). -/
  | qpush (a : BitVec 6) (k : BitVec 3)
  /-- Append n consecutive entries to a pipe (R210). -/
  | qpushv (a : BitVec 6) (n : BitVec 5) (k : BitVec 3)
  /-- Remove the oldest entry, waiting while the pipe is empty (R210). -/
  | qpop (d : BitVec 6) (k : BitVec 3)
  /-- Try to pop without waiting (R210). -/
  | qtry (d : BitVec 6) (k : BitVec 3)
  /-- Try to pop from a pipe named by number (R210). -/
  | qsteal (d a : BitVec 6)
  /-- Read a pipe's COUNT (R210). -/
  | qlen (d : BitVec 6) (k : BitVec 3)
  /-- Start a matrix product into an accumulator on the tile's engine (R223). -/
  | mma (p : BitVec 3) (s : BitVec 6) (f : BitVec 1) (v : BitVec 7) (n : BitVec 2)
  /-- Post an arrival to a gang team product (R235). -/
  | mmt (p : BitVec 3) (s : BitVec 6) (f : BitVec 1) (v : BitVec 7) (t : BitVec 2)
  /-- Clear an accumulator and set its tag (R227). -/
  | mzero (v : BitVec 7) (n : BitVec 2) (t : BitVec 1)
  /-- Compute an E8M0 block-scale code (R228). -/
  | mscale (d a : BitVec 6) (f : BitVec 3)
  /-- Queue a byte copy on the streamer (R249). -/
  | cpy (t r b : BitVec 6) (v : BitVec 1)
  /-- Queue a tensor box copy described by a shape record (R254). -/
  | cpt (t r b : BitVec 6) (v : BitVec 1)
  /-- Queue a reducing copy (R249). -/
  | cpr (t r b : BitVec 6) (v : BitVec 1)
  /-- Queue a copy to or from a sibling's scratchpad (R249). -/
  | cpx (t r b : BitVec 6) (v : BitVec 1)
  /-- Start a collective call on the collective engine (R458). -/
  | cpc (t r b : BitVec 6) (v : BitVec 1)
  /-- Close the warp's open copy batch (R257). -/
  | cpclose
  /-- Close the batch and wait until at most n batches are outstanding (R257). -/
  | cpwait (n : BitVec 4)
  /-- Initialise a transaction barrier (R260). -/
  | tbinit (d a : BitVec 6)
  /-- Add expected sectors, optionally with one arrival (R260). -/
  | tbexp (d a : BitVec 6) (r s : BitVec 1) (g : BitVec 3)
  /-- Arrive at a transaction barrier (R260). -/
  | tbarr (d a : BitVec 6) (s : BitVec 1) (g : BitVec 3)
  /-- Wait while a barrier is in the given phase (R262). -/
  | tbwait (d a : BitVec 6)
  /-- Arrive at a workgroup barrier (R264). -/
  | bar
  /-- Arrive at a gang barrier (R264). -/
  | gbar
  /-- Join or found a convoy in a die slot (R267). -/
  | cvjoin (d a : BitVec 6) (n : BitVec 3)
  /-- Remove a stream from its convoy (R267). -/
  | cvleave (d : BitVec 6) (n : BitVec 3)
  /-- Set the warp's slip limit and patience (R267). -/
  | cvslip (d a : BitVec 6)
  /-- Join a convoy only within the slip limit of its minimum (R267). -/
  | cvrejoin (d a : BitVec 6) (n : BitVec 3)
  /-- Read a special register into an s-register (R271). -/
  | srd (d n : BitVec 6)
  /-- Read a special register into a vector register per lane (R271). -/
  | srdV (d : BitVec 6) (h : BitVec 1) (n : BitVec 6)
  /-- Write a writable special register (R272). -/
  | swr (a n : BitVec 6)
  /-- Raise trap number n after retiring (R273). -/
  | trap (n : BitVec 8)
  /-- Leave a handler and resume from the frame (R428). -/
  | tret
  /-- End the pre-empt handler of the warp (R275). -/
  | sigdone
  /-- Record a restart point for idempotent re-dispatch (R276). -/
  | region (a : BitVec 6) (o : BitVec 12)
  /-- Request a performance level for the cluster (R280). -/
  | setperf (d a : BitVec 6)
  /-- Wait until a memory counter reaches a value (R277). -/
  | waitc (d a : BitVec 6)
  /-- Cancel a launch, graph, phase or job by its counter (R278). -/
  | cancel (d a : BitVec 6) (l : BitVec 2)
  /-- Make the warp not ready for a number of ref ticks (R279). -/
  | sleep (a : BitVec 6)
  /-- Park the warp and send a break message when debugging is enabled (R273). -/
  | bkpt (n : BitVec 8)
  /-- Skip a literal pool of N data words (R61). -/
  | pool (n : BitVec 16)
  /-- Clause header: wait for named flags, then issue the clause (R53). -/
  | clause (w : BitVec 12) (a b : BitVec 4) (l : BitVec 3)
  /-- A warp reaches a word whose major or func is unassigned, or whose reserved fields are nonzero, and takes the precise illegal-instruction trap with no effect (R68). -/
  | illegalInstruction (word : Word)
  /-- A warp's fetch of its next instruction word fails a check of R184, parking the warp if resolvable or raising a global fault of kind fetch (R164). -/
  | instructionFetchFault (va : Nat)
  /-- Falling through a loop body's end decrements the counter and repeats or ends the loop (R174). -/
  | loopFallThrough (w : WRef)
  /-- A long-latency instruction completes and decrements its flag (R54). -/
  | longLatencyComplete (w : WRef) (k : Nat)
  /-- At a boundary a pending fault, trap, cancel or pre-empt writes the frame and enters the vector (R426). -/
  | handlerEntry (w : WRef)
  /-- After all replies, the parked instruction replays in full (R434). -/
  | warpReplay (w : WRef)
  /-- The engine completes one row block of one k-block and updates MROW and FSTAT (R223). -/
  | matrixRowBlock (w : WRef)
  /-- The streamer starts the copy at the head of its queue (R268). -/
  | copyStart (tile : Nat)
  /-- A copy sector is performed and decrements its barrier's SECT (R255). -/
  | copySectorPerformed (id : Nat)
  /-- The copy completes, invalidates destination lines and writes its token (R243). -/
  | copyTokenWrite (id : Nat)
  /-- An atomic unit receives a sector apply request and applies it unless already set (R354). -/
  | applyRequest (id sector : Nat)
  /-- An acknowledgement reaches the applying engine and advances BASE and WIN (R353). -/
  | applyAck (id sector : Nat)
  /-- An unacknowledged apply request is resent after 200 ref ticks (R354). -/
  | applyAckTimeout (id sector : Nat)
  /-- Waiters on a barrier wake after its phase changes and retire with acquire (R262). -/
  | tbwaitWake (wg off : Nat)
  /-- All parties have arrived and BAR or GBAR releases with a fence (R264). -/
  | barRelease (wg : Nat) (gang : Bool)
  /-- A pushed entry becomes available and goes to a waiting QPOP first (R212). -/
  | pipeEntryAvailable (cluster pipe : Nat)
  /-- A write makes the counter large enough and the waiting WAITC retires (R277). -/
  | waitcWake (w : WRef)
  /-- A remote counter is tested again at least every 1,000 ref ticks (R344). -/
  | remoteCounterPoll (w : WRef)
  /-- The sleep count ends and the warp becomes ready (R279). -/
  | sleepExpire (w : WRef)
  /-- Held members are re-evaluated after MINPOS changes (R363). -/
  | convoyReevaluate (die slot : Nat)
  /-- A hold reaches CVPAT, stalled minimum members are detached and the consumption proceeds (R364). -/
  | patienceExpiry (w : WRef)
  /-- A line read arrives at a merge point and attaches to or opens an entry (R288). -/
  | mergePointRead (tile line : Nat)
  /-- A write or atomic arrives and closes open entries for its line (R289). -/
  | mergePointWrite (line : Nat) (mask : BitVec 128) (data : BitVec 1024)
  /-- DRAM data returns to every waiter and the entry is freed (R288). -/
  | dramReturn (line : Nat)
  /-- An atomic or object access is performed at the channel's atomic unit (R327). -/
  | atomicUnitRequest (pa : Nat) (op : BitVec 4) (size : Nat) (v : BitVec 64)
  /-- A remote target acknowledges a posted write (R340). -/
  | remoteWriteAck (w : WRef)
  /-- The cluster walker starts a walk for a translation miss (R300). -/
  | pageWalkStart (cluster asid vpn acc : Nat)
  /-- A walk ends with a mapping or stops and goes to the management cores (R299). -/
  | pageWalkEnd (cluster asid vpn : Nat)
  /-- The management cores invalidate translation caches for a changed entry (R300). -/
  | translationInvalidate (asid : Nat)
  /-- The translation home stops clusters, swaps LIVE and SHADOW and advances GEN (R297). -/
  | publishExchange (w : WRef)
  /-- A fabric request is checked against the inbound windows and served or refused (R451). -/
  | fabricInboundRequest (src kind pa size : Nat) (op : BitVec 4) (v : LineBytes)
  /-- A fabric completion arrives; an error status faults the requester (R449). -/
  | fabricCompletion (w : WRef) (lane status va : Nat)
  /-- A host access through BAR0 or BAR2 is served (R503). -/
  | hostAccess (bar off : Nat) (write : Bool) (v : BitVec 64)
  /-- A flit fails CRC and is resent; a lasting failure retires the link (R301). -/
  | linkCrcError (port : Bool) (n : Nat) (lasting : Bool)
  /-- A port stops training and the hash is taken over the remaining ports (R450). -/
  | portTrainingLoss (port : Nat)
  /-- A parity error in tile SRAM is retried and may retire the tile or way (R301). -/
  | sramParityError (tile kind line : Nat) (lasting : Bool)
  /-- A base-memory ECC error is corrected or retried and may retire the page (R301). -/
  | eccError (pa : Nat) (double lasting : Bool)
  /-- An occupancy window ends and an inter-cluster link may change width (R453). -/
  | linkOccupancyWindow (cluster flits : Nat)
  /-- The 64-cycle width handshake ends and flits flow again (R453). -/
  | linkWidthHandshakeEnd (cluster : Nat)
  /-- A doorbell write sets a queue's TAIL or stops it on overrun (R376). -/
  | doorbell (slot queue : Nat) (v : BitVec 64)
  /-- The queue processor parses a LAUNCH packet and writes its counter (R379). -/
  | launchPacket (slot queue : Nat)
  /-- A FENCE packet reads its conditions and holds the queue (R381). -/
  | fencePacket (slot queue : Nat)
  /-- A FENCE condition counter is tested again on a write or after 1,000 ticks (R382). -/
  | fenceConditionTest (slot queue cond : Nat)
  /-- Fence at system scope, then write or add to an address (R383). -/
  | signalPacket (slot queue : Nat)
  /-- Cancel a level as CANCEL does and write a status (R384). -/
  | cancelPacket (slot queue : Nat)
  /-- Open a graph level in the queue (R387). -/
  | graphOpen (slot queue : Nat)
  /-- Close the innermost graph level (R385). -/
  | graphClose (slot queue : Nat)
  /-- Open a phase level (R387). -/
  | phaseOpen (slot queue : Nat)
  /-- Close the innermost phase level (R385). -/
  | phaseClose (slot queue : Nat)
  /-- Open a job level (R387). -/
  | jobOpen (slot queue : Nat)
  /-- Close the innermost job level (R385). -/
  | jobClose (slot queue : Nat)
  /-- The dispatcher places the next workgroup or gang of the highest queue (R393). -/
  | dispatchRound (die : Nat)
  /-- A gang waiting 10,000 ticks reserves a cluster (R394). -/
  | gangReservation (die : Nat)
  /-- A waiter's start or end changes the effective priority of owner queues (R399). -/
  | eprioUpdate (slot : Nat)
  /-- A channel or port window of 1,024 clocks ends and reservation counts restart (R402). -/
  | bandwidthWindow (resource : Nat)
  /-- A workgroup ends after warps, copies and write-backs, and counts in DONE (R388). -/
  | workgroupEnd (wg : Nat)
  /-- Once all warps are done, the workgroup image is written and it leaves the tile (R275). -/
  | workgroupSwitchOut (wg : Nat)
  /-- A placed saved workgroup has its header and control state written and granules marked absent (R44). -/
  | workgroupRestore (wg : Nat)
  /-- SIGDONE bound of 20,000 ticks expires (R440). -/
  | preemptTimeout (wg : Nat)
  /-- A cancel handler exceeds its bound and the workgroup ends with error (R443). -/
  | cancelTimeout (wg : Nat)
  /-- At every 100,000th ref tick the controller chooses swaps (R410). -/
  | rotationInterval (cluster : Nat) (temps : List Nat)
  /-- All warps of both tiles stand at boundaries and transfer begins (R413). -/
  | swapQuiesceEnd (cluster : Nat)
  /-- Quiesce exceeds 300 ticks and the swap is abandoned (R413). -/
  | swapQuiesceTimeout (cluster : Nat)
  /-- The image lands on the new tile and held forwarded writes are applied (R413). -/
  | swapTransferEnd (cluster : Nat)
  /-- Write-backs of both tiles are acknowledged (R413). -/
  | swapWritebackEnd (cluster : Nat)
  /-- Warps resume on the new tiles and deferred events proceed (R413). -/
  | swapEnd (cluster : Nat)
  /-- The idle clock generator finishes locking; a pending switch follows (R475). -/
  | clockLockDone (cluster : Nat)
  /-- VNOW reaches the required voltage, ending a raise or a lowering (R476). -/
  | voltageTargetReached (pair : Nat)
  /-- Every 10 ticks layer currents are sampled and ballast steps adjust (R482). -/
  | balanceSample (pair ieven iodd : Nat)
  /-- Every 1,000 ticks the die adjusts PLIM and relaxes a clamp (R487). -/
  | powerSample (die power : Nat) (draws : List Nat)
  /-- Die power above 1.25 × BUDGET clamps clusters to their fallback level (R488). -/
  | hardClamp (die power : Nat)
  /-- A 1,000-tick window ends and STALLR RATIO is written, from its counts of stalled and of all cycles (R489). -/
  | stallWindow (cluster stalled held : Nat)
  /-- 2,048 idle ticks expire and the pair starts gating (R490). -/
  | gatingIdleExpiry (pair : Nat)
  /-- Gating completes after 20 ticks and the pair is gated (R490). -/
  | gatingDone (pair : Nat)
  /-- The rail is restored and generators locked; the pair is powered (R490). -/
  | pairWakeDone (pair : Nat)
  /-- A collective call is posted in the rendezvous table when a place is free (R459). -/
  | rendezvousPost (id : Nat)
  /-- A pull message is served when the pulled call has posted and READY covers the segment (R461). -/
  | pullRequest (id : Nat) (suffix : Bool) (seg : Nat)
  /-- A pulled segment arrives, is combined and published with READY (R462). -/
  | pullData (id : Nat) (suffix : Bool) (seg : Nat)
  /-- The group's flag union reaches a member, which writes FLAGS, results and token (R464). -/
  | flagUnion (id : Nat)
  /-- Power-on latches straps and runs the boot ROM stage (R500). -/
  | powerOn (straps : BitVec 64)
  /-- Stage 1 trains memory and links, clears memory and checks stage 2 (R500). -/
  | bootStage1
  /-- The device OS trains ports, builds tables and releases dispatchers (R500). -/
  | bootStage2
  /-- The device OS returns a signed report on request (R502). -/
  | attestationReport (nonce : BitVec 256)
  /-- The management port answers a status request over MCTP (R505). -/
  | mctpRequest
  /-- The management cores advance the fault ring HEAD (R501). -/
  | faultRingHeadWrite (v : BitVec 64)
  /-- A reply with a TAG and verdict releases parked work (R501). -/
  | faultRingReply (v : BitVec 64)
  /-- A write to a context slot binds, unbinds or updates a context (R494). -/
  | contextSlotWrite (slot off : Nat) (v : BitVec 64)
  /-- Workgroup control OP 1 pre-empts a workgroup, or discards it in an idempotent queue (R437). -/
  | wcbPreempt (slot : Nat) (handle wgix : Nat)
  /-- Workgroup control OP 2 pre-empts a whole gang (R441). -/
  | wcbPreemptGang (slot : Nat) (handle wgix : Nat)
  /-- Workgroup control OP 3 requests restore of a saved workgroup or gang (R496). -/
  | wcbRestore (slot : Nat) (handle wgix : Nat)
  /-- Workgroup control OP 4 ends a switched-out workgroup without restoring it (R443). -/
  | wcbEnd (slot : Nat) (handle wgix : Nat)
  /-- A descriptor write updates a queue; STATE 0 after an error restarts parsing (R375). -/
  | queueDescriptorWrite (slot queue word : Nat) (v : BitVec 64)
  /-- A pipe descriptor write changes owner, quota, ring or enable (R207). -/
  | pipeDescriptorWrite (cluster pipe word : Nat) (v : BitVec 64)
  /-- A slot write of EN 0 while occupied detaches every member (R357). -/
  | convoySlotWrite (die slot : Nat) (v : BitVec 64)
  /-- A write sets rotation threshold, swap count and enable (R408). -/
  | rotctlWrite (cluster : Nat) (v : BitVec 64)
  /-- A write sets a pair's floor and gating enable (R473). -/
  | pairpwrWrite (pair : Nat) (v : BitVec 64)
  /-- A write sets a die's power budget (R486). -/
  | diepwrWrite (die : Nat) (v : BitVec 64)
  /-- Writing CLR resets a monitor's statistics and bins (R506). -/
  | perfMonitorClear (cluster k : Nat)
  /-- A write changes an inbound window table entry (R451). -/
  | inboundWindowWrite (entry word : Nat) (v : BitVec 64)
  /-- A write to any other monitor-interface register field (R492). -/
  | monitorRegisterWrite (addr : Nat) (v : BitVec 64)
  /-- A merge point's acknowledgement of a performed space-0x0 write or write-back reaches the tile, letting a waiting FENCE, REL or workgroup end complete (R328). -/
  | writeAcknowledgement (tile line : Nat)
  /-- More than 8 flits wait at an end of a half- or quarter-width link, or occupancy over the last 256 link cycles exceeds 0.75, and the link starts renegotiating to full width (R453). -/
  | linkCongestion (cluster : Nat)
  /-- A management core stores to device memory, such as a page table, range table, counter or flag, and the store is performed at its channel (R342). -/
  | managementCoreStore (pa size : Nat) (v : BitVec 64)
deriving DecidableEq, Repr

end Sys2Proof
end

