-- ==== Sys2Proof/Machine/Legal.lean ====
section
/-! DEFINITION. Which values of an instruction's fields are legal, from the word alone (R63, R65, R68 and the rules that
each chapter gives its own fields). An instruction whose fields are illegal takes the precise illegal-instruction trap
when it is issued. What also depends on the warp (the allocation of R16, the place in the clause of R57, the flag field
of R55) is checked beside it in the meanings. -/

namespace Sys2Proof.Machine

/-- Vector operand codes that name index registers: v[x0] to v[x3] (R63). -/
def isIndexed (c : BitVec 7) : Bool := decide (120 ≤ c.toNat) && decide (c.toNat ≤ 123)

/-- Vector operand codes that name stream registers (R63). -/
def isStream (c : BitVec 7) : Bool := decide (112 ≤ c.toNat) && decide (c.toNat ≤ 119)

/-- Codes legal as a source in a and b of L-RRR, L-RRS and L-XL (R63). -/
def srcOk (c : BitVec 7) : Bool := decide (c.toNat ≤ 125)

/-- Codes legal as a vector destination (R18, R63). -/
def dstOk (c : BitVec 7) : Bool := decide (c.toNat < 112) || isIndexed c

/-- Codes legal as the base, or as the data source, of L-MEM (R63, R187). -/
def baseOk (c : BitVec 7) : Bool := decide (c.toNat ≤ 125) && !isStream c

/-- Codes legal as the source of SLANE (R160). -/
def laneSrcOk (c : BitVec 7) : Bool := decide (c.toNat < 112) || decide (c = 124) || decide (c = 125)

/-- Format codes that R30 defines, absent left out (R117). -/
def fmtOk (f : BitVec 5) : Bool :=
  decide (f.toNat ≤ 0x0A) || (decide (0x10 ≤ f.toNat) && decide (f.toNat ≤ 0x16))

/-- Width in bits of the sub-elements of a format (R30); 64 for a code that R30 does not define. -/
def fmtWidth (f : BitVec 5) : Nat :=
  match f.toNat with
  | 0x01 | 0x02 | 0x14 | 0x15 => 8
  | 0x03 | 0x04 | 0x12 | 0x13 => 16
  | 0x05 | 0x06 | 0x11 => 32
  | 0x09 | 0x0A | 0x16 => 4
  | _ => 64

/-- Formats an access to memory may have: defined, and of 8 bits or more (R180). -/
def byteFmt (f : BitVec 5) : Bool := fmtOk f && decide (8 ≤ fmtWidth f)

/-- Types that the atomic operation o accepts (R74, R191). -/
def atomTypeOk (o : BitVec 4) (t : BitVec 5) : Bool :=
  let word := decide (0x05 ≤ t.toNat) && decide (t.toNat ≤ 0x08)
  match o.toNat with
  | 0x8 => word || decide (t = 0x11#5) || decide (t = 0x10#5) || decide (t = 0x00#5)
  | 0xA => decide (t = 0x11#5)
  | 0xB => decide (t = 0x13#5)
  | n => decide (n < 12) && word

/-- Data operand and type of VCAS (R193). -/
def casDataOk (d : BitVec 7) (t : BitVec 5) : Bool :=
  decide (0x05 ≤ t.toNat) && decide (t.toNat ≤ 0x08)
    && (if fmtWidth t = 64 then decide (d.toNat ≤ 110) else dstOk d)

/-- Sub-group width codes (R140). -/
def widthOk (w : BitVec 3) : Bool := decide (1 ≤ w.toNat) && decide (w.toNat ≤ 5)

/-- Bits of the group size code of VPACK and VUNPK (R117). -/
def groupBits (g : BitVec 3) : Nat :=
  match g.toNat with
  | 0 => 4
  | 1 => 8
  | 2 => 16
  | _ => 32

/-- Flag fields of a CLAUSE header (R51, R55). -/
def flagSelOk (f : BitVec 4) : Bool := decide (f.toNat ≤ 11) || decide (f = 15)

/-- Special registers marked RW (R269). -/
def specialWritable (n : BitVec 6) : Bool :=
  match n.toNat with
  | 0x0B | 0x0D | 0x0F | 0x10 | 0x15 | 0x17 | 0x18 | 0x19 | 0x1A => true
  | _ => false

/-- Whether every field of the instruction is legal (R68). The events of the hardware have no fields to judge. -/
def legal : Instr → Bool
  | .vaddRrr d a b _ => dstOk d && srcOk a && srcOk b
  | .vsubRrr d a b _ => dstOk d && srcOk a && srcOk b
  | .vmulRrr d a b _ => dstOk d && srcOk a && srcOk b
  | .vmulh d a b _ => dstOk d && srcOk a && srcOk b
  | .vmad d a b _ => dstOk d && srcOk a && srcOk b
  | .vaddsat d a b _ => dstOk d && srcOk a && srcOk b
  | .vsubsat d a b _ => dstOk d && srcOk a && srcOk b
  | .vmin d a b _ => dstOk d && srcOk a && srcOk b
  | .vmax d a b _ => dstOk d && srcOk a && srcOk b
  | .vabs d a _ => dstOk d && srcOk a
  | .vneg d a _ => dstOk d && srcOk a
  | .vandRrr d a b _ => dstOk d && srcOk a && srcOk b
  | .vorRrr d a b _ => dstOk d && srcOk a && srcOk b
  | .vxor d a b _ => dstOk d && srcOk a && srcOk b
  | .vandn d a b _ => dstOk d && srcOk a && srcOk b
  | .vnot d a _ => dstOk d && srcOk a
  | .vshlRrr d a b _ => dstOk d && srcOk a && srcOk b
  | .vshrRrr d a b _ => dstOk d && srcOk a && srcOk b
  | .vsarRrr d a b _ => dstOk d && srcOk a && srcOk b
  | .vrol d a b _ => dstOk d && srcOk a && srcOk b
  | .vclz d a _ => dstOk d && srcOk a
  | .vpopc d a _ => dstOk d && srcOk a
  | .vbrev d a _ => dstOk d && srcOk a
  | .vbfx d a b _ => dstOk d && srcOk a && decide (b.toNat < 64)
  | .vbfi d a b _ => dstOk d && srcOk a && decide (b.toNat < 64)
  | .vcmp q _ c a b _ => decide (q ≠ 0) && decide (c.toNat < 6) && srcOk a && srcOk b
  | .vsel d a b _ => dstOk d && srcOk a && srcOk b
  | .vmov d a _ => dstOk d && srcOk a
  | .vmovs d f _ _ => dstOk d && fmtOk f
  | .vamin d a b _ => dstOk d && srcOk a && srcOk b
  | .vamax d a b _ => dstOk d && srcOk a && srcOk b
  | .vfaddRrr d a b _ => dstOk d && srcOk a && srcOk b
  | .vfsub d a b _ => dstOk d && srcOk a && srcOk b
  | .vfmulRrr d a b _ => dstOk d && srcOk a && srcOk b
  | .vfma d a b _ => dstOk d && srcOk a && srcOk b
  | .vfmin d a b _ => dstOk d && srcOk a && srcOk b
  | .vfmax d a b _ => dstOk d && srcOk a && srcOk b
  | .vfabs d a _ => dstOk d && srcOk a
  | .vfneg d a _ => dstOk d && srcOk a
  | .vfcmp q _ _ a b _ => decide (q ≠ 0) && srcOk a && srcOk b
  | .vfrcp d a _ => dstOk d && srcOk a
  | .vfrsq d a _ => dstOk d && srcOk a
  | .vfsqrt d a _ => dstOk d && srcOk a
  | .vfex2 d a _ => dstOk d && srcOk a
  | .vflg2 d a _ => dstOk d && srcOk a
  | .vfsin d a _ => dstOk d && srcOk a
  | .vfcos d a _ => dstOk d && srcOk a
  | .vfclass d a _ => dstOk d && srcOk a
  | .vcvt d a f _ _ => dstOk d && srcOk a && fmtOk f
  | .vcvts d a f _ => dstOk d && srcOk a && fmtOk f
  | .vtag d a f _ => dstOk d && srcOk a && fmtOk f
  | .vpack d a h g _ => dstOk d && srcOk a && decide (g.toNat < 4) && decide (h.toNat * groupBits g < 64)
  | .vunpk d a h g _ => dstOk d && srcOk a && decide (g.toNat < 4) && decide (h.toNat * groupBits g < 64)
  | .vaddRrs d a _ _ => dstOk d && srcOk a
  | .vsubRrs d a _ _ => dstOk d && srcOk a
  | .vmulRrs d a _ _ => dstOk d && srcOk a
  | .vandRrs d a _ _ => dstOk d && srcOk a
  | .vorRrs d a _ _ => dstOk d && srcOk a
  | .vshlRrs d a _ _ => dstOk d && srcOk a
  | .vshrRrs d a _ _ => dstOk d && srcOk a
  | .vsarRrs d a _ _ => dstOk d && srcOk a
  | .vfaddRrs d a b _ => dstOk d && srcOk a && decide (b.toNat < 64)
  | .vfmulRrs d a b _ => dstOk d && srcOk a && decide (b.toNat < 64)
  | .vshuf d a _ w _ => dstOk d && srcOk a && widthOk w
  | .vshufi d a _ w _ => dstOk d && srcOk a && widthOk w
  | .vlsh d a _ w _ _ => dstOk d && srcOk a && widthOk w
  | .vbcst d a _ w _ => dstOk d && srcOk a && widthOk w
  | .vred d a w o => dstOk d && srcOk a && widthOk w && decide (o ≠ 7)
  | .vscan d a w _ o => dstOk d && srcOk a && widthOk w && decide (o ≠ 7)
  | .vcav d a w o => dstOk d && srcOk a && widthOk w && decide (o ≠ 7)
  | .vballot d w _ => dstOk d && widthOk w
  | .vsubel d a _ => dstOk d && srcOk a
  | .vxswap d a _ _ => dstOk d && srcOk a && !isIndexed a
  | .vld d b t _ _ => dstOk d && baseOk b && byteFmt t
  | .vst d b t _ _ => baseOk d && baseOk b && byteFmt t
  | .vatom d b t _ o => dstOk d && baseOk b && atomTypeOk o t
  | .vcas d b t _ _ => baseOk b && casDataOk d t
  | .vprf b _ _ => baseOk b
  | .vlds d b t _ _ => dstOk d && baseOk b && byteFmt t
  | .vsts d b t _ _ => baseOk d && baseOk b && byteFmt t
  | .vatoms d b t _ o => dstOk d && baseOk b && atomTypeOk o t
  | .br _ _ _ => true
  | .xset _ a _ => srcOk a
  | .xadd _ _ _ _ => true
  | .sadd _ _ _ => true
  | .ssub _ _ _ => true
  | .smul _ _ _ => true
  | .smulh _ _ _ => true
  | .smulhU _ _ _ => true
  | .sdiv _ _ _ => true
  | .sdivU _ _ _ => true
  | .srem _ _ _ => true
  | .sremU _ _ _ => true
  | .sand _ _ _ => true
  | .sor _ _ _ => true
  | .sxor _ _ _ => true
  | .snot _ _ => true
  | .sshl _ _ _ => true
  | .sshr _ _ _ => true
  | .ssar _ _ _ => true
  | .smin _ _ _ => true
  | .sminU _ _ _ => true
  | .smax _ _ _ => true
  | .smaxU _ _ _ => true
  | .ssel _ _ _ => true
  | .smov _ _ => true
  | .scmp _ _ _ c => decide (c.toNat < 10)
  | .smovi _ _ => true
  | .saddImm _ _ _ => true
  | .sandImm _ _ _ => true
  | .sorImm _ _ _ => true
  | .sxorImm _ _ _ => true
  | .sshlImm _ _ _ => true
  | .sshrImm _ _ _ => true
  | .ssarImm _ _ _ => true
  | .slane _ v _ => laneSrcOk v
  | .spredGet _ _ => true
  | .spredSet _ k => decide (k ≠ 0)
  | .spredAct _ => true
  | .bra _ => true
  | .brasNz _ _ => true
  | .brasZ _ _ => true
  | .call _ _ => true
  | .ret _ => true
  | .mark _ => true
  | .join => true
  | .loop _ n l => decide (n ≠ 3) && decide (2 ≤ l.toNat) && decide (l.toNat ≤ 256)
  | .exit => true
  | .nop => true
  | .xwin _ => true
  | .sld _ _ _ z g _ => !(decide (z = 3) && decide (g = 1))
  | .sst _ _ _ _ _ => true
  | .satom _ _ _ _ o => decide (o.toNat < 12)
  | .scas _ _ _ _ => true
  | .ldlW _ _ => true
  | .ldlD _ _ => true
  | .acq _ _ s => decide (s ≠ 7)
  | .rel _ _ s => decide (s ≠ 7)
  | .fence k s => decide (k ≠ 3) && decide (s ≠ 7)
  | .publish _ _ s => decide (s ≠ 7)
  | .stset a _ => decide (a.toNat ≤ 60)
  | .stsave _ w _ => decide (w.toNat ≤ 4)
  | .stpos _ _ => true
  | .stskip _ _ => true
  | .grd _ _ => true
  | .gwr _ _ => true
  | .gatom _ _ _ o => decide (o.toNat < 12)
  | .qbind _ _ => true
  | .qpush _ _ => true
  | .qpushv a n _ => decide (a.toNat + n.toNat ≤ 63)
  | .qpop _ _ => true
  | .qtry d _ => decide (d ≠ 63)
  | .qsteal d _ => decide (d ≠ 63)
  | .qlen _ _ => true
  | .mma _ _ _ v n => decide (v.toNat < 112) && decide (n ≠ 3)
  | .mmt _ _ _ v _ => decide (v.toNat < 112)
  | .mzero v n _ => decide (v.toNat < 112) && decide (n ≠ 3)
  | .mscale _ _ f => decide (f.toNat < 3)
  | .cpy _ r b v => decide (r.toNat ≤ 61) && (decide (v = 1) || decide (b = 0))
  | .cpt _ r b v => decide (r.toNat ≤ 60) && (decide (v = 1) || decide (b = 0))
  | .cpr _ r b v => decide (r.toNat ≤ 60) && (decide (v = 1) || decide (b = 0))
  | .cpx _ r b v => decide (r.toNat ≤ 60) && (decide (v = 1) || decide (b = 0))
  | .cpc _ r b v => decide (r.toNat ≤ 61) && (decide (v = 1) || decide (b = 0))
  | .cpclose => true
  | .cpwait _ => true
  | .tbinit _ _ => true
  | .tbexp _ _ _ s g => decide (s = 1) || decide (g = 0)
  | .tbarr _ _ s g => decide (s = 1) || decide (g = 0)
  | .tbwait _ _ => true
  | .bar => true
  | .gbar => true
  | .cvjoin _ _ _ => true
  | .cvleave _ _ => true
  | .cvslip _ _ => true
  | .cvrejoin _ _ _ => true
  | .srd _ n => decide (n.toNat ≤ 0x1A) && decide (n ≠ 0)
  | .srdV d h n => decide (n.toNat ≤ 0x1A) && decide (h.toNat * 64 + d.toNat < 112)
  | .swr _ n => specialWritable n
  | .trap _ => true
  | .tret => true
  | .sigdone => true
  | .region _ _ => true
  | .setperf _ _ => true
  | .waitc _ _ => true
  | .cancel _ _ _ => true
  | .sleep _ => true
  | .bkpt _ => true
  | .pool n => decide (n ≠ 0)
  | .clause _ a b _ => flagSelOk a && flagSelOk b
  | .loopFallThrough _ => true
  | .longLatencyComplete _ _ => true
  | .handlerEntry _ => true
  | .warpReplay _ => true
  | .matrixRowBlock _ => true
  | .copyStart _ => true
  | .copySectorPerformed _ => true
  | .copyTokenWrite _ => true
  | .applyRequest _ _ => true
  | .applyAck _ _ => true
  | .applyAckTimeout _ _ => true
  | .tbwaitWake _ _ => true
  | .barRelease _ _ => true
  | .pipeEntryAvailable _ _ => true
  | .waitcWake _ => true
  | .remoteCounterPoll _ => true
  | .sleepExpire _ => true
  | .convoyReevaluate _ _ => true
  | .patienceExpiry _ => true
  | .mergePointRead _ _ => true
  | .mergePointWrite _ _ _ => true
  | .dramReturn _ => true
  | .atomicUnitRequest _ _ _ _ => true
  | .remoteWriteAck _ => true
  | .pageWalkStart _ _ _ _ => true
  | .pageWalkEnd _ _ _ => true
  | .translationInvalidate _ => true
  | .publishExchange _ => true
  | .fabricInboundRequest _ _ _ _ _ _ => true
  | .fabricCompletion _ _ _ _ => true
  | .hostAccess _ _ _ _ => true
  | .linkCrcError _ _ _ => true
  | .portTrainingLoss _ => true
  | .sramParityError _ _ _ _ => true
  | .eccError _ _ _ => true
  | .linkOccupancyWindow _ _ => true
  | .linkWidthHandshakeEnd _ => true
  | .doorbell _ _ _ => true
  | .launchPacket _ _ => true
  | .fencePacket _ _ => true
  | .fenceConditionTest _ _ _ => true
  | .signalPacket _ _ => true
  | .cancelPacket _ _ => true
  | .graphOpen _ _ => true
  | .graphClose _ _ => true
  | .phaseOpen _ _ => true
  | .phaseClose _ _ => true
  | .jobOpen _ _ => true
  | .jobClose _ _ => true
  | .dispatchRound _ => true
  | .gangReservation _ => true
  | .eprioUpdate _ => true
  | .bandwidthWindow _ => true
  | .workgroupEnd _ => true
  | .workgroupSwitchOut _ => true
  | .workgroupRestore _ => true
  | .preemptTimeout _ => true
  | .cancelTimeout _ => true
  | .rotationInterval _ _ => true
  | .swapQuiesceEnd _ => true
  | .swapQuiesceTimeout _ => true
  | .swapTransferEnd _ => true
  | .swapWritebackEnd _ => true
  | .swapEnd _ => true
  | .clockLockDone _ => true
  | .voltageTargetReached _ => true
  | .balanceSample _ _ _ => true
  | .powerSample _ _ _ => true
  | .hardClamp _ _ => true
  | .stallWindow _ _ _ => true
  | .gatingIdleExpiry _ => true
  | .gatingDone _ => true
  | .pairWakeDone _ => true
  | .rendezvousPost _ => true
  | .pullRequest _ _ _ => true
  | .pullData _ _ _ => true
  | .flagUnion _ => true
  | .powerOn _ => true
  | .bootStage1 => true
  | .bootStage2 => true
  | .attestationReport _ => true
  | .mctpRequest => true
  | .faultRingHeadWrite _ => true
  | .faultRingReply _ => true
  | .contextSlotWrite _ _ _ => true
  | .wcbPreempt _ _ _ => true
  | .wcbPreemptGang _ _ _ => true
  | .wcbRestore _ _ _ => true
  | .wcbEnd _ _ _ => true
  | .queueDescriptorWrite _ _ _ _ => true
  | .pipeDescriptorWrite _ _ _ _ => true
  | .convoySlotWrite _ _ _ => true
  | .rotctlWrite _ _ => true
  | .pairpwrWrite _ _ => true
  | .diepwrWrite _ _ => true
  | .perfMonitorClear _ _ => true
  | .inboundWindowWrite _ _ _ => true
  | .monitorRegisterWrite _ _ => true
  | .illegalInstruction _ => true
  | .instructionFetchFault _ => true
  | .writeAcknowledgement _ _ => true
  | .linkCongestion _ => true
  | .managementCoreStore _ _ _ => true

end Sys2Proof.Machine
end

