-- ==== Sys2Proof/WellFormed.lean ====
section
/-! DEFINITION. Well-formed instructions: those whose fields R68 does not make illegal. -/

namespace Sys2Proof

/-- Every field of the instruction is legal from the word alone (R63, R68). -/
abbrev Instr.WellFormed (i : Instr) : Prop := Machine.legal i = true

end Sys2Proof
end

