-- ==== Sys2Proof/Decode.lean ====
section
/-! DEFINITION. The decoder and the encoder of instruction words, from the encoding tables of the spec
(R51, R60, R62, R66, R70-R73 and the field tables of each chapter). Decoding looks at the bits that the encoding fixes:
a word whose fields are legal in form but illegal in value (an operand code, a width code, a scope of 7) decodes to its
instruction, which then takes the illegal-instruction trap when it is issued (R68). A word that no row of the tables
fits is refused, and step raises the trap (R68, R69). -/

namespace Sys2Proof

/-- One row of the opcode maps: bits [31:24], the body bits that are fixed, their value, and the instruction that the
other body bits make. -/
structure OpRow where
  major : BitVec 8
  mask : BitVec 24
  pat : BitVec 24
  build : BitVec 24 → Instr

/-- Lane integer, bitwise, shift, compare, select and move rows (R70, majors 0x01 to 0x1F). -/
def rowsInteger : List OpRow := [
  ⟨0x01#8, 0x000000#24, 0x000000#24, fun w => .vaddRrr (w.extractLsb' 17 7) (w.extractLsb' 10 7) (w.extractLsb' 3 7) (w.extractLsb' 0 3)⟩,
  ⟨0x02#8, 0x000000#24, 0x000000#24, fun w => .vsubRrr (w.extractLsb' 17 7) (w.extractLsb' 10 7) (w.extractLsb' 3 7) (w.extractLsb' 0 3)⟩,
  ⟨0x03#8, 0x000000#24, 0x000000#24, fun w => .vmulRrr (w.extractLsb' 17 7) (w.extractLsb' 10 7) (w.extractLsb' 3 7) (w.extractLsb' 0 3)⟩,
  ⟨0x04#8, 0x000000#24, 0x000000#24, fun w => .vmulh (w.extractLsb' 17 7) (w.extractLsb' 10 7) (w.extractLsb' 3 7) (w.extractLsb' 0 3)⟩,
  ⟨0x05#8, 0x000000#24, 0x000000#24, fun w => .vmad (w.extractLsb' 17 7) (w.extractLsb' 10 7) (w.extractLsb' 3 7) (w.extractLsb' 0 3)⟩,
  ⟨0x06#8, 0x000000#24, 0x000000#24, fun w => .vaddsat (w.extractLsb' 17 7) (w.extractLsb' 10 7) (w.extractLsb' 3 7) (w.extractLsb' 0 3)⟩,
  ⟨0x07#8, 0x000000#24, 0x000000#24, fun w => .vsubsat (w.extractLsb' 17 7) (w.extractLsb' 10 7) (w.extractLsb' 3 7) (w.extractLsb' 0 3)⟩,
  ⟨0x08#8, 0x000000#24, 0x000000#24, fun w => .vmin (w.extractLsb' 17 7) (w.extractLsb' 10 7) (w.extractLsb' 3 7) (w.extractLsb' 0 3)⟩,
  ⟨0x09#8, 0x000000#24, 0x000000#24, fun w => .vmax (w.extractLsb' 17 7) (w.extractLsb' 10 7) (w.extractLsb' 3 7) (w.extractLsb' 0 3)⟩,
  ⟨0x0A#8, 0x0003F8#24, 0x000000#24, fun w => .vabs (w.extractLsb' 17 7) (w.extractLsb' 10 7) (w.extractLsb' 0 3)⟩,
  ⟨0x0B#8, 0x0003F8#24, 0x000000#24, fun w => .vneg (w.extractLsb' 17 7) (w.extractLsb' 10 7) (w.extractLsb' 0 3)⟩,
  ⟨0x0C#8, 0x000000#24, 0x000000#24, fun w => .vandRrr (w.extractLsb' 17 7) (w.extractLsb' 10 7) (w.extractLsb' 3 7) (w.extractLsb' 0 3)⟩,
  ⟨0x0D#8, 0x000000#24, 0x000000#24, fun w => .vorRrr (w.extractLsb' 17 7) (w.extractLsb' 10 7) (w.extractLsb' 3 7) (w.extractLsb' 0 3)⟩,
  ⟨0x0E#8, 0x000000#24, 0x000000#24, fun w => .vxor (w.extractLsb' 17 7) (w.extractLsb' 10 7) (w.extractLsb' 3 7) (w.extractLsb' 0 3)⟩,
  ⟨0x0F#8, 0x000000#24, 0x000000#24, fun w => .vandn (w.extractLsb' 17 7) (w.extractLsb' 10 7) (w.extractLsb' 3 7) (w.extractLsb' 0 3)⟩,
  ⟨0x10#8, 0x0003F8#24, 0x000000#24, fun w => .vnot (w.extractLsb' 17 7) (w.extractLsb' 10 7) (w.extractLsb' 0 3)⟩,
  ⟨0x11#8, 0x000000#24, 0x000000#24, fun w => .vshlRrr (w.extractLsb' 17 7) (w.extractLsb' 10 7) (w.extractLsb' 3 7) (w.extractLsb' 0 3)⟩,
  ⟨0x12#8, 0x000000#24, 0x000000#24, fun w => .vshrRrr (w.extractLsb' 17 7) (w.extractLsb' 10 7) (w.extractLsb' 3 7) (w.extractLsb' 0 3)⟩,
  ⟨0x13#8, 0x000000#24, 0x000000#24, fun w => .vsarRrr (w.extractLsb' 17 7) (w.extractLsb' 10 7) (w.extractLsb' 3 7) (w.extractLsb' 0 3)⟩,
  ⟨0x14#8, 0x000000#24, 0x000000#24, fun w => .vrol (w.extractLsb' 17 7) (w.extractLsb' 10 7) (w.extractLsb' 3 7) (w.extractLsb' 0 3)⟩,
  ⟨0x15#8, 0x0003F8#24, 0x000000#24, fun w => .vclz (w.extractLsb' 17 7) (w.extractLsb' 10 7) (w.extractLsb' 0 3)⟩,
  ⟨0x16#8, 0x0003F8#24, 0x000000#24, fun w => .vpopc (w.extractLsb' 17 7) (w.extractLsb' 10 7) (w.extractLsb' 0 3)⟩,
  ⟨0x17#8, 0x0003F8#24, 0x000000#24, fun w => .vbrev (w.extractLsb' 17 7) (w.extractLsb' 10 7) (w.extractLsb' 0 3)⟩,
  ⟨0x18#8, 0x000000#24, 0x000000#24, fun w => .vbfx (w.extractLsb' 17 7) (w.extractLsb' 10 7) (w.extractLsb' 3 7) (w.extractLsb' 0 3)⟩,
  ⟨0x19#8, 0x000000#24, 0x000000#24, fun w => .vbfi (w.extractLsb' 17 7) (w.extractLsb' 10 7) (w.extractLsb' 3 7) (w.extractLsb' 0 3)⟩,
  ⟨0x1A#8, 0x000000#24, 0x000000#24, fun w => .vcmp (w.extractLsb' 21 3) (w.extractLsb' 20 1) (w.extractLsb' 17 3) (w.extractLsb' 10 7) (w.extractLsb' 3 7) (w.extractLsb' 0 3)⟩,
  ⟨0x1B#8, 0x000000#24, 0x000000#24, fun w => .vsel (w.extractLsb' 17 7) (w.extractLsb' 10 7) (w.extractLsb' 3 7) (w.extractLsb' 0 3)⟩,
  ⟨0x1C#8, 0x0003F8#24, 0x000000#24, fun w => .vmov (w.extractLsb' 17 7) (w.extractLsb' 10 7) (w.extractLsb' 0 3)⟩,
  ⟨0x1D#8, 0x000C00#24, 0x000000#24, fun w => .vmovs (w.extractLsb' 17 7) (w.extractLsb' 12 5) (w.extractLsb' 3 7) (w.extractLsb' 0 3)⟩,
  ⟨0x1E#8, 0x000000#24, 0x000000#24, fun w => .vamin (w.extractLsb' 17 7) (w.extractLsb' 10 7) (w.extractLsb' 3 7) (w.extractLsb' 0 3)⟩,
  ⟨0x1F#8, 0x000000#24, 0x000000#24, fun w => .vamax (w.extractLsb' 17 7) (w.extractLsb' 10 7) (w.extractLsb' 3 7) (w.extractLsb' 0 3)⟩]

/-- Lane floating, conversion and tag rows and the L-RRS forms (R70, majors 0x20 to 0x3F). -/
def rowsFloat : List OpRow := [
  ⟨0x20#8, 0x000000#24, 0x000000#24, fun w => .vfaddRrr (w.extractLsb' 17 7) (w.extractLsb' 10 7) (w.extractLsb' 3 7) (w.extractLsb' 0 3)⟩,
  ⟨0x21#8, 0x000000#24, 0x000000#24, fun w => .vfsub (w.extractLsb' 17 7) (w.extractLsb' 10 7) (w.extractLsb' 3 7) (w.extractLsb' 0 3)⟩,
  ⟨0x22#8, 0x000000#24, 0x000000#24, fun w => .vfmulRrr (w.extractLsb' 17 7) (w.extractLsb' 10 7) (w.extractLsb' 3 7) (w.extractLsb' 0 3)⟩,
  ⟨0x23#8, 0x000000#24, 0x000000#24, fun w => .vfma (w.extractLsb' 17 7) (w.extractLsb' 10 7) (w.extractLsb' 3 7) (w.extractLsb' 0 3)⟩,
  ⟨0x24#8, 0x000000#24, 0x000000#24, fun w => .vfmin (w.extractLsb' 17 7) (w.extractLsb' 10 7) (w.extractLsb' 3 7) (w.extractLsb' 0 3)⟩,
  ⟨0x25#8, 0x000000#24, 0x000000#24, fun w => .vfmax (w.extractLsb' 17 7) (w.extractLsb' 10 7) (w.extractLsb' 3 7) (w.extractLsb' 0 3)⟩,
  ⟨0x26#8, 0x0003F8#24, 0x000000#24, fun w => .vfabs (w.extractLsb' 17 7) (w.extractLsb' 10 7) (w.extractLsb' 0 3)⟩,
  ⟨0x27#8, 0x0003F8#24, 0x000000#24, fun w => .vfneg (w.extractLsb' 17 7) (w.extractLsb' 10 7) (w.extractLsb' 0 3)⟩,
  ⟨0x28#8, 0x000000#24, 0x000000#24, fun w => .vfcmp (w.extractLsb' 21 3) (w.extractLsb' 20 1) (w.extractLsb' 17 3) (w.extractLsb' 10 7) (w.extractLsb' 3 7) (w.extractLsb' 0 3)⟩,
  ⟨0x29#8, 0x0003F8#24, 0x000000#24, fun w => .vfrcp (w.extractLsb' 17 7) (w.extractLsb' 10 7) (w.extractLsb' 0 3)⟩,
  ⟨0x2A#8, 0x0003F8#24, 0x000000#24, fun w => .vfrsq (w.extractLsb' 17 7) (w.extractLsb' 10 7) (w.extractLsb' 0 3)⟩,
  ⟨0x2B#8, 0x0003F8#24, 0x000000#24, fun w => .vfsqrt (w.extractLsb' 17 7) (w.extractLsb' 10 7) (w.extractLsb' 0 3)⟩,
  ⟨0x2C#8, 0x0003F8#24, 0x000000#24, fun w => .vfex2 (w.extractLsb' 17 7) (w.extractLsb' 10 7) (w.extractLsb' 0 3)⟩,
  ⟨0x2D#8, 0x0003F8#24, 0x000000#24, fun w => .vflg2 (w.extractLsb' 17 7) (w.extractLsb' 10 7) (w.extractLsb' 0 3)⟩,
  ⟨0x2E#8, 0x0003F8#24, 0x000000#24, fun w => .vfsin (w.extractLsb' 17 7) (w.extractLsb' 10 7) (w.extractLsb' 0 3)⟩,
  ⟨0x2F#8, 0x0003F8#24, 0x000000#24, fun w => .vfcos (w.extractLsb' 17 7) (w.extractLsb' 10 7) (w.extractLsb' 0 3)⟩,
  ⟨0x30#8, 0x0003F8#24, 0x000000#24, fun w => .vfclass (w.extractLsb' 17 7) (w.extractLsb' 10 7) (w.extractLsb' 0 3)⟩,
  ⟨0x31#8, 0x000000#24, 0x000000#24, fun w => .vcvt (w.extractLsb' 17 7) (w.extractLsb' 10 7) (w.extractLsb' 5 5) (w.extractLsb' 3 2) (w.extractLsb' 0 3)⟩,
  ⟨0x32#8, 0x000018#24, 0x000000#24, fun w => .vcvts (w.extractLsb' 17 7) (w.extractLsb' 10 7) (w.extractLsb' 5 5) (w.extractLsb' 0 3)⟩,
  ⟨0x33#8, 0x000018#24, 0x000000#24, fun w => .vtag (w.extractLsb' 17 7) (w.extractLsb' 10 7) (w.extractLsb' 5 5) (w.extractLsb' 0 3)⟩,
  ⟨0x34#8, 0x000000#24, 0x000000#24, fun w => .vpack (w.extractLsb' 17 7) (w.extractLsb' 10 7) (w.extractLsb' 6 4) (w.extractLsb' 3 3) (w.extractLsb' 0 3)⟩,
  ⟨0x35#8, 0x000000#24, 0x000000#24, fun w => .vunpk (w.extractLsb' 17 7) (w.extractLsb' 10 7) (w.extractLsb' 6 4) (w.extractLsb' 3 3) (w.extractLsb' 0 3)⟩,
  ⟨0x36#8, 0x000000#24, 0x000000#24, fun w => .vaddRrs (w.extractLsb' 17 7) (w.extractLsb' 10 7) (w.extractLsb' 3 7) (w.extractLsb' 0 3)⟩,
  ⟨0x37#8, 0x000000#24, 0x000000#24, fun w => .vsubRrs (w.extractLsb' 17 7) (w.extractLsb' 10 7) (w.extractLsb' 3 7) (w.extractLsb' 0 3)⟩,
  ⟨0x38#8, 0x000000#24, 0x000000#24, fun w => .vmulRrs (w.extractLsb' 17 7) (w.extractLsb' 10 7) (w.extractLsb' 3 7) (w.extractLsb' 0 3)⟩,
  ⟨0x39#8, 0x000000#24, 0x000000#24, fun w => .vandRrs (w.extractLsb' 17 7) (w.extractLsb' 10 7) (w.extractLsb' 3 7) (w.extractLsb' 0 3)⟩,
  ⟨0x3A#8, 0x000000#24, 0x000000#24, fun w => .vorRrs (w.extractLsb' 17 7) (w.extractLsb' 10 7) (w.extractLsb' 3 7) (w.extractLsb' 0 3)⟩,
  ⟨0x3B#8, 0x000000#24, 0x000000#24, fun w => .vshlRrs (w.extractLsb' 17 7) (w.extractLsb' 10 7) (w.extractLsb' 3 7) (w.extractLsb' 0 3)⟩,
  ⟨0x3C#8, 0x000000#24, 0x000000#24, fun w => .vshrRrs (w.extractLsb' 17 7) (w.extractLsb' 10 7) (w.extractLsb' 3 7) (w.extractLsb' 0 3)⟩,
  ⟨0x3D#8, 0x000000#24, 0x000000#24, fun w => .vsarRrs (w.extractLsb' 17 7) (w.extractLsb' 10 7) (w.extractLsb' 3 7) (w.extractLsb' 0 3)⟩,
  ⟨0x3E#8, 0x000000#24, 0x000000#24, fun w => .vfaddRrs (w.extractLsb' 17 7) (w.extractLsb' 10 7) (w.extractLsb' 3 7) (w.extractLsb' 0 3)⟩,
  ⟨0x3F#8, 0x000000#24, 0x000000#24, fun w => .vfmulRrs (w.extractLsb' 17 7) (w.extractLsb' 10 7) (w.extractLsb' 3 7) (w.extractLsb' 0 3)⟩]

/-- Cross-lane rows (R70, majors 0x40 to 0x49). -/
def rowsCross : List OpRow := [
  ⟨0x40#8, 0x00003C#24, 0x000000#24, fun w => .vshuf (w.extractLsb' 17 7) (w.extractLsb' 10 7) (w.extractLsb' 9 1) (w.extractLsb' 6 3) (w.extractLsb' 0 2)⟩,
  ⟨0x41#8, 0x000020#24, 0x000000#24, fun w => .vshufi (w.extractLsb' 17 7) (w.extractLsb' 10 7) (w.extractLsb' 9 1) (w.extractLsb' 6 3) (w.extractLsb' 0 5)⟩,
  ⟨0x42#8, 0x000000#24, 0x000000#24, fun w => .vlsh (w.extractLsb' 17 7) (w.extractLsb' 10 7) (w.extractLsb' 9 1) (w.extractLsb' 6 3) (w.extractLsb' 5 1) (w.extractLsb' 0 5)⟩,
  ⟨0x43#8, 0x000020#24, 0x000000#24, fun w => .vbcst (w.extractLsb' 17 7) (w.extractLsb' 10 7) (w.extractLsb' 9 1) (w.extractLsb' 6 3) (w.extractLsb' 0 5)⟩,
  ⟨0x44#8, 0x000238#24, 0x000000#24, fun w => .vred (w.extractLsb' 17 7) (w.extractLsb' 10 7) (w.extractLsb' 6 3) (w.extractLsb' 0 3)⟩,
  ⟨0x45#8, 0x000218#24, 0x000000#24, fun w => .vscan (w.extractLsb' 17 7) (w.extractLsb' 10 7) (w.extractLsb' 6 3) (w.extractLsb' 5 1) (w.extractLsb' 0 3)⟩,
  ⟨0x46#8, 0x000238#24, 0x000000#24, fun w => .vcav (w.extractLsb' 17 7) (w.extractLsb' 10 7) (w.extractLsb' 6 3) (w.extractLsb' 0 3)⟩,
  ⟨0x47#8, 0x01FE38#24, 0x000000#24, fun w => .vballot (w.extractLsb' 17 7) (w.extractLsb' 6 3) (w.extractLsb' 0 3)⟩,
  ⟨0x48#8, 0x0003E0#24, 0x000000#24, fun w => .vsubel (w.extractLsb' 17 7) (w.extractLsb' 10 7) (w.extractLsb' 0 5)⟩,
  ⟨0x49#8, 0x0001E0#24, 0x000000#24, fun w => .vxswap (w.extractLsb' 17 7) (w.extractLsb' 10 7) (w.extractLsb' 9 1) (w.extractLsb' 0 5)⟩]

/-- Lane memory, branch and index rows (R70, majors 0x50 to 0x62). -/
def rowsLaneMem : List OpRow := [
  ⟨0x50#8, 0x000000#24, 0x000000#24, fun w => .vld (w.extractLsb' 17 7) (w.extractLsb' 10 7) (w.extractLsb' 5 5) (w.extractLsb' 4 1) (w.extractLsb' 0 4)⟩,
  ⟨0x51#8, 0x000000#24, 0x000000#24, fun w => .vst (w.extractLsb' 17 7) (w.extractLsb' 10 7) (w.extractLsb' 5 5) (w.extractLsb' 4 1) (w.extractLsb' 0 4)⟩,
  ⟨0x52#8, 0x000000#24, 0x000000#24, fun w => .vatom (w.extractLsb' 17 7) (w.extractLsb' 10 7) (w.extractLsb' 5 5) (w.extractLsb' 4 1) (w.extractLsb' 0 4)⟩,
  ⟨0x53#8, 0x000000#24, 0x000000#24, fun w => .vcas (w.extractLsb' 17 7) (w.extractLsb' 10 7) (w.extractLsb' 5 5) (w.extractLsb' 4 1) (w.extractLsb' 0 4)⟩,
  ⟨0x54#8, 0xFE03E0#24, 0x000000#24, fun w => .vprf (w.extractLsb' 10 7) (w.extractLsb' 4 1) (w.extractLsb' 0 4)⟩,
  ⟨0x55#8, 0x000000#24, 0x000000#24, fun w => .vlds (w.extractLsb' 17 7) (w.extractLsb' 10 7) (w.extractLsb' 5 5) (w.extractLsb' 4 1) (w.extractLsb' 0 4)⟩,
  ⟨0x56#8, 0x000000#24, 0x000000#24, fun w => .vsts (w.extractLsb' 17 7) (w.extractLsb' 10 7) (w.extractLsb' 5 5) (w.extractLsb' 4 1) (w.extractLsb' 0 4)⟩,
  ⟨0x57#8, 0x000000#24, 0x000000#24, fun w => .vatoms (w.extractLsb' 17 7) (w.extractLsb' 10 7) (w.extractLsb' 5 5) (w.extractLsb' 4 1) (w.extractLsb' 0 4)⟩,
  ⟨0x60#8, 0x000000#24, 0x000000#24, fun w => .br (w.extractLsb' 21 3) (w.extractLsb' 20 1) (w.extractLsb' 0 20)⟩,
  ⟨0x61#8, 0xF803F8#24, 0x000000#24, fun w => .xset (w.extractLsb' 17 2) (w.extractLsb' 10 7) (w.extractLsb' 0 3)⟩,
  ⟨0x62#8, 0xF9F000#24, 0x000000#24, fun w => .xadd (w.extractLsb' 17 2) (w.extractLsb' 10 2) (w.extractLsb' 3 7) (w.extractLsb' 0 3)⟩]

/-- Uniform register arithmetic (R72). -/
def rowsAlu : List OpRow := [
  ⟨0x80#8, 0x00003F#24, 0x000000#24, fun w => .sadd (w.extractLsb' 18 6) (w.extractLsb' 12 6) (w.extractLsb' 6 6)⟩,
  ⟨0x80#8, 0x00003F#24, 0x000001#24, fun w => .ssub (w.extractLsb' 18 6) (w.extractLsb' 12 6) (w.extractLsb' 6 6)⟩,
  ⟨0x80#8, 0x00003F#24, 0x000002#24, fun w => .smul (w.extractLsb' 18 6) (w.extractLsb' 12 6) (w.extractLsb' 6 6)⟩,
  ⟨0x80#8, 0x00003F#24, 0x000003#24, fun w => .smulh (w.extractLsb' 18 6) (w.extractLsb' 12 6) (w.extractLsb' 6 6)⟩,
  ⟨0x80#8, 0x00003F#24, 0x000004#24, fun w => .smulhU (w.extractLsb' 18 6) (w.extractLsb' 12 6) (w.extractLsb' 6 6)⟩,
  ⟨0x80#8, 0x00003F#24, 0x000005#24, fun w => .sdiv (w.extractLsb' 18 6) (w.extractLsb' 12 6) (w.extractLsb' 6 6)⟩,
  ⟨0x80#8, 0x00003F#24, 0x000006#24, fun w => .sdivU (w.extractLsb' 18 6) (w.extractLsb' 12 6) (w.extractLsb' 6 6)⟩,
  ⟨0x80#8, 0x00003F#24, 0x000007#24, fun w => .srem (w.extractLsb' 18 6) (w.extractLsb' 12 6) (w.extractLsb' 6 6)⟩,
  ⟨0x80#8, 0x00003F#24, 0x000008#24, fun w => .sremU (w.extractLsb' 18 6) (w.extractLsb' 12 6) (w.extractLsb' 6 6)⟩,
  ⟨0x80#8, 0x00003F#24, 0x000009#24, fun w => .sand (w.extractLsb' 18 6) (w.extractLsb' 12 6) (w.extractLsb' 6 6)⟩,
  ⟨0x80#8, 0x00003F#24, 0x00000A#24, fun w => .sor (w.extractLsb' 18 6) (w.extractLsb' 12 6) (w.extractLsb' 6 6)⟩,
  ⟨0x80#8, 0x00003F#24, 0x00000B#24, fun w => .sxor (w.extractLsb' 18 6) (w.extractLsb' 12 6) (w.extractLsb' 6 6)⟩,
  ⟨0x80#8, 0x000FFF#24, 0x00000C#24, fun w => .snot (w.extractLsb' 18 6) (w.extractLsb' 12 6)⟩,
  ⟨0x80#8, 0x00003F#24, 0x00000D#24, fun w => .sshl (w.extractLsb' 18 6) (w.extractLsb' 12 6) (w.extractLsb' 6 6)⟩,
  ⟨0x80#8, 0x00003F#24, 0x00000E#24, fun w => .sshr (w.extractLsb' 18 6) (w.extractLsb' 12 6) (w.extractLsb' 6 6)⟩,
  ⟨0x80#8, 0x00003F#24, 0x00000F#24, fun w => .ssar (w.extractLsb' 18 6) (w.extractLsb' 12 6) (w.extractLsb' 6 6)⟩,
  ⟨0x80#8, 0x00003F#24, 0x000010#24, fun w => .smin (w.extractLsb' 18 6) (w.extractLsb' 12 6) (w.extractLsb' 6 6)⟩,
  ⟨0x80#8, 0x00003F#24, 0x000011#24, fun w => .sminU (w.extractLsb' 18 6) (w.extractLsb' 12 6) (w.extractLsb' 6 6)⟩,
  ⟨0x80#8, 0x00003F#24, 0x000012#24, fun w => .smax (w.extractLsb' 18 6) (w.extractLsb' 12 6) (w.extractLsb' 6 6)⟩,
  ⟨0x80#8, 0x00003F#24, 0x000013#24, fun w => .smaxU (w.extractLsb' 18 6) (w.extractLsb' 12 6) (w.extractLsb' 6 6)⟩,
  ⟨0x80#8, 0x00003F#24, 0x000014#24, fun w => .ssel (w.extractLsb' 18 6) (w.extractLsb' 12 6) (w.extractLsb' 6 6)⟩,
  ⟨0x80#8, 0x000FFF#24, 0x000015#24, fun w => .smov (w.extractLsb' 18 6) (w.extractLsb' 12 6)⟩,
  ⟨0x80#8, 0x000030#24, 0x000020#24, fun w => .scmp (w.extractLsb' 18 6) (w.extractLsb' 12 6) (w.extractLsb' 6 6) (w.extractLsb' 0 4)⟩]

/-- Uniform immediate, mask and control rows (R71, majors 0x01 to 0x19). -/
def rowsUniform : List OpRow := [
  ⟨0x81#8, 0x000000#24, 0x000000#24, fun w => .smovi (w.extractLsb' 18 6) (w.extractLsb' 0 18)⟩,
  ⟨0x82#8, 0x000000#24, 0x000000#24, fun w => .saddImm (w.extractLsb' 18 6) (w.extractLsb' 12 6) (w.extractLsb' 0 12)⟩,
  ⟨0x83#8, 0x000000#24, 0x000000#24, fun w => .sandImm (w.extractLsb' 18 6) (w.extractLsb' 12 6) (w.extractLsb' 0 12)⟩,
  ⟨0x84#8, 0x000000#24, 0x000000#24, fun w => .sorImm (w.extractLsb' 18 6) (w.extractLsb' 12 6) (w.extractLsb' 0 12)⟩,
  ⟨0x85#8, 0x000000#24, 0x000000#24, fun w => .sxorImm (w.extractLsb' 18 6) (w.extractLsb' 12 6) (w.extractLsb' 0 12)⟩,
  ⟨0x86#8, 0x000000#24, 0x000000#24, fun w => .sshlImm (w.extractLsb' 18 6) (w.extractLsb' 12 6) (w.extractLsb' 0 12)⟩,
  ⟨0x87#8, 0x000000#24, 0x000000#24, fun w => .sshrImm (w.extractLsb' 18 6) (w.extractLsb' 12 6) (w.extractLsb' 0 12)⟩,
  ⟨0x88#8, 0x000000#24, 0x000000#24, fun w => .ssarImm (w.extractLsb' 18 6) (w.extractLsb' 12 6) (w.extractLsb' 0 12)⟩,
  ⟨0x89#8, 0x00003F#24, 0x000000#24, fun w => .slane (w.extractLsb' 18 6) (w.extractLsb' 11 7) (w.extractLsb' 6 5)⟩,
  ⟨0x8A#8, 0x03FFF8#24, 0x000000#24, fun w => .spredGet (w.extractLsb' 18 6) (w.extractLsb' 0 3)⟩,
  ⟨0x8A#8, 0xFC0FF8#24, 0x000400#24, fun w => .spredSet (w.extractLsb' 12 6) (w.extractLsb' 0 3)⟩,
  ⟨0x8A#8, 0x03FFFF#24, 0x000800#24, fun w => .spredAct (w.extractLsb' 18 6)⟩,
  ⟨0x90#8, 0x000000#24, 0x000000#24, fun w => .bra (w.extractLsb' 0 24)⟩,
  ⟨0x91#8, 0x020000#24, 0x000000#24, fun w => .brasNz (w.extractLsb' 18 6) (w.extractLsb' 0 17)⟩,
  ⟨0x91#8, 0x020000#24, 0x020000#24, fun w => .brasZ (w.extractLsb' 18 6) (w.extractLsb' 0 17)⟩,
  ⟨0x92#8, 0x000000#24, 0x000000#24, fun w => .call (w.extractLsb' 18 6) (w.extractLsb' 0 18)⟩,
  ⟨0x93#8, 0xFC0FFF#24, 0x000000#24, fun w => .ret (w.extractLsb' 12 6)⟩,
  ⟨0x94#8, 0x000000#24, 0x000000#24, fun w => .mark (w.extractLsb' 0 24)⟩,
  ⟨0x95#8, 0xFFFFFF#24, 0xFFFFFF#24, fun _ => .join⟩,
  ⟨0x96#8, 0x00FE00#24, 0x000000#24, fun w => .loop (w.extractLsb' 18 6) (w.extractLsb' 16 2) (w.extractLsb' 0 9)⟩,
  ⟨0x97#8, 0xFFFFFF#24, 0x000000#24, fun _ => .exit⟩,
  ⟨0x98#8, 0xFFFFFF#24, 0x000000#24, fun _ => .nop⟩,
  ⟨0x99#8, 0xFC0FFF#24, 0x000000#24, fun w => .xwin (w.extractLsb' 12 6)⟩]

/-- Uniform memory, ordering, stream, group and pipe rows (R71, majors 0x30 to 0x46). -/
def rowsUniMem : List OpRow := [
  ⟨0xB0#8, 0x000000#24, 0x000000#24, fun w => .sld (w.extractLsb' 18 6) (w.extractLsb' 12 6) (w.extractLsb' 11 1) (w.extractLsb' 9 2) (w.extractLsb' 8 1) (w.extractLsb' 0 8)⟩,
  ⟨0xB1#8, 0x000100#24, 0x000000#24, fun w => .sst (w.extractLsb' 18 6) (w.extractLsb' 12 6) (w.extractLsb' 11 1) (w.extractLsb' 9 2) (w.extractLsb' 0 8)⟩,
  ⟨0xB2#8, 0x000010#24, 0x000000#24, fun w => .satom (w.extractLsb' 18 6) (w.extractLsb' 12 6) (w.extractLsb' 6 6) (w.extractLsb' 5 1) (w.extractLsb' 0 4)⟩,
  ⟨0xB3#8, 0x00001F#24, 0x000000#24, fun w => .scas (w.extractLsb' 18 6) (w.extractLsb' 12 6) (w.extractLsb' 6 6) (w.extractLsb' 5 1)⟩,
  ⟨0xB4#8, 0x020000#24, 0x000000#24, fun w => .ldlW (w.extractLsb' 18 6) (w.extractLsb' 0 17)⟩,
  ⟨0xB4#8, 0x020000#24, 0x020000#24, fun w => .ldlD (w.extractLsb' 18 6) (w.extractLsb' 0 17)⟩,
  ⟨0xB5#8, 0x000FF8#24, 0x000000#24, fun w => .acq (w.extractLsb' 18 6) (w.extractLsb' 12 6) (w.extractLsb' 0 3)⟩,
  ⟨0xB6#8, 0x000FF8#24, 0x000000#24, fun w => .rel (w.extractLsb' 18 6) (w.extractLsb' 12 6) (w.extractLsb' 0 3)⟩,
  ⟨0xB7#8, 0xFFFFE0#24, 0x000000#24, fun w => .fence (w.extractLsb' 3 2) (w.extractLsb' 0 3)⟩,
  ⟨0xB8#8, 0x000FF8#24, 0x000000#24, fun w => .publish (w.extractLsb' 18 6) (w.extractLsb' 12 6) (w.extractLsb' 0 3)⟩,
  ⟨0xB9#8, 0xFC0FF8#24, 0x000000#24, fun w => .stset (w.extractLsb' 12 6) (w.extractLsb' 0 3)⟩,
  ⟨0xBA#8, 0x03FFC0#24, 0x000000#24, fun w => .stsave (w.extractLsb' 18 6) (w.extractLsb' 3 3) (w.extractLsb' 0 3)⟩,
  ⟨0xBB#8, 0xFC0FF8#24, 0x000000#24, fun w => .stpos (w.extractLsb' 12 6) (w.extractLsb' 0 3)⟩,
  ⟨0xBC#8, 0xFC0FF8#24, 0x000000#24, fun w => .stskip (w.extractLsb' 12 6) (w.extractLsb' 0 3)⟩,
  ⟨0xBD#8, 0x03FFF0#24, 0x000000#24, fun w => .grd (w.extractLsb' 18 6) (w.extractLsb' 0 4)⟩,
  ⟨0xBE#8, 0xFC0FF0#24, 0x000000#24, fun w => .gwr (w.extractLsb' 12 6) (w.extractLsb' 0 4)⟩,
  ⟨0xBF#8, 0x030030#24, 0x000000#24, fun w => .gatom (w.extractLsb' 18 6) (w.extractLsb' 12 4) (w.extractLsb' 6 6) (w.extractLsb' 0 4)⟩,
  ⟨0xC0#8, 0xFC0FF8#24, 0x000000#24, fun w => .qbind (w.extractLsb' 12 6) (w.extractLsb' 0 3)⟩,
  ⟨0xC1#8, 0xFC0FF8#24, 0x000000#24, fun w => .qpush (w.extractLsb' 12 6) (w.extractLsb' 0 3)⟩,
  ⟨0xC2#8, 0xFC0F00#24, 0x000000#24, fun w => .qpushv (w.extractLsb' 12 6) (w.extractLsb' 3 5) (w.extractLsb' 0 3)⟩,
  ⟨0xC3#8, 0x03FFF8#24, 0x000000#24, fun w => .qpop (w.extractLsb' 18 6) (w.extractLsb' 0 3)⟩,
  ⟨0xC4#8, 0x03FFF8#24, 0x000000#24, fun w => .qtry (w.extractLsb' 18 6) (w.extractLsb' 0 3)⟩,
  ⟨0xC5#8, 0x000FFF#24, 0x000000#24, fun w => .qsteal (w.extractLsb' 18 6) (w.extractLsb' 12 6)⟩,
  ⟨0xC6#8, 0x03FFF8#24, 0x000000#24, fun w => .qlen (w.extractLsb' 18 6) (w.extractLsb' 0 3)⟩]

/-- Matrix, copy, barrier, convoy and system rows (R71, majors 0x50 to 0x6E). -/
def rowsEngine : List OpRow := [
  ⟨0xD0#8, 0x1C0003#24, 0x000000#24, fun w => .mma (w.extractLsb' 21 3) (w.extractLsb' 12 6) (w.extractLsb' 11 1) (w.extractLsb' 4 7) (w.extractLsb' 2 2)⟩,
  ⟨0xD1#8, 0x1C000C#24, 0x000008#24, fun w => .mmt (w.extractLsb' 21 3) (w.extractLsb' 12 6) (w.extractLsb' 11 1) (w.extractLsb' 4 7) (w.extractLsb' 0 2)⟩,
  ⟨0xD2#8, 0xFC00FF#24, 0x000000#24, fun w => .mzero (w.extractLsb' 11 7) (w.extractLsb' 9 2) (w.extractLsb' 8 1)⟩,
  ⟨0xD3#8, 0x000FF8#24, 0x000000#24, fun w => .mscale (w.extractLsb' 18 6) (w.extractLsb' 12 6) (w.extractLsb' 0 3)⟩,
  ⟨0xD4#8, 0x00001F#24, 0x000000#24, fun w => .cpy (w.extractLsb' 18 6) (w.extractLsb' 12 6) (w.extractLsb' 6 6) (w.extractLsb' 5 1)⟩,
  ⟨0xD5#8, 0x00001F#24, 0x000000#24, fun w => .cpt (w.extractLsb' 18 6) (w.extractLsb' 12 6) (w.extractLsb' 6 6) (w.extractLsb' 5 1)⟩,
  ⟨0xD6#8, 0x00001F#24, 0x000000#24, fun w => .cpr (w.extractLsb' 18 6) (w.extractLsb' 12 6) (w.extractLsb' 6 6) (w.extractLsb' 5 1)⟩,
  ⟨0xD7#8, 0x00001F#24, 0x000000#24, fun w => .cpx (w.extractLsb' 18 6) (w.extractLsb' 12 6) (w.extractLsb' 6 6) (w.extractLsb' 5 1)⟩,
  ⟨0xD8#8, 0x00001F#24, 0x000000#24, fun w => .cpc (w.extractLsb' 18 6) (w.extractLsb' 12 6) (w.extractLsb' 6 6) (w.extractLsb' 5 1)⟩,
  ⟨0xD9#8, 0xFFFFFF#24, 0x000000#24, fun _ => .cpclose⟩,
  ⟨0xDA#8, 0xFFFFF0#24, 0x000000#24, fun w => .cpwait (w.extractLsb' 0 4)⟩,
  ⟨0xDB#8, 0x000FFF#24, 0x000000#24, fun w => .tbinit (w.extractLsb' 18 6) (w.extractLsb' 12 6)⟩,
  ⟨0xDC#8, 0x000FE0#24, 0x000000#24, fun w => .tbexp (w.extractLsb' 18 6) (w.extractLsb' 12 6) (w.extractLsb' 4 1) (w.extractLsb' 3 1) (w.extractLsb' 0 3)⟩,
  ⟨0xDD#8, 0x000FF0#24, 0x000000#24, fun w => .tbarr (w.extractLsb' 18 6) (w.extractLsb' 12 6) (w.extractLsb' 3 1) (w.extractLsb' 0 3)⟩,
  ⟨0xDE#8, 0x000FFF#24, 0x000000#24, fun w => .tbwait (w.extractLsb' 18 6) (w.extractLsb' 12 6)⟩,
  ⟨0xDF#8, 0xFFFFFF#24, 0x000000#24, fun _ => .bar⟩,
  ⟨0xDF#8, 0xFFFFFF#24, 0x000001#24, fun _ => .gbar⟩,
  ⟨0xE0#8, 0x000FF8#24, 0x000000#24, fun w => .cvjoin (w.extractLsb' 18 6) (w.extractLsb' 12 6) (w.extractLsb' 0 3)⟩,
  ⟨0xE1#8, 0x03FFF8#24, 0x000000#24, fun w => .cvleave (w.extractLsb' 18 6) (w.extractLsb' 0 3)⟩,
  ⟨0xE2#8, 0x000FFF#24, 0x000000#24, fun w => .cvslip (w.extractLsb' 18 6) (w.extractLsb' 12 6)⟩,
  ⟨0xE3#8, 0x000FF8#24, 0x000000#24, fun w => .cvrejoin (w.extractLsb' 18 6) (w.extractLsb' 12 6) (w.extractLsb' 0 3)⟩,
  ⟨0xE4#8, 0x03FFC0#24, 0x000000#24, fun w => .srd (w.extractLsb' 18 6) (w.extractLsb' 0 6)⟩,
  ⟨0xE4#8, 0x03FBC0#24, 0x000800#24, fun w => .srdV (w.extractLsb' 18 6) (w.extractLsb' 10 1) (w.extractLsb' 0 6)⟩,
  ⟨0xE5#8, 0xFC0FC0#24, 0x000000#24, fun w => .swr (w.extractLsb' 12 6) (w.extractLsb' 0 6)⟩,
  ⟨0xE6#8, 0xFFFF00#24, 0x000000#24, fun w => .trap (w.extractLsb' 0 8)⟩,
  ⟨0xE7#8, 0xFFFFFF#24, 0x000000#24, fun _ => .tret⟩,
  ⟨0xE8#8, 0xFFFFFF#24, 0x000000#24, fun _ => .sigdone⟩,
  ⟨0xE9#8, 0xFC0000#24, 0x000000#24, fun w => .region (w.extractLsb' 12 6) (w.extractLsb' 0 12)⟩,
  ⟨0xEA#8, 0x000FFF#24, 0x000000#24, fun w => .setperf (w.extractLsb' 18 6) (w.extractLsb' 12 6)⟩,
  ⟨0xEB#8, 0x000FFF#24, 0x000000#24, fun w => .waitc (w.extractLsb' 18 6) (w.extractLsb' 12 6)⟩,
  ⟨0xEC#8, 0x000FFC#24, 0x000000#24, fun w => .cancel (w.extractLsb' 18 6) (w.extractLsb' 12 6) (w.extractLsb' 0 2)⟩,
  ⟨0xED#8, 0xFC0FFF#24, 0x000000#24, fun w => .sleep (w.extractLsb' 12 6)⟩,
  ⟨0xEE#8, 0xFFFF00#24, 0x000000#24, fun w => .bkpt (w.extractLsb' 0 8)⟩]

/-- The POOL and CLAUSE headers (R51, R60). -/
def rowsHeader : List OpRow := [
  ⟨0xFE#8, 0xFF0000#24, 0x000000#24, fun w => .pool (w.extractLsb' 0 16)⟩,
  ⟨0xFF#8, 0x000001#24, 0x000000#24, fun w => .clause (w.extractLsb' 12 12) (w.extractLsb' 8 4) (w.extractLsb' 4 4) (w.extractLsb' 1 3)⟩]

/-- Every instruction word of the maps (R70-R73). -/
def opRows : List OpRow :=
  rowsInteger ++ (rowsFloat ++ (rowsCross ++ (rowsLaneMem ++ (rowsAlu ++ (rowsUniform ++ (rowsUniMem ++ (rowsEngine ++ rowsHeader)))))))

/-- Whether a word with these bits [31:24] and this body is of the row. -/
def OpRow.fits (r : OpRow) (major : BitVec 8) (body : BitVec 24) : Bool :=
  r.major == major && (body &&& r.mask) == r.pat

/-- The instruction of bits [31:24] and a body, the first row that fits among the given ones. -/
def decodeIn : List OpRow → BitVec 8 → BitVec 24 → Option Instr
  | [], _, _ => none
  | r :: rs, m, b => if r.fits m b then some (r.build b) else decodeIn rs m b

/-- The instruction of a word; none where the maps assign it nothing (R68, R69). -/
def decode (w : Word) : Option Instr := decodeIn opRows (w.extractLsb' 24 8) (w.extractLsb' 0 24)

/-- The word that four bytes make, the first at the lowest address (R6, R47). -/
def wordOfBytes (b0 b1 b2 b3 : Byte) : Word := b3 ++ b2 ++ b1 ++ b0

/-- The bytes of a word as they are stored (R47). -/
def bytesOfWord (w : Word) : List Byte :=
  [w.extractLsb' 0 8, w.extractLsb' 8 8, w.extractLsb' 16 8, w.extractLsb' 24 8]

/-- Decode the instruction at the head of a list of bytes; fewer than four bytes are refused. -/
def decodeBytes : List Byte → Option Instr
  | b0 :: b1 :: b2 :: b3 :: _ => decode (wordOfBytes b0 b1 b2 b3)
  | _ => none

/-- The instruction that the decoder reads from the opcode table's numbering of a row's bits: one 32-bit word, stored
little-endian (R46, R47); bits above nbits are zero. -/
def decodeTableWord (nbits w : Nat) : Option Instr :=
  decodeBytes (bytesOfWord (BitVec.ofNat 32 (w % 2 ^ nbits)))

/-- The word of an instruction (R62, R66 and the chapters' field tables); the events of the hardware have none. -/
def encode : Instr → Option Word
  | .vaddRrr d a b p => some (0x01#8 ++ d ++ a ++ b ++ p : BitVec 32)
  | .vsubRrr d a b p => some (0x02#8 ++ d ++ a ++ b ++ p : BitVec 32)
  | .vmulRrr d a b p => some (0x03#8 ++ d ++ a ++ b ++ p : BitVec 32)
  | .vmulh d a b p => some (0x04#8 ++ d ++ a ++ b ++ p : BitVec 32)
  | .vmad d a b p => some (0x05#8 ++ d ++ a ++ b ++ p : BitVec 32)
  | .vaddsat d a b p => some (0x06#8 ++ d ++ a ++ b ++ p : BitVec 32)
  | .vsubsat d a b p => some (0x07#8 ++ d ++ a ++ b ++ p : BitVec 32)
  | .vmin d a b p => some (0x08#8 ++ d ++ a ++ b ++ p : BitVec 32)
  | .vmax d a b p => some (0x09#8 ++ d ++ a ++ b ++ p : BitVec 32)
  | .vabs d a p => some (0x0A#8 ++ d ++ a ++ 0x0#7 ++ p : BitVec 32)
  | .vneg d a p => some (0x0B#8 ++ d ++ a ++ 0x0#7 ++ p : BitVec 32)
  | .vandRrr d a b p => some (0x0C#8 ++ d ++ a ++ b ++ p : BitVec 32)
  | .vorRrr d a b p => some (0x0D#8 ++ d ++ a ++ b ++ p : BitVec 32)
  | .vxor d a b p => some (0x0E#8 ++ d ++ a ++ b ++ p : BitVec 32)
  | .vandn d a b p => some (0x0F#8 ++ d ++ a ++ b ++ p : BitVec 32)
  | .vnot d a p => some (0x10#8 ++ d ++ a ++ 0x0#7 ++ p : BitVec 32)
  | .vshlRrr d a b p => some (0x11#8 ++ d ++ a ++ b ++ p : BitVec 32)
  | .vshrRrr d a b p => some (0x12#8 ++ d ++ a ++ b ++ p : BitVec 32)
  | .vsarRrr d a b p => some (0x13#8 ++ d ++ a ++ b ++ p : BitVec 32)
  | .vrol d a b p => some (0x14#8 ++ d ++ a ++ b ++ p : BitVec 32)
  | .vclz d a p => some (0x15#8 ++ d ++ a ++ 0x0#7 ++ p : BitVec 32)
  | .vpopc d a p => some (0x16#8 ++ d ++ a ++ 0x0#7 ++ p : BitVec 32)
  | .vbrev d a p => some (0x17#8 ++ d ++ a ++ 0x0#7 ++ p : BitVec 32)
  | .vbfx d a b p => some (0x18#8 ++ d ++ a ++ b ++ p : BitVec 32)
  | .vbfi d a b p => some (0x19#8 ++ d ++ a ++ b ++ p : BitVec 32)
  | .vcmp q n c a b p => some (0x1A#8 ++ q ++ n ++ c ++ a ++ b ++ p : BitVec 32)
  | .vsel d a b k => some (0x1B#8 ++ d ++ a ++ b ++ k : BitVec 32)
  | .vmov d a p => some (0x1C#8 ++ d ++ a ++ 0x0#7 ++ p : BitVec 32)
  | .vmovs d f b p => some (0x1D#8 ++ d ++ f ++ 0x0#2 ++ b ++ p : BitVec 32)
  | .vamin d a b p => some (0x1E#8 ++ d ++ a ++ b ++ p : BitVec 32)
  | .vamax d a b p => some (0x1F#8 ++ d ++ a ++ b ++ p : BitVec 32)
  | .vfaddRrr d a b p => some (0x20#8 ++ d ++ a ++ b ++ p : BitVec 32)
  | .vfsub d a b p => some (0x21#8 ++ d ++ a ++ b ++ p : BitVec 32)
  | .vfmulRrr d a b p => some (0x22#8 ++ d ++ a ++ b ++ p : BitVec 32)
  | .vfma d a b p => some (0x23#8 ++ d ++ a ++ b ++ p : BitVec 32)
  | .vfmin d a b p => some (0x24#8 ++ d ++ a ++ b ++ p : BitVec 32)
  | .vfmax d a b p => some (0x25#8 ++ d ++ a ++ b ++ p : BitVec 32)
  | .vfabs d a p => some (0x26#8 ++ d ++ a ++ 0x0#7 ++ p : BitVec 32)
  | .vfneg d a p => some (0x27#8 ++ d ++ a ++ 0x0#7 ++ p : BitVec 32)
  | .vfcmp q n c a b p => some (0x28#8 ++ q ++ n ++ c ++ a ++ b ++ p : BitVec 32)
  | .vfrcp d a p => some (0x29#8 ++ d ++ a ++ 0x0#7 ++ p : BitVec 32)
  | .vfrsq d a p => some (0x2A#8 ++ d ++ a ++ 0x0#7 ++ p : BitVec 32)
  | .vfsqrt d a p => some (0x2B#8 ++ d ++ a ++ 0x0#7 ++ p : BitVec 32)
  | .vfex2 d a p => some (0x2C#8 ++ d ++ a ++ 0x0#7 ++ p : BitVec 32)
  | .vflg2 d a p => some (0x2D#8 ++ d ++ a ++ 0x0#7 ++ p : BitVec 32)
  | .vfsin d a p => some (0x2E#8 ++ d ++ a ++ 0x0#7 ++ p : BitVec 32)
  | .vfcos d a p => some (0x2F#8 ++ d ++ a ++ 0x0#7 ++ p : BitVec 32)
  | .vfclass d a p => some (0x30#8 ++ d ++ a ++ 0x0#7 ++ p : BitVec 32)
  | .vcvt d a f m p => some (0x31#8 ++ d ++ a ++ f ++ m ++ p : BitVec 32)
  | .vcvts d a f p => some (0x32#8 ++ d ++ a ++ f ++ 0x0#2 ++ p : BitVec 32)
  | .vtag d a f p => some (0x33#8 ++ d ++ a ++ f ++ 0x0#2 ++ p : BitVec 32)
  | .vpack d a h g p => some (0x34#8 ++ d ++ a ++ h ++ g ++ p : BitVec 32)
  | .vunpk d a h g p => some (0x35#8 ++ d ++ a ++ h ++ g ++ p : BitVec 32)
  | .vaddRrs d a b p => some (0x36#8 ++ d ++ a ++ b ++ p : BitVec 32)
  | .vsubRrs d a b p => some (0x37#8 ++ d ++ a ++ b ++ p : BitVec 32)
  | .vmulRrs d a b p => some (0x38#8 ++ d ++ a ++ b ++ p : BitVec 32)
  | .vandRrs d a b p => some (0x39#8 ++ d ++ a ++ b ++ p : BitVec 32)
  | .vorRrs d a b p => some (0x3A#8 ++ d ++ a ++ b ++ p : BitVec 32)
  | .vshlRrs d a b p => some (0x3B#8 ++ d ++ a ++ b ++ p : BitVec 32)
  | .vshrRrs d a b p => some (0x3C#8 ++ d ++ a ++ b ++ p : BitVec 32)
  | .vsarRrs d a b p => some (0x3D#8 ++ d ++ a ++ b ++ p : BitVec 32)
  | .vfaddRrs d a b p => some (0x3E#8 ++ d ++ a ++ b ++ p : BitVec 32)
  | .vfmulRrs d a b p => some (0x3F#8 ++ d ++ a ++ b ++ p : BitVec 32)
  | .vshuf d a z w k => some (0x40#8 ++ d ++ a ++ z ++ w ++ 0x0#4 ++ k : BitVec 32)
  | .vshufi d a z w m => some (0x41#8 ++ d ++ a ++ z ++ w ++ 0x0#1 ++ m : BitVec 32)
  | .vlsh d a z w x n => some (0x42#8 ++ d ++ a ++ z ++ w ++ x ++ n : BitVec 32)
  | .vbcst d a z w k => some (0x43#8 ++ d ++ a ++ z ++ w ++ 0x0#1 ++ k : BitVec 32)
  | .vred d a w o => some (0x44#8 ++ d ++ a ++ 0x0#1 ++ w ++ 0x0#3 ++ o : BitVec 32)
  | .vscan d a w x o => some (0x45#8 ++ d ++ a ++ 0x0#1 ++ w ++ x ++ 0x0#2 ++ o : BitVec 32)
  | .vcav d a w o => some (0x46#8 ++ d ++ a ++ 0x0#1 ++ w ++ 0x0#3 ++ o : BitVec 32)
  | .vballot d w k => some (0x47#8 ++ d ++ 0x0#8 ++ w ++ 0x0#3 ++ k : BitVec 32)
  | .vsubel d a s => some (0x48#8 ++ d ++ a ++ 0x0#5 ++ s : BitVec 32)
  | .vxswap d a z s => some (0x49#8 ++ d ++ a ++ z ++ 0x0#4 ++ s : BitVec 32)
  | .vld d b t f o => some (0x50#8 ++ d ++ b ++ t ++ f ++ o : BitVec 32)
  | .vst d b t f o => some (0x51#8 ++ d ++ b ++ t ++ f ++ o : BitVec 32)
  | .vatom d b t f o => some (0x52#8 ++ d ++ b ++ t ++ f ++ o : BitVec 32)
  | .vcas d b t f o => some (0x53#8 ++ d ++ b ++ t ++ f ++ o : BitVec 32)
  | .vprf b f o => some (0x54#8 ++ 0x0#7 ++ b ++ 0x0#5 ++ f ++ o : BitVec 32)
  | .vlds d b t f o => some (0x55#8 ++ d ++ b ++ t ++ f ++ o : BitVec 32)
  | .vsts d b t f o => some (0x56#8 ++ d ++ b ++ t ++ f ++ o : BitVec 32)
  | .vatoms d b t f o => some (0x57#8 ++ d ++ b ++ t ++ f ++ o : BitVec 32)
  | .br p s o => some (0x60#8 ++ p ++ s ++ o : BitVec 32)
  | .xset k a p => some (0x61#8 ++ 0x0#5 ++ k ++ a ++ 0x0#7 ++ p : BitVec 32)
  | .xadd k j b p => some (0x62#8 ++ 0x0#5 ++ k ++ 0x0#5 ++ j ++ b ++ p : BitVec 32)
  | .sadd d a b => some (0x80#8 ++ d ++ a ++ b ++ 0x0#6 : BitVec 32)
  | .ssub d a b => some (0x80#8 ++ d ++ a ++ b ++ 0x1#6 : BitVec 32)
  | .smul d a b => some (0x80#8 ++ d ++ a ++ b ++ 0x2#6 : BitVec 32)
  | .smulh d a b => some (0x80#8 ++ d ++ a ++ b ++ 0x3#6 : BitVec 32)
  | .smulhU d a b => some (0x80#8 ++ d ++ a ++ b ++ 0x4#6 : BitVec 32)
  | .sdiv d a b => some (0x80#8 ++ d ++ a ++ b ++ 0x5#6 : BitVec 32)
  | .sdivU d a b => some (0x80#8 ++ d ++ a ++ b ++ 0x6#6 : BitVec 32)
  | .srem d a b => some (0x80#8 ++ d ++ a ++ b ++ 0x7#6 : BitVec 32)
  | .sremU d a b => some (0x80#8 ++ d ++ a ++ b ++ 0x8#6 : BitVec 32)
  | .sand d a b => some (0x80#8 ++ d ++ a ++ b ++ 0x9#6 : BitVec 32)
  | .sor d a b => some (0x80#8 ++ d ++ a ++ b ++ 0xA#6 : BitVec 32)
  | .sxor d a b => some (0x80#8 ++ d ++ a ++ b ++ 0xB#6 : BitVec 32)
  | .snot d a => some (0x80#8 ++ d ++ a ++ 0xC#12 : BitVec 32)
  | .sshl d a b => some (0x80#8 ++ d ++ a ++ b ++ 0xD#6 : BitVec 32)
  | .sshr d a b => some (0x80#8 ++ d ++ a ++ b ++ 0xE#6 : BitVec 32)
  | .ssar d a b => some (0x80#8 ++ d ++ a ++ b ++ 0xF#6 : BitVec 32)
  | .smin d a b => some (0x80#8 ++ d ++ a ++ b ++ 0x10#6 : BitVec 32)
  | .sminU d a b => some (0x80#8 ++ d ++ a ++ b ++ 0x11#6 : BitVec 32)
  | .smax d a b => some (0x80#8 ++ d ++ a ++ b ++ 0x12#6 : BitVec 32)
  | .smaxU d a b => some (0x80#8 ++ d ++ a ++ b ++ 0x13#6 : BitVec 32)
  | .ssel d a b => some (0x80#8 ++ d ++ a ++ b ++ 0x14#6 : BitVec 32)
  | .smov d a => some (0x80#8 ++ d ++ a ++ 0x15#12 : BitVec 32)
  | .scmp d a b c => some (0x80#8 ++ d ++ a ++ b ++ 0x2#2 ++ c : BitVec 32)
  | .smovi d i => some (0x81#8 ++ d ++ i : BitVec 32)
  | .saddImm d a i => some (0x82#8 ++ d ++ a ++ i : BitVec 32)
  | .sandImm d a i => some (0x83#8 ++ d ++ a ++ i : BitVec 32)
  | .sorImm d a i => some (0x84#8 ++ d ++ a ++ i : BitVec 32)
  | .sxorImm d a i => some (0x85#8 ++ d ++ a ++ i : BitVec 32)
  | .sshlImm d a i => some (0x86#8 ++ d ++ a ++ i : BitVec 32)
  | .sshrImm d a i => some (0x87#8 ++ d ++ a ++ i : BitVec 32)
  | .ssarImm d a i => some (0x88#8 ++ d ++ a ++ i : BitVec 32)
  | .slane d v k => some (0x89#8 ++ d ++ v ++ k ++ 0x0#6 : BitVec 32)
  | .spredGet d k => some (0x8A#8 ++ d ++ 0x0#15 ++ k : BitVec 32)
  | .spredSet a k => some (0x8A#8 ++ 0x0#6 ++ a ++ 0x80#9 ++ k : BitVec 32)
  | .spredAct d => some (0x8A#8 ++ d ++ 0x800#18 : BitVec 32)
  | .bra o => some (0x90#8 ++ o : BitVec 32)
  | .brasNz d o => some (0x91#8 ++ d ++ 0x0#1 ++ o : BitVec 32)
  | .brasZ d o => some (0x91#8 ++ d ++ 0x1#1 ++ o : BitVec 32)
  | .call d o => some (0x92#8 ++ d ++ o : BitVec 32)
  | .ret a => some (0x93#8 ++ 0x0#6 ++ a ++ 0x0#12 : BitVec 32)
  | .mark o => some (0x94#8 ++ o : BitVec 32)
  | .join => some (0x95#8 ++ 0xFFFFFF#24 : BitVec 32)
  | .loop d n l => some (0x96#8 ++ d ++ n ++ 0x0#7 ++ l : BitVec 32)
  | .exit => some (0x97#8 ++ 0x0#24 : BitVec 32)
  | .nop => some (0x98#8 ++ 0x0#24 : BitVec 32)
  | .xwin a => some (0x99#8 ++ 0x0#6 ++ a ++ 0x0#12 : BitVec 32)
  | .sld d a f z g o => some (0xB0#8 ++ d ++ a ++ f ++ z ++ g ++ o : BitVec 32)
  | .sst d a f z o => some (0xB1#8 ++ d ++ a ++ f ++ z ++ 0x0#1 ++ o : BitVec 32)
  | .satom d a b f o => some (0xB2#8 ++ d ++ a ++ b ++ f ++ 0x0#1 ++ o : BitVec 32)
  | .scas d a b f => some (0xB3#8 ++ d ++ a ++ b ++ f ++ 0x0#5 : BitVec 32)
  | .ldlW d o => some (0xB4#8 ++ d ++ 0x0#1 ++ o : BitVec 32)
  | .ldlD d o => some (0xB4#8 ++ d ++ 0x1#1 ++ o : BitVec 32)
  | .acq d a s => some (0xB5#8 ++ d ++ a ++ 0x0#9 ++ s : BitVec 32)
  | .rel d a s => some (0xB6#8 ++ d ++ a ++ 0x0#9 ++ s : BitVec 32)
  | .fence k s => some (0xB7#8 ++ 0x0#19 ++ k ++ s : BitVec 32)
  | .publish d a s => some (0xB8#8 ++ d ++ a ++ 0x0#9 ++ s : BitVec 32)
  | .stset a n => some (0xB9#8 ++ 0x0#6 ++ a ++ 0x0#9 ++ n : BitVec 32)
  | .stsave d w n => some (0xBA#8 ++ d ++ 0x0#12 ++ w ++ n : BitVec 32)
  | .stpos a n => some (0xBB#8 ++ 0x0#6 ++ a ++ 0x0#9 ++ n : BitVec 32)
  | .stskip a n => some (0xBC#8 ++ 0x0#6 ++ a ++ 0x0#9 ++ n : BitVec 32)
  | .grd d k => some (0xBD#8 ++ d ++ 0x0#14 ++ k : BitVec 32)
  | .gwr a k => some (0xBE#8 ++ 0x0#6 ++ a ++ 0x0#8 ++ k : BitVec 32)
  | .gatom d k b o => some (0xBF#8 ++ d ++ 0x0#2 ++ k ++ b ++ 0x0#2 ++ o : BitVec 32)
  | .qbind a k => some (0xC0#8 ++ 0x0#6 ++ a ++ 0x0#9 ++ k : BitVec 32)
  | .qpush a k => some (0xC1#8 ++ 0x0#6 ++ a ++ 0x0#9 ++ k : BitVec 32)
  | .qpushv a n k => some (0xC2#8 ++ 0x0#6 ++ a ++ 0x0#4 ++ n ++ k : BitVec 32)
  | .qpop d k => some (0xC3#8 ++ d ++ 0x0#15 ++ k : BitVec 32)
  | .qtry d k => some (0xC4#8 ++ d ++ 0x0#15 ++ k : BitVec 32)
  | .qsteal d a => some (0xC5#8 ++ d ++ a ++ 0x0#12 : BitVec 32)
  | .qlen d k => some (0xC6#8 ++ d ++ 0x0#15 ++ k : BitVec 32)
  | .mma p s f v n => some (0xD0#8 ++ p ++ 0x0#3 ++ s ++ f ++ v ++ n ++ 0x0#2 : BitVec 32)
  | .mmt p s f v t => some (0xD1#8 ++ p ++ 0x0#3 ++ s ++ f ++ v ++ 0x2#2 ++ t : BitVec 32)
  | .mzero v n t => some (0xD2#8 ++ 0x0#6 ++ v ++ n ++ t ++ 0x0#8 : BitVec 32)
  | .mscale d a f => some (0xD3#8 ++ d ++ a ++ 0x0#9 ++ f : BitVec 32)
  | .cpy t r b v => some (0xD4#8 ++ t ++ r ++ b ++ v ++ 0x0#5 : BitVec 32)
  | .cpt t r b v => some (0xD5#8 ++ t ++ r ++ b ++ v ++ 0x0#5 : BitVec 32)
  | .cpr t r b v => some (0xD6#8 ++ t ++ r ++ b ++ v ++ 0x0#5 : BitVec 32)
  | .cpx t r b v => some (0xD7#8 ++ t ++ r ++ b ++ v ++ 0x0#5 : BitVec 32)
  | .cpc t r b v => some (0xD8#8 ++ t ++ r ++ b ++ v ++ 0x0#5 : BitVec 32)
  | .cpclose => some (0xD9#8 ++ 0x0#24 : BitVec 32)
  | .cpwait n => some (0xDA#8 ++ 0x0#20 ++ n : BitVec 32)
  | .tbinit d a => some (0xDB#8 ++ d ++ a ++ 0x0#12 : BitVec 32)
  | .tbexp d a r s g => some (0xDC#8 ++ d ++ a ++ 0x0#7 ++ r ++ s ++ g : BitVec 32)
  | .tbarr d a s g => some (0xDD#8 ++ d ++ a ++ 0x0#8 ++ s ++ g : BitVec 32)
  | .tbwait d a => some (0xDE#8 ++ d ++ a ++ 0x0#12 : BitVec 32)
  | .bar => some (0xDF#8 ++ 0x0#24 : BitVec 32)
  | .gbar => some (0xDF#8 ++ 0x1#24 : BitVec 32)
  | .cvjoin d a n => some (0xE0#8 ++ d ++ a ++ 0x0#9 ++ n : BitVec 32)
  | .cvleave d n => some (0xE1#8 ++ d ++ 0x0#15 ++ n : BitVec 32)
  | .cvslip d a => some (0xE2#8 ++ d ++ a ++ 0x0#12 : BitVec 32)
  | .cvrejoin d a n => some (0xE3#8 ++ d ++ a ++ 0x0#9 ++ n : BitVec 32)
  | .srd d n => some (0xE4#8 ++ d ++ 0x0#12 ++ n : BitVec 32)
  | .srdV d h n => some (0xE4#8 ++ d ++ 0x1#7 ++ h ++ 0x0#4 ++ n : BitVec 32)
  | .swr a n => some (0xE5#8 ++ 0x0#6 ++ a ++ 0x0#6 ++ n : BitVec 32)
  | .trap n => some (0xE6#8 ++ 0x0#16 ++ n : BitVec 32)
  | .tret => some (0xE7#8 ++ 0x0#24 : BitVec 32)
  | .sigdone => some (0xE8#8 ++ 0x0#24 : BitVec 32)
  | .region a o => some (0xE9#8 ++ 0x0#6 ++ a ++ o : BitVec 32)
  | .setperf d a => some (0xEA#8 ++ d ++ a ++ 0x0#12 : BitVec 32)
  | .waitc d a => some (0xEB#8 ++ d ++ a ++ 0x0#12 : BitVec 32)
  | .cancel d a l => some (0xEC#8 ++ d ++ a ++ 0x0#10 ++ l : BitVec 32)
  | .sleep a => some (0xED#8 ++ 0x0#6 ++ a ++ 0x0#12 : BitVec 32)
  | .bkpt n => some (0xEE#8 ++ 0x0#16 ++ n : BitVec 32)
  | .pool n => some (0xFE#8 ++ 0x0#8 ++ n : BitVec 32)
  | .clause w a b l => some (0xFF#8 ++ w ++ a ++ b ++ l ++ 0x0#1 : BitVec 32)
  | .loopFallThrough _ => none
  | .longLatencyComplete _ _ => none
  | .handlerEntry _ => none
  | .warpReplay _ => none
  | .matrixRowBlock _ => none
  | .copyStart _ => none
  | .copySectorPerformed _ => none
  | .copyTokenWrite _ => none
  | .applyRequest _ _ => none
  | .applyAck _ _ => none
  | .applyAckTimeout _ _ => none
  | .tbwaitWake _ _ => none
  | .barRelease _ _ => none
  | .pipeEntryAvailable _ _ => none
  | .waitcWake _ => none
  | .remoteCounterPoll _ => none
  | .sleepExpire _ => none
  | .convoyReevaluate _ _ => none
  | .patienceExpiry _ => none
  | .mergePointRead _ _ => none
  | .mergePointWrite _ _ _ => none
  | .dramReturn _ => none
  | .atomicUnitRequest _ _ _ _ => none
  | .remoteWriteAck _ => none
  | .pageWalkStart _ _ _ _ => none
  | .pageWalkEnd _ _ _ => none
  | .translationInvalidate _ => none
  | .publishExchange _ => none
  | .fabricInboundRequest _ _ _ _ _ _ => none
  | .fabricCompletion _ _ _ _ => none
  | .hostAccess _ _ _ _ => none
  | .linkCrcError _ _ _ => none
  | .portTrainingLoss _ => none
  | .sramParityError _ _ _ _ => none
  | .eccError _ _ _ => none
  | .linkOccupancyWindow _ _ => none
  | .linkWidthHandshakeEnd _ => none
  | .doorbell _ _ _ => none
  | .launchPacket _ _ => none
  | .fencePacket _ _ => none
  | .fenceConditionTest _ _ _ => none
  | .signalPacket _ _ => none
  | .cancelPacket _ _ => none
  | .graphOpen _ _ => none
  | .graphClose _ _ => none
  | .phaseOpen _ _ => none
  | .phaseClose _ _ => none
  | .jobOpen _ _ => none
  | .jobClose _ _ => none
  | .dispatchRound _ => none
  | .gangReservation _ => none
  | .eprioUpdate _ => none
  | .bandwidthWindow _ => none
  | .workgroupEnd _ => none
  | .workgroupSwitchOut _ => none
  | .workgroupRestore _ => none
  | .preemptTimeout _ => none
  | .cancelTimeout _ => none
  | .rotationInterval _ _ => none
  | .swapQuiesceEnd _ => none
  | .swapQuiesceTimeout _ => none
  | .swapTransferEnd _ => none
  | .swapWritebackEnd _ => none
  | .swapEnd _ => none
  | .clockLockDone _ => none
  | .voltageTargetReached _ => none
  | .balanceSample _ _ _ => none
  | .powerSample _ _ _ => none
  | .hardClamp _ _ => none
  | .stallWindow _ _ _ => none
  | .gatingIdleExpiry _ => none
  | .gatingDone _ => none
  | .pairWakeDone _ => none
  | .rendezvousPost _ => none
  | .pullRequest _ _ _ => none
  | .pullData _ _ _ => none
  | .flagUnion _ => none
  | .powerOn _ => none
  | .bootStage1 => none
  | .bootStage2 => none
  | .attestationReport _ => none
  | .mctpRequest => none
  | .faultRingHeadWrite _ => none
  | .faultRingReply _ => none
  | .contextSlotWrite _ _ _ => none
  | .wcbPreempt _ _ _ => none
  | .wcbPreemptGang _ _ _ => none
  | .wcbRestore _ _ _ => none
  | .wcbEnd _ _ _ => none
  | .queueDescriptorWrite _ _ _ _ => none
  | .pipeDescriptorWrite _ _ _ _ => none
  | .convoySlotWrite _ _ _ => none
  | .rotctlWrite _ _ => none
  | .pairpwrWrite _ _ => none
  | .diepwrWrite _ _ => none
  | .perfMonitorClear _ _ => none
  | .inboundWindowWrite _ _ _ => none
  | .monitorRegisterWrite _ _ => none
  | .illegalInstruction _ => none
  | .instructionFetchFault _ => none
  | .writeAcknowledgement _ _ => none
  | .linkCongestion _ => none
  | .managementCoreStore _ _ _ => none

end Sys2Proof
end

