-- ==== Sys2Proof/Config.lean ====
section
/-! DEFINITION. What an implementation fixes and what the spec leaves open: constants without a body, so that
no proof can see what they are (DESIGN CHOICE, log entries 2 and 6). -/

namespace Sys2Proof.Config

/-- A value the spec leaves open, fresh for each number drawn (State.free counts the draws; DESIGN CHOICE, log entry 2). -/
opaque freeValue : Nat → BitVec 64

/-- The digest SHAKE256 of a byte string, of the given length in bytes (R500; the standard is named, its values are
not written out in the spec; DESIGN CHOICE, log entry 6). -/
opaque shake256 : List Byte → Nat → List Byte

/-- Whether an SLH-DSA signature verifies: key, message, signature (R500; DESIGN CHOICE, log entry 6). -/
opaque slhDsaVerify : List Byte → List Byte → List Byte → Bool

/-- The SLH-DSA signature made with a key over a message (R502; DESIGN CHOICE, log entry 6). -/
opaque slhDsaSign : List Byte → List Byte → List Byte

/-- The identity key pair that the ROM derives from the device secret, and the alias key pair that it derives from the secret
and the measurements of both stages (R502; the derivation's input is not written out in the spec; DESIGN CHOICE, log entry 6). -/
opaque identityKey : List Byte → List Byte
opaque aliasKey : List Byte → List Byte → List Byte → List Byte

/-- The public half of a key pair (R502; DESIGN CHOICE, log entry 6). -/
opaque publicHalf : List Byte → List Byte

end Sys2Proof.Config
end

