-- ==== Sys2Proof/Machine/State.lean ====
section
/-! DEFINITION. The state of the machine as plain data: everything the spec names, from the lane up to the device
(01_machine_state.md and the chapters named at each structure), and the machine's own turn list (DESIGN CHOICE, log entry 1). Sparse
tables are lists of number and value pairs: a number that is not listed has the table's default value. -/

namespace Sys2Proof.Machine

/-- A sparse table: number and value, numbers rising. -/
abbrev Table (α : Type) := List (Nat × α)

/-- Memory: the bytes that differ from the value an unlisted byte reads as (DESIGN CHOICE, log entry 4). -/
abbrev Memory := List Host.Cell

/-- A vector register: its format tag (R30) and 64 bits in each lane (R15); lanes that are not listed hold zero. -/
structure VReg where
  tag : BitVec 5
  lanes : List Reg
deriving DecidableEq, Repr

/-- A prefetched vector of a stream (R27): position, the 32 element values, and the byte addresses they came from. -/
structure PreVec where
  at_ : Nat
  vals : List Reg
  addrs : List Nat
deriving DecidableEq, Repr

/-- A stream register: words 0 to 4 of R24 and the vectors prefetched ahead of POS. -/
structure Stream where
  w0 : Reg
  w1 : Reg
  w2 : Reg
  w3 : Reg
  w4 : Reg
  pre : List PreVec
deriving DecidableEq, Repr

/-- An entry of the divergence stack: path or rejoin, address, lanes (R34, R166). -/
structure StackEntry where
  path : Bool
  addr : Nat
  mask : Mask
deriving DecidableEq, Repr

/-- A loop frame: start of the body and its length in words (R43, R174). -/
structure LoopFrame where
  start : Nat
  len : Nat
deriving DecidableEq, Repr

/-- The fields of the clause header in force (R51). -/
structure ClauseFields where
  wait : BitVec 12
  seta : BitVec 4
  setb : BitVec 4
  len : Nat
deriving DecidableEq, Repr

/-- How the position is to be read. -/
inductive PosMode where
  /-- hdr is the target of a transfer of control and must be a CLAUSE header (R58). -/
  | target
  /-- hdr was reached in sequence or by a resume and may be a CLAUSE or a POOL header (R52, R59, R61). -/
  | flow
  /-- The header at hdr has been evaluated; the word at idx issues next (R53). -/
  | body
  /-- The warp fell through the last word of the innermost loop body; hdr is the word after it (R174). -/
  | fell
  /-- A saved position whose INDEX is 0xFF: the warp traps there under R58, whatever stands at hdr (R427, R428). -/
  | trap
deriving DecidableEq, Repr

/-- The position of a warp: clause header, index of the next word, and the header's fields (R53, R59). -/
structure Pos where
  hdr : Nat
  idx : Nat
  mode : PosMode
  cl : ClauseFields
deriving DecidableEq, Repr

/-- A fault record (R425). -/
structure FaultRec where
  lane : Nat
  addr : Reg
  pc : Nat
  hdr : Nat
  kind : Nat
  offs : Nat
  typ : Nat
  fkind : Nat
deriving DecidableEq, Repr

/-- An outstanding long-latency operation (R54, R56): its number, the flag it counts against, the registers it will
write, the records of data errors that its completion makes known (R186), whether it can raise flags (R94), whether
a handler issued it (R423), and for a global load the tile's cycle at issue (R506). far holds, for each of its requests that
left the device, the record of the fault that an error completion makes of it (R449), and oldV and oldS what its
destinations held before, if any request left the device. -/
structure Outst where
  id : Nat
  flag : Nat
  vregs : List Nat
  sregs : List Nat
  recs : List FaultRec
  fp : Bool
  inHandler : Bool
  load : Option Reg
  far : List FaultRec
  oldV : List (Nat × VReg)
  oldS : List (Nat × Reg)
deriving DecidableEq, Repr

/-- Why a warp is not ready though it has not ended (R404, R434). -/
inductive Wait where
  | none
  /-- Arrived at the k-th BAR or GBAR (R264). -/
  | bar (gang : Bool)
  /-- WAITC: the counter's virtual address and the value waited for (R277). -/
  | counter (va : Nat) (v : Nat)
  /-- QPOP on a pipe, with the number of its arrival and its destination (R212). -/
  | pipe (k : Nat) (order : Nat) (d : Nat)
  /-- SLEEP until a tick of the die (R279). -/
  | sleep (tick : Nat)
  /-- VXSWAP: an arrival is posted (R150): partner, mask, tag, values, destination code, .Z, and the stream that its
  operand consumes when the pair is made, with whether it ends the stream. -/
  | swap (wg wp : Nat) (mask : Mask) (tag : BitVec 5) (vals : List Reg) (d : BitVec 7) (z : Bool)
      (stream : Option (Nat × Bool))
  /-- TBWAIT on the barrier object at a scratchpad offset while its phase is this one (R262). -/
  | tb (off phase : Nat) (order : Nat)
  /-- CPWAIT until at most n batches are outstanding (R257). -/
  | batch (n : Nat)
  /-- PUBLISH sent to the translation home: the address, its destination and the order of arrival (R297). -/
  | publish (va : Nat) (d : Nat) (order : Nat)
  /-- A FENCE, REL or PUBLISH at system scope waits for remote acknowledgements (R341). -/
  | remote
  /-- Parked on resolvable faults: tags of the messages without a reply (R434). -/
  | park (tags : List Nat)
  /-- Parked on BKPT: the tag of the break message (R273). -/
  | brk (tag : Nat)
  /-- A consumption is held by the slip rule: die, slot, tick at which the hold began (R363). -/
  | hold (slot : Nat) (since : Nat)
deriving DecidableEq, Repr

/-- The matrix instruction of a warp that is outstanding (R223, R224, R230, R231, R235): the team's number and identity
for MMT, the record and scale words, accumulator, columns, row mask, flag, its number among the outstanding operations, the
position at which the run was started, the tags of fault messages without a reply, the pages answered "none", and
whether the warp is parked for them. Its progress stands in MROW. -/
structure MatrixRun where
  team : Option (Nat × Nat)
  words : List Reg
  srec : Nat
  vd : Nat
  n : Nat
  mask : Mask
  flag : Nat
  opId : Nat
  pk : Nat
  pc : Nat
  hdr : Nat
  offs : Nat
  tags : List Nat
  nones : List Nat
  parked : Bool
deriving DecidableEq, Repr

/-- What a tile's matrix engine has to run: a warp's MMA, or the blocks of a team's members on the tile (R236, R238). -/
inductive EngineJob where
  | mma (w : WRef)
  | team (id : Nat)
deriving DecidableEq, Repr

/-- The registers of a warp (R15-R24, R28, R44). tagSet is the tag set of a restored warp, byte by byte, which the fills of its
absent granules check and write (R42, R44, R45). -/
structure WarpRegs where
  v : Table VReg
  absent : List Nat
  tagSet : List Nat
  sAbsent : Bool
  s : Table Reg
  p : Table Mask
  x : Table (List Byte)
  winBase : Nat
  winLen : Nat
  alloc : Nat
  flags : Table Nat
  st : Table Stream
  q : Table (Option Nat)
deriving DecidableEq, Repr

/-- Special registers of a warp (R38, R269, R270), and the streams that are counted in its CVSTAT (R371). -/
structure WarpSpecial where
  fstat : BitVec 8
  mrow : Reg
  cvm : BitVec 8
  cvslip : BitVec 8
  cvpat : BitVec 16
  merged : Nat
  unmerged : Nat
  detach : Nat
  counted : BitVec 8
  srseed : Reg
  prio : Nat
  hvFault : Reg
  hvCancel : Reg
  hvPreempt : Reg
  hvTrap : Reg
deriving DecidableEq, Repr

/-- An exception whose entry waits for a page of the fault area or of the s-granule (R299, R434): its code, its argument, its records and
the INDEX that its frame is to hold, if the position does not say it. -/
structure Entry where
  code : Nat
  arg : Nat
  recs : List FaultRec
  index : Option Nat
deriving DecidableEq, Repr

/-- Control state of a warp: masks, divergence stack, loops, position, traps and waits (R34-R36, R43, R59, R426-R431). -/
structure WarpCtl where
  base : Mask
  exited : Mask
  fmask : Mask
  stack : List StackEntry
  lc : Table Nat
  depth : Nat
  frames : Table LoopFrame
  lbuf : Table Word
  pos : Pos
  handler : Option Nat
  recs : List FaultRec
  entry : Option Entry
  trapNo : Option Nat
  cancelReq : Bool
  preReq : Bool
  sigdone : Bool
  ended : Bool
  wait : Wait
deriving DecidableEq, Repr

/-- A warp (R13): registers, special registers, control state and what it has outstanding. farFails holds the completions that the
next requests of a lane and address will meet, with the kinds of their faults (R449; DESIGN CHOICE, log entry 2), and posted the records that
error completions would make of stores that have left the device and may not be acknowledged yet (R340, R449), each with whether the
present handler issued it (R423). -/
structure Warp where
  r : WarpRegs
  sp : WarpSpecial
  c : WarpCtl
  outs : List Outst
  nextOp : Nat
  mat : Option MatrixRun
  batches : List (List Nat)
  openB : List Nat
  joined : Bool
  bars : Nat
  gbars : Nat
  nones : List Nat
  region : Option (Nat × Reg)
  remote : Nat
  lastIssue : Nat
  farFails : List (Nat × Nat × Nat)
  posted : List (Bool × FaultRec)
deriving DecidableEq, Repr

/-- A write of a group register that a GRD of the same or the next cycle does not see yet (R29): what the register held before it, the
tile's cycle at its issue, and the warp that wrote. -/
structure GroupWrite where
  old : Reg
  at_ : Reg
  wp : Nat
deriving DecidableEq, Repr

/-- Where a workgroup stands (R388, R421, R437). -/
inductive WgStatus where
  | resident
  /-- Switched out: its image lies in the save area (R41). -/
  | saved
  /-- A saved workgroup that has been placed on a tile and waits for its restore (R44, R496). -/
  | placed
  /-- The workgroup is ending with error: code, warp, position, kind and address for the exit record (R421, R432). -/
  | error (cause warp pc kind : Nat) (addr : Reg)
  | ended
deriving DecidableEq, Repr

/-- A workgroup (R13, R14): the level it is a child of, identity, what its launch says of it (R379), group registers,
scratchpad and warps. Its context is asid, which is bound to slot, or to none where that is 8 (R494). recent holds the newest writes of each group register, oldest first (R29); bound marks a saved one that
held a bound queue register (R214); wslots are the warp slots of its tile that its warps hold, by warp (R373, R392). -/
structure Workgroup where
  level : Nat
  tbp : Bool
  exitrec : Nat
  vgr : Nat
  bound : Bool
  asid : Nat
  slot : Nat
  queue : Nat
  handle : Nat
  wgix : Nat
  wx : Nat
  wy : Nat
  wz : Nat
  gangix : Nat
  gang : List Nat
  gangLaunch : Bool
  producer : Nat
  g : Table Reg
  recent : Table (List GroupWrite)
  spAlloc : Nat
  sp : Memory
  tile : Nat
  area : Nat
  status : WgStatus
  cancelled : Bool
  discard : Bool
  warps : Table Warp
  nwarps : Nat
  preTick : Option Nat
  cancelTick : Option Nat
  wslots : List Nat
deriving DecidableEq, Repr

/-- A line of the line buffer (R284): address of the line (physical address div 128), context, range index, masks and
bytes. -/
structure Line where
  line : Nat
  asid : Nat
  rix : Nat
  valid : BitVec 128
  dirty : BitVec 128
  data : BitVec 1024
deriving DecidableEq, Repr

/-- A line of the instruction cache (R287). -/
structure CodeLine where
  line : Nat
  asid : Nat
  data : BitVec 1024
deriving DecidableEq, Repr

/-- A cached translation of a page (R300): context, page number of the leaf, its level and the leaf entry (R298). -/
structure PageEntry where
  asid : Nat
  vpn : Nat
  level : Nat
  pte : Reg
deriving DecidableEq, Repr

/-- A cached table entry above the leaves, held by a walker (R300): context, level, index bits of the address above the
table, and the entry. -/
structure UpperEntry where
  asid : Nat
  level : Nat
  pfx : Nat
  pte : Reg
deriving DecidableEq, Repr

/-- A walk in progress (R300): context, page number, kind of access, and the die's tick at its start (R506). -/
structure Walk where
  asid : Nat
  vpn : Nat
  acc : Nat
  born : Nat
deriving DecidableEq, Repr

/-- An entry of a merge point (R288): line address, open bit, number of waiters, and the queue, the warp and the PRIO of the read
that opened it (R403); the PRIO stands for a warp that is no more. -/
structure MergeEntry where
  line : Nat
  isOpen : Bool
  waiters : Nat
  queue : Nat
  prio : Nat
  agent : Option WRef
deriving DecidableEq, Repr

/-- A read that waits for an entry: line, tile, the die's tick at its arrival, the queue, PRIO and warp of its agent, and the warp and
stream in whose CVSTAT it counts once it has its place (R288, R290, R406, R506). -/
structure MergeWait where
  line : Nat
  tile : Nat
  born : Nat
  queue : Nat
  prio : Nat
  agent : Option WRef
  count : Option (WRef × Nat)
deriving DecidableEq, Repr

/-- A merge point: its table of at most 512 entries and its input queue of reads without an entry (R288). -/
structure MergePoint where
  entries : List MergeEntry
  queue : List MergeWait
deriving DecidableEq, Repr

/-- A context slot (R494) and the areas of its pool that are in use (R495). -/
structure Slot where
  asid : Nat
  deflevel : Nat
  cap : Nat
  dbg : Bool
  v : Bool
  ptroot : Nat
  rtab : Nat
  ctab : Nat
  ccnt : Nat
  abase : Nat
  asize : Nat
  acnt : Nat
  used : List Nat
deriving DecidableEq, Repr

/-- A message of the fault ring (R435), the cluster it came from with its die's tick then (R506), and whether its reply has
come (R501). -/
structure FaultMsg where
  va : Nat
  asid : Nat
  acc : Nat
  src : Nat
  tag : Nat
  handle : Nat
  wg : Nat
  warp : Nat
  uid : Nat
  cluster : Nat
  born : Nat
  answered : Bool
deriving DecidableEq, Repr

/-- A member record of a convoy (15_convoys.md, R359): the warp's handle, the stream and its position, hold, last advance
and migration. pendingDetach marks a member whose detach waits for the end of its migration, expired one whose patience has
ended while detaches of its D were pending, due those members of D, and go one whose next consumption proceeds (R364). -/
structure Member where
  w : WRef
  n : Nat
  pos : Nat
  held : Bool
  hstart : Nat
  limit : Nat
  ladv : Nat
  mig : Bool
  pendingDetach : Bool
  expired : Bool
  due : List (WRef × Nat)
  go : Bool
deriving DecidableEq, Repr

/-- The last event of a convoy in the order of one tick (R373): the die's tick, its place in the order (0 an advance, 1 a join or leave,
2 an expiry or detach, 3 a re-evaluation), and for a join or leave the tile and the warp slot. -/
structure ConvoyMark where
  tick : Nat
  cls : Nat
  tile : Nat
  slot : Nat
deriving DecidableEq, Repr

/-- A convoy slot: the descriptor of R356 and its members; COUNT and MINPOS are read from the members. -/
structure Convoy where
  ostride : Reg
  istride : Reg
  base : Nat
  asid : Nat
  en : Bool
  tag : BitVec 5
  members : List Member
  mark : Option ConvoyMark
deriving DecidableEq, Repr

/-- An entry of a pipe (R210): its value, whether it is available to pops yet, and the waiting warp that it has gone to but that
cannot retire yet (R212, R230, R412). -/
structure PipeEntry where
  v : Reg
  ready : Bool
  owner : Option WRef
deriving DecidableEq, Repr

/-- A pipe: the descriptor of R207 (RING as a page number), its entries on chip, oldest first, the physical
addresses of those in the ring, oldest first, and the index of the ring's next place (R207, R211). -/
structure Pipe where
  asid : Nat
  quota : Nat
  ring : Nat
  en : Bool
  entries : List PipeEntry
  spilled : List Nat
  next : Nat
deriving DecidableEq, Repr

/-- The kinds of copy (R246). -/
inductive CopyKind where
  | cpy | cpt | cpr | cpx | cpc
deriving DecidableEq, Repr

/-- A sector of a reducing copy that has been sent to its atomic unit and not been acknowledged (R353, R354): where it goes
(a workgroup's scratchpad, or memory), the bytes, their value as it was read, and the die's tick when it was sent. -/
structure SentSector where
  sp : Option Nat
  addr : Nat
  n : Nat
  data : Nat
  tick : Nat
deriving DecidableEq, Repr

/-- A copy of a streamer (R243-R257, R353): the issuing warp, the tile of the streamer, its token register, its record and
the shape record as they were read at issue, the sibling, the barrier as workgroup and offset, the destination units of a
scattered copy, the next sector, the sectors acknowledged (all below base, and those of win), the shadow pages fixed at its
start by range entry (R297), its TAG and the die that gave it, the sectors sent, the tags of fault messages without a
reply, pages answered "none", the global lines written, the fault that ends it (code and sector), the tile's cycle at
issue, and the PRIO that its warp had then (R400). The die is one of this device (0 to 3), or die x of device v as
8 + 4 * v + x where the copy was handed to an engine there (R352; DEDUCED, log entry 37). -/
structure Copy where
  id : Nat
  kind : CopyKind
  w : WRef
  tile : Nat
  tok : Nat
  words : List Reg
  shape : List Reg
  sib : Option Nat
  bar : Option (Nat × Nat)
  started : Bool
  units : List Nat
  nsect : Nat
  next : Nat
  base : Nat
  win : List Nat
  gens : Table Nat
  tag : Option Nat
  die : Nat
  sent : Table SentSector
  parked : List Nat
  nones : List Nat
  lines : List Nat
  err : Option (Nat × Nat)
  born : Reg
  prio : Nat
deriving DecidableEq, Repr

/-- The completion record of a reducing copy (R353). -/
structure CopyRecord where
  win : Reg
  base : Nat
  state : Nat
  copy : Nat
deriving DecidableEq, Repr

/-- A tile (R3, R284, R287, R300, R238, R245): its cycle counter, whether it is retired, line buffer (most recently used
first), instruction cache, translation caches, ways retired in each set of the line buffer, matrix queue (warps in
order), streamer (copies queued and in progress, in order; forwarding places of R415), the lines of writes to space
0x0 that have no acknowledgement yet (R328), the contexts whose translations it no longer keeps, because their entries of
its caches were retired (R301; DESIGN CHOICE, log entry 41), the die's tick of the last
placement on it (R410), and the pipes that have selected in the present cycle with the warps that issued (R49, R404). -/
structure Tile where
  cycle : Reg
  retired : Bool
  lines : List Line
  code : List CodeLine
  ranges : Table (List (BitVec 256))
  pages : List PageEntry
  badWays : Table Nat
  badCode : Table Nat
  engine : List EngineJob
  copies : List Nat
  forward : List Nat
  unacked : List Nat
  badXlat : List Nat
  placed : Option Nat
  issued : List (Nat × WRef)
deriving DecidableEq, Repr

/-- The phases of a rotation swap (R413). -/
inductive SwapPhase where
  | quiesce | transfer | done
deriving DecidableEq, Repr

/-- A rotation swap in progress (R410, R413): the two tiles, phase, start tick, which parts have ended, and the swaps the
interval may still take: the temperatures of its tick and the eligible tiles that no swap has taken (R410). -/
structure Swap where
  hot : Nat
  cool : Nat
  phase : SwapPhase
  start : Nat
  moved : Bool
  written : Bool
  index : Nat
  temps : List Nat
  elig : List Nat
deriving DecidableEq, Repr

/-- Clock state of a cluster: CLKSTAT (R478), the level a change aims at, and whether the idle generator is locking, the tick of its die at
which it holds its level (R475), and the tick at which the change that is under way began (R476). -/
structure Clock where
  level : Nat
  target : Nat
  pcap : Nat
  ilevel : Nat
  fblevel : Nat
  cstate : Nat
  gsel : Bool
  clamp : Bool
  plim : Nat
  inocc : Nat
  outocc : Nat
  aim : Nat
  locking : Bool
  lockEnd : Nat
  since : Nat
deriving DecidableEq, Repr

/-- A performance monitor (R506). -/
structure Monitor where
  base : Nat
  shift : Nat
  src : Nat
  min_ : Nat
  max_ : Nat
  cnt : Nat
  sum : Nat
  bins : Table Nat
deriving DecidableEq, Repr

/-- A team of the team table (R235-R237): its identity, gang and number, the members whose part is not complete in order
of arrival, whether it has formed and runs, whether the pre-emption of a member has stopped it, and the panel of the k-block in work: the
number of the k-block and its 16-byte blocks as they were fetched, by block number. -/
structure Team where
  id : Nat
  gang : List Nat
  team : Nat
  arrived : List WRef
  running : Bool
  stopped : Bool
  panelOf : Nat
  panel : Table Nat
deriving DecidableEq, Repr

/-- An inter-cluster link (R453): width in quarters of full, and the width a handshake leads to. -/
structure Link where
  width : Nat
  handshake : Option Nat
  retired : Bool
deriving DecidableEq, Repr

/-- A cluster (R391, R408, R409, R478, R280, R506, R489): dispatch register, rotation registers, the tick of the last
interval that acted (R407) and the swap, clock,
requests by context slot, monitors, stall ratio with the counts of the sample that runs and of the one that has ended (s and c of
R270), pipes, walks (the first 64 run, R300) with the walker's upper entries, and teams. -/
structure Cluster where
  syslim : Nat
  rsv : Bool
  thresh : Nat
  maxsw : Nat
  roten : Bool
  swaps : Nat
  aborts : Nat
  hot1 : Nat
  cool1 : Nat
  hot0 : Nat
  cool0 : Nat
  nlast : Nat
  interval : Nat
  swap : Option Swap
  clk : Clock
  requests : Table Nat
  mons : Table Monitor
  ratio : Nat
  stalled : Nat
  held : Nat
  sample : Option (Nat × Nat)
  pipes : Table Pipe
  walks : List Walk
  upper : List UpperEntry
  teams : List Team
  link : Link
deriving DecidableEq, Repr

/-- A series pair (R473, R485, R483, R490): PAIRPWR, BALSTAT, the runs of samples, the tick its gating state began,
the tick of the last change of VNOW and what it was before (R476), and that of the last sample (R481). -/
structure Pair where
  gstate : Nat
  gateen : Bool
  vnow : Nat
  pfloor : Nat
  ballast : Table Nat
  ieven : Nat
  iodd : Nat
  bal : Bool
  sampled : Bool
  outRun : Nat
  inRun : Nat
  since : Nat
  slewed : Nat
  vwas : Nat
  sampleAt : Option Nat
deriving DecidableEq, Repr

/-- The gang that waits at the head of a queue while a die cannot place it (R394): its level, its first index, and the die's tick
since when it waits. -/
structure GangWait where
  level : Nat
  first : Nat
  since : Nat
deriving DecidableEq, Repr

/-- A die's reservation for a gang: level, first index, cluster (R394). -/
structure Reservation where
  level : Nat
  first : Nat
  cluster : Nat
deriving DecidableEq, Repr

/-- A compute die: ref ticks since reset (R4), DIEPWR (R486), convoy slots (R356), completion records by TAG (R353), the
last queue its dispatcher served (R393), the gang reservation and the gangs that wait, by queue (R394), and the
tick of the last power sample (R487). -/
structure Die where
  tick : Nat
  budget : Nat
  power : Nat
  overs : Nat
  hard : Nat
  slots : Table Convoy
  records : Table CopyRecord
  lastQueue : Nat
  resv : Option Reservation
  gangWait : Table GangWait
  released : Bool
  powerAt : Option Nat
deriving DecidableEq, Repr

/-- A condition of a FENCE packet: the counter, the value, whether it has been met, and the physical address of the counter once a
test has translated it (R381, R382). -/
structure FenceCond where
  va : Nat
  v : Nat
  met : Bool
  pa : Option Nat
deriving DecidableEq, Repr

/-- A submission queue: the descriptor of R375, the conditions of the FENCE it holds on, the tag of the fault message it
waits for with whose access sent it, and the pages answered "none", each with the access that they were answered to (R522): 0 is one of the
processor's for the queue itself, u + 1 one for workgroup u. -/
structure Queue where
  chsh : Nat
  ptsh : Nat
  prio : Nat
  eprio : Nat
  idem : Bool
  en : Bool
  state : Nat
  err : Nat
  size : Nat
  asid : Nat
  ring : Nat
  tail : Nat
  head : Nat
  conds : List FenceCond
  waitTag : Option Nat
  waitBy : Nat
  nones : List (Nat × Nat)
deriving DecidableEq, Repr

/-- A parsed level: a launch, graph, phase or job (R386, R387), of the context asid, which is bound to slot, or to none where that is
8 (R494); isOpen until its close marker. A launch keeps its packet, its arguments as they were
read at parse (R380), the next workgroup to place, and the workgroups discarded for a new dispatch with the restart
records of their warps (R276, R442). -/
structure Level where
  kind : Nat
  asid : Nat
  slot : Nat
  queue : Nat
  counter : Nat
  parent : Option Nat
  isOpen : Bool
  closed : Bool
  cancelled : Bool
  complete : Bool
  packet : List Reg
  args : List Reg
  next : Nat
  again : List (Nat × Table (Nat × Reg) × List Nat)
deriving DecidableEq, Repr

/-- A call of the collective engines (R459-R466): the copy it belongs to, its key, shape record and group table, whether it
is posted, and segment by segment what its engine holds: the contribution, P, S, the chain total, the level-2 values and
the group total; the pulls it has sent, the flags of its combining steps, whether it failed and the status word of that (R457), whether it has written its token, and
its result as packed bytes once it may be written. -/
structure Call where
  copy : Nat
  gid : Nat
  seq : Nat
  rank : Nat
  shape : List Reg
  entries : List Reg
  posted : Bool
  x : List (List Nat)
  p : List (List Nat)
  s : List (List Nat)
  tot : List (List Nat)
  tp : List (List Nat)
  ts : List (List Nat)
  sum : List (List Nat)
  asked : List (Bool × Nat)
  fl : BitVec 8
  failed : Bool
  failWord : Nat
  ended : Bool
  result : Option Nat
deriving DecidableEq, Repr

/-- A member of a group that runs on another device: group, sequence, rank, and the first of the free values that are its contribution
and its fate (R459, R465; DESIGN CHOICE, log entry 2). -/
structure Remote where
  gid : Nat
  seq : Nat
  rank : Nat
  base : Nat
deriving DecidableEq, Repr

/-- A report to the management cores that the bound of a pre-emption has expired (R440; its form is the model's, DESIGN CHOICE, log
entry 44): slot, launch handle, linear workgroup index and warp. -/
structure Expiry where
  slot : Nat
  handle : Nat
  wgix : Nat
  warp : Nat
deriving DecidableEq, Repr

/-- The I/O die and what is one for the device (16_scheduling.md, 19_collectives_and_fabric.md, 21_boot_and_monitors.md):
queues by 64 * slot + queue, parsed levels, fault ring (R501), workgroup control block with the request in progress (OP, slot, handle, index; R496), error log (R508), inbound
windows by 8 * entry + word (R451), straps and boot state with the key pairs that the ROM derived (R498-R502), ports and links, collective calls, copies, windows of
reducing copies (R354), lines with uncorrectable errors and retired pages (R301), the addresses whose retirement has no entry in the
log yet (R509), the retired pages that have left the mappings of each context (R302), reservation windows by 1024 * resource + queue (R402), error counts by 4 * kind + class (R301, R505),
the reports of pre-emptions whose bound expired (R440), and what the last read of the host through its port returned (R503;
DESIGN CHOICE, log entry 47). -/
structure Device where
  tick : Nat
  devid : Nat
  pod : List Nat
  queues : Table Queue
  levels : List Level
  ring : Table FaultMsg
  ringHead : Nat
  ringTail : Nat
  nextTag : Nat
  wcbOp : Nat
  wcbSlot : Nat
  wcbHandle : Nat
  wcbWgix : Nat
  wcbCode : Nat
  wcbState : Nat
  wcbReq : Option (Nat × Nat × Nat × Nat)
  log : Table (List Reg)
  logNext : Nat
  windows : Table Reg
  bootstrap : Reg
  stage : Nat
  bootSlot : Nat
  halted : Option Nat
  flash : Memory
  romHash : List Byte
  minSvn1 : Nat
  minSvn2 : Nat
  secret : List Byte
  locked : Bool
  identity : List Byte
  alias_ : List Byte
  svn1 : Nat
  svn2 : Nat
  meas1 : List Byte
  meas2 : List Byte
  report : List Byte
  mctp : List Reg
  bar2 : Nat
  ports : List Nat
  hostUp : Bool
  ethUp : List Nat
  badLinks : List Nat
  calls : List Call
  remotes : List Remote
  copies : Table Copy
  applied : Table (List Nat)
  badLines : List Nat
  badPages : List Nat
  retiring : List Nat
  unmapped : Table (List Nat)
  served : Table Nat
  errors : Table Nat
  expiries : List Expiry
  hostRead : Reg
deriving DecidableEq, Repr

/-- A load or store that a warp has issued and that is performed later than accesses issued after it (R309, R315): the instruction, the
warp before and after its issue, the locations it names, each a space and a byte, and the vector and the s-registers that receive what
it reads (DESIGN CHOICE, log entry 40). -/
structure LateAccess where
  r : WRef
  i : Instr
  before : Warp
  after : Warp
  places : List (Nat × Nat)
  vregs : List Nat
  sregs : List Nat
deriving DecidableEq, Repr

/-- What a warp's loads may still read although it is past (R309, R315, R318): memory, line buffers, merge points and workgroup as they
were, and the locations that the warp has read since (DESIGN CHOICE, log entry 40). -/
structure EarlyView where
  r : WRef
  wg : Workgroup
  mem : Memory
  tiles : Table Tile
  clusters : Table Cluster
  wadi : Table MergePoint
  seen : List (Nat × Nat)
deriving DecidableEq, Repr

/-- What happens next: the order of the machine's agents, the passing of time and the inputs, as plain data that
step reads one by one (DESIGN CHOICE, log entry 1). -/
inductive Turn where
  /-- A pipe of a tile makes its selection (R404): pipe 0 is A, 1 is B, 2 is U. -/
  | select (tile pipe : Nat)
  /-- An event of the hardware or of the outside world happens. -/
  | event (e : Instr)
  /-- Ref ticks pass on a die, 4 for the I/O die (R4). -/
  | ticks (die n : Nat)
  /-- Cycles of a tile's clock pass (R274). -/
  | cycles (tile n : Nat)
  /-- A pipe makes its selection, and the load or store it issues is performed later (R309, R315). -/
  | late (tile pipe : Nat)
  /-- The oldest late access but k is performed. -/
  | perform (k : Nat)
  /-- What a warp's later loads may read is kept as it is now (R309). -/
  | view (r : WRef)
  /-- A pipe makes its selection, and the load it issues is performed as of such a view (R309, R315, R318). -/
  | early (tile pipe : Nat)
deriving DecidableEq, Repr

/-- Why the machine stops with a fault. -/
inductive Fault where
  /-- Raised by exec of an instruction word when no warp is issuing. step never calls exec so. Safe: it stops where the
  hardware has no instruction to run. -/
  | noWarp
deriving DecidableEq, Repr

/-- Why an instruction has no meaning. -/
inductive Refusal where
  /-- Raised by an arm of exec whose instruction has no meaning yet, by its mnemonic in the opcode table. Safe: the
  machine stops. -/
  | notModelled (mnemonic : String)
deriving DecidableEq, Repr

/-- The state of the machine. Model's own fields: turns, here, cur, free, nextUid, nextId, issues, quantum, late, early (DESIGN CHOICE,
log entries 1, 2 and 40). -/
structure State where
  mem : Memory
  turns : List Turn
  here : Nat
  cur : Option WRef
  free : Nat
  nextUid : Nat
  nextId : Nat
  issues : Nat
  quantum : Nat
  late : List LateAccess
  early : List EarlyView
  wgs : Table Workgroup
  tiles : Table Tile
  clusters : Table Cluster
  pairs : Table Pair
  dies : Table Die
  wadi : Table MergePoint
  slots : Table Slot
  dev : Device
deriving DecidableEq, Repr

/-- An unbound context slot (R494). -/
def Slot.reset : Slot := ⟨0, 12, 15, false, false, 0, 0, 0, 0, 0, 0, 0, []⟩

/-- A tile after reset (R284, R287): empty, not retired. -/
def Tile.reset : Tile := ⟨0, false, [], [], [], [], [], [], [], [], [], [], [], none, []⟩

/-- CLKSTAT after reset (R478), the generators locked at L0. -/
def Clock.reset : Clock := ⟨0, 0, 15, 0, 0, 0, false, false, 256, 0, 0, 0, false, 0, 0⟩

/-- An inter-cluster link at full width (R453). -/
def Link.reset : Link := ⟨4, none, false⟩

/-- A cluster after reset (R391, R408, R409, R478). -/
def Cluster.reset : Cluster :=
  ⟨256, false, 16, 2, true, 0, 0, 0, 0, 0, 0, 0, 0, none, Clock.reset, [], [], 0, 0, 0, none, [], [], [], [], Link.reset⟩

/-- A performance monitor after reset (R506). -/
def Monitor.reset : Monitor := ⟨0, 0, 0, 2 ^ 64 - 1, 0, 0, 0, []⟩

/-- A pipe after reset (R207). -/
def Pipe.reset : Pipe := ⟨0, 0, 0, false, [], [], 0⟩

/-- A pair after reset (R473, R485). -/
def Pair.reset : Pair := ⟨0, true, 550, 550, [], 0, 0, true, false, 0, 0, 0, 0, 550, none⟩

/-- A convoy slot after reset (R356). -/
def Convoy.reset : Convoy := ⟨0, 0, 0, 0, false, 0, [], none⟩

/-- A completion record after reset (R353). -/
def CopyRecord.reset : CopyRecord := ⟨0, 0, 0, 0⟩

/-- A die after reset (R486). -/
def Die.reset : Die := ⟨0, 400, 0, 0, 0, [], [], 511, none, [], false, none⟩

/-- A queue after reset (R375). -/
def Queue.reset : Queue := ⟨0, 0, 0, 0, false, false, 0, 0, 0, 0, 0, 0, 0, [], none, 0, []⟩

/-- A merge point after reset (R288). -/
def MergePoint.reset : MergePoint := ⟨[], []⟩

/-- The I/O die after reset. -/
def Device.reset : Device :=
  { tick := 0, devid := 0, pod := [], queues := [], levels := [], ring := [], ringHead := 0, ringTail := 0, nextTag := 0,
    wcbOp := 0, wcbSlot := 0, wcbHandle := 0, wcbWgix := 0, wcbCode := 0, wcbState := 0, wcbReq := none, log := [], logNext := 0,
    windows := [], bootstrap := 0, stage := 0, halted := none, flash := [], romHash := [], minSvn1 := 0, minSvn2 := 0,
    secret := [], locked := false, identity := [], alias_ := [], svn1 := 0, svn2 := 0, meas1 := [], meas2 := [], report := [], mctp := [], bar2 := 0,
    ports := [], hostUp := false, ethUp := [], badLinks := [], calls := [], remotes := [], copies := [], applied := [], badLines := [],
    badPages := [], retiring := [], unmapped := [], served := [], errors := [], bootSlot := 0, expiries := [], hostRead := 0 }

/-- The machine right after reset: no context bound, no workgroup resident, memory with nothing listed, every register
at the value the spec states for reset or the value INVENTORY.md names (DESIGN CHOICE, log entry 5). -/
def State.reset : State :=
  { mem := [], turns := [], here := 0, cur := none, free := 0, nextUid := 0, nextId := 0, issues := 0, quantum := 0, late := [],
    early := [], wgs := [],
    tiles := [], clusters := [], pairs := [], dies := [], wadi := [], slots := [], dev := Device.reset }

end Sys2Proof.Machine
end

