-- ==== Sys2Proof/Machine/Table.lean ====
section
/-! DEFINITION. Sparse tables, memory as a canonical list of cells, lanes, and the bit fields and byte order every other
file uses. -/

namespace Sys2Proof.Machine

/-- The value a table lists for a number. -/
def Table.find {α : Type} (t : Table α) (k : Nat) : Option α :=
  match t with
  | [] => none
  | (j, x) :: r => if j = k then some x else Table.find r k

/-- The value of a number, the default where none is listed. -/
def Table.get {α : Type} (t : Table α) (d : α) (k : Nat) : α := (Table.find t k).getD d

/-- List a value for a number, in its place. -/
def Table.set {α : Type} (t : Table α) (k : Nat) (x : α) : Table α :=
  match t with
  | [] => [(k, x)]
  | (j, y) :: r =>
    if j = k then (k, x) :: r
    else if k < j then (k, x) :: (j, y) :: r
    else (j, y) :: Table.set r k x

/-- Strike a number from the table. -/
def Table.del {α : Type} (t : Table α) (k : Nat) : Table α := t.filter (fun c => c.1 != k)

/-- Change the value of a number. -/
def Table.modify {α : Type} (t : Table α) (d : α) (k : Nat) (f : α → α) : Table α :=
  Table.set t k (f (Table.get t d k))

/-- What an unlisted byte of memory or of a scratchpad reads as (R395, R500; DESIGN CHOICE, log entry 4). -/
def blankByte : Byte := 0

/-- The byte at an address. -/
def Memory.read (m : Memory) (a : Nat) : Byte := (Table.find m a).getD blankByte

/-- Write one byte, keeping the list canonical: a byte equal to what an unlisted address reads as is not listed. -/
def Memory.write (m : Memory) (a : Nat) (b : Byte) : Memory :=
  if b = blankByte then Table.del m a else Table.set m a b

/-- The canonical form: addresses strictly rising, and no byte listed that an unlisted address reads as. -/
def Memory.wf (m : Memory) : Bool :=
  match m with
  | [] => true
  | (a, b) :: r => b != blankByte && (match r with | [] => true | (a', _) :: _ => decide (a < a')) && Memory.wf r

/-- n bytes from an address on, as an unsigned number, low byte first (R6). -/
def Memory.readN (m : Memory) (a : Nat) : Nat → Nat
  | 0 => 0
  | n + 1 => (Memory.read m a).toNat + 256 * Memory.readN m (a + 1) n

/-- Write the low n bytes of a number from an address on, low byte first (R6). -/
def Memory.writeN (m : Memory) (a : Nat) (n : Nat) (v : Nat) : Memory :=
  match n with
  | 0 => m
  | k + 1 => Memory.writeN (Memory.write m a (BitVec.ofNat 8 v)) (a + 1) k (v / 256)

/-- Write those of n bytes whose bit of the mask is set (R286). -/
def Memory.writeMasked (m : Memory) (a : Nat) (mask data : Nat) : Nat → Memory
  | 0 => m
  | k + 1 =>
    let m' := if mask % 2 = 1 then Memory.write m a (BitVec.ofNat 8 data) else m
    Memory.writeMasked m' (a + 1) (mask / 2) (data / 256) k

/-- Bits [lo + n - 1 : lo] of a 64-bit word, as a number. -/
def fieldOf (w : Reg) (lo n : Nat) : Nat := (w.toNat / 2 ^ lo) % 2 ^ n

/-- Put the low n bits of v at bit lo of a number whose bits there are zero. -/
def placed (v lo n : Nat) : Nat := (v % 2 ^ n) * 2 ^ lo

/-- A word with bits [lo + n - 1 : lo] replaced. -/
def setField (w : Reg) (lo n v : Nat) : Reg :=
  let m := w.toNat
  BitVec.ofNat 64 (m - fieldOf w lo n * 2 ^ lo + placed v lo n)

/-- Two's complement reading of the low w bits of a number (R81). -/
def signedOf (w : Nat) (n : Nat) : Int :=
  let m := n % 2 ^ w
  if w = 0 then 0 else if m < 2 ^ (w - 1) then (m : Int) else (m : Int) - 2 ^ w

/-- The low w bits of an integer, as an unsigned number. -/
def wrapTo (w : Nat) (v : Int) : Nat := (v % ((2 : Int) ^ w)).toNat

/-- A 64-bit register from an integer, modulo 2^64. -/
def regOf (v : Int) : Reg := BitVec.ofInt 64 v

/-- The value that lane l of a list of lanes holds. -/
def laneOf (ls : List Reg) (l : Nat) : Reg := ls.getD l 0

/-- The numbers of the 32 lanes (R13). -/
def laneNums : List Nat := List.range 32

/-- New values in the lanes of a mask, the old values elsewhere (R31). -/
def mergeLanes (m : Mask) (old : List Reg) (new : Nat → Reg) : List Reg :=
  laneNums.map (fun l => if m.getLsbD l then new l else laneOf old l)

/-- The mask of the lanes that satisfy a test. -/
def maskOf (t : Nat → Bool) : Mask :=
  BitVec.ofNat 32 (laneNums.foldl (fun a l => if t l then a + 2 ^ l else a) 0)

/-- The lanes of a mask, ascending. -/
def lanesIn (m : Mask) : List Nat := laneNums.filter (fun l => m.getLsbD l)

/-- Sub-element j of width w of a 64-bit lane (R15). -/
def subEl (w : Nat) (x : Reg) (j : Nat) : Nat := (x.toNat / 2 ^ (w * j)) % 2 ^ w

/-- A lane built from its sub-elements of width w, sub-element 0 lowest. -/
def packEls (w : Nat) (es : List Nat) : Nat :=
  match es with
  | [] => 0
  | e :: r => e % 2 ^ w + 2 ^ w * packEls w r

/-- A lane from a function of the sub-element number, for the 64 / w sub-elements of width w. -/
def laneFrom (w : Nat) (f : Nat → Nat) : Reg :=
  BitVec.ofNat 64 (packEls w ((List.range (64 / w)).map f))

/-- A saturating 16-bit and 24-bit count (R270). -/
def sat16 (n : Nat) : Nat := min n 0xFFFF
def sat24 (n : Nat) : Nat := min n 0xFFFFFF

/-- The n consecutive numbers from a on. -/
def span (a n : Nat) : List Nat := (List.range n).map (fun i => a + i)

end Sys2Proof.Machine
end

