-- ==== Sys2Proof/Machine/Float.lean ====
section
/-! DEFINITION. Floating formats, rounding, and the exact arithmetic behind every floating result (03_number_formats.md,
R83-R101, R106, R127-R132). A finite value is an integer times a power of two; every operation computes it exactly and
narrows once. -/

namespace Sys2Proof.Machine

/-- A floating format (R83): width, fraction bits, bias, greatest exponent, greatest significand, and whether it has
infinities and NaNs of the IEEE kind. -/
structure FloatFmt where
  width : Nat
  m : Nat
  bias : Nat
  emax : Nat
  maxM : Nat
  ieee : Bool
  hasNan : Bool
deriving DecidableEq, Repr

def fmtF64 : FloatFmt := ⟨64, 52, 1023, 1023, 2 ^ 53 - 1, true, true⟩
def fmtF32 : FloatFmt := ⟨32, 23, 127, 127, 2 ^ 24 - 1, true, true⟩
def fmtF16 : FloatFmt := ⟨16, 10, 15, 15, 2 ^ 11 - 1, true, true⟩
def fmtBf16 : FloatFmt := ⟨16, 7, 127, 127, 2 ^ 8 - 1, true, true⟩
def fmtE5m2 : FloatFmt := ⟨8, 2, 15, 15, 7, true, true⟩
def fmtE4m3 : FloatFmt := ⟨8, 3, 7, 8, 14, false, true⟩
def fmtE2m1 : FloatFmt := ⟨4, 1, 1, 2, 3, false, false⟩

/-- The floating format of a tag (R30). -/
def floatFmt (t : BitVec 5) : Option FloatFmt :=
  match t.toNat with
  | 0x10 => some fmtF64
  | 0x11 => some fmtF32
  | 0x12 => some fmtF16
  | 0x13 => some fmtBf16
  | 0x14 => some fmtE4m3
  | 0x15 => some fmtE5m2
  | 0x16 => some fmtE2m1
  | _ => none

/-- The integer format of a tag: width and signedness (R81). -/
def intFmt (t : BitVec 5) : Option (Nat × Bool) :=
  match t.toNat with
  | 0x01 => some (8, true)
  | 0x02 => some (8, false)
  | 0x03 => some (16, true)
  | 0x04 => some (16, false)
  | 0x05 => some (32, true)
  | 0x06 => some (32, false)
  | 0x07 => some (64, true)
  | 0x08 => some (64, false)
  | 0x09 => some (4, true)
  | 0x0A => some (4, false)
  | _ => none

/-- A floating value: NaN (signalling or quiet), infinity, or (-1)^neg * mant * 2^exp. -/
inductive FVal where
  | nan (signalling : Bool)
  | inf (neg : Bool)
  | fin (neg : Bool) (mant : Nat) (exp : Int)
deriving DecidableEq, Repr

/-- A rounded result: the pattern and the flags raised. -/
structure FRes where
  bits : Nat
  fl : BitVec 8
deriving DecidableEq, Repr

/-- Flags of FSTAT (R93). -/
def flNV : BitVec 8 := 1
def flDZ : BitVec 8 := 2
def flOF : BitVec 8 := 4
def flUF : BitVec 8 := 8
def flNX : BitVec 8 := 16
def flSAT : BitVec 8 := 32

/-- The flag if the condition holds. -/
def flagIf (c : Bool) (f : BitVec 8) : BitVec 8 := if c then f else 0

/-- Whether a value is a signalling NaN, or any NaN. -/
def FVal.isSnan : FVal → Bool
  | .nan s => s
  | _ => false

def FVal.isNan : FVal → Bool
  | .nan _ => true
  | _ => false

/-- The sign bit of a value other than NaN. -/
def FVal.neg : FVal → Bool
  | .nan _ => false
  | .inf n => n
  | .fin n _ _ => n

/-- The value of a pattern (R84, R85). -/
def fdecode (f : FloatFmt) (b : Nat) : FVal :=
  let neg := decide ((b / 2 ^ (f.width - 1)) % 2 = 1)
  let frac := b % 2 ^ f.m
  let ew := f.width - 1 - f.m
  let e := (b / 2 ^ f.m) % 2 ^ ew
  if f.ieee && decide (e = 2 ^ ew - 1) then
    if frac = 0 then .inf neg else .nan (decide (frac < 2 ^ (f.m - 1)))
  else if !f.ieee && f.hasNan && decide (e = 2 ^ ew - 1) && decide (frac = 2 ^ f.m - 1) then .nan false
  else if e = 0 then .fin neg frac (1 - (f.bias : Int) - f.m)
  else .fin neg (2 ^ f.m + frac) ((e : Int) - f.bias - f.m)

/-- The sign bit in its place. -/
def signBit (f : FloatFmt) (neg : Bool) : Nat := if neg then 2 ^ (f.width - 1) else 0

/-- The canonical NaN (R86, R88); +0 in the format that has none (R95). -/
def canonNan (f : FloatFmt) : Nat :=
  if !f.hasNan then 0
  else if f.ieee then (2 ^ (f.width - 1 - f.m) - 1) * 2 ^ f.m + 2 ^ (f.m - 1)
  else 2 ^ (f.width - 1) - 1

/-- The greatest finite magnitude (R86). -/
def maxFinite (f : FloatFmt) : Nat := (f.emax + f.bias) * 2 ^ f.m + (f.maxM - 2 ^ f.m)

/-- Infinity, or the greatest finite value where the format has none (R92, R95). -/
def infPattern (f : FloatFmt) (neg : Bool) : Nat :=
  signBit f neg + (if f.ieee then (2 ^ (f.width - 1 - f.m) - 1) * 2 ^ f.m else maxFinite f)

/-- The pattern of n * 2^q, where q is the spacing at the value and n at most 2^(m + 1). -/
def packFinite (f : FloatFmt) (neg : Bool) (n : Nat) (q : Int) : Nat :=
  signBit f neg +
    (if n < 2 ^ f.m then n
     else if n = 2 ^ (f.m + 1) then (q + f.m + 1 + f.bias).toNat * 2 ^ f.m
     else (q + f.m + f.bias).toNat * 2 ^ f.m + (n - 2 ^ f.m))

/-- The spacing of the format at a value of this leading-bit exponent (R92). -/
def spacing (f : FloatFmt) (e : Int) : Int := max e (1 - (f.bias : Int)) - f.m

/-- What a result n * 2^q becomes: overflow, clamping and underflow of R92, given the mode and whether bits were lost. -/
def finishRound (f : FloatFmt) (mode : Nat) (neg : Bool) (n : Nat) (q : Int) (inexact : Bool) : FRes :=
  let qmax : Int := (f.emax : Int) - f.m
  if q ≥ qmax ∧ n * 2 ^ (q - qmax).toNat > f.maxM then
    if f.ieee then
      let toInf := match mode with
        | 0 => true
        | 1 => false
        | 2 => !neg
        | _ => neg
      ⟨if toInf then infPattern f neg else signBit f neg + maxFinite f, flOF ||| flNX⟩
    else ⟨signBit f neg + maxFinite f, flSAT ||| flNX⟩
  else
    ⟨packFinite f neg n q,
      flagIf inexact flNX ||| flagIf (inexact && decide (n ≠ 0) && decide (n < 2 ^ f.m)) flUF⟩

/-- Round (-1)^neg * mant * 2^exp to a format under a mode of R90 (R92). -/
def froundMode (f : FloatFmt) (mode : Nat) (neg : Bool) (mant : Nat) (exp : Int) : FRes :=
  if mant = 0 then ⟨signBit f neg, 0⟩
  else
    let q := spacing f (exp + Nat.log2 mant)
    if exp ≥ q then finishRound f mode neg (mant * 2 ^ (exp - q).toNat) q false
    else
      let s := (q - exp).toNat
      let n := mant / 2 ^ s
      let rest := mant % 2 ^ s
      let half := 2 ^ (s - 1)
      let up := match mode with
        | 0 => decide (rest > half) || (decide (rest = half) && decide (n % 2 = 1))
        | 1 => false
        | 2 => !neg && decide (rest ≠ 0)
        | _ => neg && decide (rest ≠ 0)
      finishRound f mode neg (if up then n + 1 else n) q (decide (rest ≠ 0))

/-- Rounding to nearest, ties to even (R91). -/
def fround (f : FloatFmt) (neg : Bool) (mant : Nat) (exp : Int) : FRes := froundMode f 0 neg mant exp

/-- Round an exact value v * 2^exp; an exact zero takes the sign given (R92). -/
def froundInt (f : FloatFmt) (v : Int) (exp : Int) (zeroNeg : Bool) : FRes :=
  if v = 0 then ⟨signBit f zeroNeg, 0⟩ else fround f (decide (v < 0)) v.natAbs exp

/-- The signed significand of a finite value. -/
def smant (neg : Bool) (m : Nat) : Int := if neg then -(m : Int) else (m : Int)

/-- The exact sum of two dyadic numbers, as a numerator over the smaller power of two. -/
def dyadicAdd (a : Int) (ea : Int) (b : Int) (eb : Int) : Int × Int :=
  if ea ≤ eb then (a + b * 2 ^ (eb - ea).toNat, ea) else (a * 2 ^ (ea - eb).toNat + b, eb)

/-- The sum of two values, rounded once (R127): NaN and infinity cases, then the exact sum. -/
def fadd (f : FloatFmt) (x y : FVal) : FRes :=
  let nv := flagIf (x.isSnan || y.isSnan) flNV
  match x, y with
  | .nan _, _ => ⟨canonNan f, nv⟩
  | _, .nan _ => ⟨canonNan f, nv⟩
  | .inf a, .inf b => if a = b then ⟨infPattern f a, 0⟩ else ⟨canonNan f, flNV⟩
  | .inf a, _ => ⟨infPattern f a, 0⟩
  | _, .inf b => ⟨infPattern f b, 0⟩
  | .fin a ma ea, .fin b mb eb =>
    let r := dyadicAdd (smant a ma) ea (smant b mb) eb
    froundInt f r.1 r.2 (a && b && decide (ma = 0) && decide (mb = 0))

/-- The value with its sign inverted. -/
def FVal.negate : FVal → FVal
  | .nan s => .nan s
  | .inf n => .inf (!n)
  | .fin n m e => .fin (!n) m e

/-- The product of two values, exact where both are finite; the flag is NV of 0 × infinity and of signalling NaNs. -/
def fprod (x y : FVal) : FVal × BitVec 8 :=
  let nv := flagIf (x.isSnan || y.isSnan) flNV
  match x, y with
  | .nan _, _ => (.nan false, nv)
  | _, .nan _ => (.nan false, nv)
  | .inf a, .inf b => (.inf (a != b), 0)
  | .inf a, .fin b m _ => if m = 0 then (.nan false, flNV) else (.inf (a != b), 0)
  | .fin a m _, .inf b => if m = 0 then (.nan false, flNV) else (.inf (a != b), 0)
  | .fin a ma ea, .fin b mb eb => (.fin (a != b) (ma * mb) (ea + eb), 0)

/-- A value rounded to a format (R95), with the flags it raises. -/
def fput (f : FloatFmt) (mode : Nat) (x : FVal) : FRes :=
  match x with
  | .nan s => if f.hasNan then ⟨canonNan f, flagIf s flNV⟩ else ⟨0, flNV ||| flSAT⟩
  | .inf n => ⟨infPattern f n, flagIf (!f.ieee) flSAT⟩
  | .fin n m e => froundMode f mode n m e

/-- The product rounded once (R127). -/
def fmul (f : FloatFmt) (x y : FVal) : FRes :=
  let r := fprod x y
  let o := fput f 0 r.1
  ⟨o.bits, o.fl ||| r.2⟩

/-- The fused multiply-add rounded once (R127). -/
def ffma (f : FloatFmt) (x y z : FVal) : FRes :=
  let r := fprod x y
  let o := fadd f r.1 z
  ⟨o.bits, o.fl ||| r.2⟩

/-- Order of two values that are not NaN: less, equal, greater as -1, 0, 1 (−0 equals +0). -/
def fcmp (x y : FVal) : Int :=
  match x, y with
  | .inf a, .inf b => if a = b then 0 else if a then -1 else 1
  | .inf a, _ => if a then -1 else 1
  | _, .inf b => if b then 1 else -1
  | .fin a ma ea, .fin b mb eb =>
    let r := dyadicAdd (smant a ma) ea (-(smant b mb)) eb
    if r.1 < 0 then -1 else if r.1 = 0 then 0 else 1
  | _, _ => 0

/-- IEEE 754-2019 minimum or maximum on patterns (R127): NaN if either is, −0 below +0, NV for signalling operands. -/
def fminmax (f : FloatFmt) (wantMax : Bool) (xb yb : Nat) : FRes :=
  let x := fdecode f xb
  let y := fdecode f yb
  if x.isNan || y.isNan then ⟨canonNan f, flagIf (x.isSnan || y.isSnan) flNV⟩
  else
    let c := fcmp x y
    let xFirst := if c = 0 then x.neg else decide (c < 0)
    ⟨if xFirst != wantMax then xb else yb, 0⟩

/-- The floating compare of a condition code, with the NV flag it raises (R122). -/
def fcond (cc : Nat) (x y : FVal) : Bool × BitVec 8 :=
  let un := x.isNan || y.isNan
  let snan := flagIf (x.isSnan || y.isSnan) flNV
  let c := fcmp x y
  match cc with
  | 0 => (!un && decide (c = 0), snan)
  | 1 => (un || decide (c ≠ 0), snan)
  | 2 => (!un && decide (c < 0), flagIf un flNV)
  | 3 => (!un && decide (c ≤ 0), flagIf un flNV)
  | 4 => (!un && decide (c > 0), flagIf un flNV)
  | 5 => (!un && decide (c ≥ 0), flagIf un flNV)
  | 6 => (un, snan)
  | _ => (!un, snan)

/-- The class mask of VFCLASS (R130). -/
def fclass (f : FloatFmt) (b : Nat) : Nat :=
  match fdecode f b with
  | .nan s => if s then 0x100 else 0x200
  | .inf n => if n then 0x001 else 0x080
  | .fin n m _ =>
    if m = 0 then (if n then 0x008 else 0x010)
    else if m < 2 ^ f.m then (if n then 0x004 else 0x020)
    else (if n then 0x002 else 0x040)

/-- Integer square root, bit by bit from bit i down. -/
def isqrtFrom (n : Nat) : Nat → Nat → Nat
  | 0, acc => acc
  | i + 1, acc =>
    let c := acc + 2 ^ i
    isqrtFrom n i (if c * c ≤ n then c else acc)

/-- The greatest integer whose square is at most n. -/
def isqrt (n : Nat) : Nat := isqrtFrom n (Nat.log2 n / 2 + 1) 0

/-- A quotient or root that is not exact keeps one more bit, so that rounding sees the part lost. -/
def withSticky (q : Nat) (exact : Bool) : Nat := 2 * q + (if exact then 0 else 1)

/-- 1 / (m * 2^e), m > 0, to more bits than any format holds. -/
def recipExact (m : Nat) (e : Int) : Nat × Int :=
  let k := Nat.log2 m + 80
  (withSticky (2 ^ k / m) (decide (2 ^ k % m = 0)), -e - k - 1)

/-- sqrt (m * 2^e), m > 0. -/
def sqrtExact (m : Nat) (e : Int) : Nat × Int :=
  let odd := e % 2 ≠ 0
  let m' := if odd then 2 * m else m
  let e' := if odd then e - 1 else e
  let n := m' * 2 ^ 160
  let r := isqrt n
  (withSticky r (decide (r * r = n)), e' / 2 - 80 - 1)

/-- 1 / sqrt (m * 2^e), m > 0. -/
def rsqrtExact (m : Nat) (e : Int) : Nat × Int :=
  let odd := e % 2 ≠ 0
  let m' := if odd then 2 * m else m
  let e' := if odd then e - 1 else e
  let k := Nat.log2 m' + 100
  let r := isqrt (2 ^ (2 * k) / m')
  (withSticky r (decide (r * r * m' = 2 ^ (2 * k))), -(e' / 2) - k - 1)

/-- floor (ln 2 * 2^256). -/
def ln2Fixed : Nat := 0xB17217F7D1CF79ABC9E3B39803F2F6AF40F343267298B62D8A0D175B8BAAFA2B

/-- floor (pi * 2^512). -/
def piFixed : Nat := 0x3243F6A8885A308D313198A2E03707344A4093822299F31D0082EFA98EC4E6C89452821E638D01377BE5466CF34E90C6CC0AC29B7C97C50DD3F84D5B5B5470917

/-- The exponential series from term i on, with n terms left: t is the term, x the argument, of p fraction bits. -/
def expSeries (p x : Nat) : Nat → Nat → Nat → Nat
  | 0, _, _ => 0
  | n + 1, i, t => t + expSeries p x n (i + 1) (t * x / 2 ^ p / (i + 1))

/-- 2^x for x = (-1)^neg * m * 2^e, x not an integer, as significand and exponent (R128) (DEDUCED, log entry 14). -/
def exp2Approx (neg : Bool) (m : Nat) (e : Int) : Nat × Int :=
  let p := 256
  let v : Int := smant neg m
  let fixed : Int := if e ≥ 0 then v * 2 ^ (min e.toNat 512) * 2 ^ p else v * 2 ^ (p - (-e).toNat)
  let n := fixed / 2 ^ p
  let fr := (fixed % 2 ^ p).toNat
  let nc := max (-600) (min 600 n)
  (withSticky (expSeries p (fr * ln2Fixed / 2 ^ p) 90 0 (2 ^ p)) false, nc - p - 1)

/-- The series z + z^3/3 + z^5/5 + ... with n terms left: t is the odd power, zz the square, k the divisor. -/
def atanhSeries (p zz : Nat) : Nat → Nat → Nat → Nat
  | 0, _, _ => 0
  | n + 1, k, t => t / k + atanhSeries p zz n (k + 2) (t * zz / 2 ^ p)

/-- log2 (m * 2^e) of a number that is not a power of two, as sign, significand and exponent (R128)
(DEDUCED, log entry 14). -/
def log2Approx (m : Nat) (e : Int) : Bool × Nat × Int :=
  let p := 256
  let l := Nat.log2 m
  let y := m * 2 ^ (p - l)
  let z := (y - 2 ^ p) * 2 ^ p / (y + 2 ^ p)
  let ln := 2 * atanhSeries p (z * z / 2 ^ p) 90 1 z
  let v : Int := (e + l) * 2 ^ p + (ln * 2 ^ p / ln2Fixed : Nat)
  (decide (v < 0), withSticky v.natAbs false, -(p : Int) - 1)

/-- The alternating series t - t x^2/((k+1)(k+2)) + ... with n terms left, in p fraction bits. -/
def altSeries (p xx : Nat) : Nat → Nat → Nat → Int
  | 0, _, _ => 0
  | n + 1, k, t => (t : Int) - altSeries p xx n (k + 2) (t * xx / 2 ^ p / ((k + 1) * (k + 2)))

/-- sin or cos of m * 2^e (m > 0) with quadrant offset (0 sine, 1 cosine): the argument is reduced by multiples of
pi / 2 before the series is summed (R128) (DEDUCED, log entry 14). -/
def sinApprox (offset : Nat) (m : Nat) (e : Int) : Bool × Nat × Int :=
  let p := 512
  let x : Nat := if e ≥ 0 then m * 2 ^ e.toNat * 2 ^ p else m * 2 ^ p / 2 ^ (-e).toNat
  let half := piFixed / 2
  let k := x / half
  let r := x - k * piFixed / 2
  let quad := (k + offset) % 4
  let rr := r * r / 2 ^ p
  let v : Int := if quad % 2 = 0 then altSeries p rr 70 1 r else altSeries p rr 70 0 (2 ^ p)
  let v' := if quad ≥ 2 then -v else v
  (decide (v' < 0), withSticky v'.natAbs false, -(p : Int) - 1)

/-- The special functions (R128). -/
inductive SpecialFn where
  | rcp | rsq | sqrt | ex2 | lg2 | sin | cos
deriving DecidableEq, Repr

/-- Whether m * 2^e is an integer. -/
def isIntegral (m : Nat) (e : Int) : Bool := decide (e ≥ 0) || decide (m % 2 ^ (-e).toNat = 0)

/-- A special function of a value, rounded to a format, with the cases of R129. -/
def specialAt (fn : SpecialFn) (f : FloatFmt) (x : FVal) : FRes :=
  let invalid : FRes := ⟨canonNan f, flNV⟩
  match x with
  | .nan s => ⟨canonNan f, flagIf s flNV⟩
  | .inf neg =>
    match fn with
    | .rcp => ⟨signBit f neg, 0⟩
    | .rsq => if neg then invalid else ⟨0, 0⟩
    | .sqrt => if neg then invalid else ⟨infPattern f false, 0⟩
    | .ex2 => if neg then ⟨0, 0⟩ else ⟨infPattern f false, 0⟩
    | .lg2 => if neg then invalid else ⟨infPattern f false, 0⟩
    | .sin => invalid
    | .cos => invalid
  | .fin neg m e =>
    if m = 0 then
      match fn with
      | .rcp => ⟨infPattern f neg, flDZ⟩
      | .rsq => ⟨infPattern f neg, flDZ⟩
      | .sqrt => ⟨signBit f neg, 0⟩
      | .ex2 => fround f false 1 0
      | .lg2 => ⟨infPattern f true, flDZ⟩
      | .sin => ⟨signBit f neg, 0⟩
      | .cos => fround f false 1 0
    else
      match fn with
      | .rcp => let r := recipExact m e; fround f neg r.1 r.2
      | .rsq => if neg then invalid else let r := rsqrtExact m e; fround f false r.1 r.2
      | .sqrt => if neg then invalid else let r := sqrtExact m e; fround f false r.1 r.2
      | .ex2 =>
        if isIntegral m e then
          let v := smant neg (if e ≥ 0 then m * 2 ^ (min e.toNat 512) else m / 2 ^ (-e).toNat)
          fround f false 1 (max (-600) (min 600 v))
        else let r := exp2Approx neg m e; fround f false r.1 r.2
      | .lg2 =>
        if neg then invalid
        else
          let l := Nat.log2 m
          if m = 2 ^ l then froundInt f (e + l) 0 false
          else let r := log2Approx m e; fround f r.1 r.2.1 r.2.2
      | .sin => let r := sinApprox 0 m e; fround f (r.1 != neg) r.2.1 r.2.2
      | .cos => let r := sinApprox 1 m e; fround f r.1 r.2.1 r.2.2

/-- A special function in a lane (R128): f64 and f32 rounded at once; f16 and bf16 are the rounding of the f32 result,
inexact if either rounding is, with underflow judged on the delivered result. -/
def fspecial (fn : SpecialFn) (f : FloatFmt) (b : Nat) : FRes :=
  let x := fdecode f b
  if f.width ≥ 32 then specialAt fn f x
  else
    let r := specialAt fn fmtF32 x
    match fdecode fmtF32 r.bits with
    | .nan _ => ⟨canonNan f, r.fl⟩
    | .inf n => ⟨infPattern f n, r.fl⟩
    | .fin n m e =>
      let o := fround f n m e
      let nx := decide (r.fl &&& flNX ≠ 0) || decide (o.fl &&& flNX ≠ 0)
      let tiny := match fdecode f o.bits with
        | .fin _ m' _ => decide (m' ≠ 0) && decide (m' < 2 ^ f.m)
        | _ => false
      ⟨o.bits, (o.fl &&& flOF) ||| (r.fl &&& (flNV ||| flDZ)) ||| flagIf nx flNX ||| flagIf (nx && tiny) flUF⟩

/-- A floating value to an integer format under a mode (R97). -/
def floatToInt (w : Nat) (signed : Bool) (mode : Nat) (x : FVal) : FRes :=
  let lo : Int := if signed then -(2 ^ (w - 1)) else 0
  let hi : Int := if signed then 2 ^ (w - 1) - 1 else 2 ^ w - 1
  match x with
  | .nan _ => ⟨0, flNV ||| flSAT⟩
  | .inf n => ⟨wrapTo w (if n then lo else hi), flNV ||| flSAT⟩
  | .fin n m e =>
    let neg := n
    if e ≥ 0 then
      if e > 128 ∧ m ≠ 0 then ⟨wrapTo w (if neg then lo else hi), flNV ||| flSAT⟩
      else
        let v := smant neg (m * 2 ^ e.toNat)
        if v < lo then ⟨wrapTo w lo, flNV ||| flSAT⟩
        else if v > hi then ⟨wrapTo w hi, flNV ||| flSAT⟩
        else ⟨wrapTo w v, 0⟩
    else
      let s := (-e).toNat
      let q := m / 2 ^ s
      let rest := m % 2 ^ s
      let half := 2 ^ (s - 1)
      let up := match mode with
        | 0 => decide (rest > half) || (decide (rest = half) && decide (q % 2 = 1))
        | 1 => false
        | 2 => !neg && decide (rest ≠ 0)
        | _ => neg && decide (rest ≠ 0)
      let v := smant neg (if up then q + 1 else q)
      if v < lo then ⟨wrapTo w lo, flNV ||| flSAT⟩
      else if v > hi then ⟨wrapTo w hi, flNV ||| flSAT⟩
      else ⟨wrapTo w v, flagIf (decide (rest ≠ 0)) flNX⟩

/-- An integer value to an integer format: clamped, SAT when it was (R98). -/
def intToInt (w : Nat) (signed : Bool) (v : Int) : FRes :=
  let lo : Int := if signed then -(2 ^ (w - 1)) else 0
  let hi : Int := if signed then 2 ^ (w - 1) - 1 else 2 ^ w - 1
  if v < lo then ⟨wrapTo w lo, flSAT⟩ else if v > hi then ⟨wrapTo w hi, flSAT⟩ else ⟨wrapTo w v, 0⟩

/-- The integer value of a pattern of an integer format (R81). -/
def intValue (w : Nat) (signed : Bool) (b : Nat) : Int := if signed then signedOf w b else ((b % 2 ^ w : Nat) : Int)

/-- One element converted from a format to another under a mode (R95-R98); none where either format is raw (R99). -/
def convertEl (src dst : BitVec 5) (mode : Nat) (b : Nat) : Option FRes :=
  match floatFmt src, intFmt src, floatFmt dst, intFmt dst with
  | some fs, _, some fd, _ => some (fput fd mode (fdecode fs b))
  | some fs, _, none, some (w, sg) => some (floatToInt w sg mode (fdecode fs b))
  | none, some (w, sg), some fd, _ =>
    let v := intValue w sg b
    some (froundMode fd mode (decide (v < 0)) v.natAbs 0)
  | none, some (w, sg), none, some (w', sg') => some (intToInt w' sg' (intValue w sg b))
  | _, _, _, _ => none

/-- 64-bit rotation to the left. -/
def rotl64 (x : Reg) (n : Nat) : Reg := x.rotateLeft n

/-- The next state of the stochastic-rounding generator (R100). -/
def seedStep (x : Reg) : Reg :=
  let a := x ^^^ (x <<< 13)
  let b := a ^^^ (a >>> 7)
  b ^^^ (b <<< 17)

/-- Stochastic rounding of a value with the generator state x and rotation r (R101). -/
def stochRound (f : FloatFmt) (x : Reg) (r : Nat) (v : FVal) : FRes :=
  match v with
  | .nan _ => fput f 0 v
  | .inf _ => fput f 0 v
  | .fin neg m e =>
    if m = 0 then ⟨signBit f neg, 0⟩
    else
      let q := spacing f (e + Nat.log2 m)
      if e ≥ q then finishRound f 0 neg (m * 2 ^ (e - q).toNat) q false
      else
        let k := (q - e).toNat
        let t := m / 2 ^ k
        let dd := m % 2 ^ k
        let k' := min k 32
        let d := dd / 2 ^ (k - k')
        let u := (rotl64 x (r % 64)).toNat % 2 ^ k'
        finishRound f 0 neg (if d + u ≥ 2 ^ k' then t + 1 else t) q (decide (dd ≠ 0))

end Sys2Proof.Machine
end

