-- ==== Sys2Proof/Machine/Operands.lean ====
section
/-! DEFINITION. A warp's registers and masks, and every operand form of the lane set: direct registers, v[xk], vz, vl,
streams, s-registers and immediates, with the tag rules of R110-R112 and the write rules of R31 and R114. -/

namespace Sys2Proof.Machine

/-- The value of a vector register that no instruction has written: zero with tag raw (R32). -/
def VReg.zero : VReg := ⟨0, []⟩

/-- An unset stream (R200). -/
def Stream.unset : Stream := ⟨0, 0, 0, 0, 0, []⟩

/-- Uniform register d (R20). -/
def Warp.sget (w : Warp) (d : Nat) : Reg := Table.get w.r.s 0 d

/-- Write uniform register d. -/
def Warp.sset (w : Warp) (d : Nat) (x : Reg) : Warp := { w with r := { w.r with s := Table.set w.r.s d x } }

/-- Vector register n (R15). -/
def Warp.vget (w : Warp) (n : Nat) : VReg := Table.get w.r.v VReg.zero n

/-- Write vector register n. -/
def Warp.vset (w : Warp) (n : Nat) (x : VReg) : Warp := { w with r := { w.r with v := Table.set w.r.v n x } }

/-- Predicate register k; p0 reads as all ones (R21). -/
def Warp.pget (w : Warp) (k : Nat) : Mask := if k = 0 then BitVec.allOnes 32 else Table.get w.r.p 0 k

/-- Write predicate register k. -/
def Warp.pset (w : Warp) (k : Nat) (m : Mask) : Warp := { w with r := { w.r with p := Table.set w.r.p k m } }

/-- Index register k of lane l (R19). -/
def Warp.xget (w : Warp) (k l : Nat) : Nat := ((Table.get w.r.x [] k).getD l 0).toNat

/-- Write index register k in the lanes of a mask. -/
def Warp.xset (w : Warp) (k : Nat) (m : Mask) (f : Nat → Nat) : Warp :=
  let new := laneNums.map (fun l => if m.getLsbD l then BitVec.ofNat 8 (f l) else BitVec.ofNat 8 (w.xget k l))
  { w with r := { w.r with x := Table.set w.r.x k new } }

/-- Completion flag k (R22). -/
def Warp.flag (w : Warp) (k : Nat) : Nat := Table.get w.r.flags 0 k

/-- Stream register n (R24). -/
def Warp.stream (w : Warp) (n : Nat) : Stream := Table.get w.r.st Stream.unset n

/-- Write stream register n. -/
def Warp.setStream (w : Warp) (n : Nat) (x : Stream) : Warp := { w with r := { w.r with st := Table.set w.r.st n x } }

/-- Discard every prefetched vector of the warp (R27, R198). -/
def Warp.dropPrefetch (w : Warp) : Warp :=
  { w with r := { w.r with st := w.r.st.map (fun c => (c.1, { c.2 with pre := [] })) } }

/-- Queue register k: the pipe it is bound to (R28). -/
def Warp.queue (w : Warp) (k : Nat) : Option Nat := Table.get w.r.q none k

/-- Whether the warp is parked for a fault of its matrix instruction (R230). -/
def Warp.matParked (w : Warp) : Bool :=
  match w.mat with
  | some m => m.parked
  | none => false

/-- Lanes that exist: the base mask less those exited and those switched off (R35, R426). -/
def Warp.live (w : Warp) : Mask := w.c.base &&& ~~~w.c.exited &&& ~~~w.c.fmask

/-- The active mask (R35). -/
def Warp.active (w : Warp) : Mask :=
  match w.c.stack with
  | [] => w.live
  | e :: _ => e.mask &&& ~~~w.c.exited &&& ~~~w.c.fmask

/-- The lanes of a stack entry that still live (R166). -/
def Warp.liveIn (w : Warp) (e : StackEntry) : Mask := e.mask &&& ~~~w.c.exited &&& ~~~w.c.fmask

/-- Raise flags in FSTAT (R94). -/
def Warp.raise (w : Warp) (f : BitVec 8) : Warp := { w with sp := { w.sp with fstat := w.sp.fstat ||| f } }

/-- Switch lanes off: they join FMASK (R36). -/
def Warp.switchOff (w : Warp) (m : Mask) : Warp := { w with c := { w.c with fmask := w.c.fmask ||| m } }

/-- What a 7-bit vector operand code names (R63). -/
inductive Opd where
  | reg (n : Nat)
  | stream (n : Nat)
  | idx (k : Nat)
  | vz
  | vl
deriving DecidableEq, Repr

/-- The operand of a code; codes 126 and 127 are refused by Legal before this is asked. -/
def opdOf (c : BitVec 7) : Opd :=
  let n := c.toNat
  if n < 112 then .reg n
  else if n < 120 then .stream (n - 112)
  else if n < 124 then .idx (n - 120)
  else if n = 124 then .vz
  else .vl

/-- A direct register must lie below the allocation (R16). -/
def Opd.inAlloc (w : Warp) : Opd → Bool
  | .reg n => decide (n < w.r.alloc)
  | _ => true

/-- The register that lane l names through v[xk]; none outside the window (R19). -/
def Warp.windowReg (w : Warp) (k l : Nat) : Option Nat :=
  let x := w.xget k l
  if x < w.r.winLen then some (w.r.winBase + x) else none

/-- The lanes of a mask whose index lies outside the window (R19). -/
def Opd.offLanes (w : Warp) (m : Mask) : Opd → Mask
  | .idx k => maskOf (fun l => m.getLsbD l && (w.windowReg k l).isNone)
  | _ => 0

/-- The registers an operand names, for the fills of R44 and R114. -/
def Opd.names (w : Warp) (m : Mask) : Opd → List Nat
  | .reg n => [n]
  | .idx k => (lanesIn m).filterMap (fun l => w.windowReg k l)
  | _ => []

/-- The element values that a stream operand delivers: tag and the value of each lane. -/
structure StreamVals where
  n : Nat
  tag : BitVec 5
  vals : List Reg
deriving DecidableEq, Repr

/-- The value of an operand in lane l, given the vectors consumed from streams (R26). -/
def Opd.val (w : Warp) (sv : List StreamVals) (o : Opd) (l : Nat) : Reg :=
  match o with
  | .reg n => laneOf (w.vget n).lanes l
  | .idx k => match w.windowReg k l with
    | some n => laneOf (w.vget n).lanes l
    | none => 0
  | .stream n => match sv.find? (fun v => v.n == n) with
    | some v => laneOf v.vals l
    | none => 0
  | .vz => 0
  | .vl => BitVec.ofNat 64 l

/-- What the tags of an operand say (R111): nothing (vz), one tag, lanes that disagree, or no lane to say. -/
inductive TagOf where
  | free
  | one (t : BitVec 5)
  | unlike
  | noLane
deriving DecidableEq, Repr

/-- The tag of an operand under an execution mask (R18, R111). -/
def Opd.tag (w : Warp) (m : Mask) : Opd → TagOf
  | .reg n => .one (w.vget n).tag
  | .idx k =>
    match ((lanesIn m).filterMap (fun l => w.windowReg k l)).map (fun n => (w.vget n).tag) with
    | [] => .noLane
    | t :: r => if r.all (fun t' => t' == t) then .one t else .unlike
  | .stream n => .one (BitVec.ofNat 5 (fieldOf (w.stream n).w0 48 5))
  | .vz => .free
  | .vl => .one 0x06#5

/-- The common tag of typed operands (R111). -/
inductive CommonTag where
  | tag (t : BitVec 5)
  | fault
  | undefined
deriving DecidableEq, Repr

/-- Join the tags of the typed operands: unlike tags fault; vz follows the others; with none to follow the tag is raw,
or undefined when the execution mask is empty (R111; DEDUCED, log entry 7). -/
def commonTag (empty : Bool) (ts : List TagOf) : CommonTag :=
  if ts.any (fun t => t == .unlike) then .fault
  else
    match ts.filterMap (fun t => match t with | .one t => some t | _ => none) with
    | t :: r => if r.all (fun t' => t' == t) then .tag t else .fault
    | [] => if empty then .undefined else .tag 0

/-- Tag classes (R110). -/
inductive TagClass where
  | I | B | A | F | FA
  /-- A list of codes that an instruction's own rule gives. -/
  | only (l : List (BitVec 5))
deriving DecidableEq, Repr

/-- Whether a tag is of a class (R110). -/
def TagClass.has (c : TagClass) (t : BitVec 5) : Bool :=
  let n := t.toNat
  let int := decide (1 ≤ n) && decide (n ≤ 0x0A)
  match c with
  | .I => int
  | .B => int || decide (n = 0)
  | .A => fmtOk t
  | .F => decide (0x10 ≤ n) && decide (n ≤ 0x13)
  | .FA => decide (0x10 ≤ n) && decide (n ≤ 0x16)
  | .only l => l.contains t

/-- Write a destination in the lanes of m: a direct register takes the tag whatever the mask; through v[xk] each
register that a lane of m names takes it (R31). The lanes of keep hold their bits though they count as named
(R115, R139). -/
def writeDst (w : Warp) (o : Opd) (tag : BitVec 5) (m : Mask) (keep : Mask) (new : Nat → Reg) : Warp :=
  match o with
  | .reg n => w.vset n ⟨tag, mergeLanes (m &&& ~~~keep) (w.vget n).lanes new⟩
  | .idx k =>
    ((lanesIn m).filterMap (fun l => w.windowReg k l)).foldl
      (fun w' n =>
        let here := maskOf (fun l => m.getLsbD l && !keep.getLsbD l && (w.windowReg k l == some n))
        w'.vset n ⟨tag, mergeLanes here (w'.vget n).lanes new⟩) w
  | _ => w

/-- The value V of an L-RRS operand: an s-register, or the six-bit immediate sign-extended (R112). -/
def rrsValue (w : Warp) (b : BitVec 7) : Reg :=
  if b.toNat < 64 then w.sget b.toNat else (b.extractLsb' 0 6).signExtend 64

/-- Whether the s-registers of a warp are read by an L-RRS operand. -/
def rrsReg (b : BitVec 7) : List Nat := if b.toNat < 64 then [b.toNat] else []

end Sys2Proof.Machine
end

