-- ==== Sys2Proof/Machine/LaneFns.lean ====
section
/-! DEFINITION. What each lane operation computes in one lane, as a function of the element type and the operands'
64 bits (04_lane_arithmetic.md), and what the cross-lane operations compute from all lanes (05_cross_lane.md). -/

namespace Sys2Proof.Machine

/-- The result of a lane: its 64 bits and the flags it raises. -/
abbrev LaneRes := Reg × BitVec 8

/-- The value of a pattern of an integer tag; the unsigned pattern for other tags (R81, R118). -/
def elVal (t : BitVec 5) (b : Nat) : Int :=
  match intFmt t with
  | some (w, sg) => intValue w sg b
  | none => (b : Int)

/-- Whether a tag is an s-format. -/
def isSigned (t : BitVec 5) : Bool :=
  match intFmt t with
  | some (_, sg) => sg
  | none => false

/-- Limit a value to the range of an integer tag (R118). -/
def clampTo (t : BitVec 5) (v : Int) : Int :=
  let w := fmtWidth t
  let lo : Int := if isSigned t then -(2 ^ (w - 1)) else 0
  let hi : Int := if isSigned t then 2 ^ (w - 1) - 1 else 2 ^ w - 1
  max lo (min hi v)

/-- Apply an integer effect to every sub-element (R118). -/
def intLane (t : BitVec 5) (f : Int → Int → Int → Int) (a b z : Reg) : LaneRes :=
  let w := fmtWidth t
  (laneFrom w (fun j => wrapTo w (f (elVal t (subEl w a j)) (elVal t (subEl w b j)) (elVal t (subEl w z j)))), 0)

/-- Apply a function of bit patterns to every sub-element. -/
def bitLane (t : BitVec 5) (f : Nat → Nat → Nat → Nat → Nat) (a b z : Reg) : LaneRes :=
  let w := fmtWidth t
  (laneFrom w (fun j => f w (subEl w a j) (subEl w b j) (subEl w z j)), 0)

/-- Apply a floating operation to every sub-element and join the flags (R94, R127). -/
def floatLane (t : BitVec 5) (f : FloatFmt → Nat → Nat → Nat → FRes) (a b z : Reg) : LaneRes :=
  match floatFmt t with
  | none => (a, 0)
  | some ff =>
    let w := ff.width
    let rs := (List.range (64 / w)).map (fun j => f ff (subEl w a j) (subEl w b j) (subEl w z j))
    (BitVec.ofNat 64 (packEls w (rs.map (·.bits))), rs.foldl (fun a r => a ||| r.fl) 0)

/-- Shifts of a w-bit pattern by an unsigned amount (R119). -/
def shlBits (w x n : Nat) : Nat := if n ≥ w then 0 else (x * 2 ^ n) % 2 ^ w
def shrBits (w x n : Nat) : Nat := if n ≥ w then 0 else x / 2 ^ n
def sarBits (w x n : Nat) : Nat := wrapTo w (signedOf w x / 2 ^ (min n w))
def rolBits (w x n : Nat) : Nat :=
  let k := n % w
  (x * 2 ^ k) % 2 ^ w + x / 2 ^ (w - k)

/-- Leading zeros of a w-bit pattern (R118). -/
def clzBits (w x : Nat) : Nat := if x = 0 then w else w - 1 - Nat.log2 x

/-- One bits among the low n bits of a number (R118). -/
def popBits : Nat → Nat → Nat
  | 0, _ => 0
  | n + 1, x => x % 2 + popBits n (x / 2)

/-- The low n bits of a number reversed (R118). -/
def revBits : Nat → Nat → Nat
  | 0, _ => 0
  | n + 1, x => (x % 2) * 2 ^ n + revBits n (x / 2)

/-- Bitwise operations on patterns below 2^w. -/
def andBits (x y : Nat) : Nat := x &&& y
def orBits (x y : Nat) : Nat := x ||| y
def xorBits (x y : Nat) : Nat := x ^^^ y
def notBits (w x : Nat) : Nat := 2 ^ w - 1 - x % 2 ^ w

/-- The length of the bit field of VBFX and VBFI at position p, k bits, in a w-bit element; 0 when it is empty
(R120). -/
def bfLen (w p k : Nat) : Nat := if p ≥ w then 0 else min (p + k) w - p

/-- VBFX of a pattern, sign-extended for s-formats (R120). -/
def bfExtract (sg : Bool) (w x p k : Nat) : Nat :=
  let n := bfLen w p k
  if n = 0 then 0
  else
    let f := (x / 2 ^ p) % 2 ^ n
    if sg then wrapTo w (signedOf n f) else f

/-- VBFI: the field of z replaced with the low bits of x (R120). -/
def bfInsert (w x z p k : Nat) : Nat :=
  let n := bfLen w p k
  z - ((z / 2 ^ p) % 2 ^ n) * 2 ^ p + (x % 2 ^ n) * 2 ^ p

/-- The integer compare of a condition code (R122). -/
def intCond (cc : Nat) (x y : Int) : Bool :=
  match cc with
  | 0 => decide (x = y)
  | 1 => decide (x ≠ y)
  | 2 => decide (x < y)
  | 3 => decide (x ≤ y)
  | 4 => decide (x > y)
  | _ => decide (x ≥ y)

/-- Join the conditions of the sub-elements: OR with .ANY, AND otherwise (R121). -/
def joinConds (any : Bool) (cs : List Bool) : Bool := if any then cs.any id else cs.all id

/-- VCMP in one lane (R121). -/
def cmpLane (t : BitVec 5) (cc : Nat) (any : Bool) (a b : Reg) : Bool :=
  let w := fmtWidth t
  joinConds any ((List.range (64 / w)).map (fun j => intCond cc (elVal t (subEl w a j)) (elVal t (subEl w b j))))

/-- VFCMP in one lane, with the NV it raises (R121, R122). -/
def fcmpLane (t : BitVec 5) (cc : Nat) (any : Bool) (a b : Reg) : Bool × BitVec 8 :=
  match floatFmt t with
  | none => (false, 0)
  | some f =>
    let w := f.width
    let rs := (List.range (64 / w)).map (fun j => fcond cc (fdecode f (subEl w a j)) (fdecode f (subEl w b j)))
    (joinConds any (rs.map (·.1)), rs.foldl (fun a r => a ||| r.2) 0)

/-- VCVT in one lane: the low elements converted, zeros where the result has more (R131). -/
def cvtLane (src dst : BitVec 5) (mode : Nat) (a : Reg) : LaneRes :=
  let ws := fmtWidth src
  let wd := fmtWidth dst
  let n := min (64 / ws) (64 / wd)
  let rs := (List.range n).map (fun j => (convertEl src dst mode (subEl ws a j)).getD ⟨0, 0⟩)
  (BitVec.ofNat 64 (packEls wd (rs.map (·.bits))), rs.foldl (fun a r => a ||| r.fl) 0)

/-- VCVTS in lane l with generator state x (R101, R132). -/
def cvtsLane (src dst : BitVec 5) (x : Reg) (l : Nat) (a : Reg) : LaneRes :=
  match floatFmt src, floatFmt dst with
  | some fs, some fd =>
    let n := min (64 / fs.width) (64 / fd.width)
    let rs := (List.range n).map (fun j => stochRound fd x (2 * l + j) (fdecode fs (subEl fs.width a j)))
    (BitVec.ofNat 64 (packEls fd.width (rs.map (·.bits))), rs.foldl (fun a r => a ||| r.fl) 0)
  | _, _ => (0, 0)

/-- The pairs of formats that VCVTS accepts (R132). -/
def cvtsOk (src dst : BitVec 5) : Bool :=
  (decide (src = 0x11#5) || decide (src = 0x10#5))
    && (decide (0x12 ≤ dst.toNat) && decide (dst.toNat ≤ 0x16) || decide (dst = 0x11#5) && decide (src = 0x10#5))

/-- VFCLASS in one lane (R130). -/
def classLane (t : BitVec 5) (a : Reg) : Reg :=
  match floatFmt t with
  | none => 0
  | some f => BitVec.ofNat 64 (packEls 16 ((List.range (min (64 / f.width) 4)).map (fun j => fclass f (subEl f.width a j))))

/-- VMOVS: the low w bits of V in every sub-element (R125). -/
def splat (t : BitVec 5) (v : Reg) : Reg :=
  let w := fmtWidth t
  laneFrom w (fun _ => v.toNat % 2 ^ w)

/-- VUNPK and VPACK of part h of g bits (R133). -/
def unpkLane (g h : Nat) (a : Reg) : Reg := BitVec.ofNat 64 (a.toNat / 2 ^ (h * g))
def packLane (g h : Nat) (a z : Reg) : Reg := setField z (h * g) g (a.toNat % 2 ^ g)

/-- The operations of VRED, VSCAN and VCAV (R144). -/
inductive RedOp where
  | add | mul | min | max | and | or | xor
deriving DecidableEq, Repr

/-- The operation of a code; code 7 is refused by Legal before this is asked (R144). -/
def redOpOf (o : BitVec 3) : RedOp :=
  match o.toNat with
  | 0 => .add
  | 1 => .mul
  | 2 => .min
  | 3 => .max
  | 4 => .and
  | 5 => .or
  | _ => .xor

/-- Whether VRED and VSCAN accept a tag for an operation (R144). -/
def redClassOk (o : RedOp) (t : BitVec 5) : Bool :=
  match o with
  | .and => TagClass.B.has t
  | .or => TagClass.B.has t
  | .xor => TagClass.B.has t
  | _ => TagClass.I.has t || TagClass.F.has t

/-- Whether VCAV accepts a tag for an operation (R144). -/
def cavClassOk (o : RedOp) (t : BitVec 5) : Bool :=
  match o with
  | .add => decide (t = 0x11#5) || decide (t = 0x13#5) || decide (t = 0x05#5) || decide (t = 0x07#5)
  | .mul => decide (t = 0x11#5)
  | _ => redClassOk o t

/-- One step of a reduction on patterns of a tag (R144). -/
def redStep (o : RedOp) (t : BitVec 5) (x y : Nat) : FRes :=
  match floatFmt t with
  | some f =>
    match o with
    | .add => fadd f (fdecode f x) (fdecode f y)
    | .mul => fmul f (fdecode f x) (fdecode f y)
    | .min => fminmax f false x y
    | _ => fminmax f true x y
  | none =>
    let w := fmtWidth t
    match o with
    | .add => ⟨wrapTo w (elVal t x + elVal t y), 0⟩
    | .mul => ⟨wrapTo w (elVal t x * elVal t y), 0⟩
    | .min => ⟨wrapTo w (min (elVal t x) (elVal t y)), 0⟩
    | .max => ⟨wrapTo w (max (elVal t x) (elVal t y)), 0⟩
    | .and => ⟨andBits x y, 0⟩
    | .or => ⟨orBits x y, 0⟩
    | .xor => ⟨xorBits x y, 0⟩

/-- The identity of an operation on a tag, as a pattern (R144). -/
def redIdentity (o : RedOp) (t : BitVec 5) : Nat :=
  match floatFmt t with
  | some f =>
    match o with
    | .add => signBit f true
    | .mul => (fround f false 1 0).bits
    | .min => infPattern f false
    | _ => infPattern f true
  | none =>
    let w := fmtWidth t
    match o with
    | .add => 0
    | .mul => 1
    | .min => wrapTo w (clampTo t (2 ^ 64))
    | .max => wrapTo w (clampTo t (-(2 ^ 64)))
    | .and => 2 ^ w - 1
    | .or => 0
    | .xor => 0

/-- One pass of the pairwise tree: neighbours combined, an odd last one passed up (R104). -/
def treePass (f : Nat → Nat → FRes) : List Nat → List Nat × BitVec 8
  | x :: y :: r =>
    let o := f x y
    let q := treePass f r
    (o.bits :: q.1, o.fl ||| q.2)
  | l => (l, 0)

/-- The pairwise tree of R104, with fuel for the passes. -/
def treeFrom (f : Nat → Nat → FRes) (ident : Nat) : Nat → List Nat → FRes
  | 0, l => ⟨l.headD ident, 0⟩
  | n + 1, l =>
    match l with
    | [] => ⟨ident, 0⟩
    | [x] => ⟨x, 0⟩
    | _ =>
      let p := treePass f l
      let r := treeFrom f ident n p.1
      ⟨r.bits, p.2 ||| r.fl⟩

/-- tree(c) of at most 64 operands (R104). -/
def tree (o : RedOp) (t : BitVec 5) (c : List Nat) : FRes := treeFrom (redStep o t) (redIdentity o t) 7 c

/-- Combine left to right from a start. -/
def foldLeftRes (f : Nat → Nat → FRes) (x : Nat) (l : List Nat) : FRes :=
  l.foldl (fun (a : FRes) y => let r := f a.bits y; FRes.mk r.bits (a.fl ||| r.fl)) (FRes.mk x 0)

/-- The cavity result for place i of the operands c (R147): P from the left, S from the right, then P with S. -/
def cavity (o : RedOp) (t : BitVec 5) (c : List Nat) (i : Nat) : FRes :=
  let id := redIdentity o t
  let f := redStep o t
  let n := c.length
  if n ≤ 1 then ⟨id, 0⟩
  else
    let p : FRes := if i ≥ 1 then foldLeftRes f (c.getD 0 0) ((c.take i).drop 1) else ⟨id, 0⟩
    let right := (c.drop (i + 1)).reverse
    let s : FRes := match right with
      | [] => ⟨id, 0⟩
      | x :: r => foldLeftRes (fun a y => f y a) x r
    let q := f p.bits s.bits
    ⟨q.bits, p.fl ||| s.fl ||| q.fl⟩

/-- The first lane of the sub-group of lane l (R136). -/
def groupBase (w l : Nat) : Nat := l - l % w

/-- The lanes of exec in the sub-group of lane l, ascending (R145). -/
def groupLanes (w : Nat) (exec : Mask) (l : Nat) : List Nat :=
  (lanesIn exec).filter (fun m => groupBase w m == groupBase w l)

/-- What a lane of VSHUF, VSHUFI, VLSH and VBCST receives from: nothing (an edge), a bad source, or a lane (R138,
R141). -/
inductive LaneSrc where
  | edge
  | bad
  | from_ (l : Nat)
deriving DecidableEq, Repr

/-- A source index within the sub-group, good if it is below W and its lane is in exec (R138). -/
def groupSrc (w : Nat) (exec : Mask) (l idx : Nat) : LaneSrc :=
  if idx < w ∧ exec.getLsbD (groupBase w l + idx) then .from_ (groupBase w l + idx) else .bad

/-- The source of a lane of VLSH (R141). -/
def shiftSrc (w : Nat) (exec : Mask) (down : Bool) (n l : Nat) : LaneSrc :=
  let b := groupBase w l
  if down then
    if l + n ≥ b + w then .edge else if exec.getLsbD (l + n) then .from_ (l + n) else .bad
  else if l < b + n then .edge
  else if exec.getLsbD (l - n) then .from_ (l - n) else .bad

end Sys2Proof.Machine
end

