-- ==== Sys2Proof/Machine/UniformFns.lean ====
section
/-! DEFINITION. What uniform arithmetic computes on 64-bit patterns (R156-R159), and the operations of atomics on a
location (R74, R190). -/

namespace Sys2Proof.Machine

/-- Bits [127:64] of the signed product (R156). -/
def mulHighS (a b : Reg) : Reg := regOf (a.toInt * b.toInt / 2 ^ 64)

/-- Bits [127:64] of the unsigned product (R156). -/
def mulHighU (a b : Reg) : Reg := BitVec.ofNat 64 (a.toNat * b.toNat / 2 ^ 64)

/-- Quotients and remainders, rounded toward zero, with the edge cases of R157. -/
def divS (a b : Reg) : Reg := if b = 0 then BitVec.allOnes 64 else regOf (a.toInt.tdiv b.toInt)
def divU (a b : Reg) : Reg := if b = 0 then BitVec.allOnes 64 else BitVec.ofNat 64 (a.toNat / b.toNat)
def remS (a b : Reg) : Reg := if b = 0 then a else regOf (a.toInt.tmod b.toInt)
def remU (a b : Reg) : Reg := if b = 0 then a else BitVec.ofNat 64 (a.toNat % b.toNat)

/-- Shifts by an unsigned amount; an amount of 64 or more gives 0, or copies of the sign (R156). -/
def shl64 (a : Reg) (n : Nat) : Reg := BitVec.ofNat 64 (shlBits 64 a.toNat n)
def shr64 (a : Reg) (n : Nat) : Reg := BitVec.ofNat 64 (shrBits 64 a.toNat n)
def sar64 (a : Reg) (n : Nat) : Reg := BitVec.ofNat 64 (sarBits 64 a.toNat n)

/-- Minimum and maximum, signed and unsigned (R156). -/
def minS (a b : Reg) : Reg := if a.toInt ≤ b.toInt then a else b
def maxS (a b : Reg) : Reg := if a.toInt ≤ b.toInt then b else a
def minU (a b : Reg) : Reg := if a.toNat ≤ b.toNat then a else b
def maxU (a b : Reg) : Reg := if a.toNat ≤ b.toNat then b else a

/-- The compare of an SCMP condition, funcs 0x20 to 0x29 (R72, R156). -/
def scmpCond (c : BitVec 4) (a b : Reg) : Bool :=
  match c.toNat with
  | 0 => decide (a = b)
  | 1 => decide (a ≠ b)
  | 2 => decide (a.toInt < b.toInt)
  | 3 => decide (a.toInt ≤ b.toInt)
  | 4 => decide (a.toInt > b.toInt)
  | 5 => decide (a.toInt ≥ b.toInt)
  | 6 => decide (a.toNat < b.toNat)
  | 7 => decide (a.toNat ≤ b.toNat)
  | 8 => decide (a.toNat > b.toNat)
  | _ => decide (a.toNat ≥ b.toNat)

/-- A 12-bit immediate read signed, or unsigned for shifts (R158). -/
def immS (i : BitVec 12) : Reg := i.signExtend 64
def immU (i : BitVec 12) : Nat := i.toNat

/-- A floating sum without flags, for atomics (R190). -/
def faddBits (f : FloatFmt) (x y : Nat) : Nat := (fadd f (fdecode f x) (fdecode f y)).bits

/-- The new value of a location of w bits under the atomic operation o of R74 (R190). -/
def atomNew (o : BitVec 4) (w : Nat) (old v : Nat) : Nat :=
  match o.toNat with
  | 0x0 => (old + v) % 2 ^ w
  | 0x1 => if signedOf w old ≤ signedOf w v then old else v
  | 0x2 => if signedOf w old ≤ signedOf w v then v else old
  | 0x3 => if old ≤ v then old else v
  | 0x4 => if old ≤ v then v else old
  | 0x5 => andBits old v
  | 0x6 => orBits old v
  | 0x7 => xorBits old v
  | 0x8 => v
  | 0x9 => if old ≥ v then 0 else old + 1
  | 0xA => faddBits fmtF32 old v
  | _ => faddBits fmtBf16 old v

/-- The bytes that SATOM and GATOM work on under an operation (R194, R205). -/
def atomSize (o : BitVec 4) : Nat :=
  match o.toNat with
  | 0xA => 4
  | 0xB => 2
  | _ => 8

end Sys2Proof.Machine
end

