-- ==== Sys2Proof/Machine/Hierarchy.lean ====
section
/-! DEFINITION. Reading and writing the parts of the state by number, and the memory hierarchy beneath every access: merge
points and channels (R288-R293), line buffers (R284-R286), range entries, page tables and their caches (R294-R300). -/

namespace Sys2Proof.Machine

/-- The parts of the state by number. -/
def State.tile (s : State) (t : Nat) : Tile := Table.get s.tiles Tile.reset t
def State.setTile (s : State) (t : Nat) (x : Tile) : State := { s with tiles := Table.set s.tiles t x }
def State.cluster (s : State) (c : Nat) : Cluster := Table.get s.clusters Cluster.reset c
def State.setCluster (s : State) (c : Nat) (x : Cluster) : State := { s with clusters := Table.set s.clusters c x }
def State.pair (s : State) (p : Nat) : Pair := Table.get s.pairs Pair.reset p
def State.setPair (s : State) (p : Nat) (x : Pair) : State := { s with pairs := Table.set s.pairs p x }
def State.die (s : State) (d : Nat) : Die := Table.get s.dies Die.reset d
def State.setDie (s : State) (d : Nat) (x : Die) : State := { s with dies := Table.set s.dies d x }
def State.slot (s : State) (a : Nat) : Slot := Table.get s.slots Slot.reset a
def State.setSlot (s : State) (a : Nat) (x : Slot) : State := { s with slots := Table.set s.slots a x }
def State.wg (s : State) (u : Nat) : Option Workgroup := Table.find s.wgs u
def State.setWg (s : State) (u : Nat) (x : Workgroup) : State := { s with wgs := Table.set s.wgs u x }

/-- The bin of a value (R507). -/
def Monitor.bin (m : Monitor) (v : Nat) : Nat := if v < m.base then 0 else min ((v - m.base) / 2 ^ m.shift) 15

/-- Count a value n times (R507); counts saturate. -/
def Monitor.count (m : Monitor) (v n : Nat) : Monitor :=
  if n = 0 then m
  else
    { m with
      min_ := min m.min_ v
      max_ := max m.max_ v
      cnt := min (m.cnt + n) (2 ^ 64 - 1)
      sum := min (m.sum + v * n) (2 ^ 64 - 1)
      bins := Table.set m.bins (m.bin v) (min (Table.get m.bins 0 (m.bin v) + n) (2 ^ 32 - 1)) }

/-- An event of a cluster is counted by every monitor whose SRC names it (R506). -/
def State.countEvent (s : State) (c src v n : Nat) : State :=
  let k := s.cluster c
  if k.mons.any (fun m => m.2.src == src) then
    s.setCluster c { k with mons := k.mons.map (fun m => (m.1, if m.2.src = src then m.2.count v n else m.2)) }
  else s

/-- A warp of a workgroup, and of the machine. -/
def Workgroup.warp (g : Workgroup) (k : Nat) : Option Warp := Table.find g.warps k
def Workgroup.setWarp (g : Workgroup) (k : Nat) (w : Warp) : Workgroup := { g with warps := Table.set g.warps k w }
def State.warp (s : State) (r : WRef) : Option Warp := (s.wg r.wg).bind (fun g => g.warp r.wp)
def State.setWarp (s : State) (r : WRef) (w : Warp) : State :=
  match s.wg r.wg with
  | some g => s.setWg r.wg (g.setWarp r.wp w)
  | none => s

/-- The warp slot of its tile that a warp holds (R373). -/
def Workgroup.slotOf (g : Workgroup) (wp : Nat) : Nat := g.wslots.getD wp wp

/-- Whether a workgroup stands on a tile: it has been placed and has not left (R391). -/
def Workgroup.onTile (g : Workgroup) : Bool := g.status != .saved && g.status != .ended

/-- The warp slot of its tile that a warp of the machine holds. -/
def State.warpSlot (s : State) (r : WRef) : Nat := ((s.wg r.wg).map (·.slotOf r.wp)).getD 0

/-- Change a warp, if it exists. -/
def State.updWarp (s : State) (r : WRef) (f : Warp → Warp) : State :=
  match s.warp r with
  | some w => s.setWarp r (f w)
  | none => s

/-- Change a workgroup, if it exists. -/
def State.updWg (s : State) (u : Nat) (f : Workgroup → Workgroup) : State :=
  match s.wg u with
  | some g => s.setWg u (f g)
  | none => s

/-- Cluster, die and pair of a tile or cluster (R269). -/
def clusterOf (tile : Nat) : Nat := tile / 8
def dieOf (tile : Nat) : Nat := tile / 128
def dieOfCluster (c : Nat) : Nat := c / 16
def pairOf (c : Nat) : Nat := c / 2

/-- Whether a tile's warps stand still for a rotation swap (R413). -/
def State.swapping (s : State) (t : Nat) : Bool :=
  match (s.cluster (clusterOf t)).swap with
  | some x => (x.hot == t || x.cool == t) && x.phase != .done
  | none => false

/-- A fresh free value (Config.freeValue). -/
def State.draw (s : State) : Reg × State := (Config.freeValue s.free, { s with free := s.free + 1 })

/-- The number of a queue among those of the device (R375). -/
def queueKey (slot queue : Nat) : Nat := 64 * slot + queue

/-- The priority of a warp (R398, R400): its queue's, or, where the launch declares the producer, the greatest of those of
the warps that wait in TBWAIT on a barrier of the workgroup. -/
def warpPrio (g : Workgroup) (wp : Nat) (w : Warp) : Nat :=
  if g.tbp && wp == g.producer then
    g.warps.foldl (fun a x => match x.2.c.wait with
      | .tb _ _ _ => max a x.2.sp.prio
      | _ => a) w.sp.prio
  else w.sp.prio

/-- The queue and the priority of the agent that acts: the issuing warp's, or those of no queue (R401). -/
def State.requester (s : State) : Nat × Nat :=
  match s.cur with
  | some r =>
    match s.wg r.wg, s.warp r with
    | some g, some w => (queueKey g.slot g.queue, warpPrio g r.wp w)
    | _, _ => (512, 0)
  | none => (512, 0)

/-- The PRIO of a request as it is now: its warp's, or, where that is no more or none made it, the one it came with (R401). -/
def State.prioNow (s : State) (agent : Option WRef) (prio : Nat) : Nat :=
  match agent with
  | some r =>
    match s.wg r.wg, s.warp r with
    | some g, some w => warpPrio g r.wp w
    | _, _ => prio
  | none => prio

/-- An agent that acts for a warp without issuing: its requests are the warp's (R401). -/
def State.onBehalf (s : State) (r : WRef) (f : State → State) : State := { f { s with cur := some r } with cur := s.cur }

/-- Count a line fetch of a counted stream in CVSTAT (R290, R371). -/
def Warp.countLine (w : Warp) (n : Nat) (merged : Bool) : Warp :=
  if w.sp.counted.getLsbD n then
    if merged then { w with sp := { w.sp with merged := sat24 (w.sp.merged + 1) } }
    else { w with sp := { w.sp with unmerged := sat24 (w.sp.unmerged + 1) } }
  else w

/-- The line of a physical address, and the address of a line (R284). -/
def lineOf (pa : Nat) : Nat := pa / 128

/-- The space of a physical address (R291). -/
def spaceOf (pa : Nat) : Nat := pa / 2 ^ 48

/-- The merge point of a line of space 0x0: 48 * die + channel (R292). -/
def mergePointOf (line : Nat) : Nat := 48 * ((line / 2 ^ 29) % 4) + (line % 2 ^ 29 / 2) % 48

/-- The channel granule of an offset in a die (R292). -/
def channelOf (off : Nat) : Nat × Nat := ((off / 256) % 48, (off / 256) / 48)

/-- A line read arrives at a merge point: it attaches to an open entry with room, or opens a free one, or waits in the
input queue (R288). The answer says whether it attached or opened; none while it waits. -/
def mergeAttach (m : MergePoint) (w : MergeWait) : MergePoint × Option Bool :=
  if m.entries.any (fun e => e.line == w.line && e.isOpen && decide (e.waiters < 64)) then
    ({ m with entries := m.entries.map (fun e =>
        if e.line == w.line && e.isOpen && decide (e.waiters < 64) then { e with waiters := e.waiters + 1 } else e) }, some true)
  else if m.entries.length < 512 then ({ m with entries := m.entries ++ [⟨w.line, true, 1, w.queue, w.prio, w.agent⟩] }, some false)
  else ({ m with queue := m.queue ++ [w] }, none)

/-- Whether the reservation of a queue's share on a channel still lasts in the window: 4k of its requests have not been served
(R402). -/
def reserved (s : State) (k queue : Nat) : Bool :=
  decide (queue < 512)
    && decide (Table.get s.dev.served 0 (1024 * k + queue) < 4 * (Table.get s.dev.queues Queue.reset queue).chsh)

/-- Whether a channel serves a request before one that arrived earlier: reserved before unreserved, then the higher PRIO (R403). -/
def servedBefore (s : State) (k : Nat) (a b : Nat × Nat) : Bool :=
  let x := reserved s k a.1
  let y := reserved s k b.1
  (x && !y) || (x == y && decide (a.2 > b.2))

/-- A line read of a tile, at the merge point of its channel for space 0x0 (R288). For a stream that counts its lines (R290) the
answer says whether it attached: at once, or when the read leaves the input queue. The entry that a line of space 0x1 meets
stands on its own device: whether it attached there is a free value; a line of space 0x2 has no merge point
(DESIGN CHOICE, log entry 24). -/
def mergeFor (s : State) (t line : Nat) (count : Option (WRef × Nat)) : State × Option Bool :=
  if spaceOf (line * 128) = 0 then
    let k := mergePointOf line
    let q := s.requester
    let r := mergeAttach (Table.get s.wadi MergePoint.reset k)
      ⟨line, t, (s.die ((line / 2 ^ 29) % 4)).tick, q.1, q.2, s.cur, count⟩
    ({ s with wadi := Table.set s.wadi k r.1 }, r.2)
  else if spaceOf (line * 128) = 1 && count.isSome then
    let d := s.draw
    (d.2, some (d.1.getLsbD 0))
  else (s, none)

/-- A line read of a tile that no stream counts. -/
def mergeRead (s : State) (t line : Nat) : State := (mergeFor s t line none).1

/-- A run of line reads of a tile. -/
def readLines (s : State) (t : Nat) (lines : List Nat) : State := lines.foldl (fun s l => mergeRead s t l) s

/-- A write or atomic at the merge point closes every open entry of its line (R289). -/
def mergeClose (s : State) (line : Nat) : State :=
  if spaceOf (line * 128) = 0 then
    let k := mergePointOf line
    let m := Table.get s.wadi MergePoint.reset k
    let m' := { m with entries := m.entries.map (fun e => if e.line == line then { e with isOpen := false } else e) }
    { s with wadi := Table.set s.wadi k m' }
  else s

/-- n bytes at the channel, as an unsigned number (R305). -/
def chanRead (s : State) (pa n : Nat) : Nat := Memory.readN s.mem pa n

/-- A condition of a FENCE after a write of its counter's line: met where the counter has reached its value (R382). -/
def FenceCond.tested (c : FenceCond) (s : State) (line : Nat) : FenceCond :=
  match c.pa with
  | some pa => if lineOf pa = line ∧ chanRead s pa 8 ≥ c.v then { c with met := true } else c
  | none => c

/-- A write of a line that has been performed tests the FENCE conditions whose counters lie in it (R382). -/
def testConds (s : State) (line : Nat) : State :=
  { s with dev := { s.dev with queues := s.dev.queues.map (fun q =>
      (q.1, { q.2 with conds := q.2.conds.map (fun c => c.tested s line) })) } }

/-- A write or an atomic of the agent that acts is served at its channel: it counts in the window of the agent's queue (R401, R402). -/
def countServed (s : State) (line : Nat) : State :=
  let q := s.requester.1
  if spaceOf (line * 128) = 0 && decide (q < 512) then
    let key := 1024 * mergePointOf line + q
    { s with dev := { s.dev with served := Table.set s.dev.served key (Table.get s.dev.served 0 key + 1) } }
  else s

/-- Perform a write of n bytes at the channel (R289, R305). -/
def chanWrite (s : State) (pa n v : Nat) : State :=
  let s := countServed (mergeClose s (lineOf pa)) (lineOf pa)
  testConds { s with mem := Memory.writeN s.mem pa n v } (lineOf pa)

/-- Perform a masked write of a line at the channel (R286, R323). -/
def chanWriteLine (s : State) (line : Nat) (mask : BitVec 128) (data : BitVec 1024) : State :=
  let s := countServed (mergeClose s line) line
  testConds { s with mem := Memory.writeMasked s.mem (line * 128) mask.toNat data.toNat 128 } line

/-- The bytes of a line at the channel. -/
def chanLine (s : State) (line : Nat) : BitVec 1024 := BitVec.ofNat 1024 (chanRead s (line * 128) 128)

/-- A mask bit per byte spread over the bits of that byte. -/
def byteMask (m : Nat) : Nat → Nat
  | 0 => 0
  | k + 1 => (if m % 2 = 1 then 255 else 0) + 256 * byteMask (m / 2) k

/-- The bytes of a line with those of a mask replaced. -/
def mergeBytes (mask : BitVec 128) (new old : BitVec 1024) : BitVec 1024 :=
  let b := BitVec.ofNat 1024 (byteMask mask.toNat 128)
  (new &&& b) ||| (old &&& ~~~b)

/-- n bytes at an offset of a line, as a number. -/
def lineBytes (d : BitVec 1024) (off n : Nat) : Nat := (d.toNat / 2 ^ (8 * off)) % 2 ^ (8 * n)

/-- The mask of n bytes at an offset of a line. -/
def spanMask (off n : Nat) : BitVec 128 := BitVec.ofNat 128 ((2 ^ n - 1) * 2 ^ off)

/-- The line of a tile's line buffer, if it holds it. -/
def Tile.line (t : Tile) (line : Nat) : Option Line := t.lines.find? (fun l => l.line == line)

/-- Take a line out of the line buffer. -/
def Tile.dropLine (t : Tile) (line : Nat) : Tile := { t with lines := t.lines.filter (fun l => l.line != line) }

/-- Put a line first, as the most recently used. -/
def Tile.putLine (t : Tile) (l : Line) : Tile := { t.dropLine l.line with lines := l :: (t.dropLine l.line).lines }

/-- The ways left in a set of the line buffer (R284, R301). -/
def Tile.waysOf (t : Tile) (set : Nat) : Nat := 16 - Table.get t.badWays 0 set

/-- A write of a tile to space 0x0 has been performed, and its acknowledgement is on its way (R328). -/
def State.owed (s : State) (t line : Nat) : State := s.setTile t { s.tile t with unacked := (s.tile t).unacked ++ [line] }

/-- Write back the dirty bytes of a line, and keep the line clean (R286). -/
def writeBackLine (s : State) (t line : Nat) : State :=
  match (s.tile t).line line with
  | some l =>
    if l.dirty = 0 then s
    else
      let s := (chanWriteLine s line l.dirty l.data).owed t line
      s.setTile t { s.tile t with lines := (s.tile t).lines.map (fun x => if x.line == line then { x with dirty := 0 } else x) }
  | none => s

/-- Invalidate a line: write back its dirty bytes and clear it (R286). -/
def invalidateLine (s : State) (t line : Nat) : State :=
  let s := writeBackLine s t line
  s.setTile t ((s.tile t).dropLine line)

/-- The lines of a tile that satisfy a test. -/
def Tile.linesWhere (t : Tile) (p : Line → Bool) : List Nat := (t.lines.filter p).map (·.line)

/-- Write back every dirty line that satisfies a test (R286). -/
def writeBackWhere (s : State) (t : Nat) (p : Line → Bool) : State :=
  ((s.tile t).linesWhere p).foldl (fun s l => writeBackLine s t l) s

/-- Invalidate every line that satisfies a test (R286). -/
def invalidateWhere (s : State) (t : Nat) (p : Line → Bool) : State :=
  ((s.tile t).linesWhere p).foldl (fun s l => invalidateLine s t l) s

/-- Replace the least recently used lines of a set until it holds fewer than its ways (R284). -/
def makeRoom (s : State) (t set : Nat) : Nat → State
  | 0 => s
  | n + 1 =>
    let inSet := (s.tile t).lines.filter (fun l => l.line % 64 == set)
    if inSet.length < (s.tile t).waysOf set then s
    else
      match inSet.getLast? with
      | some v => makeRoom (invalidateLine s t v.line) t set n
      | none => s

/-- Allocate a line in the line buffer as the most recently used (R284, R285); a set without ways takes nothing. -/
def allocLine (s : State) (t : Nat) (l : Line) : State :=
  let s := if ((s.tile t).line l.line).isSome then s else makeRoom s t (l.line % 64) 17
  if (s.tile t).waysOf (l.line % 64) = 0 then s else s.setTile t ((s.tile t).putLine l)

/-- Fetch a whole line for a load: the channel's bytes, with the tile's dirty bytes merged over them (R285, R324). The
answer gives the line's bytes. -/
def fetchLine (s : State) (t line asid rix : Nat) : State × BitVec 1024 :=
  let s := mergeRead s t line
  let old := (s.tile t).line line
  let data := match old with
    | some l => mergeBytes l.dirty l.data (chanLine s line)
    | none => chanLine s line
  let dirty := match old with
    | some l => l.dirty
    | none => 0
  (allocLine s t ⟨line, asid, rix, BitVec.allOnes 128, dirty, data⟩, data)

/-- The bytes of a line as an engine or a stream reads it: the channel's with the tile's dirty bytes merged, allocating
nothing (R285); bytes wholly valid in the line buffer serve a stream. -/
def engineLine (s : State) (t line : Nat) : BitVec 1024 :=
  match (s.tile t).line line with
  | some l => mergeBytes l.dirty l.data (chanLine s line)
  | none => chanLine s line

/-- A translated access: physical address, range index (64 for page tables) and whether it bypasses the line buffer. -/
structure Xlated where
  pa : Nat
  rix : Nat
  nlb : Bool
deriving DecidableEq, Repr

/-- What translation answers: a place, a miss that only the management cores can decide (R299), or a fault kind of R425
(1 out-of-range, 3 unmapped, 4 protection, 5 trimmed). -/
inductive XRes where
  | ok (x : Xlated)
  | miss
  | err (kind : Nat)
deriving DecidableEq, Repr

/-- Kinds of access and the permissions they need (R295). -/
inductive Acc where
  | load
  | store
  | atomic
  | relObj
  | waitObj
  | fetch
  | stream
  | engRead
  | engWrite
deriving DecidableEq, Repr

/-- Whether permissions suffice (R295). -/
def Acc.permits (a : Acc) (rd w x : Bool) : Bool :=
  match a with
  | .load => rd
  | .stream => rd
  | .engRead => rd
  | .store => w
  | .engWrite => w
  | .relObj => w
  | .atomic => rd && w
  | .waitObj => rd && w
  | .fetch => x

/-- The ACC code of a fault message (R435). -/
def Acc.code (a : Acc) : Nat :=
  match a with
  | .load => 0
  | .stream => 0
  | .store => 1
  | .engWrite => 1
  | .relObj => 1
  | .atomic => 2
  | .waitObj => 2
  | .fetch => 3
  | .engRead => 4

/-- Bits [lo + n - 1 : lo] of a range entry. -/
def rangeField (e : BitVec 256) (lo n : Nat) : Nat := (e.toNat / 2 ^ lo) % 2 ^ n

/-- Whether a range entry counts as valid (R294). -/
def rangeValid (e : BitVec 256) : Bool :=
  decide (rangeField e 7 1 = 1) && decide (rangeField e 36 36 ≤ rangeField e 72 36) && decide (rangeField e 188 4 = 0)
    && decide (rangeField e 8 28 = 0) && decide (rangeField e 1 1 = 0)
    && (decide (rangeField e 5 1 = 0) || decide (rangeField e 208 3 = 0))

/-- Whether a valid entry covers a virtual address (R295). -/
def rangeCovers (e : BitVec 256) (va : Nat) : Bool :=
  rangeValid e && decide (rangeField e 36 36 ≤ va / 4096) && decide (va / 4096 ≤ rangeField e 72 36)

/-- The range table of a context in memory: 64 entries of 32 bytes (R294). -/
def rangeTable (s : State) (rtab : Nat) : List (BitVec 256) :=
  (List.range 64).map (fun k => BitVec.ofNat 256 (chanRead s (rtab + 32 * k) 32))

/-- The lowest-numbered entry that covers an address, with its number (R295). -/
def findRange (es : List (BitVec 256)) (va : Nat) : Nat → Option (Nat × BitVec 256)
  | k =>
    match es with
    | [] => none
    | e :: r => if rangeCovers e va then some (k, e) else findRange r va (k + 1)

/-- The range entries a tile translates with: its cached copy, or the table (R300). -/
def tileRanges (s : State) (t asid rtab : Nat) : List (BitVec 256) :=
  match Table.find (s.tile t).ranges asid with
  | some es => es
  | none => rangeTable s rtab

/-- What the space of a physical address makes of an access (R291, R293, R340, R450): another form of the address, or a
fault kind. -/
def spaceCheck (s : State) (a : Acc) (pa : Nat) : Except Nat Nat :=
  let sp := spaceOf pa
  let trim := decide ((pa / 2 ^ 12) % 2 ^ 24 = 0xFFFFFF)
  if sp = 0 then
    if (pa / 2 ^ 38) % 2 ^ 10 ≠ 0 then .error 3 else if trim then .error 5 else .ok pa
  else if sp = 1 then
    let dv := (pa / 2 ^ 38) % 2 ^ 10
    if dv = s.dev.devid then (if trim then .error 5 else .ok (pa % 2 ^ 38))
    else if !s.dev.pod.contains dv || s.dev.ports.isEmpty then .error 3
    else if trim then .error 5
    else .ok pa
  else if sp = 2 then
    if !s.dev.hostUp || a == .atomic || a == .relObj then .error 3 else .ok pa
  else .error 3

/-- The physical address of a virtual one under a range entry (R295): engine writes use the shadow of an entry that has one. -/
def rangePa (a : Acc) (e : BitVec 256) (va : Nat) : Nat :=
  let live := if a == .engWrite && decide (rangeField e 6 1 = 1) then rangeField e 148 40 else rangeField e 108 40
  live * 4096 + (va - rangeField e 36 36 * 4096)

/-- Translation through a range entry (R295). -/
def rangeXlate (s : State) (a : Acc) (k : Nat) (e : BitVec 256) (va : Nat) : XRes :=
  let pa := rangePa a e va
  if pa ≥ 2 ^ 52 then .err 1
  else if !a.permits (rangeField e 0 1 == 1) (rangeField e 2 1 == 1) (rangeField e 3 1 == 1) then .err 4
  else
    match spaceCheck s a pa with
    | .error k' => .err k'
    | .ok pa' => .ok ⟨pa', k, decide (rangeField e 4 1 = 1)⟩

/-- Size in bytes of the pages mapped at a level (R298). -/
def pageSize (level : Nat) : Nat := 4096 * 512 ^ (level - 1)

/-- Whether a page-table entry stops a walk at its level: not valid, reserved bits, LEAF against the rule, or a large
page that is misaligned (R298, R299). -/
def pteStops (level : Nat) (e : Reg) : Bool :=
  let leaf := decide (fieldOf e 7 1 = 1)
  decide (fieldOf e 0 1 = 0) || decide (fieldOf e 52 12 ≠ 0) || decide (fieldOf e 8 4 ≠ 0) || decide (fieldOf e 5 2 ≠ 0)
    || (leaf && decide (level = 4)) || (!leaf && decide (level = 1))
    || (leaf && decide (fieldOf e 12 40 % 512 ^ (level - 1) ≠ 0))

/-- A walk from a table at a level down (R298): the leaf's level and entry, and the entries above it. -/
def walkFrom (s : State) (upper : List UpperEntry) (asid va table : Nat) : Nat → Option (PageEntry × List UpperEntry)
  | 0 => none
  | level + 1 =>
    let size := pageSize (level + 1)
    let pfx := va / size
    let e := match upper.find? (fun u => u.asid == asid && u.level == level + 1 && u.pfx == pfx) with
      | some u => u.pte
      | none => BitVec.ofNat 64 (chanRead s (table + 8 * (pfx % 512)) 8)
    if pteStops (level + 1) e then none
    else if fieldOf e 7 1 = 1 then some (⟨asid, va / size, level + 1, e⟩, [])
    else
      match walkFrom s upper asid va (fieldOf e 12 40 * 4096) level with
      | some (p, us) => some (p, ⟨asid, level + 1, pfx, e⟩ :: us)
      | none => none

/-- The levels that a walk passes from a table down, to the entry that ends it: the line of an entry that is read, or none for one that the
walker's cache holds (R298, R300). -/
def walkPath (s : State) (upper : List UpperEntry) (asid va table : Nat) : Nat → List (Option Nat)
  | 0 => []
  | level + 1 =>
    let pfx := va / pageSize (level + 1)
    let place := table + 8 * (pfx % 512)
    let known := upper.find? (fun u => u.asid == asid && u.level == level + 1 && u.pfx == pfx)
    let e := match known with
      | some u => u.pte
      | none => BitVec.ofNat 64 (chanRead s place 8)
    (if known.isSome then none else some (lineOf place))
      :: (if pteStops (level + 1) e || decide (fieldOf e 7 1 = 1) then []
        else walkPath s upper asid va (fieldOf e 12 40 * 4096) level)

/-- The lines of page-table entries that a walk reads. -/
def walkReads (s : State) (upper : List UpperEntry) (asid va table level : Nat) : List Nat :=
  (walkPath s upper asid va table level).filterMap id

/-- The ref ticks of a walk with no load: 36 for a level that is read, 2 for one in the walker's cache (R303). -/
def walkTicks (path : List (Option Nat)) : Nat := (path.map (fun l => if l.isSome then 36 else 2)).sum

/-- The misses of a cluster whose message waits behind the full fault ring: they count as walks in progress (R501). -/
def ringWaits (d : Device) (c : Nat) : Nat :=
  (d.ring.filter (fun m => decide (d.ringHead + 256 ≤ m.1) && !m.2.answered && m.2.src != 4 && m.2.cluster == c)).length

/-- How many of a walker's listed walks run at once (R300, R501). -/
def walkRoom (s : State) (c : Nat) : Nat := 64 - ringWaits s.dev c

/-- A miss takes its place among a walker's walks, unless one of its context and page has one (R300). -/
def listWalk (s : State) (c asid vpn acc : Nat) : State :=
  let k := s.cluster c
  if k.walks.any (fun w => w.asid == asid && w.vpn == vpn) then s
  else s.setCluster c { k with walks := k.walks ++ [⟨asid, vpn, acc, (s.die (dieOfCluster c)).tick⟩] }

/-- The first of some lines, up to and with the first that gives a data error (R301). -/
def untilBad (bad : List Nat) : List Nat → List Nat
  | [] => []
  | l :: r => l :: (if bad.contains l then [] else untilBad bad r)

/-- Whether one of some lines gives a data error (R301). -/
def anyBad (s : State) (lines : List Nat) : Bool := lines.any (fun l => s.dev.badLines.contains l)

/-- The physical address of a virtual one under a leaf entry (R298). -/
def pagePa (p : PageEntry) (va : Nat) : Nat := fieldOf p.pte 12 40 * 4096 + va % pageSize p.level

/-- Whether a retired page has left the mappings of a context (R302): the management cores remove it, and the removal holds once
they have invalidated the context's caches (R300). -/
def State.removed (s : State) (asid pa : Nat) : Bool :=
  (spaceOf pa = 0 || (spaceOf pa = 1 && (pa / 2 ^ 38) % 2 ^ 10 = s.dev.devid))
    && (Table.get s.dev.unmapped [] asid).contains (pa % 2 ^ 38 / 4096)

/-- What an access under a mapping comes to: with its page removed, there is no mapping (R299, R302). -/
def keepMapped (s : State) (asid pa : Nat) (r : XRes) : XRes := if s.removed asid pa then .miss else r

/-- Translation through a leaf entry (R298). -/
def pageXlate (s : State) (a : Acc) (p : PageEntry) (va : Nat) : XRes :=
  let pa := pagePa p va
  if !a.permits (fieldOf p.pte 1 1 == 1) (fieldOf p.pte 2 1 == 1) (fieldOf p.pte 3 1 == 1) then .err 4
  else
    match spaceCheck s a pa with
    | .error k => .err k
    | .ok pa' => .ok ⟨pa', 64, decide (fieldOf p.pte 4 1 = 1)⟩

/-- Whether a cached leaf maps an address. -/
def PageEntry.maps (p : PageEntry) (asid va : Nat) : Bool := p.asid == asid && p.vpn == va / pageSize p.level

/-- The lines that hold the range table of a context. -/
def rangeLines (rtab : Nat) : List Nat := span (lineOf rtab) 16

/-- The range entries of a context for a tile: its cached copy, or the table, read through the Wadi and kept unless the tile's
entries for the context were retired (R300, R301). The answer is none where the table cannot be read (R301). -/
def loadRanges (s : State) (t asid rtab : Nat) : State × Option (List (BitVec 256)) :=
  match Table.find (s.tile t).ranges asid with
  | some es => (s, some es)
  | none =>
    let es := rangeTable s rtab
    let s := readLines s t (untilBad s.dev.badLines (rangeLines rtab))
    if anyBad s (rangeLines rtab) then (s, none)
    else if (s.tile t).badXlat.contains asid then (s, some es)
    else (s.setTile t { s.tile t with ranges := Table.set (s.tile t).ranges asid es }, some es)

/-- The leaf entry for an address by a walk for a tile, through the Wadi (R298, R300): what it read above the leaf and the leaf are
kept, the leaf unless the tile's entries for the context were retired (R301). A walk of the page that is in progress is
shared, and reads nothing again; one of its own is counted with the time R303 gives it (R506; DEDUCED, log entry 24). The answer says whether an entry could be read (R301), and is none for a walk that stops. -/
def loadPage (s : State) (t asid root va : Nat) : State × Bool × Option PageEntry :=
  let cl := clusterOf t
  let known := (s.cluster cl).upper
  let path := walkPath s known asid va root 4
  let lines := path.filterMap id
  let leaf := walkFrom s known asid va root 4
  let shared := (s.cluster cl).walks.any (fun w => w.asid == asid && w.vpn == va / 4096)
  let s := if shared then s else (readLines s t (untilBad s.dev.badLines lines)).countEvent cl 4 (walkTicks path) 1
  if anyBad s lines then (s, false, none)
  else
    match leaf with
    | some (p, us) =>
      let s := if (s.tile t).badXlat.contains asid then s else s.setTile t { s.tile t with pages := p :: (s.tile t).pages }
      (s.setCluster cl { s.cluster cl with upper := us.filter (fun u => !known.contains u) ++ known }, true, some p)
    | none => (s, true, none)

/-- Translate an access of a tile for a context slot (R184 orders 3 to 6, R295, R298): first the range entries, then the
page cache, then a walk. The kind of a range entry whose address passes 52 bits is out-of-range; a table that cannot be read is a
data error (R301). -/
def translate (s : State) (t slot va : Nat) (a : Acc) : State × XRes :=
  let c := s.slot slot
  let q := loadRanges s t c.asid (c.rtab * 2048)
  let s := q.1
  match q.2 with
  | none => (s, .err 6)
  | some es =>
    match findRange es va 0 with
    | some (k, e) => (s, keepMapped s c.asid (rangePa a e va) (rangeXlate s a k e va))
    | none =>
      match (s.tile t).pages.find? (fun p => p.maps c.asid va) with
      | some p => (s, keepMapped s c.asid (pagePa p va) (pageXlate s a p va))
      | none =>
        match loadPage s t c.asid (c.ptroot * 4096) va with
        | (s, false, _) => (s, .err 6)
        | (s, true, some p) => (s, keepMapped s c.asid (pagePa p va) (pageXlate s a p va))
        | (s, true, none) => (s, .miss)

/-- Whether an access of a tile would need a walk that its cluster's walker cannot run yet: no range entry or cached page maps the
address, and as many walks as can run stand before the one of its page (R300, R501). -/
def walkHeld (s : State) (t slot va : Nat) : Bool :=
  let c := s.slot slot
  let k := s.cluster (clusterOf t)
  (findRange (tileRanges s t c.asid (c.rtab * 2048)) va 0).isNone && !(s.tile t).pages.any (fun p => p.maps c.asid va)
    && decide (walkRoom s (clusterOf t) ≤ k.walks.findIdx (fun w => w.asid == c.asid && w.vpn == va / 4096))

/-- Translate for an agent of the I/O die, from the tables themselves (R522). -/
def translateIo (s : State) (slot va : Nat) (a : Acc) : XRes :=
  let c := s.slot slot
  if anyBad s (rangeLines (c.rtab * 2048)) then .err 6
  else
    match findRange (rangeTable s (c.rtab * 2048)) va 0 with
    | some (k, e) => keepMapped s c.asid (rangePa a e va) (rangeXlate s a k e va)
    | none =>
      if anyBad s (walkReads s [] c.asid va (c.ptroot * 4096) 4) then .err 6
      else
        match walkFrom s [] c.asid va (c.ptroot * 4096) 4 with
        | some (p, _) => keepMapped s c.asid (pagePa p va) (pageXlate s a p va)
        | none => .miss

/-- Whether an access goes to the channel without the line buffer: NLB, or remote memory (R285, R340). -/
def Xlated.direct (x : Xlated) : Bool := x.nlb || decide (spaceOf x.pa ≠ 0)

/-- A line that another context filled is written back and leaves before the accesses of a context use it, so that what R328
says of a context's writes and R329 of its lines holds of the line (DEDUCED, log entry 42). -/
def takeLine (s : State) (t asid line : Nat) : State :=
  match (s.tile t).line line with
  | some l => if l.asid = asid then s else invalidateLine s t line
  | none => s

/-- A line that the tile holds for a context is written back and leaves before a direct access of the context reaches it at the channel,
so that the line buffer breaks the order of no warp's accesses to one address (R183, R285, R308; DEDUCED, log entry 42). -/
def passLine (s : State) (t asid line : Nat) : State :=
  match (s.tile t).line line with
  | some l => if l.asid = asid then invalidateLine s t line else s
  | none => s

/-- A load of n bytes by a tile (R285, R324): a hit in the line buffer, or the whole line fetched; direct accesses read
the channel. The answer is the value and whether the data came with an uncorrectable error (R186). -/
def tileLoad (s : State) (t asid : Nat) (x : Xlated) (n : Nat) : State × Nat × Bool :=
  let line := lineOf x.pa
  let off := x.pa % 128
  let bad := s.dev.badLines.contains line
  if x.direct then
    let s := mergeRead (passLine s t asid line) t line
    (s, chanRead s x.pa n, bad)
  else
    let s := takeLine s t asid line
    let hit := match (s.tile t).line line with
      | some l => if l.rix = x.rix ∧ spanMask off n &&& ~~~l.valid = 0 then some l else none
      | none => none
    match hit with
    | some l => (s.setTile t ((s.tile t).putLine l), lineBytes l.data off n, false)
    | none =>
      if bad then (mergeRead s t line, 0, true)
      else
        let r := fetchLine s t line asid x.rix
        (r.1, lineBytes r.2 off n, false)

/-- A store of n bytes by a tile (R285, R323): into the line, allocating it if need be; direct accesses are performed at
the channel. -/
def tileStore (s : State) (t asid : Nat) (x : Xlated) (n v : Nat) : State :=
  let line := lineOf x.pa
  let off := x.pa % 128
  if x.direct then
    let s := passLine s t asid line
    if spaceOf x.pa = 0 then (chanWrite s x.pa n v).owed t line else chanWrite s x.pa n v
  else
    let s := takeLine s t asid line
    let m := spanMask off n
    let new := BitVec.ofNat 1024 ((v % 2 ^ (8 * n)) * 2 ^ (8 * off))
    let l := match (s.tile t).line line with
      | some l => { l with rix := x.rix, valid := l.valid ||| m, dirty := l.dirty ||| m, data := mergeBytes m new l.data }
      | none => ⟨line, asid, x.rix, m, m, new⟩
    if (s.tile t).waysOf (line % 64) = 0 then (chanWrite s x.pa n v).owed t line else allocLine s t l

/-- An atomic at the channel's atomic unit (R190, R286, R327): the tile's line is written back and invalidated first. The
answer is the old value and whether the data had an uncorrectable error. -/
def chanAtomic (s : State) (t pa n : Nat) (new : Nat → Nat) : State × Nat × Bool :=
  let s := invalidateLine s t (lineOf pa)
  let old := chanRead s pa n
  if s.dev.badLines.contains (lineOf pa) then (countServed (mergeClose s (lineOf pa)) (lineOf pa), old, true)
  else (chanWrite s pa n (new old), old, false)

/-- The object of ACQ or WAITC is read at the channel's atomic unit, after its line was invalidated (R197, R286). -/
def chanObject (s : State) (t pa : Nat) : State × Nat × Bool :=
  let s := countServed (invalidateLine s t (lineOf pa)) (lineOf pa)
  (s, chanRead s pa 8, s.dev.badLines.contains (lineOf pa))

end Sys2Proof.Machine
end

