-- ==== Sys2Proof/Machine/Monitor.lean ====
section
/-! DEFINITION. What hardware counts and logs beside its work: the performance monitors of a cluster (R506, R507) and the
error log (R508). -/

namespace Sys2Proof.Machine

/-- RATIO of a sample: s of c cycles with a resident warp in which no warp was ready (R270). -/
def stallRatio (x : Nat × Nat) : Nat := if x.2 = 0 then 0 else min 65535 (65536 * x.1 / x.2)

/-- RATIO is written from the sample that has ended, and counted (R489, R506). -/
def writeRatio (s : State) (c : Nat) : State :=
  match (s.cluster c).sample with
  | some x => (s.setCluster c { s.cluster c with ratio := stallRatio x, sample := none }).countEvent c 8 (stallRatio x) 1
  | none => s

/-- Whether nothing of a cluster can have a flit under way: no workgroup is on a tile of it, no copy runs there, no walk, and no
write-back without its acknowledgement (R478, R479). -/
def fifosStill (s : State) (c : Nat) : Bool :=
  s.wgs.all (fun g => !(g.2.onTile && clusterOf g.2.tile == c)) && s.dev.copies.all (fun k => clusterOf k.2.tile != c)
    && (s.cluster c).walks.isEmpty && (span (8 * c) 8).all (fun t => (s.tile t).unacked.isEmpty)

/-- The flits in a clock-crossing FIFO, at most 64 (R479): no access waits in one, and how many are there when a count or read looks is a
free value; none while the pair is gated (R480), nor where nothing of the cluster is under way, as after reset (R478)
(DESIGN CHOICE, log entry 2). -/
def fifoLevel (s : State) (c : Nat) : Nat × State :=
  if (s.pair (pairOf c)).gstate ≥ 3 || fifosStill s c then (0, s) else (s.draw.1.toNat % 65, s.draw.2)

/-- INOCC and OUTOCC take the occupancy of this instant, where a monitor or a read looks at it (R478, R480). -/
def lookFifos (s : State) (c : Nat) (inbound outbound : Bool) : State :=
  let put := fun (s : State) (f : Clock → Clock) => s.setCluster c { s.cluster c with clk := f (s.cluster c).clk }
  let s := if inbound then put (fifoLevel s c).2 (fun k => { k with inocc := (fifoLevel s c).1 }) else s
  if outbound then put (fifoLevel s c).2 (fun k => { k with outocc := (fifoLevel s c).1 }) else s

/-- Classes of an entry of the error log (R508). -/
def logSoft : Nat := 0
def logCorrected : Nat := 1
def logLasting : Nat := 2
def logRetirement : Nat := 3

/-- Append an entry to the error log (R508): address or number, kind of structure by the rows of R301, tile or die, class,
context; and count it (R301). -/
def State.logError (s : State) (addr kind unit cls asid : Nat) : State :=
  let d := s.dev
  let e : List Reg := [BitVec.ofNat 64 addr, BitVec.ofNat 64 (kind * 2 ^ 12 + unit + cls * 2 ^ 16), BitVec.ofNat 64 asid,
    BitVec.ofNat 64 d.logNext]
  let k := 4 * kind + cls
  let errors := Table.set d.errors k (Table.get d.errors 0 k + 1)
  { s with dev := { d with log := Table.set d.log (d.logNext % 1024) e, logNext := d.logNext + 1, errors := errors } }

end Sys2Proof.Machine
end

