-- ==== Sys2Proof/Machine/Code.lean ====
section
/-! DEFINITION. Words of code: their fetch through the instruction cache and the line buffer (R47, R164, R285, R287), and the
INDEX of a saved position, which tells whether a header stands there (R59, R427). -/

namespace Sys2Proof.Machine

/-- What a fetch of one word comes to: the word, a miss that only the management cores can decide (R299), or the check
of R184 that failed, as FKIND numbers it (R425); with the state after it. -/
inductive Fetched where
  | word (x : Word) (s : State)
  | miss (s : State)
  | fail (fkind : Nat) (s : State)
deriving DecidableEq, Repr

/-- The context a workgroup runs in. -/
def State.asidOf (s : State) (g : Workgroup) : Nat := (s.slot g.slot).asid

/-- Room for a line in a set of the instruction cache (R287, R301): the least recently used lines go. -/
def codeRoom (code : List CodeLine) (set ways : Nat) : List CodeLine :=
  let keep := (code.filter (fun c => c.line % 64 == set)).take (ways - 1)
  code.filter (fun c => c.line % 64 != set || keep.contains c)

/-- The line of the line buffer that serves a fetch of a whole line: it is wholly valid, and its index and context are those of
the access (R284, R285). -/
def heldLine (s : State) (t asid : Nat) (x : Xlated) : Option Line :=
  if x.direct then none
  else (s.tile t).lines.find? (fun l =>
    l.line == lineOf x.pa && l.valid == BitVec.allOnes 128 && l.rix == x.rix && l.asid == asid)

/-- The bytes of a line as a fetch reads it: a line of the line buffer that is wholly valid, else the channel's bytes with
the tile's dirty bytes merged (R285, R287). -/
def fetchData (s : State) (t asid : Nat) (x : Xlated) : BitVec 1024 :=
  match heldLine s t asid x with
  | some l => l.data
  | none => if x.direct then chanLine s (lineOf x.pa) else engineLine s t (lineOf x.pa)

/-- The word at an offset of a line. -/
def wordIn (d : BitVec 1024) (off : Nat) : Word := BitVec.ofNat 32 (lineBytes d off 4)

/-- The line of a code address in the instruction cache (R287). -/
def cachedCode (s : State) (t asid : Nat) (x : Xlated) : Option CodeLine :=
  (s.tile t).code.find? (fun c => c.line == lineOf x.pa && c.asid == asid)

/-- Read a word of code at a translated address, through the instruction cache; its miss is served by the line buffer, or by the
Wadi, whose data may have an error (R285, R287, R301). A line that the line buffer holds partly valid stays partly valid: R285 would make it
wholly valid, R287 has a fetch allocate nothing there (DESIGN CHOICE, log entry 39). -/
def codeWord (s : State) (t asid : Nat) (x : Xlated) : Fetched :=
  let line := lineOf x.pa
  let off := x.pa % 128
  let code := (s.tile t).code
  match cachedCode s t asid x with
  | some c =>
    .word (wordIn c.data off) (s.setTile t { s.tile t with code := c :: code.filter (fun d => d != c) })
  | none =>
    let held := heldLine s t asid x
    if held.isNone && s.dev.badLines.contains line then .fail 6 (mergeRead s t line)
    else
      let d := fetchData s t asid x
      let s := match held with
        | some l => s.setTile t ((s.tile t).putLine l)
        | none => mergeRead s t line
      let ways := 8 - Table.get (s.tile t).badCode 0 (line % 64)
      let code := if ways = 0 then code else ⟨line, asid, d⟩ :: codeRoom code (line % 64) ways
      .word (wordIn d off) (s.setTile t { s.tile t with code := code })

/-- Fetch the word at a virtual address for a warp (R47, R164, R184): pages to which the management cores have answered
"none" are unmapped (R434). -/
def fetchWord (s : State) (g : Workgroup) (w : Warp) (va : Nat) : Fetched :=
  if va ≥ 2 ^ 48 then .fail 1 s
  else if walkHeld s g.tile g.slot va then .miss s
  else
    let r := translate s g.tile g.slot va .fetch
    match r.2 with
    | .ok x => codeWord r.1 g.tile (s.asidOf g) x
    | .miss => if w.nones.contains (va / 4096) then .fail 3 r.1 else .miss r.1
    | .err k => .fail k r.1

/-- The word of code at an address, if it can be read, without any effect. -/
def peekWord (s : State) (g : Workgroup) (va : Nat) : Option Word :=
  if va ≥ 2 ^ 48 then none
  else
    match (translate s g.tile g.slot va .fetch).2 with
    | .ok x =>
      match cachedCode s g.tile (s.asidOf g) x with
      | some c => some (wordIn c.data (x.pa % 128))
      | none => some (wordIn (fetchData s g.tile (s.asidOf g) x) (x.pa % 128))
    | _ => none

/-- Whether a word is a header that a saved position may stand at: a CLAUSE header, legal or not, or, reached in sequence with
index 0, a POOL header (R58, R59, R61). -/
def standsAt (mode : PosMode) (idx : Nat) (x : Word) : Bool :=
  decide (x.toNat / 2 ^ 24 = 0xFF) || (match decode x with
    | some (.pool _) => mode == .flow && idx == 0
    | _ => false)

/-- INDEX of a saved position (R59, R427): the next word of the clause, or 0xFF where no header stands at POSHDR: at the target of
a transfer, or past a clause. A word there that cannot be read counts as a header, since its fetch is judged again when the warp
resumes (DEDUCED, log entry 45). -/
def savedIndex (s : State) (g : Workgroup) (w : Warp) : Nat :=
  let p := w.c.pos
  match p.mode with
  | .body => p.idx
  | .trap => 0xFF
  | mode =>
    if p.hdr % 4 ≠ 0 then 0xFF
    else
      match peekWord s g p.hdr with
      | some x => if standsAt mode p.idx x then p.idx else 0xFF
      | none => p.idx

end Sys2Proof.Machine
end

