-- ==== Sys2Proof/Machine/Ops.lean ====
section
/-! DEFINITION. The named operations every meaning is built from: positions and transfers of control (R57-R59, R173-R175),
the divergence stack when a mask empties (R170), leaving and being detached from convoys (R365, R368), hardware reads and
writes of a workgroup's areas (R41, R424), granule fills (R44, R45), ending with error (R421), taking an exception
(R426, R427, R430, R439) and returning from one (R428), and the runners that turn a warp's new state into the machine's. -/

namespace Sys2Proof.Machine

/-! ### Position and transfers -/

/-- A CLAUSE header without flags, for positions whose header has not been evaluated. -/
def ClauseFields.none : ClauseFields := ⟨0, 15, 15, 0⟩

/-- The address of the word at the position (R58, R59). -/
def Pos.word (p : Pos) : Nat := p.hdr + 4 + 4 * p.idx

/-- The word that a position stands at, as an exit record's PC names it: its next word, or the header that is to be evaluated
first (R58, R59, R432) (DEDUCED, log entry 13). -/
def Pos.place (p : Pos) : Nat := if p.mode = .body ∨ p.idx > 0 then p.word else p.hdr

/-- The position at the target of a transfer of control (R58). -/
def Pos.atTarget (a : Nat) : Pos := ⟨a, 0, .target, .none⟩

/-- The position at a word reached in sequence (R52). -/
def Pos.atFlow (a : Nat) : Pos := ⟨a, 0, .flow, .none⟩

/-- Put a warp at a position. -/
def Warp.goto (w : Warp) (p : Pos) : Warp := { w with c := { w.c with pos := p } }

/-- The innermost loop frame, if a loop runs (R174). -/
def Warp.frame (w : Warp) : Option LoopFrame :=
  if w.c.depth = 0 then none else Table.find w.c.frames (w.c.depth - 1)

/-- The word after the body of a frame. -/
def LoopFrame.end_ (f : LoopFrame) : Nat := f.start + 4 * f.len

/-- Whether an address lies in a frame's body. -/
def LoopFrame.holds (f : LoopFrame) (a : Nat) : Bool := decide (f.start ≤ a) && decide (a < f.end_)

/-- Whether a is the word after the innermost body (R174). -/
def Warp.atBodyEnd (w : Warp) (a : Nat) : Bool :=
  match w.frame with
  | some f => decide (f.end_ = a)
  | none => false

/-- The word after the one at the position has been reached in sequence: the next word of the clause, the word after the
clause, or the end of a loop body (R52, R59, R174). -/
def Warp.advance (w : Warp) : Warp :=
  let p := w.c.pos
  let next := p.word + 4
  if w.atBodyEnd next then w.goto ⟨next, 0, .fell, .none⟩
  else if p.idx < p.cl.len then w.goto { p with idx := p.idx + 1 }
  else w.goto (Pos.atFlow next)

/-- Remove the innermost frames whose bodies do not hold the target of a transfer (R175). -/
def endLoops (frames : Table LoopFrame) (a : Nat) : Nat → Nat
  | 0 => 0
  | d + 1 =>
    match Table.find frames d with
    | some f => if f.holds a then d + 1 else endLoops frames a d
    | none => endLoops frames a d

/-- A transfer of control to an address (R57, R58, R175). -/
def Warp.transfer (w : Warp) (a : Nat) : Warp :=
  { w with c := { w.c with depth := endLoops w.c.frames a w.c.depth, pos := Pos.atTarget a } }

/-- Fall through the end of the innermost body, and of every enclosing body that ends at the same word (R174). A count
of 0, which a handler can write into its frame (R427), wraps and repeats the body (DESIGN CHOICE, log entry 48). -/
def fallThrough (w : Warp) : Nat → Warp
  | 0 => w
  | fuel + 1 =>
    match w.frame with
    | none => w
    | some f =>
      let n := w.c.depth - 1
      let c := (Table.get w.c.lc 0 n + (2 ^ 32 - 1)) % 2 ^ 32
      let w := { w with c := { w.c with lc := Table.set w.c.lc n c } }
      if c ≠ 0 then w.goto (Pos.atTarget f.start)
      else
        let w := { w with c := { w.c with depth := n, pos := Pos.atTarget f.end_ } }
        if w.atBodyEnd f.end_ then fallThrough w fuel else w

/-- Settle a position that stands at the end of a loop body; it takes no issue slot (R174). -/
def Warp.settle (w : Warp) : Warp := if w.c.pos.mode = .fell then fallThrough w 4 else w

/-- Whether the word at the position is the last of its clause (R57). -/
def Pos.isLast (p : Pos) : Bool := p.idx == p.cl.len

/-! ### Masks that become empty -/

/-- Where a warp goes on when its mask has become empty (R170). -/
inductive AfterEmpty where
  | ends
  | next
  | goes (a : Nat)
deriving DecidableEq, Repr

/-- Pop path entries that hold no live lane. -/
def popDead (live : StackEntry → Bool) : List StackEntry → List StackEntry
  | [] => []
  | e :: r => if e.path && !live e then popDead live r else e :: r

/-- The steps of R170 on the stack, top first, with fuel for the rejoin entries popped. -/
def emptySteps (live : StackEntry → Bool) (baseLive : Bool) : Nat → List StackEntry → List StackEntry × AfterEmpty
  | 0, st => (st, .ends)
  | n + 1, st =>
    let st1 := match st with
      | e :: r => if e.path then r else st
      | [] => st
    match popDead live st1 with
    | [] => ([], if baseLive then .next else .ends)
    | e :: r =>
      if e.path then (e :: r, .goes e.addr)
      else if live e then (e :: r, .goes e.addr)
      else
        match r with
        | [] => ([], if baseLive then .next else .ends)
        | _ => emptySteps live baseLive n r

/-- A warp whose active mask has become empty: it ends, goes on at the next word, or resumes a deferred path or rejoin
(R170, R171). The warp stands at the word after the instruction that emptied the mask. Its end takes it out of its handler (R429). -/
def Warp.onEmpty (w : Warp) : Warp :=
  let r := emptySteps (fun e => decide (w.liveIn e ≠ 0)) (decide (w.live ≠ 0)) (w.c.stack.length + 1) w.c.stack
  let w := { w with c := { w.c with stack := r.1 } }
  match r.2 with
  | .ends => { w with c := { w.c with ended := true, handler := .none } }
  | .next => w
  | .goes a => w.transfer a

/-- Apply R170 if an instruction took the last active lane of a warp; a handler that was entered with none goes on without
them (DESIGN CHOICE, log entry 43). -/
def Warp.checkEmpty (before after : Warp) : Warp :=
  if before.active ≠ 0 ∧ after.active = 0 then after.onEmpty else after

/-- The warp before an instruction that consumes a stream, for R170: outside a handler, where step 2 of R114 took its last lane before
the slip rule held it, the mask is empty only by that (R362) (DEDUCED, log entry 43). -/
def Warp.beforeHold (w : Warp) : Warp := if w.c.handler.isNone then { w with c := { w.c with fmask := 0 } } else w

/-! ### Convoys -/

/-- The convoy's minimum position, 0 when it has no member (R356, R359). -/
def Convoy.minpos (c : Convoy) : Nat :=
  match c.members with
  | [] => 0
  | m :: r => r.foldl (fun a x => min a x.pos) m.pos

/-- The convoy slots of a die by number. -/
def State.convoy (s : State) (d k : Nat) : Convoy := Table.get (s.die d).slots Convoy.reset k
def State.setConvoy (s : State) (d k : Nat) (c : Convoy) : State :=
  s.setDie d { s.die d with slots := Table.set (s.die d).slots k c }

/-- The slot of a die in which a stream is a member. -/
def State.memberSlot (s : State) (d : Nat) (r : WRef) (n : Nat) : Option Nat :=
  ((s.die d).slots.find? (fun c => c.2.members.any (fun m => m.w == r && m.n == n))).map (·.1)

/-- Whether an event of one tick stands after another in the order of R373. -/
def ConvoyMark.after (a b : ConvoyMark) : Bool :=
  decide (a.cls > b.cls) || (a.cls == 1 && b.cls == 1 && (decide (a.tile > b.tile) || (a.tile == b.tile && decide (a.slot > b.slot))))

/-- The mark of an event of a warp on a die at its present tick (R373). -/
def State.convoyMark (s : State) (d cls : Nat) (r : WRef) : ConvoyMark :=
  ⟨(s.die d).tick, cls, ((s.wg r.wg).map (·.tile)).getD 0, s.warpSlot r⟩

/-- An event of a convoy has happened: the last one in the order of its tick stays noted (R373). -/
def State.noteConvoy (s : State) (d k cls : Nat) (r : WRef) : State :=
  let c := s.convoy d k
  let x := s.convoyMark d cls r
  match c.mark with
  | some y => if y.tick = x.tick ∧ y.after x = true then s else s.setConvoy d k { c with mark := some x }
  | none => s.setConvoy d k { c with mark := some x }

/-- Whether an event of a convoy comes too late for this tick: one that stands after it in the order of R373 has happened in it. -/
def State.convoyPast (s : State) (d k cls : Nat) (r : WRef) : Bool :=
  match (s.convoy d k).mark with
  | some y => y.tick == (s.die d).tick && y.after (s.convoyMark d cls r)
  | none => false

/-- A hold ends: its length is counted (R506). -/
def State.holdEnded (s : State) (d : Nat) (r : WRef) (m : Member) : State :=
  match s.wg r.wg with
  | some g => s.countEvent (clusterOf g.tile) 10 ((s.die d).tick - m.hstart) 1
  | none => s

/-- A warp none of whose streams is held any more may issue its instruction again (R362). -/
def endHold (s : State) (d : Nat) (r : WRef) : State :=
  if (s.die d).slots.any (fun c => c.2.members.any (fun m => m.w == r && m.held)) then s
  else s.updWarp r (fun w => match w.c.wait with
    | .hold _ _ => { w with c := { w.c with wait := .none } }
    | _ => w)

/-- Take a stream out of its convoy, wherever on the die it is a member, and with it its hold (R362, R368); cls is the event's place in
the order of R373. -/
def State.removeMember (s : State) (d cls : Nat) (r : WRef) (n : Nat) : State :=
  match s.memberSlot d r n with
  | some k =>
    let c := s.convoy d k
    let s := c.members.foldl (fun s m => if m.w == r && m.n == n && m.held then s.holdEnded d r m else s) s
    let s := (s.setConvoy d k { c with members := c.members.filter (fun m => !(m.w == r && m.n == n)) }).noteConvoy d k cls r
    endHold s d r
  | none => s

/-- Clear or set bit n of CVM. -/
def Warp.setCvm (w : Warp) (n : Nat) (b : Bool) : Warp :=
  let bit : BitVec 8 := BitVec.ofNat 8 (2 ^ n)
  { w with sp := { w.sp with cvm := if b then w.sp.cvm ||| bit else w.sp.cvm &&& ~~~bit } }

/-- A stream leaves its convoy: removal without a detach count; its lines are no longer counted (R368, R371). -/
def leaveConvoy (s : State) (d : Nat) (r : WRef) (n : Nat) : State :=
  (s.removeMember d 1 r n).updWarp r (fun w =>
    let w := w.setCvm n false
    { w with sp := { w.sp with counted := w.sp.counted &&& ~~~BitVec.ofNat 8 (2 ^ n) } })

/-- A member is detached: it leaves, its CVM bit is cleared, and DETACH counts it (R365). -/
def detachMember (s : State) (d : Nat) (r : WRef) (n : Nat) : State :=
  (s.removeMember d 2 r n).updWarp r (fun w =>
    let w := w.setCvm n false
    { w with sp := { w.sp with detach := sat16 (w.sp.detach + 1) } })

/-- The streams of a warp that are convoy members (R38). -/
def Warp.memberStreams (w : Warp) : List Nat := (List.range 8).filter (fun n => w.sp.cvm.getLsbD n)

/-- Whether a leave or detach of all of a warp's streams comes too late for this tick (R373). -/
def State.leavesPast (s : State) (d cls : Nat) (r : WRef) : Bool :=
  match s.warp r with
  | some w => w.memberStreams.any (fun n => match s.memberSlot d r n with
    | some k => s.convoyPast d k cls r
    | none => false)
  | none => false

/-- Every stream of a warp leaves its convoy, as at the warp's end (R267, R368). -/
def leaveAll (s : State) (d : Nat) (r : WRef) : State :=
  match s.warp r with
  | some w => w.memberStreams.foldl (fun s n => leaveConvoy s d r n) s
  | none => s

/-- Every member stream of a warp is detached, as when it takes a pre-empt trap (R367). -/
def detachAll (s : State) (d : Nat) (r : WRef) : State :=
  match s.warp r with
  | some w => w.memberStreams.foldl (fun s n => detachMember s d r n) s
  | none => s

/-- A member is no longer held (R362, R368). -/
def unhold (s : State) (d : Nat) (r : WRef) : State :=
  let s := (s.die d).slots.foldl (fun s c => c.2.members.foldl (fun s m =>
    if m.w == r && m.held then s.holdEnded d r m else s) s) s
  s.setDie d { s.die d with slots := (s.die d).slots.map (fun c =>
    (c.1, { c.2 with members := c.2.members.map (fun m =>
      if m.w == r then { m with held := false, expired := false, due := [], go := false } else m) })) }

/-! ### Hardware accesses of a workgroup's areas -/

/-- The fault area of a warp (R424), and its record in the save area (R41). -/
def faultArea (g : Workgroup) (wp : Nat) : Nat := g.area + wp * 2048
def saveArea (g : Workgroup) : Nat := g.area + 32768
def warpRecord (g : Workgroup) (wp : Nat) : Nat := saveArea g + 4096 + g.spAlloc + wp * 0x8000

/-- What a hardware access of a workgroup's memory came to: done, a miss (R41, R522), or a fault. -/
inductive HwRes where
  | ok
  | miss
  | fault
deriving DecidableEq, Repr

/-- A hardware store of n bytes toward the warp's own later accesses: through translation and the line buffer
(R426, R430). A page whose walk has to wait is a miss (R300). -/
def hwStore (s : State) (g : Workgroup) (va n v : Nat) : State × HwRes :=
  if walkHeld s g.tile g.slot va then (s, .miss) else
  let r := translate s g.tile g.slot va .store
  match r.2 with
  | .ok x => (tileStore r.1 g.tile (s.asidOf g) x n v, .ok)
  | .miss => (r.1, .miss)
  | .err _ => (r.1, .fault)

/-- A run of stores, stopping at the first that fails: offset, size, value. -/
def hwStores (s : State) (g : Workgroup) (base : Nat) : List (Nat × Nat × Nat) → State × HwRes
  | [] => (s, .ok)
  | (o, n, v) :: r =>
    match hwStore s g (base + o) n v with
    | (s', .ok) => hwStores s' g base r
    | (s', e) => (s', e)

/-- A hardware load of n bytes of the warp's own memory (R428). -/
def hwLoad (s : State) (g : Workgroup) (va n : Nat) : State × Nat × HwRes :=
  if walkHeld s g.tile g.slot va then (s, 0, .miss) else
  let r := translate s g.tile g.slot va .load
  match r.2 with
  | .ok x =>
    let q := tileLoad r.1 g.tile (s.asidOf g) x n
    (q.1, q.2.1, if q.2.2 then .fault else .ok)
  | .miss => (r.1, 0, .miss)
  | .err _ => (r.1, 0, .fault)

/-- n words of 8 bytes loaded from an address on; an access that fails ends the run. -/
def hwLoadWords (s : State) (g : Workgroup) (va : Nat) : Nat → State × List Reg × HwRes
  | 0 => (s, [], .ok)
  | n + 1 =>
    match hwLoad s g va 8 with
    | (s', v, .ok) =>
      let r := hwLoadWords s' g (va + 8) n
      (r.1, BitVec.ofNat 64 v :: r.2.1, r.2.2)
    | (s', _, e) => (s', [], e)

/-- The image of a workgroup is written and read at the channel, in its context (R41, R44): one aligned access of at
most 8 bytes. A page whose walk has to wait is a miss (R300). -/
def imageRead (s : State) (g : Workgroup) (va n : Nat) : Nat × HwRes :=
  if walkHeld s g.tile g.slot va then (0, .miss) else
  match translateIo s g.slot va .load with
  | .ok x => (chanRead s x.pa n, if s.dev.badLines.contains (lineOf x.pa) then .fault else .ok)
  | .miss => (0, .miss)
  | .err _ => (0, .fault)

/-- n words of 8 bytes of an image. -/
def imageWords (s : State) (g : Workgroup) (va : Nat) : Nat → List Reg × HwRes
  | 0 => ([], .ok)
  | n + 1 =>
    match imageRead s g va 8 with
    | (v, .ok) =>
      let r := imageWords s g (va + 8) n
      (BitVec.ofNat 64 v :: r.1, r.2)
    | (_, e) => ([], e)

/-! ### Ending with error, and fills -/

/-- The tags of the fault messages that a warp waits on, for itself or for its matrix instruction (R230, R273, R434). -/
def Warp.waitTags (w : Warp) : List Nat :=
  (match w.c.wait with
    | .park tags => tags
    | .brk tag => [tag]
    | _ => []) ++ (match w.mat with
    | some m => m.tags
    | none => [])

/-- Whether a warp of a resident workgroup, or a copy, waits on a message. -/
def State.awaited (s : State) (tag : Nat) : Bool :=
  s.wgs.any (fun g => g.2.status == .resident && g.2.warps.any (fun w => w.2.waitTags.contains tag))
    || s.dev.copies.any (fun c => c.2.parked.contains tag)

/-- The messages of a workgroup that is ending are withdrawn, but for those that others wait on (R436): a reply to one is
ignored. -/
def withdraw (s : State) (g : Workgroup) : State :=
  let tags := g.warps.flatMap (fun w => w.2.waitTags)
  { s with dev := { s.dev with ring := s.dev.ring.map (fun (m : Nat × FaultMsg) =>
      if tags.contains m.2.tag && !s.awaited m.2.tag then (m.1, { m.2 with answered := true }) else m) } }

/-- A workgroup ends with error (R421): the cause, the warp that raised it, the position, and for global faults the kind
and address of the first record. An end that has begun stands. -/
def endWithError (s : State) (u cause wp pc kind : Nat) (addr : Reg) : State :=
  match s.wg u with
  | some g =>
    match g.status with
    | .resident => withdraw (s.setWg u { g with status := .error cause wp pc kind addr }) g
    | _ => s
  | none => s

/-- The tag byte of a register in a saved record is a code that a register may hold (R45). -/
def tagByteOk (b : Nat) : Bool := decide (b < 32) && fmtOk (BitVec.ofNat 5 b)

/-- The place of granule k's lanes in a warp's record (R42). -/
def granuleArea (g : Workgroup) (wp k : Nat) : Nat := warpRecord g wp + 0x800 + k * 0x800

/-- Fill vector granule k of a warp: 8 tags of the tag set that restore wrote, and 8 × 32 lanes from its record (R42, R44, R45);
none when the read faults or a tag byte fails. -/
def granuleOf (s : State) (g : Workgroup) (wp k : Nat) (tags : List Nat) : Option (List VReg) :=
  match imageWords s g (granuleArea g wp k) 256 with
  | (ws, .ok) =>
    let tag := fun m => tags.getD (8 * k + m) 0
    if (List.range 8).all (fun m => tagByteOk (tag m)) then
      some ((List.range 8).map (fun m => ⟨BitVec.ofNat 5 (tag m), (ws.drop (32 * m)).take 32⟩))
    else none
  | _ => none

/-- Fill the absent granules among the given ones; false when a fill fails (R44, R45). -/
def fillGranules (s : State) (g : Workgroup) (wp : Nat) (w : Warp) : List Nat → Warp × Bool
  | [] => (w, true)
  | k :: r =>
    if w.r.absent.contains k then
      match granuleOf s g wp k w.r.tagSet with
      | some vs =>
        let w := ((List.range 8).zip vs).foldl (fun w p => w.vset (8 * k + p.1) p.2) w
        let w := { w with r := { w.r with absent := w.r.absent.filter (fun j => j != k) } }
        fillGranules s g wp w r
      | none => (w, false)
    else fillGranules s g wp w r

/-- Fill the s-granule if it is absent (R44, R444). -/
def fillS (s : State) (g : Workgroup) (wp : Nat) (w : Warp) : Warp × Bool :=
  if w.r.sAbsent then
    match imageWords s g (warpRecord g wp) 64 with
    | (ws, .ok) =>
      let w := ((List.range 64).zip ws).foldl (fun w p => w.sset p.1 p.2) w
      ({ w with r := { w.r with sAbsent := false } }, true)
    | _ => (w, false)
  else (w, true)

/-- The lines that a read of n bytes of an image takes at their merge points (R41, R288). -/
def imageLines (s : State) (g : Workgroup) (va n : Nat) : List Nat :=
  (span (va / 128) (n / 128)).filterMap (fun l => match translateIo s g.slot (l * 128) .load with
    | .ok x => some (lineOf x.pa)
    | _ => none)

/-- The walks of a tile for n bytes of an image, but for those that have to wait (R41, R298, R300). -/
def warmImage (s : State) (g : Workgroup) (va n : Nat) : State :=
  (span (va / 4096) ((va % 4096 + n + 4095) / 4096)).foldl (fun s p =>
    if walkHeld s g.tile g.slot (p * 4096) then s else (translate s g.tile g.slot (p * 4096) .load).1) s

/-- The reads of n bytes of an image by a tile, walks among them (R44, R288, R298). -/
def fetchImage (s : State) (g : Workgroup) (va n : Nat) : State :=
  let s := warmImage s g va n
  readLines s g.tile (imageLines s g va n)

/-- The reads of some parts of an image, each an address and a length. -/
def fetchAreas (s : State) (g : Workgroup) (areas : List (Nat × Nat)) : State :=
  areas.foldl (fun s a => fetchImage s g a.1 a.2) s

/-- The parts of a warp's record that hold those of some granules that are absent. -/
def granuleAreas (g : Workgroup) (wp : Nat) (w : Warp) (ks : List Nat) : List (Nat × Nat) :=
  (ks.filter (fun k => w.r.absent.contains k)).map (fun k => (granuleArea g wp k, 2048))

/-- The part of a warp's record that holds its s-granule, if that is absent. -/
def sArea (g : Workgroup) (wp : Nat) (w : Warp) : List (Nat × Nat) :=
  if w.r.sAbsent then [(warpRecord g wp, 512)] else []

/-- The pages of n bytes of an image that miss, to which the management cores have not answered "none" (R299), and those whose walks
have to wait (R300). -/
def imageMisses (s : State) (g : Workgroup) (w : Warp) (va n : Nat) : List Nat :=
  ((span (va / 128) (n / 128)).filterMap (fun l =>
    if walkHeld s g.tile g.slot (l * 128) then some (l * 128 / 4096)
    else match translateIo s g.slot (l * 128) .load with
      | .miss => some (l * 128 / 4096)
      | _ => none)).filter (fun p => !w.nones.contains p)

/-! ### Messages of faults that the management cores can resolve -/

/-- A fault message for the ring (R435, R501). -/
def sendMessage (s : State) (m : FaultMsg) : State :=
  let d := s.dev
  { s with dev := { d with
      ring := Table.set d.ring d.ringTail { m with tag := d.nextTag }
      ringTail := d.ringTail + 1
      nextTag := (d.nextTag + 1) % 2 ^ 32 } }

/-- The message of a miss of a warp. -/
def warpMessage (s : State) (r : WRef) (g : Workgroup) (src acc page : Nat) : FaultMsg :=
  ⟨page * 4096, s.asidOf g, acc, src, 0, g.handle, g.wgix, r.wp, r.wg, clusterOf g.tile, (s.die (dieOf g.tile)).tick, false⟩

/-- The message without a reply that a miss of a page joins: one of the same context, page and cluster (R300, R434). -/
def sharedMessage (s : State) (m : FaultMsg) : Option Nat :=
  (s.dev.ring.find? (fun x => !x.2.answered && x.2.src < 3 && x.2.asid == m.asid && x.2.va == m.va
    && x.2.cluster == m.cluster)).map (fun x => x.2.tag)

/-- One message for each page, merged with those on their way, with their tags (R434) (DEDUCED, log entry 26). A page whose walk has to
wait sends none: its miss takes a place at the walker, and the access is made again (R300; DEDUCED, log entry 24). -/
def sendPages (s : State) (r : WRef) (g : Workgroup) (src acc : Nat) : List Nat → State × List Nat
  | [] => (s, [])
  | p :: ps =>
    if walkHeld s g.tile g.slot (p * 4096) then
      sendPages (listWalk s (clusterOf g.tile) (s.asidOf g) p acc) r g src acc ps
    else
    let m := warpMessage s r g src acc p
    match sharedMessage s m with
    | some tag =>
      let q := sendPages s r g src acc ps
      (q.1, tag :: q.2)
    | none =>
      let q := sendPages (sendMessage s m) r g src acc ps
      (q.1, s.dev.nextTag :: q.2)

/-! ### Taking an exception and returning from one -/

/-- The handler vectors of a warp by number: 0 fault, 1 trap, 2 cancel, 3 pre-empt (R420, R427). -/
def Warp.vector (w : Warp) (k : Nat) : Reg :=
  match k with
  | 0 => w.sp.hvFault
  | 1 => w.sp.hvTrap
  | 2 => w.sp.hvCancel
  | _ => w.sp.hvPreempt

/-- The divergence stack with entry 0 first (R42). -/
def Warp.stackUp (w : Warp) : List StackEntry := w.c.stack.reverse

/-- The address field of a stack entry: bit 0 is the kind (R166). -/
def StackEntry.field (e : StackEntry) : Nat := e.addr + (if e.path then 1 else 0)

/-- The stores of loop frames 0 to 2 from an offset on (R43), their reserved bytes zero (R8). -/
def frameStores (w : Warp) (o : Nat) : List (Nat × Nat × Nat) :=
  (List.range 3).flatMap (fun i =>
    let f := Table.get w.c.frames ⟨0, 0⟩ i
    [(o + 16 * i, 8, f.start), (o + 16 * i + 8, 8, f.len % 2 ^ 16)])

/-- The stores of stack entries from an offset on (R42), their reserved bytes zero (R8). -/
def stackStores (w : Warp) (o : Nat) : List (Nat × Nat × Nat) :=
  ((List.range w.c.stack.length).zip w.stackUp).flatMap (fun p =>
    [(o + 16 * p.1, 8, p.2.field), (o + 16 * p.1 + 8, 8, p.2.mask.toNat)])

/-- Zeros for the n reserved words of 8 bytes from an offset on (R8). -/
def zeroStores (o n : Nat) : List (Nat × Nat × Nat) := (List.range n).map (fun i => (o + 8 * i, 8, 0))

/-- The stores of the handler frame (R427), its reserved bytes zero (R8). -/
def handlerFrame (w : Warp) (k cause : Nat) (rmask : Mask) (index : Nat) : List (Nat × Nat × Nat) :=
  [(0x000, 8, cause), (0x008, 8, w.c.pos.hdr), (0x010, 1, index), (0x011, 1, 0x80 + k),
   (0x012, 1, w.c.stack.length), (0x013, 1, w.c.depth), (0x014, 4, w.active.toNat), (0x018, 4, rmask.toNat),
   (0x01C, 4, w.c.base.toNat), (0x020, 8, (w.sget 60).toNat), (0x028, 8, (w.sget 61).toNat),
   (0x030, 8, (w.sget 62).toNat), (0x038, 8, (w.sget 63).toNat), (0x040, 4, Table.get w.c.lc 0 0),
   (0x044, 4, Table.get w.c.lc 0 1), (0x048, 4, Table.get w.c.lc 0 2), (0x04C, 4, 0)]
    ++ frameStores w 0x050 ++ zeroStores 0x080 16 ++ stackStores w 0x100

/-- The stores of one fault record (R424, R425). -/
def recordStores (f : FaultRec) : List (Nat × Nat × Nat) :=
  let o := if f.lane = 32 then 0x700 else 0x300 + 32 * f.lane
  [(o, 8, f.addr.toNat), (o + 8, 8, f.pc), (o + 16, 8, f.hdr),
   (o + 24, 8, f.lane + 2 ^ 8 * f.kind + 2 ^ 16 * f.offs + 2 ^ 24 * f.typ + 2 ^ 32 * f.fkind)]

/-- The lanes whose records an entry writes (R427). -/
def recordMask (recs : List FaultRec) : Mask := maskOf (fun l => recs.any (fun f => f.lane == l))

/-- One record per place: the record of a lane that was made last (R425). -/
def lastRecords (recs : List FaultRec) : List FaultRec :=
  recs.foldl (fun acc f => acc.filter (fun g => g.lane != f.lane) ++ [f]) []

/-- The lowest-numbered record, lanes before the uniform one (R432). -/
def firstRecord (recs : List FaultRec) : Option FaultRec :=
  recs.foldl (fun a f => match a with
    | some g => if f.lane < g.lane then some f else some g
    | none => some f) none

/-- The CAUSE word of a frame (R427): code, ARG and bit U. -/
def causeWord (code arg : Nat) (uni : Bool) : Nat := code + 2 ^ 8 * (arg % 256) + (if uni then 2 ^ 16 else 0)

/-- What a warp waits for after handler entry: nothing, but for a sleep, which only a cancel or pre-empt trap ends (R279; DEDUCED, log
entry 17). -/
def Wait.entered (x : Wait) (k : Nat) : Wait :=
  match x with
  | .sleep t => if k < 2 then .sleep t else .none
  | _ => .none

/-- The warp after handler entry (R426): s60 to s63, an empty stack, no loops, the vector as target. -/
def enteredWarp (g : Workgroup) (wp : Nat) (w : Warp) (k cause : Nat) (rmask : Mask) : Warp :=
  let act := w.active
  let w := w.sset 63 (BitVec.ofNat 64 (faultArea g wp))
  let w := w.sset 62 (BitVec.ofNat 64 cause)
  let w := w.sset 61 (act.setWidth 64)
  let w := w.sset 60 (rmask.setWidth 64)
  let c := { w.c with stack := [], depth := 0, handler := some k, wait := w.c.wait.entered k }
  { w with nones := [], c := { c with pos := Pos.atTarget (w.vector k).toNat } }

/-- The page of a warp's fault area where a hardware access of it misses or has to wait for its walk, with the walk that was made; none
to which the management cores have answered "none" (R299, R300, R426, R428). -/
def areaMiss (s : State) (g : Workgroup) (wp : Nat) (w : Warp) (a : Acc) : State × List Nat :=
  let va := faultArea g wp
  let page := fun (s : State) => (s, if w.nones.contains (va / 4096) then [] else [va / 4096])
  if walkHeld s g.tile g.slot va then page s
  else
    match translate s g.tile g.slot va a with
    | (s', .miss) => page s'
    | _ => (s, [])

/-- An entry into a handler waits for pages that it misses: messages are sent, and the warp is parked with the exception kept (R299,
R434; DEDUCED, log entry 17). -/
def parkEntry (s : State) (r : WRef) (g : Workgroup) (w : Warp) (e : Entry) (fills frame : List Nat) : State :=
  let q := sendPages s r g 0 Acc.load.code fills
  let p := sendPages q.1 r g 0 Acc.store.code frame
  p.1.setWarp r { w with c := { w.c with entry := some e, wait := .park (q.2 ++ p.2) } }

/-- Handler entry at a vector that is installed (R426): fill the s-granule, write the frame and the records, and go to
the vector. Where a page of these misses, the entry waits for it like any resolvable fault (R299, R434); a frame or record write that
faults is a handler fault (R430) (DEDUCED, log entry 17). -/
def enterVector (s : State) (r : WRef) (g : Workgroup) (w : Warp) (k : Nat) (e : Entry) : State :=
  let s := fetchAreas s g (sArea g r.wp w)
  let fills := (sArea g r.wp w).flatMap (fun a => imageMisses s g w a.1 a.2)
  let frame := areaMiss s g r.wp w .store
  if !(fills ++ frame.2).isEmpty then parkEntry frame.1 r g w e fills.eraseDups frame.2 else
  let (code, arg, recs, index) := (e.code, e.arg, e.recs, e.index.getD (savedIndex s g w))
  match fillS s g r.wp w with
  | (_, false) => endWithError s r.wg 0x50 r.wp w.c.pos.place 0 0
  | (w, true) =>
    let recs := lastRecords recs
    let arg := if code = 0x10 then recs.length else arg
    let cause := causeWord code arg (recs.any (fun f => f.lane == 32))
    let rmask := recordMask recs
    let d := dieOf g.tile
    let s := if k = 3 then detachAll s d r else s
    let cvm := (s.warp r).map (fun x => x.sp)
    let w := match cvm with
      | some sp => { w with sp := { w.sp with cvm := sp.cvm, detach := sp.detach } }
      | none => w
    match hwStores s g (faultArea g r.wp) (handlerFrame w k cause rmask index ++ recs.flatMap recordStores) with
    | (s, .ok) => s.setWarp r (enteredWarp g r.wp w k cause rmask)
    | (s, _) => endWithError s r.wg 0x51 r.wp w.c.pos.place 0 0

/-- The vector that a cause enters (R420). -/
def vectorOf (code : Nat) : Nat := if code = 0x20 then 1 else if code = 0x30 then 2 else if code = 0x40 then 3 else 0

/-- The expiry of a warp's pre-emption is reported to the management cores (R440). -/
def reportExpiry (s : State) (g : Workgroup) (wp : Nat) : State :=
  { s with dev := { s.dev with expiries := s.dev.expiries ++ [⟨g.slot, g.handle, g.wgix, wp⟩] } }

/-- TAKING AN EXCEPTION (R420, R421, R426, R430, R439, R440). The warp stands at the position to be saved; index is the
INDEX its frame holds, if the position does not say it. A hold ends with the instruction not issued (R368). In a fault, trap or cancel handler the event is a handler fault; in a pre-empt handler it ends
that handler as if its bound had expired, which is reported; with no vector installed the workgroup ends with error, or, for a pre-empt,
the warp counts as done (DEDUCED, log entry 17). -/
def enterException (s : State) (r : WRef) (w : Warp) (e : Entry) : State :=
  let (code, recs) := (e.code, e.recs)
  let w := { w.settle with farFails := [], mat := w.mat.map (fun m => { m with parked := false }) }
  let w := if code = 0x20 ∨ code = 0x30 then w else w.dropPrefetch
  let s := s.setWarp r w
  let s := match s.wg r.wg with
    | some g => unhold s (dieOf g.tile) r
    | none => s
  match s.wg r.wg with
  | none => s
  | some g =>
    let k := vectorOf code
    let first := firstRecord recs
    let pc := match first with
      | some f => if code = 0x10 then f.pc else w.c.pos.place
      | none => w.c.pos.place
    match w.c.handler with
    | some 3 => reportExpiry (s.setWarp r { w with c := { w.c with sigdone := true, wait := .none } }) g r.wp
    | some _ => endWithError s r.wg 0x51 r.wp pc 0 0
    | none =>
      if w.vector k = 0 then
        if k = 3 then
          (detachAll s (dieOf g.tile) r).updWarp r (fun w =>
            { w with c := { w.c with sigdone := true, wait := .none } })
        else
          let s := endWithError s r.wg code r.wp pc ((first.map (·.kind)).getD 0) ((first.map (·.addr)).getD 0)
          if k = 2 then s.updWg r.wg (fun g => { g with cancelled := true }) else s
      else enterVector s r g w k e

/-- An exception is taken for the first time: the pages that were answered "none" have had their effect. -/
def takeException (s : State) (r : WRef) (w : Warp) (code arg : Nat) (recs : List FaultRec) (index : Option Nat) : State :=
  enterException s r { w with nones := [] } ⟨code, arg, recs, index⟩

/-- A precise trap of the instruction at the position (R420, codes 0x01 to 0x0C): the instruction has no effect, and
the position saved is its own. -/
def preciseTrap (s : State) (r : WRef) (w : Warp) (code : Nat) : State :=
  takeException s r w code 0 [] none

/-- The trap of R58: the word at the position is no header for a warp to stand at; INDEX is 0xFF. -/
def targetTrap (s : State) (r : WRef) (w : Warp) : State := takeException s r w 0x01 0 [] (some 0xFF)

/-- The stack of a frame, with entry i from its two words; none when bit 1 of an address is set (R166, R428). -/
def stackOfFrame (ws : List Reg) : Nat → Option (List StackEntry)
  | 0 => some []
  | n + 1 =>
    match stackOfFrame ws n with
    | some st =>
      let a := (ws.getD (2 * n) 0).toNat
      if (a / 2) % 2 = 1 then none
      else some (⟨decide (a % 2 = 1), a - a % 4, (ws.getD (2 * n + 1) 0).setWidth 32⟩ :: st)
    | none => none

/-- The fields of a frame that TRET restores (R428): 96 words of the frame from its start, if they break no rule of
R43, R166 or R176 and INDEX is legal. -/
def restoreFrame (w : Warp) (ws : List Reg) : Option Warp :=
  let word := fun i => ws.getD i 0
  let index := fieldOf (word 2) 0 8
  let depth := fieldOf (word 2) 16 8
  let ldepth := fieldOf (word 2) 24 8
  let frame := fun i => LoopFrame.mk (word (10 + 2 * i)).toNat (fieldOf (word (11 + 2 * i)) 0 16)
  let framesOk := (List.range ldepth).all (fun i => decide (2 ≤ (frame i).len) && decide ((frame i).len ≤ 256))
  if (index > 7 ∧ index ≠ 0xFF) ∨ depth > 32 ∨ ldepth > 3 ∨ framesOk = false then none
  else
    match stackOfFrame (ws.drop 32) depth with
    | none => none
    | some st =>
      let w := w.sset 60 (word 4)
      let w := w.sset 61 (word 5)
      let w := w.sset 62 (word 6)
      let w := w.sset 63 (word 7)
      let lc := [(0, fieldOf (word 8) 0 32), (1, fieldOf (word 8) 32 32), (2, fieldOf (word 9) 0 32)]
      let pos := if index = 0xFF then ⟨(word 1).toNat, 0, .trap, .none⟩
        else ⟨(word 1).toNat, index, .flow, .none⟩
      let frames := [(0, frame 0), (1, frame 1), (2, frame 2)]
      let c := { w.c with stack := st, depth := ldepth, lc := lc, frames := frames }
      some { w with c := { c with lbuf := [], handler := none, pos := pos },
                    outs := w.outs.map (fun o => { o with inHandler := false }), posted := w.posted.map (fun p => (false, p.2)) }

/-- A warp that resumes with no active lane acts as R170 gives (R170, R171, R428). -/
def Warp.resumeEmpty (w : Warp) : Warp := if w.active = 0 ∧ (w.c.stack ≠ [] ∨ w.live = 0) then w.onEmpty else w

/-- RETURNING FROM AN EXCEPTION (R428): read the frame and restore from it, then apply R170 to the restored stack; from a
cancel handler every live lane exits and the warp ends. A frame whose page misses parks the warp, TRET not issued (R429, R434); one
that breaks its rules, or cannot be read, is a handler fault. A position whose INDEX is 0xFF traps again under R58 when the warp would issue there, after what is due before it (R431).
What the handler had issued is from now on work of before (R423). -/
def returnFromException (s : State) (r : WRef) (w : Warp) (k : Nat) : State :=
  match s.wg r.wg with
  | none => s
  | some g =>
    if k = 2 then
      let s := leaveAll s (dieOf g.tile) r
      let c := { w.c with exited := w.c.exited ||| w.live, ended := true, handler := none }
      s.setWarp r { w with sp := { w.sp with cvm := 0 }, c := c }
    else
      let miss := areaMiss s g r.wp w .load
      if !miss.2.isEmpty then
        let q := sendPages miss.1 r g 0 Acc.load.code miss.2
        q.1.setWarp r { w with c := { w.c with wait := .park q.2 } }
      else
      match hwLoadWords s g (faultArea g r.wp) 96 with
      | (s, ws, .ok) =>
        match restoreFrame w ws with
        | none => endWithError s r.wg 0x51 r.wp w.c.pos.place 0 0
        | some w' =>
          let w := { w'.resumeEmpty with nones := [] }
          if w.c.ended then leaveAll (s.setWarp r w) (dieOf g.tile) r else s.setWarp r w
      | (s, _, _) => endWithError s r.wg 0x51 r.wp w.c.pos.place 0 0

/-! ### Runners -/

/-- The issuing warp with its workgroup. -/
def State.current (s : State) : Option (WRef × Workgroup × Warp) :=
  match s.cur with
  | some r =>
    match s.wg r.wg with
    | some g =>
      match g.warp r.wp with
      | some w => some (r, g, w)
      | none => none
    | none => none
  | none => none

/-- Whether a workgroup's warps may still take part in anything: one that is ending with error has stopped (R421), and so has one
that is discarded (R442). -/
def Workgroup.live (g : Workgroup) : Bool := g.status == .resident && !g.discard

/-- Whether a warp is in a handler: from entry to TRET, SIGDONE or its end (R429). -/
def WarpCtl.inHandler (c : WarpCtl) : Bool := c.handler.isSome && !c.ended && !c.sigdone

/-- Whether a warp is parked on resolvable faults, its own or its matrix instruction's (R230, R434). -/
def Warp.parked (w : Warp) : Bool := w.matParked || (match w.c.wait with
  | .park _ => true
  | _ => false)

/-- Whether an event is pending that the warp takes at this boundary (R429, R431). -/
def Warp.due (w : Warp) : Bool :=
  w.c.handler.isNone && (w.c.entry.isSome || !w.c.recs.isEmpty || w.c.trapNo.isSome || w.c.cancelReq || w.c.preReq)

/-- Whether a warp takes an event now: a parked one leaves its park for a pre-empt or cancel request alone (R436), and not while an
entry waits for its pages (DEDUCED, log entry 17). -/
def Warp.takes (w : Warp) : Bool := w.due && (!w.parked || (w.c.entry.isNone && (w.c.cancelReq || w.c.preReq)))

/-- Whether a global fault is known that the warp takes at this boundary (R423). -/
def Warp.faultDue (w : Warp) : Bool := w.takes && (w.c.entry.isSome || !w.c.recs.isEmpty)

/-- Whether the swap of a tile is still in its quiesce (R413). -/
def State.quiescing (s : State) (t : Nat) : Bool :=
  match (s.cluster (clusterOf t)).swap with
  | some x => x.phase == .quiesce
  | none => false

/-- Whether a warp can neither issue nor retire: it is parked for a matrix instruction (R230), or its tile is in a swap
(R412). -/
def State.frozen (s : State) (r : WRef) : Bool :=
  match s.wg r.wg, s.warp r with
  | some g, some w => w.matParked || s.swapping g.tile
  | _, _ => true

/-- Run a meaning on the issuing warp; a word without one is a fault of the model (Fault.noWarp). -/
def withCurrent (s : State) (f : WRef → Workgroup → Warp → State) : Host.Outcome State Fault Refusal :=
  match s.current with
  | some (r, g, w) => .next (f r g w)
  | none => .fault .noWarp

/-- What an instruction does to its warp alone: it retires, transfers, or takes a precise trap. -/
inductive WRes where
  /-- Retire, and go on at the next word. -/
  | ok (w : Warp)
  /-- Retire, the position already set. -/
  | moved (w : Warp)
  /-- A precise trap with a cause code; the warp is as it was, but for lanes that step 2 of R114 switched off. -/
  | trap (code : Nat) (w : Warp)
deriving DecidableEq, Repr

/-- The position of the instruction, for fault records (R425). -/
def Warp.pcOf (w : Warp) : Nat := w.c.pos.word

/-- A fault record of the instruction at the position. -/
def Warp.record (w : Warp) (lane : Nat) (addr : Reg) (kind typ fkind : Nat) : FaultRec :=
  ⟨lane, addr, w.pcOf, w.c.pos.hdr, kind, w.c.pos.idx, typ, fkind⟩

/-- Retirement: the warp goes on at the next word unless the instruction moved it, R170 is applied if its mask became
empty, and a warp that ends leaves its convoys (R171, R267). The warp's place in the least-recently-issued order is
taken (R404). -/
def retire (s : State) (r : WRef) (g : Workgroup) (before after : Warp) (moved : Bool) : State :=
  let w := if moved then after else after.advance
  let w := Warp.checkEmpty before w
  let w := { w with lastIssue := s.issues, nones := [], farFails := [], c := { w.c with wait := .none } }
  let s := { s with issues := s.issues + 1 }
  let s := s.setWarp r w
  if w.c.ended then leaveAll s (dieOf g.tile) r else s

/-- Retire an instruction that met global faults in some lanes, and enter the fault handler at the boundary that
follows (R423): one record per lane, and the uniform record. A warp that has ended takes nothing. -/
def retireWithRecords (s : State) (r : WRef) (g : Workgroup) (before after : Warp) (moved : Bool)
    (recs : List FaultRec) : State :=
  let s := retire s r g before after moved
  match recs, s.warp r with
  | [], _ => s
  | _, some w =>
    if w.c.ended then s
    else takeException s r w 0x10 recs.length recs none
  | _, none => s

end Sys2Proof.Machine
end

