-- ==== Sys2Proof/Machine/Interlock.lean ====
section
/-! DEFINITION. Which registers an instruction names, and the interlocks that hold a warp at issue (R22, R56, R94, R224,
R238, R243, R245, R257, R310). A stalled instruction has not issued: nothing of the state changes. -/

namespace Sys2Proof.Machine

/-- The vector operand codes that an instruction names (R63). -/
def vecCodes : Instr → List (BitVec 7)
  | .vaddRrr d a b _ | .vsubRrr d a b _ | .vmulRrr d a b _ | .vmulh d a b _ | .vmad d a b _ | .vaddsat d a b _
  | .vsubsat d a b _ | .vmin d a b _ | .vmax d a b _ | .vandRrr d a b _ | .vorRrr d a b _ | .vxor d a b _
  | .vandn d a b _ | .vshlRrr d a b _ | .vshrRrr d a b _ | .vsarRrr d a b _ | .vrol d a b _ | .vsel d a b _
  | .vamin d a b _ | .vamax d a b _ | .vfaddRrr d a b _ | .vfsub d a b _ | .vfmulRrr d a b _ | .vfma d a b _
  | .vfmin d a b _ | .vfmax d a b _ => [d, a, b]
  | .vabs d a _ | .vneg d a _ | .vnot d a _ | .vclz d a _ | .vpopc d a _ | .vbrev d a _ | .vbfx d a _ _
  | .vbfi d a _ _ | .vmov d a _ | .vfabs d a _ | .vfneg d a _ | .vfrcp d a _ | .vfrsq d a _ | .vfsqrt d a _
  | .vfex2 d a _ | .vflg2 d a _ | .vfsin d a _ | .vfcos d a _ | .vfclass d a _ | .vcvt d a _ _ _
  | .vcvts d a _ _ | .vtag d a _ _ | .vpack d a _ _ _ | .vunpk d a _ _ _ | .vaddRrs d a _ _ | .vsubRrs d a _ _
  | .vmulRrs d a _ _ | .vandRrs d a _ _ | .vorRrs d a _ _ | .vshlRrs d a _ _ | .vshrRrs d a _ _
  | .vsarRrs d a _ _ | .vfaddRrs d a _ _ | .vfmulRrs d a _ _ | .vshuf d a _ _ _ | .vshufi d a _ _ _
  | .vlsh d a _ _ _ _ | .vbcst d a _ _ _ | .vred d a _ _ | .vscan d a _ _ _ | .vcav d a _ _ | .vsubel d a _
  | .vxswap d a _ _ => [d, a]
  | .vcmp _ _ _ a b _ | .vfcmp _ _ _ a b _ => [a, b]
  | .vmovs d _ _ _ | .vballot d _ _ => [d]
  | .vld d b _ _ _ | .vst d b _ _ _ | .vatom d b _ _ _ | .vcas d b _ _ _ | .vlds d b _ _ _ | .vsts d b _ _ _
  | .vatoms d b _ _ _ => [d, b]
  | .vprf b _ _ => [b]
  | .slane _ v _ => [v]
  | .xset _ a _ => [a]
  | .mma _ _ _ _ _ | .mmt _ _ _ _ _ | .mzero _ _ _ => []
  | _ => []

/-- The width of an accumulator by its code (R221). -/
def accWidth (n : BitVec 2) : Nat := 16 * 2 ^ n.toNat

/-- The vector registers that an instruction names beside its operand codes: accumulators (R33), the pair of VCAS
(R193) and the destination of SRD.V (R271). -/
def extraRegs : Instr → List Nat
  | .mma _ _ _ v n => span v.toNat (accWidth n)
  | .mmt _ _ _ v _ => span v.toNat 64
  | .mzero v n _ => span v.toNat (accWidth n)
  | .vcas d _ t _ _ => if fmtWidth t = 64 then [d.toNat + 1] else []
  | .srdV d h _ => [h.toNat * 64 + d.toNat]
  | _ => []

/-- Every vector register that an instruction names under an execution mask (R44, R114). -/
def vecNames (w : Warp) (m : Mask) (i : Instr) : List Nat :=
  (vecCodes i).flatMap (fun c => (opdOf c).names w m) ++ extraRegs i

/-- The s-register of an L-RRS operand, if it is one (R112). -/
def rrsNames (b : BitVec 7) : List Nat := if b.toNat < 64 then [b.toNat] else []

/-- The length of the operand record of MMA (R216, R219). -/
def mmaRecordLen (w : Warp) (s : Nat) : Nat := if fieldOf (w.sget (s + 3)) 26 1 = 1 then 6 else 4

/-- The length of the operand record of MMT (R234). -/
def mmtRecordLen (w : Warp) (s : Nat) : Nat := if fieldOf (w.sget (s + 3)) 26 1 = 1 then 7 else 5

/-- The s-registers that an instruction names, reads and writes alike; TRET writes s60 to s63, but for that of a cancel handler
(R428). -/
def uniNames (w : Warp) : Instr → List Nat
  | .sadd d a b | .ssub d a b | .smul d a b | .smulh d a b | .smulhU d a b | .sdiv d a b | .sdivU d a b
  | .srem d a b | .sremU d a b | .sand d a b | .sor d a b | .sxor d a b | .sshl d a b | .sshr d a b
  | .ssar d a b | .smin d a b | .sminU d a b | .smax d a b | .smaxU d a b | .ssel d a b | .scmp d a b _
  | .satom d a b _ _ | .scas d a b _ => [d.toNat, a.toNat, b.toNat]
  | .snot d a | .smov d a | .saddImm d a _ | .sandImm d a _ | .sorImm d a _ | .sxorImm d a _ | .sshlImm d a _
  | .sshrImm d a _ | .ssarImm d a _ | .sld d a _ _ _ _ | .sst d a _ _ _ | .acq d a _ | .rel d a _
  | .publish d a _ | .mscale d a _ | .tbinit d a | .tbexp d a _ _ _ | .tbarr d a _ _ | .tbwait d a
  | .cvjoin d a _ | .cvslip d a | .cvrejoin d a _ | .setperf d a | .waitc d a | .cancel d a _ => [d.toNat, a.toNat]
  | .smovi d _ | .slane d _ _ | .spredGet d _ | .spredAct d | .brasNz d _ | .brasZ d _ | .call d _
  | .loop d _ _ | .ldlW d _ | .ldlD d _ | .stsave d _ _ | .grd d _ | .qpop d _ | .qlen d _ | .cvleave d _
  | .srd d _ => [d.toNat]
  | .spredSet a _ | .ret a | .xwin a | .stpos a _ | .stskip a _ | .gwr a _ | .qbind a _ | .qpush a _ | .swr a _
  | .region a _ | .sleep a => [a.toNat]
  | .gatom d _ b _ => [d.toNat, b.toNat]
  | .tret => if w.c.handler.isNone || w.c.handler == some 2 then [] else span 60 4
  | .vbfx _ _ b _ | .vbfi _ _ b _ | .vmovs _ _ b _ | .vaddRrs _ _ b _ | .vsubRrs _ _ b _ | .vmulRrs _ _ b _
  | .vandRrs _ _ b _ | .vorRrs _ _ b _ | .vshlRrs _ _ b _ | .vshrRrs _ _ b _ | .vsarRrs _ _ b _ | .vfaddRrs _ _ b _
  | .vfmulRrs _ _ b _ | .xadd _ _ b _ => rrsNames b
  | .vsubel _ _ s => [s.toNat]
  | .vxswap _ _ _ s => [s.toNat, s.toNat + 1]
  | .stset a _ => span a.toNat 4
  | .qpushv a n _ => span a.toNat (n.toNat + 1)
  | .qtry d _ => [d.toNat, d.toNat + 1]
  | .qsteal d a => [d.toNat, d.toNat + 1, a.toNat]
  | .mma _ s _ _ _ => span s.toNat (mmaRecordLen w s.toNat)
  | .mmt _ s _ _ _ => span s.toNat (mmtRecordLen w s.toNat)
  | .cpy t r b v | .cpc t r b v => t.toNat :: (span r.toNat 3 ++ if v = 1 then [b.toNat] else [])
  | .cpt t r b v | .cpr t r b v | .cpx t r b v => t.toNat :: (span r.toNat 4 ++ if v = 1 then [b.toNat] else [])
  | _ => []

/-- The s-registers that an instruction writes (R224), TRET among them (R428). -/
def uniWrites (w : Warp) : Instr → List Nat
  | .sadd d _ _ | .ssub d _ _ | .smul d _ _ | .smulh d _ _ | .smulhU d _ _ | .sdiv d _ _ | .sdivU d _ _ | .srem d _ _
  | .sremU d _ _ | .sand d _ _ | .sor d _ _ | .sxor d _ _ | .sshl d _ _ | .sshr d _ _ | .ssar d _ _ | .smin d _ _
  | .sminU d _ _ | .smax d _ _ | .smaxU d _ _ | .ssel d _ _ | .scmp d _ _ _ | .satom d _ _ _ _ | .scas d _ _ _
  | .snot d _ | .smov d _ | .saddImm d _ _ | .sandImm d _ _ | .sorImm d _ _ | .sxorImm d _ _ | .sshlImm d _ _
  | .sshrImm d _ _ | .ssarImm d _ _ | .sld d _ _ _ _ _ | .acq d _ _ | .publish d _ _ | .mscale d _ _ | .tbarr d _ _ _
  | .cvjoin d _ _ | .cvslip d _ | .cvrejoin d _ _ | .setperf d _ | .cancel d _ _ | .smovi d _ | .slane d _ _
  | .spredGet d _ | .spredAct d | .call d _ | .ldlW d _ | .ldlD d _ | .stsave d _ _ | .grd d _ | .qpop d _ | .qlen d _
  | .cvleave d _ | .srd d _ | .gatom d _ _ _ => [d.toNat]
  | .tret => if w.c.handler.isNone || w.c.handler == some 2 then [] else span 60 4
  | .qtry d _ | .qsteal d _ => [d.toNat, d.toNat + 1]
  | .cpy t _ _ _ | .cpt t _ _ _ | .cpr t _ _ _ | .cpx t _ _ _ | .cpc t _ _ _ => [t.toNat]
  | _ => []

/-- The predicate that an instruction writes (R121, R161). -/
def predWritten : Instr → Option Nat
  | .vcmp q _ _ _ _ _ => some q.toNat
  | .vfcmp q _ _ _ _ _ => some q.toNat
  | .spredSet _ k => some k.toNat
  | _ => none

/-- The flag that an FS bit selects: SETA or SETB of the clause in force (R54). -/
def Warp.flagOf (w : Warp) (fs : BitVec 1) : Nat := if fs = 0 then w.c.pos.cl.seta.toNat else w.c.pos.cl.setb.toNat

/-- The FS bit of a long-latency instruction (R54). -/
def fsOf : Instr → Option (BitVec 1)
  | .vld _ _ _ f _ | .vst _ _ _ f _ | .vatom _ _ _ f _ | .vcas _ _ _ f _ | .vlds _ _ _ f _ | .vsts _ _ _ f _
  | .vatoms _ _ _ f _ => some f
  | .vprf _ f _ => some f
  | .sld _ _ f _ _ _ => some f
  | .sst _ _ f _ _ => some f
  | .mma _ _ f _ _ => some f
  | .mmt _ _ f _ _ => some f
  | .satom _ _ _ f _ => some f
  | .scas _ _ _ f => some f
  | _ => none

/-- The flag whose count the issue of an instruction raises: that of FS, or MROW.FLAG where SWR starts a resumption (R22, R232). -/
def countsFlag (w : Warp) (i : Instr) : Option Nat :=
  match i with
  | .swr a n => if n = 0x0D#6 ∧ (w.sget a.toNat).getLsbD 63 then some (fieldOf (w.sget a.toNat) 56 4) else none
  | _ => (fsOf i).map w.flagOf

/-- Whether the issue of an instruction would raise a completion flag to 64 (R22). -/
def flagFull (w : Warp) (i : Instr) : Bool :=
  match countsFlag w i with
  | some f => decide (f < 12) && decide (w.flag f ≥ 63)
  | none => false

/-- Whether an instruction names a register that an outstanding operation will write (R56). -/
def destBusy (w : Warp) (i : Instr) : Bool :=
  let vs := vecNames w w.active i
  let ss := uniNames w i
  w.outs.any (fun o => o.vregs.any (fun n => vs.contains n) || o.sregs.any (fun n => ss.contains n))

/-- Whether an instruction names the token register of a copy of the warp that has not ended (R243). -/
def tokenBusy (s : State) (r : WRef) (w : Warp) (i : Instr) : Bool :=
  let ss := uniNames w i
  s.dev.copies.any (fun c => c.2.w == r && ss.contains c.2.tok)

/-- The stalls of R224 while a matrix instruction of the warp is outstanding. -/
def matrixBusy (w : Warp) (i : Instr) : Bool :=
  match w.mat with
  | none => false
  | some m =>
    (uniWrites w i).any (fun d => decide (m.srec ≤ d) && decide (d < m.srec + m.words.length))
      || (match predWritten i with | some k => decide (k = m.pk) | none => false)
      || (match i with
        | .mma _ _ _ _ _ => true
        | .mmt _ _ _ _ _ => true
        | .srd _ n => decide (n = 0x0D)
        | .srdV _ _ n => decide (n = 0x0D)
        | .swr _ n => decide (n = 0x0D)
        | _ => false)

/-- The stall of R94: FSTAT is read or written only when no operation that can raise flags is outstanding. -/
def fstatBusy (w : Warp) (i : Instr) : Bool :=
  w.outs.any (·.fp) && (match i with
    | .srd _ n => decide (n = 0x0B)
    | .srdV _ _ n => decide (n = 0x0B)
    | .swr _ n => decide (n = 0x0B)
    | _ => false)

/-- Whether a queue that the instruction would join is full: the engine's (R238), the streamer's (R245), the warp's
batches (R257). -/
def queueFull (s : State) (g : Workgroup) (w : Warp) (i : Instr) : Bool :=
  match i with
  | .mma _ _ _ _ _ => decide (((s.tile g.tile).engine.filter (fun j => match j with
      | .mma _ => true
      | .team _ => false)).length ≥ 4)
  | .cpy _ _ _ _ | .cpt _ _ _ _ | .cpr _ _ _ _ | .cpx _ _ _ _ | .cpc _ _ _ _ =>
    decide ((s.tile g.tile).copies.length ≥ 64)
  | .cpclose => w.joined && decide (w.batches.length ≥ 16)
  | .cpwait _ => w.joined && decide (w.batches.length ≥ 16)
  | _ => false

/-- The ordering points, and the instructions that act as one (R263, R309). -/
def ordering : Instr → Bool
  | .fence _ _ | .acq _ _ _ | .rel _ _ _ | .publish _ _ _ | .waitc _ _ => true
  | .bar => true
  | .gbar => true
  | .tbinit _ _ | .tbarr _ _ _ _ | .tbwait _ _ => true
  | .tbexp _ _ _ _ _ => true
  | _ => false

/-- An ordering point completes only when every earlier access of the warp has returned (R263, R310) (DEDUCED, log entry 20). -/
def orderBusy (w : Warp) (i : Instr) : Bool :=
  ordering i && w.outs.any (fun o => match w.mat with
      | some m => o.id != m.opId
      | none => true)

/-- The writes of group register k that a GRD at a cycle of the tile does not see yet, oldest first (R29). -/
def Workgroup.fresh (g : Workgroup) (now : Reg) (k : Nat) : List GroupWrite :=
  (Table.get g.recent [] k).filter (fun x => decide ((now - x.at_).toNat < 2))

/-- The releases that complete only when the warp's own earlier writes of group registers are applied: those at workgroup scope and wider
(R198, R316, R319). -/
def releases : Instr → Bool
  | .fence k sc => k != 1#2 && decide (2 ≤ sc.toNat)
  | .publish _ _ sc => decide (2 ≤ sc.toNat)
  | .bar => true
  | .gbar => true
  | .tbinit _ _ | .tbarr _ _ _ _ => true
  | .tbexp _ _ _ _ _ => true
  | _ => false

/-- What waits for writes of group registers to be applied: a GRD or GATOM for the warp's own of its register (R312), a release for all
the warp's own (R319), and a write for those of its cycle by warps of a higher index, since writes of one cycle are applied in
ascending warp index (R29, R206). -/
def groupBusy (s : State) (r : WRef) (g : Workgroup) (i : Instr) : Bool :=
  let now := (s.tile g.tile).cycle
  let own := fun (k : Nat) => (g.fresh now k).any (fun x => x.wp == r.wp)
  let later := fun (k : BitVec 4) => (g.fresh now k.toNat).any (fun x => x.at_ == now && decide (r.wp < x.wp))
  match i with
  | .grd _ k => own k.toNat
  | .gwr _ k => later k
  | .gatom _ k _ _ => own k.toNat || later k
  | i => releases i && (List.range 16).any own

/-- The convoy slots that an instruction acts on, each with its place in the order of R373: joins, leaves and set streams, what may end
its warp, which then leaves its convoys (an EXIT, a TRET, an index window that takes its last lanes), and the streams that operands
consume. -/
def convoyEvents (s : State) (d : Nat) (r : WRef) (w : Warp) (i : Instr) : List (Nat × Nat) :=
  let at_ := fun (cls n : Nat) => ((s.memberSlot d r n).map (fun k => (k, cls))).toList
  let all := w.memberStreams.flatMap (at_ 1)
  match i with
  | .exit => all
  | .tret => all
  | .cvjoin _ a _ => [(fieldOf (w.sget a.toNat) 0 8, 1)]
  | .cvrejoin _ a _ => [(fieldOf (w.sget a.toNat) 0 8, 1)]
  | .cvleave _ n => at_ 1 n.toNat
  | .stset _ n => at_ 1 n.toNat
  | .stpos _ n => at_ 1 n.toNat
  | .stskip _ n => at_ 1 n.toNat
  | i => (vecCodes i).flatMap (fun c => match opdOf c with
    | .stream n => at_ 0 n
    | .idx _ => all
    | _ => [])

/-- An event of a convoy waits for the next tick where one that stands after it in the order of R373 has happened in this one. -/
def convoyLate (s : State) (r : WRef) (g : Workgroup) (w : Warp) (i : Instr) : Bool :=
  let d := dieOf g.tile
  (convoyEvents s d r w i).any (fun e => s.convoyPast d e.1 e.2 r)

/-- Whether the instruction stalls at issue (DEDUCED, log entry 20). -/
def stalls (s : State) (r : WRef) (g : Workgroup) (w : Warp) (i : Instr) : Bool :=
  orderBusy w i || flagFull w i || destBusy w i || tokenBusy s r w i || matrixBusy w i || fstatBusy w i || queueFull s g w i
    || groupBusy s r g i || convoyLate s r g w i

end Sys2Proof.Machine
end

