-- ==== Sys2Proof/Machine/Consume.lean ====
section
/-! DEFINITION. Consumption of stream vectors (R25-R27, R115, R183, R204) under the slip rule of convoys (R361-R364), and
the addresses and faults of a lane's access (R184). -/

namespace Sys2Proof.Machine

/-- What a lane's global access comes to under R184. -/
inductive LaneAcc where
  | ok (x : Xlated)
  /-- A miss that the management cores decide, or that waits for its walk: the page (R299, R300). -/
  | miss (page : Nat)
  /-- A global fault of a kind of R425. -/
  | bad (kind : Nat)
deriving DecidableEq, Repr

/-- The checks of R184 for a global access of z bytes at an exact address. -/
def checkAccess (s : State) (g : Workgroup) (w : Warp) (a : Acc) (addr : Int) (z : Nat) : State × LaneAcc :=
  if addr < 0 ∨ addr ≥ 2 ^ 48 then (s, .bad 1)
  else
    let va := addr.toNat
    if va % z ≠ 0 then (s, .bad 2)
    else
      if walkHeld s g.tile g.slot va then (s, .miss (va / 4096)) else
      let r := translate s g.tile g.slot va a
      match r.2 with
      | .ok x => (r.1, .ok x)
      | .miss => (r.1, if w.nones.contains (va / 4096) then .bad 3 else .miss (va / 4096))
      | .err k => (r.1, .bad k)

/-- The checks of a list of accesses in order. -/
def checkAll (s : State) (g : Workgroup) (w : Warp) (a : Acc) (z : Nat) :
    List (Nat × Int) → State × List (Nat × Int × LaneAcc)
  | [] => (s, [])
  | (l, addr) :: r =>
    let c := checkAccess s g w a addr z
    let q := checkAll c.1 g w a z r
    (q.1, (l, addr, c.2) :: q.2)

/-- The distinct pages among the misses (R434). -/
def missPages (cs : List (Nat × Int × LaneAcc)) : List Nat :=
  cs.foldl (fun acc c => match c.2.2 with
    | .miss p => if acc.contains p then acc else acc ++ [p]
    | _ => acc) []

/-- A resolvable fault parks the warp before the instruction has any effect, with one message for each page (R185,
R434). Whether a park is a fault taken by the warp, which R27 has discard its prefetched vectors, the spec leaves open: they stay, and only
a handler's entry discards them (DESIGN CHOICE, log entry 17). -/
def parkOn (s : State) (r : WRef) (g : Workgroup) (w : Warp) (a : Acc) (pages : List Nat) : State :=
  let q := sendPages s r g 0 a.code pages
  q.1.setWarp r { w with c := { w.c with wait := .park q.2 } }

/-- The address of element e of a stream, exact (R25). -/
def Stream.addr (x : Stream) (e : Nat) : Int :=
  let ic := fieldOf x.w1 0 32
  (fieldOf x.w0 0 48 : Int) + ((e % ic : Nat) : Int) * x.w2.toInt + ((e / ic : Nat) : Int) * x.w3.toInt

/-- Fields of a stream (R24). -/
def Stream.icount (x : Stream) : Nat := fieldOf x.w1 0 32
def Stream.ocount (x : Stream) : Nat := fieldOf x.w1 32 32
def Stream.tag (x : Stream) : BitVec 5 := BitVec.ofNat 5 (fieldOf x.w0 48 5)
def Stream.depth (x : Stream) : Nat := fieldOf x.w0 53 3
def Stream.pos (x : Stream) : Nat := fieldOf x.w4 0 32
def Stream.size (x : Stream) : Nat := fmtWidth x.tag / 8

/-- The lanes of a mask whose element lies before the end of the stream, with their addresses (R26). -/
def Stream.reads (x : Stream) (m : Mask) (p : Nat) : List (Nat × Int) :=
  (lanesIn m).filterMap (fun l =>
    let e := p * 32 + l
    if e < x.icount * x.ocount then some (l, x.addr e) else none)

/-- The tile's line holds all n bytes of an access of a context through a range index (R284, R285, R334): a line that carries
another index, or that another context filled (DEDUCED, log entry 42), serves nothing. -/
def servedByLine (s : State) (t asid : Nat) (x : Xlated) (n : Nat) : Bool :=
  !x.direct && (match (s.tile t).line (lineOf x.pa) with
    | some l => l.rix == x.rix && l.asid == asid && decide (spanMask (x.pa % 128) n &&& ~~~l.valid = 0)
    | none => false)

/-- The value of one stream element (R26, R285): the tile's dirty bytes are merged, whatever the mapping (R183). -/
def streamValue (s : State) (t asid : Nat) (x : Xlated) (z : Nat) : Reg :=
  let d := engineLine s t (lineOf x.pa)
  if servedByLine s t asid x z then
    match (s.tile t).line (lineOf x.pa) with
    | some l => BitVec.ofNat 64 (lineBytes l.data (x.pa % 128) z)
    | none => 0
  else BitVec.ofNat 64 (lineBytes d (x.pa % 128) z)

/-- The lines that a vector fetches from the Wadi: those not served by the line buffer, each once. -/
def fetchLines (s : State) (t asid z : Nat) (cs : List (Nat × Int × LaneAcc)) : List Nat :=
  cs.foldl (fun acc c => match c.2.2 with
    | .ok x => if servedByLine s t asid x z || acc.contains (lineOf x.pa) then acc else acc ++ [lineOf x.pa]
    | _ => acc) []

/-- A faulting element's kind: the failed check, or a data error of its line, unless the line buffer serves it
(R184, R186, R285). -/
def elementFault (s : State) (t asid z : Nat) (c : LaneAcc) : Option Nat :=
  match c with
  | .bad k => some k
  | .ok x => if s.dev.badLines.contains (lineOf x.pa) && !servedByLine s t asid x z then some 6 else none
  | .miss _ => none

/-- Whether a request of a lane that leaves the device meets an error completion, and the kind of its fault (R449). -/
def Warp.farFault (w : Warp) (x : Xlated) (lane va : Nat) : Option Nat :=
  if spaceOf x.pa = 1 then (w.farFails.find? (fun f => f.1 == lane && f.2.1 == va)).map (fun f => f.2.2) else none

/-- The next request of a lane and an address that leaves the device meets an error completion (R449): a vector that was prefetched from
the address is dropped. -/
def Warp.farFail (w : Warp) (lane va kind : Nat) : Warp :=
  let holds := fun (x : Stream) (v : PreVec) => x.addr (v.at_ * 32 + lane) == (va : Int)
  { w with
    farFails := (lane, va, kind) :: w.farFails
    r := { w.r with st := w.r.st.map (fun c => (c.1, { c.2 with pre := c.2.pre.filter (fun v => !holds c.2 v) })) } }

/-- A faulting element's kind for the lane of a warp: that of elementFault, or of an error completion (R449). -/
def laneFault (s : State) (t asid z : Nat) (w : Warp) (c : Nat × Int × LaneAcc) : Option Nat :=
  (elementFault s t asid z c.2.2).or (match c.2.2 with
    | .ok x => w.farFault x c.1 c.2.1.toNat
    | _ => none)

/-- Fetch lines at their merge points, counting them for a counted stream, those that wait there once they have their place
(R290, R371). -/
def fetchCounted (s : State) (r : WRef) (t : Nat) (w : Warp) (n : Nat) : List Nat → State × Warp
  | [] => (s, w)
  | line :: ls =>
    let q := mergeFor s t line (if w.sp.counted.getLsbD n then some (r, n) else none)
    fetchCounted q.1 r t (match q.2 with
      | some attached => w.countLine n attached
      | none => w) n ls

/-- Prefetch one vector of a stream, which is kept if every element of it can be had (R27); the walks and the reads of its lines are made
in any case (R288, R300). -/
def prefetchOne (s : State) (r : WRef) (g : Workgroup) (w : Warp) (n p : Nat) : State × Warp :=
  let x := w.stream n
  let asid := s.asidOf g
  let reads := x.reads (BitVec.allOnes 32) p
  let q := checkAll s g w .stream x.size reads
  let good := q.2.all (fun c => match c.2.2 with
    | .miss _ => false
    | _ => (laneFault q.1 g.tile asid x.size w c).isNone)
  let f := fetchCounted q.1 r g.tile w n (fetchLines q.1 g.tile asid x.size q.2)
  if reads.isEmpty || !good then f
  else
    let val := fun l => match q.2.find? (fun c => c.1 == l) with
      | some (_, _, .ok a) => streamValue q.1 g.tile asid a x.size
      | _ => 0
    let pv : PreVec := ⟨p, laneNums.map val, q.2.filterMap (fun c => match c.2.2 with
      | .ok a => some a.pa
      | _ => none)⟩
    (f.1, f.2.setStream n { x with pre := x.pre ++ [pv] })

/-- Prefetch up to DEPTH vectors from POS on that are not held yet (R27). -/
def prefetchFrom (s : State) (r : WRef) (g : Workgroup) (w : Warp) (n p : Nat) : Nat → State × Warp
  | 0 => (s, w)
  | k + 1 =>
    if (w.stream n).pre.any (fun v => v.at_ == p) then prefetchFrom s r g w n (p + 1) k
    else
      let q := prefetchOne s r g w n p
      prefetchFrom q.1 r g q.2 n (p + 1) k

/-- Start or go on with the prefetch of a stream (R27, R201, R202). -/
def prefetch (s : State) (r : WRef) (g : Workgroup) (w : Warp) (n : Nat) : State × Warp :=
  let x := w.stream n
  if x.icount = 0 then (s, w) else prefetchFrom s r g w n x.pos x.depth

/-- A store or atomic of the warp discards every prefetched vector that holds one of its bytes, whatever virtual address reaches
them: a is a physical address (R204, R305, R308). -/
def Warp.dropPrefetchAt (w : Warp) (a n : Nat) : Warp :=
  { w with r := { w.r with st := w.r.st.map (fun c =>
      let z := c.2.size
      (c.1, { c.2 with pre := c.2.pre.filter (fun v => v.addrs.all (fun b => decide (b + z ≤ a) || decide (a + n ≤ b))) })) } }

/-- POS after a consumption (R26). -/
def Stream.advance (x : Stream) (exhausted : Bool) : Stream :=
  let p := min (x.pos + 1) (2 ^ 32 - 1)
  let exh := if exhausted then 1 else fieldOf x.w4 32 1
  { x with w4 := BitVec.ofNat 64 (p + exh * 2 ^ 32), pre := x.pre.filter (fun v => decide (v.at_ ≥ p)) }

/-- What the consumption of the streams of one instruction comes to. -/
inductive Consumed where
  | ok (s : State) (w : Warp) (sv : List StreamVals) (recs : List FaultRec)
  | held (s : State)
  | park (s : State)
deriving DecidableEq, Repr

/-- The member record of a stream, with its slot. -/
def State.member (s : State) (d : Nat) (r : WRef) (n : Nat) : Option (Nat × Convoy × Member) :=
  match s.memberSlot d r n with
  | some k => ((s.convoy d k).members.find? (fun m => m.w == r && m.n == n)).map (fun m => (k, s.convoy d k, m))
  | none => none

/-- Change a member record. -/
def State.updMember (s : State) (d k : Nat) (r : WRef) (n : Nat) (f : Member → Member) : State :=
  let c := s.convoy d k
  s.setConvoy d k { c with members := c.members.map (fun m => if m.w == r && m.n == n then f m else m) }

/-- Whether the consumption of a stream is allowed now (R361, R364). -/
def slipAllows (s : State) (d : Nat) (r : WRef) (w : Warp) (n : Nat) : Bool :=
  match s.member d r n with
  | some (_, c, m) => m.go || decide ((w.stream n).pos ≤ c.minpos + w.sp.cvslip.toNat)
  | none => true

/-- A consumption is held: HELD and HSTART, with the limit of the hold, unless its hold runs already (R362, R364). -/
def holdStream (s : State) (d : Nat) (r : WRef) (w : Warp) (n : Nat) : State :=
  match s.member d r n with
  | some (k, _, _) => s.updMember d k r n (fun m =>
      if m.held then m else { m with held := true, hstart := (s.die d).tick, limit := w.sp.cvpat.toNat })
  | none => s

/-- The hold of a stream ends, and its clock with it (R363, R364, R368). -/
def endStreamHold (s : State) (d k : Nat) (r : WRef) (m : Member) : State :=
  (if m.held then s.holdEnded d r m else s).updMember d k r m.n (fun m => { m with held := false, expired := false, due := [] })

/-- A consumption retires: the member's position and LADV, and no hold (R359, R368). -/
def advanceMember (s : State) (d : Nat) (r : WRef) (w : Warp) (n : Nat) : State :=
  match s.member d r n with
  | some (k, _, m) =>
    ((endStreamHold s d k r m).updMember d k r n (fun m =>
      { m with pos := (w.stream n).pos, ladv := (s.die d).tick, go := false })).noteConvoy d k 0 r
  | none => s

/-- The record of a stream element's fault (R425): access 5, the stream's tag. -/
def streamRecord (w : Warp) (x : Stream) (l : Nat) (addr : Int) (kind : Nat) : FaultRec :=
  w.record l (BitVec.ofInt 64 addr) kind (5 * 32 + x.tag.toNat) 0

/-- The pages that the next vectors of some streams miss under a mask, with the walks that were made (R115, R298). -/
def streamMisses (s : State) (g : Workgroup) (w : Warp) (m : Mask) : List Nat → State × List Nat
  | [] => (s, [])
  | n :: ns =>
    let x := w.stream n
    if x.pre.any (fun v => v.at_ == x.pos) then streamMisses s g w m ns
    else
      let c := checkAll s g w .stream x.size (x.reads m x.pos)
      let q := streamMisses c.1 g w m ns
      (q.1, missPages c.2 ++ q.2)

/-- Consume one vector of each stream in turn, none of whose elements miss (R26, R115). -/
def consumeEach (s : State) (r : WRef) (g : Workgroup) (w : Warp) (m : Mask) :
    List Nat → State × Warp × List StreamVals × List FaultRec
  | [] => (s, w, [], [])
  | n :: ns =>
    let x := w.stream n
    let reads := x.reads m x.pos
    let exhausted := decide (reads.length < (lanesIn m).length)
    match x.pre.find? (fun v => v.at_ == x.pos) with
    | some v =>
      let vals := laneNums.map (fun l => if m.getLsbD l then laneOf v.vals l else 0)
      let q := consumeEach s r g (w.setStream n (x.advance exhausted)) m ns
      (q.1, q.2.1, ⟨n, x.tag, vals⟩ :: q.2.2.1, q.2.2.2)
    | none =>
      let c := checkAll s g w .stream x.size reads
      let s := c.1
      let val := fun l => match c.2.find? (fun c => c.1 == l) with
        | some (_, _, .ok a) => streamValue s g.tile (s.asidOf g) a x.size
        | _ => 0
      let recs := c.2.filterMap (fun c =>
        (laneFault s g.tile (s.asidOf g) x.size w c).map (fun k => streamRecord w x c.1 c.2.1 k))
      let f := fetchCounted s r g.tile w n (fetchLines s g.tile (s.asidOf g) x.size c.2)
      let q := consumeEach f.1 r g (f.2.setStream n (x.advance exhausted)) m ns
      (q.1, q.2.1, ⟨n, x.tag, laneNums.map val⟩ :: q.2.2.1, recs ++ q.2.2.2)

/-- What keeps an instruction from consuming its streams: the slip rule holds it, with its lanes of step 2 off (R361, R362), or a
page misses, and it parks as it was before it (R115, R185). Where that takes the last lane, R170 acts when the instruction retires
(Warp.beforeHold). -/
def consumeStop (s : State) (r : WRef) (g : Workgroup) (w0 w : Warp) (m : Mask) (ns : List Nat) : Option Consumed :=
  let d := dieOf g.tile
  if ns.any (fun n => !slipAllows s d r w n) then
    let s := s.setWarp r w
    let s := ns.foldl (fun s n => if slipAllows s d r w n then s else holdStream s d r w n) s
    let slot := (ns.findSome? (fun n => if slipAllows s d r w n then none else s.memberSlot d r n)).getD 0
    some (.held (s.updWarp r (fun w => { w with c := { w.c with wait := .hold slot (s.die d).tick } })))
  else
    let q := streamMisses s g w m ns
    match q.2.eraseDups with
    | p :: ps => some (.park (parkOn q.1 r g w0 .stream (p :: ps)))
    | [] => none

/-- The consumption of all streams that an instruction names, each once (R26, R114 step 4, R361, R362): w0 is the warp before
step 2 of R114, w the warp after it. -/
def consume (s : State) (r : WRef) (g : Workgroup) (w0 w : Warp) (m : Mask) (ns : List Nat) : Consumed :=
  match consumeStop s r g w0 w m ns with
  | some stop => stop
  | none =>
    let c := consumeEach s r g w m ns
    let s' := ns.foldl (fun s n => advanceMember s (dieOf g.tile) r c.2.1 n) c.1
    let q := ns.foldl (fun (q : State × Warp) n => prefetch q.1 r g q.2 n) (s', c.2.1)
    .ok q.1 q.2 c.2.2.1 c.2.2.2

end Sys2Proof.Machine
end

