-- ==== Sys2Proof/Machine/LaneRun.lean ====
section
/-! DEFINITION. The steps that every lane instruction takes in order (R114, R139): legality, fills, window switch-off, tags,
stream consumption, the operation, the writes. -/

namespace Sys2Proof.Machine

/-- Every vector register that an instruction names by number lies below the allocation (R16, R68). -/
def allocOk (w : Warp) (i : Instr) : Bool :=
  (vecCodes i).all (fun c => (opdOf c).inAlloc w) && (extraRegs i).all (fun n => decide (n < w.r.alloc))

/-- A long-latency instruction selects a flag (R55). -/
def flagChosen (w : Warp) (i : Instr) : Bool :=
  match fsOf i with
  | some f => decide (w.flagOf f < 12)
  | none => true

/-- Fill what an instruction names: the s-granule, and vector granules under an execution mask (R44, R114 step 1). -/
def fillNamed (s : State) (g : Workgroup) (wp : Nat) (w : Warp) (m : Mask) (i : Instr) : Warp × Bool :=
  let a := if (uniNames w i).isEmpty then (w, true) else fillS s g wp w
  if a.2 then fillGranules s g wp a.1 (((vecNames a.1 m i).map (· / 8)).eraseDups) else a

/-- The parts of the image that the fills of an instruction read (R44). -/
def fillAreas (g : Workgroup) (wp : Nat) (w : Warp) (m : Mask) (i : Instr) : List (Nat × Nat) :=
  (if (uniNames w i).isEmpty then [] else sArea g wp w) ++ granuleAreas g wp w (((vecNames w m i).map (· / 8)).eraseDups)

/-- The reads of the fills of an instruction (R44, R288). -/
def fillReads (s : State) (g : Workgroup) (wp : Nat) (w : Warp) (m : Mask) (i : Instr) : State :=
  fetchAreas s g (fillAreas g wp w m i)

/-- The pages of the save area that the fills of an instruction miss (R434). -/
def fillMisses (s : State) (g : Workgroup) (wp : Nat) (w : Warp) (m : Mask) (i : Instr) : List Nat :=
  ((fillAreas g wp w m i).flatMap (fun a => imageMisses s g w a.1 a.2)).eraseDups

/-- Run an instruction whose word is legal for this warp, with the granules it names present; an illegal word takes its
trap, a fill that fails ends the workgroup (R45, R68, R114). A fill whose page the management cores may still install parks the
warp, as a resolvable fault does (R434; DEDUCED, log entry 32). m gives the execution mask. -/
def runNamed (s : State) (i : Instr) (m : Warp → Mask) (f : State → WRef → Workgroup → Warp → State) :
    Host.Outcome State Fault Refusal :=
  withCurrent s (fun r g w =>
    if legal i && allocOk w i && flagChosen w i then
      let s := fillReads s g r.wp w (m w) i
      match fillNamed s g r.wp w (m w) i with
      | (w', true) => f (s.setWarp r w') r (g.setWarp r.wp w') w'
      | (_, false) =>
        match fillMisses s g r.wp w (m w) i with
        | [] => endWithError s r.wg 0x50 r.wp w.c.pos.place 0 0
        | p :: ps => parkOn s r g w .load (p :: ps)
    else preciseTrap s r w 0x01)

/-- A transfer of control that does not stand last in its clause traps before any other effect (R57). -/
def lastOnly (s : State) (run : Host.Outcome State Fault Refusal) : Host.Outcome State Fault Refusal :=
  match s.current with
  | some (r, _, w) => if w.c.pos.isLast then run else .next (preciseTrap s r w 0x01)
  | none => run

/-- Finish an instruction that acts on its warp alone: it retires, has moved, or takes a precise trap. -/
def finishWarp (s : State) (r : WRef) (g : Workgroup) (w : Warp) : WRes → State
  | .ok w' => retire s r g w w' false
  | .moved w' => retire s r g w w' true
  | .trap code w' => preciseTrap (s.setWarp r w') r w' code

/-- Run a uniform instruction that acts on its warp alone: once, whatever the active mask (R50, R68). -/
def runUniform (s : State) (i : Instr) (f : Warp → WRes) : Host.Outcome State Fault Refusal :=
  runNamed s i (fun w => w.active) (fun s r g w => finishWarp s r g w (f w))

/-- What an operation sees: the warp, its execution mask, the common tag (undefined under R111's last case), the lanes whose
stream element faulted, the values of its streams. -/
structure LaneCtx where
  w : Warp
  m : Mask
  t : BitVec 5
  undef : Bool
  bad : Mask
  sv : List StreamVals
deriving DecidableEq, Repr

/-- The value of an operand in a lane. -/
def LaneCtx.val (c : LaneCtx) (o : Opd) (l : Nat) : Reg := o.val c.w c.sv l

/-- Write a destination with a tag; lanes with faulted elements keep their bits, and an undefined tag writes nothing
(R31, R111, R115). -/
def LaneCtx.put (c : LaneCtx) (d : Opd) (tag : BitVec 5) (new : Nat → Reg) : Warp :=
  if c.undef then c.w else writeDst c.w d tag c.m c.bad new

/-- Write a destination and raise the flags of every lane that computed (R94, R115). -/
def LaneCtx.putFlags (c : LaneCtx) (d : Opd) (tag : BitVec 5) (f : Nat → LaneRes) : Warp :=
  let fl := (lanesIn (c.m &&& ~~~c.bad)).foldl (fun a l => a ||| (f l).2) 0
  if c.undef then c.w else (c.put d tag (fun l => (f l).1)).raise fl

/-- The operands of a lane instruction. -/
structure LaneForm where
  /-- The instruction, for its fields and names. -/
  i : Instr
  /-- Its predicate, if it has one. -/
  p : Option (BitVec 3)
  /-- Operand codes it reads or writes, whose indices are judged (R114 step 2). -/
  codes : List (BitVec 7)
  /-- Operands that streams may stand in. -/
  srcs : List (BitVec 7)
  /-- Its typed operands (R111). -/
  typed : List (BitVec 7)
  /-- Whether a faulted stream element stops every write (R139). -/
  cross : Bool

/-- The execution mask before switch-off (R35). -/
def LaneForm.mask (f : LaneForm) (w : Warp) : Mask :=
  match f.p with
  | some p => w.active &&& w.pget p.toNat
  | none => w.active

/-- The streams that an instruction names, each once (R26). -/
def LaneForm.streams (f : LaneForm) : List Nat :=
  (f.srcs.filterMap (fun c => match opdOf c with
    | .stream n => some n
    | _ => none)).eraseDups

/-- Whether a stream that the instruction names is unset (R200). -/
def anyUnset (w : Warp) (ns : List Nat) : Bool := ns.any (fun n => decide ((w.stream n).icount = 0))

/-- The typed operands' common tag. VPACK leaves d out when it carries raw and another operand gives a tag (R133). -/
def LaneForm.tag (f : LaneForm) (w : Warp) (m : Mask) : CommonTag :=
  if f.typed.isEmpty then .tag 0 else
  let ts := f.typed.map (fun c => (opdOf c).tag w m)
  let ts := match f.i with
    | .vpack d a _ _ _ => if (opdOf d).tag w m = .one 0 ∧ (opdOf a).tag w m ≠ .noLane then [(opdOf a).tag w m] else ts
    | _ => ts
  commonTag (decide (m = 0)) ts

/-- Run a lane instruction through the steps of R114. ok says which tags its class accepts; check is what else can trap it
before any effect (R138); op computes the warp after it. A trap at an instruction whose step 2 has left no lane enters its handler
without lanes (R113, R170; DESIGN CHOICE, log entry 43). -/
def runLane (s : State) (f : LaneForm) (ok : BitVec 5 → Bool) (check : LaneCtx → Option Nat) (op : LaneCtx → Warp) :
    Host.Outcome State Fault Refusal :=
  runNamed s f.i f.mask (fun s r g w0 =>
    let m0 := f.mask w0
    let off := f.codes.foldl (fun a c => a ||| (opdOf c).offLanes w0 m0) 0
    let w := w0.switchOff off
    let m := m0 &&& ~~~off
    let ns := f.streams
    let bad := fun code => preciseTrap (s.setWarp r w) r w code
    let go := fun (t : BitVec 5) (undef : Bool) =>
      match check ⟨w, m, t, undef, 0, []⟩ with
      | some code => bad code
      | none =>
        match consume s r g w0 w m ns with
        | .held s' => s'
        | .park s' => s'
        | .ok s' w' sv recs =>
          let lanes := recordMask recs
          let after := if f.cross && decide (lanes ≠ 0) then w' else op ⟨w', m, t, undef, lanes, sv⟩
          retireWithRecords s' r g w0.beforeHold after false recs
    match f.tag w m with
    | .fault => bad 0x02
    | .undefined =>
      -- A destination format that the operation takes under no tag is a format fault all the same (R99, R117).
      if anyUnset w ns || !(List.range 32).any (fun t => ok (BitVec.ofNat 5 t)) then bad 0x02 else go 0 true
    | .tag t => if anyUnset w ns || !ok t then bad 0x02 else go t false)

/-- No further check. -/
def noCheck (_ : LaneCtx) : Option Nat := none

/-- Run an instruction of one operand under a predicate, tag kept (R118, R127). -/
def runUnary (s : State) (i : Instr) (d a : BitVec 7) (p : BitVec 3) (k : TagClass)
    (f : BitVec 5 → Reg → LaneRes) : Host.Outcome State Fault Refusal :=
  runLane s ⟨i, some p, [d, a], [a], [a], false⟩ k.has noCheck
    (fun c => c.putFlags (opdOf d) c.t (fun l => f c.t (c.val (opdOf a) l)))

/-- Run an instruction of two operands under a predicate (R118, R127). -/
def runBinary (s : State) (i : Instr) (d a b : BitVec 7) (p : BitVec 3) (k : TagClass)
    (f : BitVec 5 → Reg → Reg → LaneRes) : Host.Outcome State Fault Refusal :=
  runLane s ⟨i, some p, [d, a, b], [a, b], [a, b], false⟩ k.has noCheck
    (fun c => c.putFlags (opdOf d) c.t (fun l => f c.t (c.val (opdOf a) l) (c.val (opdOf b) l)))

/-- Run an instruction of two operands that also reads d (R111). -/
def runTernary (s : State) (i : Instr) (d a b : BitVec 7) (p : BitVec 3) (k : TagClass)
    (f : BitVec 5 → Reg → Reg → Reg → LaneRes) : Host.Outcome State Fault Refusal :=
  runLane s ⟨i, some p, [d, a, b], [a, b], [a, b, d], false⟩ k.has noCheck
    (fun c => c.putFlags (opdOf d) c.t (fun l => f c.t (c.val (opdOf a) l) (c.val (opdOf b) l) (c.val (opdOf d) l)))

/-- Run an L-RRS instruction: b gives one value V to every lane (R112). -/
def runScalar (s : State) (i : Instr) (d a b : BitVec 7) (p : BitVec 3) (k : TagClass)
    (f : BitVec 5 → Reg → Reg → LaneRes) : Host.Outcome State Fault Refusal :=
  runLane s ⟨i, some p, [d, a], [a], [a], false⟩ k.has noCheck
    (fun c => c.putFlags (opdOf d) c.t (fun l => f c.t (c.val (opdOf a) l) (rrsValue c.w b)))

/-- Run an L-RRS instruction that also reads d (R120). -/
def runScalarInto (s : State) (i : Instr) (d a b : BitVec 7) (p : BitVec 3) (k : TagClass)
    (f : BitVec 5 → Reg → Reg → Reg → LaneRes) : Host.Outcome State Fault Refusal :=
  runLane s ⟨i, some p, [d, a], [a], [a, d], false⟩ k.has noCheck
    (fun c => c.putFlags (opdOf d) c.t (fun l => f c.t (c.val (opdOf a) l) (rrsValue c.w b) (c.val (opdOf d) l)))

end Sys2Proof.Machine
end

