-- ==== Sys2Proof/Machine/Flags.lean ====
section
/-! DEFINITION. The flags of a warp: the completion flags that count long-latency instructions (R22, R54, R56, R186), the
stored bits of FSTAT (R93), and the order flags take effect in. The flag bits that an operation raises are computed beside
its value (Float.lean) and gathered by LaneCtx.putFlags. -/

namespace Sys2Proof.Machine

/-- The bits that FSTAT stores (R93, R272). -/
def fstatMask : BitVec 8 := 0x3F#8

/-- Write FSTAT (R272). -/
def Warp.setFstat (w : Warp) (v : Reg) : Warp := { w with sp := { w.sp with fstat := v.setWidth 8 &&& fstatMask } }

/-- Count an operation against a flag, or take it off (R22, R54). -/
def Warp.countFlag (w : Warp) (k : Nat) : Warp :=
  { w with r := { w.r with flags := Table.set w.r.flags k (w.flag k + 1) } }
def Warp.uncountFlag (w : Warp) (k : Nat) : Warp :=
  { w with r := { w.r with flags := Table.set w.r.flags k (w.flag k - 1) } }

/-- A long-latency instruction issues: its flag counts it, and its destinations are busy until it completes (R54, R56). -/
def Warp.issueLong (w : Warp) (k : Nat) (vregs sregs : List Nat) (recs : List FaultRec) (fp : Bool)
    (load : Option Reg) : Warp :=
  let o : Outst := ⟨w.nextOp, k, vregs, sregs, recs, fp, w.c.handler.isSome, load, [], [], []⟩
  { w.countFlag k with outs := w.outs ++ [o], nextOp := w.nextOp + 1 }

/-- The operation that issued last has requests that leave the device (R449): their records, and the destinations as they
were before it. -/
def Warp.noteFar (before after : Warp) (far : List FaultRec) : Warp :=
  if far.isEmpty then after
  else
    { after with outs := after.outs.map (fun o =>
        if o.id + 1 = after.nextOp then
          { o with
            far := far
            oldV := o.vregs.map (fun n => (n, before.vget n))
            oldS := o.sregs.map (fun n => (n, before.sget n)) }
        else o) }

/-- A long-latency instruction issues and retires: records of accesses that failed now, and those that only completion makes
known (R185, R186), and those that an error completion would make (R449). -/
def retireLong (s : State) (r : WRef) (g : Workgroup) (before after : Warp) (k : Nat) (vregs sregs : List Nat)
    (now later far : List FaultRec) (load : Bool) : State :=
  let born := if load then some (s.tile g.tile).cycle else none
  retireWithRecords s r g before (before.noteFar (after.issueLong k vregs sregs later false born) far) false now

/-- The warp stands at its instruction until something happens. -/
def waitAt (s : State) (r : WRef) (w : Warp) (x : Wait) : State := s.setWarp r { w with c := { w.c with wait := x } }

/-- A completed global load counts its cycles (R506). -/
def countLoad (s : State) (r : WRef) (o : Outst) : State :=
  match o.load, s.wg r.wg with
  | some c, some g => s.countEvent (clusterOf g.tile) 1 ((s.tile g.tile).cycle - c).toNat 1
  | _, _ => s

/-- Data errors of a warp become known: those of work that the present handler issued are taken in it (R423, R429, R430, R440), but for one of
a workgroup that has stopped (R421, R442); others wait for the boundary that follows. -/
def knowErrors (s : State) (r : WRef) (w : Warp) (inHandler : Bool) (recs : List FaultRec) : State :=
  if recs.isEmpty then s.setWarp r w
  else if inHandler && w.c.inHandler && ((s.wg r.wg).map Workgroup.live).getD false then
    takeException (s.setWarp r w) r w 0x10 recs.length recs none
  else s.setWarp r { w with c := { w.c with recs := w.c.recs ++ recs } }

/-- The records of the stores of an operation that are posted and have met no error (R340). -/
def Outst.postedStores (o : Outst) : List (Bool × FaultRec) :=
  (o.far.filter (fun f => f.typ / 32 == 1 && !o.recs.any (fun x => x.lane == f.lane && x.addr == f.addr))).map (fun f => (o.inHandler, f))

/-- An operation completes: its flag is decremented, its registers are free, and its data errors are known (R54, R56,
R186); its posted stores may still meet errors (R340, R449). -/
def completeOp (s : State) (r : WRef) (k : Nat) : State :=
  match s.warp r with
  | some w =>
    match w.outs.find? (fun o => o.id == k) with
    | some o =>
      let s := countLoad s r o
      let w := { w.uncountFlag o.flag with outs := w.outs.filter (fun x => x.id != k)
                                           posted := w.posted ++ o.postedStores }
      knowErrors s r w o.inHandler o.recs
    | none => s
  | none => s

end Sys2Proof.Machine
end

