-- ==== Sys2Proof/Machine/MemAccess.lean ====
section
/-! DEFINITION. Lane and uniform accesses to global memory and to the scratchpad (R180-R196). An access is performed when
its instruction issues; its registers stay busy and its flag counts it until it completes (DESIGN CHOICE, log entry 40). -/

namespace Sys2Proof.Machine

/-! ### Addresses and tags of the lanes -/

/-- The tags that a base or data operand presents in the lanes of a mask, lane by lane (R19, R181); vz presents none. -/
def Opd.tags (w : Warp) (m : Mask) : Opd → List (BitVec 5)
  | .reg n => [(w.vget n).tag]
  | .idx k => ((lanesIn m).filterMap (fun l => w.windowReg k l)).map (fun n => (w.vget n).tag)
  | .stream n => [(w.stream n).tag]
  | .vz => []
  | .vl => [0x06#5]

/-- The tag of an operand in one lane. -/
def Opd.tagAt (w : Warp) (l : Nat) : Opd → BitVec 5
  | .reg n => (w.vget n).tag
  | .idx k => match w.windowReg k l with
    | some n => (w.vget n).tag
    | none => 0
  | .stream n => (w.stream n).tag
  | .vz => 0
  | .vl => 0x06#5

/-- B(l): sub-element 0 under its tag (R181). -/
def Opd.base (w : Warp) (o : Opd) (l : Nat) : Int :=
  let t := o.tagAt w l
  elVal t (subEl (fmtWidth t) (o.val w [] l) 0)

/-- A data operand's tags equal the format, or the format is raw where that is allowed; vz and vl are read under the
format (R188, R192, R193). -/
def dataTagOk (w : Warp) (m : Mask) (o : Opd) (t : BitVec 5) (rawOk : Bool) : Bool :=
  (rawOk && decide (t = 0)) || (match o with
    | .vl => true
    | o => (o.tags w m).all (fun u => u == t))

/-- The lanes of an instruction with their exact addresses. -/
abbrev LaneAddrs := List (Nat × Int)

/-- Steps 1 to 3 of R114 for a memory instruction under the active mask: window switch-off, tags, then the accesses at
A(l) = B(l) + off × scale (R181). tagOk judges the data operands. -/
def runMem (s : State) (i : Instr) (codes : List (BitVec 7)) (b : BitVec 7) (scale : Nat) (off : Int)
    (tagOk : Warp → Mask → Bool) (k : State → WRef → Workgroup → Warp → Warp → Mask → LaneAddrs → State) :
    Host.Outcome State Fault Refusal :=
  runNamed s i (fun w => w.active) (fun s r g w0 =>
    let lost := codes.foldl (fun a c => a ||| (opdOf c).offLanes w0 w0.active) 0
    let w := w0.switchOff lost
    let m := w0.active &&& ~~~lost
    let o := opdOf b
    if (o.tags w m).all (fun t => TagClass.B.has t) && tagOk w m then
      k s r g w0 w m ((lanesIn m).map (fun l => (l, o.base w l + off * scale)))
    else preciseTrap (s.setWarp r w) r w 0x02)

/-- Perform a list of accesses in ascending lane order (R182). Each gives a value, and whether its data came with an
uncorrectable error. -/
def eachLane {α : Type} (f : State → Nat → Xlated → State × α × Bool) :
    State → List (Nat × Int × LaneAcc) → State × List (Nat × α × Bool)
  | s, [] => (s, [])
  | s, (l, _, c) :: rest =>
    match c with
    | .ok x =>
      let q := f s l x
      let t := eachLane f q.1 rest
      (t.1, (l, q.2.1, q.2.2) :: t.2)
    | _ => eachLane f s rest

/-- TYPE of a fault record: the access and its format or size (R425). -/
def typeOf (access fmt : Nat) : Nat := access * 32 + fmt % 32

/-- The records of the lanes whose check failed (R185, R425). -/
def failRecords (w : Warp) (typ : Nat) (cs : List (Nat × Int × LaneAcc)) : List FaultRec :=
  cs.filterMap (fun c => match c.2.2 with
    | .bad k => some (w.record c.1 (BitVec.ofInt 64 c.2.1) k typ 0)
    | _ => none)

/-- The records of the lanes whose data had an error (R186). -/
def errorRecords {α : Type} (w : Warp) (typ : Nat) (cs : List (Nat × Int × LaneAcc)) (vs : List (Nat × α × Bool)) :
    List FaultRec :=
  vs.filterMap (fun v =>
    if v.2.2 then (cs.find? (fun c => c.1 == v.1)).map (fun c => w.record c.1 (BitVec.ofInt 64 c.2.1) 6 typ 0) else none)

/-- The records that error completions would make of the requests that leave the device, to spaces 0x1 and 0x2 (R340, R449). -/
def farRecords (w : Warp) (typ : Nat) (cs : List (Nat × Int × LaneAcc)) : List FaultRec :=
  cs.filterMap (fun c => match c.2.2 with
    | .ok x => if spaceOf x.pa = 0 then none else some (w.record c.1 (BitVec.ofInt 64 c.2.1) 4 typ 0)
    | _ => none)

/-- The lanes that received a value, and the value of a lane. -/
def doneLanes {α : Type} (vs : List (Nat × α × Bool)) : Mask := maskOf (fun l => vs.any (fun v => v.1 == l && !v.2.2))
def valueAt {α : Type} (d : α) (vs : List (Nat × α × Bool)) (l : Nat) : α := ((vs.find? (fun v => v.1 == l)).map (·.2.1)).getD d

/-- The stores or atomics that were performed discard prefetched vectors over their bytes (R204); stores to spaces 0x1 and
0x2 are posted and wait for acknowledgements (R340). -/
def Warp.noteStores (w : Warp) (posted : Bool) (z : Nat) (cs : List (Nat × Int × LaneAcc)) : Warp :=
  cs.foldl (fun w c => match c.2.2 with
    | .ok x =>
      let w := w.dropPrefetchAt x.pa z
      if spaceOf x.pa = 0 ∨ posted = false then w else { w with remote := w.remote + 1 }
    | _ => w) w

/-- Global accesses of the lanes: the checks of R184, parking on misses (R185), the accesses, and what is left to do with
their values: the warp after them (DEDUCED, log entry 18). -/
def globalLanes {α : Type} (s : State) (r : WRef) (g : Workgroup) (w0 w : Warp) (a : Acc) (z k typ : Nat)
    (vregs : List Nat) (addrs : LaneAddrs) (f : State → Nat → Xlated → State × α × Bool)
    (put : List (Nat × Int × LaneAcc) → List (Nat × α × Bool) → Warp) : State :=
  let c := checkAll s g w a z addrs
  match missPages c.2 with
  | p :: ps => parkOn c.1 r g w0 a (p :: ps)
  | [] =>
    let q := eachLane f c.1 c.2
    retireLong q.1 r g w0 (put c.2 q.2) k vregs [] (failRecords w typ c.2) (errorRecords w typ c.2 q.2)
      (farRecords w typ c.2) (a == .load)

/-! ### Loads and stores -/

/-- Write a loaded element, zero-extended, in the lanes that received one; the others of the mask keep their bits
(R185, R188). -/
def putLoaded (w : Warp) (d : Opd) (t : BitVec 5) (m : Mask) (vs : List (Nat × Nat × Bool)) : Warp :=
  writeDst w d t m (m &&& ~~~doneLanes vs) (fun l => BitVec.ofNat 64 (valueAt 0 vs l))

/-- VLD (R188). -/
def execVld (d b : BitVec 7) (t : BitVec 5) (f : BitVec 1) (o : BitVec 4) (s : State) :
    Host.Outcome State Fault Refusal :=
  let z := fmtWidth t / 8
  runMem s (.vld d b t f o) [d, b] b z o.toInt (fun _ _ => true) (fun s r g w0 w m addrs =>
    globalLanes s r g w0 w .load z (w.flagOf f) (typeOf 0 t.toNat) ((opdOf d).names w m) addrs
      (fun s _ x => tileLoad s g.tile (s.asidOf g) x z)
      (fun _ vs => putLoaded w (opdOf d) t m vs))

/-- The low z bytes of a lane's data (R188). -/
def lowBytes (z : Nat) (v : Reg) : Nat := v.toNat % 2 ^ (8 * z)

/-- VST (R188). -/
def execVst (d b : BitVec 7) (t : BitVec 5) (f : BitVec 1) (o : BitVec 4) (s : State) :
    Host.Outcome State Fault Refusal :=
  let z := fmtWidth t / 8
  runMem s (.vst d b t f o) [d, b] b z o.toInt (fun w m => dataTagOk w m (opdOf d) t true) (fun s r g w0 w _ addrs =>
    globalLanes s r g w0 w .store z (w.flagOf f) (typeOf 1 t.toNat) [] addrs
      (fun s l x => (tileStore s g.tile (s.asidOf g) x z (lowBytes z ((opdOf d).val w [] l)), (), false))
      (fun cs _ => w.noteStores true z cs))

/-! ### Atomics -/

/-- VATOM (R190-R192). -/
def execVatom (d b : BitVec 7) (t : BitVec 5) (f : BitVec 1) (o : BitVec 4) (s : State) :
    Host.Outcome State Fault Refusal :=
  let z := fmtWidth t / 8
  runMem s (.vatom d b t f o) [d, b] b z 0 (fun w m => dataTagOk w m (opdOf d) t false) (fun s r g w0 w m addrs =>
    globalLanes s r g w0 w .atomic z (w.flagOf f) (typeOf 2 t.toNat) ((opdOf d).names w m) addrs
      (fun s l x => chanAtomic s g.tile x.pa z (fun old => atomNew o (8 * z) old (lowBytes z ((opdOf d).val w [] l))))
      (fun cs vs => (putLoaded w (opdOf d) t m vs).noteStores false z cs))

/-- Expected and new value of a compare and swap in a lane (R193). -/
def casPair (w : Warp) (d : BitVec 7) (t : BitVec 5) (l : Nat) : Nat × Nat :=
  let v := (opdOf d).val w [] l
  if fmtWidth t = 32 then (subEl 32 v 0, subEl 32 v 1) else (v.toNat, (laneOf (w.vget (d.toNat + 1)).lanes l).toNat)

/-- Write the results of a compare and swap: the old value, and 1 where the swap took place (R193). -/
def putCas (w : Warp) (d : BitVec 7) (t : BitVec 5) (m : Mask) (vs : List (Nat × Nat × Bool)) : Warp :=
  let keep := m &&& ~~~doneLanes vs
  let old := fun l => valueAt 0 vs l
  let won := fun l => if old l = (casPair w d t l).1 then 1 else 0
  if fmtWidth t = 32 then writeDst w (opdOf d) t m keep (fun l => BitVec.ofNat 64 (old l + 2 ^ 32 * won l))
  else
    let w' := writeDst w (opdOf d) t m keep (fun l => BitVec.ofNat 64 (old l))
    writeDst w' (.reg (d.toNat + 1)) t m keep (fun l => BitVec.ofNat 64 (won l))

/-- VCAS (R193). -/
def execVcas (d b : BitVec 7) (t : BitVec 5) (f : BitVec 1) (o : BitVec 4) (s : State) :
    Host.Outcome State Fault Refusal :=
  let z := fmtWidth t / 8
  let pair := fun (w : Warp) (m : Mask) =>
    dataTagOk w m (opdOf d) t false && (fmtWidth t == 32 || (w.vget (d.toNat + 1)).tag == t)
  runMem s (.vcas d b t f o) [d, b] b z o.toInt pair (fun s r g w0 w m addrs =>
    let second := if fmtWidth t = 64 then [d.toNat + 1] else []
    globalLanes s r g w0 w .atomic z (w.flagOf f) (typeOf 2 t.toNat) ((opdOf d).names w m ++ second) addrs
      (fun s l x =>
        let p := casPair w d t l
        chanAtomic s g.tile x.pa z (fun old => if old = p.1 then p.2 else old))
      (fun cs vs => (putCas w d t m vs).noteStores false z cs))

/-! ### Prefetch -/

/-- One lane's request: the line comes into the line buffer if every check passes (R195), but for one whose read gives a data error
(R301). -/
def prefetchLine (s : State) (g : Workgroup) (c : LaneAcc) : State :=
  match c with
  | .ok x =>
    let line := lineOf x.pa
    if x.direct || servedByLine s g.tile (s.asidOf g) { x with pa := line * 128 } 128 then s
    else
      let s' := takeLine s g.tile (s.asidOf g) line
      if s.dev.badLines.contains line then mergeRead s' g.tile line else (fetchLine s' g.tile line (s.asidOf g) x.rix).1
  | _ => s

/-- VPRF (R195). A base whose tag is outside class B takes the format fault of R181, like that of every other access, and its
alignment is checked for one byte, since its type field is reserved, so that no lane is misaligned (DESIGN CHOICE, log entry 48). -/
def execVprf (b : BitVec 7) (f : BitVec 1) (o : BitVec 4) (s : State) : Host.Outcome State Fault Refusal :=
  runMem s (.vprf b f o) [b] b 128 o.toInt (fun _ _ => true) (fun s r g w0 w _ addrs =>
    let c := checkAll s g w .load 1 addrs
    let s := c.2.foldl (fun s c => prefetchLine s g c.2.2) c.1
    retireLong s r g w0 w (w.flagOf f) [] [] [] [] [] false)

/-! ### Scratchpad -/

/-- Whether an access of z bytes at an exact offset lies in the allocation and is aligned (R37, R184). -/
def spOk (g : Workgroup) (a : Int) (z : Nat) : Bool :=
  decide (0 ≤ a) && decide (a + z ≤ g.spAlloc) && decide (a.toNat % z = 0)

/-- The lanes whose scratchpad access is an on-tile fault (R36, R184). -/
def spLost (g : Workgroup) (z : Nat) (addrs : LaneAddrs) : Mask :=
  maskOf (fun l => addrs.any (fun c => c.1 == l && !spOk g c.2 z))

/-- Accesses of the lanes at the scratchpad's banks, in ascending lane order (R182, R190). -/
def spEach (f : Memory → Nat → Nat → Memory × Nat) : Memory → LaneAddrs → Memory × List (Nat × Nat × Bool)
  | m, [] => (m, [])
  | m, (l, a) :: rest =>
    let q := f m l a.toNat
    let t := spEach f q.1 rest
    (t.1, (l, q.2, false) :: t.2)

/-- Run a scratchpad access: lanes with on-tile faults are switched off first, and the rest complete (R185). -/
def scratchLanes (s : State) (r : WRef) (g : Workgroup) (w0 w : Warp) (m : Mask) (z k : Nat)
    (vregs : Warp → Mask → List Nat) (addrs : LaneAddrs) (f : Memory → Nat → Nat → Memory × Nat)
    (put : Warp → Mask → List (Nat × Nat × Bool) → Warp) : State :=
  let lost := spLost g z addrs
  let w := w.switchOff lost
  let m := m &&& ~~~lost
  let q := spEach f g.sp (addrs.filter (fun c => m.getLsbD c.1))
  let s := s.updWg r.wg (fun g => { g with sp := q.1 })
  retireLong s r g w0 (put w m q.2) k (vregs w m) [] [] [] [] false

/-- VLDS (R188). -/
def execVlds (d b : BitVec 7) (t : BitVec 5) (f : BitVec 1) (o : BitVec 4) (s : State) :
    Host.Outcome State Fault Refusal :=
  let z := fmtWidth t / 8
  runMem s (.vlds d b t f o) [d, b] b z o.toInt (fun _ _ => true) (fun s r g w0 w m addrs =>
    scratchLanes s r g w0 w m z (w.flagOf f) (fun w m => (opdOf d).names w m) addrs
      (fun mem _ a => (mem, Memory.readN mem a z))
      (fun w m vs => putLoaded w (opdOf d) t m vs))

/-- VSTS (R188). -/
def execVsts (d b : BitVec 7) (t : BitVec 5) (f : BitVec 1) (o : BitVec 4) (s : State) :
    Host.Outcome State Fault Refusal :=
  let z := fmtWidth t / 8
  runMem s (.vsts d b t f o) [d, b] b z o.toInt (fun w m => dataTagOk w m (opdOf d) t true) (fun s r g w0 w m addrs =>
    scratchLanes s r g w0 w m z (w.flagOf f) (fun _ _ => []) addrs
      (fun mem l a => (Memory.writeN mem a z (lowBytes z ((opdOf d).val w [] l)), 0))
      (fun w _ _ => w))

/-- VATOMS (R190-R192). -/
def execVatoms (d b : BitVec 7) (t : BitVec 5) (f : BitVec 1) (o : BitVec 4) (s : State) :
    Host.Outcome State Fault Refusal :=
  let z := fmtWidth t / 8
  runMem s (.vatoms d b t f o) [d, b] b z 0 (fun w m => dataTagOk w m (opdOf d) t false) (fun s r g w0 w m addrs =>
    scratchLanes s r g w0 w m z (w.flagOf f) (fun w m => (opdOf d).names w m) addrs
      (fun mem l a =>
        let old := Memory.readN mem a z
        (Memory.writeN mem a z (atomNew o (8 * z) old (lowBytes z ((opdOf d).val w [] l))), old))
      (fun w m vs => putLoaded w (opdOf d) t m vs))

/-! ### Uniform accesses -/

/-- What a uniform access came to, after the checks of R184: a place, parked, or a global fault with the uniform
record (R194) (DEDUCED, log entry 18). -/
def uniformAccess (s : State) (r : WRef) (g : Workgroup) (w : Warp) (a : Acc) (addr : Int) (z : Nat)
    (go : State → Xlated → State) (fail : State → Nat → State) : State :=
  let c := checkAccess s g w a addr z
  match c.2 with
  | .ok x => go c.1 x
  | .miss p => parkOn c.1 r g w a [p]
  | .bad k => fail c.1 k

/-- The uniform record of an access (R425). -/
def uniRecord (w : Warp) (addr : Int) (kind typ : Nat) : FaultRec := w.record 32 (BitVec.ofInt 64 addr) kind typ 0

/-- Run a long-latency uniform access: f performs it, giving its value and whether the data had an error; put is the warp
after it (R54, R194, R196). -/
def runUniMem (s : State) (i : Instr) (fs : BitVec 1) (a : Acc) (z typ : Nat) (d : List Nat) (addrOf : Warp → Int)
    (f : State → Workgroup → Warp → Xlated → State × Nat × Bool) (put : Warp → Nat → Warp) (store : Bool) :
    Host.Outcome State Fault Refusal :=
  runNamed s i (fun w => w.active) (fun s r g w =>
    let addr := addrOf w
    uniformAccess s r g w a addr z
      (fun s x =>
        let q := f s g w x
        let w1 := if q.2.2 then w else put w q.2.1
        let w2 := if store then w1.noteStores (a == .store) z [(32, addr, .ok x)] else w1
        retireLong q.1 r g w w2 (w.flagOf fs) [] d [] (if q.2.2 then [uniRecord w addr 6 typ] else [])
          (farRecords w typ [(32, addr, .ok x)]) (a == .load))
      (fun s k => retireLong s r g w w (w.flagOf fs) [] [] [uniRecord w addr k typ] [] [] false))

/-- The size that SIZE names (R196). -/
def sizeOf_ (z : BitVec 2) : Nat := 2 ^ z.toNat

/-- A loaded value of z bytes, extended by zero or by sign (R196). -/
def extendTo (z : Nat) (sign : Bool) (v : Nat) : Reg := if sign then regOf (signedOf (8 * z) v) else BitVec.ofNat 64 v

/-- SLD (R196). -/
def execSld (d a : BitVec 6) (f : BitVec 1) (z : BitVec 2) (g : BitVec 1) (o : BitVec 8) (s : State) :
    Host.Outcome State Fault Refusal :=
  let n := sizeOf_ z
  runUniMem s (.sld d a f z g o) f .load n (typeOf 0 n) [d.toNat] (fun w => (w.sget a.toNat).toNat + o.toInt * n)
    (fun s wg _ x => tileLoad s wg.tile (s.asidOf wg) x n)
    (fun w v => w.sset d.toNat (extendTo n (g == 1) v)) false

/-- SST (R196). -/
def execSst (d a : BitVec 6) (f : BitVec 1) (z : BitVec 2) (o : BitVec 8) (s : State) :
    Host.Outcome State Fault Refusal :=
  let n := sizeOf_ z
  runUniMem s (.sst d a f z o) f .store n (typeOf 1 n) [] (fun w => (w.sget a.toNat).toNat + o.toInt * n)
    (fun s wg w x => (tileStore s wg.tile (s.asidOf wg) x n (lowBytes n (w.sget d.toNat)), 0, false))
    (fun w _ => w) true

/-- SATOM (R194): 8 bytes, but 4 for .FADD and 2 for .BFADD. -/
def execSatom (d a b : BitVec 6) (f : BitVec 1) (o : BitVec 4) (s : State) : Host.Outcome State Fault Refusal :=
  let n := atomSize o
  runUniMem s (.satom d a b f o) f .atomic n (typeOf 2 n) [d.toNat] (fun w => (w.sget a.toNat).toNat)
    (fun s wg w x => chanAtomic s wg.tile x.pa n (fun old => atomNew o (8 * n) old (lowBytes n (w.sget b.toNat))))
    (fun w v => w.sset d.toNat (BitVec.ofNat 64 v)) true

/-- SCAS (R194): the expected value is the old value of sd. -/
def execScas (d a b : BitVec 6) (f : BitVec 1) (s : State) : Host.Outcome State Fault Refusal :=
  runUniMem s (.scas d a b f) f .atomic 8 (typeOf 2 8) [d.toNat] (fun w => (w.sget a.toNat).toNat)
    (fun s wg w x => chanAtomic s wg.tile x.pa 8 (fun old =>
      if old = (w.sget d.toNat).toNat then (w.sget b.toNat).toNat else old))
    (fun w v => w.sset d.toNat (BitVec.ofNat 64 v)) true

end Sys2Proof.Machine
end

