-- ==== Sys2Proof/Machine/Order.lean ====
section
/-! DEFINITION. The ordering instructions, waiting on a counter, and publishing a range (R197-R199, R277, R297, R328-R331,
R340-R344). A release that waits for acknowledgements is issued again when they are in. -/

namespace Sys2Proof.Machine

/-- Scope codes (R67). -/
def scopeWg : Nat := 2
def scopeCluster : Nat := 3
def scopeSystem : Nat := 6

/-- What a fence does to the tile's lines of the warp's context, and to its prefetched vectors (R198, R286, R328, R329). -/
def fenceEffect (s : State) (g : Workgroup) (w : Warp) (rel acq : Bool) (scope : Nat) : State × Warp :=
  let mine := fun (l : Line) => l.asid == s.asidOf g
  let s' := if scope < scopeCluster then s
    else if acq then invalidateWhere s g.tile mine
    else if rel then writeBackWhere s g.tile mine
    else s
  (s', if acq then w.dropPrefetch else w)

/-- Whether a release at a scope must wait: for acknowledgements of the tile's writes at cluster scope or wider, and of
the warp's remote writes at system scope (R328, R341). -/
def awaitsAcks (s : State) (g : Workgroup) (w : Warp) (rel : Bool) (scope : Nat) : Bool :=
  rel && ((decide (scope ≥ scopeCluster) && !(s.tile g.tile).unacked.isEmpty) || (scope == scopeSystem && w.remote != 0))

/-- What a release sends before it can complete: the dirty lines of the context (R286, R328). -/
def sendReleases (s : State) (g : Workgroup) (rel : Bool) (scope : Nat) : State :=
  if rel && decide (scope ≥ scopeCluster) then writeBackWhere s g.tile (fun l => l.asid == s.asidOf g) else s

/-- FENCE (R198): kind 0 releases, 1 acquires, 2 does both. -/
def execFence (k : BitVec 2) (sc : BitVec 3) (s : State) : Host.Outcome State Fault Refusal :=
  let rel := k != 1#2
  let acq := k != 0#2
  runNamed s (.fence k sc) (fun w => w.active) (fun s r g w =>
    let s := sendReleases s g rel sc.toNat
    if awaitsAcks s g w rel sc.toNat then waitAt s r w .remote
    else
      let q := fenceEffect s g w rel acq sc.toNat
      retire q.1 r g w q.2 false)

/-- Whether a line carries the index of an entry bound to an object (R286, R294, R296). -/
def boundLine (s : State) (g : Workgroup) (va : Nat) (l : Line) : Bool :=
  let es := tileRanges s g.tile (s.asidOf g) ((s.slot g.slot).rtab * 2048)
  l.asid == s.asidOf g && (match es[l.rix]? with
    | some e => rangeValid e && decide (rangeField e 5 1 = 1) && decide (rangeField e 208 48 = va)
    | none => false)

/-- An access to an object, which leaves nothing outstanding: an error completion of its request, if it leaves the device, is its
fault (R449). -/
def objectAccess (s : State) (r : WRef) (g : Workgroup) (w : Warp) (a : Acc) (addr : Int)
    (go : State → Xlated → State) (fail : State → Nat → State) : State :=
  uniformAccess s r g w a addr 8 (fun s x => match w.farFault x 32 addr.toNat with
    | some k => fail s k
    | none => go s x) fail

/-- ACQ: the object is read at the channel, and the lines of its bound regions are invalidated (R197, R286)
(DEDUCED, log entry 15). -/
def execAcq (d a : BitVec 6) (sc : BitVec 3) (s : State) : Host.Outcome State Fault Refusal :=
  runNamed s (.acq d a sc) (fun w => w.active) (fun s r g w =>
    let addr : Int := (w.sget a.toNat).toNat
    objectAccess s r g w .atomic addr
      (fun s x =>
        let q := chanObject s g.tile x.pa
        if q.2.2 then retireWithRecords q.1 r g w w false [uniRecord w addr 6 (typeOf 2 8)]
        else
          let s := invalidateWhere q.1 g.tile (boundLine q.1 g addr.toNat)
          retire s r g w ((w.sset d.toNat (BitVec.ofNat 64 q.2.1)).dropPrefetch) false)
      (fun s k => retireWithRecords s r g w w false [uniRecord w addr k (typeOf 2 8)]))

/-- REL: the writes to the bound regions are performed at the scope, then the object is written at the channel
(R197, R286, R341) (DEDUCED, log entry 15). -/
def execRel (d a : BitVec 6) (sc : BitVec 3) (s : State) : Host.Outcome State Fault Refusal :=
  runNamed s (.rel d a sc) (fun w => w.active) (fun s r g w =>
    let addr : Int := (w.sget a.toNat).toNat
    objectAccess s r g w .relObj addr
      (fun s x =>
        let s := if sc.toNat < scopeCluster then s else writeBackWhere s g.tile (boundLine s g addr.toNat)
        if awaitsAcks s g w true sc.toNat then waitAt s r w .remote
        else
          let s := invalidateLine s g.tile (lineOf x.pa)
          let s := chanWrite s x.pa 8 (w.sget d.toNat).toNat
          let cs := [(32, addr, .ok x)]
          let far := (farRecords w (typeOf 1 8) cs).map (fun f => (w.c.handler.isSome, f))
          retire s r g w { w.noteStores true 8 cs with posted := w.posted ++ far } false)
      (fun s k => retireWithRecords s r g w w false [uniRecord w addr k (typeOf 1 8)]))

/-! ### PUBLISH -/

/-- PUBLISH: a release, then the exchange at the translation home; with no entry, or one without a shadow, only a status
(R199, R297). -/
def execPublish (d a : BitVec 6) (sc : BitVec 3) (s : State) : Host.Outcome State Fault Refusal :=
  runNamed s (.publish d a sc) (fun w => w.active) (fun s r g w =>
    let s := sendReleases s g true sc.toNat
    if awaitsAcks s g w true sc.toNat then waitAt s r w .remote
    else
      let q := fenceEffect s g w true false sc.toNat
      let va := (w.sget a.toNat).toNat
      let c := q.1.slot g.slot
      match findRange (rangeTable q.1 (c.rtab * 2048)) va 0 with
      | none => retire q.1 r g w (q.2.sset d.toNat 1) false
      | some (_, e) =>
        if rangeField e 6 1 = 0 then retire q.1 r g w (q.2.sset d.toNat 2) false
        else waitAt { q.1 with issues := q.1.issues + 1 } r q.2 (.publish va d.toNat q.1.issues))

/-- A range entry with LIVE and SHADOW exchanged and GEN advanced (R297). -/
def exchanged (e : BitVec 256) : BitVec 256 :=
  let keep := e.toNat % 2 ^ 108 + rangeField e 188 4 * 2 ^ 188 + rangeField e 208 48 * 2 ^ 208
  BitVec.ofNat 256 (keep + rangeField e 148 40 * 2 ^ 108 + rangeField e 108 40 * 2 ^ 148
    + ((rangeField e 192 16 + 1) % 2 ^ 16) * 2 ^ 192)

/-- The management cores write entry k of a slot's range table, and every tile forgets its copies for the context
(R297, R300). -/
def writeRange (s : State) (slot k : Nat) (e : BitVec 256) : State :=
  let c := s.slot slot
  let s := chanWrite s (c.rtab * 2048 + 32 * k) 32 e.toNat
  { s with tiles := s.tiles.map (fun t => (t.1, { t.2 with ranges := Table.del t.2.ranges c.asid })) }

/-- Whether another warp's PUBLISH of an entry reached the home before one's own (R297). -/
def publishBefore (s : State) (slot k order : Nat) : Bool :=
  s.wgs.any (fun g => g.2.slot == slot && g.2.warps.any (fun w => match w.2.c.wait with
    | .publish va _ o =>
      decide (o < order) && (match findRange (rangeTable s ((s.slot slot).rtab * 2048)) va 0 with
        | some (j, _) => j == k
        | none => false)
    | _ => false))

/-- PUBLISH_EXCHANGE: the home exchanges the offsets in one step and the warp's PUBLISH retires with its status; of two for
one entry, the one that arrived first goes first (R199, R297). -/
def execPublishExchange (r : WRef) (s : State) : Host.Outcome State Fault Refusal :=
  .next (match s.wg r.wg, s.warp r with
    | some g, some w =>
      match w.c.wait with
      | .publish va d order =>
        let done := fun (s : State) (v : Reg) => retire s r g w (w.sset d v) false
        match findRange (rangeTable s ((s.slot g.slot).rtab * 2048)) va 0 with
        | none => done s 1
        | some (k, e) =>
          if rangeField e 6 1 = 0 then done s 2
          else if publishBefore s g.slot k order then s
          else done (writeRange s g.slot k (exchanged e)) 0
      | _ => s
    | _, _ => s)

/-! ### WAITC and acknowledgements -/

/-- WAITC retires as FENCE.ACQ at system scope (R277). -/
def waitcDone (s : State) (r : WRef) (g : Workgroup) (w : Warp) : State :=
  let q := fenceEffect s g w false true scopeSystem
  retire q.1 r g w q.2 false

/-- WAITC (R277, R340, R344): the counter is read at its channel; while it is too small the warp waits. -/
def execWaitc (d a : BitVec 6) (s : State) : Host.Outcome State Fault Refusal :=
  runNamed s (.waitc d a) (fun w => w.active) (fun s r g w =>
    let addr : Int := (w.sget a.toNat).toNat
    objectAccess s r g w .waitObj addr
      (fun s x =>
        let q := chanObject s g.tile x.pa
        if q.2.2 then retireWithRecords q.1 r g w w false [uniRecord w addr 6 (typeOf 2 8)]
        else if q.2.1 < (w.sget d.toNat).toNat then waitAt q.1 r w (.counter addr.toNat (w.sget d.toNat).toNat)
        else waitcDone q.1 r g w)
      (fun s k => retireWithRecords s r g w w false [uniRecord w addr k (typeOf 2 8)]))

/-- The counter a warp waits for is tested at its channel: when it is large enough WAITC retires; when its address no
longer translates, or needs a walk that has to wait, or its read meets an error, the warp issues WAITC again (R277, R300, R449). -/
def testCounter (s : State) (r : WRef) (onlyRemote : Bool) : State :=
  match s.wg r.wg, s.warp r with
  | some g, some w =>
    if s.frozen r then s else
    match w.c.wait with
    | .counter va v =>
      if walkHeld s g.tile g.slot va then waitAt s r w .none else
      let t := translate s g.tile g.slot va .waitObj
      match t.2 with
      | .ok x =>
        if onlyRemote && spaceOf x.pa == 0 then s
        else if (w.farFault x 32 va).isSome then waitAt t.1 r w .none
        else
          let q := chanObject t.1 g.tile x.pa
          if q.2.2 then waitAt q.1 r w .none
          else if q.2.1 < v then q.1
          else waitcDone q.1 r g w
      | _ => waitAt t.1 r w .none
    | _ => s
  | _, _ => s

/-- WAITC_WAKE (R277). -/
def execWaitcWake (r : WRef) (s : State) : Host.Outcome State Fault Refusal := .next (testCounter s r false)

/-- REMOTE_COUNTER_POLL (R344). -/
def execRemoteCounterPoll (r : WRef) (s : State) : Host.Outcome State Fault Refusal := .next (testCounter s r true)

/-- The waiting WAITCs of some tiles test their counters (R344). -/
def testCounters (s : State) (tiles : Nat → Bool) (onlyRemote : Bool) : State :=
  let rs := (s.wgs.filter (fun g => tiles g.2.tile && g.2.onTile)).flatMap (fun g => g.2.warps.map (fun w => WRef.mk g.1 w.1))
  rs.foldl (fun s r => testCounter s r onlyRemote) s

/-- A posted write of a warp has been performed (R340); with none left, a release that waited goes on (R341). -/
def Warp.remoteDone (w : Warp) : Warp :=
  let w := { w with remote := w.remote - 1, posted := if w.remote ≤ 1 then [] else w.posted }
  match w.c.wait with
  | .remote => if w.remote = 0 then { w with c := { w.c with wait := .none } } else w
  | _ => w

/-- REMOTE_WRITE_ACK: after it the device's warps that wait on a remote counter test it again (R344). -/
def execRemoteWriteAck (r : WRef) (s : State) : Host.Outcome State Fault Refusal :=
  .next (match s.warp r with
    | some w => testCounters (s.setWarp r w.remoteDone) (fun _ => true) true
    | none => s)

/-- LONG_LATENCY_COMPLETE of a memory access (R54, R186). A matrix instruction completes by its last row block, so while
one is outstanding its number names nothing here (R223). One whose requests left the device has its remote writes acknowledged (R344). -/
def execLongLatencyComplete (r : WRef) (k : Nat) (s : State) : Host.Outcome State Fault Refusal :=
  .next (match s.warp r with
    | some w =>
      if (w.mat.map (·.opId)) = some k then s
      else
        let left := w.outs.any (fun o => o.id == k && !o.far.isEmpty)
        let s := completeOp s r k
        if left then testCounters s (fun _ => true) true else s
    | none => s)

/-- WRITE_ACKNOWLEDGEMENT: a write to space 0x0 is acknowledged to its tile; with none left, the releases that waited on the
tile are issued again (R328). -/
def execWriteAcknowledgement (tile line : Nat) (s : State) : Host.Outcome State Fault Refusal :=
  let left := (s.tile tile).unacked.erase line
  let s := s.setTile tile { s.tile tile with unacked := left }
  .next (if left.isEmpty then
    { s with wgs := s.wgs.map (fun (g : Nat × Workgroup) =>
        if g.2.tile = tile then
          (g.1, { g.2 with warps := g.2.warps.map (fun w => (w.1, match w.2.c.wait with
            | .remote => { w.2 with c := { w.2.c with wait := .none } }
            | _ => w.2)) })
        else g) }
    else s)

end Sys2Proof.Machine
end

