-- ==== Sys2Proof/Machine/Barriers.lean ====
section
/-! DEFINITION. Transaction barriers (R258-R263) and the meetings of warps at BAR and GBAR (R264). -/

namespace Sys2Proof.Machine

/-! ### The object -/

/-- A transaction barrier (R258): its fields, and the bits above them. -/
structure TBar where
  phase : Nat
  zero : Nat
  pend : Nat
  init : Nat
  sect : Nat
  wprio : Nat
  pv : Nat
  rest : Nat
deriving DecidableEq, Repr

/-- The fields of an object's 128 bits, and the bits of its fields (R258). -/
def tbarOf (v : Nat) : TBar :=
  ⟨v % 2 ^ 4, v / 2 ^ 4 % 2 ^ 12, v / 2 ^ 16 % 2 ^ 24, v / 2 ^ 40 % 2 ^ 24, v / 2 ^ 64 % 2 ^ 32, v / 2 ^ 96 % 8,
    v / 2 ^ 99 % 2, v / 2 ^ 100⟩
def tbarBits (b : TBar) : Nat :=
  b.phase + b.zero * 2 ^ 4 + b.pend * 2 ^ 16 + b.init * 2 ^ 40 + b.sect * 2 ^ 64 + b.wprio * 2 ^ 96 + b.pv * 2 ^ 99
    + b.rest * 2 ^ 100

/-- The advance of the phase that follows an update in the same step (R259). -/
def tbarSettle (b : TBar) : TBar :=
  if b.pend = 0 ∧ b.sect = 0 then { b with phase := (b.phase + 1) % 16, pend := b.init, pv := 0, wprio := 0 } else b

/-- The object at an offset of a workgroup's scratchpad, and one indivisible update of it (R259). -/
def tbarAt (g : Workgroup) (off : Nat) : TBar := tbarOf (Memory.readN g.sp off 16)
def tbarPut (g : Workgroup) (off : Nat) (b : TBar) : Workgroup :=
  { g with sp := Memory.writeN g.sp off 16 (tbarBits (tbarSettle b)) }

/-- SECT with a count added, modulo 2^32 (R258, R260). -/
def tbarAdd (b : TBar) (n : Nat) : TBar := { b with sect := (b.sect + n) % 2 ^ 32 }

/-- One pending sector fewer, in the workgroup that holds the barrier (R255, R259). -/
def sectorArrives (s : State) (u off : Nat) : State :=
  s.updWg u (fun g => tbarPut g off (tbarAdd (tbarAt g off) (2 ^ 32 - 1)))

/-- Whether an object is one that the instructions other than TBINIT accept (R261). -/
def tbarSound (b : TBar) : Bool := b.zero == 0 && b.init != 0 && b.rest == 0

/-- Whether a barrier's place is legal in a workgroup (R261). -/
def tbarPlaceOk (g : Workgroup) (off : Nat) : Bool := decide (off % 16 = 0) && decide (off + 16 ≤ g.spAlloc)

/-! ### Instructions -/

/-- The workgroup that holds the object an instruction names: its own, or a sibling of its gang (R260, R261)
(DEDUCED, log entry 21). -/
def barrierHolder (s : State) (r : WRef) (g : Workgroup) (sib : Bool) (k : Nat) : Option (Nat × Workgroup) :=
  if sib then
    if g.gangLaunch then
      match g.gang[k]? with
      | some u => (s.wg u).map (fun h => (u, h))
      | none => none
    else none
  else some (r.wg, g)

/-- Run TBINIT, TBEXP or TBARR on the object it names: bad is what R261 adds to the checks of the place, f the update with
the warp after it. It first releases (R263). -/
def runBarrier (s : State) (i : Instr) (a : BitVec 6) (sib : Bool) (k : Nat) (bad : Warp → TBar → Bool)
    (f : Warp → TBar → TBar × Warp) : Host.Outcome State Fault Refusal :=
  runNamed s i (fun w => w.active) (fun s r g w =>
    let off := (w.sget a.toNat).toNat
    match barrierHolder s r g sib k with
    | some (u, h) =>
      if tbarPlaceOk h off && !bad w (tbarAt h off) then
        let scope := if sib then scopeCluster else scopeWg
        let s := sendReleases s g true scope
        if awaitsAcks s g w true scope then waitAt s r w .remote else
        let q := fenceEffect s g w true false scope
        let b := f q.2 (tbarAt h off)
        retire (q.1.updWg u (fun h => tbarPut h off b.1)) r g w b.2 false
      else preciseTrap s r w 0x09
    | none => preciseTrap s r w 0x09)

/-- TBINIT (R260, R261). -/
def execTbinit (d a : BitVec 6) (s : State) : Host.Outcome State Fault Refusal :=
  runBarrier s (.tbinit d a) a false 0
    (fun w _ => decide (fieldOf (w.sget d.toNat) 0 24 = 0) || decide (fieldOf (w.sget d.toNat) 24 40 ≠ 0))
    (fun w _ =>
      let n := fieldOf (w.sget d.toNat) 0 24
      (⟨0, 0, n, n, 0, 0, 0, 0⟩, w))

/-- TBEXP (R260, R261): expected sectors, and with .ARR one arrival in the same step. -/
def execTbexp (d a : BitVec 6) (r s0 : BitVec 1) (g : BitVec 3) (s : State) : Host.Outcome State Fault Refusal :=
  runBarrier s (.tbexp d a r s0 g) a (s0 == 1) g.toNat
    (fun w b => decide (fieldOf (w.sget d.toNat) 32 32 ≠ 0) || !tbarSound b || (r == 1 && b.pend == 0))
    (fun w b =>
      let b := tbarAdd b (fieldOf (w.sget d.toNat) 0 32)
      (if r = 1 then { b with pend := b.pend - 1 } else b, w))

/-- TBARR (R260, R261): the phase before the update is returned. -/
def execTbarr (d a : BitVec 6) (s0 : BitVec 1) (g : BitVec 3) (s : State) : Host.Outcome State Fault Refusal :=
  runBarrier s (.tbarr d a s0 g) a (s0 == 1) g.toNat (fun _ b => !tbarSound b || b.pend == 0)
    (fun w b => ({ b with pend := b.pend - 1 }, w.sset d.toNat (BitVec.ofNat 64 b.phase)))

/-- A TBWAIT retires with an acquire at cluster scope (R263). -/
def tbwaitDone (s : State) (r : WRef) (g : Workgroup) (w : Warp) : State :=
  let q := fenceEffect s g w false true scopeCluster
  retire q.1 r g w q.2 false

/-- TBWAIT (R262): while the phase is the expected one, the warp records its priority and waits. -/
def execTbwait (d a : BitVec 6) (s : State) : Host.Outcome State Fault Refusal :=
  runNamed s (.tbwait d a) (fun w => w.active) (fun s r g w =>
    let off := (w.sget a.toNat).toNat
    let b := tbarAt g off
    if tbarPlaceOk g off && tbarSound b then
      let phase := fieldOf (w.sget d.toNat) 0 4
      if b.phase ≠ phase then tbwaitDone s r g w
      else
        let s := s.updWg r.wg (fun g => tbarPut g off { b with wprio := max b.wprio (warpPrio g r.wp w), pv := 1 })
        waitAt { s with issues := s.issues + 1 } r w (.tb off phase s.issues)
    else preciseTrap s r w 0x09)

/-- A warp that waits in TBWAIT: its handle, priority and arrival. -/
structure Waiter where
  r : WRef
  prio : Nat
  order : Nat
deriving DecidableEq, Repr

/-- The waiters of an object whose phase is no longer the one waited on. -/
def tbWaiters (s : State) (u off : Nat) : List Waiter :=
  match s.wg u with
  | some g => g.warps.filterMap (fun x => match x.2.c.wait with
    | .tb o ph k =>
      if o = off ∧ (tbarAt g off).phase ≠ ph ∧ s.frozen ⟨u, x.1⟩ = false then some ⟨⟨u, x.1⟩, warpPrio g x.1 x.2, k⟩
      else none
    | _ => none)
  | none => []

/-- Put a waiter in its place: priority, then arrival (R212, R262). -/
def insertWaiter (x : Waiter) : List Waiter → List Waiter
  | [] => [x]
  | y :: r => if x.prio > y.prio ∨ (x.prio = y.prio ∧ x.order < y.order) then x :: y :: r else y :: insertWaiter x r

/-- TBWAIT_WAKE: the waiters retire, in their order (R262, R263). -/
def execTbwaitWake (wg off : Nat) (s : State) : Host.Outcome State Fault Refusal :=
  .next (((tbWaiters s wg off).foldl (fun l x => insertWaiter x l) []).foldl (fun s x =>
    match s.wg x.r.wg, s.warp x.r with
    | some g, some w => tbwaitDone s x.r g w
    | _, _ => s) s)

/-! ### BAR and GBAR -/

/-- The workgroups whose warps meet: the workgroup, or its gang for a GBAR of a launch of gangs (R264). -/
def meetingGroups (g : Workgroup) (u : Nat) (gang : Bool) : List Nat := if gang && g.gangLaunch then g.gang else [u]

/-- The meetings of its kind that a warp has passed. -/
def Warp.meetings (w : Warp) (gang : Bool) : Nat := if gang then w.gbars else w.bars

/-- Whether a warp has arrived at meeting k, or has passed it, or has ended (R264). -/
def Warp.arrived (w : Warp) (gang : Bool) (k : Nat) : Bool :=
  w.c.ended || decide (w.meetings gang > k) || (w.meetings gang == k && w.c.wait == .bar gang)

/-- Whether every party of a meeting has arrived; workgroups that have ended have. -/
def allArrived (s : State) (us : List Nat) (gang : Bool) (k : Nat) : Bool :=
  us.all (fun u => match s.wg u with
    | some g => g.warps.all (fun x => x.2.arrived gang k)
    | none => true)

/-- A party is released: it fences and retires (R264). -/
def releaseParty (s : State) (r : WRef) (gang : Bool) : State :=
  match s.wg r.wg, s.warp r with
  | some g, some w =>
    let q := fenceEffect s g w true true (if gang && g.gangLaunch then scopeCluster else scopeWg)
    let w' := if gang then { q.2 with gbars := w.gbars + 1 } else { q.2 with bars := w.bars + 1 }
    retire q.1 r g w w' false
  | _, _ => s

/-- The parties that stand at meeting k. -/
def standing (s : State) (us : List Nat) (gang : Bool) (k : Nat) : List WRef :=
  us.flatMap (fun u => match s.wg u with
    | some g => g.warps.filterMap (fun x =>
      if x.2.c.wait = .bar gang ∧ x.2.meetings gang = k ∧ s.frozen ⟨u, x.1⟩ = false then some ⟨u, x.1⟩ else none)
    | none => [])

/-- The dirty lines that a release at cluster scope sends first, and whether their acknowledgements are in (R264, R328). -/
def meetingSends (s : State) (us : List Nat) (gang : Bool) : State × Bool :=
  us.foldl (fun q u => match q.1.wg u with
    | some g =>
      if gang && g.gangLaunch && g.onTile then
        let s := sendReleases q.1 g true scopeCluster
        (s, q.2 && (s.tile g.tile).unacked.isEmpty)
      else q
    | none => q) (s, true)

/-- Release meeting k if every party has arrived, once what it releases has been acknowledged (R264). -/
def releaseMeeting (s : State) (us : List Nat) (gang : Bool) (k : Nat) : State :=
  if allArrived s us gang k then
    let q := meetingSends s us gang
    if q.2 then (standing q.1 us gang k).foldl (fun s r => releaseParty s r gang) q.1 else q.1
  else s

/-- Arrive at a meeting: the last arrival releases it. -/
def runMeeting (s : State) (i : Instr) (gang : Bool) : Host.Outcome State Fault Refusal :=
  runNamed s i (fun w => w.active) (fun s r g w =>
    releaseMeeting (waitAt s r w (.bar gang)) (meetingGroups g r.wg gang) gang (w.meetings gang))

/-- BAR (R264). -/
def execBar (s : State) : Host.Outcome State Fault Refusal := runMeeting s .bar false

/-- GBAR (R264). -/
def execGbar (s : State) : Host.Outcome State Fault Refusal := runMeeting s .gbar true

/-- BAR_RELEASE: the meetings at which warps of the workgroup stand are released where the last party has ended or gone
on (R264). -/
def execBarRelease (wg : Nat) (gang : Bool) (s : State) : Host.Outcome State Fault Refusal :=
  .next (match s.wg wg with
    | some g =>
      let ks := (g.warps.filterMap (fun x => if x.2.c.wait = .bar gang then some (x.2.meetings gang) else none)).eraseDups
      ks.foldl (fun s k => releaseMeeting s (meetingGroups g wg gang) gang k) s
    | none => s)

end Sys2Proof.Machine
end

