-- ==== Sys2Proof/Machine/Boot.lean ====
section
/-! DEFINITION. Straps, boot, attestation and the management port (R498-R502, R505). -/

namespace Sys2Proof.Machine

/-! ### Images -/

/-- Where an image lies in the flash: slot 0 is A, 1 is B; stage 1 or 2 (R499). -/
def imageAt (slot stage : Nat) : Nat := slot * 2 ^ 25 + (if stage = 2 then 2 ^ 23 else 0)

/-- A field of an image's header (R499). -/
def imageField (f : Memory) (at_ off n : Nat) : Nat := Memory.readN f (at_ + off) n

/-- A run of bytes of the flash. -/
def flashBytes (f : Memory) (a n : Nat) : List Byte :=
  (List.range n).map (fun i => BitVec.ofNat 8 (Memory.readN f (a + i) 1))

/-- The payload of an image (R499). -/
def payloadOf (f : Memory) (at_ : Nat) : List Byte := flashBytes f (at_ + 0x8000) (imageField f at_ 8 8)

/-- Why an image is rejected, if it is: 1 its form, 2 its key, 3 its signature, 4 its security version (R499, R500; the
reasons have no codes in the spec, DESIGN CHOICE, log entry 12). -/
def imageReason (d : Device) (at_ minSvn : Nat) : Option Nat :=
  let f := d.flash
  let len := imageField f at_ 8 8
  let pk := flashBytes f (at_ + 0x10) 64
  if imageField f at_ 0 4 ≠ 0x4D545831 ∨ len = 0 ∨ len > 0x7F8000 ∨ Memory.readN f (at_ + 0x74B0) 2896 ≠ 0 then some 1
  else if Config.shake256 pk 64 ≠ d.romHash then some 2
  else if Config.slhDsaVerify pk (flashBytes f at_ 0x50 ++ payloadOf f at_) (flashBytes f (at_ + 0x50) 29792) = false then
    some 3
  else if imageField f at_ 4 4 < minSvn then some 4
  else none

/-- The image of a stage from a slot, or else from the other one: the slot taken, or the reason of the last rejection
(R500). -/
def pickImage (d : Device) (first stage minSvn : Nat) : Nat ⊕ Nat :=
  match imageReason d (imageAt first stage) minSvn with
  | none => .inl first
  | some _ => match imageReason d (imageAt (1 - first) stage) minSvn with
    | none => .inl (1 - first)
    | some r => .inr r

/-! ### Stages -/

/-- The bits of BOOTSTRAP that are not reserved (R498). -/
def strapMask : BitVec 64 := 0xFFFF0F#64

/-- The device as power-on leaves it before the ROM runs: what persists is the flash, the ROM, the fuses and the device's
place in its pod (R492, R498). -/
def poweredDevice (d : Device) (straps : BitVec 64) : Device :=
  { Device.reset with
    devid := d.devid
    pod := d.pod
    flash := d.flash
    romHash := d.romHash
    minSvn1 := d.minSvn1
    minSvn2 := d.minSvn2
    secret := d.secret
    bootstrap := straps &&& strapMask }

/-- What a read of the device secret gives: zero once the ROM has locked it, until the next power-on (R502). -/
def Device.secretRead (d : Device) : List Byte := if d.locked then d.secret.map (fun _ => 0) else d.secret

/-- The measurement of the payload of the stage 2 image that stage 1 in a slot takes (R500, R502). -/
def measureStage2 (d : Device) (k : Nat) : List Byte :=
  match pickImage d k 2 d.minSvn2 with
  | .inl j => Config.shake256 (payloadOf d.flash (imageAt j 2)) 64
  | .inr _ => []

/-- The ROM derives the identity and the alias key pair from the device secret and its measurements, and locks the secret (R502). -/
def deriveKeys (d : Device) : Device :=
  { d with identity := Config.identityKey d.secretRead
           alias_ := Config.aliasKey d.secretRead d.meas1 d.meas2
           locked := true }

/-- Stage 0: stage 1 of the first slot, then of the other; the ROM measures it and the stage 2 that it will take, derives the keys
and locks the secret (R500, R502) (DEDUCED, log entry 38). -/
def romStage (d : Device) : Device :=
  match pickImage d (if d.bootstrap.getLsbD 3 then 1 else 0) 1 d.minSvn1 with
  | .inl k =>
    let a := imageAt k 1
    deriveKeys { d with stage := 1, bootSlot := k, svn1 := imageField d.flash a 4 4,
                        meas1 := Config.shake256 (payloadOf d.flash a) 64, meas2 := measureStage2 d k }
  | .inr r => { d with halted := some r, locked := true }

/-- POWER_ON (R498, R500): nothing volatile stays. The model's own order of agents and its counters go on. -/
def execPowerOn (straps : BitVec 64) (s : State) : Host.Outcome State Fault Refusal :=
  .next { State.reset with
    turns := s.turns
    here := s.here
    free := s.free
    nextUid := s.nextUid
    nextId := s.nextId
    issues := s.issues
    quantum := s.quantum
    dev := romStage (poweredDevice s.dev straps) }

/-- BOOT_STAGE1: base memory is cleared, and stage 2 of the own slot, else of the other, is loaded (R500)
(DEDUCED, log entry 38). -/
def execBootStage1 (s : State) : Host.Outcome State Fault Refusal :=
  let d := s.dev
  .next (if d.stage = 1 ∧ d.halted = none then
      let s := { s with mem := s.mem.filter (fun c => decide (c.1 ≥ 2 ^ 48)) }
      match pickImage d d.bootSlot 2 d.minSvn2 with
      | .inl k =>
        let a := imageAt k 2
        { s with dev := { d with stage := 2, svn2 := imageField d.flash a 4 4 } }
      | .inr r => { s with dev := { d with halted := some r } }
    else s)

/-- The ports that the straps give, trained (R498, R500). -/
def trainPorts (d : Device) : Device :=
  { d with
    ports := (List.range 16).filter (fun k => d.bootstrap.getLsbD (8 + k))
    hostUp := d.bootstrap.getLsbD 0
    ethUp := [0, 1].filter (fun k => d.bootstrap.getLsbD (1 + k)) }

/-- The device OS sets the base of BAR2: a free value, a multiple of 128 (R503; DESIGN CHOICE, log entry 47). -/
def setBar2 (s : State) : State :=
  let q := s.draw
  { q.2 with dev := { q.2.dev with bar2 := q.1.toNat % 2 ^ 48 / 128 * 128 } }

/-- BOOT_STAGE2: the ports are trained, the base of BAR2 is set, and the dispatchers are released (R500, R503). -/
def execBootStage2 (s : State) : Host.Outcome State Fault Refusal :=
  .next (if s.dev.stage = 2 ∧ s.dev.halted = none ∧ (s.die 0).released = false then
      let s := setBar2 { s with dev := trainPorts s.dev }
      [0, 1, 2, 3].foldl (fun s d => s.setDie d { s.die d with released := true }) s
    else s)

/-! ### Attestation and status -/

/-- n bytes of a number, lowest first (R6). -/
def littleBytes (n v : Nat) : List Byte := (List.range n).map (fun i => BitVec.ofNat 8 (v / 256 ^ i))

/-- The signed part of a report, before the alias signature (R502). -/
def reportBody (d : Device) (nonce : BitVec 256) : List Byte :=
  let pub := Config.publicHalf d.alias_
  littleBytes 32 nonce.toNat ++ littleBytes 8 (d.devid % 1024) ++ littleBytes 4 d.svn1 ++ littleBytes 4 d.svn2
    ++ d.meas1 ++ d.meas2 ++ pub ++ Config.slhDsaSign d.identity pub

/-- ATTESTATION_REPORT (R502), once the device OS runs. -/
def execAttestationReport (nonce : BitVec 256) (s : State) : Host.Outcome State Fault Refusal :=
  let d := s.dev
  .next (if d.stage = 2 then
      let body := reportBody d nonce
      { s with dev := { d with report := body ++ Config.slhDsaSign d.alias_ body } }
    else s)

/-- MCTP_REQUEST: the answer of the management port: boot stage, failure reason, a temperature (a free value, DESIGN CHOICE, log entry 2),
the power of each die, the counts of corrected, soft and lasting errors (R505). Nothing else changes. -/
def execMctpRequest (s : State) : Host.Outcome State Fault Refusal :=
  let q := s.draw
  let count := fun (cls : Nat) => ([1, 2, 3, 4, 5].map (fun k => Table.get s.dev.errors 0 (4 * k + cls))).sum
  let words := [s.dev.stage, s.dev.halted.getD 0, q.1.toNat] ++ [0, 1, 2, 3].map (fun d => (s.die d).power)
    ++ [count logCorrected, count logSoft, count logLasting]
  .next { q.2 with dev := { q.2.dev with mctp := words.map (BitVec.ofNat 64) } }

end Sys2Proof.Machine
end

