-- ==== Sys2Proof/Machine/MatrixFns.lean ====
section
/-! DEFINITION. The arithmetic of the matrix engine: operand records, triangular mode, block sums, block scales
(R87, R106, R107, R216-R228). -/

namespace Sys2Proof.Machine

/-- Word i of a record. -/
def recWord (ws : List Reg) (i : Nat) : Reg := ws.getD i 0

/-- Fields of word 3 (R216). -/
def recK (ws : List Reg) : Nat := fieldOf (recWord ws 3) 0 16
def recAF (ws : List Reg) : BitVec 5 := BitVec.ofNat 5 (fieldOf (recWord ws 3) 16 5)
def recBF (ws : List Reg) : BitVec 5 := BitVec.ofNat 5 (fieldOf (recWord ws 3) 21 5)
def recSC (ws : List Reg) : Bool := (recWord ws 3).getLsbD 26
def recTri (ws : List Reg) : Bool := (recWord ws 3).getLsbD 27
def recTmode (ws : List Reg) : Nat := fieldOf (recWord ws 3) 28 2
def recDoff (ws : List Reg) : Int := signedOf 16 (fieldOf (recWord ws 3) 32 16)
def recLit (ws : List Reg) : Nat := fieldOf (recWord ws 3) 48 16

/-- An operand matrix: in scratchpad or not, address, stride of its rows (R216). -/
structure MatSrc where
  sp : Bool
  addr : Nat
  stride : Nat
deriving DecidableEq, Repr

def recA (ws : List Reg) : MatSrc := ⟨(recWord ws 0).getLsbD 63, fieldOf (recWord ws 0) 0 48, fieldOf (recWord ws 2) 0 32⟩
def recB (ws : List Reg) : MatSrc := ⟨(recWord ws 1).getLsbD 63, fieldOf (recWord ws 1) 0 48, fieldOf (recWord ws 2) 32 32⟩

/-- The team word (R234): column block, row block, and the result's blocks across and down. -/
def teamCB (ws : List Reg) : Nat := fieldOf (recWord ws 4) 7 3
def teamRB (ws : List Reg) : Nat := fieldOf (recWord ws 4) 5 2
def teamNB (ws : List Reg) : Nat := fieldOf (recWord ws 4) 2 3 + 1
def teamMB (ws : List Reg) : Nat := fieldOf (recWord ws 4) 0 2 + 1

/-- The scale words of A and B (R219, R234). -/
def scaleWord (team : Bool) (ws : List Reg) (b : Bool) : Reg :=
  recWord ws ((if team then 5 else 4) + if b then 1 else 0)

/-- The pairs of formats (R217): accumulator tag, and whether scales are allowed. -/
def matPair (a b : BitVec 5) : Option (BitVec 5 × Bool) :=
  match a.toNat, b.toNat with
  | 0x12, 0x12 => some (0x11#5, false)
  | 0x13, 0x13 => some (0x11#5, false)
  | 0x14, 0x14 => some (0x11#5, true)
  | 0x14, 0x15 => some (0x11#5, true)
  | 0x15, 0x14 => some (0x11#5, true)
  | 0x15, 0x15 => some (0x11#5, true)
  | 0x16, 0x16 => some (0x11#5, true)
  | 0x01, 0x01 => some (0x05#5, false)
  | _, _ => none

/-- The accumulator tag of a record: f32 or s32. -/
def accTag (ws : List Reg) : BitVec 5 := ((matPair (recAF ws) (recBF ws)).map (·.1)).getD 0x11#5

/-- Whether rows elements of bits b, by a number of rows with a stride, pass the scratchpad allocation (R220). -/
def matOutside (alloc : Nat) (m : MatSrc) (rows els b : Nat) : Bool :=
  m.sp && decide (m.addr + (rows - 1) * m.stride + (els * b + 7) / 8 > alloc)

/-- The faults of R220 that the words themselves show: alloc is the scratchpad allocation, n the columns of an MMA. -/
def recordBad (alloc : Nat) (team : Bool) (n : Nat) (ws : List Reg) : Bool :=
  let a := recA ws
  let b := recB ws
  let k := recK ws
  let rows := if team then 64 * teamMB ws else 64
  let cols := if team then 64 * teamNB ws else n
  let addrBad := fun (m : MatSrc) => if m.sp then decide (m.addr ≥ 2 ^ 32) else decide (m.addr % 16 ≠ 0)
  let w3 := recWord ws 3
  let common := decide (fieldOf (recWord ws 0) 48 15 ≠ 0) || decide (fieldOf (recWord ws 1) 48 15 ≠ 0)
    || decide (fieldOf w3 30 2 ≠ 0) || (team && decide (fieldOf (recWord ws 4) 10 54 ≠ 0))
    || decide (k = 0) || decide (k % 16 ≠ 0) || (recSC ws && decide (k % 32 ≠ 0))
    || addrBad a || addrBad b || decide (a.stride % 16 ≠ 0) || decide (b.stride % 16 ≠ 0)
    || matOutside alloc a rows k (fmtWidth (recAF ws)) || matOutside alloc b k cols (fmtWidth (recBF ws))
  match matPair (recAF ws) (recBF ws) with
  | none => true
  | some (t, sc) =>
    common || (recSC ws && !sc)
      || (recTri ws && (decide (recTmode ws = 3) || (decide (recTmode ws = 1) && decide (t = 0x05#5))))

/-- Whether element (i, c) of the result is masked (R226). -/
def triMasked (ws : List Reg) (i c : Nat) : Bool := recTri ws && decide (recDoff ws < (c : Int) - i)

/-- Whether its sub-tile is wholly masked (R226). -/
def triWhole (ws : List Reg) (i c : Nat) : Bool :=
  recTri ws && decide (recDoff ws < ((16 * (c / 16) : Nat) : Int) - ((16 * (i / 16) + 15 : Nat) : Int))

/-- The constant of masked elements (R226). -/
def triConst (ws : List Reg) : Nat :=
  match recTmode ws with
  | 0 => 0
  | 1 => 0xFF800000
  | _ => if accTag ws = 0x05#5 then wrapTo 32 (signedOf 16 (recLit ws)) else recLit ws * 2 ^ 16

/-- The value of an E8M0 scale (R87). -/
def scaleVal (e : Nat) : FVal := if e = 255 then .nan false else .fin false 1 ((e : Int) - 127)

/-- The value of an element with its scale (R87, R219). -/
def scaledVal (t : BitVec 5) (bits : Nat) (scale : Option Nat) : FVal :=
  match floatFmt t with
  | some f => match scale with
    | some e => (fprod (fdecode f bits) (scaleVal e)).1
    | none => fdecode f bits
  | none => .nan false

/-- The exact sum of finite products. -/
def sumFin : List FVal → Int × Int
  | [] => (0, 0)
  | .fin n m e :: r =>
    let q := sumFin r
    dyadicAdd (smant n m) e q.1 q.2
  | _ :: r => sumFin r

/-- The block sum of floating products: exact, rounded once to f32 (R106). -/
def blockSum (ps : List FVal) : FRes :=
  let pos := ps.any (fun p => p == .inf false)
  let neg := ps.any (fun p => p == .inf true)
  if ps.any FVal.isNan || (pos && neg) then ⟨canonNan fmtF32, flNV⟩
  else if pos then ⟨infPattern fmtF32 false, 0⟩
  else if neg then ⟨infPattern fmtF32 true, 0⟩
  else
    let q := sumFin ps
    froundInt fmtF32 q.1 q.2 (ps.all FVal.neg)

/-- The new value of an accumulator element from its old value and the block's elements of A and B (R106, R107, R223). -/
def accStep (ws : List Reg) (acc : Nat) (as_ bs : List FVal) : FRes :=
  let s := blockSum ((as_.zip bs).map (fun p => (fprod p.1 p.2).1))
  let r := fadd fmtF32 (fdecode fmtF32 acc) (fdecode fmtF32 s.bits)
  if accTag ws = 0x05#5 then ⟨acc, 0⟩ else ⟨r.bits, s.fl ||| r.fl⟩

/-- The same for s8 operands: exact sums, wrapped to 32 bits (R107). -/
def accStepInt (acc : Nat) (as_ bs : List Nat) : Nat :=
  let s := (as_.zip bs).foldl (fun (a : Int) p => a + signedOf 8 p.1 * signedOf 8 p.2) 0
  wrapTo 32 (signedOf 32 acc + s)

/-- The E8M0 code of MSCALE for a magnitude given as an f32 pattern (R228): emax by the element format. -/
def mscaleCode (f : BitVec 3) (bits : Nat) : Nat :=
  let emax : Int := match f.toNat with
    | 0 => 8
    | 1 => 15
    | _ => 2
  match fdecode fmtF32 bits with
  | .fin _ m e =>
    if m = 0 then 0
    else (min (max (((Nat.log2 m : Nat) : Int) + e - emax + 127) 0) 254).toNat
  | _ => 0xFF

end Sys2Proof.Machine
end

