-- ==== Sys2Proof/Machine/CollectiveFns.lean ====
section
/-! DEFINITION. The shape record (R250), and what a collective computes: groups, chains, segments and their combination
(R454-R466). -/

namespace Sys2Proof.Machine

/-! ### Shape records -/

/-- Fields of a shape record (R250): extents less one, box sizes, strides by dimension. -/
def shapeFmt (sh : List Reg) : BitVec 5 := BitVec.ofNat 5 (fieldOf (sh.getD 0 0) 59 5)
def shapeNdim (sh : List Reg) : Nat := fieldOf (sh.getD 0 0) 56 3
def shapeBase (sh : List Reg) : Nat := fieldOf (sh.getD 0 0) 0 48
def shapeExt (sh : List Reg) (d : Nat) : Nat := if d < 4 then fieldOf (sh.getD 1 0) (16 * d) 16 else fieldOf (sh.getD 2 0) 0 16
def shapeBox (sh : List Reg) (d : Nat) : Nat := fieldOf (sh.getD 2 0) (16 + 8 * d) 8
def shapeStride (sh : List Reg) (d : Nat) : Nat :=
  if d = 0 then 0 else fieldOf (sh.getD (3 + (d - 1) / 2) 0) (32 * ((d - 1) % 2)) 32

/-- Half bytes of an element (R250). -/
def shapeNib (sh : List Reg) : Nat := fmtWidth (shapeFmt sh) / 4

/-- Elements of the box before dimension d, and of the box and the tensor as a whole. -/
def boxBelow (sh : List Reg) (d : Nat) : Nat := ((List.range d).map (fun k => shapeBox sh k + 1)).prod
def boxSize (sh : List Reg) : Nat := boxBelow sh 5
def shapeSize (sh : List Reg) : Nat := ((List.range 5).map (fun k => shapeExt sh k + 1)).prod

/-- Whether a shape record breaks the rules of R250 for its first words: whole says that the sizes of the box must be zero,
as CPC has them (R457). -/
def shapeBad (sh : List Reg) (cpc : Bool) : Bool :=
  let t := shapeFmt sh
  let nd := shapeNdim sh
  let fmtBad := !fmtOk t || (cpc && decide (fmtWidth t < 8))
  fmtBad || decide (nd > 4) || decide (fieldOf (sh.getD 0 0) 48 8 ≠ 0) || decide (fieldOf (sh.getD 2 0) 56 8 ≠ 0)
    || decide (fmtWidth t ≥ 8 ∧ shapeBase sh % (fmtWidth t / 8) ≠ 0)
    || (List.range 5).any (fun d => decide (shapeStride sh d % 16 ≠ 0)
        || (decide (d > nd) && (shapeExt sh d != 0 || shapeBox sh d != 0 || shapeStride sh d != 0))
        || (cpc && shapeBox sh d != 0))

/-! ### The parameters of a call -/

/-- REPL, ROP, CAV, Q4 and the buffers (R250, R457). -/
def shapeRepl (sh : List Reg) : Nat := fieldOf (sh.getD 5 0) 53 3
def shapeRop (sh : List Reg) : Nat := fieldOf (sh.getD 5 0) 50 3
def shapeCav (sh : List Reg) : Bool := (sh.getD 5 0).getLsbD 49
def shapeQ4 (sh : List Reg) : Bool := (sh.getD 5 0).getLsbD 48
def shapeResid (sh : List Reg) : Nat := fieldOf (sh.getD 5 0) 0 48
def shapeSweep (sh : List Reg) (second : Bool) : Nat := fieldOf (sh.getD (if second then 7 else 6) 0) 0 48

/-- Extents less one and the participant's coordinates by axis (R250). -/
def axisWidth (a : Nat) : Nat := if a = 0 then 4 else 3
def axisBit (a : Nat) : Nat := match a with
  | 0 => 48
  | 1 => 52
  | _ => 55
def gridExt (sh : List Reg) (a : Nat) : Nat := fieldOf (sh.getD 6 0) (axisBit a) (axisWidth a)
def gridPos (sh : List Reg) (a : Nat) : Nat := fieldOf (sh.getD 7 0) (axisBit a) (axisWidth a)

/-- Participants, the rank of coordinates, and the coordinates of a rank (R454). -/
def gridSize (sh : List Reg) : Nat := (gridExt sh 0 + 1) * (gridExt sh 1 + 1) * (gridExt sh 2 + 1)
def rankOf (sh : List Reg) (x y z : Nat) : Nat := x + (gridExt sh 0 + 1) * (y + (gridExt sh 1 + 1) * z)
def ownRank (sh : List Reg) : Nat := rankOf sh (gridPos sh 0) (gridPos sh 1) (gridPos sh 2)
def coordOf (sh : List Reg) (rank a : Nat) : Nat :=
  match a with
  | 0 => rank % (gridExt sh 0 + 1)
  | 1 => rank / (gridExt sh 0 + 1) % (gridExt sh 1 + 1)
  | _ => rank / (gridExt sh 0 + 1) / (gridExt sh 1 + 1)

/-- The group of a participant in ascending rank (R454). -/
def groupOf (sh : List Reg) : List Nat :=
  (List.range (gridSize sh)).filter (fun r =>
    [0, 1, 2].all (fun a => shapeRepl sh / 2 ^ a % 2 == 1 || coordOf sh r a == gridPos sh a))

/-- The operation of ROP (R250, R457). -/
def ropOf (n : Nat) : RedOp :=
  match n with
  | 1 => .add
  | 2 => .mul
  | 3 => .min
  | 4 => .max
  | 5 => .and
  | 6 => .or
  | _ => .xor

/-- Formats that an operator accepts (R457). -/
def ropFmtOk (rop : Nat) (t : BitVec 5) : Bool :=
  let n := t.toNat
  let int := decide (1 ≤ n) && decide (n ≤ 8)
  match rop with
  | 0 => true
  | 1 => [0x11, 0x13, 0x05, 0x07].contains n
  | 2 => n == 0x11
  | 3 => int || (decide (0x10 ≤ n) && decide (n ≤ 0x13))
  | 4 => int || (decide (0x10 ≤ n) && decide (n ≤ 0x13))
  | _ => int || n == 0

/-- Bytes of an element, and of the result. -/
def callElem (sh : List Reg) : Nat := fmtWidth (shapeFmt sh) / 8
def callBytes (sh : List Reg) : Nat := shapeSize sh * callElem sh

/-- The address of element e of a contribution, dimension 0 first (R250, R457). -/
def contribAddr (sh : List Reg) (e : Nat) : Nat :=
  let below := fun d => ((List.range d).map (fun k => shapeExt sh k + 1)).prod
  shapeBase sh + ((List.range 5).map (fun d =>
    (e / below d % (shapeExt sh d + 1)) * (if d = 0 then callElem sh else shapeStride sh d))).sum

/-- The memory ranges of a call: start and length (R458). -/
def callRanges (sh : List Reg) (dst : Nat) : List (Nat × Nat) :=
  let sweep := fun b => if shapeSweep sh b = 0 then [] else [(shapeSweep sh b, 64 + callBytes sh)]
  [(dst, callBytes sh), (shapeBase sh, contribAddr sh (shapeSize sh - 1) + callElem sh - shapeBase sh)]
    ++ sweep false ++ sweep true ++ (if shapeQ4 sh then [(shapeResid sh, 4 * shapeSize sh)] else [])

/-- Whether some two of the ranges overlap. -/
def rangesOverlap : List (Nat × Nat) → Bool
  | [] => false
  | (a, n) :: r => r.any (fun q => decide (a < q.1 + q.2) && decide (q.1 < a + n)) || rangesOverlap r

/-- The rules of R457 and R458 that the shape record breaks. -/
def callShapeBad (sh : List Reg) (dst : Nat) : Bool :=
  let rop := shapeRop sh
  decide (fieldOf (sh.getD 5 0) 56 8 ≠ 0) || decide (fieldOf (sh.getD 6 0) 58 6 ≠ 0) || decide (fieldOf (sh.getD 7 0) 58 6 ≠ 0)
    || decide (shapeSize sh > 2 ^ 24) || !ropFmtOk rop (shapeFmt sh) || (shapeCav sh && rop == 0)
    || (shapeQ4 sh && (rop != 1 || shapeFmt sh != 0x11#5)) || (shapeQ4 sh != (shapeResid sh != 0))
    || decide (shapeResid sh % 32 ≠ 0) || decide (shapeSweep sh false % 64 ≠ 0) || decide (shapeSweep sh true % 64 ≠ 0)
    || (shapeRepl sh != 0 && (shapeSweep sh false == 0 || shapeSweep sh true == 0))
    || [0, 1, 2].any (fun a => decide (gridPos sh a > gridExt sh a)) || rangesOverlap (callRanges sh dst)

/-- The rules of R456 and R458 that the group table breaks: header words, entries. -/
def groupHeaderBad (sh : List Reg) (h : List Reg) : Bool :=
  decide (fieldOf (h.getD 0 0) 43 21 ≠ 0) || (h.drop 1).any (fun v => v != 0)
    || decide (fieldOf (h.getD 0 0) 32 11 ≠ gridSize sh)
def entryLocal (devid : Nat) (e : Reg) : Bool := e.getLsbD 10 || fieldOf e 0 10 == devid
def groupEntriesBad (sh : List Reg) (devid : Nat) (es : List Reg) : Bool :=
  es.any (fun v => fieldOf v 11 53 != 0) || !entryLocal devid (es.getD (ownRank sh) 0)

/-! ### Places in the group -/

/-- The group of a call, its size, the call's position, and what runs on this device. -/
def Call.group (k : Call) : List Nat := groupOf k.shape
def Call.size (k : Call) : Nat := k.group.length
def Call.pos (k : Call) : Nat := k.group.findIdx (fun r => r == k.rank)
def Call.rankLocal (k : Call) (devid r : Nat) : Bool := entryLocal devid (k.entries.getD r 0)

/-- Chain of a position, place in it, its length, and the number of chains (R463); a group of at most 32 is one chain. -/
def Call.chain (k : Call) : Nat := k.pos / 32
def Call.place (k : Call) : Nat := k.pos % 32
def Call.chainLen (k : Call) : Nat := min 32 (k.size - 32 * k.chain)
def Call.chains (k : Call) : Nat := (k.size + 31) / 32

/-- Elements, segments of 32 elements, and the length of one (R457). -/
def Call.segs (k : Call) : Nat := (shapeSize k.shape + 31) / 32
def Call.segLen (k : Call) (i : Nat) : Nat := min 32 (shapeSize k.shape - 32 * i)

/-- What a call forms: P (for ROP 0 the value passed on), S, the chain total, TP, TS and the group total (R460-R463). -/
def Call.rop (k : Call) : Nat := shapeRop k.shape
def Call.cav (k : Call) : Bool := shapeCav k.shape
def Call.hasP (k : Call) : Bool :=
  if k.rop = 0 then decide (k.size > 1) else decide (k.place ≥ 1)
def Call.hasS (k : Call) : Bool := k.cav && decide (k.place + 1 < k.chainLen)
def Call.isLast (k : Call) : Bool := decide (k.place + 1 = k.chainLen)
def Call.endsGroup (k : Call) : Bool := decide (k.pos + 1 = k.size)
def Call.hasTot (k : Call) : Bool :=
  k.rop != 0 && decide (k.size > 1)
    && ((decide (k.chains > 1) && (k.isLast || decide (k.place = 0))) || (!k.cav && k.endsGroup))
def Call.hasTp (k : Call) : Bool :=
  k.rop != 0 && decide (k.chain ≥ 1) && (k.cav || decide (k.place = 0) || k.endsGroup)
def Call.hasTs (k : Call) : Bool := k.cav && decide (k.chain + 1 < k.chains)
def Call.hasSum (k : Call) : Bool := k.rop != 0 && !k.cav && decide (k.size > 1)

/-- Whether the call has formed everything it needs for its result (R464). -/
def Call.formed (k : Call) : Bool :=
  let full := fun (need : Bool) (l : List (List Nat)) => !need || decide (l.length = k.segs)
  k.posted && full k.hasP k.p && full k.hasS k.s && full k.hasTot k.tot && full k.hasTp k.tp && full k.hasTs k.ts
    && full k.hasSum k.sum

/-! ### Combination -/

/-- x ⊕ y, element by element, with the flags of the steps (R144, R457). -/
def combineSeg (k : Call) (x y : List Nat) : List Nat × BitVec 8 :=
  let rs := (x.zip y).map (fun p => redStep (ropOf k.rop) (shapeFmt k.shape) p.1 p.2)
  (rs.map (·.bits), rs.foldl (fun a r => a ||| r.fl) 0)

/-- A segment of identities (R144). -/
def identitySeg (k : Call) (i : Nat) : List Nat :=
  List.replicate (k.segLen i) (redIdentity (ropOf k.rop) (shapeFmt k.shape))

/-- x ⊕ y where both exist, else whichever exists (R463). -/
def combineOpt (k : Call) (x y : Option (List Nat)) : Option (List Nat) × BitVec 8 :=
  match x, y with
  | some x, some y => (some (combineSeg k x y).1, (combineSeg k x y).2)
  | some x, none => (some x, 0)
  | none, y => (y, 0)

/-- Segment i of the result of a call that has formed what it needs, with the flags of the last steps (R460-R463). -/
def resultSeg (k : Call) (i : Nat) : List Nat × BitVec 8 :=
  let own := k.x.getD i []
  if k.size = 1 then (if k.cav then identitySeg k i else own, 0)
  else if k.rop = 0 then (k.p.getD i [], 0)
  else if k.cav then
    let opt := fun (b : Bool) (l : List (List Nat)) => if b then some (l.getD i []) else none
    let p := combineOpt k (opt k.hasTp k.tp) (opt k.hasP k.p)
    let q := combineOpt k (opt k.hasS k.s) (opt k.hasTs k.ts)
    let r := combineSeg k (p.1.getD (identitySeg k i)) (q.1.getD (identitySeg k i))
    (r.1, p.2 ||| q.2 ||| r.2)
  else (k.sum.getD i [], 0)

/-- x ⊕ y of two segments, if both are there. -/
def joinSeg (k : Call) (x y : Option (List Nat)) : Option (List Nat) :=
  match x, y with
  | some x, some y => some (combineSeg k x y).1
  | _, _ => none

/-- The left fold and the right fold of segments (R460, R462); none of no segments. -/
def foldFrom (k : Call) : List (Option (List Nat)) → Option (List Nat)
  | [] => none
  | x :: r => r.foldl (joinSeg k) x
def foldBack (k : Call) : List (Option (List Nat)) → Option (List Nat)
  | [] => none
  | [x] => x
  | x :: r => joinSeg k x (foldBack k r)

/-- What the call of a rank of the group holds of one segment in the end, from the contributions of the group in order, as far as they
are there (R460, R462, R463). -/
def wholeCall (k : Call) (xs : List (Option (List Nat))) (rank seg : Nat) : Call :=
  let v := { k with rank := rank }
  let chain := fun (c : Nat) => (xs.drop (32 * c)).take 32
  let totals := (List.range v.chains).map (fun c => foldFrom k (chain c))
  let put := fun (o : Option (List Nat)) => match o with
    | some l => List.replicate seg [] ++ [l]
    | none => []
  { v with
    posted := true
    x := put (xs.getD v.pos none)
    p := put (if k.rop = 0 then xs.getD 0 none else foldFrom k ((chain v.chain).take v.place))
    s := put (foldBack k ((chain v.chain).drop (v.place + 1)))
    tot := put (foldFrom k (chain v.chain))
    tp := put (foldFrom k (totals.take v.chain))
    ts := put (foldBack k (totals.drop (v.chain + 1)))
    sum := put (foldFrom k totals) }

/-- The bytes of a call's result, and the flags that forming it raises. -/
def resultBytes (k : Call) : Nat :=
  packEls (fmtWidth (shapeFmt k.shape)) ((List.range k.segs).flatMap (fun i => (resultSeg k i).1))
def resultFlags (k : Call) : BitVec 8 := (List.range k.segs).foldl (fun a i => a ||| (resultSeg k i).2) 0

/-- The transformation of a block under q4 (R466): the contribution and the new residuals. -/
def q4Block (xs res : List Nat) : List Nat × List Nat :=
  let dec := fdecode fmtF32
  let ys := (xs.zip res).map (fun p => (fadd fmtF32 (dec p.1) (dec p.2)).bits)
  let top := (ys.map (fun y => y % 2 ^ 31)).foldl max 0
  let c := mscaleCode 2#3 top
  let one := fun (y : Nat) =>
    if c = 0xFF then (canonNan fmtF32, 0)
    else
      let e : Int := (c : Int) - 127
      let q := match dec y with
        | .fin n m x => (fput fmtE2m1 0 (.fin n m (x - e))).bits
        | v => (fput fmtE2m1 0 v).bits
      let d := match fdecode fmtE2m1 q with
        | .fin n m x => (fround fmtF32 n m (x + e)).bits
        | _ => canonNan fmtF32
      (d, (fadd fmtF32 (dec y) (dec (if d ≥ 2 ^ 31 then d - 2 ^ 31 else d + 2 ^ 31))).bits)
  (ys.map (fun y => (one y).1), ys.map (fun y => (one y).2))

/-! ### The rendezvous table -/

/-- Whether two calls name each other: one GID and SEQ; the call of a group of one makes no rendezvous and meets itself alone
(R459). -/
def Call.meets (k j : Call) : Bool :=
  k.gid == j.gid && k.seq == j.seq && (k.copy == j.copy || (decide (k.size > 1) && decide (j.size > 1)))

/-- The call posted under a rank of a call's group and sequence (R459). -/
def peerOf (cs : List Call) (k : Call) (rank : Nat) : Option Call :=
  cs.find? (fun j => k.meets j && j.rank == rank && j.posted)

/-- The parameters that every participant must agree on (R459). -/
def Call.params (k : Call) : List Nat :=
  let sh := k.shape
  [k.entries.length, gridExt sh 0, gridExt sh 1, gridExt sh 2, shapeRepl sh, shapeRop sh, if shapeCav sh then 1 else 0,
    if shapeQ4 sh then 1 else 0, (shapeFmt sh).toNat, shapeSize sh]

/-- A call's token is written; when every member of its group on this device has ended, the table forgets them. -/
def endCall (d : Device) (cs : List Call) (copy : Nat) : List Call :=
  let cs := cs.map (fun (k : Call) => if k.copy = copy then { k with ended := true } else k)
  let over_ := fun (k : Call) => (k.group.filter (k.rankLocal d.devid)).all (fun r =>
    cs.any (fun j => k.meets j && j.rank == r && j.ended))
  cs.filter (fun k => !(k.ended && over_ k))

end Sys2Proof.Machine
end

