-- ==== Sys2Proof/Machine/Copies.lean ====
section
/-! DEFINITION. Copies (R242-R256, R352-R355) and batches (R257): the records, what a copy moves, its sectors one by one,
exactly-once reduction, and the token. The collective copies of CPC share what happens from their result sectors on. -/

namespace Sys2Proof.Machine

/-! ### Records -/

/-- One side of a copy: an offset of a workgroup's scratchpad, or a virtual address. -/
structure Place where
  sp : Option Nat
  addr : Nat
deriving DecidableEq, Repr

/-- Fields of the records (R247, R252, R455). -/
def Copy.word (c : Copy) (i : Nat) : Reg := c.words.getD i 0
def Copy.own (c : Copy) (a : Nat) : Place := ⟨some c.w.wg, a⟩
def Copy.dir (c : Copy) : Bool := match c.kind with
  | .cpx => (c.word 0).getLsbD 3
  | _ => (c.word 0).getLsbD 63

/-- The box's origin (R252). -/
def boxOrigin (ws : List Reg) (d : Nat) : Int :=
  if d < 2 then signedOf 32 (fieldOf (ws.getD 2 0) (32 * d) 32) else signedOf 16 (fieldOf (ws.getD 3 0) (16 * (d - 2)) 16)

/-- Bytes that a copy writes at most: LEN, the box, or the result (R247, R254, R457). -/
def Copy.len (c : Copy) : Nat :=
  match c.kind with
  | .cpx => fieldOf (c.word 3) 0 32
  | .cpt => boxSize c.shape * shapeNib c.shape / 2
  | .cpc => shapeSize c.shape * shapeNib c.shape / 2
  | _ => fieldOf (c.word 2) 0 32

/-- The place that a word of CPY and CPR names (R247). -/
def Copy.place (c : Copy) (i : Nat) : Place :=
  let a := fieldOf (c.word i) 0 48
  if (c.word i).getLsbD 63 then c.own a else ⟨none, a⟩

/-- Destination and source (R247, R252, R455); the tensor side of CPT is given by its shape. -/
def Copy.dst (c : Copy) : Place :=
  match c.kind with
  | .cpx => if c.dir then c.own (fieldOf (c.word 1) 0 32) else ⟨c.sib, fieldOf (c.word 2) 0 32⟩
  | .cpt => if c.dir then ⟨none, shapeBase c.shape⟩ else c.own (fieldOf (c.word 1) 0 32)
  | .cpc => ⟨none, fieldOf (c.word 2) 0 48⟩
  | _ => c.place 0
def Copy.src (c : Copy) : Place :=
  match c.kind with
  | .cpx => if c.dir then ⟨c.sib, fieldOf (c.word 2) 0 32⟩ else c.own (fieldOf (c.word 1) 0 32)
  | .cpt => if c.dir then c.own (fieldOf (c.word 1) 0 32) else ⟨none, shapeBase c.shape⟩
  | .cpc => ⟨none, shapeBase c.shape⟩
  | _ => c.place 1

/-- The format and operator of a CPR (R247, R248). -/
def Copy.fmt (c : Copy) : BitVec 5 := BitVec.ofNat 5 (fieldOf (c.word 3) 0 5)
def Copy.op (c : Copy) : Nat := fieldOf (c.word 3) 5 3
def cprOp (o : Nat) : RedOp :=
  match o with
  | 0 => .add
  | 1 => .min
  | 2 => .max
  | 3 => .and
  | 4 => .or
  | _ => .xor

/-- Whether a copy's sectors are applied at atomic units (R352, R467). -/
def Copy.applies (c : Copy) : Bool := c.kind == .cpr || c.kind == .cpc

/-- The pairings of CPR (R248). -/
def cprPairOk (op : Nat) (t : BitVec 5) : Bool :=
  let int := decide (0x05 ≤ t.toNat) && decide (t.toNat ≤ 0x08)
  if op < 3 then int || decide (t = 0x11#5) || decide (t = 0x13#5)
  else decide (op < 6) && (int || decide (t = 0))

/-- A word of CPY and CPR with bits that must be zero (R247). -/
def placeBad (v : Reg) : Bool := decide (fieldOf v 48 15 ≠ 0) || (v.getLsbD 63 && decide (fieldOf v 32 16 ≠ 0))

/-- Whether a place's range lies within its scratchpad; workgroups of one launch have one size of scratchpad (R248). -/
def spanOk (alloc : Nat) (p : Place) (n : Nat) : Bool := p.sp.isNone || decide (p.addr + n ≤ alloc)

/-- The faults of R248, R250 and R253 for a record and the shape record that it names; CPC has further ones. The
barrier's offset is that of its bits [31:0]. -/
def copyBad (g : Workgroup) (c : Copy) (bv : Bool) (off : Nat) : Bool :=
  let z := fmtWidth c.fmt / 8
  let recBad := match c.kind with
    | .cpy => placeBad (c.word 0) || placeBad (c.word 1) || decide (fieldOf (c.word 2) 32 32 ≠ 0)
    | .cpr => placeBad (c.word 0) || placeBad (c.word 1) || decide (fieldOf (c.word 2) 32 32 ≠ 0)
        || decide (fieldOf (c.word 3) 8 56 ≠ 0) || !cprPairOk c.op c.fmt
        || decide (c.len % z ≠ 0) || decide (c.dst.addr % z ≠ 0) || decide (c.src.addr % z ≠ 0)
    | .cpx => decide (fieldOf (c.word 0) 4 60 ≠ 0) || [1, 2, 3].any (fun i => decide (fieldOf (c.word i) 32 32 ≠ 0))
        || !g.gangLaunch || decide (fieldOf (c.word 0) 0 3 ≥ g.gang.length)
    | .cpt => shapeBad c.shape false || decide (fieldOf (c.word 1) 0 32 % 32 ≠ 0)
        || (List.range 5).any (fun d => decide (d > shapeNdim c.shape) && boxOrigin c.words d != 0)
        || (shapeNib c.shape == 1 && ((shapeBox c.shape 0 + 1) % 2 != 0 || boxOrigin c.words 0 % 2 != 0))
    | .cpc => false
  recBad || !spanOk g.spAlloc c.dst c.len || !spanOk g.spAlloc c.src c.len || (bv && !tbarPlaceOk g off)

/-- The words of a CPT and CPC record that must be right before its shape record is read (R252, R455). -/
def shapeNameBad (kind : CopyKind) (ws : List Reg) : Bool :=
  match kind with
  | .cpt => decide (fieldOf (ws.getD 0 0) 48 15 ≠ 0) || decide (fieldOf (ws.getD 0 0) 0 48 % 64 ≠ 0)
      || decide (fieldOf (ws.getD 1 0) 32 32 ≠ 0) || decide (fieldOf (ws.getD 3 0) 48 16 ≠ 0)
  | .cpc => decide (fieldOf (ws.getD 0 0) 48 16 ≠ 0) || decide (fieldOf (ws.getD 0 0) 0 48 % 64 ≠ 0)
      || decide (fieldOf (ws.getD 1 0) 0 48 % 64 ≠ 0) || decide (fieldOf (ws.getD 2 0) 48 16 ≠ 0)
      || decide (fieldOf (ws.getD 2 0) 0 48 % 32 ≠ 0)
  | _ => false

/-! ### Issue -/

/-- What reading records in memory comes to: the words; parked; or the first global fault (R253). -/
inductive ReadRes where
  | ok (s : State) (ws : List Reg)
  | park (s : State)
  | bad (s : State) (addr : Nat) (kind : Nat)
deriving DecidableEq, Repr

/-- Load words of 8 bytes whose accesses have been checked; of the first with a data error, or with an error completion where its request
left the device, the address and the kind are told (R186, R449). -/
def loadWords (s : State) (g : Workgroup) (w : Warp) : List (Nat × Int × LaneAcc) → State × List Reg × Option (Nat × Nat)
  | [] => (s, [], none)
  | (l, a, .ok x) :: r =>
    let q := tileLoad s g.tile (s.asidOf g) x 8
    let t := loadWords q.1 g w r
    let kind := (w.farFault x l a.toNat).or (if q.2.2 then some 6 else none)
    (t.1, BitVec.ofNat 64 q.2.1 :: t.2.1, (kind.map (fun k => (a.toNat, k))).or t.2.2)
  | _ :: r => loadWords s g w r

/-- The warp reads n words of 8 bytes from an address on (R184, R185, R253). -/
def readWords (s : State) (r : WRef) (g : Workgroup) (w : Warp) (va n : Nat) : ReadRes :=
  let c := checkAll s g w .load 8 ((List.range n).map (fun i => (32, ((va + 8 * i : Nat) : Int))))
  match missPages c.2 with
  | p :: ps => .park (parkOn c.1 r g w .load (p :: ps))
  | [] =>
    match c.2.find? (fun x => match x.2.2 with
      | .bad _ => true
      | _ => false) with
    | some (_, a, .bad k) => .bad c.1 a.toNat k
    | _ =>
      let q := loadWords c.1 g w c.2
      match q.2.2 with
      | some (a, k) => .bad q.1 a k
      | none => .ok q.1 q.2.1

/-- A copy as it issues. -/
def newCopy (s : State) (r : WRef) (g : Workgroup) (w : Warp) (kind : CopyKind) (tok : Nat) (words shape : List Reg)
    (sib : Option Nat) : Copy :=
  ⟨s.nextId, kind, r, g.tile, tok, words, shape, sib, none, false, [], 0, 0, 0, [], [], none, dieOf g.tile, [], [], [],
    [], none, (s.tile g.tile).cycle, warpPrio g r.wp w⟩

/-- The workgroup that receives a copy's data and so holds its barrier (R251). -/
def Copy.receiver (c : Copy) : Nat := match c.dst.sp with
  | some u => u
  | none => c.w.wg

/-- A copy joins its streamer's queue and the warp's open batch; one of no bytes completes at once, and its time is counted (R245, R249,
R257, R506). -/
def enqueueCopy (s : State) (r : WRef) (g : Workgroup) (w : Warp) (c : Copy) : State :=
  if c.len = 0 then retire (s.countEvent (clusterOf g.tile) 2 0 1) r g w { w.sset c.tok 0 with joined := true } false
  else
    let s := { s with nextId := s.nextId + 1, dev := { s.dev with copies := Table.set s.dev.copies c.id c } }
    let s := s.setTile g.tile { s.tile g.tile with copies := (s.tile g.tile).copies ++ [c.id] }
    retire s r g w { w with openB := w.openB ++ [c.id], joined := true } false

/-- The sibling that a CPX names (R247). -/
def siblingOf (g : Workgroup) (kind : CopyKind) (ws : List Reg) : Option Nat :=
  match kind with
  | .cpx => g.gang[fieldOf (ws.getD 0 0) 0 3]?
  | _ => none

/-- Check a copy whose records are known, and queue it (R246, R248, R251). -/
def issueCopy (s : State) (r : WRef) (g : Workgroup) (w : Warp) (kind : CopyKind) (tok : BitVec 6) (words shape : List Reg)
    (b : BitVec 6) (bv : Bool) (more : Copy → Bool) : State :=
  let c := newCopy s r g w kind tok.toNat words shape (siblingOf g kind words)
  let off := fieldOf (w.sget b.toNat) 0 32
  if copyBad g c bv off || more c then preciseTrap s r w 0x08
  else enqueueCopy s r g w { c with bar := if bv then some (c.receiver, off) else none }

/-- Run CPY, CPR or CPX (R242, R246-R249): n registers of record. -/
def runCopy (s : State) (i : Instr) (kind : CopyKind) (n : Nat) (t r0 b : BitVec 6) (v : BitVec 1) :
    Host.Outcome State Fault Refusal :=
  runNamed s i (fun w => w.active) (fun s r g w =>
    if r.wp ≠ g.producer then preciseTrap s r w 0x07
    else issueCopy s r g w kind t ((span r0.toNat n).map w.sget) [] b (v == 1) (fun _ => false))

/-- Run CPT or CPC, which read their shape record before they retire (R253): then goes on with it. Where that read faults or misses and a
rule that is tested on the record after it is broken too, the spec gives no order: the read goes first (DESIGN CHOICE, log entry 22). -/
def runShaped (s : State) (i : Instr) (kind : CopyKind) (n : Nat) (r0 : BitVec 6)
    (then_ : State → WRef → Workgroup → Warp → List Reg → List Reg → State) : Host.Outcome State Fault Refusal :=
  runNamed s i (fun w => w.active) (fun s r g w =>
    let ws := (span r0.toNat n).map w.sget
    if r.wp ≠ g.producer then preciseTrap s r w 0x07
    else if shapeNameBad kind ws then preciseTrap s r w 0x08
    else
      match readWords s r g w (fieldOf (ws.getD 0 0) 0 48) 8 with
      | .park s => s
      | .bad s a k => retireWithRecords s r g w w false [uniRecord w a k (typeOf 0 8)]
      | .ok s sh => then_ s r g w ws sh)

/-- CPY (R246-R249). -/
def execCpy (t r b : BitVec 6) (v : BitVec 1) (s : State) : Host.Outcome State Fault Refusal :=
  runCopy s (.cpy t r b v) .cpy 3 t r b v

/-- CPR (R246-R249). -/
def execCpr (t r b : BitVec 6) (v : BitVec 1) (s : State) : Host.Outcome State Fault Refusal :=
  runCopy s (.cpr t r b v) .cpr 4 t r b v

/-- CPX (R246-R249). -/
def execCpx (t r b : BitVec 6) (v : BitVec 1) (s : State) : Host.Outcome State Fault Refusal :=
  runCopy s (.cpx t r b v) .cpx 4 t r b v

/-- CPT (R250-R254). -/
def execCpt (t r b : BitVec 6) (v : BitVec 1) (s : State) : Host.Outcome State Fault Refusal :=
  runShaped s (.cpt t r b v) .cpt 4 r (fun s r g w ws sh => issueCopy s r g w .cpt t ws sh b (v == 1) (fun _ => false))

/-! ### Batches -/

/-- The batches that are still outstanding, each as its copies that have not completed: the oldest leave first (R257). -/
def openBatches (l : List (List Nat)) : List (List Nat) := l.dropWhile (fun b => b.isEmpty)

/-- The open batch is closed, if it holds a copy: it is outstanding until its copies and the older batches have completed
(R257). -/
def Warp.closeBatch (w : Warp) : Warp :=
  if w.joined then { w with batches := openBatches (w.batches ++ [w.openB]), openB := [], joined := false } else w

/-- CPCLOSE (R257). -/
def execCpclose (s : State) : Host.Outcome State Fault Refusal :=
  runUniform s .cpclose (fun w => .ok w.closeBatch)

/-- CPWAIT (R257). -/
def execCpwait (n : BitVec 4) (s : State) : Host.Outcome State Fault Refusal :=
  runNamed s (.cpwait n) (fun w => w.active) (fun s r g w =>
    let w' := w.closeBatch
    if w'.batches.length ≤ n.toNat then retire s r g w w' false else waitAt s r w' (.batch n.toNat))

/-- A copy has completed: it leaves its batch, and the oldest batches that are empty leave (R257). -/
def Warp.leaveBatch (w : Warp) (id : Nat) : Warp :=
  let drop := fun (l : List Nat) => l.filter (fun k => k != id)
  { w with openB := drop w.openB, batches := openBatches (w.batches.map drop) }

/-! ### The sectors of a copy -/

/-- Change a copy. -/
def State.copy (s : State) (id : Nat) : Option Copy := Table.find s.dev.copies id
def State.setCopy (s : State) (c : Copy) : State :=
  { s with dev := { s.dev with copies := Table.set s.dev.copies c.id c } }

/-- Units of 32 bytes that a run of bytes touches (R255). -/
def unitsOf (a n : Nat) : Nat := if n = 0 then 0 else (a + n - 1) / 32 - a / 32 + 1

/-- The rows of a box by number, with the half-byte address of tensor element 0 of the row where it lies inside the tensor
in dimensions 1 to 4 (R250, R254). -/
def rowAddr (c : Copy) (row : Nat) : Option Nat :=
  let sh := c.shape
  let b0 := shapeBox sh 0 + 1
  let t := fun d => boxOrigin c.words d + ((row * b0 / boxBelow sh d % (shapeBox sh d + 1) : Nat) : Int)
  if [1, 2, 3, 4].all (fun d => decide (0 ≤ t d) && decide (t d ≤ shapeExt sh d)) then
    some (2 * shapeBase sh + ([1, 2, 3, 4].map (fun d => 2 * shapeStride sh d * (t d).toNat)).sum)
  else none

/-- The rows of a box. -/
def rowsOfBox (sh : List Reg) : Nat := boxSize sh / (shapeBox sh 0 + 1)

/-- The half-byte address of box element e, where it lies inside the tensor (R254). -/
def elementNib (c : Copy) (e : Nat) : Option Nat :=
  let b0 := shapeBox c.shape 0 + 1
  let t0 := boxOrigin c.words 0 + ((e % b0 : Nat) : Int)
  match rowAddr c (e / b0) with
  | some a => if 0 ≤ t0 ∧ t0 ≤ shapeExt c.shape 0 then some (a + t0.toNat * shapeNib c.shape) else none
  | none => none

/-- The destination units of a CPT into a tensor, ascending, each once (R255). -/
def tensorUnits (c : Copy) : List Nat :=
  let sh := c.shape
  let c0 := boxOrigin c.words 0
  let lo := max c0 0
  let hi := min (c0 + shapeBox sh 0) (shapeExt sh 0)
  let us := (List.range (rowsOfBox sh)).flatMap (fun r => match rowAddr c r with
    | some a =>
      if lo ≤ hi then
        let first := (a + lo.toNat * shapeNib sh) / 2
        let last := (a + (hi.toNat + 1) * shapeNib sh - 1) / 2
        span (first / 32) (last / 32 - first / 32 + 1)
      else []
    | none => [])
  (us.foldl (fun (t : Table Unit) u => Table.set t u ()) []).map (·.1)

/-- The units of a copy and how many sectors it has (R255) (DESIGN CHOICE, log entry 22). -/
def copyUnits (c : Copy) : List Nat := if c.kind == .cpt && c.dir then tensorUnits c else []
def copySectors (c : Copy) : Nat := if c.kind == .cpt && c.dir then (tensorUnits c).length else unitsOf c.dst.addr c.len

/-- The shadow pages of a context's range entries, by entry: what the engine fixes when it starts (R297, R349). -/
def shadowPages (s : State) (t slot : Nat) : Table Nat :=
  let c := s.slot slot
  let es := tileRanges s t c.asid (c.rtab * 2048)
  (List.range 64).filterMap (fun k => match es[k]? with
    | some e => if rangeValid e && decide (rangeField e 6 1 = 1) then some (k, rangeField e 148 40) else none
    | none => none)

/-- A range entry with its shadow page replaced. -/
def withShadow (e : BitVec 256) (page : Nat) : BitVec 256 :=
  BitVec.ofNat 256 (e.toNat % 2 ^ 148 + page % 2 ^ 40 * 2 ^ 148 + rangeField e 188 68 * 2 ^ 188)

/-- The dies of a boundary (R448). -/
def boundaryDies (b : Nat) : Nat × Nat :=
  match b with
  | 0 => (0, 1)
  | 1 => (2, 3)
  | 2 => (0, 2)
  | _ => (1, 3)

/-- The link of the I/O die to a compute die, and the one that joins a cluster to the die network, among the links: the four
boundaries have the numbers 0 to 3 (R448, R453, R520; DEDUCED, log entry 25). -/
def ioLink (die : Nat) : Nat := 4 + die
def clusterLink (cluster : Nat) : Nat := 8 + cluster

/-- Whether a boundary that is not retired joins two dies (R448, R301). -/
def dieLink (bad : List Nat) (a b : Nat) : Bool :=
  [0, 1, 2, 3].any (fun k => !bad.contains k && (boundaryDies k == (a, b) || boundaryDies k == (b, a)))

/-- Whether traffic between two dies has a route over the boundaries that remain (R302, R448). -/
def hasRoute (bad : List Nat) (a b : Nat) : Bool :=
  let grow := fun (l : List Nat) => [0, 1, 2, 3].filter (fun d => l.contains d || l.any (fun e => dieLink bad e d))
  (grow (grow (grow [a]))).contains b

/-- Whether traffic of a tile has a route to the channel, port or host that a physical address names: off its cluster, then over
the boundaries of the dies or the link to the I/O die (R301, R302, R355, R448, R520). -/
def reaches (bad : List Nat) (tile pa : Nat) : Bool :=
  !bad.contains (clusterLink (clusterOf tile))
    && (if spaceOf pa = 0 then hasRoute bad (dieOf tile) ((pa / 2 ^ 36) % 4) else !bad.contains (ioLink (dieOf tile)))

/-- Whether the engine of another device that a copy was handed to has a route to what a physical address names: over the fabric, and
from the I/O die to a die of this device (R352, R520). -/
def reachesIn (bad : List Nat) (pa : Nat) : Bool := spaceOf pa != 0 || !bad.contains (ioLink ((pa / 2 ^ 36) % 4))

/-- Whether a copy was handed to an engine of another device (R352). -/
def Copy.away (c : Copy) : Bool := decide (8 ≤ c.die)

/-- The kind of an access of a copy that has no link to go by; it ends the copy with code 0x07 (R243, R450). -/
def linkLost : Nat := 15

/-- The translation of a copy's access: through the caches and the walker of its tile, or, by an engine of another device that it was handed
to, from the context's tables themselves (R300, R352; DEDUCED, log entry 37). -/
def copyTranslate (s : State) (g : Workgroup) (c : Copy) (va : Nat) (a : Acc) : State × XRes :=
  if c.away then (s, translateIo s g.slot va a) else translate s c.tile g.slot va a

/-- Translate an access of a copy: writes to a range with a shadow go to the page fixed at its start (R244, R349); pages
answered "none" are unmapped; what no link leads to, or a device without a port, is out of reach (R301, R355, R450). -/
def copyXlate (s : State) (g : Workgroup) (c : Copy) (a : Acc) (va : Nat) : State × LaneAcc :=
  if va ≥ 2 ^ 48 then (s, .bad 1)
  else if !c.away && walkHeld s c.tile g.slot va then (s, .miss (va / 4096))
  else
    let r := copyTranslate s g c va a
    let x := match a with
      | .engWrite =>
        let t := s.slot g.slot
        let table := t.rtab * 2048
        match findRange (if c.away then rangeTable s table else tileRanges r.1 c.tile t.asid table) va 0 with
        | some (k, e) => match Table.find c.gens k with
          | some page => keepMapped s t.asid (rangePa a (withShadow e page) va) (rangeXlate r.1 a k (withShadow e page) va)
          | none => r.2
        | none => r.2
      | _ => r.2
    match x with
    | .ok x =>
      let way := if c.away then reachesIn s.dev.badLinks x.pa else reaches s.dev.badLinks c.tile x.pa
      (r.1, if way then .ok x else .bad linkLost)
    | .miss => (r.1, if c.nones.contains (va / 4096) then .bad 3 else .miss (va / 4096))
    | .err k =>
      let open_ := { s with dev := { s.dev with ports := [0] } }
      let lost := s.dev.ports.isEmpty && (copyTranslate open_ g c va a).2 != .err k
      (r.1, .bad (if lost then linkLost else k))

/-- The completion code of a fault kind (R243). -/
def copyCode (kind : Nat) : Nat :=
  match kind with
  | 1 => 0x01
  | 3 => 0x02
  | 4 => 0x03
  | 5 => 0x04
  | 6 => 0x05
  | _ => 0x07

/-- What an access of a copy comes to: a value, a miss with its kind of access, or the code that ends the copy. -/
inductive CopyRes (α : Type) where
  | ok (s : State) (v : α)
  | miss (s : State) (page : Nat) (acc : Nat)
  | err (s : State) (code : Nat)

/-- n bytes of a line that one access of the engine reads (R256): for the issuing tile, or, by an engine of another device, over the
fabric (R352), as a read that no tile makes. -/
def engineRead (s : State) (g : Workgroup) (c : Copy) (va n : Nat) : CopyRes Nat :=
  let q := copyXlate s g c .engRead va
  let reader := if c.away then 512 else g.tile
  match q.2 with
  | .ok x =>
    if q.1.dev.badLines.contains (lineOf x.pa) then .err (mergeRead q.1 reader (lineOf x.pa)) 0x05
    else
      let s := mergeRead q.1 reader (lineOf x.pa)
      .ok s (if x.direct then chanRead s x.pa n else lineBytes (engineLine s g.tile (lineOf x.pa)) (x.pa % 128) n)
  | .miss p => .miss q.1 p 4
  | .bad k => .err q.1 (copyCode k)

/-- n bytes from a virtual address on, at most two lines of them. -/
def engineReadSpan (s : State) (g : Workgroup) (c : Copy) (va n : Nat) : CopyRes Nat :=
  let k := 128 - va % 128
  if n ≤ k then engineRead s g c va n
  else
    match engineRead s g c va k with
    | .ok s v => match engineRead s g c (va + k) (n - k) with
      | .ok s u => .ok s (v + u * 2 ^ (8 * k))
      | .miss s p a => .miss s p a
      | .err s e => .err s e
    | .miss s p a => .miss s p a
    | .err s e => .err s e

/-- n bytes of a copy's source at a distance from its start. -/
def sourceBytes (s : State) (g : Workgroup) (c : Copy) (o n : Nat) : CopyRes Nat :=
  let p := c.src
  match p.sp with
  | none => engineReadSpan s g c (p.addr + o) n
  | some u => match s.wg u with
    | some h => .ok s (Memory.readN h.sp (p.addr + o) n)
    | none => .err s 0x06

/-- Element e of a tensor's box, 0 outside the tensor (R254). -/
def tensorElement (s : State) (g : Workgroup) (c : Copy) (e : Nat) : CopyRes Nat :=
  let z := shapeNib c.shape
  match elementNib c e with
  | none => .ok s 0
  | some a =>
    match engineReadSpan s g c (a / 2) ((z + 1) / 2) with
    | .ok s v => .ok s (if z = 1 then v / 16 ^ (a % 2) % 16 else v)
    | r => r

/-- A run of elements of the box from element e on, packed. -/
def tensorElements (s : State) (g : Workgroup) (c : Copy) (e : Nat) : Nat → CopyRes Nat
  | 0 => .ok s 0
  | n + 1 =>
    match tensorElement s g c e with
    | .ok s v => match tensorElements s g c (e + 1) n with
      | .ok s u => .ok s (v + u * 16 ^ shapeNib c.shape)
      | r => r
    | r => r

/-- What a sector writes: its unit's address, for each half byte whether it is written, and the values. -/
structure SectorData where
  addr : Nat
  nibs : Nat
  data : Nat
deriving DecidableEq, Repr

/-- A run of n whole bytes at an address within its unit. -/
def runSector (a n v : Nat) : SectorData :=
  let o := a % 32
  ⟨a - o, (2 ^ (2 * n) - 1) * 2 ^ (2 * o), v * 2 ^ (8 * o)⟩

/-- Where sector k of a copy with a contiguous destination starts, and its bytes (R255). -/
def sectorSpan (c : Copy) (k : Nat) : Nat × Nat :=
  let d := c.dst.addr
  let u := (d / 32 + k) * 32
  let lo := max d u
  (lo, min (d + c.len) (u + 32) - lo)

/-- The box elements that lie at a half-byte address of the tensor. -/
def elementsAt (c : Copy) (a : Nat) : List Nat :=
  let sh := c.shape
  let z := shapeNib sh
  let b0 := shapeBox sh 0 + 1
  (List.range (rowsOfBox sh)).filterMap (fun r => match rowAddr c r with
    | some base =>
      let t0 := (a - base) / z
      let b : Int := (t0 : Int) - boxOrigin c.words 0
      if base ≤ a ∧ (a - base) % z = 0 ∧ t0 ≤ shapeExt sh 0 ∧ 0 ≤ b ∧ b < b0 then some (r * b0 + b.toNat) else none
    | none => none)

/-- A unit of a tensor as a CPT writes it: slots of one element each. Where several elements of the box lie at one place, the
order in which they are written is open, and a free value chooses the one that stays (R254; DESIGN CHOICE, log entry 2). -/
def tensorUnit (c : Copy) (h : Workgroup) (f : Reg) (unit : Nat) : SectorData :=
  let z := shapeNib c.shape
  let a := 64 * unit
  let slots := (List.range (64 / z)).filterMap (fun j =>
    match elementsAt c (a + j * z) with
    | [] => none
    | e :: es => some (j, (e :: es).getD (f.toNat % (es.length + 1)) e))
  let off := fieldOf (c.word 1) 0 32
  let value := fun e => Memory.readN h.sp (off + e * z / 2) ((z + 1) / 2) / (if z = 1 then 16 ^ (e % 2) else 1) % 16 ^ z
  ⟨32 * unit, (slots.map (fun p => (2 ^ z - 1) * 2 ^ (p.1 * z))).sum, (slots.map (fun p => value p.2 * 16 ^ (p.1 * z))).sum⟩

/-- The results of a collective call as packed bytes, once they are formed (R464). -/
def callResult (s : State) (id : Nat) : Option Nat :=
  match s.dev.calls.find? (fun k => k.copy == id) with
  | some k => k.result
  | none => none

/-- Whether every member of a call's group on this device has written its FLAGS. -/
def groupFlagged (s : State) (k : Call) : Bool :=
  (k.group.filter (k.rankLocal s.dev.devid)).all (fun r => match peerOf s.dev.calls k r with
    | some j => j.result.isSome
    | none => false)

/-- Whether the results of a collective call may be written: they are formed, and no fault of a member can end its group any more, since
every member has written its FLAGS (R464, R467; DEDUCED, log entry 28). -/
def resultsDue (s : State) (id : Nat) : Bool :=
  s.dev.calls.any (fun k => k.copy == id && k.result.isSome && groupFlagged s k)

/-- Sector k of a copy, from its source (R249, R254, R464). -/
def sectorData (s : State) (g : Workgroup) (c : Copy) (k : Nat) : CopyRes SectorData :=
  let sp := sectorSpan c k
  match c.kind with
  | .cpt =>
    if c.dir then
      match c.units[k]? with
      | some u =>
        let q := s.draw
        .ok q.2 (tensorUnit c g q.1 u)
      | none => .err s 0x02
    else
      let z := shapeNib c.shape
      match tensorElements s g c (64 * k / z) (2 * sp.2 / z) with
      | .ok s v => .ok s (runSector sp.1 sp.2 v)
      | .miss s p a => .miss s p a
      | .err s e => .err s e
  | .cpc => .ok s (runSector sp.1 sp.2 ((callResult s c.id).getD 0 / 2 ^ (8 * (sp.1 - c.dst.addr)) % 2 ^ (8 * sp.2)))
  | _ =>
    match sourceBytes s g c (sp.1 - c.dst.addr) sp.2 with
    | .ok s v => .ok s (runSector sp.1 sp.2 v)
    | .miss s p a => .miss s p a
    | .err s e => .err s e

/-- Bytes of a unit of which a half byte is written, and their values with the old bytes' other halves. -/
def unitBytes (d : SectorData) (old : Nat) : Nat × Nat :=
  (List.range 32).foldl (fun acc i =>
    let w := d.nibs / 4 ^ i % 4
    let half := fun (j : Nat) => (if w / 2 ^ j % 2 = 1 then d.data else old) / 16 ^ (2 * i + j) % 16
    if w = 0 then acc else (acc.1 + 2 ^ i, acc.2 + (half 0 + 16 * half 1) * 256 ^ i)) (0, 0)

/-- The engine writes a unit around the line buffer (R256, R286). -/
def writeUnit (s : State) (pa : Nat) (d : SectorData) : State :=
  let u := unitBytes d (chanRead s pa 32)
  chanWriteLine s (lineOf pa) (BitVec.ofNat 128 (u.1 * 2 ^ (pa % 128))) (BitVec.ofNat 1024 (u.2 * 2 ^ (8 * (pa % 128))))

/-- A copy's barrier counts one sector (R255). -/
def countSector (s : State) (c : Copy) : State :=
  match c.bar with
  | some (u, off) => sectorArrives s u off
  | none => s

/-- Add a line to those that a copy has written. -/
def Copy.addLine (c : Copy) (line : Nat) : Copy := if c.lines.contains line then c else { c with lines := line :: c.lines }

/-! ### Completion records -/

/-- WIN of a copy: bit i for sector BASE + i (R353). -/
def Copy.winBits (c : Copy) : Reg := BitVec.ofNat 64 ((c.win.map (fun k => 2 ^ (k - c.base))).sum)

/-- Write the completion record of a copy that has a tag (R353). -/
def putRecord (s : State) (c : Copy) (state : Nat) : State :=
  match c.tag with
  | some t => s.setDie c.die { s.die c.die with
      records := Table.set (s.die c.die).records t ⟨c.winBits, c.base, state, c.id⟩ }
  | none => s

/-- BASE advances past every sector acknowledged (R353). -/
def advanceBase (c : Copy) : Nat → Copy
  | 0 => c
  | n + 1 =>
    if c.win.contains c.base then
      advanceBase { c with base := c.base + 1, win := c.win.filter (fun k => k != c.base) } n
    else c

/-- The lowest tag of a die that no copy in flight holds (R353) (DEDUCED, log entry 37). -/
def freeTag (s : State) (d : Nat) : Option Nat :=
  (List.range 4096).find? (fun t => !s.dev.copies.any (fun c => c.2.die == d && c.2.tag == some t))

/-- A copy parks on a resolvable fault (R244, R353). -/
def parkCopy (s : State) (g : Workgroup) (c : Copy) (page acc : Nat) : State :=
  let q := sendPages s c.w { g with tile := c.tile } 2 acc [page]
  let c := { c with parked := q.2 }
  putRecord (q.1.setCopy c) c (if c.parked.isEmpty then 0 else 1)

/-- A copy ends on a fault: no further sector is performed or sent (R243, R244). -/
def failCopy (s : State) (c : Copy) (code sect : Nat) : State := s.setCopy { c with err := some (code, sect) }

/-! ### Events -/

/-- The die whose engine applies a reducing copy: the issuing tile's, or, for a destination in space 0x1, the target die, to an
engine of which the streamer hands the copy (R352; DEDUCED, log entry 37). -/
def applyingDie (s : State) (g : Workgroup) (c : Copy) : Nat :=
  match c.dst.sp with
  | some _ => dieOf c.tile
  | none => match (copyXlate s g c .engWrite c.dst.addr).2 with
    | .ok x => if spaceOf x.pa = 1 then 8 + 4 * ((x.pa / 2 ^ 38) % 2 ^ 10) + (x.pa / 2 ^ 36) % 4 else dieOf c.tile
    | _ => dieOf c.tile

/-- The copy of a streamer that starts next: the highest PRIO, then the order of issue (R401, R406). -/
def nextCopy : List Copy → Option Copy
  | [] => none
  | c :: r =>
    match nextCopy r with
    | some d => if d.prio > c.prio then some d else some c
    | none => some c

/-- A word of the inbound window table (R451). -/
def Device.window (d : Device) (e w : Nat) : Reg := Table.get d.windows 0 (8 * e + w)

/-- The fields of the table that can be written; the others are read-only (R451). -/
def windowMask (w : Nat) : Nat :=
  match w with
  | 0 => 31 * 2 ^ 59 + 1023
  | 1 => (2 ^ 26 - 1) * 2 ^ 12
  | 2 => (2 ^ 26 - 1) * 2 ^ 12
  | _ => 0

/-- Whether an entry matches a request of a device at an address (R451). -/
def windowMatches (d : Device) (src pa e : Nat) : Bool :=
  let w0 := d.window e 0
  let base := fieldOf (d.window e 1) 12 26
  let limit := fieldOf (d.window e 2) 12 26
  let clean := (List.range 8).all (fun w => d.window e w &&& ~~~BitVec.ofNat 64 (windowMask w) == 0)
  clean && w0.getLsbD 63 && decide (base ≤ limit) && decide (base ≤ pa / 4096) && decide (pa / 4096 ≤ limit)
    && (w0.getLsbD 59 || fieldOf w0 0 10 == src)

/-- Whether the lowest-numbered entry that matches permits a kind of request: 0 read, 1 write, 2 atomic (R451). -/
def windowPermits (d : Device) (src kind pa : Nat) : Bool :=
  match (List.range 64).find? (windowMatches d src pa) with
  | some e => (d.window e 0).getLsbD (62 - kind)
  | none => false

/-- The pairings of operator and format that a reducing copy may have (R248). -/
def cprPairs : List (Nat × Nat) :=
  (List.range 6).flatMap (fun o => ((List.range 32).filter (fun t => cprPairOk o (BitVec.ofNat 5 t))).map (fun t => (o, t)))

/-- A number for the engines of a die that take copies of other devices, past the tiles. -/
def handedTile (d : Nat) : Nat := 512 + d

/-- Whether another device handed a copy to an engine of this one (R352). -/
def Copy.handed (c : Copy) : Bool := decide (512 ≤ c.tile)

/-- Another device hands a reducing copy to an engine of die d: its destination there, length, operator and format are the other
device's, free values here; it takes a tag and a record, or waits while no tag is free (R352, R353; DEDUCED, log entry 37). -/
def takeHanded (s : State) (d : Nat) : State :=
  match freeTag s d with
  | none => s
  | some t =>
    let a := s.draw
    let n := a.2.draw
    let o := n.2.draw
    let pair := cprPairs.getD (o.1.toNat % cprPairs.length) (0, 6)
    let z := fmtWidth (BitVec.ofNat 5 pair.2) / 8
    let pa := d * 2 ^ 36 + a.1.toNat % 2 ^ 36 / z * z
    let len := z * (1 + n.1.toNat % ((2 ^ 32 - 1) / z))
    let ws : List Reg := [BitVec.ofNat 64 pa, 0, BitVec.ofNat 64 len, BitVec.ofNat 64 (pair.2 + 32 * pair.1)]
    let s := o.2
    let c : Copy := ⟨s.nextId, .cpr, ⟨s.nextUid, 0⟩, handedTile d, 0, ws, [], none, none, true, [], unitsOf pa len, 0, 0, [], [], some t, d,
      [], [], [], [], none, 0, 0⟩
    putRecord ({ s with nextId := s.nextId + 1, nextUid := s.nextUid + 1 }.setCopy c) c 0

/-- The next sector of a copy that another device handed in: its data come over the fabric, as free values, and it is sent to its atomic
unit. The place is one that the inbound windows open to atomics of that device (R352, R451; DEDUCED, log entry 37). -/
def handedSector (s : State) (c : Copy) : State :=
  let sp := sectorSpan c c.next
  let v := s.draw
  let u := [1, 2, 3].foldl (fun (q : State × Nat) i => (q.1.draw.2, q.2 + q.1.draw.1.toNat * 2 ^ (64 * i))) (v.2, v.1.toNat)
  let src := u.1.draw
  match spaceCheck src.2 .engWrite sp.1 with
  | .error k => failCopy src.2 c (copyCode k) c.next
  | .ok pa =>
    if windowPermits s.dev (src.1.toNat % 1024) 2 pa = false then failCopy src.2 c 0x03 c.next
    else if s.dev.badLines.contains (lineOf pa) then failCopy src.2 c 0x05 c.next
    else src.2.setCopy { c with sent := Table.set c.sent c.next ⟨none, pa, sp.2, u.2, (s.die c.die).tick⟩, next := c.next + 1 }

/-- The page of a reducing copy's destination that misses, which keeps it from the engine that is to apply it (R352). -/
def startMiss (s : State) (g : Workgroup) (c : Copy) : Option (State × Nat) :=
  match c.dst.sp with
  | some _ => none
  | none => match copyXlate s g c .engWrite c.dst.addr with
    | (s', .miss p) => some (s', p)
    | _ => none

/-- COPY_START: the streamer starts a copy of its queue (R245, R268, R297, R406). A copy that is applied takes a tag of its applying
die, and waits there while none is free (R352, R353); where its destination's page misses, it parks before it has an applying die (R244). During a swap nothing starts (R413). A number past the tiles names the engines of
a die that take the copies of other devices. -/
def execCopyStart (tile : Nat) (s : State) : Host.Outcome State Fault Refusal :=
  .next (if 512 ≤ tile then takeHanded s (tile % 4)
    else if s.swapping tile then s else
    match nextCopy (((s.tile tile).copies.filterMap s.copy).filter (fun c => !c.started && c.parked.isEmpty)) with
    | some c =>
      match s.wg c.w.wg with
      | some g =>
        let c := { c with gens := shadowPages s tile g.slot }
        let c := { c with started := true, units := copyUnits c, nsect := copySectors c }
        if c.applies then
          match startMiss s g c with
          | some (s', p) => parkCopy s' g { c with started := false } p 1
          | none =>
          let d := applyingDie s g c
          match freeTag s d with
          | some t =>
            let c := { c with tag := some t, die := d }
            putRecord (s.setCopy c) c 0
          | none => s
        else s.setCopy c
      | none => s
    | none => s)

/-- Whether the sibling of a CPX has ended (R243). -/
def partnerLost (s : State) (c : Copy) : Bool :=
  match c.sib with
  | some u => match s.wg u with
    | some h => h.status == .ended
    | none => true
  | none => false

/-- A write of this device to remote memory has been acknowledged: its warps that wait on a remote counter test it (R344). -/
def remoteAcked (s : State) (pa : Nat) : State := if spaceOf pa = 1 then testCounters s (fun _ => true) true else s

/-- A sector of a copy without applications is performed, and its barrier counts it (R255). -/
def performSector (s : State) (g : Workgroup) (c : Copy) : State :=
  match sectorData s g c c.next with
  | .miss s p a => parkCopy s g c p a
  | .err s e => failCopy s c e c.next
  | .ok s d =>
    match c.dst.sp with
    | some u =>
      let s := s.updWg u (fun h =>
        let b := unitBytes d (Memory.readN h.sp d.addr 32)
        { h with sp := Memory.writeMasked h.sp d.addr b.1 b.2 32 })
      countSector (s.setCopy { c with next := c.next + 1 }) c
    | none =>
      let q := copyXlate s g c .engWrite d.addr
      match q.2 with
      | .ok x =>
        countSector (remoteAcked (writeUnit q.1 x.pa d) x.pa |>.setCopy ({ c with next := c.next + 1 }.addLine (lineOf x.pa))) c
      | .miss p => parkCopy q.1 g c p 1
      | .bad k => failCopy q.1 c (copyCode k) c.next

/-- A sector of a copy that is applied is read, translated and sent (R352-R354) (DEDUCED, log entry 37). -/
def sendSector (s : State) (g : Workgroup) (c : Copy) : State :=
  let sp := sectorSpan c c.next
  match sectorData s g c c.next with
  | .miss s p a => parkCopy s g c p a
  | .err s e => failCopy s c e c.next
  | .ok s d =>
    let send := fun (s : State) (sp' : Option Nat) (addr : Nat) (c : Copy) =>
      let x : SentSector := ⟨sp', addr, sp.2, d.data / 2 ^ (8 * (sp.1 - d.addr)), (s.die c.die).tick⟩
      s.setCopy { c with sent := Table.set c.sent c.next x, next := c.next + 1 }
    match c.dst.sp with
    | some u => send s (some u) sp.1 c
    | none =>
      let q := copyXlate s g c .engWrite sp.1
      match q.2 with
      | .ok x =>
        if spaceOf x.pa = 2 then failCopy q.1 c 0x02 c.next
        else if q.1.dev.badLines.contains (lineOf x.pa) then failCopy q.1 c 0x05 c.next
        else send q.1 none x.pa (c.addLine (lineOf x.pa))
      | .miss p => parkCopy q.1 g c p 1
      | .bad k => failCopy q.1 c (copyCode k) c.next

/-- COPY_SECTOR_PERFORMED: the next sector of a copy, in ascending order (R244, R255). Of a copy that is applied the next
sector is sent, while fewer than 64 are unacknowledged (R353), and of a collective only when its results may be written
(DESIGN CHOICE, log entry 22). -/
def execCopySectorPerformed (id : Nat) (s : State) : Host.Outcome State Fault Refusal :=
  .next (match s.copy id with
    | some c =>
      if c.handed then
        (if c.err.isSome || decide (c.next ≥ c.nsect) || decide (c.next ≥ c.base + 64) then s else handedSector s c)
      else
      match s.wg c.w.wg with
      | some g =>
        if !c.started || !c.parked.isEmpty || c.err.isSome || decide (c.next ≥ c.nsect) then s
        else if partnerLost s c then failCopy s c 0x06 c.next
        else if c.applies then
          if decide (c.next < c.base + 64) && (c.kind != .cpc || resultsDue s id) then
            s.onBehalf c.w (fun s => sendSector s g c)
          else s
        else s.onBehalf c.w (fun s => performSector s g c)
      | none => s
    | none => s)

/-- The new bytes of a sector that is applied: each element combined, or the computed value written (R249, R467). -/
def appliedBytes (c : Copy) (old v : Nat) (n : Nat) : Nat :=
  if c.kind = .cpc then v % 2 ^ (8 * n)
  else
    let w := fmtWidth c.fmt
    packEls w ((List.range (8 * n / w)).map (fun i =>
      (redStep (cprOp c.op) c.fmt (old / 2 ^ (w * i) % 2 ^ w) (v / 2 ^ (w * i) % 2 ^ w)).bits))

/-- APPLY_REQUEST: the unit applies a sector unless its bit in the window is set; it acknowledges either way (R354). -/
def execApplyRequest (id sector : Nat) (s : State) : Host.Outcome State Fault Refusal :=
  .next (match s.copy id with
    | some c =>
      match Table.find c.sent sector with
      | some x =>
        let done := Table.get s.dev.applied [] id
        if done.contains sector then s
        else
          let s := match x.sp with
            | some u => s.updWg u (fun h =>
                { h with sp := Memory.writeN h.sp x.addr x.n (appliedBytes c (Memory.readN h.sp x.addr x.n) x.data x.n) })
            | none => chanWrite s x.addr x.n (appliedBytes c (chanRead s x.addr x.n) x.data x.n)
          { s with dev := { s.dev with applied := Table.set s.dev.applied id (sector :: done) } }
      | none => s
    | none => s)

/-- APPLY_ACK: the acknowledgement of an applied sector advances BASE and WIN, and the barrier counts it (R255, R343,
R353). -/
def execApplyAck (id sector : Nat) (s : State) : Host.Outcome State Fault Refusal :=
  .next (match s.copy id with
    | some c =>
      if (Table.find c.sent sector).isSome && (Table.get s.dev.applied [] id).contains sector then
        let pa := match Table.find c.sent sector with
          | some x => if x.sp.isNone then x.addr else 0
          | none => 0
        let c := advanceBase { c with sent := Table.del c.sent sector, win := sector :: c.win } 65
        countSector (remoteAcked (putRecord (s.setCopy c) c (if c.parked.isEmpty then 0 else 1)) pa) c
      else s
    | none => s)

/-- APPLY_ACK_TIMEOUT: a request unacknowledged for 200 ticks is sent again (R354). -/
def execApplyAckTimeout (id sector : Nat) (s : State) : Host.Outcome State Fault Refusal :=
  .next (match s.copy id with
    | some c =>
      match Table.find c.sent sector with
      | some x =>
        let now := (s.die c.die).tick
        if now ≥ x.tick + 200 then s.setCopy { c with sent := Table.set c.sent sector { x with tick := now } } else s
      | none => s
    | none => s)

/-- Whether every sector of a copy has been performed and acknowledged, or the copy has ended on a fault and nothing of it
is in flight. -/
def copyDone (c : Copy) : Bool :=
  c.started && c.parked.isEmpty && c.sent.isEmpty && (c.err.isSome || decide (c.next ≥ c.nsect))

/-- The token word (R243). -/
def tokenOf (c : Copy) : Reg :=
  match c.err with
  | some (code, sect) => BitVec.ofNat 64 (sect % 2 ^ 32 * 2 ^ 32 + code)
  | none => 0

/-- A warp that waits in CPWAIT retires when few enough batches are outstanding (R257). -/
def wakeBatch (s : State) (r : WRef) : State :=
  match s.wg r.wg, s.warp r with
  | some g, some w =>
    match w.c.wait with
    | .batch n => if w.batches.length ≤ n ∧ s.frozen r = false then retire s r g w w false else s
    | _ => s
  | _, _ => s

/-- The global destination of a copy, as virtual addresses and bytes: for CPC also its sweep buffers and RESID (R256, R467). -/
def globalSpans (c : Copy) : List (Nat × Nat) :=
  match c.kind with
  | .cpc => (callRanges c.shape c.dst.addr).eraseIdx 1
  | .cpt => if c.dir then (tensorUnits c).map (fun u => (32 * u, 32)) else []
  | _ => if c.dst.sp.isNone then [(c.dst.addr, c.len)] else []

/-- The line that an address of a copy's destination is mapped to, whatever permission the mapping gives and whatever link leads there:
none where nothing maps it (R295, R298, R349). -/
def destLine (s : State) (g : Workgroup) (c : Copy) (va : Nat) : Option Nat :=
  let k := s.slot g.slot
  let home := fun (pa : Nat) => lineOf (if spaceOf pa = 1 ∧ (pa / 2 ^ 38) % 2 ^ 10 = s.dev.devid then pa % 2 ^ 38 else pa)
  match findRange (tileRanges s c.tile k.asid (k.rtab * 2048)) va 0 with
  | some (n, e) => some (home (rangePa .engWrite (match Table.find c.gens n with
      | some page => withShadow e page
      | none => e) va))
  | none =>
    match (s.tile c.tile).pages.find? (fun p => p.maps k.asid va) with
    | some p => some (home (pagePa p va))
    | none => (walkFrom s (s.cluster (clusterOf c.tile)).upper k.asid va (k.ptroot * 4096) 4).map (fun x => home (pagePa x.1 va))

/-- The lines of a copy's global destination (R256, R467): those it has written, and all that its destination's addresses lead to. -/
def destLines (s : State) (g : Workgroup) (c : Copy) : List Nat :=
  let vas := (globalSpans c).flatMap (fun p => (span (p.1 / 128) (p.2 / 128 + 2)).filter
    (fun l => decide (l * 128 < p.1 + p.2)))
  c.lines ++ vas.filterMap (fun l => destLine s g c (l * 128))

/-- A copy completes: the lines of its global destination leave the tile of the issuing warp, the token is written, and its
place, tag and window are free (R243, R256, R353, R354, R506). -/
def writeToken (s : State) (c : Copy) : State :=
  let s := match s.wg c.w.wg with
    | some g => (destLines s g c).foldl (fun s l => invalidateLine s g.tile l) s
    | none => c.lines.foldl (fun s l => invalidateLine s c.tile l) s
  let s := putRecord s c 2
  let s := s.countEvent (clusterOf c.tile) 2 ((s.tile c.tile).cycle - c.born).toNat 1
  let drop := fun (l : List Nat) => l.filter (fun k => k != c.id)
  let s := s.setTile c.tile { s.tile c.tile with copies := drop (s.tile c.tile).copies, forward := drop (s.tile c.tile).forward }
  let d := { s.dev with copies := Table.del s.dev.copies c.id, applied := Table.del s.dev.applied c.id }
  let calls := endCall d d.calls c.id
  let s := { s with dev := { d with
    calls := calls
    remotes := d.remotes.filter (fun m => calls.any (fun k => k.gid == m.gid && k.seq == m.seq)) } }
  let s := s.updWarp c.w (fun w => (w.sset c.tok (tokenOf c)).leaveBatch c.id)
  wakeBatch s c.w

/-- A copy that another device handed in has ended here: its record says so, and its tag and window are free (R353, R354). -/
def endHanded (s : State) (c : Copy) : State :=
  let s := putRecord s c 2
  { s with dev := { s.dev with copies := Table.del s.dev.copies c.id, applied := Table.del s.dev.applied c.id } }

/-- COPY_TOKEN_WRITE (R243, R256). -/
def execCopyTokenWrite (id : Nat) (s : State) : Host.Outcome State Fault Refusal :=
  .next (match s.copy id with
    | some c => if copyDone c then (if c.handed then endHanded s c else writeToken s c) else s
    | none => s)

end Sys2Proof.Machine
end

