-- ==== Sys2Proof/Machine/Collective.lean ====
section
/-! DEFINITION. CPC and the collective engine: issue, rendezvous, pulls, the flag union (R455-R468, R521). Of a member
that runs on another device the contribution, and whether it disagrees or fails, are free values, the same for every use (R465;
DESIGN CHOICE, log entry 2). -/

namespace Sys2Proof.Machine

/-- CPC (R253, R455-R458): the shape record, then the group table, read by the warp. -/
def execCpc (t r b : BitVec 6) (v : BitVec 1) (s : State) : Host.Outcome State Fault Refusal :=
  runShaped s (.cpc t r b v) .cpc 3 r (fun s r g w ws sh =>
    let dst := fieldOf (ws.getD 2 0) 0 48
    let table := fieldOf (ws.getD 1 0) 0 48
    let fault := fun (s : State) (a k : Nat) => retireWithRecords s r g w w false [uniRecord w a k (typeOf 0 8)]
    if shapeBad sh true || callShapeBad sh dst then preciseTrap s r w 0x08
    else
      match readWords s r g w table 8 with
      | .park s => s
      | .bad s a k => fault s a k
      | .ok s h =>
        if groupHeaderBad sh h then preciseTrap s r w 0x08
        else
          match readWords s r g w (table + 64) (gridSize sh) with
          | .park s => s
          | .bad s a k => fault s a k
          | .ok s es =>
            if groupEntriesBad sh s.dev.devid es then preciseTrap s r w 0x08
            else
              let id := s.nextId
              let k : Call := ⟨id, fieldOf (h.getD 0 0) 0 32, fieldOf (ws.getD 1 0) 48 16, ownRank sh, sh, es, false,
                [], [], [], [], [], [], [], [], 0, false, 0, false, none⟩
              let s := issueCopy s r g w .cpc t ws sh b (v == 1) (fun _ => false)
              if (s.copy id).isSome then { s with dev := { s.dev with calls := s.dev.calls ++ [k] } } else s)

/-! ### Memory accesses of the engine -/

/-- A write of the engine: address, bytes, value. -/
abbrev EngWrites := List (Nat × Nat × Nat)

/-- Cut writes at line boundaries, with fuel for one write's lines. -/
def cutWrite : Nat → Nat → Nat → Nat → EngWrites
  | 0, _, _, _ => []
  | fuel + 1, a, n, v =>
    let k := 128 - a % 128
    if n ≤ k then [(a, n, v)] else (a, k, v % 2 ^ (8 * k)) :: cutWrite fuel (a + k) (n - k) (v / 2 ^ (8 * k))
def cutWrites (l : EngWrites) : EngWrites := l.flatMap (fun w => cutWrite (w.2.1 / 128 + 2) w.1 w.2.1 w.2.2)

/-- Translate the writes of an engine, all before any is made (R244). -/
def xlateWrites (s : State) (g : Workgroup) (c : Copy) : EngWrites → CopyRes (List (Nat × Nat × Nat))
  | [] => .ok s []
  | (a, n, v) :: r =>
    let q := copyXlate s g c .engWrite a
    match q.2 with
    | .ok x => match xlateWrites q.1 g c r with
      | .ok s l => .ok s ((x.pa, n, v) :: l)
      | e => e
    | .miss p => .miss q.1 p 1
    | .bad k => .err q.1 (copyCode k)

/-- Make the writes of an engine: the state, and the lines written; nothing is written unless all can be. Those that leave the device are
acknowledged (R344). -/
def engineWrites (s : State) (g : Workgroup) (c : Copy) (l : EngWrites) : CopyRes (List Nat) :=
  match xlateWrites s g c (cutWrites l) with
  | .ok s ps => .ok (ps.foldl (fun s p => remoteAcked (chanWrite s p.1 p.2.1 p.2.2) p.1) s) (ps.map (fun p => lineOf p.1))
  | .miss s p a => .miss s p a
  | .err s e => .err s e

/-- Read n values of z bytes whose addresses a function gives, from number e on. -/
def engineReads (s : State) (g : Workgroup) (c : Copy) (z : Nat) (addr : Nat → Nat) (e : Nat) : Nat → CopyRes (List Nat)
  | 0 => .ok s []
  | n + 1 =>
    match engineReadSpan s g c (addr e) z with
    | .ok s v => match engineReads s g c z addr (e + 1) n with
      | .ok s l => .ok s (v :: l)
      | r => r
    | .miss s p a => .miss s p a
    | .err s k => .err s k

/-- Cut a dense array into segments (R457), with fuel for the segments. -/
def cutSegs : Nat → List Nat → List (List Nat)
  | 0, _ => []
  | n + 1, l => l.take 32 :: cutSegs n (l.drop 32)

/-! ### Ends with error -/

/-- Change the call of a copy. -/
def State.call (s : State) (id : Nat) : Option Call := s.dev.calls.find? (fun k => k.copy == id)
def State.setCall (s : State) (k : Call) : State :=
  { s with dev := { s.dev with calls := s.dev.calls.map (fun (j : Call) => if j.copy = k.copy then k else j) } }

/-- The status word of SWEEP0 (R457): ABORT, MISMATCH, FLAGS. -/
def statusWord (abort mismatch : Bool) (fl : BitVec 8) : Nat :=
  (if abort then 2 ^ 9 else 0) + (if mismatch then 2 ^ 8 else 0) + fl.toNat % 64

/-- One member's call ends with a code, and no more of DST is written: SECT is the first sector that has not been sent (R244, R255). Its status word is written if it can be, but not that of a
member whose own fault kept it from posting (R459, R467, R468). -/
def endMember (s : State) (k : Call) (code word : Nat) : State :=
  match s.copy k.copy with
  | some c =>
    if k.ended || c.err.isSome then s
    else
      let s := s.setCall { k with failed := true, failWord := word }
      let c := { c with err := some (code, c.next), parked := [] }
      match s.wg c.w.wg with
      | some g =>
        if (k.posted || code == 0x06) && shapeSweep k.shape false != 0 then
          match engineWrites s g c [(shapeSweep k.shape false + 8, 8, word)] with
          | .ok s lines => s.setCopy (lines.foldl Copy.addLine c)
          | .miss s _ _ => s.setCopy c
          | .err s _ => s.setCopy c
        else s.setCopy c
      | none => s.setCopy c
  | none => s

/-- A member's call ends so while some member of the group has not written its FLAGS, since no fault, difference or lost route follows a write
of DST (R467). -/
def failMember (s : State) (k : Call) (code word : Nat) : State :=
  if groupFlagged s k then s else endMember s k code word

/-- The management cores end a call: every member whose token is not written ends with code 0x06 and ABORT (R468). -/
def abortGroup (s : State) (k : Call) : State :=
  (s.dev.calls.filter (fun j => k.meets j && k.group.contains j.rank)).foldl (fun s j =>
    endMember s j 0x06 (statusWord true false 0)) s

/-- Every member of a call's group ends: the call itself with its own code, the others with 0x06 (R459, R467, R468). -/
def failGroup (s : State) (k : Call) (code word : Nat) : State :=
  (s.dev.calls.filter (fun j => k.meets j && k.group.contains j.rank)).foldl (fun s j =>
    failMember s j (if j.copy = k.copy then code else 0x06) word) s

/-- Go on with what an access of a member's engine came to: a miss parks its copy, and a fault ends the group (R467). -/
def memberRes {α : Type} (g : Workgroup) (c : Copy) (k : Call) (r : CopyRes α) (f : State → α → State) : State :=
  match r with
  | .ok s v => f s v
  | .miss s p a => parkCopy s g c p a
  | .err s e => failGroup s k e 0

/-- A call whose engine may act: started, not parked, not ended. -/
def activeCall (s : State) (id : Nat) : Option (Workgroup × Copy × Call) :=
  match s.copy id, s.call id with
  | some c, some k =>
    match s.wg c.w.wg with
    | some g =>
      if c.started && c.parked.isEmpty && c.err.isNone && !k.failed && !k.ended && k.result.isNone then some (g, c, k) else none
    | none => none
  | _, _ => none

/-! ### What is formed without a pull, and publishing -/

/-- The chain total of a chain's last member and the group total of the last position, as far as their parts reach
(R460, R463), with fuel for the segments. -/
def localSteps (k : Call) : Nat → Call
  | 0 => k
  | n + 1 =>
    let i := k.tot.length
    let own := k.x.getD i []
    let k1 :=
      if k.hasTot && k.isLast && decide (i < k.segs) && k.posted then
        if k.hasP then
          match k.p[i]? with
          | some p => { k with tot := k.tot ++ [(combineSeg k p own).1], fl := k.fl ||| (combineSeg k p own).2 }
          | none => k
        else { k with tot := k.tot ++ [own] }
      else k
    let m := k1.sum.length
    let k2 :=
      if k1.hasSum && k1.endsGroup && decide (m < k1.segs) then
        match k1.tot[m]?, k1.tp[m]? with
        | some t, some p =>
          if k1.hasTp then { k1 with sum := k1.sum ++ [(combineSeg k1 p t).1], fl := k1.fl ||| (combineSeg k1 p t).2 }
          else { k1 with sum := k1.sum ++ [t] }
        | some t, none => if k1.hasTp then k1 else { k1 with sum := k1.sum ++ [t] }
        | none, _ => k1
      else k1
    localSteps k2 n

/-- What a call publishes in SWEEP0 and in SWEEP1 (R521): the segments, and READY. -/
def Call.published (k : Call) (second : Bool) : List (List Nat) :=
  if second then (if k.hasS then k.s else if k.hasSum then k.sum else []) else if k.hasP then k.p else []
def Call.ready (k : Call) (second : Bool) : Nat :=
  let has := if second then k.hasS || k.hasSum else k.hasP
  if has then (k.published second).length else k.segs

/-- The writes that publish what a call has beyond what it had: elements, then READY (R461). -/
def publishWrites (sh : List Reg) (old new : Call) (second : Bool) : EngWrites :=
  let a := shapeSweep sh second
  let z := callElem sh
  let from_ := (old.published second).length
  let segs := (new.published second).drop from_
  if segs.isEmpty then []
  else
    ((List.range segs.length).map (fun i =>
      let seg := segs.getD i []
      (a + 64 + 32 * z * (from_ + i), z * seg.length, packEls (8 * z) seg)))
      ++ [(a, 8, new.ready second)]

/-- The header of a sweep buffer when its call posts (R457, R462, R521). -/
def headerWrites (k : Call) (second : Bool) : EngWrites :=
  let a := shapeSweep k.shape second
  if a = 0 then [] else [(a, 64, k.ready second)]

/-! ### Members on other devices -/

/-- The members of a call's group on other devices are given their free values: one for each element, and one for the fate. -/
def ensureRemotes (s : State) (k : Call) : State :=
  (k.group.filter (fun r => !k.rankLocal s.dev.devid r)).foldl (fun s r =>
    if s.dev.remotes.any (fun m => m.gid == k.gid && m.seq == k.seq && m.rank == r) then s
    else { s with free := s.free + shapeSize k.shape + 1,
                  dev := { s.dev with remotes := s.dev.remotes ++ [⟨k.gid, k.seq, r, s.free⟩] } }) s

/-- A member of a call's group on another device. -/
def State.remote (s : State) (k : Call) (rank : Nat) : Option Remote :=
  s.dev.remotes.find? (fun m => m.gid == k.gid && m.seq == k.seq && m.rank == rank)

/-- A segment of a member's contribution, as every use has it (R465, R466): of this device's call once it has posted, or of another
device's. -/
def contribution (s : State) (k : Call) (seg rank : Nat) : Option (List Nat) :=
  if k.rankLocal s.dev.devid rank then (peerOf s.dev.calls k rank).bind (fun j => j.x[seg]?)
  else (s.remote k rank).map (fun m =>
    let raw := (List.range (k.segLen seg)).map (fun i =>
      (Config.freeValue (m.base + 32 * seg + i)).toNat % 2 ^ fmtWidth (shapeFmt k.shape))
    if shapeQ4 k.shape then (q4Block raw (raw.map (fun _ => 0))).1 else raw)

/-- The call of a rank as its whole group's contributions make it. -/
def memberCall (s : State) (k : Call) (rank seg : Nat) : Call :=
  wholeCall k (k.group.map (contribution s k seg)) rank seg

/-- The status word with which a member of another device ends the call of its group, if it does: its parameters disagree (R459), the
management cores of its device end it (R468), or it faults (R467). -/
def remoteFate (s : State) (k : Call) (rank : Nat) : Option Nat :=
  (s.remote k rank).bind (fun m =>
    let v := Config.freeValue (m.base + shapeSize k.shape)
    if v.getLsbD 0 then some (statusWord false true 0)
    else if v.getLsbD 1 then some (statusWord true false 0)
    else if v.getLsbD 2 then some 0 else none)

/-! ### Events -/

/-- Whether a call stands before another among those that wait for a place of the rendezvous table: by PRIO, then arrival (R406). -/
def postsBefore (s : State) (k j : Call) : Bool :=
  match s.copy j.copy, s.copy k.copy, activeCall s j.copy with
  | some c, some d, some _ =>
    !j.posted && decide (j.size > 1) && (decide (c.prio > d.prio) || (decide (c.prio = d.prio) && decide (c.id < d.id)))
  | _, _, _ => false

/-- RENDEZVOUS_POST: the engine reads the contribution, with q4 its residuals, once; it writes the residuals and the
buffers' headers, and posts the call where one of the 256 places is free (R459, R462, R465, R466, R521). A group that has
failed takes its later members with it. -/
def execRendezvousPost (id : Nat) (s : State) : Host.Outcome State Fault Refusal :=
  .next (match activeCall s id with
    | some (g, c, k) =>
      s.onBehalf c.w (fun s =>
      let used := (s.dev.calls.filter (fun j =>
        (j.posted && !j.ended && decide (j.size > 1)) || postsBefore s k j)).length
      if k.posted || (decide (k.size > 1) && decide (used ≥ 256)) then s
      else match s.dev.calls.find? (fun j => j.failed && k.meets j && k.group.contains j.rank) with
      | some j => failMember s k 0x06 j.failWord
      | none =>
        let n := shapeSize k.shape
        memberRes g c k (engineReads s g c (callElem k.shape) (contribAddr k.shape) 0 n) (fun s xs =>
          let q4 := shapeQ4 k.shape
          memberRes g c k (engineReads s g c 4 (fun e => shapeResid k.shape + 4 * e) 0 (if q4 then n else 0)) (fun s rs =>
            let xsegs := cutSegs k.segs xs
            let blocks := (xsegs.zip (cutSegs k.segs rs)).map (fun p => q4Block p.1 p.2)
            let resid : EngWrites := if q4 then [(shapeResid k.shape, 4 * n, packEls 32 (blocks.flatMap (·.2)))] else []
            let k1 := { k with posted := true, x := if q4 then blocks.map (·.1) else xsegs }
            let k2 := if k1.hasP && decide (k1.pos = 0) then { k1 with p := k1.x } else k1
            let k3 := localSteps k2 k.segs
            memberRes g c k (engineWrites s g c (resid ++ publishWrites k.shape k k3 false ++ publishWrites k.shape k k3 true
                ++ headerWrites k3 false ++ headerWrites k3 true)) (fun s lines =>
              ensureRemotes ((s.setCopy (lines.foldl Copy.addLine c)).setCall k3) k3))))
    | none => s)

/-- What a pull forms (R460-R463). -/
inductive Stage where
  | p | tot | tpLead | tpPull | s | tsLead | tsPull | sum
deriving DecidableEq, Repr

/-- The first thing that a call still has to form from one side for a segment. -/
def nextStage (k : Call) (suffix : Bool) (seg : Nat) : Option Stage :=
  let due := fun (need : Bool) (l : List (List Nat)) => need && decide (l.length = seg)
  if decide (seg ≥ k.segs) || !k.posted then none
  else if suffix then
    if due k.hasS k.s then some .s
    else if due k.hasTs k.ts then some (if k.place = 0 then .tsLead else .tsPull)
    else if due (k.hasSum && !k.endsGroup) k.sum then some .sum
    else none
  else if due k.hasP k.p then some .p
  else if due (k.hasTot && !k.isLast) k.tot then some .tot
  else if due k.hasTp k.tp then some (if k.place = 0 then .tpLead else .tpPull)
  else none

/-- The position that a stage pulls from. -/
def stageSource (k : Call) (st : Stage) : Nat :=
  match st with
  | .p => k.pos - 1
  | .tot => 32 * k.chain + k.chainLen - 1
  | .tpLead => 32 * (k.chain - 1)
  | .tpPull => 32 * k.chain
  | .s => k.pos + 1
  | .tsLead => 32 * (k.chain + 1)
  | .tsPull => 32 * k.chain
  | .sum => k.pos + 1

/-- x ⊕ y of two segments that the source must have. -/
def pullBoth (k : Call) (x y : Option (List Nat)) : Option (List Nat × BitVec 8) :=
  match x, y with
  | some x, some y => some (combineSeg k x y)
  | _, _ => none

/-- What a stage forms from its source's segment, where the source has it (R461-R463). -/
def stageValue (k j : Call) (st : Stage) (seg : Nat) : Option (List Nat × BitVec 8) :=
  let plain := fun (l : List (List Nat)) => (l[seg]?).map (fun v => (v, (0 : BitVec 8)))
  match st with
  | .p => if k.rop = 0 then plain j.p else if k.place = 1 then plain j.x else pullBoth k j.p[seg]? j.x[seg]?
  | .tot => plain j.tot
  | .tpLead => if k.chain = 1 then plain j.tot else pullBoth k j.tp[seg]? j.tot[seg]?
  | .tpPull => plain j.tp
  | .s => if k.place + 2 = k.chainLen then plain j.x else pullBoth k j.x[seg]? j.s[seg]?
  | .tsLead => if k.chain + 2 = k.chains then plain j.tot else pullBoth k j.tot[seg]? j.ts[seg]?
  | .tsPull => plain j.ts
  | .sum => plain j.sum

/-- The call with a stage's segment added. -/
def addStage (k : Call) (st : Stage) (v : List Nat) (fl : BitVec 8) : Call :=
  let k := { k with fl := k.fl ||| fl }
  match st with
  | .p => { k with p := k.p ++ [v] }
  | .tot => { k with tot := k.tot ++ [v] }
  | .tpLead => { k with tp := k.tp ++ [v] }
  | .tpPull => { k with tp := k.tp ++ [v] }
  | .s => { k with s := k.s ++ [v] }
  | .tsLead => { k with ts := k.ts ++ [v] }
  | .tsPull => { k with ts := k.ts ++ [v] }
  | .sum => { k with sum := k.sum ++ [v] }

/-- The call that a stage pulls from: one of this device, if it has posted, or one of another device. -/
def sourceCall (s : State) (k : Call) (st : Stage) (seg : Nat) : Option Call :=
  (k.group[stageSource k st]?).bind (fun rank =>
    if k.rankLocal s.dev.devid rank then peerOf s.dev.calls k rank else some (memberCall s k rank seg))

/-- Whether no route leads from a member to the one it pulls from: between their dies, or over the I/O die and a port to another
device (R448, R450, R468). -/
def pullCutOff (s : State) (c : Copy) (k : Call) (rank : Nat) : Bool :=
  if k.rankLocal s.dev.devid rank then
    match (s.dev.calls.find? (fun j => k.meets j && j.rank == rank)).bind (fun j => s.copy j.copy) with
    | some d => !hasRoute s.dev.badLinks (dieOf c.tile) (dieOf d.tile)
    | none => false
  else s.dev.ports.isEmpty || s.dev.badLinks.contains (ioLink (dieOf c.tile))

/-- Two members without a route end with code 0x07, the others of their group with 0x06 (R468). -/
def failPair (s : State) (k : Call) (rank : Nat) : State :=
  let s := match s.dev.calls.find? (fun j => k.meets j && j.rank == rank) with
    | some j => failMember s j 0x07 0
    | none => s
  failGroup s k 0x07 0

/-- The rank that a stage pulls from. -/
def pullRank (k : Call) (st : Stage) : Nat := k.group.getD (stageSource k st) 0

/-- PULL_REQUEST: the pull of a segment is served once the other call has posted and has it; participants that disagree, or a member
of another device that ends, end the call of the whole group, and a pair without a route its own way (R459, R461, R467, R468). -/
def execPullRequest (id : Nat) (suffix : Bool) (seg : Nat) (s : State) : Host.Outcome State Fault Refusal :=
  .next (match activeCall s id with
    | some (_, c, k) =>
      match nextStage k suffix seg with
      | some st =>
        if pullCutOff s c k (pullRank k st) then failPair s k (pullRank k st)
        else
          match remoteFate s k (pullRank k st), sourceCall s k st seg with
          | some word, _ => failGroup s k 0x06 word
          | none, some j =>
            if j.params != k.params then failGroup s k 0x06 (statusWord false true 0)
            else if (stageValue k j st seg).isSome && !k.asked.contains (suffix, seg) then
              s.setCall { k with asked := (suffix, seg) :: k.asked }
            else s
          | none, none => s
      | none => s
    | none => s)

/-- PULL_DATA: the segment arrives, is combined, and what it forms is published (R461-R463, R521). -/
def execPullData (id : Nat) (suffix : Bool) (seg : Nat) (s : State) : Host.Outcome State Fault Refusal :=
  .next (match activeCall s id with
    | some (g, c, k) =>
      match nextStage k suffix seg with
      | some st =>
        match if k.asked.contains (suffix, seg) then sourceCall s k st seg else none with
        | some j =>
          match stageValue k j st seg with
          | some (v, fl) =>
            let k1 := addStage { k with asked := k.asked.filter (fun a => a != (suffix, seg)) } st v fl
            let k2 := localSteps k1 k.segs
            s.onBehalf c.w (fun s =>
              memberRes g c k (engineWrites s g c (publishWrites k.shape k k2 false ++ publishWrites k.shape k k2 true))
                (fun s lines => (s.setCopy (lines.foldl Copy.addLine c)).setCall k2))
          | none => s
        | none => s
      | none => s
    | none => s)

/-- The group's members of this device have all formed what they need. -/
def groupFormed (s : State) (k : Call) : Bool :=
  (k.group.filter (k.rankLocal s.dev.devid)).all (fun r => match peerOf s.dev.calls k r with
    | some j => j.formed
    | none => false)

/-- Whether a member that has posted differs from a call in its parameters (R459). -/
def paramsDiffer (s : State) (k : Call) : Bool :=
  (k.group.filter (k.rankLocal s.dev.devid)).any (fun r => match peerOf s.dev.calls k r with
    | some j => j.params != k.params
    | none => false)

/-- Whether a call of a group has no route to some other member (R468). -/
def cutFromGroup (s : State) (k j : Call) : Bool :=
  match s.copy j.copy with
  | some d => k.group.any (fun r => r != j.rank && pullCutOff s d j r)
  | none => false

/-- The members of a call's group without a route to another end with code 0x07, the others with 0x06 (R468). -/
def failCut (s : State) (k : Call) : State :=
  failGroup ((s.dev.calls.filter (fun j => k.meets j && k.group.contains j.rank && cutFromGroup s k j)).foldl (fun s j =>
    failMember s j 0x07 0) s) k 0x06 0

/-- Whether some member of a call's group on this device has no route to another. -/
def groupCut (s : State) (k : Call) : Bool :=
  s.dev.calls.any (fun j => k.meets j && k.group.contains j.rank && cutFromGroup s k j)

/-- The flags that a member of another device raises in forming one segment (R92-R94, R464). -/
def remoteFlags (s : State) (k : Call) (rank seg : Nat) : BitVec 8 :=
  let v := memberCall s k rank seg
  let at_ := fun (l : List (List Nat)) => l.getD seg []
  let pulls := (if v.hasP && decide (v.pos > 0) then [.p] else []) ++ (if v.hasTp && decide (v.place = 0) then [.tpLead] else [])
    ++ (if v.hasS then [Stage.s] else []) ++ (if v.hasTs && decide (v.place = 0) then [.tsLead] else [])
  let steps := pulls.foldl (fun (a : BitVec 8) st =>
    a ||| ((stageValue v (memberCall s k (pullRank v st) seg) st seg).map (·.2)).getD 0) 0
  let tot := if v.hasTot && v.isLast && v.hasP then (combineSeg v (at_ v.p) (at_ v.x)).2 else 0
  let sum := if v.hasSum && v.endsGroup && v.hasTp then (combineSeg v (at_ v.tp) (at_ v.tot)).2 else 0
  steps ||| tot ||| sum ||| (resultSeg v seg).2

/-- The union of the flags of every combining step of the group (R464). -/
def flagUnionOf (s : State) (k : Call) : BitVec 8 :=
  if k.size = 1 then 0
  else k.group.foldl (fun a r =>
    if k.rankLocal s.dev.devid r then
      match peerOf s.dev.calls k r with
      | some j => a ||| j.fl ||| resultFlags j
      | none => a
    else (List.range k.segs).foldl (fun a i => a ||| remoteFlags s k r i) a) 0

/-- FLAG_UNION: the union reaches a member, which writes FLAGS and may then write its results and its token (R464). The union's
messages reach every member: no union comes of a group whose members differ in their parameters, or two of which have no
route, or with a member of another device that ends its call (R459, R467, R468). -/
def execFlagUnion (id : Nat) (s : State) : Host.Outcome State Fault Refusal :=
  .next (match activeCall s id with
    | some (g, c, k) =>
      if k.formed && paramsDiffer s k then failGroup s k 0x06 (statusWord false true 0)
      else if k.formed && groupFormed s k then
        if groupCut s k then failCut s k else
        match k.group.findSome? (remoteFate s k) with
        | some word => failGroup s k 0x06 word
        | none =>
          let a := shapeSweep k.shape false
          let ws : EngWrites := if a = 0 then [] else [(a + 8, 8, statusWord false false (flagUnionOf s k))]
          s.onBehalf c.w (fun s =>
            memberRes g c k (engineWrites s g c ws) (fun s lines =>
              (s.setCopy (lines.foldl Copy.addLine c)).setCall { k with result := some (resultBytes k) }))
      else s
    | none => s)

end Sys2Proof.Machine
end

