-- ==== Sys2Proof/Machine/Clocks.lean ====
section
/-! DEFINITION. The level of a cluster and the voltage of a pair (R470-R478): what each aims at, how a change begins and
switches, how the voltage slews, and when a pair stands idle (R490). -/

namespace Sys2Proof.Machine

/-- The layer voltage of a level in mV (R471). -/
def levelVoltage (l : Nat) : Nat :=
  [550, 560, 570, 580, 590, 600, 615, 630, 645, 660, 680, 700, 720, 745, 775, 810].getD l 810

/-- Change a cluster's clock state. -/
def State.updClk (s : State) (c : Nat) (f : Clock → Clock) : State :=
  s.setCluster c { s.cluster c with clk := f (s.cluster c).clk }

/-- The clusters of a pair (R470). -/
def pairClusters (p : Nat) : List Nat := [2 * p, 2 * p + 1]

/-- RES: the workgroups resident on a cluster (R391). -/
def residents (s : State) (c : Nat) : Nat := (s.wgs.filter (fun g => g.2.onTile && clusterOf g.2.tile == c)).length

/-- T: the greatest request, or ILEVEL with no context resident (R472). -/
def clockTarget (k : Cluster) : Nat :=
  match k.requests with
  | [] => k.clk.ilevel
  | r :: rs => rs.foldl (fun a x => max a x.2) r.2

/-- A: the target under the power cap; what would lower the cluster below L8 waits for the end of a swap in progress, and the
level in force stands until then (R414, R472) (DEDUCED, log entry 35). -/
def clockAim (k : Cluster) : Nat :=
  let a := min (clockTarget k) k.clk.pcap
  if k.swap.isSome ∧ a < 8 then k.clk.level else a

/-- The fallback level (R475). -/
def fallbackOf (l : Nat) : Nat := l - 4

/-- The idle generator is to hold a level: at once where it does, by the lock in progress where that leads there, else
after a lock that starts now (R475, R488). -/
def Clock.lockTo (k : Clock) (l tick : Nat) : Clock :=
  if k.fblevel = l then k else { k with fblevel := l, locking := true, lockEnd := tick + 200 }

/-- A change to a level begins, or takes another aim: its state, and the lock that it needs (R476, R477, R488). -/
def Clock.change (k : Clock) (st l tick : Nat) : Clock := { k with cstate := st, aim := l, since := tick }.lockTo l tick

/-- The pair's required layer voltage (R472). -/
def requiredVoltage (s : State) (p : Nat) : Nat :=
  (pairClusters p).foldl (fun a c =>
    let k := (s.cluster c).clk
    let a := if k.cstate = 4 then a else max a (levelVoltage k.level)
    if k.cstate = 1 then max a (levelVoltage k.aim) else a) (s.pair p).pfloor

/-- TARGET is written, and a change begins where the level in force is not the aimed one and none is in progress (R472,
R476, R477). -/
def refreshClock (s : State) (c : Nat) : State :=
  let s := s.updClk c (fun k => { k with target := clockTarget (s.cluster c) })
  let k := (s.cluster c).clk
  let a := clockAim (s.cluster c)
  if k.cstate ≠ 0 ∨ a = k.level ∨ (s.pair (pairOf c)).gstate ≥ 2 then s
  else s.updClk c (fun k => k.change (if a > k.level then 1 else 2) a (s.die (dieOfCluster c)).tick)

/-- The clock goes over to the idle generator, and the other, which holds the level that was in force, locks at the new fallback
(R475, R476). -/
def switchClock (s : State) (c : Nat) : State :=
  s.updClk c (fun k =>
    { k with level := k.aim, gsel := !k.gsel, cstate := if k.cstate = 1 then 0 else 3, fblevel := k.level }.lockTo
      (fallbackOf k.aim) (s.die (dieOfCluster c)).tick)

/-- Whether a change of a cluster had its lock and, for a raise, its voltage before a tick (R475, R476). -/
def readyBefore (k : Clock) (x : Pair) (tick : Nat) : Bool :=
  !k.locking && decide (max k.since k.lockEnd < tick)
    && (k.cstate != 1 || decide ((if x.slewed < tick then x.vnow else x.vwas) ≥ levelVoltage k.aim))

/-- A change whose lock and, for a raise, whose voltage is there switches, in a tick after that in which they were (R476); a lowering
below L8 waits for the end of a swap (R414). -/
def trySwitch (s : State) (c : Nat) : State :=
  let k := (s.cluster c).clk
  if !readyBefore k (s.pair (pairOf c)) (s.die (dieOfCluster c)).tick then s
  else if k.cstate = 1 then refreshClock (switchClock s c) c
  else if k.cstate = 2 then (if k.aim < 8 ∧ (s.cluster c).swap.isSome = true then s else switchClock s c)
  else s

/-- VNOW moves toward a voltage in the n ticks up to the present one, at 5 mV a tick; the tick of its last change and what it was before
that are kept (R472, R476). -/
def Pair.slew (x : Pair) (v n tick : Nat) : Pair :=
  let k := min n (((v - x.vnow) + (x.vnow - v) + 4) / 5)
  let at_ := fun (j : Nat) => if x.vnow < v then min (x.vnow + 5 * j) v else max (x.vnow - 5 * j) v
  { x with vnow := at_ k, vwas := at_ (k - 1), slewed := tick - n + k }

/-- VNOW slews toward the required voltage; it falls only when neither cluster is in a raise (R472). -/
def slewVoltage (s : State) (p n : Nat) : State :=
  let x := s.pair p
  let tick := (s.die (p / 8)).tick
  let req := requiredVoltage s p
  let raising := (pairClusters p).any (fun c => (s.cluster c).clk.cstate == 1)
  if x.gstate ≥ 3 then s
  else if x.vnow < req then s.setPair p (x.slew req n tick)
  else if x.vnow > req ∧ raising = false then s.setPair p (x.slew req n tick)
  else s

/-- Whether a pair may gate: no workgroup resident, gating enabled, no pipe with an entry (R490). -/
def pairIdle (s : State) (p : Nat) : Bool :=
  (s.pair p).gateen && (pairClusters p).all (fun c =>
    residents s c == 0 && (s.cluster c).pipes.all (fun q => q.2.entries.isEmpty && q.2.spilled.isEmpty))

/-- The idle count starts, or returns to 0 (R490). -/
def idleCheck (s : State) (p : Nat) : State :=
  let x := s.pair p
  if x.gstate = 0 ∧ pairIdle s p then s.setPair p { x with gstate := 1, since := (s.die (p / 8)).tick }
  else if x.gstate = 1 ∧ pairIdle s p = false then s.setPair p { x with gstate := 0 }
  else s

/-- The pairs of a die. -/
def pairsOf (d : Nat) : List Nat := [0, 1, 2, 3, 4, 5, 6, 7].map (fun i => 8 * d + i)

/-- What n ticks do to a die's pairs. -/
def tickPairs (s : State) (d n : Nat) : State :=
  (pairsOf d).foldl (fun s p => slewVoltage (idleCheck s p) p n) s

end Sys2Proof.Machine
end

