-- ==== Sys2Proof/Machine/Convoys.lean ====
section
/-! DEFINITION. Convoys: joining and leaving (R265-R267), re-evaluation of held members (R363), patience (R364), and the
management cores' writes of a slot (R357). -/

namespace Sys2Proof.Machine

/-- The status that a convoy instruction writes (R266). -/
def convoyStatus (code minpos : Nat) : Reg := BitVec.ofNat 64 (code + 2 ^ 32 * (minpos % 2 ^ 32))

/-- CVPOS: the minimum position of the convoy of the lowest-numbered member stream (R270). -/
def cvpos (s : State) (d : Nat) (r : WRef) (w : Warp) : Nat :=
  match w.memberStreams with
  | n :: _ => match s.memberSlot d r n with
    | some k => (s.convoy d k).minpos
    | none => 0
  | [] => 0

/-- Whether a stream's fields are those of a convoy (R267). -/
def convoyMatches (c : Convoy) (x : Stream) : Bool :=
  decide (c.base = fieldOf x.w0 0 48) && c.istride == x.w2 && c.ostride == x.w3 && c.tag == x.tag

/-- The code that a join gives, in the order of R267; slip is the limit that CVREJOIN checks. -/
def joinCode (s : State) (d : Nat) (r : WRef) (g : Workgroup) (w : Warp) (n : Nat) (a : Reg) (slip : Option Nat) : Nat :=
  let c := s.convoy d (fieldOf a 0 8)
  let x := w.stream n
  if fieldOf a 8 56 ≠ 0 ∨ c.en = false ∨ c.asid ≠ s.asidOf g then 0x04
  else if x.icount = 0 then 0x05
  else if w.sp.cvm.getLsbD n || c.members.any (fun m => m.w == r) then 0x06
  else if c.members.isEmpty then 0x01
  else if !convoyMatches c x then 0x02
  else if c.members.length ≥ 64 then 0x03
  else match slip with
    | some l => if x.pos ≤ c.minpos + l ∧ c.minpos ≤ x.pos + l then 0x00 else 0x07
    | none => 0x00

/-- The convoy of a slot once a stream has joined it; an empty one is founded (R267, R356, R368). -/
def joined (s : State) (d : Nat) (c : Convoy) (r : WRef) (n : Nat) (x : Stream) : Convoy :=
  let m : Member := ⟨r, n, x.pos, false, 0, 0, (s.die d).tick, false, false, false, [], false⟩
  let c := if c.members.isEmpty then { c with base := fieldOf x.w0 0 48, istride := x.w2, ostride := x.w3, tag := x.tag } else c
  { c with members := c.members ++ [m] }

/-- Run CVJOIN or CVREJOIN (R266, R267). -/
def runJoin (s : State) (i : Instr) (d a : BitVec 6) (n : BitVec 3) (re : Bool) : Host.Outcome State Fault Refusal :=
  runNamed s i (fun w => w.active) (fun s r g w =>
    let die := dieOf g.tile
    let v := w.sget a.toNat
    let k := fieldOf v 0 8
    let code := joinCode s die r g w n.toNat v (if re then some w.sp.cvslip.toNat else none)
    if code ≤ 1 then
      let s := (s.setConvoy die k (joined s die (s.convoy die k) r n.toNat (w.stream n.toNat))).noteConvoy die k 1 r
      let w' := w.setCvm n.toNat true
      let w' := { w' with sp := { w'.sp with counted := w'.sp.counted ||| BitVec.ofNat 8 (2 ^ n.toNat) } }
      retire s r g w (w'.sset d.toNat (convoyStatus code (s.convoy die k).minpos)) false
    else retire s r g w (w.sset d.toNat (convoyStatus code (if code = 7 then (s.convoy die k).minpos else 0))) false)

/-- CVJOIN (R267). -/
def execCvjoin (d a : BitVec 6) (n : BitVec 3) (s : State) : Host.Outcome State Fault Refusal :=
  runJoin s (.cvjoin d a n) d a n false

/-- CVREJOIN (R267, R372). -/
def execCvrejoin (d a : BitVec 6) (n : BitVec 3) (s : State) : Host.Outcome State Fault Refusal :=
  runJoin s (.cvrejoin d a n) d a n true

/-- CVLEAVE (R267, R360). -/
def execCvleave (d : BitVec 6) (n : BitVec 3) (s : State) : Host.Outcome State Fault Refusal :=
  runNamed s (.cvleave d n) (fun w => w.active) (fun s r g w =>
    if w.sp.cvm.getLsbD n.toNat then
      let die := dieOf g.tile
      let k := (s.memberSlot die r n.toNat).getD 0
      let s := leaveConvoy s die r n.toNat
      let w' := (s.warp r).getD w
      retire s r g w (w'.sset d.toNat (convoyStatus 0 (s.convoy die k).minpos)) false
    else retire s r g w (w.sset d.toNat (convoyStatus 0x09 0)) false)

/-- CVSLIP (R267, R360). -/
def execCvslip (d a : BitVec 6) (s : State) : Host.Outcome State Fault Refusal :=
  runNamed s (.cvslip d a) (fun w => w.active) (fun s r g w =>
    let v := w.sget a.toNat
    let slip := fieldOf v 0 7
    let pat := fieldOf v 16 16
    if slip = 0 ∨ slip > 64 ∨ fieldOf v 7 9 ≠ 0 ∨ fieldOf v 32 32 ≠ 0 then
      retire s r g w (w.sset d.toNat (convoyStatus 0x08 0)) false
    else
      let w1 := { w with sp := { w.sp with cvslip := BitVec.ofNat 8 slip } }
      let w2 := if pat = 0 then w1 else { w1 with sp := { w1.sp with cvpat := BitVec.ofNat 16 pat } }
      retire s r g w (w2.sset d.toNat (convoyStatus 0 (cvpos s (dieOf g.tile) r w))) false)

/-! ### Holds -/

/-- The members of a slot that are held, each by its own hold (R362). -/
def heldBy (s : State) (d slot : Nat) : List Member := (s.convoy d slot).members.filter (·.held)

/-- A held member is judged again: a hold that the slip rule no longer makes ends (R363). -/
def reevaluate (s : State) (d slot : Nat) (m : Member) : State :=
  match s.warp m.w with
  | some w =>
    if slipAllows s d m.w w m.n then (endHold (endStreamHold s d slot m.w m) d m.w).noteConvoy d slot 3 m.w else s
  | none => s

/-- Members at the minimum that have not advanced since a tick (R364). -/
def stalledMembers (c : Convoy) (since : Nat) : List Member :=
  c.members.filter (fun m => m.pos == c.minpos && decide (m.ladv < since))

/-- At the expiry of a hold the members of its D are detached, those in a swap at its end; D is kept until then (R364). -/
def detachStalled (s : State) (d k : Nat) (c : Convoy) (m : Member) : State :=
  let ds := stalledMembers c m.hstart
  let s := ds.foldl (fun s x =>
    if x.mig then s.updMember d k x.w x.n (fun y => { y with pendingDetach := true })
    else detachMember s d x.w x.n) s
  s.updMember d k m.w m.n (fun y => { y with expired := true, due := (ds.filter (·.mig)).map (fun x => (x.w, x.n)) })

/-- The patience of one held stream of a warp expires in a tick that has ended, so that every advance and join of the tick comes before
(R364, R373): the stalled members are detached, those in a swap at its end; once every one of them has been, the consumption
proceeds. One that is of its own D is detached too, and proceeds as no member (R368). -/
def expire (s : State) (d : Nat) (r : WRef) (n : Nat) (ended : Nat) : State :=
  match s.member d r n with
  | some (k, c, m) =>
    if !m.held || decide (ended < m.hstart + m.limit) then s
    else
      let s := if m.expired then s else detachStalled s d k c m
      match s.member d r n with
      | some (_, c, m) =>
        if c.members.any (fun x => x.pendingDetach && m.due.contains (x.w, x.n)) then s
        else endHold ((endStreamHold s d k r m).updMember d k r n (fun y => { y with go := true })) d r
      | none => s
  | none => s

/-- The holds of a warp expire up to a tick that has ended (R364). -/
def expireHolds (s : State) (w : WRef) (ended : Nat) : State :=
  match s.wg w.wg, s.warp w with
  | some g, some x =>
    match x.c.wait with
    | .hold _ _ => x.memberStreams.foldl (fun s n => expire s (dieOf g.tile) w n ended) s
    | _ => s
  | _, _ => s

/-- PATIENCE_EXPIRY (R364, R373): of a clock that reached its limit before the present tick, and not after a re-evaluation in this
one. -/
def execPatienceExpiry (w : WRef) (s : State) : Host.Outcome State Fault Refusal :=
  .next (match s.wg w.wg with
    | some g =>
      let d := dieOf g.tile
      if 0 < (s.die d).tick ∧ s.leavesPast d 2 w = false then expireHolds s w ((s.die d).tick - 1) else s
    | none => s)

/-- Put a held member in its place by the tick at which its patience ends. -/
def byLimit (m : Member) : List Member → List Member
  | [] => [m]
  | x :: r => if m.hstart + m.limit < x.hstart + x.limit then m :: x :: r else x :: byLimit m r

/-- The held members of some whose patience ends by a tick, in the order of their ticks; those of one tick as the members' list has them from its
end (DESIGN CHOICE, log entry 49). -/
def dueHolds (held : List Member) (now : Nat) : List Member :=
  (held.filter (fun m => decide (m.hstart + m.limit ≤ now))).foldr byLimit []

/-- CONVOY_REEVALUATE: held members whose consumption the slip rule now allows go on (R363), after the expiries of the same tick
(R373). -/
def execConvoyReevaluate (die slot : Nat) (s : State) : Host.Outcome State Fault Refusal :=
  let now := (s.die die).tick
  let s := (dueHolds (heldBy s die slot) now).foldl (fun s m => expire s die m.w m.n now) s
  .next ((heldBy s die slot).foldl (fun s m => reevaluate s die slot m) s)

/-- What ends a tick of a die in its convoys (R364, R373): expiries, then re-evaluation. Several expiries of one convoy in one tick go one
after another, each with the D of the minimum that the one before it left (DESIGN CHOICE, log entry 49). -/
def endConvoyTick (s : State) (d : Nat) : State :=
  let now := (s.die d).tick
  let held := (s.die d).slots.flatMap (fun c => c.2.members.filter (·.held))
  let s := (dueHolds held now).foldl (fun s m => expireHolds s m.w now) s
  if held.isEmpty then s
  else (s.die d).slots.foldl (fun s c => (heldBy s d c.1).foldl (fun s m => reevaluate s d c.1 m) s) s

/-- CONVOY_SLOT_WRITE: word 0 of a descriptor holds ASID and EN; EN of 0 detaches every member (R356, R357). R373
gives such a write no place in the order of a tick: its detaches happen at once and stand among the expiries, so that later advances and joins
of the slot in that tick wait for the next (DESIGN CHOICE, log entry 49). -/
def execConvoySlotWrite (die slot : Nat) (v : BitVec 64) (s : State) : Host.Outcome State Fault Refusal :=
  let k := slot % 256
  let c := s.convoy die k
  let s := s.setConvoy die k { c with asid := fieldOf v 48 16, en := v.getLsbD 47 }
  .next (if v.getLsbD 47 then s else c.members.foldl (fun s m => detachMember s die m.w m.n) s)

end Sys2Proof.Machine
end

