-- ==== Sys2Proof/Machine/Cross.lean ====
section
/-! DEFINITION. Cross-lane instructions (05_cross_lane.md): moves between lanes, reductions and scans, the cavity reduction,
and the exchange of a register with another warp. -/

namespace Sys2Proof.Machine

/-- The sub-group width of a code (R140). -/
def groupWidth (w : BitVec 3) : Nat := 2 ^ w.toNat

/-- What a lane of a moving instruction receives: the source's value, 0 for a bad source under .Z, and at an edge 0 under
.Z or its old value (R138, R141). -/
def movedLane (c : LaneCtx) (a d : BitVec 7) (z : Bool) (src : LaneCtx → Nat → LaneSrc) (l : Nat) : Reg :=
  match src c l with
  | .from_ m => c.val (opdOf a) m
  | .bad => 0
  | .edge => if z then 0 else c.val (opdOf d) l

/-- The lane-select check: without .Z a bad source in any lane of the execution mask traps (R138). -/
def selectCheck (z : Bool) (src : LaneCtx → Nat → LaneSrc) (c : LaneCtx) : Option Nat :=
  if !z && (lanesIn c.m).any (fun l => src c l == .bad) then some 0x03 else none

/-- Run an instruction that moves values between lanes (R141). -/
def runMove (s : State) (i : Instr) (d a : BitVec 7) (z : BitVec 1) (src : LaneCtx → Nat → LaneSrc) :
    Host.Outcome State Fault Refusal :=
  runLane s ⟨i, none, [d, a], [a], [a], true⟩ TagClass.A.has (selectCheck (z == 1) src)
    (fun c => c.put (opdOf d) c.t (movedLane c a d (z == 1) src))

/-- VSHUF: the lane that the index register names (R141). -/
def execVshuf (d a : BitVec 7) (z : BitVec 1) (w : BitVec 3) (k : BitVec 2) (s : State) :
    Host.Outcome State Fault Refusal :=
  runMove s (.vshuf d a z w k) d a z (fun c l => groupSrc (groupWidth w) c.m l (c.w.xget k.toNat l))

/-- VSHUFI: the lane at an XOR pattern (R141); a pattern of W or more is bad. -/
def execVshufi (d a : BitVec 7) (z : BitVec 1) (w : BitVec 3) (m : BitVec 5) (s : State) :
    Host.Outcome State Fault Refusal :=
  runMove s (.vshufi d a z w m) d a z (fun c l =>
    if m.toNat ≥ groupWidth w then .bad else groupSrc (groupWidth w) c.m l (xorBits (l % groupWidth w) m.toNat))

/-- VLSH: the lane n below (.UP) or above (.DN) (R141). -/
def execVlsh (d a : BitVec 7) (z : BitVec 1) (w : BitVec 3) (x : BitVec 1) (n : BitVec 5) (s : State) :
    Host.Outcome State Fault Refusal :=
  runMove s (.vlsh d a z w x n) d a z (fun c l => shiftSrc (groupWidth w) c.m (x == 1) n.toNat l)

/-- VBCST: lane k of the sub-group (R141). -/
def execVbcst (d a : BitVec 7) (z : BitVec 1) (w : BitVec 3) (k : BitVec 5) (s : State) :
    Host.Outcome State Fault Refusal :=
  runMove s (.vbcst d a z w k) d a z (fun c l => groupSrc (groupWidth w) c.m l k.toNat)

/-- One lane of VSUBEL with a selector word (R142). -/
def subelLane (t : BitVec 5) (sel a : Reg) : Reg :=
  let w := fmtWidth t
  laneFrom w (fun j =>
    let q := fieldOf sel (4 * j) 4
    if q < 64 / w then subEl w a q else 0)

/-- VSUBEL (R142). -/
def execVsubel (d a : BitVec 7) (s : BitVec 5) (st : State) : Host.Outcome State Fault Refusal :=
  runLane st ⟨.vsubel d a s, none, [d, a], [a], [a], true⟩ TagClass.A.has noCheck
    (fun c => c.put (opdOf d) c.t (fun l => subelLane c.t (c.w.sget s.toNat) (c.val (opdOf a) l)))

/-- VBALLOT: the sub-group's bits of a predicate, and their count, as n32 (R143). -/
def execVballot (d : BitVec 7) (w k : BitVec 3) (s : State) : Host.Outcome State Fault Refusal :=
  runLane s ⟨.vballot d w k, none, [d], [], [], true⟩ (fun _ => true) noCheck
    (fun c => c.put (opdOf d) 0x06#5 (fun l =>
      let g := ((c.w.pget k.toNat &&& c.m).toNat / 2 ^ groupBase (groupWidth w) l) % 2 ^ groupWidth w
      BitVec.ofNat 64 (g + 2 ^ 32 * popBits 32 g)))

/-- A lane result from one result per sub-element. -/
def perElement (t : BitVec 5) (f : Nat → FRes) : LaneRes :=
  let w := fmtWidth t
  let rs := (List.range (64 / w)).map f
  (BitVec.ofNat 64 (packEls w (rs.map (·.bits))), rs.foldl (fun a r => a ||| r.fl) 0)

/-- Sub-element j of an operand in each of a list of lanes. -/
def LaneCtx.column (c : LaneCtx) (a : BitVec 7) (j : Nat) (ls : List Nat) : List Nat :=
  ls.map (fun m => subEl (fmtWidth c.t) (c.val (opdOf a) m) j)

/-- VRED: the tree over the sub-group's active lanes, to each of them (R145). -/
def execVred (d a : BitVec 7) (w o : BitVec 3) (s : State) : Host.Outcome State Fault Refusal :=
  runLane s ⟨.vred d a w o, none, [d, a], [a], [a], true⟩ (redClassOk (redOpOf o)) noCheck
    (fun c => c.putFlags (opdOf d) c.t (fun l =>
      perElement c.t (fun j => tree (redOpOf o) c.t (c.column a j (groupLanes (groupWidth w) c.m l)))))

/-- VSCAN: the tree over the lanes up to, or below, each lane (R146). -/
def execVscan (d a : BitVec 7) (w : BitVec 3) (x : BitVec 1) (o : BitVec 3) (s : State) :
    Host.Outcome State Fault Refusal :=
  runLane s ⟨.vscan d a w x o, none, [d, a], [a], [a], true⟩ (redClassOk (redOpOf o)) noCheck
    (fun c => c.putFlags (opdOf d) c.t (fun l =>
      let ls := (groupLanes (groupWidth w) c.m l).filter (fun m => if x = 1 then decide (m < l) else decide (m ≤ l))
      perElement c.t (fun j => tree (redOpOf o) c.t (c.column a j ls))))

/-- VCAV: each lane gets the combination of all others, in the fixed order of R147. -/
def execVcav (d a : BitVec 7) (w o : BitVec 3) (s : State) : Host.Outcome State Fault Refusal :=
  runLane s ⟨.vcav d a w o, none, [d, a], [a], [a], true⟩ (cavClassOk (redOpOf o)) noCheck
    (fun c => c.putFlags (opdOf d) c.t (fun l =>
      let ls := groupLanes (groupWidth w) c.m l
      perElement c.t (fun j => cavity (redOpOf o) c.t (c.column a j ls) (ls.filter (fun m => decide (m < l))).length)))

/-! ### VXSWAP -/

/-- Whether two workgroups belong to one launch, by the slot, the counter handle and the queue (DEDUCED, log entry 50). -/
def sameLaunch (g h : Workgroup) : Bool := g.slot == h.slot && g.handle == h.handle && g.queue == h.queue

/-- The workgroup of a launch with a linear index that has not ended; of one that is discarded, there is none once it has left its
tile (R442; DEDUCED, log entry 50). -/
def findPartner (s : State) (g : Workgroup) (wgix : Nat) : Option (Nat × Workgroup) :=
  s.wgs.find? (fun c => sameLaunch g c.2 && c.2.wgix == wgix && c.2.status != .ended)

/-- Whether the posting of an arrival faults: reserved bits, the warp itself, a workgroup that is not there or is on
another die, a warp it does not have (R152). -/
def exchangeFault (s : State) (r : WRef) (g : Workgroup) (wgix : Nat) (word : Reg) : Bool :=
  let wp := fieldOf word 0 4
  if fieldOf word 4 60 ≠ 0 then true
  else
    match findPartner s g wgix with
    | none => true
    | some (u, h) =>
      decide (u = r.wg ∧ wp = r.wp) || (h.status != .saved && decide (dieOf h.tile ≠ dieOf g.tile))
        || decide (wp ≥ h.nwarps)

/-- The lanes that step 2 of R114 takes from the warp go off, its destination is written from the partner's arrival, its stream
advances, and it retires (R114, R151, R170). -/
def finishSwap (s : State) (r : WRef) (own : Mask × BitVec 7 × Bool × Option (Nat × Bool))
    (mask : Mask) (tag : BitVec 5) (vals : List Reg) : State :=
  match s.wg r.wg, s.warp r with
  | some g, some w =>
    let (m, d, z, st) := own
    let keep := if z then 0 else m &&& ~~~mask
    let w' := writeDst (w.switchOff (w.active &&& ~~~m)) (opdOf d) tag m keep (fun l => if mask.getLsbD l then laneOf vals l else 0)
    let w' := match st with
      | some (n, exh) => w'.setStream n ((w'.stream n).advance exh)
      | none => w'
    let q := match st with
      | some (n, _) => prefetch (advanceMember s (dieOf g.tile) r w' n) r g w' n
      | none => (s, w')
    retire q.1 r g (if st.isSome then w.beforeHold else w) q.2 false
  | _, _ => s

/-- A warp whose arrival is posted comes to be held: the slip rule no longer allows the vector that its operand consumes at the pairing,
which is its issue (R150, R361). The arrival is withdrawn, the lanes that step 2 of R114 takes are off, and the VXSWAP is not issued
(R362; DEDUCED, log entry 50). -/
def holdSwap (s : State) (d : Nat) (r : WRef) (w : Warp) (m : Mask) (n : Nat) : State :=
  let s := holdStream (s.setWarp r (w.switchOff (w.active &&& ~~~m))) d r w n
  s.updWarp r (fun w => { w with c := { w.c with wait := .hold ((s.memberSlot d r n).getD 0) (s.die d).tick } })

/-- The stream of a posted arrival that the slip rule does not allow (R361). -/
def swapHeld (s : State) (d : Nat) (r : WRef) (w : Warp) (st : Option (Nat × Bool)) : Option Nat :=
  match st with
  | some (n, _) => if slipAllows s d r w n then none else some n
  | none => none

/-- Whether the pairing of a warp comes too late for this tick in a convoy: as the advance of its operand's stream, or, where it has no lane
left, as the leave of a warp that ends (R171, R373). -/
def swapLate (s : State) (d : Nat) (r : WRef) (m : Mask) (st : Option (Nat × Bool)) : Bool :=
  (match st with
    | some (n, _) => ((s.memberSlot d r n).map (fun k => s.convoyPast d k 0 r)).getD false
    | none => false) || (decide (m = 0) && s.leavesPast d 1 r)

/-- Pair two warps whose arrivals name each other, if both wait and neither stands still for an engine's fault or a swap
(R150, R151, R230, R417). Those of a workgroup that has stopped pair with none (R421; DEDUCED of a discard, log entry 50), and a
pairing that comes too late for this tick is made in the next (R373). -/
def pairSwap (s : State) (r : WRef) : State :=
  match s.wg r.wg, s.warp r with
  | some g, some w =>
    match w.c.wait with
    | .swap wgix wp m tag vals d z st =>
      match findPartner s g wgix with
      | none => s
      | some (u, h) =>
        match h.warp wp with
        | some x =>
          match x.c.wait with
          | .swap ug up xm xt xv xd xz xst =>
            let q : WRef := ⟨u, wp⟩
            if g.live && h.live && !s.frozen q && !s.frozen r && decide (ug = g.wgix) && decide (up = r.wp)
                && !swapLate s (dieOf h.tile) q xm xst && !swapLate s (dieOf g.tile) r m st then
              match swapHeld s (dieOf h.tile) q x xst, swapHeld s (dieOf g.tile) r w st with
              | none, none => finishSwap (finishSwap s q (xm, xd, xz, xst) m tag vals) r (m, d, z, st) xm xt xv
              | some n, none => holdSwap s (dieOf h.tile) q x xm n
              | none, some n => holdSwap s (dieOf g.tile) r w m n
              | some j, some n => holdSwap (holdSwap s (dieOf h.tile) q x xm j) (dieOf g.tile) r w m n
            else s
          | _ => s
        | none => s
    | _ => s
  | _, _ => s

/-- The arrivals on a die that wait are paired where that is possible now. -/
def retrySwaps (s : State) (d : Nat) : State :=
  let waiters := (s.wgs.filter (fun g => g.2.live && dieOf g.2.tile == d)).flatMap (fun g =>
    g.2.warps.filterMap (fun w => match w.2.c.wait with
      | .swap _ _ _ _ _ _ _ _ => some (WRef.mk g.1 w.1)
      | _ => none))
  waiters.foldl pairSwap s

/-- Post an arrival, and pair with the partner's if it names this warp (R150, R151). The warp stays as it is before its VXSWAP
until then (R153). -/
def postSwap (s : State) (r : WRef) (w : Warp) (wgix wp : Nat) (m : Mask) (tag : BitVec 5)
    (vals : List Reg) (d : BitVec 7) (z : Bool) (st : Option (Nat × Bool)) : State :=
  pairSwap (s.setWarp r { w with c := { w.c with wait := .swap wgix wp m tag vals d z st } }) r

/-- VXSWAP (R150-R153). The operand's stream vector is read, and its lines are counted, when the arrival is posted; it is
consumed when the pair is made (R371); vz is sent as raw under any mask (DEDUCED, log entry 7). -/
def execVxswap (d a : BitVec 7) (z : BitVec 1) (k : BitVec 5) (s : State) : Host.Outcome State Fault Refusal :=
  let i := Instr.vxswap d a z k
  runNamed s i (fun w => w.active) (fun s r g w0 =>
    let off := (opdOf d).offLanes w0 w0.active
    let w := w0.switchOff off
    let m := w0.active &&& ~~~off
    let bad := fun code => preciseTrap (s.setWarp r w) r w code
    let wgix := (w.sget k.toNat).toNat
    let word := w.sget (k.toNat + 1)
    let st := match opdOf a with
      | .stream n => some n
      | _ => none
    match commonTag false [(opdOf a).tag w m], st with
    | .tag t, none =>
      if exchangeFault s r g wgix word then bad 0x04
      else postSwap s r w0 wgix (fieldOf word 0 4) m t (laneNums.map (fun l => (opdOf a).val w [] l)) d (z == 1) none
    | .tag t, some n =>
      if anyUnset w [n] then bad 0x02
      else if exchangeFault s r g wgix word then bad 0x04
      else
        match consumeStop s r g w0 w m [n] with
        | some (.held s') => s'
        | some (.park s') => s'
        | _ =>
          let c := consumeEach s r g w m [n]
          if c.2.2.2.isEmpty then
            postSwap c.1 r { w0 with sp := c.2.1.sp } wgix (fieldOf word 0 4) m t
              (laneNums.map (fun l => (opdOf a).val c.2.1 c.2.2.1 l)) d (z == 1)
              (some (n, decide (((w.stream n).reads m (w.stream n).pos).length < (lanesIn m).length)))
          else
            let q := prefetch (advanceMember c.1 (dieOf g.tile) r c.2.1 n) r g c.2.1 n
            retireWithRecords q.1 r g w0.beforeHold q.2 false c.2.2.2
    | _, _ => bad 0x02)

/-- Warps of a launch that wait for a workgroup that ended, or came back on another die, take the exchange fault (R152).
gone says for a waiter's die whether the workgroup is out of reach; a workgroup that has stopped has no waiters (R421, R442). One that stands still for an engine's fault or a swap, or has an
earlier event due, issues its VXSWAP again afterwards, and takes the fault then (R230, R417, R431). -/
def swapPartnerGone (s : State) (g : Workgroup) (gone : Nat → Bool) : State :=
  let waiters := s.wgs.flatMap (fun c =>
    if c.2.live && sameLaunch g c.2 && gone (dieOf c.2.tile) then
      c.2.warps.filterMap (fun x => match x.2.c.wait with
        | .swap u _ _ _ _ _ _ _ => if u = g.wgix then some (WRef.mk c.1 x.1) else none
        | _ => none)
    else [])
  waiters.foldl (fun s r => match s.warp r with
    | some w =>
      let w' := { w with c := { w.c with wait := .none } }
      if s.frozen r || w.due then s.setWarp r w' else preciseTrap s r w' 0x04
    | none => s) s

end Sys2Proof.Machine
end

