-- ==== Sys2Proof/Machine/Launch.lean ====
section
/-! DEFINITION. The state in which a warp starts (R395), and what a placement does to a cluster (R280, R396, R482, R490). -/

namespace Sys2Proof.Machine

/-- Special registers of a warp at launch (R395): s-registers, SRSEED and PRIO are given beside it. -/
def WarpSpecial.launch : WarpSpecial := ⟨0, 0, 0, 8, 2000, 0, 0, 0, 0, 1, 0, 0, 0, 0, 0⟩

/-- Registers of a warp at launch with an allocation (R19, R22, R28, R32, R200, R395). -/
def WarpRegs.launch (alloc : Nat) : WarpRegs := ⟨[], [], [], false, [], [], [], 0, alloc, alloc, [], [], []⟩

/-- Control state of a warp at launch: every lane, at a target (R34, R58, R395). -/
def WarpCtl.launch (entry : Nat) : WarpCtl :=
  ⟨BitVec.allOnes 32, 0, 0, [], [], 0, [], [], Pos.atTarget entry, none, [], none, none, false, false, false, false, .none⟩

/-- A warp at launch (R395). -/
def Warp.launch (alloc entry : Nat) : Warp :=
  ⟨WarpRegs.launch alloc, WarpSpecial.launch, WarpCtl.launch entry, [], 0, none, [], [], false, 0, 0, [], none, 0, 0, [], []⟩

/-- The step of a pair as a placement changes it: an idle count ends, a gated pair wakes, the tile's ballast stops
(R396, R482, R490). -/
def Pair.onPlacement (x : Pair) (tile tick : Nat) : Pair :=
  let x := { x with ballast := Table.del x.ballast (tile % 16) }
  if x.gstate = 1 then { x with gstate := 0 }
  else if x.gstate = 3 then { x with gstate := 4, since := tick }
  else x

/-- What a placement on a tile does beside the workgroup: its tick (R410), the pair, and the context's first request on the cluster
(R280). -/
def onPlacement (s : State) (t slot : Nat) : State :=
  let c := clusterOf t
  let p := pairOf c
  let s := s.setPair p ((s.pair p).onPlacement t (s.die (dieOf t)).tick)
  let s := s.setTile t { s.tile t with placed := some (s.die (dieOf t)).tick }
  let k := s.cluster c
  let s := match Table.find k.requests slot with
    | some _ => s
    | none => s.setCluster c { k with requests := Table.set k.requests slot (s.slot slot).deflevel }
  refreshClock s c

/-- Whether a context has a workgroup on a tile, or on a cluster. -/
def slotOnTile (s : State) (slot t : Nat) : Bool :=
  s.wgs.any (fun g => g.2.onTile && g.2.slot == slot && g.2.tile == t)
def slotOnCluster (s : State) (slot c : Nat) : Bool :=
  s.wgs.any (fun g => g.2.onTile && g.2.slot == slot && clusterOf g.2.tile == c)

/-- A workgroup has left a tile: the dirty lines of its context were written back; with the last of the context the lines
go (R286), and with the last on the cluster the request is dropped (R280). -/
def afterLeaving (s : State) (t slot asid : Nat) : State :=
  let mine := fun (l : Line) => l.asid == asid
  let s := if slotOnTile s slot t then writeBackWhere s t mine else invalidateWhere s t mine
  let c := clusterOf t
  if slotOnCluster s slot c then s
  else refreshClock (s.setCluster c { s.cluster c with requests := Table.del (s.cluster c).requests slot }) c

end Sys2Proof.Machine
end

