-- ==== Sys2Proof/Machine/Levels.lean ====
section
/-! DEFINITION. What the queue processor does in a context's memory (R522), levels and their completion counters
(R386-R390), the cancel of a level (R278, R389), and exit records (R432). -/

namespace Sys2Proof.Machine

/-! ### Accesses of the queue processor -/

/-- What an access of the queue processor comes to: a result, a miss that the management cores decide (page and ACC), or
an error of R377. -/
inductive IoRes (α : Type) where
  | ok (x : α)
  | miss (page acc : Nat)
  | bad (code : Nat)
deriving DecidableEq, Repr

/-- Go on with a result. -/
def IoRes.andThen {α β : Type} (r : IoRes α) (f : α → IoRes β) : IoRes β :=
  match r with
  | .ok x => f x
  | .miss p a => .miss p a
  | .bad c => .bad c

/-- The queues of the device by 64 times the slot plus the queue's number (queueKey). -/
def State.queue (s : State) (k : Nat) : Queue := Table.get s.dev.queues Queue.reset k
def State.setQueue (s : State) (k : Nat) (q : Queue) : State :=
  { s with dev := { s.dev with queues := Table.set s.dev.queues k q } }

/-- The physical address of an access in the queue's context (R522); an address that no page can hold, or that the
management cores answered "none" for, is an error of the given code (DEDUCED, log entry 19). -/
def queueXlate (s : State) (k va : Nat) (a : Acc) (code : Nat) : IoRes Nat :=
  if va ≥ 2 ^ 48 then .bad code
  else
    match translateIo s (k / 64) va a with
    | .ok x => .ok x.pa
    | .miss => if (s.queue k).nones.any (fun x => x.2 == va / 4096) then .bad code else .miss (va / 4096) a.code
    | .err _ => .bad code

/-- One word read at its channel; a data error is an error too (DEDUCED, log entry 19). -/
def queueRead (s : State) (k va code : Nat) : IoRes Reg :=
  (queueXlate s k va .load code).andThen (fun pa =>
    if s.dev.badLines.contains (lineOf pa) then .bad code else .ok (BitVec.ofNat 64 (chanRead s pa 8)))

/-- n words read in order. -/
def queueWords (s : State) (k va code : Nat) : Nat → IoRes (List Reg)
  | 0 => .ok []
  | n + 1 =>
    (queueRead s k va code).andThen (fun x =>
      (queueWords s k (va + 8) code n).andThen (fun xs => .ok (x :: xs)))

/-- The processor stops a queue: STATE 3, ERR, HEAD as it is (R377). -/
def State.stopQueue (s : State) (k code : Nat) : State := s.setQueue k { s.queue k with state := 3, err := code }

/-- The processor waits for the reply to a fault message of SRC 4 (R435, R522); one message at a time. by_ says whose access it is. -/
def queueMiss (s : State) (k page acc handle by_ : Nat) : State :=
  let q := s.queue k
  if q.waitTag.isSome then s
  else
    let m : FaultMsg := ⟨page * 4096, (s.slot (k / 64)).asid, acc, 4, 0, handle, 0, 0, 0, 64, s.dev.tick, false⟩
    let tag := s.dev.nextTag
    (sendMessage s m).setQueue k { q with waitTag := some tag, waitBy := by_ }

/-- The pages answered "none" to the accesses of one of those that use a queue have had their effect. -/
def Queue.settled (q : Queue) (by_ : Nat) : Queue := { q with nones := q.nones.filter (fun x => x.1 != by_) }

/-- Take up what the processor's accesses for one of them came to: the new state, a wait that changes nothing else, or a stopped
queue. The pages answered "none" to it have had their effect. -/
def afterIo (s : State) (k handle by_ : Nat) : IoRes State → State
  | .ok s' => s'.setQueue k ((s'.queue k).settled by_)
  | .miss page acc => queueMiss s k page acc handle by_
  | .bad code => (s.stopQueue k code).setQueue k (((s.stopQueue k code).queue k).settled by_)

/-- A write of the processor at its channel; one that leaves the device is acknowledged there, and the WAITCs on remote counters test
them (R344). -/
def queueWrite (s : State) (pa n v : Nat) : State :=
  if spaceOf pa = 1 then testCounters (chanWrite s pa n v) (fun _ => true) true else chanWrite s pa n v

/-! ### Levels -/

/-- A level by number, and a change of it. -/
def State.level (s : State) (id : Nat) : Option Level := s.dev.levels[id]?
def State.setLevel (s : State) (id : Nat) (l : Level) : State :=
  { s with dev := { s.dev with levels := s.dev.levels.set id l } }

/-- The queue that parsed a level; one past all queues while its context has no slot (R494). -/
def Level.key (l : Level) : Nat := queueKey l.slot l.queue

/-- Grid extents, and the number of workgroups of a launch (R379). -/
def Level.word (l : Level) (i : Nat) : Reg := l.packet.getD i 0
def Level.gx (l : Level) : Nat := fieldOf (l.word 2) 0 32
def Level.gy (l : Level) : Nat := fieldOf (l.word 2) 32 16
def Level.gz (l : Level) : Nat := fieldOf (l.word 2) 48 16
def Level.total (l : Level) : Nat := l.gx * l.gy * l.gz

/-- The control word of a counter (R386). -/
def Level.control (l : Level) : Nat :=
  (if l.complete then 2 ^ 63 else 0) + (if l.closed then 2 ^ 62 else 0) + (if l.cancelled then 2 ^ 61 else 0)
    + (l.kind % 8) * 2 ^ 16 + (l.queue % 64) * 2 ^ 8

/-- Where a level's counter lies, for queue k, which waits where its page misses (R522); one that cannot be written is an error (R377)
(DEDUCED, log entry 30). -/
def counterAt (s : State) (k : Nat) (l : Level) : IoRes Nat := queueXlate s k l.counter .store 0x06

/-- Where a level's counter lies, whose words are read too: a data error is an error (R377, R522). -/
def counterWords (s : State) (k : Nat) (l : Level) : IoRes Nat :=
  (counterAt s k l).andThen (fun pa => if s.dev.badLines.contains (lineOf pa) then .bad 0x06 else .ok pa)

/-- Update a counter outside a packet of its level: where it cannot be, the queue that parsed the level stops (R377), and what has
been done stays done (DEDUCED, log entry 30). -/
def updCounter (s : State) (l : Level) (place : IoRes Nat) (f : Nat → IoRes State) : IoRes State :=
  match place with
  | .ok pa => f pa
  | .miss p a => .miss p a
  | .bad code => .ok (s.stopQueue l.key code)

/-- Count n children that ended, e of them with error, in a level, and in its ancestors as levels become complete by it
(R386, R388) (DEDUCED, log entry 30). -/
def countUp (s : State) (k id n e : Nat) : Nat → IoRes State
  | 0 => .ok s
  | fuel + 1 =>
    match s.level id with
    | none => .ok s
    | some l =>
      updCounter s l (counterWords s k l) (fun pa =>
        let done := (chanRead s pa 8 + n) % 2 ^ 64
        let err := (chanRead s (pa + 8) 8 + e) % 2 ^ 64
        let s := queueWrite (queueWrite s pa 8 done) (pa + 8) 8 err
        if l.closed && !l.complete && decide (done = chanRead s (pa + 16) 8) then
          let l := { l with complete := true }
          let s := (queueWrite s (pa + 24) 8 l.control).setLevel id l
          match l.parent with
          | some p => countUp s k p 1 (if err ≠ 0 ∨ l.cancelled then 1 else 0) fuel
          | none => .ok s
        else .ok s)

/-- Count in a level and upward, for queue k. -/
def count (s : State) (k id n e : Nat) : IoRes State := countUp s k id n e (s.dev.levels.length + 1)

/-- A level that has been parsed: its counter is written, and its parent has one child more; one beneath a cancelled level
is complete at once and counts as an errored child (R386, R387, R389). -/
def openLevel (s : State) (l : Level) (total : Nat) : IoRes State :=
  let id := s.dev.levels.length
  let parent := l.parent.bind s.level
  let dead := (parent.map (·.cancelled)).getD false
  let l := if dead then { l with cancelled := true, closed := true, complete := true, next := total } else l
  let n := if dead then total else 0
  (counterAt s l.key l).andThen (fun pa =>
    let s := queueWrite (queueWrite (queueWrite (queueWrite s pa 8 n) (pa + 8) 8 n) (pa + 16) 8 total) (pa + 24) 8 l.control
    let s := { s with dev := { s.dev with levels := s.dev.levels ++ [l] } }
    match l.parent, parent with
    | some p, some x =>
      (counterWords s l.key x).andThen (fun pp =>
        let s := queueWrite s (pp + 16) 8 ((chanRead s (pp + 16) 8 + 1) % 2 ^ 64)
        if dead then count s l.key p 1 1 else .ok s)
    | _, _ => .ok (if dead then s else s.setLevel id l))

/-- A level's close marker has been parsed (R385, R386). -/
def closeLevel (s : State) (id : Nat) : IoRes State :=
  match s.level id with
  | none => .ok s
  | some l =>
    let l := { l with isOpen := false, closed := true }
    (counterAt s l.key l).andThen (fun pa => count ((queueWrite s (pa + 24) 8 l.control).setLevel id l) l.key id 0 0)

/-! ### Cancel -/

/-- Whether a level is id or lies beneath it (R387). -/
def beneath (s : State) (id : Nat) : Nat → Nat → Bool
  | 0, _ => false
  | fuel + 1, j =>
    decide (j = id) || (match s.level j with
      | some l => match l.parent with
        | some p => beneath s id fuel p
        | none => false
      | none => false)

/-- The levels at and beneath one: every level that has been parsed (R389). -/
def cancelTargets (s : State) (id : Nat) : List Nat :=
  (List.range s.dev.levels.length).filter (beneath s id (s.dev.levels.length + 1))

/-- CANCELLED is set in a level and its counter (R386, R389); the level is cancelled also where its counter cannot be written. -/
def markCancelled (k : Nat) (r : IoRes State) (j : Nat) : IoRes State :=
  r.andThen (fun s => match s.level j with
    | some l =>
      let l := { l with cancelled := true }
      let s' := s.setLevel j l
      updCounter s' l (counterAt s k l) (fun pa => .ok (queueWrite s' (pa + 24) 8 l.control))
    | none => .ok s)

/-- The workgroups of a launch that have not been dispatched count at once (R389). -/
def dropUndispatched (k : Nat) (r : IoRes State) (j : Nat) : IoRes State :=
  r.andThen (fun s => match s.level j with
    | some l =>
      if l.kind = 0 then
        let n := l.total - l.next + l.again.length
        count (s.setLevel j { l with next := l.total, again := [] }) k j n n
      else .ok s
    | none => .ok s)

/-- The resident workgroups beneath a cancelled level take the cancel trap at their next boundary; one that is switched
out has the cancel recorded (R278, R389, R443). -/
def requestCancel (s : State) (ids : List Nat) : State :=
  { s with wgs := s.wgs.map (fun g =>
      if ids.contains g.2.level && g.2.status != .ended then
        (g.1, { g.2 with cancelled := true, warps := g.2.warps.map (fun w =>
          (w.1, { w.2 with c := { w.2.c with cancelReq := !w.2.c.ended } })) })
      else g) }

/-- The reservations and the waits of gangs that a test names are cleared on every die (R394). -/
def clearReservations (s : State) (p : Nat → Nat → Bool) : State :=
  let gone := fun (x : Reservation) => p x.level x.first
  { s with
    dies := s.dies.map (fun d => (d.1, { d.2 with
      resv := d.2.resv.filter (fun x => !gone x)
      gangWait := d.2.gangWait.filter (fun x => !p x.2.level x.2.first) }))
    clusters := s.clusters.map (fun c => (c.1,
      if (s.die (dieOfCluster c.1)).resv.any (fun x => gone x && x.cluster == c.1) then { c.2 with rsv := false } else c.2)) }

/-- Packets of the ring, and packets it holds (R375, R376). -/
def Queue.ringSize (q : Queue) : Nat := 2 ^ (q.size + 4)
def Queue.held (q : Queue) : Nat := (q.tail + 65536 - q.head) % 65536

/-- Whether a launch of the queue has workgroups that were never dispatched: it occupies the queue (R378). -/
def launchBusy (s : State) (k : Nat) : Bool :=
  s.dev.levels.any (fun l => l.key == k && l.kind == 0 && !l.complete && decide (l.next < l.total))

/-- STATE where the queue neither waits nor stopped: parsing while it has packets or a launch occupies it (R375). -/
def settleQueue (s : State) (k : Nat) : State :=
  let q := s.queue k
  if q.state ≥ 2 then s
  else s.setQueue k { q with state := if q.en && (decide (q.held > 0) || launchBusy s k) then 1 else 0 }

/-- Start the cancel of a level, for queue k, whose packet or warp asks for it (R389, R522). -/
def cancelLevel (s : State) (k id : Nat) : IoRes State :=
  let ids := cancelTargets s id
  let key := ((s.level id).map (·.key)).getD 0
  (ids.foldl (dropUndispatched k) (ids.foldl (markCancelled k) (.ok s))).andThen (fun s =>
    .ok (settleQueue (clearReservations (requestCancel s ids) (fun l _ => ids.contains l)) key))

/-- The level of a kind whose counter lies at an address, the last one parsed (R278). -/
def findLevel (s : State) (slot kind a : Nat) : Option Nat :=
  (List.range s.dev.levels.length).foldl (fun acc j => match s.level j with
    | some l => if l.slot = slot ∧ l.kind = kind ∧ l.counter = a then some j else acc
    | none => acc) none

/-- A cancel by handle: its code, and the state after it (R278, R384). -/
def cancelByHandle (s : State) (k slot kind a : Nat) : IoRes (State × Nat) :=
  match findLevel s slot kind a with
  | none => .ok (s, 3)
  | some id =>
    match s.level id with
    | none => .ok (s, 3)
    | some l =>
      if l.complete then .ok (s, 1)
      else if l.cancelled then .ok (s, 2)
      else (cancelLevel s k id).andThen (fun s => .ok (s, 0))

/-! ### Exit records -/

/-- What an exit record says (R432). -/
structure ExitInfo where
  wgix : Nat
  cause : Nat
  nwarps : Nat
  err : Bool
  cancelled : Bool
  kind : Nat
  warp : Nat
  addr : Nat
  pc : Nat
  fmasks : List Nat
deriving DecidableEq, Repr

/-- The 16 words of an exit record (R432). -/
def ExitInfo.words (x : ExitInfo) : List Nat :=
  let flags := (if x.err then 1 else 0) + (if x.cancelled then 2 else 0)
  [x.wgix, x.cause + 2 ^ 8 * x.nwarps + 2 ^ 16 * flags + 2 ^ 24 * x.kind + 2 ^ 32 * x.warp, x.addr, x.pc]
    ++ (List.range 8).map (fun i => x.fmasks.getD (2 * i) 0 + 2 ^ 32 * x.fmasks.getD (2 * i + 1) 0) ++ [0, 0, 0, 0]

/-- The places of words in the context from an address on; none where one faults. -/
def recordPlaces (s : State) (k va : Nat) : Nat → IoRes (List Nat)
  | 0 => .ok []
  | n + 1 =>
    (queueXlate s k va .store 0).andThen (fun pa =>
      (recordPlaces s k (va + 8) n).andThen (fun ps => .ok (pa :: ps)))

/-- Append an exit record (R432): NEXT is incremented at its channel, and the record is written where a slot is left. A miss
waits; with any other fault no record is written. -/
def appendExit (s : State) (k va : Nat) (x : ExitInfo) : IoRes State :=
  if va % 8 ≠ 0 then .ok s
  else
    match queueRead s k va 0, queueXlate s k (va + 8) .atomic 0 with
    | .miss p a, _ => .miss p a
    | _, .miss p a => .miss p a
    | .ok cap, .ok next =>
      if s.dev.badLines.contains (lineOf next) then .ok s else
      let i := chanRead s next 8
      let s' := queueWrite s next 8 ((i + 1) % 2 ^ 64)
      if i ≥ cap.toNat then .ok s'
      else
        match recordPlaces s k (va + 64 + 128 * i) 16 with
        | .ok ps => .ok ((ps.zip x.words).foldl (fun s p => queueWrite s p.1 8 p.2) s')
        | .miss p a => .miss p a
        | .bad _ => .ok s'
    | .bad _, .ok next =>
      if s.dev.badLines.contains (lineOf next) then .ok s
      else .ok (queueWrite s next 8 ((chanRead s next 8 + 1) % 2 ^ 64))
    | _, .bad _ => .ok s

/-- Whether an exit record is due, and its writing (R422, R432). -/
def exitRecord (s : State) (g : Workgroup) (x : ExitInfo) : IoRes State :=
  if g.exitrec = 0 ∨ (x.err = false ∧ x.fmasks.all (· == 0)) then .ok s
  else appendExit s (queueKey g.slot g.queue) g.exitrec x

end Sys2Proof.Machine
end

