-- ==== Sys2Proof/Machine/Queues.lean ====
section
/-! DEFINITION. Submission queues and their packets (R375-R387), the CANCEL instruction (R278), effective priorities
(R397-R399), and the management cores' writes of queue descriptors. HEAD and TAIL count packets modulo 2^16 (DEDUCED, log
entry 11). -/

namespace Sys2Proof.Machine

/-! ### The ring -/

/-- Whether the processor may take up the packet at HEAD (R375-R378, R494, R522). -/
def canParse (s : State) (k : Nat) : Bool :=
  let q := s.queue k
  (s.slot (k / 64)).v && q.en && q.state != 3 && decide (q.held > 0) && q.conds.isEmpty && q.waitTag.isNone
    && !launchBusy s k

/-- The packet at HEAD, or none where it cannot be read: an address that names no memory of the device, or a data error (R291, R293,
R376, R377). -/
def headPacket (s : State) (k : Nat) : Option (List Reg) :=
  let q := s.queue k
  match spaceCheck s .load (q.ring * 4096 + 64 * (q.head % q.ringSize)) with
  | .ok pa =>
    if spaceOf pa ≠ 0 ∨ s.dev.badLines.contains (lineOf pa) = true then none
    else some ((List.range 8).map (fun i => BitVec.ofNat 64 (chanRead s (pa + 8 * i) 8)))
  | .error _ => none

/-- Whether every bit of a word outside the given fields (low bit, length) is zero. -/
def onlyFields (w : Reg) : List (Nat × Nat) → Bool
  | [] => decide (w = 0)
  | (lo, n) :: r => onlyFields (setField w lo n 0) r

/-- The kinds of packet (R378). -/
def packetKinds : List Nat := [0x01, 0x02, 0x03, 0x04, 0x10, 0x11, 0x12, 0x13, 0x14, 0x15]

/-- The fields of word 0 and of the words after it, by kind; every other bit is reserved (R378-R385). The addresses of a FENCE, a
SIGNAL and a CANCEL's status are judged whole, by their own limits (R381, R383, R384). -/
def packetFields (kind : Nat) : List (List (Nat × Nat)) :=
  match kind with
  | 0x01 => [[(0, 9), (16, 13), (32, 5), (40, 18)], [(0, 48)], [(0, 64)], [(0, 48)], [(0, 48)], [(0, 48)], [(0, 64)]]
  | 0x02 => [[(0, 9), (16, 4)], [(0, 64)]]
  | 0x03 => [[(0, 9), (16, 2)], [(0, 64)], [(0, 64)]]
  | 0x04 => [[(0, 9), (16, 2)], [(0, 48)], [(0, 64)]]
  | _ => [[(0, 9)], [(0, 48)]]

/-- Whether a packet's reserved fields are zero (R377). -/
def packetClean (kind : Nat) (ws : List Reg) : Bool :=
  let fs := packetFields kind
  (List.range 8).all (fun i => onlyFields (ws.getD i 0) (fs.getD i []))

/-- The packet at HEAD has been dealt with; one that has stopped its queue stays there (R377). -/
def nextPacket (s : State) (k : Nat) : State :=
  let q := s.queue k
  if q.state = 3 then s else settleQueue (s.setQueue k { q with head := (q.head + 1) % 65536, state := 0 }) k

/-- Whether every launch and level that a queue parsed is complete (R378). -/
def allComplete (s : State) (k : Nat) : Bool := s.dev.levels.all (fun l => l.key != k || l.complete)

/-- The processor takes up the packet at HEAD if it is of a kind: the bit B holds it, whatever its kind (R378), errors of R377 stop the
queue, and what the packet itself does follows. -/
def takePacket (s : State) (k kind : Nat) (f : State → List Reg → State) : State :=
  if !canParse s k then s
  else
    match headPacket s k with
    | none => s.stopQueue k 0x05
    | some ws =>
      let w0 := ws.getD 0 0
      if w0.getLsbD 8 && !allComplete s k then s.setQueue k { s.queue k with state := 2 }
      else if !packetKinds.contains (fieldOf w0 0 8) then s.stopQueue k 0x01
      else if fieldOf w0 0 8 ≠ kind then s
      else if !packetClean kind ws then s.stopQueue k 0x02
      else f s ws

/-- What a packet's accesses came to; where they are done, the queue goes on to the next packet. -/
def finishPacket (s : State) (k handle : Nat) (r : IoRes State) : State :=
  afterIo s k handle 0 (r.andThen (fun s => .ok (nextPacket s k)))

/-- An 8-byte place that a packet names (R381-R384). -/
def placeOk (a : Nat) : Bool := decide (a % 8 = 0) && decide (a < 2 ^ 48)

/-! ### LAUNCH -/

/-- Fields of a LAUNCH packet (R379). -/
def launchWarps (w0 : Reg) : Nat := fieldOf w0 16 4 + 1
def launchGang (w0 : Reg) : Nat := fieldOf w0 20 3 + 1
def launchGrouped (w0 : Reg) : Bool := w0.getLsbD 23
def launchProducer (w0 : Reg) : Nat := fieldOf w0 24 4
def launchTbp (w0 : Reg) : Bool := w0.getLsbD 28
def launchArgs (w0 : Reg) : Nat := fieldOf w0 32 5
def launchVgr (w0 : Reg) : Nat := fieldOf w0 40 4
def launchScr (w0 : Reg) : Nat := fieldOf w0 44 10
def launchDies (w0 : Reg) : Nat := fieldOf w0 54 4

/-- Whether a LAUNCH packet's fields stand outside their limits (R379, ERR 0x03). -/
def launchBad (s : State) (slot : Nat) (ws : List Reg) : Bool :=
  let w0 := ws.getD 0 0
  let w2 := ws.getD 2 0
  let n := launchWarps w0
  let total := fieldOf w2 0 32 * fieldOf w2 32 16 * fieldOf w2 48 16
  decide (launchScr w0 = 0) || decide (launchScr w0 > 512) || decide (launchVgr w0 = 0) || decide (launchVgr w0 > 14)
    || decide (launchArgs w0 > 16) || (!launchGrouped w0 && decide (launchGang w0 ≠ 1))
    || decide ((launchVgr w0 * 8 + 2) * n > 3072) || decide (launchProducer w0 ≥ n) || decide (total = 0)
    || (launchGrouped w0 && decide (total % launchGang w0 ≠ 0))
    || (decide (launchArgs w0 ≠ 0) && decide ((ws.getD 4 0).toNat % 8 ≠ 0))
    || decide (36 * 1024 + launchScr w0 * 4096 + n * 32768 > (s.slot slot).asize * 4096)

/-- The innermost open level of a queue: graph, then phase, then job (R387). -/
def innermost (s : State) (k : Nat) (kinds : List Nat) : Option Nat :=
  kinds.findSome? (fun kind => (List.range s.dev.levels.length).foldl (fun acc j => match s.level j with
    | some l => if l.key = k ∧ l.kind = kind ∧ l.isOpen then some j else acc
    | none => acc) none)

/-- A launch is parsed (R379, R380, R386): its arguments are read once and its counter written; it is a child of the innermost
open level. -/
def parseLaunch (slot queue : Nat) (s : State) (ws : List Reg) : State :=
  let k := queueKey slot queue
  let w0 := ws.getD 0 0
  let counter := (ws.getD 3 0).toNat
  if launchBad s slot ws then s.stopQueue k 0x03
  else if counter % 32 ≠ 0 then s.stopQueue k 0x06
  else
    finishPacket s k counter
      ((queueWords s k (ws.getD 4 0).toNat 0x05 (launchArgs w0)).andThen (fun args =>
        let l : Level := { kind := 0, asid := (s.slot slot).asid, slot := slot, queue := queue, counter := counter,
                           parent := innermost s k [1, 2, 3], isOpen := false, closed := true, cancelled := false,
                           complete := false, packet := ws, args := args, next := 0, again := [] }
        openLevel s l l.total))

/-- LAUNCH_PACKET (R379). -/
def execLaunchPacket (slot queue : Nat) (s : State) : Host.Outcome State Fault Refusal :=
  .next (takePacket s (queueKey slot queue) 0x01 (parseLaunch slot queue))

/-! ### FENCE -/

/-- The conditions of a list as they were read; none where one breaks its limits (R381). -/
def fenceConds : List Reg → Option (List FenceCond)
  | a :: v :: r =>
    match fenceConds r with
    | some cs => if placeOk a.toNat then some (⟨a.toNat, v.toNat, false, none⟩ :: cs) else none
    | none => none
  | _ => some []

/-- A condition is tested at its counter's channel; once met it stays met. From its first test on, the writes of its line test it
too (R381, R382). -/
def testCond (s : State) (k i : Nat) : State :=
  let q := s.queue k
  match q.conds[i]? with
  | some c =>
    if c.met then s
    else
      match (queueXlate s k c.va .load 0x05).andThen (fun pa =>
          if s.dev.badLines.contains (lineOf pa) then .bad 0x05 else .ok pa) with
      | .ok pa =>
        let c := { c with pa := some pa, met := decide (chanRead s pa 8 ≥ c.v) }
        s.setQueue k { (if c.met then q.settled 0 else q) with conds := q.conds.set i c }
      | .miss p a => queueMiss s k p a 0 0
      | .bad _ => (s.stopQueue k 0x05).setQueue k { ((s.stopQueue k 0x05).queue k).settled 0 with conds := [] }
  | none => s

/-- With every condition met the FENCE ends: it acquires for what the queue parses later, so the lines of the context go from
every tile (R286, R381) (DEDUCED, log entry 31). -/
def endFence (s : State) (k : Nat) : State :=
  let q := s.queue k
  if q.conds.isEmpty || !q.conds.all (·.met) then s
  else
    let asid := (s.slot (k / 64)).asid
    let s := s.setQueue k { q with conds := [] }
    let s := (s.tiles.map (·.1)).foldl (fun s t => invalidateWhere s t (fun l => l.asid == asid)) s
    nextPacket s k

/-- A FENCE packet holds its queue until its conditions are met (R381). -/
def parseFence (k : Nat) (s : State) (ws : List Reg) : State :=
  let n := fieldOf (ws.getD 0 0) 16 4
  let list := (ws.getD 1 0).toNat
  if n = 0 ∨ n > 12 ∨ list % 16 ≠ 0 ∨ list ≥ 2 ^ 48 then s.stopQueue k 0x03
  else
    match queueWords s k list 0x05 (2 * n) with
    | .ok xs =>
      match fenceConds xs with
      | some cs =>
        let s := s.setQueue k { (s.queue k).settled 0 with conds := cs, state := 2 }
        endFence ((List.range n).foldl (fun s i => testCond s k i) s) k
      | none => s.stopQueue k 0x03
    | .miss p a => queueMiss s k p a 0 0
    | .bad code => afterIo s k 0 0 (.bad code)

/-- FENCE_PACKET (R381) (DEDUCED, log entry 31). -/
def execFencePacket (slot queue : Nat) (s : State) : Host.Outcome State Fault Refusal :=
  .next (takePacket s (queueKey slot queue) 0x02 (parseFence (queueKey slot queue)))

/-- A condition of a queue that waits is tested; with all met the FENCE ends. -/
def testFence (s : State) (k cond : Nat) : State :=
  if (s.queue k).waitTag.isSome || (s.queue k).state != 2 || !(s.queue k).en then s else endFence (testCond s k cond) k

/-- FENCE_CONDITION_TEST (R382); a queue with EN = 0 keeps HEAD (R376). -/
def execFenceConditionTest (slot queue cond : Nat) (s : State) : Host.Outcome State Fault Refusal :=
  .next (testFence s (queueKey slot queue) cond)

/-- The conditions that the queues wait on are tested again. -/
def testWaiting (s : State) : State :=
  s.dev.queues.foldl (fun s q => (List.range q.2.conds.length).foldl (fun s i => testFence s q.1 i) s) s

/-! ### SIGNAL and CANCEL -/

/-- A SIGNAL packet writes or adds at the channel's atomic unit. What ended workgroups wrote has been performed (R383,
R388). -/
def parseSignal (k : Nat) (s : State) (ws : List Reg) : State :=
  let op := fieldOf (ws.getD 0 0) 16 2
  let a := (ws.getD 1 0).toNat
  let v := (ws.getD 2 0).toNat
  if op ≥ 2 ∨ placeOk a = false then s.stopQueue k 0x03
  else
    finishPacket s k 0
      ((queueXlate s k a (if op = 0 then .store else .atomic) 0x05).andThen (fun pa =>
        if op = 1 ∧ s.dev.badLines.contains (lineOf pa) = true then .bad 0x05
        else .ok (queueWrite s pa 8 (if op = 0 then v else (chanRead s pa 8 + v) % 2 ^ 64))))

/-- SIGNAL_PACKET (R383). -/
def execSignalPacket (slot queue : Nat) (s : State) : Host.Outcome State Fault Refusal :=
  .next (takePacket s (queueKey slot queue) 0x03 (parseSignal (queueKey slot queue)))

/-- A CANCEL packet: the cancel takes effect, then its status is written (R384). A status page that misses is waited for
before the cancel. Where a counter cannot be written and this queue parsed its level, the queue stops with ERR 0x06 and HEAD at the
packet, whose cancel has taken effect and whose status is not written (R377) (DESIGN CHOICE, log entry 30). -/
def parseCancel (slot queue : Nat) (s : State) (ws : List Reg) : State :=
  let k := queueKey slot queue
  let level := fieldOf (ws.getD 0 0) 16 2
  let h := (ws.getD 1 0).toNat
  let st := (ws.getD 2 0).toNat
  if st ≠ 0 ∧ placeOk st = false then s.stopQueue k 0x03
  else
    match cancelByHandle s k slot level h with
    | .ok (s', code) =>
      if st = 0 ∨ (s'.queue k).state = 3 then finishPacket s k h (.ok s')
      else
        match queueXlate s k st .store 0x05 with
        | .ok pa => finishPacket s k h (.ok (queueWrite s' pa 8 code))
        | .miss p a => queueMiss s k p a h 0
        | .bad e => afterIo s' k h 0 (.bad e)
    | .miss p a => queueMiss s k p a h 0
    | .bad e => afterIo s k h 0 (.bad e)

/-- CANCEL_PACKET (R384). -/
def execCancelPacket (slot queue : Nat) (s : State) : Host.Outcome State Fault Refusal :=
  .next (takePacket s (queueKey slot queue) 0x04 (parseCancel slot queue))

/-- CANCEL (R278): sd has the code, and a warp beneath the level takes its own cancel trap next. Where the processor waits
for a page of a counter, CANCEL has not issued; a counter that cannot be written stops its queue and nothing else (R377). -/
def execCancel (d a : BitVec 6) (l : BitVec 2) (s : State) : Host.Outcome State Fault Refusal :=
  runNamed s (.cancel d a l) (fun w => w.active) (fun s r g w =>
    let k := queueKey g.slot g.queue
    let h := (w.sget a.toNat).toNat
    let done := fun (s : State) (code : Nat) => retire s r g w (w.sset d.toNat (BitVec.ofNat 64 code)) false
    match cancelByHandle s k g.slot l.toNat h with
    | .ok (_, 0) =>
      (match findLevel s g.slot l.toNat h with
        | some id => afterIo s k h (r.wg + 1) (cancelLevel (done s 0) k id)
        | none => done s 3)
    | .ok (_, code) => done s code
    | .miss p c => queueMiss s k p c h (r.wg + 1)
    | .bad e => done (afterIo s k h (r.wg + 1) (.bad e)) 0)

/-! ### Level markers -/

/-- Kinds of level from the outermost in: a marker may open only inside kinds after its own (R387). -/
def innerKinds (kind : Nat) : List Nat := span 1 (kind - 1)

/-- An open marker (R385-R387). -/
def parseOpen (slot queue kind : Nat) (s : State) (ws : List Reg) : State :=
  let k := queueKey slot queue
  let counter := (ws.getD 1 0).toNat
  if (innermost s k (kind :: innerKinds kind)).isSome then s.stopQueue k 0x04
  else if counter % 32 ≠ 0 then s.stopQueue k 0x06
  else
    finishPacket s k counter
      (openLevel s { kind := kind, asid := (s.slot slot).asid, slot := slot, queue := queue, counter := counter,
                     parent := innermost s k (span (kind + 1) (3 - kind)), isOpen := true, closed := false,
                     cancelled := false, complete := false, packet := ws, args := [], next := 0, again := [] } 0)

/-- A close marker names the counter of the innermost open level of its kind, with no inner level open (R385, R387). -/
def parseClose (slot queue kind : Nat) (s : State) (ws : List Reg) : State :=
  let k := queueKey slot queue
  match innermost s k [kind] with
  | some id =>
    if (innermost s k (innerKinds kind)).isSome || ((s.level id).map (·.counter)) != some (ws.getD 1 0).toNat then
      s.stopQueue k 0x04
    else finishPacket s k (ws.getD 1 0).toNat (closeLevel s id)
  | none => s.stopQueue k 0x04

/-- GRAPH_OPEN (R387). -/
def execGraphOpen (slot queue : Nat) (s : State) : Host.Outcome State Fault Refusal :=
  .next (takePacket s (queueKey slot queue) 0x10 (parseOpen slot queue 1))

/-- GRAPH_CLOSE (R385). -/
def execGraphClose (slot queue : Nat) (s : State) : Host.Outcome State Fault Refusal :=
  .next (takePacket s (queueKey slot queue) 0x11 (parseClose slot queue 1))

/-- PHASE_OPEN (R387). -/
def execPhaseOpen (slot queue : Nat) (s : State) : Host.Outcome State Fault Refusal :=
  .next (takePacket s (queueKey slot queue) 0x12 (parseOpen slot queue 2))

/-- PHASE_CLOSE (R385). -/
def execPhaseClose (slot queue : Nat) (s : State) : Host.Outcome State Fault Refusal :=
  .next (takePacket s (queueKey slot queue) 0x13 (parseClose slot queue 2))

/-- JOB_OPEN (R387). -/
def execJobOpen (slot queue : Nat) (s : State) : Host.Outcome State Fault Refusal :=
  .next (takePacket s (queueKey slot queue) 0x14 (parseOpen slot queue 3))

/-- JOB_CLOSE (R385). -/
def execJobClose (slot queue : Nat) (s : State) : Host.Outcome State Fault Refusal :=
  .next (takePacket s (queueKey slot queue) 0x15 (parseClose slot queue 3))

/-! ### Doorbells and descriptors -/

/-- A doorbell write: TAIL, or a stop where the ring would hold too many packets (R376, R497). -/
def ringDoorbell (s : State) (k tail : Nat) : State :=
  let q := s.queue k
  if (tail + 65536 - q.head) % 65536 > q.ringSize - 1 then s.stopQueue k 0x07
  else settleQueue (s.setQueue k { q with tail := tail }) k

/-- DOORBELL (R376, R497). -/
def execDoorbell (slot queue : Nat) (v : BitVec 64) (s : State) : Host.Outcome State Fault Refusal :=
  .next (ringDoorbell s (queueKey slot queue) (fieldOf v 0 16))

/-- The shares of all enabled queues once one queue stands as given (R403). -/
def shareSum (s : State) (k : Nat) (q : Queue) (f : Queue → Nat) : Nat :=
  (Table.set s.dev.queues k q).foldl (fun a x => a + if x.2.en then f x.2 else 0) 0

/-- The owner queues of the counters at an address: the levels that are not complete, and the valid descriptors of the
counter table (R397). -/
def ownersOf (s : State) (slot va : Nat) : List Nat :=
  let c := s.slot slot
  let levels := (s.dev.levels.filter (fun l =>
    l.slot == slot && !l.complete && decide (l.counter ≤ va) && decide (va < l.counter + 32))).map (·.queue)
  let table := (List.range (c.ccnt + 1)).filterMap (fun i =>
    let lo := chanRead s (c.ctab * 4096 + 16 * i) 8
    let hi := chanRead s (c.ctab * 4096 + 16 * i + 8) 8
    if hi / 2 % 2 = 1 ∧ lo % 2 ^ 48 / 8 = va / 8 then some (hi / 4 % 64) else none)
  levels ++ table

/-- The waits of a context: the waiting queue and the counter's address (R399). -/
def contextWaits (s : State) (slot : Nat) : List (Nat × Nat) :=
  let fences := (List.range 64).flatMap (fun j =>
    ((s.queue (queueKey slot j)).conds.filter (fun c => !c.met)).map (fun c => (j, c.va)))
  let warps := (s.wgs.filter (fun g => g.2.slot == slot && g.2.status == .resident && !g.2.discard)).flatMap
    (fun g => g.2.warps.filterMap (fun w => match w.2.c.wait with
      | .counter va _ => some (g.2.queue, va)
      | _ => none))
  fences ++ warps

/-- One round of raising: each owner takes the priority of the queue that waits on it (R399). -/
def raiseOnce (edges : List (Nat × Nat)) (e : List Nat) : List Nat :=
  edges.foldl (fun e x => if e.getD x.2 0 < e.getD x.1 0 then e.set x.2 (e.getD x.1 0) else e) e

/-- Rounds until no chain of 64 queues is left. -/
def raiseAll (edges : List (Nat × Nat)) (e : List Nat) : Nat → List Nat
  | 0 => e
  | n + 1 => raiseAll edges (raiseOnce edges e) n

/-- The effective priorities of a context's queues (R398, R399) (DEDUCED, log entry 34). -/
def effective (s : State) (slot : Nat) : List Nat :=
  let edges := (contextWaits s slot).flatMap (fun x => (ownersOf s slot x.2).map (fun o => (x.1, o)))
  raiseAll edges ((List.range 64).map (fun j => (s.queue (queueKey slot j)).prio)) 64

/-- The effective priorities take force, in the queues and in the PRIO of their resident warps (R398)
(DEDUCED, log entry 34). -/
def updateEprio (s : State) (slot : Nat) : State :=
  let e := effective s slot
  let s := { s with dev := { s.dev with queues := s.dev.queues.map (fun (q : Nat × Queue) =>
    (q.1, if q.1 / 64 = slot then { q.2 with eprio := e.getD (q.1 % 64) 0 } else q.2)) } }
  { s with wgs := s.wgs.map (fun (g : Nat × Workgroup) =>
      if g.2.slot = slot then
        let p := (s.queue (queueKey slot g.2.queue)).eprio
        (g.1, { g.2 with warps := g.2.warps.map (fun w => (w.1, { w.2 with sp := { w.2.sp with prio := p } })) })
      else g) }

/-- EPRIO_UPDATE (R399). -/
def execEprioUpdate (slot : Nat) (s : State) : Host.Outcome State Fault Refusal := .next (updateEprio s slot)

/-- A write of word 0 of a descriptor: RING, TAIL as a doorbell does, and HEAD is read-only (R375, R497). While the slot is not bound,
HEAD is written back too, as the device OS kept it (R494; DEDUCED, log entry 46). -/
def writeRing (s : State) (k : Nat) (v : Reg) : State :=
  let q := s.queue k
  let ring := q.ring / 2 ^ 32 * 2 ^ 32 + fieldOf v 32 32
  let head := if (s.slot (k / 64)).v then q.head else fieldOf v 0 16
  ringDoorbell (s.setQueue k { q with ring := ring, head := head }) k (fieldOf v 16 16)

/-- A write of word 1: owner, shares, priority, flags, size, the rest of RING; STATE 0 after an error restarts parsing
(R375, R377, R403). Shares that would pass 224 leave the old values; what a reserved SIZE stores is not stated, and is a
free value (DESIGN CHOICE, log entry 2). -/
def writeQueue (s : State) (k : Nat) (v : Reg) : State :=
  let q := s.queue k
  let restart := decide (q.state = 3) && decide (fieldOf v 22 2 = 0)
  let reserved := decide (fieldOf v 12 4 > 12)
  let size := if reserved then s.draw.1.toNat % 13 else fieldOf v 12 4
  let q' := { q with
    asid := fieldOf v 48 16
    chsh := fieldOf v 40 8
    ptsh := fieldOf v 32 8
    prio := fieldOf v 29 3
    idem := v.getLsbD 25
    en := v.getLsbD 24
    size := size
    ring := q.ring % 2 ^ 32 + fieldOf v 0 8 * 2 ^ 32
    state := if restart then 0 else q.state
    err := if restart then 0 else q.err
    conds := if restart then [] else q.conds
    nones := if restart then (q.settled 0).nones else q.nones }
  let s' := if reserved then s.draw.2 else s
  if shareSum s k q' (·.chsh) > 224 ∨ shareSum s k q' (·.ptsh) > 224 then s
  else settleQueue (updateEprio (s'.setQueue k q') (k / 64)) k

/-- QUEUE_DESCRIPTOR_WRITE (R375). -/
def execQueueDescriptorWrite (slot queue word : Nat) (v : BitVec 64) (s : State) : Host.Outcome State Fault Refusal :=
  let k := queueKey slot queue
  .next (if word % 2 = 0 then writeRing s k v else writeQueue s k v)

end Sys2Proof.Machine
end

