-- ==== Sys2Proof/Machine/Fetch.lean ====
section
/-! DEFINITION. From the order of the agents to the instruction or event that runs next: instruction fetch through the loop
buffer (R173), readiness and issue selection (R404), and what each entry of
the turn list does (DESIGN CHOICE, log entry 1). -/

namespace Sys2Proof.Machine

/-- The address that the warp fetches next: its header, or a word of its clause (R58, R59). -/
def Warp.nextAddr (w : Warp) : Nat := if w.c.pos.mode = .body then w.c.pos.word else w.c.pos.hdr

/-- Whether an address lies in the body that runs from the loop buffer (R173). -/
def Warp.inBody (w : Warp) (va : Nat) : Bool :=
  match w.frame with
  | some f => f.holds va
  | none => false

/-- Fetch the warp's next word: a body that runs is fetched once into the loop buffer and read from there (R173, R176). -/
def nextWord (s : State) (r : WRef) (g : Workgroup) (w : Warp) : Fetched :=
  let va := w.nextAddr
  if w.inBody va then
    match Table.find w.c.lbuf va with
    | some x => .word x s
    | none =>
      match fetchWord s g w va with
      | .word x s => .word x (s.updWarp r (fun w => { w with c := { w.c with lbuf := Table.set w.c.lbuf va x } }))
      | f => f
  else fetchWord s g w va

/-- Whether an instruction is a header, which takes no issue slot (R53, R61). -/
def isHeader : Instr → Bool
  | .clause _ _ _ _ => true
  | .pool _ => true
  | _ => false

/-- Whether the flags that a header names are clear (R53). -/
def waitClear (w : Warp) (wait : BitVec 12) : Bool :=
  (List.range 12).all (fun k => !wait.getLsbD k || decide (w.flag k = 0))

/-- The instruction that a fetched word stands for where the warp stands: at a header's place any other word is
illegal (R52, R58, R68). -/
def instrOf (mode : PosMode) (x : Word) : Instr :=
  match decode x with
  | some i => if isHeader i || mode == .body then i else .illegalInstruction x
  | none => .illegalInstruction x

/-- What a warp would do next: the instruction or step, the pipe set it issues to (none for what takes no issue slot;
true for the lane set), and the state after the fetch. Code is fetched from multiples of 4 (R47): an address that is none, or a
saved position with INDEX 0xFF, holds no header to stand at, and the warp traps there (R58, R428; DEDUCED, log entry 45). -/
def nextInstr (s : State) (r : WRef) (g : Workgroup) (w : Warp) : Instr × Option Bool × State :=
  if w.c.pos.mode = .fell then (.loopFallThrough r, none, s)
  else if w.c.pos.mode = .trap ∨ w.nextAddr % 4 ≠ 0 then (.illegalInstruction 0, none, s)
  else
    match nextWord s r g w with
    | .word x s' =>
      let i := instrOf w.c.pos.mode x
      (i, if isHeader i then none else some (!x.getLsbD 31), s')
    | _ => (.instructionFetchFault w.nextAddr, none, s)

/-- Whether a warp can issue at all: resident, not ended, not stopped (R421, R442, R275). -/
def canRun (g : Workgroup) (w : Warp) : Bool := g.live && !w.c.ended && !w.c.sigdone

/-- Whether a header holds the warp at its WAIT (R53). -/
def heldAtHeader (w : Warp) (i : Instr) : Bool :=
  match i with
  | .clause wait _ _ _ => w.c.pos.mode != .body && !waitClear w wait
  | _ => false

/-- The next instruction of a warp that is ready (R404): a pending event, or the word at its position if no wait and no
interlock holds it. Interlocks see the s-registers as their fill will have them (R44). In the quiesce of a swap only a fault that is
known is taken (R414). -/
def readyInstr (s : State) (r : WRef) (g : Workgroup) (w : Warp) : Option (Instr × Option Bool × State) :=
  if !canRun g w || decide ((s.pair (pairOf (clusterOf g.tile))).gstate ≥ 2) then none
  else if s.swapping g.tile then
    if s.quiescing g.tile && w.faultDue then some (.handlerEntry r, none, s) else none
  else if w.takes then some (.handlerEntry r, none, s)
  else if w.c.wait != .none || w.matParked then none
  else
    let n := nextInstr { s with cur := some r } r g w
    if heldAtHeader w n.1 || stalls s r g (fillS s g r.wp w).1 n.1 then none else some n

/-- Whether what a warp would do fits a pipe: A and B take the lane set, U the uniform set; what takes no slot fits any
(R46, R49). -/
def fitsPipe (pipe : Nat) (set : Option Bool) : Bool :=
  match set with
  | none => true
  | some lane => lane == decide (pipe < 2)

/-- A warp that could issue: its handle, order of choice, what it would do, and whether that takes an issue slot. -/
structure Candidate where
  r : WRef
  prio : Nat
  last : Nat
  i : Instr
  s : State
  slot : Bool
deriving DecidableEq, Repr

/-- The warps of a tile with their workgroups. -/
def tileWarps (s : State) (t : Nat) : List (WRef × Workgroup × Warp) :=
  (s.wgs.filter (fun g => g.2.tile == t && g.2.onTile)).flatMap
    (fun g => g.2.warps.map (fun w => (⟨g.1, w.1⟩, g.2, w.2)))

/-- The candidates of a tile for a set of pipes. -/
def candidates (s : State) (t : Nat) (fits : Option Bool → Bool) : List Candidate :=
  (tileWarps s t).filterMap (fun x =>
    match readyInstr s x.1 x.2.1 x.2.2 with
    | some (i, set, s') => if fits set then some ⟨x.1, warpPrio x.2.1 x.1.wp x.2.2, x.2.2.lastIssue, i, s', set.isSome⟩ else none
    | none => none)

/-- The order of choice: highest PRIO, then least recently issued (R404). -/
def Candidate.before (a b : Candidate) : Bool :=
  decide (a.prio > b.prio) || (decide (a.prio = b.prio) && decide (a.last < b.last))

/-- The candidate chosen (R404). -/
def choose : List Candidate → Option Candidate
  | [] => none
  | c :: r =>
    match choose r with
    | some d => if d.before c then some d else some c
    | none => some c

/-- What the machine does in one step: run an instruction or event from a state, or nothing more than the state says. -/
inductive Plan where
  | run (i : Instr) (s : State)
  | done (s : State)
deriving DecidableEq, Repr

/-- A candidate issues: its warp becomes the issuing one. -/
def Candidate.plan (c : Candidate) : Plan := .run c.i { c.s with cur := some c.r }

/-- Whether a pipe or a warp has had its instruction of the tile's present cycle (R49, R404). -/
def Tile.hasIssued (x : Tile) (pipe : Nat) (r : WRef) : Bool := x.issued.any (fun e => e.1 == min pipe 2 || e.2 == r)

/-- What a pipe of a tile selects: a pipe takes at most one instruction in a cycle, and a warp issues at most one; what takes no issue slot
is free of that (R49, R404). -/
def pick (s : State) (t pipe : Nat) : Option Candidate :=
  (choose ((candidates s t (fitsPipe pipe)).filter (fun c => !c.slot || !(s.tile t).hasIssued pipe c.r))).map (fun c =>
    if c.slot then
      { c with s := c.s.setTile t { c.s.tile t with issued := (c.s.tile t).issued ++ [(min pipe 2, c.r)] } }
    else c)

/-- One selection of a pipe of a tile (R404); with no ready warp nothing issues. -/
def selectPlan (s : State) (t pipe : Nat) : Plan :=
  match pick s t pipe with
  | some c => c.plan
  | none => .done s

/-- Whether an instruction is an event that the turn list may hold: it needs no issuing warp. -/
def isEvent (i : Instr) : Bool :=
  match i with
  | .illegalInstruction _ => false
  | .instructionFetchFault _ => false
  | i => (encode i).isNone

/-- A cluster counts its level and the occupancies of its FIFOs for n ticks (R506). -/
def countClock (s : State) (c n : Nat) : State :=
  let looks := fun (src : Nat) => (s.cluster c).mons.any (fun m => m.2.src == src)
  let s := lookFifos s c (looks 6) (looks 7)
  let k := (s.cluster c).clk
  ((s.countEvent c 5 k.level n).countEvent c 6 k.inocc n).countEvent c 7 k.outocc n

/-- The samples of STALLR at a die's tick, n ticks after the tick before (R274, R489): at a multiple of 1,000 the sample that runs ends,
and its RATIO is written within the 2 ticks after. -/
def tickSample (s : State) (c tick n : Nat) : State :=
  let windows := tick / 1000 - (tick - n) / 1000
  let s := if windows = 0 then s
    else
      let k := (writeRatio s c).cluster c
      (writeRatio s c).setCluster c
        { k with sample := some (if windows = 1 then (k.stalled, k.held) else (0, 0)), stalled := 0, held := 0 }
  if tick % 1000 > 2 then writeRatio s c else s

/-- Ticks of a die end one after the other, and what ends each happens in its convoys (R363, R364, R373); where no member is held,
nothing does. -/
def convoyTicks (s : State) (d : Nat) : Nat → State
  | 0 => s
  | n + 1 =>
    let tick := (s.die d).tick
    if (s.die d).slots.any (fun c => c.2.members.any (·.held)) then
      let t := endConvoyTick s d
      convoyTicks (t.setDie d { t.die d with tick := tick + 1 }) d n
    else s.setDie d { s.die d with tick := tick + n + 1 }

/-- A sleep that is over a tick after its count at the latest (R279). -/
def wakeSleepers (s : State) (d : Nat) : State :=
  { s with wgs := s.wgs.map (fun (g : Nat × Workgroup) =>
    if g.2.onTile && dieOf g.2.tile == d then
      (g.1, { g.2 with warps := g.2.warps.map (fun (w : Nat × Warp) => match w.2.c.wait with
        | .sleep t => if t < (s.die d).tick then (w.1, { w.2 with c := { w.2.c with wait := .none } }) else w
        | _ => w) })
    else g) }

/-- Ref ticks pass on a die, or on the I/O die (R4): what ends each of them happens in the convoys (R373), arrivals whose pairing waited for the tick are paired (R150, R373), the die's clusters
count what monitors and samples count (R506, R489), sleeps end (R279), and once in 1,000 ticks counters that are waited on are tested (R344, R382)
(DESIGN CHOICE, log entry 27). -/
def passTicks (s : State) (d n : Nat) : State :=
  if d ≥ 4 then
    let t := { s with dev := { s.dev with tick := s.dev.tick + n } }
    if t.dev.tick / 1000 = s.dev.tick / 1000 then t else testWaiting t
  else if n = 0 then s
  else
    let now := (s.die d).tick + n
    let s := tickPairs (wakeSleepers (retrySwaps (convoyTicks s d n) d) d) d n
    let s := (span (16 * d) 16).foldl (fun s c => tickSample (countClock s c n) c (s.die d).tick n) s
    if now / 1000 = (now - n) / 1000 then s else testCounters s (fun t => dieOf t == d) false

/-- Cycles of a tile with a resident warp, outside a swap, count for its cluster's sample, and among them those in which no warp is
ready (R270, R489). A warp that has ended is resident no more, though its workgroup has not ended yet (DESIGN CHOICE, log entry 27). -/
def countStalls (s : State) (t n : Nat) : State :=
  let c := clusterOf t
  if (tileWarps s t).all (fun x => x.2.2.c.ended) || s.swapping t then s
  else
    let k := s.cluster c
    let none_ := (candidates s t (fun _ => true)).isEmpty
    s.setCluster c { k with held := k.held + n, stalled := if none_ then k.stalled + n else k.stalled }

/-- Cycles of a tile's clock pass; the clock stands still while the pair is gated (R274, R490)
(DESIGN CHOICE, log entry 27). -/
def passCycles (s : State) (t n : Nat) : State :=
  if (s.pair (pairOf (clusterOf t))).gstate < 3 then
    let x := s.tile t
    countStalls (s.setTile t { x with cycle := x.cycle + BitVec.ofNat 64 n, issued := if n = 0 then x.issued else [] }) t n
  else s

/-- What an entry of the turn list does; those that make accesses late or early are read elsewhere. -/
def turnPlan (s : State) : Turn → Plan
  | .select t p => selectPlan s t p
  | .event e => if isEvent e then .run e { s with cur := none } else .done s
  | .ticks d n => .done (passTicks s d n)
  | .cycles t n => .done (passCycles s t n)
  | _ => .done s

/-- The next tile after t that holds a resident workgroup, in ascending order and round again. -/
def nextTile (s : State) (t : Nat) : Nat :=
  let ts := (s.wgs.filter (fun g => g.2.onTile)).map (fun g => g.2.tile)
  let later := ts.filter (fun u => decide (u > t))
  match later with
  | u :: r => r.foldl min u
  | [] => match ts with
    | u :: r => r.foldl min u
    | [] => t

end Sys2Proof.Machine
end

