-- ==== Sys2Proof/Machine/Control.lean ====
section
/-! DEFINITION. Headers, transfers of control, the divergence stack, loops and literals (R51-R61, R163-R177). -/

namespace Sys2Proof.Machine

/-- The target of a branch: the word's address plus 4 times a signed offset (R58). -/
def branchTarget (w : Warp) (o : Int) : Nat := wrapTo 64 ((w.pcOf : Int) + 4 * o)

/-- A transfer of control stands last in its clause, or it traps before any other effect, the fills of its registers among them (R57). -/
def transferring (s : State) (i : Instr) (f : Warp → WRes) : Host.Outcome State Fault Refusal :=
  lastOnly s (runUniform s i f)

/-- BRA (R163). -/
def execBra (o : BitVec 24) (s : State) : Host.Outcome State Fault Refusal :=
  transferring s (.bra o) (fun w => .moved (w.transfer (branchTarget w o.toInt)))

/-- A branch that is taken on a condition (R163). -/
def branchIf (w : Warp) (c : Bool) (o : Int) : WRes := if c then .moved (w.transfer (branchTarget w o)) else .ok w

/-- BRAS.NZ (R163). -/
def execBrasNz (d : BitVec 6) (o : BitVec 17) (s : State) : Host.Outcome State Fault Refusal :=
  transferring s (.brasNz d o) (fun w => branchIf w (w.sget d.toNat != 0) o.toInt)

/-- BRAS.Z (R163). -/
def execBrasZ (d : BitVec 6) (o : BitVec 17) (s : State) : Host.Outcome State Fault Refusal :=
  transferring s (.brasZ d o) (fun w => branchIf w (w.sget d.toNat == 0) o.toInt)

/-- CALL: the link register gets the address of the next word (R163). -/
def execCall (d : BitVec 6) (o : BitVec 18) (s : State) : Host.Outcome State Fault Refusal :=
  transferring s (.call d o) (fun w =>
    .moved ((w.sset d.toNat (BitVec.ofNat 64 (w.pcOf + 4))).transfer (branchTarget w o.toInt)))

/-- RET: a value that is no word address takes the trap (R163, R164). -/
def execRet (a : BitVec 6) (s : State) : Host.Outcome State Fault Refusal :=
  transferring s (.ret a) (fun w =>
    let v := (w.sget a.toNat).toNat
    if v % 4 ≠ 0 ∨ v ≥ 2 ^ 48 then .trap 0x01 w else .moved (w.transfer v))

/-- NOP (R165). -/
def execNop (s : State) : Host.Outcome State Fault Refusal := runUniform s .nop (fun w => .ok w)

/-- MARK: push a rejoin entry (R167); a full stack takes the divergence-overflow trap. -/
def execMark (o : BitVec 24) (s : State) : Host.Outcome State Fault Refusal :=
  runUniform s (.mark o) (fun w =>
    if w.c.stack.length ≥ 32 then .trap 0x0B w
    else .ok { w with c := { w.c with stack := ⟨false, branchTarget w o.toInt, w.active⟩ :: w.c.stack } })

/-- Whether the top of a stack is a path entry. -/
def topIsPath : List StackEntry → Bool
  | e :: _ => e.path
  | [] => false

/-- BR in a warp (R168). -/
def brWarp (p : BitVec 3) (sense : BitVec 1) (o : BitVec 20) (w : Warp) : WRes :=
  let act := w.active
  let pv := w.pget p.toNat
  let t := if sense = 0 then act &&& pv else act &&& ~~~pv
  let f := act &&& ~~~t
  let target := branchTarget w o.toInt
  if t = 0 then .ok w
  else if f = 0 then .moved (w.transfer target)
  else
    let st := w.c.stack
    let need := if topIsPath st then 1 else 2
    if st.length + need > 32 then .trap 0x0B w
    else
      let st := if topIsPath st then st.tail else st
      let w := { w with c := { w.c with stack := ⟨true, target, t⟩ :: ⟨true, w.pcOf + 4, f⟩ :: st } }
      .moved (w.transfer target)

/-- BR (R168). -/
def execBr (p : BitVec 3) (sense : BitVec 1) (o : BitVec 20) (s : State) : Host.Outcome State Fault Refusal :=
  transferring s (.br p sense o) (brWarp p sense o)

/-- JOIN in a warp, with its clause header as meeting address (R169; DEDUCED, log entry 8). -/
def joinWarp (w : Warp) : WRes :=
  match w.c.stack with
  | [] => .ok w
  | e :: r =>
    let st := popDead (fun e => decide (w.liveIn e ≠ 0)) (if e.path then r else e :: r)
    match st with
    | [] => .ok { w with c := { w.c with stack := [] } }
    | t :: rest =>
      if t.path then .moved (({ w with c := { w.c with stack := st } }).transfer t.addr)
      else if t.addr ≠ w.c.pos.hdr then .trap 0x0C w
      else .ok { w with c := { w.c with stack := rest } }

/-- JOIN (R169). -/
def execJoin (s : State) : Host.Outcome State Fault Refusal := runUniform s .join joinWarp

/-- Put a warp at the end of a loop body that is skipped: where that is the end of the body that then is innermost, the
warp has fallen through it as well (R174). -/
def Warp.toEnd (w : Warp) (a : Nat) : Warp := if w.atBodyEnd a then w.goto ⟨a, 0, .fell, .none⟩ else w.goto (Pos.atTarget a)

/-- Whether the body that follows a LOOP word lies within the innermost running body (R174). -/
def bodyNested (w : Warp) (start len : Nat) : Bool :=
  match w.frame with
  | none => true
  | some f => decide (f.start ≤ start) && decide (start + 4 * len ≤ f.end_)

/-- LOOP in a warp (R173, R174). -/
def loopWarp (a : BitVec 6) (n : BitVec 2) (l : BitVec 9) (w : Warp) : WRes :=
  let start := w.pcOf + 4
  let k := n.toNat
  if k ≠ w.c.depth ∨ bodyNested w start l.toNat = false then .trap 0x01 w
  else
    let c := fieldOf (w.sget a.toNat) 0 32
    let w := { w with c := { w.c with lc := Table.set w.c.lc k c } }
    if c = 0 then .moved (w.toEnd (start + 4 * l.toNat))
    else
      let lbuf := if k = 0 then [] else w.c.lbuf
      let frames := Table.set w.c.frames k ⟨start, l.toNat⟩
      let w := { w with c := { w.c with frames := frames, depth := k + 1, lbuf := lbuf } }
      .moved (w.goto (Pos.atTarget start))

/-- LOOP (R173, R174). -/
def execLoop (d : BitVec 6) (n : BitVec 2) (l : BitVec 9) (s : State) : Host.Outcome State Fault Refusal :=
  transferring s (.loop d n l) (loopWarp d n l)

/-- Falling through the end of a body, which takes no issue slot (R174). -/
def execLoopFallThrough (r : WRef) (s : State) : Host.Outcome State Fault Refusal :=
  .next (s.updWarp r (fun w => w.settle))

/-- EXIT: the active lanes leave, and R170 applies (R171). -/
def execExit (s : State) : Host.Outcome State Fault Refusal :=
  transferring s .exit (fun w =>
    let w := { w with c := { w.c with exited := w.c.exited ||| w.active } }
    .moved w.advance.onEmpty)

/-- The record of a fetch that failed (R164, R425). -/
def fetchRecord (w : Warp) (addr pc fkind : Nat) : FaultRec :=
  ⟨32, BitVec.ofNat 64 addr, pc, w.c.pos.hdr, 7, w.c.pos.idx, 3 * 32, fkind⟩

/-- An LDL reads n words of 4 bytes from an address on, low word first (R177). -/
def literalWords (s : State) (g : Workgroup) (w : Warp) (va : Nat) : Nat → Fetched × Nat
  | 0 => (.word 0 s, 0)
  | n + 1 =>
    match fetchWord s g w va with
    | .word x s' =>
      let q := literalWords s' g w (va + 4) n
      (q.1, x.toNat + 2 ^ 32 * q.2)
    | f => (f, 0)

/-- LDL: a literal through the instruction cache; a miss parks the warp, another failure is a global fault of kind fetch
(R164, R177). -/
def runLiteral (s : State) (i : Instr) (d : BitVec 6) (o : BitVec 17) (n : Nat) : Host.Outcome State Fault Refusal :=
  runNamed s i (fun w => w.active) (fun s r g w =>
    let va := branchTarget w o.toInt
    if va % (4 * n) ≠ 0 then preciseTrap s r w 0x01
    else
      match literalWords s g w va n with
      | (.word _ s', v) => retire s' r g w (w.sset d.toNat (BitVec.ofNat 64 v)) false
      | (.miss s', _) => parkOn s' r g w .fetch [va / 4096]
      | (.fail k s', _) => retireWithRecords s' r g w w false [fetchRecord w va w.pcOf k])

/-- LDL.W (R177). -/
def execLdlW (d : BitVec 6) (o : BitVec 17) (s : State) : Host.Outcome State Fault Refusal :=
  runLiteral s (.ldlW d o) d o 1

/-- LDL.D (R177). -/
def execLdlD (d : BitVec 6) (o : BitVec 17) (s : State) : Host.Outcome State Fault Refusal :=
  runLiteral s (.ldlD d o) d o 2

/-! ### Headers -/

/-- The position once a header has passed: the word at the saved index, or, where the index lies past the clause, the word
there as one reached after the clause (R53, R59; DEDUCED, log entry 9). A header that is the last word of a body is fallen
through (R174). -/
def Warp.pastHeader (w : Warp) (cl : ClauseFields) : Warp :=
  let p := w.c.pos
  if w.atBodyEnd (p.hdr + 4) then w.goto ⟨p.hdr + 4, 0, .fell, .none⟩
  else if p.idx ≤ cl.len then w.goto ⟨p.hdr, p.idx, .body, cl⟩
  else w.goto (Pos.atFlow p.word)

/-- CLAUSE: a header among the words of a clause, or one whose flag fields are illegal, traps; otherwise the warp is held
until every flag of WAIT is clear, and then goes on in the clause (R51-R53, R55, R59). It takes no issue slot. -/
def execClause (wt : BitVec 12) (a b : BitVec 4) (l : BitVec 3) (s : State) : Host.Outcome State Fault Refusal :=
  withCurrent s (fun r _ w =>
    if w.c.pos.mode = .body ∨ legal (.clause wt a b l) = false then preciseTrap s r w 0x01
    else if waitClear w wt then s.setWarp r (w.pastHeader ⟨wt, a, b, l.toNat⟩)
    else s)

/-- POOL: passed where it is reached in sequence or resumed at with index 0; a trap in a clause, in a loop body, with N of
0, or as the target of a transfer (R52, R59, R61, R173). It takes no issue slot. -/
def execPool (n : BitVec 16) (s : State) : Host.Outcome State Fault Refusal :=
  withCurrent s (fun r _ w =>
    let p := w.c.pos
    if p.mode = .body then preciseTrap s r w 0x01
    else if p.mode ≠ .flow ∨ p.idx ≠ 0 then targetTrap s r w
    else if n = 0 ∨ w.inBody p.hdr then preciseTrap s r w 0x01
    else s.setWarp r (w.goto (Pos.atFlow (p.hdr + 4 * (n.toNat + 1)))))

/-- A word that is no instruction, or no header where one must stand (R52, R58, R68, R69). A header word with illegal
fields traps at its own position; any other word at a header's place traps with INDEX 0xFF (R427), among them a POOL header with a
reserved field that is not 0 (R61; DEDUCED, log entry 14). -/
def execIllegalInstruction (word : Word) (s : State) : Host.Outcome State Fault Refusal :=
  withCurrent s (fun r _ w =>
    if w.c.pos.mode = .body ∨ word.toNat / 2 ^ 24 = 0xFF then preciseTrap s r w 0x01
    else targetTrap s r w)

/-- The next word's fetch fails a check (R164, R184): a resolvable miss parks the warp, another failure is a global fault of
kind fetch. -/
def execInstructionFetchFault (va : Nat) (s : State) : Host.Outcome State Fault Refusal :=
  withCurrent s (fun r g w =>
    match nextWord s r g w with
    | .word _ _ => s
    | .miss s' => parkOn s' r g w .fetch [va / 4096]
    | .fail k s' => takeException s' r w 0x10 1 [fetchRecord w va va k] none)

end Sys2Proof.Machine
end

