-- ==== Sys2Proof/Machine/Pipes.lean ====
section
/-! DEFINITION. The cluster's pipes (R207-R214): pushes, pops, the overflow ring, waiting pops, and descriptor writes. -/

namespace Sys2Proof.Machine

/-- A pipe of a cluster. -/
def State.pipe (s : State) (c k : Nat) : Pipe := Table.get (s.cluster c).pipes Pipe.reset k
def State.setPipe (s : State) (c k : Nat) (p : Pipe) : State :=
  s.setCluster c { s.cluster c with pipes := Table.set (s.cluster c).pipes k p }

/-- COUNT: every entry held, on chip and spilled (R210, R211). -/
def Pipe.count (p : Pipe) : Nat := p.entries.length + p.spilled.length

/-- Entries on chip (R211). -/
def onChip : Nat := 256

/-- The places of the ring: what a quota past the on-chip entries needs, in whole pages (R207)
(DEDUCED, log entry 16). -/
def Pipe.ringSlots (p : Pipe) : Nat := ((p.quota - onChip) * 8 + 4095) / 4096 * 512

/-- The physical address of place i of the ring (DEDUCED, log entry 16). -/
def Pipe.ringAddr (p : Pipe) (i : Nat) : Nat := p.ring * 4096 + 8 * (i % p.ringSlots)

/-- Whether a warp of a workgroup may use a pipe of its cluster (R209). -/
def pipeOk (s : State) (g : Workgroup) (k : Nat) : Bool :=
  let p := s.pipe (clusterOf g.tile) k
  p.en && p.asid == s.asidOf g

/-- A lasting error of the ring disables the pipe and is logged (R211, R508). -/
def ringFailed (s : State) (c k pa : Nat) : State :=
  let s := s.setPipe c k { s.pipe c k with en := false }
  s.logError pa 4 ((pa / 2 ^ 36) % 4) logLasting (s.pipe c k).asid

/-- The overflow engine brings entries back on chip as places free up (R211); it reads for the first tile of the cluster (R288). -/
def refill (s : State) (c k : Nat) : Nat → State
  | 0 => s
  | n + 1 =>
    let p := s.pipe c k
    match p.spilled with
    | [] => s
    | pa :: rest =>
      if p.entries.length ≥ onChip ∨ p.en = false then s
      else
        let s := mergeRead s (8 * c) (lineOf pa)
        if s.dev.badLines.contains (lineOf pa) then ringFailed s c k pa
        else
          let v := BitVec.ofNat 64 (chanRead s pa 8)
          refill (s.setPipe c k { p with entries := p.entries ++ [⟨v, true, none⟩], spilled := rest }) c k n

/-- The entries of a push that find a place on chip: none while the ring holds any (R210, R211). -/
def Pipe.room (p : Pipe) : Nat := if p.spilled.isEmpty then onChip - p.entries.length else 0

/-- The next n places of the ring that hold no entry: an entry stays where it was written, whatever a descriptor write changes
(R207, R211). -/
def Pipe.places (p : Pipe) (n : Nat) : List Nat :=
  ((span p.next (p.spilled.length + n)).filter (fun i => !p.spilled.contains (p.ringAddr i))).take n

/-- Entries are appended, all of them, on chip and then behind what the ring holds; where a write of the ring fails, none is, and the pipe
is disabled (R210, R211; DEDUCED, log entry 16). They become available later. -/
def pushEntries (s : State) (c k : Nat) (vs : List Reg) : State :=
  let p := s.pipe c k
  let spill := vs.drop p.room
  let places := p.places spill.length
  match (places.map p.ringAddr).find? (fun pa => s.dev.badLines.contains (lineOf pa)) with
  | some pa => ringFailed s c k pa
  | none =>
    let s := (places.zip spill).foldl (fun s x => chanWrite s (p.ringAddr x.1) 8 x.2.toNat) s
    s.setPipe c k { p with
      entries := p.entries ++ (vs.take p.room).map (fun v => ⟨v, false, none⟩)
      spilled := p.spilled ++ places.map p.ringAddr
      next := (places.getLast?.map (· + 1)).getD p.next }

/-- A warp that waits in QPOP: its handle, priority, arrival and destination. -/
structure Popper where
  r : WRef
  prio : Nat
  order : Nat
  d : Nat
deriving DecidableEq, Repr

/-- The warps of a cluster that wait on a pipe, those that stand still among them; a workgroup that has stopped has none (R421, R442). -/
def poppers (s : State) (c k : Nat) : List Popper :=
  s.wgs.flatMap (fun g =>
    if clusterOf g.2.tile = c ∧ g.2.live = true then
      g.2.warps.filterMap (fun w => match w.2.c.wait with
        | .pipe j o d => if j = k then some ⟨⟨g.1, w.1⟩, warpPrio g.2 w.1 w.2, o, d⟩ else none
        | _ => none)
    else [])

/-- Whether an entry has gone to one of these waiting warps. -/
def PipeEntry.gone (ps : List Popper) (e : PipeEntry) : Bool :=
  match e.owner with
  | some r => ps.any (fun q => q.r == r)
  | none => false

/-- The oldest entry that has gone to no waiting warp, if it is available, with the entries before and after it (R210). -/
def oldestFree (s : State) (c k : Nat) : Option (List PipeEntry × PipeEntry × List PipeEntry) :=
  let es := (s.pipe c k).entries
  let gone := PipeEntry.gone (poppers s c k)
  match es.dropWhile gone with
  | e :: rest => if e.ready then some (es.takeWhile gone, e, rest) else none
  | [] => none

/-- The oldest entry, if it is available, and the state without it (R210). -/
def popOne (s : State) (c k : Nat) : Option (Reg × State) :=
  (oldestFree s c k).map (fun x => (x.2.1.v, refill (s.setPipe c k { s.pipe c k with entries := x.1 ++ x.2.2 }) c k 1))

/-- The oldest entry, if it is available, goes to a warp that cannot retire yet: it stays until then (R212, R230, R412; DEDUCED, log
entry 16). -/
def holdOne (s : State) (c k : Nat) (r : WRef) : Option State :=
  (oldestFree s c k).map (fun x =>
    s.setPipe c k { s.pipe c k with entries := x.1 ++ { x.2.1 with owner := some r } :: x.2.2 })

/-- The waiter that is served first: highest priority, then first to arrive (R212). -/
def firstPopper : List Popper → Option Popper
  | [] => none
  | p :: rest =>
    match firstPopper rest with
    | some q => if q.prio > p.prio ∨ (q.prio = p.prio ∧ q.order < p.order) then some q else some p
    | none => some p

/-- A waiting QPOP receives a value and retires (R210, R212). -/
def servePopper (s : State) (p : Popper) (v : Reg) : State :=
  match s.wg p.r.wg, s.warp p.r with
  | some g, some w => retire s p.r g w (w.sset p.d v) false
  | _, _ => s

/-- A warp that can retire again takes the entry that has gone to it. -/
def serveHeld (s : State) (c k : Nat) (q : Popper) : State :=
  let p := s.pipe c k
  match p.entries.find? (fun e => e.owner == some q.r) with
  | some e => servePopper (refill (s.setPipe c k { p with entries := p.entries.erase e }) c k 1) q e.v
  | none => s

/-- Available entries go to waiting QPOPs, while the pipe is enabled (R212). -/
def deliver (s : State) (c k : Nat) : Nat → State
  | 0 => s
  | n + 1 =>
    let ps := poppers s c k
    let has := fun (q : Popper) => (s.pipe c k).entries.any (fun e => e.owner == some q.r)
    if (s.pipe c k).en = false then s
    else
      match ps.find? (fun q => has q && !s.frozen q.r) with
      | some q => deliver (serveHeld s c k q) c k n
      | none =>
        match firstPopper (ps.filter (fun q => !has q)) with
        | none => s
        | some q =>
          if s.frozen q.r then
            match holdOne s c k q.r with
            | some s' => deliver s' c k n
            | none => s
          else
            match popOne s c k with
            | some (v, s') => deliver (servePopper s' q v) c k n
            | none => s

/-- Waiting QPOPs whose pipe is disabled or given away take the pipe fault (R212), one that stands still once it no longer does, and one
with an earlier event due after that event's handler (R431). -/
def failPoppers (s : State) (c k : Nat) : State :=
  (poppers s c k).foldl (fun s p => match s.wg p.r.wg, s.warp p.r with
    | some g, some w =>
      if pipeOk s g k || s.frozen p.r || w.due then s else preciseTrap s p.r { w with c := { w.c with wait := .none } } 0x05
    | _, _ => s) s

/-- What a pipe has for its waiting QPOPs: the pipe fault, or entries (R212). -/
def settlePipe (s : State) (c k : Nat) : State :=
  let s := failPoppers s c k
  failPoppers (deliver s c k (poppers s c k).length) c k

/-! ### Instructions -/

/-- Run an instruction on the pipe that a queue register is bound to, under the checks of R209. -/
def onQueue (s : State) (i : Instr) (k : BitVec 3) (f : State → WRef → Workgroup → Warp → Nat → State) :
    Host.Outcome State Fault Refusal :=
  runNamed s i (fun w => w.active) (fun s r g w =>
    match w.queue k.toNat with
    | some n => if pipeOk s g n then f s r g w n else preciseTrap s r w 0x05
    | none => preciseTrap s r w 0x05)

/-- QBIND (R208, R209): a[6] unbinds and never faults. -/
def execQbind (a : BitVec 6) (k : BitVec 3) (s : State) : Host.Outcome State Fault Refusal :=
  runNamed s (.qbind a k) (fun w => w.active) (fun s r g w =>
    let v := w.sget a.toNat
    let bind := fun (b : Option Nat) => { w with r := { w.r with q := Table.set w.r.q k.toNat b } }
    if v.getLsbD 6 then retire s r g w (bind none) false
    else if pipeOk s g (fieldOf v 0 6) then retire s r g w (bind (some (fieldOf v 0 6))) false
    else preciseTrap s r w 0x05)

/-- Append a list of entries, all or none (R210, R211). -/
def pushAll (s : State) (r : WRef) (g : Workgroup) (w : Warp) (n : Nat) (vs : List Reg) : State :=
  let c := clusterOf g.tile
  let p := s.pipe c n
  if p.count + vs.length > p.quota then preciseTrap s r w 0x06
  else
    failPoppers (pushEntries (retire s r g w w false) c n vs) c n

/-- QPUSH (R210). -/
def execQpush (a : BitVec 6) (k : BitVec 3) (s : State) : Host.Outcome State Fault Refusal :=
  onQueue s (.qpush a k) k (fun s r g w n => pushAll s r g w n [w.sget a.toNat])

/-- QPUSHV (R210): n holds the count less one. -/
def execQpushv (a : BitVec 6) (n : BitVec 5) (k : BitVec 3) (s : State) : Host.Outcome State Fault Refusal :=
  onQueue s (.qpushv a n k) k (fun s r g w p => pushAll s r g w p ((span a.toNat (n.toNat + 1)).map w.sget))

/-- QPOP: the oldest entry, or a wait while none is available (R210, R212). -/
def execQpop (d : BitVec 6) (k : BitVec 3) (s : State) : Host.Outcome State Fault Refusal :=
  onQueue s (.qpop d k) k (fun s r g w n =>
    match popOne s (clusterOf g.tile) n with
    | some (v, s') => failPoppers (retire s' r g w (w.sset d.toNat v) false) (clusterOf g.tile) n
    | none => waitAt { s with issues := s.issues + 1 } r w (.pipe n s.issues d.toNat))

/-- QTRY and QSTEAL: the oldest entry and 1, or 0 and 0 (R210). -/
def tryPop (s : State) (r : WRef) (g : Workgroup) (w : Warp) (n d : Nat) : State :=
  match popOne s (clusterOf g.tile) n with
  | some (v, s') => failPoppers (retire s' r g w ((w.sset d v).sset (d + 1) 1) false) (clusterOf g.tile) n
  | none => retire s r g w ((w.sset d 0).sset (d + 1) 0) false

/-- QTRY (R210). -/
def execQtry (d : BitVec 6) (k : BitVec 3) (s : State) : Host.Outcome State Fault Refusal :=
  onQueue s (.qtry d k) k (fun s r g w n => tryPop s r g w n d.toNat)

/-- QSTEAL (R210): the pipe is numbered by a[5:0]. -/
def execQsteal (d a : BitVec 6) (s : State) : Host.Outcome State Fault Refusal :=
  runNamed s (.qsteal d a) (fun w => w.active) (fun s r g w =>
    let n := fieldOf (w.sget a.toNat) 0 6
    if pipeOk s g n then tryPop s r g w n d.toNat else preciseTrap s r w 0x05)

/-- QLEN (R210). -/
def execQlen (d : BitVec 6) (k : BitVec 3) (s : State) : Host.Outcome State Fault Refusal :=
  onQueue s (.qlen d k) k (fun s r g w n =>
    retire s r g w (w.sset d.toNat (BitVec.ofNat 64 (s.pipe (clusterOf g.tile) n).count)) false)

/-! ### Events -/

/-- The oldest entry that is not available yet becomes so. -/
def makeReady : List PipeEntry → List PipeEntry
  | [] => []
  | e :: r => if e.ready then e :: makeReady r else { e with ready := true } :: r

/-- PIPE_ENTRY_AVAILABLE: a pushed entry becomes available, and goes to a waiting QPOP first (R210, R212). -/
def execPipeEntryAvailable (cluster pipe : Nat) (s : State) : Host.Outcome State Fault Refusal :=
  let p := s.pipe cluster pipe
  .next (settlePipe (s.setPipe cluster pipe { p with entries := makeReady p.entries }) cluster pipe)

/-- PIPE_DESCRIPTOR_WRITE: word 0 holds EN and RING, word 1 QUOTA and ASID; COUNT is read-only; entries stay (R207, R212).
A QUOTA of 0, which lies outside the range of R207, is stored as it is written (DESIGN CHOICE, log entry 16). -/
def execPipeDescriptorWrite (cluster pipe word : Nat) (v : BitVec 64) (s : State) :
    Host.Outcome State Fault Refusal :=
  let p := s.pipe cluster pipe
  let p := if word = 0 then { p with en := v.getLsbD 0, ring := fieldOf v 12 40 }
    else { p with quota := fieldOf v 24 24, asid := fieldOf v 48 16 }
  .next (failPoppers (s.setPipe cluster pipe p) cluster pipe)

end Sys2Proof.Machine
end

