-- ==== Sys2Proof/Machine/Matrix.lean ====
section
/-! DEFINITION. MMA, MMT, MZERO, MSCALE and the matrix engine: its queue, row blocks, faults, teams, stops and resumptions
(R221-R237). Of the places in an engine's queue the running instruction takes one (DEDUCED, log entry 10). -/

namespace Sys2Proof.Machine

/-! ### MROW -/

/-- MROW of an instruction that starts (R229): ACT, FLT, KDONE and RDONE zero. -/
def mrowStart (team : Option Nat) (flag pk n vd srec : Nat) : Reg :=
  BitVec.ofNat 64 ((if team.isSome then 2 ^ 61 else 0) + flag * 2 ^ 56 + pk * 2 ^ 53 + n * 2 ^ 51 + team.getD 0 * 2 ^ 49
    + vd * 2 ^ 42 + srec * 2 ^ 36)

/-- Bits of MROW that are not reserved (R229). -/
def mrowMask : Reg := BitVec.ofNat 64 (2 ^ 64 - 1 - 2 ^ 60 - (2 ^ 32 - 2 ^ 12))

/-- Progress in MROW: k-blocks done, row blocks of the next one. -/
def mrowK (m : Reg) : Nat := fieldOf m 0 12
def mrowR (m : Reg) : Nat := fieldOf m 32 4

/-- Set ACT and FLT. -/
def mrowEnd (m : Reg) (act flt : Bool) : Reg :=
  setField m 62 2 ((if act then 2 else 0) + if flt then 1 else 0)

def Warp.setMrow (w : Warp) (m : Reg) : Warp := { w with sp := { w.sp with mrow := m } }

/-! ### The engines' queues and the team table -/

/-- Change a tile's engine queue. -/
def State.updEngine (s : State) (t : Nat) (f : List EngineJob → List EngineJob) : State :=
  s.setTile t { s.tile t with engine := f (s.tile t).engine }

/-- A team that has formed goes behind the instruction that runs and the teams before it (R236). -/
def insertTeam (id : Nat) : List EngineJob → List EngineJob
  | [] => [.team id]
  | j :: r => j :: (r.takeWhile (fun j => match j with
      | .team _ => true
      | .mma _ => false) ++ .team id :: r.dropWhile (fun j => match j with
      | .team _ => true
      | .mma _ => false))

/-- The tile of a warp. -/
def State.tileOf (s : State) (r : WRef) : Nat := ((s.wg r.wg).map (·.tile)).getD 0

/-- The teams of a cluster. -/
def State.team (s : State) (c id : Nat) : Option Team := (s.cluster c).teams.find? (fun (t : Team) => t.id == id)
def State.updTeams (s : State) (c : Nat) (f : List Team → List Team) : State :=
  s.setCluster c { s.cluster c with teams := f (s.cluster c).teams }

/-- The warp leaves the engine that it occupied: an MMA leaves the queue; a team's member leaves the team, whose place in a
tile's queue is free when no member is left there. -/
def leaveEngine (s : State) (r : WRef) (m : MatrixRun) : State :=
  let t := s.tileOf r
  match m.team with
  | none => s.updEngine t (fun q => q.filter (fun j => j != .mma r))
  | some (_, id) =>
    let c := clusterOf t
    let s := s.updTeams c (fun ts => (ts.map (fun (x : Team) =>
      if x.id = id then { x with arrived := x.arrived.filter (fun w => w != r) } else x)).filter (fun (x : Team) => !x.arrived.isEmpty))
    let left := ((s.team c id).map (·.arrived)).getD []
    if left.any (fun w => s.tileOf w == t) then s else s.updEngine t (fun q => q.filter (fun j => j != .team id))

/-- What a warp that was parked for its matrix instruction had waited for goes on being evaluated (R230): waits for
arrivals are issued again. -/
def Warp.afterPark (w : Warp) : Warp :=
  match w.c.wait with
  | .bar _ | .tb _ _ _ | .batch _ => { w with c := { w.c with wait := .none } }
  | _ => w

/-- A warp is no longer parked for its matrix instruction (R230): an exchange whose partner has come meanwhile is made (R150), and its
pipe gives it what it has for it (R212). -/
def releaseParked (s : State) (r : WRef) : State :=
  match s.wg r.wg, s.warp r with
  | some g, some w =>
    let s := s.setWarp r w.afterPark
    match w.c.wait with
    | .swap _ _ _ _ _ _ _ _ => pairSwap s r
    | .pipe k _ _ => settlePipe s (clusterOf g.tile) k
    | _ => s
  | _, _ => s

/-- The instruction of a warp ends or stops: MROW, the flag, the registers and the engine; recs are the records of an
unresolvable fault (R223, R231, R232). A warp that was parked for it is no longer. -/
def endMatrix (s : State) (r : WRef) (m : MatrixRun) (mrow : Reg) (recs : List FaultRec) : State :=
  let s := leaveEngine s r m
  let s := s.updWarp r (fun w =>
    let outs := w.outs.map (fun o => if o.id = m.opId then { o with recs := recs } else o)
    { w.setMrow mrow with mat := none, outs := outs })
  let s := completeOp s r m.opId
  if m.parked then releaseParked s r else s

/-- The pre-emption of a member stops the whole team: no engine runs a block of it from now on, and each other member stops at its own
trap (R237). -/
def stopTeam (s : State) (r : WRef) (m : MatrixRun) : State :=
  match m.team with
  | none => s
  | some (_, id) =>
    let c := clusterOf (s.tileOf r)
    let tiles := (((s.team c id).map (fun x => x.arrived.map s.tileOf)).getD []).eraseDups
    let s := s.updTeams c (fun ts => ts.map (fun (x : Team) => if x.id = id then { x with stopped := true } else x))
    tiles.foldl (fun s t => s.updEngine t (fun q => q.filter (fun j => j != .team id))) s

/-- A warp's matrix instruction stops at a row-block boundary with ACT set (R232, R237). What the warp waits for has no part in it: its
trap comes next (R436). -/
def stopMatrix (s : State) (r : WRef) : State :=
  match s.warp r with
  | some w =>
    match w.mat with
    | some m => endMatrix (stopTeam s r m) r { m with parked := false } (mrowEnd w.sp.mrow true false) []
    | none => s
  | none => s

/-- The record of an engine fault (R231, R425): TYPE 4 with a format. -/
def engineRecord (m : MatrixRun) (addr : Reg) (kind fmt : Nat) : FaultRec :=
  ⟨32, addr, m.pc, m.hdr, kind, m.offs, 4 * 32 + fmt, 0⟩

/-- The instruction of a warp ends on an unresolvable fault (R231). -/
def faultMatrix (s : State) (r : WRef) (addr : Reg) (kind fmt : Nat) : State :=
  match s.warp r with
  | some w =>
    match w.mat with
    | some m => endMatrix s r m (mrowEnd w.sp.mrow false true) [engineRecord m addr kind fmt]
    | none => s
  | none => s

/-- Whether a member of a team is out of it: ended, cancelled, or its workgroup gone (R237). -/
def memberGone (s : State) (r : WRef) : Bool :=
  match s.wg r.wg, s.warp r with
  | some g, some w => w.c.ended || g.cancelled || g.status != .resident
  | _, _ => true

/-- Every other member's instruction ends with kind team lost; the address is a free value (R237; DESIGN CHOICE, log entry 2). So does
that of the member that is gone, and TYPE carries AF of each member's own record (DESIGN CHOICE, log entry 10). -/
def loseTeam (s : State) (c id : Nat) : State :=
  match s.team c id with
  | none => s
  | some t =>
    if t.arrived.any (memberGone s) then
      let s := t.arrived.foldl (fun s r =>
        let q := s.draw
        match (s.warp r).bind (·.mat) with
        | some m => faultMatrix q.2 r q.1 8 (recAF m.words).toNat
        | none => s) s
      s.updTeams c (fun ts => ts.filter (fun (x : Team) => x.id != id))
    else s

/-! ### Starting -/

/-- The s-registers of a record. -/
def recordWords (w : Warp) (srec len : Nat) : List Reg := (span srec len).map w.sget

/-- Length of a record with its following words (R216, R219, R234). -/
def recordLen (w : Warp) (team : Bool) (srec : Nat) : Nat := if team then mmtRecordLen w srec else mmaRecordLen w srec

/-- The faults of R220 and R222 at the start of a matrix instruction: the record passes s63, its words are bad, or the row
mask holds an inactive lane. -/
def matrixBad (g : Workgroup) (w : Warp) (team : Bool) (srec n : Nat) (mask : Mask) : Bool :=
  let len := recordLen w team srec
  decide (srec + len > 64) || recordBad g.spAlloc team n (recordWords w srec len) || decide (mask &&& ~~~w.active ≠ 0)

/-- Whether every accumulator register carries the accumulator tag (R223). -/
def accTagged (w : Warp) (vd n : Nat) (ws : List Reg) : Bool := (span vd n).all (fun k => (w.vget k).tag == accTag ws)

/-- A matrix instruction begins: its flag counts it and its record is held (R223, R224). -/
def Warp.beginMatrix (w : Warp) (team : Option (Nat × Nat)) (srec vd n pk flag : Nat) (mask : Mask) (pc hdr offs : Nat) :
    Warp :=
  let ws := recordWords w srec (recordLen w team.isSome srec)
  let m : MatrixRun := ⟨team, ws, srec, vd, n, mask, flag, w.nextOp, pk, pc, hdr, offs, [], [], false⟩
  { w.issueLong flag (span vd n) [] [] (accTag ws == 0x11#5) none with mat := some m }

/-- A team that an arrival joins: one of the same gang and number that has not formed (R235). -/
def openTeam (s : State) (c : Nat) (gang : List Nat) (t : Nat) : Option Team :=
  (s.cluster c).teams.find? (fun (x : Team) => x.gang == gang && x.team == t && !x.running)

/-- The words of a member's record. -/
def memberWords (s : State) (r : WRef) : List Reg := (((s.warp r).bind (·.mat)).map (·.words)).getD []

/-- The place of a member in the result. -/
def memberBlock (s : State) (r : WRef) : Nat × Nat := (teamRB (memberWords s r), teamCB (memberWords s r))

/-- The warps of a gang. -/
def gangWarps (s : State) (gang : List Nat) : Nat := (gang.map (fun u => ((s.wg u).map (·.nwarps)).getD 0)).sum

/-- The faults of an arrival (R235). -/
def arrivalBad (s : State) (g : Workgroup) (x : Option Team) (ws : List Reg) : Bool :=
  let here := (teamRB ws, teamCB ws)
  !g.gangLaunch || decide (teamRB ws ≥ teamMB ws) || decide (teamCB ws ≥ teamNB ws)
    || decide (teamMB ws * teamNB ws > gangWarps s g.gang)
    || (match x with
      | none => false
      | some x =>
        x.arrived.any (fun r => memberBlock s r == here) || (match x.arrived with
          | r :: _ =>
            let f := memberWords s r
            f.take 4 != ws.take 4 || teamMB f != teamMB ws || teamNB f != teamNB ws
          | [] => false))

/-- An arrival joins a team or founds one; the last forms it, and the engines of its tiles take it (R235, R236). The warp
already holds its run with this team's identity. -/
def joinTeam (s : State) (c id : Nat) (gang : List Nat) (t : Nat) (r : WRef) (ws : List Reg) : State :=
  let s := match openTeam s c gang t with
    | some _ => s.updTeams c (fun ts => ts.map (fun (x : Team) => if x.id = id then { x with arrived := x.arrived ++ [r] } else x))
    | none => s.updTeams c (fun ts => ts ++ [Team.mk id gang t [r] false false 0 []])
  match s.team c id with
  | some x =>
    if x.arrived.length = teamMB ws * teamNB ws then
      let s := s.updTeams c (fun ts => ts.map (fun (y : Team) => if y.id = id then { y with running := true } else y))
      (x.arrived.map s.tileOf).eraseDups.foldl (fun s t => s.updEngine t (insertTeam id)) s
    else s
  | none => s

/-- Start a matrix instruction, or resume one: the flag, the record, MROW with its progress, and the engine or team. The
warp w is the one that carries on. A resumption that finds four in the queue joins it as a fifth (DESIGN CHOICE, log
entry 10). -/
def startMatrix (s : State) (r : WRef) (g : Workgroup) (w : Warp) (team : Option Nat) (srec vd n pk flag : Nat)
    (mask : Mask) (mrow : Reg) (pc hdr offs : Nat) : State :=
  match team with
  | none =>
    let w := (w.beginMatrix none srec vd n pk flag mask pc hdr offs).setMrow mrow
    (s.setWarp r w).updEngine g.tile (fun q => q ++ [.mma r])
  | some t =>
    let c := clusterOf g.tile
    let id := ((openTeam s c g.gang t).map (·.id)).getD s.nextId
    let s := { s with nextId := s.nextId + 1 }
    let w := (w.beginMatrix (some (t, id)) srec vd n pk flag mask pc hdr offs).setMrow mrow
    joinTeam (s.setWarp r w) c id g.gang t r (recordWords w srec (recordLen w true srec))

/-- Run MMA or MMT (R220-R223, R235). -/
def runMatrix (s : State) (i : Instr) (p : BitVec 3) (srec : BitVec 6) (f : BitVec 1) (v : BitVec 7) (nc : BitVec 2)
    (team : Option Nat) : Host.Outcome State Fault Refusal :=
  runNamed s i (fun w => w.active) (fun s r g w =>
    let n := accWidth nc
    let mask := w.pget p.toNat
    let flag := w.flagOf f
    let ws := recordWords w srec.toNat (recordLen w team.isSome srec.toNat)
    let x := team.bind (fun t => openTeam s (clusterOf g.tile) g.gang t)
    if matrixBad g w team.isSome srec.toNat n mask || (team.isSome && arrivalBad s g x ws) then preciseTrap s r w 0x0A
    else if accTagged w v.toNat n ws then
      let mrow := mrowStart team flag p.toNat nc.toNat v.toNat srec.toNat
      let s := retire s r g w w false
      match s.warp r with
      | some w' => startMatrix s r g w' team srec.toNat v.toNat n p.toNat flag mask mrow w.pcOf w.c.pos.hdr w.c.pos.idx
      | none => s
    else preciseTrap s r w 0x02)

/-- MMA (R221-R223). -/
def execMma (p : BitVec 3) (srec : BitVec 6) (f : BitVec 1) (v : BitVec 7) (n : BitVec 2) (s : State) :
    Host.Outcome State Fault Refusal :=
  runMatrix s (.mma p srec f v n) p srec f v n none

/-- MMT (R234, R235). -/
def execMmt (p : BitVec 3) (srec : BitVec 6) (f : BitVec 1) (v : BitVec 7) (t : BitVec 2) (s : State) :
    Host.Outcome State Fault Refusal :=
  runMatrix s (.mmt p srec f v t) p srec f v 2 (some t.toNat)

/-- MZERO (R227). -/
def execMzero (v : BitVec 7) (n : BitVec 2) (t : BitVec 1) (s : State) : Host.Outcome State Fault Refusal :=
  runNamed s (.mzero v n t) (fun w => w.active) (fun s r g w =>
    let tag : BitVec 5 := if t = 0 then 0x11#5 else 0x05#5
    retire s r g w ((span v.toNat (accWidth n)).foldl (fun w k => writeDst w (.reg k) tag w.active 0 (fun _ => 0)) w) false)

/-- MSCALE (R228). -/
def execMscale (d a : BitVec 6) (f : BitVec 3) (s : State) : Host.Outcome State Fault Refusal :=
  runUniform s (.mscale d a f) (fun w =>
    .ok (w.sset d.toNat (BitVec.ofNat 64 (mscaleCode f (fieldOf (w.sget a.toNat) 0 32)))))

/-! ### Resumption -/

/-- Whether the fields of MROW cannot be resumed, whatever the record: N, accumulator or flag (R231, R232). -/
def mrowBad (w : Warp) (m : Reg) : Bool :=
  decide (fieldOf m 51 2 = 3) || decide (fieldOf m 42 7 + 16 * 2 ^ fieldOf m 51 2 > w.r.alloc) || decide (fieldOf m 56 4 ≥ 12)

/-- A resumption starts from MROW, the record, the predicate and the accumulator; one whose parts no longer pass takes the
matrix-record fault (R231, R232, R235), among them KIND 1 with NC 0 or 1. The containment check of R222 takes the active mask in force
now (DEDUCED, log entry 10). The warp stands at a boundary; the position named is where the run starts. -/
def resumeMatrix (s : State) (r : WRef) (pc hdr offs : Nat) : State :=
  match s.wg r.wg, s.warp r with
  | some g, some w0 =>
    let m := w0.sp.mrow
    let team := if m.getLsbD 61 then some (fieldOf m 49 2) else none
    let srec := fieldOf m 36 6
    let vd := fieldOf m 42 7
    let n := 16 * 2 ^ fieldOf m 51 2
    let s := fetchAreas s g (sArea g r.wp w0)
    match fillS s g r.wp w0 with
    | (_, false) => endWithError s r.wg 0x50 r.wp w0.c.pos.place 0 0
    | (w, true) =>
      let mask := w.pget (fieldOf m 53 3)
      let ws := recordWords w srec (recordLen w team.isSome srec)
      let x := team.bind (fun t => openTeam s (clusterOf g.tile) g.gang t)
      if mrowBad w m || (team.isSome && decide (n ≠ 64)) || matrixBad g w team.isSome srec n mask
          || decide (mrowK m ≥ recK ws / 16) || (team.isSome && arrivalBad s g x ws) then
        preciseTrap s r w 0x0A
      else
        let ks := ((span vd n).map (· / 8)).eraseDups
        let s := fetchAreas s g (granuleAreas g r.wp w ks)
        match fillGranules s g r.wp w ks with
        | (_, false) => endWithError s r.wg 0x50 r.wp w0.c.pos.place 0 0
        | (w, true) =>
          if accTagged w vd n ws then
            startMatrix s r g w team srec vd n (fieldOf m 53 3) (fieldOf m 56 4) mask (mrowEnd m false false) pc hdr offs
          else preciseTrap s r w 0x0A
  | _, _ => s

/-! ### A row block -/

/-- A fetch of 16 bytes at most that the engine makes: the address it needs first in them, and the format. -/
structure EngFetch where
  va : Nat
  fmt : Nat
deriving DecidableEq, Repr

/-- Fetches with one entry for each 16-byte block. -/
def distinctBlocks (l : List EngFetch) : List EngFetch :=
  l.foldl (fun acc f => if acc.any (fun g => g.va / 16 == f.va / 16) then acc else acc ++ [f]) []

/-- The address of element (i, k) of A or (k, j) of B: row, place in the row, bits of an element (R218). -/
def matAddr (m : MatSrc) (row el b : Nat) : Nat := m.addr + row * m.stride + el * b / 8

/-- The rows and columns of a row block that have an element that is not masked, in the result's indices. -/
def neededRows (ws : List Reg) (rows cols : List Nat) : List Nat := rows.filter (fun i => cols.any (fun c => !triMasked ws i c))
def neededCols (ws : List Reg) (rows cols : List Nat) : List Nat := cols.filter (fun c => rows.any (fun i => !triMasked ws i c))

/-- The global fetches of a row block of a k-block (R218, R219, R226). A scale byte's format, E8M0, has no code, and a fault on one
gives 0 in TYPE (R231, R425; DESIGN CHOICE, log entry 10). -/
def blockFetches (team : Bool) (ws : List Reg) (kb : Nat) (rows cols : List Nat) : List EngFetch :=
  let a := recA ws
  let b := recB ws
  let ba := fmtWidth (recAF ws)
  let bb := fmtWidth (recBF ws)
  let fa := if a.sp then [] else rows.flatMap (fun i => (span (16 * kb) 16).map (fun k => ⟨matAddr a i k ba, (recAF ws).toNat⟩))
  let fb := if b.sp then [] else (span (16 * kb) 16).flatMap (fun k =>
    distinctBlocks (cols.map (fun c => ⟨matAddr b k c bb, (recBF ws).toNat⟩)))
  let scale := fun (second : Bool) (i : Nat) =>
    let x := scaleWord team ws second
    EngFetch.mk (fieldOf x 0 48 + i * fieldOf x 48 16 + kb / 2) 0
  let fs := if recSC ws then rows.map (scale false) ++ cols.map (scale true) else []
  distinctBlocks (distinctBlocks fa ++ fb ++ fs)

/-- What the engine's fetches come to: the blocks by number, pages that miss, or the first fault. -/
inductive EngRes where
  | ok (s : State) (blocks : Table Nat)
  | miss (s : State) (pages : List Nat)
  | bad (s : State) (addr kind fmt : Nat)
deriving DecidableEq, Repr

/-- The 16 bytes of a block as the engine reads them (R225, R285). -/
def engineBlock (s : State) (t : Nat) (x : Xlated) : Nat :=
  let pa := x.pa - x.pa % 16
  if x.direct then chanRead s pa 16 else lineBytes (engineLine s t (lineOf pa)) (pa % 128) 16

/-- An engine's fetch that faults: the check that fails, or a data error of its line, which comes from the channel (R231, R285). -/
def engineFault (s : State) (c : LaneAcc) : Option Nat :=
  match c with
  | .bad k => some k
  | .ok x => if s.dev.badLines.contains (lineOf x.pa) then some 6 else none
  | .miss _ => none

/-- The lines that an engine's fetches read, each once (R225, R288). -/
def engineLines (cs : List (Nat × Int × LaneAcc)) : List Nat :=
  (cs.filterMap (fun c => match c.2.2 with
    | .ok x => some (lineOf x.pa)
    | _ => none)).eraseDups

/-- Make the fetches (R230, R231): the first unresolvable fault decides, then the misses. -/
def fetchBlocks (s : State) (g : Workgroup) (w : Warp) (fs : List EngFetch) : EngRes :=
  let q := checkAll s g w .engRead 1 (fs.map (fun f => (f.fmt, (f.va : Int))))
  let fault := q.2.findSome? (fun c => (engineFault q.1 c.2.2).map (fun k => (c.2.1.toNat, k, c.1)))
  match fault with
  | some (va, k, fmt) =>
    let made := q.2.take (q.2.findIdx (fun c => (engineFault q.1 c.2.2).isSome) + 1)
    .bad (readLines q.1 g.tile (engineLines made)) va k fmt
  | none =>
    match missPages q.2 with
    | p :: ps => .miss q.1 (p :: ps)
    | [] =>
      let s := readLines q.1 g.tile (engineLines q.2)
      .ok s (q.2.filterMap (fun c => match c.2.2 with
        | .ok x => some (c.2.1.toNat / 16, engineBlock s g.tile x)
        | _ => none))

/-- b bits of an element at a byte address, high nibble or low by its parity. -/
def elementAt (g : Workgroup) (blocks : Table Nat) (sp : Bool) (va el b : Nat) : Nat :=
  let v := if sp then Memory.readN g.sp va ((b + 7) / 8) else Table.get blocks 0 (va / 16) / 256 ^ (va % 16)
  if b = 4 ∧ el % 2 = 1 then v / 16 % 16 else v % 2 ^ b

/-- The scale of a row of A or a column of B (R219). -/
def scaleAt (blocks : Table Nat) (team : Bool) (ws : List Reg) (second : Bool) (i kb : Nat) : Option Nat :=
  if recSC ws then
    let x := scaleWord team ws second
    let va := fieldOf x 0 48 + i * fieldOf x 48 16 + kb / 2
    some (Table.get blocks 0 (va / 16) / 256 ^ (va % 16) % 256)
  else none

/-- Element (i, c) of an accumulator, and its new value (R33). -/
def Warp.accGet (w : Warp) (vd i c : Nat) : Nat := subEl 32 (laneOf (w.vget (vd + c)).lanes (i / 2)) (i % 2)
def Warp.accPut (w : Warp) (vd i c v : Nat) : Warp :=
  let x := w.vget (vd + c)
  w.vset (vd + c) ⟨x.tag, mergeLanes (maskOf (fun l => l == i / 2)) x.lanes (fun l => setField (laneOf x.lanes l) (32 * (i % 2)) 32 v)⟩

/-- Add one row block of one k-block to the accumulator (R223, R226); ro and co are the block's place in a team's
result. -/
def addBlock (g : Workgroup) (w : Warp) (m : MatrixRun) (blocks : Table Nat) (kb ro co : Nat) (rows : List Nat) : Warp :=
  let ws := m.words
  let team := m.team.isSome
  let a := recA ws
  let b := recB ws
  let ba := fmtWidth (recAF ws)
  let bb := fmtWidth (recBF ws)
  let ks := span (16 * kb) 16
  let aBits := fun i => ks.map (fun k => elementAt g blocks a.sp (matAddr a (i + ro) k ba) k ba)
  let bBits := (List.range m.n).map (fun c => ks.map (fun k => elementAt g blocks b.sp (matAddr b k (c + co) bb) (c + co) bb))
  let int := decide (accTag ws = 0x05#5)
  let bVals := if int then [] else (List.range m.n).map (fun c =>
    let e := scaleAt blocks team ws true (c + co) kb
    (bBits.getD c []).map (fun x => scaledVal (recBF ws) x e))
  rows.foldl (fun w i =>
    let xs := aBits i
    let e := scaleAt blocks team ws false (i + ro) kb
    let av := if int then [] else xs.map (fun x => scaledVal (recAF ws) x e)
    (List.range m.n).foldl (fun w c =>
      if triMasked ws (i + ro) (c + co) then
        if triWhole ws (i + ro) (c + co) then w else w.accPut m.vd i c (triConst ws)
      else
        let old := w.accGet m.vd i c
        if int then w.accPut m.vd i c (accStepInt old xs (bBits.getD c []))
        else
          let y := accStep ws old av (bVals.getD c [])
          (w.accPut m.vd i c y.bits).raise y.fl) w) w

/-- The rows of row block rb that the row mask holds. -/
def rowsOf (mask : Mask) (rb : Nat) : List Nat :=
  ((span (8 * rb) 8).filter (fun l => mask.getLsbD l)).flatMap (fun l => [2 * l, 2 * l + 1])

/-- The row blocks of the next k-block that are still to be added (R223, R230). -/
def blocksLeft (mask : Mask) (mrow : Reg) : List Nat :=
  (List.range 4).filter (fun rb => !(rowsOf mask rb).isEmpty && decide (mrowR mrow / 2 ^ rb % 2 = 0))

/-- MROW after row block rb, the last of its k-block or not (R223). -/
def mrowAfter (m : Reg) (rb : Option Nat) (last : Bool) : Reg :=
  if last then setField (setField m 0 12 (mrowK m + 1)) 32 4 0
  else match rb with
    | some b => setField m 32 4 (mrowR m + 2 ^ b)
    | none => m

/-- Whether the block of a team's member is done: the last k-block's row blocks all are. -/
def blockFinished (s : State) (q : WRef) : Bool :=
  match s.warp q with
  | some w =>
    match w.mat with
    | some m => decide (mrowK w.sp.mrow + 1 ≥ recK m.words / 16) && (blocksLeft m.mask w.sp.mrow).isEmpty
    | none => true
  | none => true

/-- Whether the engine may run the next block of a warp now: its MMA is the one that runs; or its team is, every member has
the k-blocks before it, and no member on the tile with work in it holds a lower warp slot (R236, R238). -/
def engineTurn (s : State) (r : WRef) (w : Warp) (m : MatrixRun) : Bool :=
  let t := s.tileOf r
  match m.team with
  | none => (s.tile t).engine.head? == some (.mma r)
  | some (_, id) =>
    match s.team (clusterOf t) id with
    | some x =>
      let k := mrowK w.sp.mrow
      let kOf := fun (q : WRef) => ((s.warp q).map (fun w => mrowK w.sp.mrow)).getD 0
      let before := fun (q : WRef) => decide (s.warpSlot q < s.warpSlot r)
      x.running && !x.stopped && (s.tile t).engine.head? == some (.team id)
        && x.arrived.all (fun q => decide (k ≤ kOf q) && (((s.warp q).bind (·.mat)).map (·.tags.isEmpty)).getD true)
        && !x.arrived.any (fun q => before q && s.tileOf q == t && kOf q == k && !blockFinished s q)
    | none => false

/-- Resolvable faults of the engine's fetches: messages, and the warp parks until they are served (R230). -/
def parkMatrix (s : State) (r : WRef) (g : Workgroup) (w : Warp) (m : MatrixRun) (pages : List Nat) : State :=
  let q := sendPages s r g 1 4 pages
  q.1.setWarp r { w with mat := some { m with tags := q.2, parked := !q.2.isEmpty } }

/-- An unresolvable fault ends the instruction, in every member of a team (R231, R237). -/
def faultAll (s : State) (r : WRef) (m : MatrixRun) (addr : Reg) (kind fmt : Nat) : State :=
  match m.team with
  | none => faultMatrix s r addr kind fmt
  | some (_, id) =>
    match s.team (clusterOf (s.tileOf r)) id with
    | some x => x.arrived.foldl (fun s q => faultMatrix s q addr kind fmt) s
    | none => s

/-- The end of a team whose members all have their blocks: every member's instruction completes (R223, R236). -/
def completeTeam (s : State) (x : Team) : State :=
  x.arrived.foldl (fun s q => match s.warp q with
    | some w =>
      match w.mat with
      | some m => endMatrix s q m (mrowEnd (mrowAfter w.sp.mrow none true) false false) []
      | none => s
    | none => s) s

/-- A row block has been added, or a k-block without rows passed: MROW, and the end of the instruction with its last
k-block (R223, R229). The members of a team complete together: one whose block is done keeps its last k-block in RDONE until then, so
that it can still lose its team, stop and resume (R231, R236, R237; DEDUCED, log entry 10). -/
def blockDone (s : State) (r : WRef) (w : Warp) (m : MatrixRun) (rb : Option Nat) (last : Bool) : State :=
  let final := decide (mrowK w.sp.mrow + 1 ≥ recK m.words / 16)
  match m.team with
  | none =>
    let mrow := mrowAfter w.sp.mrow rb last
    let s := s.setWarp r (w.setMrow mrow)
    if final && last then endMatrix s r m (mrowEnd mrow false false) [] else s
  | some (_, id) =>
    let s := s.setWarp r (w.setMrow (mrowAfter w.sp.mrow rb (last && !final)))
    match s.team (clusterOf (s.tileOf r)) id with
    | some x => if final && x.arrived.all (blockFinished s) then completeTeam s x else s
    | none => s

/-- The blocks of a k-block's panel that the engines of a member's team hold already; none for MMA (R236). -/
def panelHeld (s : State) (r : WRef) (m : MatrixRun) (kb : Nat) : Table Nat :=
  match m.team with
  | none => []
  | some (_, id) =>
    match s.team (clusterOf (s.tileOf r)) id with
    | some x => if x.panelOf = kb then x.panel else []
    | none => []

/-- The panel of a team's k-block once these blocks have come: each is fetched once for the cluster (R236). -/
def keepPanel (s : State) (r : WRef) (m : MatrixRun) (kb : Nat) (blocks : Table Nat) : State :=
  match m.team with
  | none => s
  | some (_, id) => s.updTeams (clusterOf (s.tileOf r)) (fun ts => ts.map (fun (x : Team) =>
      if x.id = id then { x with panelOf := kb, panel := blocks } else x))

/-- One row block of one k-block of a warp's instruction. A team's member fetches what its team's panel does not hold. -/
def rowBlock (s : State) (r : WRef) (g : Workgroup) (w : Warp) (m : MatrixRun) : State :=
  let kb := mrowK w.sp.mrow
  let ro := if m.team.isSome then 64 * teamRB m.words else 0
  let co := if m.team.isSome then 64 * teamCB m.words else 0
  match blocksLeft m.mask w.sp.mrow with
  | [] => blockDone s r w m none true
  | rb :: rest =>
    let rows := rowsOf m.mask rb
    let ri := rows.map (· + ro)
    let ci := span co m.n
    let held := panelHeld s r m kb
    let fs := (blockFetches m.team.isSome m.words kb (neededRows m.words ri ci) (neededCols m.words ri ci)).filter
      (fun f => !held.any (fun b => b.1 == f.va / 16))
    match fetchBlocks s g { w with nones := m.nones } fs with
    | .bad s va kind fmt => faultAll s r m (BitVec.ofNat 64 va) kind fmt
    | .miss s pages => parkMatrix s r g w m pages
    | .ok s new =>
      let blocks := held ++ new
      let s := keepPanel s r m kb blocks
      let m' := { m with nones := [] }
      let w := addBlock g { w with mat := some m' } m blocks kb ro co rows
      blockDone s r w m' (some rb) rest.isEmpty

/-- The tiles of a warp's team; none for MMA. -/
def teamTiles (s : State) (r : WRef) (m : MatrixRun) : List Nat :=
  match m.team with
  | some (_, id) => ((s.team (clusterOf (s.tileOf r)) id).map (fun x => x.arrived.map s.tileOf)).getD []
  | none => []

/-- MATRIX_ROW_BLOCK (R223, R229-R231, R236, R237): nothing happens while it is not the warp's turn on its engine, while its
fetch waits for the management cores, or while its tile is in a swap (R233). -/
def execMatrixRowBlock (r : WRef) (s : State) : Host.Outcome State Fault Refusal :=
  .next (
    let s := match (s.warp r).bind (·.mat) with
      | some m => match m.team with
        | some (_, id) => loseTeam s (clusterOf (s.tileOf r)) id
        | none => s
      | none => s
    match s.wg r.wg, s.warp r with
    | some g, some w =>
      match w.mat with
      | some m =>
        let halted := s.swapping g.tile || (teamTiles s r m).any s.swapping
        if m.tags.isEmpty && !halted && engineTurn s r w m then rowBlock s r g w m else s
      | none => s
    | _, _ => s)

end Sys2Proof.Machine
end

