-- ==== Sys2Proof/Machine/Power.lean ====
section
/-! DEFINITION. The events of power and clocks (20_power_and_clocks.md): locks and switches of a cluster's generators, the
voltage of a pair, balance and ballast, the power limits of a die, stall windows, and pair gating. An event whose condition
does not hold leaves the state as it is. -/

namespace Sys2Proof.Machine

/-- The idle generator has locked 200 ticks after its lock began, or held the level already, which takes no time; a switch that
waited for it follows in the next tick (R475, R476). -/
def execClockLockDone (c : Nat) (s : State) : Host.Outcome State Fault Refusal :=
  let k := (s.cluster c).clk
  if !k.locking || decide (k.lockEnd ≤ (s.die (dieOfCluster c)).tick) then
    .next (trySwitch (s.updClk c (fun k => { k with locking := false })) c)
  else .next s

/-- A lowering of a cluster ends when its pair's voltage is the required one (R476, R477). -/
def endLowering (s : State) (c : Nat) : State :=
  if (s.cluster c).clk.cstate = 3 then refreshClock (s.updClk c (fun k => { k with cstate := 0 })) c else s

/-- VNOW has reached the required voltage: a raise whose lock is done switches, and a lowering ends (R476). -/
def execVoltageTargetReached (p : Nat) (s : State) : Host.Outcome State Fault Refusal :=
  if (s.pair p).gstate < 3 ∧ (s.pair p).vnow = requiredVoltage s p then
    .next ((pairClusters p).foldl (fun s c =>
      if (s.cluster c).clk.cstate = 1 then trySwitch s c else endLowering s c) s)
  else .next s

/-! ### Balance -/

/-- Whether a tile is idle: no resident warp, and not retired (R482). -/
def tileIdle (s : State) (t : Nat) : Bool :=
  !(s.tile t).retired && s.wgs.all (fun g => !(g.2.onTile && g.2.tile == t))

/-- The tile of a pair by its number in BALSTAT (R485). -/
def pairTile (p i : Nat) : Nat := 16 * p + i

/-- The ballast step of a tile of a pair. -/
def Pair.step (x : Pair) (i : Nat) : Nat := Table.get x.ballast 0 i

/-- The idle tile of a layer with the lowest step below 3, ties to the lowest number (R482). -/
def stepUpTile (s : State) (p layer : Nat) : Option Nat :=
  let x := s.pair p
  (span (8 * layer) 8).foldl (fun (a : Option Nat) i =>
    if tileIdle s (pairTile p i) && decide (x.step i < 3) then
      match a with
      | some j => if x.step i < x.step j then some i else some j
      | none => some i
    else a) none

/-- The tile with the highest step that is not 0, ties to the highest number (R482). -/
def stepDownTile (x : Pair) : Option Nat :=
  (List.range 16).foldl (fun (a : Option Nat) i =>
    if x.step i = 0 then a
    else
      match a with
      | some j => if x.step j ≤ x.step i then some i else some j
      | none => some i) none

/-- The difference of two currents. -/
def currentGap (a b : Nat) : Nat := (a - b) + (b - a)

/-- Whether two currents are out of balance, and whether they lie within the inner band (R481, R482). -/
def outOfBalance (a b : Nat) : Bool := decide (10 * currentGap a b > max a b)
def innerBand (a b : Nat) : Bool := decide (20 * currentGap a b < max a b)

/-- The cap of a cluster moves: to one level lower, or one level higher while below 15; the clamp clears with the cap at 15 (R483,
R488). -/
def lowerCap (s : State) (c : Nat) : State := refreshClock (s.updClk c (fun k => { k with pcap := k.pcap - 1 })) c
def raiseCap (s : State) (c : Nat) : State := refreshClock (s.updClk c (fun k => { k with pcap := min 15 (k.pcap + 1), clamp := k.clamp && decide (k.pcap < 14) })) c

/-- The step that a sample changes (R482). -/
def ballastStep (s : State) (p a b : Nat) : Option (Nat × Nat) :=
  let x := s.pair p
  if outOfBalance a b then (stepUpTile s p (if a < b then 0 else 1)).map (fun i => (i, x.step i + 1))
  else if innerBand a b then (stepDownTile x).map (fun i => (i, x.step i - 1))
  else none

/-- The runs of samples that move the caps (R483): each restarts when it has reached 100. -/
def capRuns (s : State) (p a b : Nat) : State :=
  let x := s.pair p
  if x.outRun ≥ 100 then
    lowerCap (s.setPair p { x with outRun := 0 }) (if a < b then 2 * p + 1 else 2 * p)
  else if x.inRun ≥ 100 then
    (pairClusters p).foldl (fun s c => if (s.cluster c).clk.pcap < 15 then raiseCap s c else s)
      (s.setPair p { x with inRun := 0 })
  else s

/-- A sample of the layer currents of a pair, once in every 10 ticks, in units of 0.25 A (R481-R483, R485). -/
def execBalanceSample (p ieven iodd : Nat) (s : State) : Host.Outcome State Fault Refusal :=
  let x := s.pair p
  let tick := (s.die (p / 8)).tick
  if x.gstate ≥ 3 ∨ tick % 10 ≠ 0 ∨ x.sampleAt = some tick then .next s
  else
    let a := ieven % 1024
    let b := iodd % 1024
    let change := ballastStep s p a b
    let ballast := match change with
      | some (i, n) => Table.set x.ballast i n
      | none => x.ballast
    let stuck := outOfBalance a b && change.isNone
    let x := { x with ballast := ballast, ieven := a, iodd := b, bal := !outOfBalance a b, sampled := true,
                      sampleAt := some tick }
    let x := { x with outRun := if stuck then x.outRun + 1 else 0, inRun := if innerBand a b then x.inRun + 1 else 0 }
    .next (capRuns (s.setPair p x) p a b)

/-! ### Power limits -/

/-- The clusters of a die. -/
def dieClusters (d : Nat) : List Nat := span (16 * d) 16

/-- The cluster with the greatest draw among those with resident workgroups, ties to the lowest number (R487). -/
def heaviest (s : State) (d : Nat) (draws : List Nat) : Option Nat :=
  (List.range 16).foldl (fun (a : Option Nat) i =>
    if residents s (16 * d + i) = 0 then a
    else
      match a with
      | some j => if draws.getD j 0 < draws.getD i 0 then some i else some j
      | none => some i) none

/-- PCAP rises while the clamp is in force (R488). -/
def relaxClamp (s : State) (c : Nat) : State := if (s.cluster c).clk.clamp then raiseCap s c else s

/-- The power of a die averaged over 1,000 ticks, with the draws of its clusters, once at the end of each 1,000 (R486-R488). -/
def execPowerSample (d power : Nat) (draws : List Nat) (s : State) : Host.Outcome State Fault Refusal :=
  let x := s.die d
  if x.tick % 1000 ≠ 0 ∨ x.powerAt = some x.tick then .next s
  else
    let p := sat16 power
    let s := s.setDie d { x with powerAt := some x.tick, power := p, overs := if p > x.budget then sat16 (x.overs + 1) else x.overs }
    if p > x.budget then
      match heaviest s d draws with
      | some i =>
        let c := 16 * d + i
        .next (s.updClk c (fun k => { k with plim := max 1 (residents s c - 1) }))
      | none => .next s
    else if 10 * p < 9 * x.budget then
      .next ((dieClusters d).foldl (fun s c =>
        relaxClamp (s.updClk c (fun k => { k with plim := min 256 (k.plim + 8) })) c) s)
    else .next s

/-- What the clamp does to a cluster whose level is above its fallback (R488); where that is below L8 and a
swap is in progress, a raise is dropped and a lock retargeted all the same, but no lowering begins, and no switch is made, before the
swap's end (R414) (DEDUCED, log entry 35). -/
def clampCluster (s : State) (c : Nat) : State :=
  let k := (s.cluster c).clk
  let tick := (s.die (dieOfCluster c)).tick
  let f := fallbackOf k.level
  if k.level ≤ f then s
  else
    let s := s.updClk c (fun k => { k with pcap := f, clamp := true })
    if k.cstate = 1 then trySwitch (s.updClk c (fun k => k.change 2 f tick)) c
    else if k.cstate = 2 then
      if k.aim > f then trySwitch (s.updClk c (fun k => k.change 2 f tick)) c else s
    else if k.cstate = 4 ∨ ((s.cluster c).swap.isSome = true ∧ f < 8) then s
    else trySwitch (s.updClk c (fun k => k.change 2 f tick)) c

/-- The power of a die over one tick passes 1.25 times its budget (R488). -/
def execHardClamp (d power : Nat) (s : State) : Host.Outcome State Fault Refusal :=
  let x := s.die d
  if 4 * power > 5 * x.budget then
    .next ((dieClusters d).foldl clampCluster (s.setDie d { x with hard := sat16 (x.hard + 1) }))
  else .next s

/-- A stall window of a cluster has ended with these counts of stalled and of all cycles, and RATIO is written from them (R270, R274,
R489, R506); counts that are not those of the cluster's sample name no window of it. -/
def execStallWindow (c stalled held : Nat) (s : State) : Host.Outcome State Fault Refusal :=
  .next (if (s.cluster c).sample = some (stalled, held) then writeRatio s c else s)

/-! ### Gating -/

/-- The idle count of a pair has run 2,048 ticks (R490). -/
def execGatingIdleExpiry (p : Nat) (s : State) : Host.Outcome State Fault Refusal :=
  let x := s.pair p
  let tick := (s.die (p / 8)).tick
  if x.gstate = 1 ∧ pairIdle s p ∧ x.since + 2048 ≤ tick then
    .next (s.setPair p { x with gstate := 2, since := tick })
  else .next s

/-- What a tile loses when its pair is gated (R491): its line buffer and its caches. -/
def gateTile (s : State) (t : Nat) : State :=
  let s := invalidateWhere s t (fun _ => true)
  s.setTile t { s.tile t with code := [], ranges := [], pages := [] }

/-- What a cluster loses when its pair is gated (R491): its clock state, and what its walker holds of upper levels (R300). -/
def gateCluster (s : State) (c : Nat) : State :=
  let s := s.updClk c (fun k => { k with cstate := 4, locking := false })
  s.setCluster c { s.cluster c with upper := [] }

/-- A pair is gated 20 ticks after gating began (R490, R491); a placement that waits wakes it at once (R396). -/
def execGatingDone (p : Nat) (s : State) : Host.Outcome State Fault Refusal :=
  let x := s.pair p
  let tick := (s.die (p / 8)).tick
  if x.gstate = 2 ∧ x.since + 20 ≤ tick then
    let s := (span (16 * p) 16).foldl gateTile s
    let s := (pairClusters p).foldl gateCluster s
    let placed := (pairClusters p).any (fun c => decide (residents s c > 0))
    .next (s.setPair p { x with ballast := [], gstate := if placed then 4 else 3, since := tick })
  else .next s

/-- A cluster's clock when its pair has woken: at ILEVEL (R490). -/
def wakeClock (s : State) (c : Nat) : State :=
  let s := s.updClk c (fun k =>
    { k with level := k.ilevel, aim := k.ilevel, cstate := 0, fblevel := fallbackOf k.ilevel, locking := false })
  refreshClock (s.setCluster c { s.cluster c with ratio := 0, sample := none }) c

/-- The rail is back and both generators are locked, 500 ticks after the wake began (R490). -/
def execPairWakeDone (p : Nat) (s : State) : Host.Outcome State Fault Refusal :=
  let x := s.pair p
  if x.gstate = 4 ∧ x.since + 500 ≤ (s.die (p / 8)).tick then
    let v := (pairClusters p).foldl (fun a c => max a (levelVoltage (s.cluster c).clk.ilevel)) x.pfloor
    let s := s.setPair p { x with gstate := 0, vnow := v, sampled := false, ieven := 0, iodd := 0, bal := true,
                                  outRun := 0, inRun := 0 }
    .next ((pairClusters p).foldl wakeClock s)
  else .next s

/-! ### Registers -/

/-- A write of PAIRPWR (R473): PFLOOR within 550 and 810, and GATEEN. -/
def execPairpwrWrite (p : Nat) (v : BitVec 64) (s : State) : Host.Outcome State Fault Refusal :=
  let x := s.pair p
  .next (s.setPair p { x with pfloor := min 810 (max 550 (fieldOf v 0 10)), gateen := v.getLsbD 26 })

/-- A write of DIEPWR (R486): BUDGET within 1 and 1,800. -/
def execDiepwrWrite (d : Nat) (v : BitVec 64) (s : State) : Host.Outcome State Fault Refusal :=
  let x := s.die d
  .next (s.setDie d { x with budget := min 1800 (max 1 (fieldOf v 48 16)) })

/-- A write of CLKSTAT (R478): ILEVEL alone is writable. -/
def clkstatWrite (s : State) (c : Nat) (v : BitVec 64) : State :=
  refreshClock (s.updClk c (fun k => { k with ilevel := fieldOf v 48 4 })) c

end Sys2Proof.Machine
end

