-- ==== Sys2Proof/Machine/Dispatcher.lean ====
section
/-! DEFINITION. The dispatchers of the compute dies (R391-R396, R484), gang reservations (R394), bandwidth windows (R402),
and the end of a workgroup (R388, R421, R432). -/

namespace Sys2Proof.Machine

/-! ### What is to be placed -/

/-- An item that a dispatcher may place: a gang or a single workgroup of a launch by linear indices, or the saved workgroups of
a restore request. -/
structure Item where
  key : Nat
  prio : Nat
  level : Nat
  ixs : List Nat
  uids : List Nat
deriving DecidableEq, Repr

/-- Word 0 of a launch's packet. -/
def Level.w0 (l : Level) : Reg := l.word 0

/-- The workgroups that are placed together: the members of a gang, or one (R14, R379). -/
def Level.gangSize (l : Level) : Nat := if launchGrouped l.w0 then launchGang l.w0 else 1

/-- The workgroup that a launch has dispatched with a linear index, the last one where it was dispatched again. -/
def dispatched (s : State) (id ix : Nat) : Option (Nat × Workgroup) :=
  (s.wgs.filter (fun g => g.2.level == id && g.2.wgix == ix)).getLast?

/-- Whether a workgroup of a launch has begun and not ended. -/
def running (s : State) (id ix : Nat) : Bool := (dispatched s id ix).any (fun g => g.2.status != .ended)

/-- The indices that go out again together: of the lowest gang of which no member runs any more, those that were discarded; the
others have ended and count (R276, R390; DEDUCED, log entry 29). -/
def Level.againItem (l : Level) (s : State) (id : Nat) : Option (List Nat) :=
  let n := l.gangSize
  let firsts := (l.again.map (fun x => x.1 / n * n)).filter (fun i => (span i n).all (fun j => !running s id j))
  match firsts with
  | [] => none
  | i :: r => some ((span (r.foldl min i) n).filter (fun j => l.again.any (fun x => x.1 == j)))

/-- The next item of a launch, in ascending linear index (R393). -/
def Level.item (l : Level) (s : State) (id : Nat) : Option (List Nat) :=
  if l.kind ≠ 0 ∨ l.cancelled ∨ l.complete then none
  else
    match l.againItem s id with
    | some ixs => some ixs
    | none => if l.next < l.total then some (span l.next l.gangSize) else none

/-- Whether a launch may run on a die (R379). -/
def Level.onDie (l : Level) (d : Nat) : Bool :=
  decide (launchDies l.w0 = 0) || decide (launchDies l.w0 / 2 ^ d % 2 = 1)

/-- The next item of a queue for a die (R393) (DEDUCED, log entry 29). -/
def queueItem (s : State) (d k : Nat) : Option Item :=
  (List.range s.dev.levels.length).findSome? (fun id => match s.level id with
    | some l =>
      if l.key = k ∧ l.onDie d = true then
        (l.item s id).map (fun ixs => ⟨k, (s.queue k).eprio, id, ixs, []⟩)
      else none
    | none => none)

/-- The saved workgroups that the control block asks to restore: the gang of the one it names (R441, R496). -/
def restoreGroups (s : State) : List Nat :=
  match s.dev.wcbReq with
  | some (3, slot, handle, wgix) =>
    match s.wgs.find? (fun g => g.2.status == .saved && g.2.slot == slot && g.2.handle == handle && g.2.wgix == wgix) with
    | some (u, g) => if g.gangLaunch then g.gang.filter (fun v => (s.wg v).any (fun h => h.status == .saved)) else [u]
    | none => []
  | _ => []

/-- The restore that waits, as an item, while its slot is bound (R494, R496). -/
def restoreItem (s : State) (d : Nat) : Option Item :=
  match restoreGroups s with
  | [] => none
  | u :: us =>
    match s.wg u with
    | some g =>
      let k := queueKey g.slot g.queue
      if (s.slot g.slot).v && ((s.level g.level).map (fun l => l.onDie d)).getD true then some ⟨k, (s.queue k).eprio, g.level, [], u :: us⟩
      else none
    | none => none

/-! ### Where it fits -/

/-- The workgroups on a tile. -/
def onTileOf (s : State) (t : Nat) : List Workgroup := (s.wgs.filter (fun g => g.2.onTile && g.2.tile == t)).map (·.2)

/-- The warp slots of a tile that n warps placed on it take, of 32: the lowest free ones (R392; DESIGN CHOICE, log entry 49). -/
def freeSlots (s : State) (t n : Nat) : List Nat :=
  ((List.range 32).filter (fun k => (onTileOf s t).all (fun g => !g.wslots.contains k))).take n

/-- A workgroup takes its place on a tile. -/
def Workgroup.seated (g : Workgroup) (s : State) (t : Nat) : Workgroup := { g with tile := t, wslots := freeSlots s t g.nwarps }

/-- Warps, warp-registers and scratchpad bytes that a tile's workgroups hold (R17, R392). -/
def tileWarpCount (s : State) (t : Nat) : Nat := (onTileOf s t).foldl (fun a g => a + g.nwarps) 0
def tileRegs (s : State) (t : Nat) : Nat := (onTileOf s t).foldl (fun a g => a + (8 * g.vgr + 2) * g.nwarps) 0
def tileScratch (s : State) (t : Nat) : Nat := (onTileOf s t).foldl (fun a g => a + g.spAlloc) 0

/-- The size of a workgroup: warps, vector granules, scratchpad bytes. -/
structure WgSize where
  nwarps : Nat
  vgr : Nat
  sp : Nat
deriving DecidableEq, Repr

def Level.size (l : Level) : WgSize := ⟨launchWarps l.w0, launchVgr l.w0, launchScr l.w0 * 4096⟩
def Workgroup.size (g : Workgroup) : WgSize := ⟨g.nwarps, g.vgr, g.spAlloc⟩

/-- Whether a workgroup fits a tile, the limits of the cluster apart (R392). -/
def fitsTile (s : State) (z : WgSize) (t : Nat) : Bool :=
  !(s.tile t).retired && decide (tileWarpCount s t + z.nwarps ≤ 32)
    && decide (tileRegs s t + (8 * z.vgr + 2) * z.nwarps ≤ 3072) && decide (tileScratch s t + z.sp ≤ 512 * 4096)

/-- RGL (R391). -/
def rglOf (k : Cluster) : Nat := min k.syslim k.clk.plim

/-- Whether a reservation is held for an item: for its gang, and not for a restore (R394). -/
def Reservation.isFor (x : Reservation) (i : Item) : Bool :=
  i.uids.isEmpty && x.level == i.level && i.ixs.head? == some x.first

/-- Whether a cluster takes an item: the resident-group limit, which every workgroup of it meets before any is placed, and the
reservation (R392, R394). -/
def clusterOpen (s : State) (c : Nat) (i : Item) : Bool :=
  decide (residents s c < rglOf (s.cluster c))
    && (!(s.cluster c).rsv || (s.die (dieOfCluster c)).resv.any (fun x => x.isFor i && x.cluster == c))

/-- The warps on a cluster. -/
def clusterWarps (s : State) (c : Nat) : Nat := (span (8 * c) 8).foldl (fun a t => a + tileWarpCount s t) 0

/-- The current of a cluster at the last sample, and by how much it is the lighter layer of a pair out of balance (R484). -/
def clusterCurrent (s : State) (c : Nat) : Nat := if c % 2 = 0 then (s.pair (c / 2)).ieven else (s.pair (c / 2)).iodd
def lighterBy (s : State) (c : Nat) : Nat :=
  let x := s.pair (c / 2)
  let other := if c % 2 = 0 then x.iodd else x.ieven
  if x.sampled && !x.bal then other - clusterCurrent s c else 0

/-- The dispatcher's order of clusters (R484). -/
def clusterBefore (s : State) (a b : Nat) : Bool :=
  let la := lighterBy s a
  let lb := lighterBy s b
  let ia := clusterCurrent s a
  let ib := clusterCurrent s b
  let wa := clusterWarps s a
  let wb := clusterWarps s b
  if la ≠ lb then decide (la > lb)
  else if la = 0 ∧ ia ≠ ib then decide (ia < ib)
  else if wa ≠ wb then decide (wa < wb) else decide (a < b)

/-- Put an element into its place in an ordered list, and order a list. -/
def insertBy {α : Type} (before : α → α → Bool) (x : α) : List α → List α
  | [] => [x]
  | y :: r => if before x y then x :: y :: r else y :: insertBy before x r
def orderBy {α : Type} (before : α → α → Bool) : List α → List α
  | [] => []
  | x :: r => insertBy before x (orderBy before r)

/-- The tiles of a cluster that a workgroup fits, fewest resident warps first, then the lowest TILEID (R393). -/
def tilesFor (s : State) (z : WgSize) (c : Nat) : List Nat :=
  orderBy (fun a b =>
    let x := tileWarpCount s a
    let y := tileWarpCount s b
    decide (x < y) || (decide (x = y) && decide (a < b))) ((span (8 * c) 8).filter (fitsTile s z))

/-- The tiles on which n workgroups of an item go: distinct tiles of the first cluster that takes them (R393). Where one of them is
in a swap, the placement waits until the swap ends (R410, R414). -/
def placeFor (s : State) (d : Nat) (i : Item) (z : WgSize) (n : Nat) (clusters : List Nat) : Option (List Nat) :=
  ((orderBy (clusterBefore s) (clusters.filter (fun c => dieOfCluster c == d && clusterOpen s c i))).findSome? (fun c =>
    let ts := tilesFor s z c
    if ts.length ≥ n then some (ts.take n) else none)).filter (fun ts => ts.all (fun t => !s.swapping t))

/-! ### Placing -/

/-- The free areas of a context's pool, ascending (R495). -/
def freeAreas (c : Slot) : List Nat := (List.range c.acnt).filter (fun k => !c.used.contains k)

/-- The address of an area. -/
def Slot.areaAt (c : Slot) (k : Nat) : Nat := c.abase * 4096 + k * c.asize * 4096

/-- A warp of a launch (R241, R395): its arguments and seed; a workgroup that was discarded starts at its restart records,
keeps them until a REGION replaces them, and its warps that had ended end again (R276). -/
def launchWarp (l : Level) (prio ix wp : Nat) (restart : Option (Nat × Reg)) (ended : Bool) : Warp :=
  let entry := match restart with
    | some p => p.1
    | none => (l.word 1).toNat
  let seed := l.word 6 ^^^ BitVec.ofNat 64 (16 * ix + wp)
  let w := Warp.launch (8 * launchVgr l.w0) entry
  let w := ((List.range l.args.length).zip l.args).foldl (fun w p => w.sset p.1 p.2) w
  let w := match restart with
    | some p => w.sset 63 p.2
    | none => w
  { w with sp := { w.sp with srseed := if seed = 0 then 1 else seed, prio := prio }, c := { w.c with ended := ended },
           region := restart }

/-- A workgroup of a launch at its dispatch (R13, R14, R379, R395, R495). -/
def launchGroup (l : Level) (id prio ix tile area : Nat) (gang : List Nat)
    (again : Option (Table (Nat × Reg) × List Nat)) : Workgroup :=
  let n := launchWarps l.w0
  let warps := (List.range n).map (fun wp =>
    let restart := again.bind (fun a => Table.find a.1 wp)
    (wp, launchWarp l prio ix wp restart ((again.map (fun a => a.2.contains wp)).getD false)))
  { level := id, tbp := launchTbp l.w0, exitrec := (l.word 5).toNat, vgr := launchVgr l.w0, bound := false,
    asid := l.asid, slot := l.slot, queue := l.queue, handle := l.counter, wgix := ix, wx := ix % l.gx, wy := ix / l.gx % l.gy,
    wz := ix / (l.gx * l.gy), gangix := if launchGrouped l.w0 then ix % launchGang l.w0 else 0, gang := gang,
    gangLaunch := launchGrouped l.w0, producer := launchProducer l.w0, g := [], recent := [], spAlloc := launchScr l.w0 * 4096,
    sp := [], tile := tile, area := area, status := .resident, cancelled := false, discard := false, warps := warps,
    nwarps := n, preTick := none, cancelTick := none, wslots := [] }

/-- Dispatch workgroups of a launch onto tiles, one each, with areas (R393, R395). -/
def dispatchGroups (s : State) (l : Level) (id prio : Nat) (gang : List Nat) : List (Nat × Nat × Nat × Nat) → State
  | [] => s
  | (ix, u, t, k) :: r =>
    let c := s.slot l.slot
    let again := (l.again.find? (fun x => x.1 == ix)).map (·.2)
    let s := s.setSlot l.slot { c with used := k :: c.used }
    let g := (launchGroup l id prio ix t (c.areaAt k) gang again).seated s t
    let s := s.setWg u g
    let s := if again.isSome then swapPartnerGone s g (fun d => d != dieOf t) else s
    dispatchGroups (onPlacement s t l.slot) l id prio gang r

/-- Four lists of one length, element by element. -/
def zip4 (a b c d : List Nat) : List (Nat × Nat × Nat × Nat) :=
  ((a.zip b).zip (c.zip d)).map (fun x => (x.1.1, x.1.2, x.2.1, x.2.2))

/-- Place an item of a launch, if it fits and areas are free (R393, R495). -/
def placeLaunch (s : State) (d : Nat) (x : Item) : Option State :=
  match s.level x.level with
  | none => none
  | some l =>
    let n := x.ixs.length
    let areas := (freeAreas (s.slot l.slot)).take n
    if areas.length < n then none
    else
      match placeFor s d x l.size n (dieClusters d) with
      | none => none
      | some ts =>
        let uids := span s.nextUid n
        let l' := { l with
          next := if x.ixs.contains l.next then l.next + n else l.next
          again := l.again.filter (fun a => !x.ixs.contains a.1) }
        let s := { s with nextUid := s.nextUid + n }
        let first := x.ixs.headD 0 / l.gangSize * l.gangSize
        let seat := fun (ix : Nat) => match ((x.ixs.zip uids).find? (fun p => p.1 == ix)).map (·.2) with
          | some u => u
          | none => ((dispatched s x.level ix).map (·.1)).getD 0
        let gang := if launchGrouped l.w0 then (span first l.gangSize).map seat else []
        let s := dispatchGroups s l x.level x.prio gang (zip4 x.ixs uids ts areas)
        some (settleQueue (clearReservations (s.setLevel x.level l') (fun v i => v == x.level && x.ixs.head? == some i)) x.key)

/-- The request of the control block is done (R496). -/
def wcbDone (s : State) : State := { s with dev := { s.dev with wcbState := 2, wcbCode := 0, wcbReq := none } }

/-- Place saved workgroups, on their own cluster where one holds a bound queue register (R214, R441, R496). -/
def placeSaved (s : State) (d : Nat) (x : Item) : Option State :=
  let gs := x.uids.filterMap s.wg
  let home := (gs.filter (·.bound)).map (fun g => clusterOf g.tile)
  let clusters := match home with
    | c :: _ => [c]
    | [] => dieClusters d
  match gs with
  | [] => none
  | g :: _ =>
    match placeFor s d x g.size x.uids.length clusters with
    | none => none
    | some ts =>
      some ((x.uids.zip ts).foldl (fun s p =>
        onPlacement (s.updWg p.1 (fun g => { g.seated s p.2 with status := .placed })) p.2 g.slot)
        (wcbDone s))

/-- Place an item on a die, if it fits. -/
def placeItem (s : State) (d : Nat) (x : Item) : Option State :=
  if x.uids.isEmpty then placeLaunch s d x else placeSaved s d x

/-- The queues that have a descriptor. -/
def queueKeys (s : State) : List Nat := (s.dev.queues.filter (fun q => (s.slot (q.1 / 64)).v)).map (·.1)

/-- The items of a die in the order of choice: highest EPRIO, then round-robin after the last queue served, a restore before
its queue's launches (R393) (DEDUCED, log entry 29). -/
def dieItems (s : State) (d : Nat) : List Item :=
  let last := (s.die d).lastQueue
  let rank := fun (x : Item) => (x.key + 511 - last % 512) % 512
  orderBy (fun a b =>
    if a.prio ≠ b.prio then decide (a.prio > b.prio)
    else if rank a ≠ rank b then decide (rank a < rank b) else !a.uids.isEmpty)
    ((restoreItem s d).toList ++ (queueKeys s).filterMap (queueItem s d))

/-- A gang that waits, and goes on waiting since when it did before (R394). -/
def gangWaits (x : Die) (i : Item) : GangWait :=
  let first := i.ixs.headD 0
  match Table.find x.gangWait i.key with
  | some g => if g.level = i.level ∧ g.first = first then g else ⟨i.level, first, x.tick⟩
  | none => ⟨i.level, first, x.tick⟩

/-- Since when a gang waits at the head of each queue while the die cannot place it (R394) (DEDUCED, log entry 36). -/
def countGangs (s : State) (d : Nat) : State :=
  let stuck := ((queueKeys s).filterMap (queueItem s d)).filter (fun x =>
    ((s.level x.level).map (fun l => launchGrouped l.w0)).getD false && (placeItem s d x).isNone)
  let x := s.die d
  s.setDie d { x with gangWait := stuck.foldl (fun t i => Table.set t i.key (gangWaits x i)) [] }

/-- DISPATCH_ROUND (R393): the first item that fits is placed; one queue's wait never blocks another. -/
def execDispatchRound (die : Nat) (s : State) : Host.Outcome State Fault Refusal :=
  if (s.die die).released = false then .next s
  else
    .next (countGangs (match (dieItems s die).findSome? (fun x => (placeItem s die x).map (fun t => (x.key, t))) with
      | some (k, t) => t.setDie die { t.die die with lastQueue := k }
      | none => s) die)

/-! ### Reservations -/

/-- The tiles that a gang lacks on a cluster (R394). -/
def lacks (s : State) (z : WgSize) (n c : Nat) : Nat := n - (tilesFor s z c).length

/-- The cluster of a die on which a gang lacks the fewest tiles, ties to the lowest number (R394). -/
def reserveOn (s : State) (d : Nat) (z : WgSize) (n : Nat) : Nat :=
  (dieClusters d).foldl (fun a c => if lacks s z n c < lacks s z n a then c else a) (16 * d)

/-- Whether a gang that waits is still the next item of its queue on a die (R394). -/
def stillWaits (s : State) (d k : Nat) (w : GangWait) : Bool :=
  match queueItem s d k with
  | some x => x.level == w.level && x.ixs.headD 0 == w.first
  | none => false

/-- The gang that takes the die's reservation: highest EPRIO, then the longest wait (R394) (DEDUCED, log entry 36). -/
def reservedKey (s : State) (d : Nat) : Option Nat :=
  let x := s.die d
  (x.gangWait.foldl (fun (a : Option (Nat × Nat × Nat)) e =>
    let p := (s.queue e.1).eprio
    let since := e.2.since
    if since + 10000 > x.tick ∨ stillWaits s d e.1 e.2 = false then a
    else
      match a with
      | some b => if p > b.2.1 ∨ (p = b.2.1 ∧ since < b.2.2) then some (e.1, p, since) else a
      | none => some (e.1, p, since)) none).map (·.1)

/-- GANG_RESERVATION (R394): a gang that has waited 10,000 ticks reserves a cluster of the die, which holds one reservation at
most. A reservation that the die holds stays until it is cleared, also when a gang of higher EPRIO comes to wait as long (DESIGN CHOICE,
log entry 36). -/
def execGangReservation (die : Nat) (s : State) : Host.Outcome State Fault Refusal :=
  if (s.die die).resv.isSome then .next s
  else
    match (reservedKey s die).bind (queueItem s die) with
    | some x =>
      match s.level x.level with
      | some l =>
        let c := reserveOn s die l.size x.ixs.length
        let s := s.setDie die { s.die die with resv := some ⟨x.level, x.ixs.headD 0, c⟩ }
        .next (s.setCluster c { s.cluster c with rsv := true })
      | none => .next s
    | none => .next s

/-- BANDWIDTH_WINDOW (R402): a window of a channel or port ends, and its counts start anew. -/
def execBandwidthWindow (resource : Nat) (s : State) : Host.Outcome State Fault Refusal :=
  .next { s with dev := { s.dev with served := s.dev.served.filter (fun x => x.1 / 1024 != resource) } }

/-! ### The end of a workgroup -/

/-- Matrix instructions of a workgroup that ends with error stop: its teams are lost, its products leave the engine (R237,
R421). -/
def stopMatrices (s : State) (u : Nat) (g : Workgroup) : State :=
  g.warps.foldl (fun s x =>
    match x.2.mat with
    | some m =>
      match m.team with
      | some (_, id) => stopMatrix (loseTeam s (clusterOf g.tile) id) ⟨u, x.1⟩
      | none => stopMatrix s ⟨u, x.1⟩
    | none => s) s

/-- Whether everything that a workgroup started has ended: accesses, matrix instructions, copies, remote writes (R388,
R421). -/
def quiet (s : State) (u : Nat) (g : Workgroup) : Bool :=
  g.warps.all (fun x => x.2.outs.isEmpty && x.2.mat.isNone && decide (x.2.remote = 0))
    && s.dev.copies.all (fun c => c.2.w.wg != u)

/-- What the exit record of a workgroup says (R421, R432) (DEDUCED, log entry 13). -/
def exitInfo (g : Workgroup) : ExitInfo :=
  let fm := g.warps.map (fun x => x.2.c.fmask.toNat)
  match g.status with
  | .error cause wp pc kind addr => ⟨g.wgix, cause, g.nwarps, true, g.cancelled, kind, wp, addr.toNat, pc, fm⟩
  | _ => ⟨g.wgix, 0, g.nwarps, false, g.cancelled, 0, ((g.warps.find? (fun x => x.2.c.fmask != 0)).map (·.1)).getD 0,
      0, 0, fm⟩

/-- The area of a workgroup is free again (R495). -/
def freeArea (s : State) (g : Workgroup) : State :=
  let c := s.slot g.slot
  s.setSlot g.slot { c with used := c.used.filter (fun k => c.areaAt k != g.area) }

/-- A workgroup is no more: its area is free, and its context may have left the tile (R286, R388, R495). -/
def removeGroup (s : State) (u : Nat) (g : Workgroup) (onTile : Bool) : State :=
  let asid := s.asidOf g
  let s := freeArea (s.setWg u { g with status := .ended, warps := [], sp := [], g := [] }) g
  if onTile then afterLeaving s g.tile g.slot asid else s

/-- A workgroup ends: it is no more, and warps that wait to exchange with one of its warps take the exchange fault (R152). -/
def endGroup (s : State) (u : Nat) (g : Workgroup) (onTile : Bool) : State :=
  swapPartnerGone (removeGroup s u g onTile) g (fun _ => true)

/-- A workgroup is counted: 1 in DONE, and 1 in ERR where it ended with error or its level was cancelled (R388, R389). -/
def countGroup (s : State) (g : Workgroup) (err : Bool) : IoRes State :=
  count s (queueKey g.slot g.queue) g.level 1 (if err || g.cancelled then 1 else 0)

/-- Requests of the control block for a workgroup that has gone are done (R496). -/
def wcbSettle (s : State) (g : Workgroup) : State :=
  let mine := s.dev.wcbReq.any (fun r => r.1 ≤ 2 && r.2.1 == g.slot && r.2.2.1 == g.handle)
  let left := s.wgs.any (fun h => h.2.slot == g.slot && h.2.handle == g.handle && h.2.preTick.isSome && h.2.onTile)
  if mine && !left then wcbDone s else s

/-! ### Requests of the control block -/

/-- The request registers, with what became of the request (R496): one in progress keeps its fields, whatever the registers
are written meanwhile (DEDUCED, log entry 33). -/
def wcbWrite (s : State) (op slot handle wgix st code : Nat) : State :=
  { s with dev := { s.dev with wcbOp := op, wcbSlot := slot % 8, wcbHandle := handle % 2 ^ 48, wcbWgix := wgix % 2 ^ 64,
                               wcbState := st, wcbCode := code,
                               wcbReq := if st = 1 then some (op, slot % 8, handle % 2 ^ 48, wgix % 2 ^ 64) else none } }

/-- What became of the request, its registers as they stand (R496). -/
def wcbAnswer (s : State) (r : Nat × Nat × Nat × Nat) (st code : Nat) : State :=
  { s with dev := { s.dev with wcbState := st, wcbCode := code, wcbReq := if st = 1 then some r else none } }

/-- The workgroup that a request names, the last dispatched of those that have not ended. -/
def wcbTarget (s : State) (slot handle wgix : Nat) : Option (Nat × Workgroup) :=
  s.wgs.foldl (fun a g =>
    if g.2.slot = slot % 8 ∧ g.2.handle = handle % 2 ^ 48 ∧ g.2.wgix = wgix % 2 ^ 64 ∧ g.2.status ≠ .ended then some g
    else a) none

/-- OP 4 on a saved workgroup (R443): its exit record, with the FMASK values of its image, and its count as one cancelled. A
page that misses is waited for before anything is done, the request in progress (DEDUCED, log entry 33). -/
def endSaved (s : State) (r : Nat × Nat × Nat × Nat) (u : Nat) (g : Workgroup) : State :=
  let k := queueKey g.slot g.queue
  let x : ExitInfo := ⟨g.wgix, 0x30, g.nwarps, true, true, 0, 0, 0, 0, g.warps.map (fun w => w.2.c.fmask.toNat)⟩
  match (exitRecord s g x).andThen (fun s => countGroup s g true) with
  | .ok s' => endGroup (wcbAnswer (afterIo s' k g.handle (u + 1) (.ok s')) r 2 0) u g false
  | .miss p a => queueMiss (wcbAnswer s r 1 0) k p a g.handle (u + 1)
  | .bad code => endGroup (wcbAnswer (s.stopQueue k code) r 2 0) u g false

/-- The OP 4 that waits for a page goes on once its queue has its reply (R443, R496). -/
def wcbResume (s : State) : State :=
  match s.dev.wcbReq with
  | some (4, slot, handle, wgix) =>
    let r := (4, slot, handle, wgix)
    match wcbTarget s slot handle wgix with
    | none => wcbAnswer s r 2 1
    | some (u, g) =>
      if g.status ≠ .saved then wcbAnswer s r 2 2
      else if (s.queue (queueKey g.slot g.queue)).waitTag.isSome then s
      else endSaved s r u g
  | _ => s

/-- Every warp of an ending workgroup leaves its convoys (R368, R388). -/
def leaveConvoys (s : State) (u : Nat) (g : Workgroup) : State :=
  g.warps.foldl (fun s x => leaveAll s (dieOf g.tile) ⟨u, x.1⟩) s

/-- Whether the leaves or detaches of a workgroup's warps come too late for this tick (R373). -/
def leavesLate (s : State) (u : Nat) (g : Workgroup) (cls : Nat) : Bool :=
  g.warps.any (fun x => s.leavesPast (dieOf g.tile) cls ⟨u, x.1⟩)

/-- The dirty lines of a workgroup's context leave its tile for their channels, as requests of its queue (R286, R388, R402). -/
def writeBackGroup (s : State) (u : Nat) (g : Workgroup) : State :=
  s.onBehalf ⟨u, 0⟩ (fun s => writeBackWhere s g.tile (fun l => l.asid == s.asidOf g))

/-- WORKGROUP_END (R388, R421): once its warps have ended, or it ends with error, and all that it started has ended, its
dirty lines are written back, its exit record is written and it is counted. A counter that cannot be written stops the
queue. -/
def execWorkgroupEnd (wg : Nat) (s : State) : Host.Outcome State Fault Refusal :=
  .next (match s.wg wg with
    | none => s
    | some g0 =>
      let err := match g0.status with
        | .error _ _ _ _ _ => true
        | _ => false
      let s1 := if err then stopMatrices s wg g0 else s
      match s1.wg wg with
      | none => s
      | some g =>
        let over_ := (g.status == .resident && !g.discard && g.warps.all (fun x => x.2.c.ended)) || err
        if over_ && quiet s1 wg g && !s.swapping g.tile && !leavesLate s1 wg g 1 then
          let k := queueKey g.slot g.queue
          let s2 := leaveConvoys (writeBackGroup s1 wg g) wg g
          if !(s2.tile g.tile).unacked.isEmpty then s2 else
          let gone := fun (s : State) => wcbSettle (endGroup s wg g true) g
          match exitRecord s2 g (exitInfo g) with
          | .miss p a => queueMiss s k p a g.handle (wg + 1)
          | .bad _ => s
          | .ok s3 =>
            match countGroup s3 g err with
            | .miss p a => queueMiss s k p a g.handle (wg + 1)
            | .bad code => gone (afterIo s3 k g.handle (wg + 1) (.bad code))
            | .ok s4 => gone (afterIo s4 k g.handle (wg + 1) (.ok s4))
        else s)

end Sys2Proof.Machine
end

