-- ==== Sys2Proof/Machine/Rotation.lean ====
section
/-! DEFINITION. Rotation swaps of a cluster (R407-R418): the choice at an interval tick, quiesce, transfer, write-back and
resumption. Writes that reach a moved workgroup's scratchpad name it by handle, so they land where it resides (R416,
R417). -/

namespace Sys2Proof.Machine

/-- Change a cluster. -/
def State.updCluster (s : State) (c : Nat) (f : Cluster → Cluster) : State := s.setCluster c (f (s.cluster c))

/-- Whether a tile may take part in a swap: not retired, and no switch-out, restore, discard or placement of this tick on it
(R410). A switch-out is in progress from its pre-empt request on (DESIGN CHOICE, log entry 35). -/
def swapEligible (s : State) (t : Nat) : Bool :=
  !(s.tile t).retired && (s.tile t).placed != some (s.die (dieOf t)).tick && (onTileOf s t).all (fun g =>
    g.preTick.isNone && !g.discard && g.status != .placed)

/-- The tiles of a cluster that are eligible at an interval tick (R410). -/
def swapTiles (s : State) (c : Nat) : List Nat := (span (8 * c) 8).filter (swapEligible s)

/-- The tile with the greatest, or the least, temperature, ties to the lowest number. -/
def hottest (temps : List Nat) : List Nat → Option Nat
  | [] => none
  | t :: r => some (r.foldl (fun a x => if temps.getD (x % 8) 0 > temps.getD (a % 8) 0 then x else a) t)
def coolest (temps : List Nat) : List Nat → Option Nat
  | [] => none
  | t :: r => some (r.foldl (fun a x => if temps.getD (x % 8) 0 < temps.getD (a % 8) 0 then x else a) t)

/-- The swap that the controller chooses among the tiles of the interval that are still eligible (R410). -/
def chooseSwap (s : State) (c : Nat) (temps elig : List Nat) : Option (Nat × Nat) :=
  let e := elig.filter (fun t => !(s.tile t).retired)
  match hottest temps (e.filter (fun t => !(onTileOf s t).isEmpty)) with
  | none => none
  | some h =>
    match coolest temps (e.filter (fun t => t != h)) with
    | none => none
    | some k =>
      if temps.getD (h % 8) 0 < temps.getD (k % 8) 0 + (s.cluster c).thresh then none else some (h, k)

/-- Change the member records of the workgroups on two tiles (R366). -/
def updMovedMembers (s : State) (h k : Nat) (f : Member → Member) : State :=
  let d := dieOf h
  let mine := fun (m : Member) => match s.wg m.w.wg with
    | some g => g.tile == h || g.tile == k
    | none => false
  s.setDie d { s.die d with slots := (s.die d).slots.map (fun x =>
    (x.1, { x.2 with members := x.2.members.map (fun m => if mine m then f m else m) })) }

/-- Start swap n of an interval among its eligible tiles, if its turn has come and the choice gives one (R409, R410, R418). Its HOT and
COOL are written here and stay if the swap is abandoned (DESIGN CHOICE, log entry 35). -/
def startSwap (s : State) (c n : Nat) (temps elig : List Nat) : State :=
  let k := s.cluster c
  match if n < k.maxsw then chooseSwap s c temps elig else none with
  | none => trySwitch (refreshClock (s.setCluster c { k with swap := none }) c) c
  | some (h, t) =>
    let x : Swap := ⟨h, t, .quiesce, (s.die (dieOfCluster c)).tick, false, false, n, temps, elig.filter (fun u => u != h && u != t)⟩
    let k := { k with swap := some x, nlast := n + 1 }
    let k := if n = 0 then { k with hot0 := h % 8, cool0 := t % 8 } else { k with hot1 := h % 8, cool1 := t % 8 }
    updMovedMembers (s.setCluster c k) h t (fun m => { m with mig := true })

/-- ROTATION_INTERVAL (R407, R410): once at every 100,000th tick, with the controller enabled, the pair powered and the level at
L8 or above. -/
def execRotationInterval (cluster : Nat) (temps : List Nat) (s : State) : Host.Outcome State Fault Refusal :=
  let k := s.cluster cluster
  let tick := (s.die (dieOfCluster cluster)).tick
  if tick = 0 ∨ tick % 100000 ≠ 0 ∨ k.interval = tick ∨ k.swap.isSome = true then .next s
  else
    let s := s.setCluster cluster { k with nlast := 0, interval := tick }
    if k.roten = false ∨ (s.pair (pairOf cluster)).gstate ≥ 2 ∨ k.clk.level < 8 then .next s
    else .next (startSwap s cluster 0 temps (swapTiles s cluster))

/-- A warp resumes: its header is evaluated again before the word at its index, and its loop body is fetched again (R59, R176, R411). -/
def Warp.resume (w : Warp) : Warp :=
  let p := w.c.pos
  { w with c := { w.c with lbuf := [], pos := if p.mode = .body then { p with mode := .flow } else p } }

/-- A moved warp resumes. A barrier, batch or fence that waits is issued again, its place having been saved; an exchange keeps its
arrival, a hold its clock, and waits for a tick, a counter, a pipe, a reply or the outside run on (R153, R366, R412, R414, R417). -/
def Warp.afterSwap (w : Warp) : Warp :=
  let w := w.resume
  match w.c.wait with
  | .bar _ | .tb _ _ _ | .batch _ | .remote => { w with c := { w.c with wait := .none } }
  | _ => w

/-- The members that came to be detached while they were moved, detached now (R364, R418). -/
def detachPending (s : State) (d : Nat) : State :=
  (s.die d).slots.foldl (fun s x => x.2.members.foldl (fun s m =>
    if m.pendingDetach && !m.mig then detachMember s d m.w m.n else s) s) s

/-- The warps of two tiles. -/
def warpsOn (s : State) (a b : Nat) : List WRef :=
  s.wgs.flatMap (fun g => if g.2.onTile && (g.2.tile == a || g.2.tile == b) then g.2.warps.map (fun w => ⟨g.1, w.1⟩) else [])

/-- Every stream of a warp starts its prefetch again (R411). -/
def restartPrefetch (s : State) (r : WRef) : State :=
  (List.range 8).foldl (fun s n => match s.wg r.wg, s.warp r with
    | some g, some w =>
      let q := prefetch s r g w n
      q.1.updWarp r (fun _ => q.2)
    | _, _ => s) s

/-- What had to wait for the end of a swap: pairs of exchanges (R417), and entries, or the fault of their pipe, for waiting QPOPs
(R212, R414). -/
def afterMove (s : State) (c : Nat) (rs : List WRef) : State :=
  let s := rs.foldl (fun s r => pairSwap (restartPrefetch s r) r) s
  (List.range 64).foldl (fun s k => settlePipe s c k) s

/-- A swap is over: its warps go on, deferred events can happen, and the interval's next swap starts (R410, R413, R414). -/
def endRotation (s : State) (c : Nat) (x : Swap) : State :=
  let s := updMovedMembers s x.hot x.cool (fun m => { m with mig := false })
  let s := { s with wgs := s.wgs.map (fun (g : Nat × Workgroup) =>
    if g.2.tile = x.hot ∨ g.2.tile = x.cool then
      (g.1, { g.2 with warps := g.2.warps.map (fun (w : Nat × Warp) => (w.1, w.2.afterSwap)) })
    else g) }
  let s := s.setCluster c { s.cluster c with swap := none }
  let s := afterMove s c (warpsOn s x.hot x.cool)
  startSwap (detachPending s (dieOfCluster c)) c (x.index + 1) x.temps x.elig

/-- A swap is abandoned (R413, R414): nothing is moved, and it counts toward MAXSW. -/
def abandonSwap (s : State) (c : Nat) (x : Swap) : State :=
  endRotation (s.updCluster c (fun k => { k with aborts := sat16 (k.aborts + 1) })) c x

/-- Whether a warp's accesses have completed, the exchange of a PUBLISH among them; its matrix instruction moves with it (R189,
R199, R233, R413). -/
def Warp.quiesced (w : Warp) : Bool :=
  (match w.c.wait with
    | .publish _ _ _ => false
    | _ => true) && w.outs.all (fun o => match w.mat with
    | some m => o.id == m.opId
    | none => false)

/-- The write-back of a swap begins (R286, R336, R411, R413): the lines of the moved contexts are written back and leave
both tiles, and the warps' prefetched vectors are discarded. -/
def sendMoved (s : State) (x : Swap) : State :=
  let asids := (onTileOf s x.hot ++ onTileOf s x.cool).map s.asidOf
  let mine := fun (l : Line) => asids.contains l.asid
  let s := invalidateWhere (invalidateWhere s x.hot mine) x.cool mine
  { s with wgs := s.wgs.map (fun (g : Nat × Workgroup) =>
      if g.2.tile = x.hot ∨ g.2.tile = x.cool then
        (g.1, { g.2 with warps := g.2.warps.map (fun (w : Nat × Warp) => (w.1, w.2.dropPrefetch)) })
      else g) }

/-- SWAP_QUIESCE_END (R413): within the 300 ticks of the quiesce; the cluster's link is at full width before the transfer starts (R453). -/
def execSwapQuiesceEnd (cluster : Nat) (s : State) : Host.Outcome State Fault Refusal :=
  match (s.cluster cluster).swap with
  | some x =>
    let still := (onTileOf s x.hot ++ onTileOf s x.cool).all (fun g => g.warps.all (fun w =>
      w.2.quiesced && !(canRun g w.2 && w.2.faultDue)))
    if x.phase = .quiesce ∧ still = true ∧ (s.die (dieOfCluster cluster)).tick ≤ x.start + 302 then
      .next ((sendMoved s x).updCluster cluster (fun k =>
        { k with swap := some { x with phase := .transfer }, link := { k.link with width := 4, handshake := none } }))
    else .next s
  | none => .next s

/-- SWAP_QUIESCE_TIMEOUT (R413): 300 ticks after the decision's two. -/
def execSwapQuiesceTimeout (cluster : Nat) (s : State) : Host.Outcome State Fault Refusal :=
  match (s.cluster cluster).swap with
  | some x =>
    if x.phase = .quiesce ∧ x.start + 302 ≤ (s.die (dieOfCluster cluster)).tick then .next (abandonSwap s cluster x)
    else .next s
  | none => .next s

/-- The copies that a tile's streamer has started, and those it has not. -/
def startedCopies (s : State) (t : Nat) : List Nat :=
  (s.tile t).copies.filter (fun i => ((s.copy i).map (·.started)).getD false)
def queuedCopies (s : State) (t : Nat) : List Nat :=
  (s.tile t).copies.filter (fun i => !((s.copy i).map (·.started)).getD false)

/-- Queued copies belong to another tile's streamer now (DEDUCED, log entry 35); the cycles since their issue are counted on
(R506). -/
def moveCopies (s : State) (t : Nat) (ids : List Nat) : State :=
  ids.foldl (fun s i => match s.copy i with
    | some c => s.setCopy { c with tile := t, born := (s.tile t).cycle - ((s.tile c.tile).cycle - c.born) }
    | none => s) s

/-- The residencies of two tiles are exchanged (R411, R415): workgroups, the engine's instructions, queued copies; copies in
progress stay with their streamer, at its forwarding places, with no bound on their number (DESIGN CHOICE, log entry 35). -/
def exchangeTiles (s : State) (a b : Nat) : State :=
  let ta := s.tile a
  let tb := s.tile b
  let qa := queuedCopies s a
  let qb := queuedCopies s b
  let fa := startedCopies s a
  let fb := startedCopies s b
  let s := s.setTile a { ta with engine := tb.engine, copies := qb, forward := ta.forward ++ fa }
  let s := s.setTile b { tb with engine := ta.engine, copies := qa, forward := tb.forward ++ fb }
  let s := moveCopies (moveCopies s b qa) a qb
  { s with wgs := s.wgs.map (fun g =>
      if g.2.onTile && g.2.tile == a then (g.1, { g.2 with tile := b, recent := [] })
      else if g.2.onTile && g.2.tile == b then (g.1, { g.2 with tile := a, recent := [] }) else g) }

/-- SWAP_TRANSFER_END (R413, R416). -/
def execSwapTransferEnd (cluster : Nat) (s : State) : Host.Outcome State Fault Refusal :=
  match (s.cluster cluster).swap with
  | some x =>
    if x.phase = .transfer ∧ x.moved = false then
      .next ((exchangeTiles s x.hot x.cool).updCluster cluster (fun k => { k with swap := some { x with moved := true } }))
    else .next s
  | none => .next s

/-- SWAP_WRITEBACK_END (R336, R341, R413): the write-backs of both tiles are acknowledged, and so are the warps' remote
writes. -/
def execSwapWritebackEnd (cluster : Nat) (s : State) : Host.Outcome State Fault Refusal :=
  match (s.cluster cluster).swap with
  | some x =>
    let gs := onTileOf s x.hot ++ onTileOf s x.cool
    let acked := gs.all (fun g => g.warps.all (fun w => decide (w.2.remote = 0))) && (s.tile x.hot).unacked.isEmpty
      && (s.tile x.cool).unacked.isEmpty
    if x.phase = .transfer ∧ x.written = false ∧ acked = true then
      .next (s.updCluster cluster (fun k => { k with swap := some { x with written := true } }))
    else .next s
  | none => .next s

/-- SWAP_END (R413): the swap is counted, and the warps resume on their tiles. -/
def execSwapEnd (cluster : Nat) (s : State) : Host.Outcome State Fault Refusal :=
  match (s.cluster cluster).swap with
  | some x =>
    if x.phase = .transfer ∧ x.moved = true ∧ x.written = true then
      .next (endRotation (s.updCluster cluster (fun k => { k with swaps := sat16 (k.swaps + 1) })) cluster x)
    else .next s
  | none => .next s

/-- ROTCTL_WRITE (R408). -/
def execRotctlWrite (cluster : Nat) (v : BitVec 64) (s : State) : Host.Outcome State Fault Refusal :=
  .next (s.updCluster cluster (fun k =>
    { k with thresh := max 1 (fieldOf v 16 8), maxsw := min 2 (fieldOf v 12 2), roten := v.getLsbD 0 }))

end Sys2Proof.Machine
end

