-- ==== Sys2Proof/Machine/MemEvents.lean ====
section
/-! DEFINITION. What happens in the memory hierarchy beside the accesses of instructions: merge points (R288, R289), atomic
units (R327), walkers and translation caches (R299, R300), stores of the management cores (R342), and errors of memory,
SRAM, links and ports (R301, R302, R450, R508, R509). -/

namespace Sys2Proof.Machine

/-! ### Merge points and atomic units -/

/-- Whether a run of bytes lies in this device's base memory, in one line, outside the trimmed pages (R291, R293). -/
def inBase (pa n : Nat) : Bool :=
  decide (pa < 2 ^ 38) && decide ((pa / 2 ^ 12) % 2 ^ 24 ≠ 0xFFFFFF) && decide (pa % 128 + n ≤ 128)

/-- MERGE_POINT_READ (R288). -/
def execMergePointRead (tile line : Nat) (s : State) : Host.Outcome State Fault Refusal := .next (mergeRead s tile line)

/-- MERGE_POINT_WRITE (R289). -/
def execMergePointWrite (line : Nat) (mask : BitVec 128) (data : BitVec 1024) (s : State) :
    Host.Outcome State Fault Refusal :=
  .next (if inBase (line * 128) 128 then chanWriteLine s line mask data else s)

/-- The read of an input queue that takes the next place: the first that no later one precedes, by the PRIO at this moment (R401, R403, R406). -/
def nextWaiting (s : State) (k : Nat) : List MergeWait → Option MergeWait
  | [] => none
  | w :: r =>
    match nextWaiting s k r with
    | some v =>
      some (if servedBefore s k (v.queue, s.prioNow v.agent v.prio) (w.queue, s.prioNow w.agent w.prio) then v else w)
    | none => some w

/-- A read that leaves an input queue: its wait is counted for the cluster of its tile (R506), and the line for its stream (R290). -/
def countAdmitted (s : State) (k : Nat) (w : MergeWait) (attached : Bool) : State :=
  let s := if w.tile < 512 then s.countEvent (clusterOf w.tile) 3 ((s.die (k / 48)).tick - w.born) 1 else s
  match w.count with
  | some (r, n) => s.updWarp r (fun x => x.countLine n attached)
  | none => s

/-- Reads of an input queue take their places in the table while it has room for the next of them (R288). -/
def admitReads (s : State) (k : Nat) : Nat → State
  | 0 => s
  | n + 1 =>
    let m := Table.get s.wadi MergePoint.reset k
    match nextWaiting s k m.queue with
    | none => s
    | some w =>
      match mergeAttach { m with queue := m.queue.erase w } w with
      | (_, none) => s
      | (m', some attached) => admitReads (countAdmitted { s with wadi := Table.set s.wadi k m' } k w attached) k n

/-- The entries that are the first of their lines (R289). -/
def firstOfLines (es : List MergeEntry) : List MergeEntry :=
  es.foldl (fun acc e => if acc.any (fun x => x.line == e.line) then acc else acc ++ [e]) []

/-- The first of some entries that no later one precedes, by the PRIO at this moment (R401, R403). -/
def firstServed (s : State) (k : Nat) : List MergeEntry → Option MergeEntry
  | [] => none
  | e :: r =>
    match firstServed s k r with
    | some x =>
      some (if servedBefore s k (x.queue, s.prioNow x.agent x.prio) (e.queue, s.prioNow e.agent e.prio) then x else e)
    | none => some e

/-- The entry of a merge point that its channel serves next (R289, R403). -/
def nextServed (s : State) (k : Nat) (es : List MergeEntry) : Option MergeEntry := firstServed s k (firstOfLines es)

/-- The first entry of a line leaves. -/
def dropEntry (line : Nat) : List MergeEntry → List MergeEntry
  | [] => []
  | e :: r => if e.line = line then r else e :: dropEntry line r

/-- DRAM_RETURN: the channel has served the line, which is the next in the order of R403, its oldest entry is freed, and reads that
wait take places (R288); the count of the window has one more of the entry's queue (R402). A return stands for the service too
(DEDUCED, log entry 24). -/
def execDramReturn (line : Nat) (s : State) : Host.Outcome State Fault Refusal :=
  let k := mergePointOf line
  let m := Table.get s.wadi MergePoint.reset k
  .next (match nextServed s k m.entries with
    | some e =>
      if spaceOf (line * 128) = 0 ∧ e.line = line then
        let s := { s with wadi := Table.set s.wadi k { m with entries := dropEntry line m.entries } }
        let d := s.dev
        let key := 1024 * k + e.queue
        admitReads { s with dev := { d with served := Table.set d.served key (Table.get d.served 0 key + 1) } } k m.queue.length
      else s
    | none => s)

/-- Whether an atomic operation works at a width: .FADD on 4 bytes, .BFADD on 2, the others on 4 or 8 (R74, R191, R194). -/
def atomWidthOk (op : BitVec 4) (n : Nat) : Bool :=
  if op.toNat < 0xA then n == 4 || n == 8 else if op.toNat = 0xA then n == 4 else op.toNat == 0xB && n == 2

/-- An atomic of n bytes at the channel's atomic unit (R190, R327). -/
def unitAtomic (s : State) (pa n : Nat) (op : BitVec 4) (v : Nat) : State :=
  chanWrite s pa n (atomNew op (8 * n) (chanRead s pa n) (v % 2 ^ (8 * n)))

/-- ATOMIC_UNIT_REQUEST (R327). -/
def execAtomicUnitRequest (pa : Nat) (op : BitVec 4) (size : Nat) (v : BitVec 64) (s : State) :
    Host.Outcome State Fault Refusal :=
  .next (if inBase pa size && atomWidthOk op size && pa % size == 0 then unitAtomic s pa size op v.toNat else s)

/-- MANAGEMENT_CORE_STORE (R342). -/
def execManagementCoreStore (pa size : Nat) (v : BitVec 64) (s : State) : Host.Outcome State Fault Refusal :=
  .next (if inBase pa size && decide (size ≤ 8) then chanWrite s pa size v.toNat else s)

/-! ### Walks -/

/-- The bound slot of a context (R494). -/
def slotOfContext (s : State) (asid : Nat) : Option Slot :=
  (s.slots.find? (fun c => c.2.v && c.2.asid == asid)).map (·.2)

/-- PAGE_WALK_START: misses of one context and page share a walk; a walker runs the first 64, less those whose message the full fault
ring keeps waiting, and the others wait in order of arrival (R300, R501). -/
def execPageWalkStart (cluster asid vpn acc : Nat) (s : State) : Host.Outcome State Fault Refusal :=
  .next (listWalk s cluster asid vpn acc)

/-- The walks of a walker once one has ended: the one that waits longest starts (R300). -/
def nextWalk (ws : List Walk) (here : Walk → Bool) (room now : Nat) : List Walk :=
  let left := ws.filter (fun x => !here x)
  left.take (room - 1) ++ ((left.drop (room - 1)).take 1).map (fun x => { x with born := now }) ++ left.drop room

/-- What a walker reads above the leaf for a page is kept, if each entry can be read; the entries are read through the Wadi for the
first tile of the cluster (R298, R300, R301). -/
def walkUpper (s : State) (cluster asid va root : Nat) : State :=
  let known := (s.cluster cluster).upper
  let lines := walkReads s known asid va root 4
  let leaf := walkFrom s known asid va root 4
  let s := readLines s (8 * cluster) (untilBad s.dev.badLines lines)
  match leaf, anyBad s lines with
  | some (_, us), false => s.updCluster cluster (fun k => { k with upper := us.filter (fun u => !known.contains u) ++ known })
  | _, _ => s

/-- PAGE_WALK_END: the walk's time is counted, and what it read above the leaf is kept (R299, R300, R506). The miss of a
walk that stopped is sent to the management cores by the access that met it. -/
def execPageWalkEnd (cluster asid vpn : Nat) (s : State) : Host.Outcome State Fault Refusal :=
  let here := fun (w : Walk) => w.asid == asid && w.vpn == vpn
  let now := (s.die (dieOfCluster cluster)).tick
  .next (match ((s.cluster cluster).walks.take (walkRoom s cluster)).find? here with
    | some w =>
      let s := s.updCluster cluster (fun k => { k with walks := nextWalk k.walks here (walkRoom s cluster) now })
      let s := s.countEvent cluster 4 (now - w.born) 1
      match slotOfContext s asid with
      | some c => walkUpper s cluster asid (vpn * 4096) (c.ptroot * 4096)
      | none => s
    | none => s)

/-- A tile forgets the translations of a context. -/
def Tile.forget (t : Tile) (asid : Nat) : Tile :=
  { t with ranges := Table.del t.ranges asid, pages := t.pages.filter (fun p => p.asid != asid) }

/-- A tile's instruction cache forgets a context (R287). -/
def Tile.forgetCode (t : Tile) (asid : Nat) : Tile := { t with code := t.code.filter (fun c => c.asid != asid) }

/-- Kinds of structure of the error log: the rows of R301 from 1 (R508). -/
def kindSram : Nat := 1
def kindClean : Nat := 2
def kindDirty : Nat := 3
def kindMemory : Nat := 4
def kindLink : Nat := 5

/-- A lasting error is logged, then the retirement it leads to (R508, R509). -/
def logRetired (s : State) (addr kind unit asid : Nat) : State :=
  (s.logError addr kind unit logLasting asid).logError addr kind unit logRetirement asid

/-- Whether a retired page has left the mappings of every context that has a slot (R302, R494); those of one without a slot are removed in its
tables (bindSlot). -/
def leftMappings (s : State) (page : Nat) : Bool :=
  s.slots.all (fun c => !c.2.v || (Table.get s.dev.unmapped [] c.2.asid).contains page)

/-- The retirements of pages that have left every mapping get their entries in the log (R509; DEDUCED, log entry 25). -/
def settleRetired (s : State) : State :=
  (s.dev.retiring.filter (fun pa => leftMappings s (pa / 4096))).foldl (fun s pa =>
    { s with dev := { s.dev with retiring := s.dev.retiring.erase pa } }.logError pa kindMemory (pa / 2 ^ 36 % 4) logRetirement 0) s

/-- TRANSLATION_INVALIDATE: every tile and walker of the device forgets the context's translations (R300), every instruction cache
its code (R287; DEDUCED, log entry 39), and the pages retired so far have left the context's mappings (R302); those that have now left
every mapping are logged as retired (R509). -/
def execTranslationInvalidate (asid : Nat) (s : State) : Host.Outcome State Fault Refusal :=
  .next (settleRetired { s with
    dev := { s.dev with unmapped := Table.set s.dev.unmapped asid s.dev.badPages }
    tiles := s.tiles.map (fun (t : Nat × Tile) => (t.1, (t.2.forget asid).forgetCode asid))
    clusters := s.clusters.map (fun (k : Nat × Cluster) =>
      (k.1, { k.2 with upper := k.2.upper.filter (fun u => u.asid != asid) })) })

/-! ### Errors -/

/-- ECC_ERROR: a single-bit error is corrected; a double-bit error is read again, and where it lasts the line gives data
errors and its page is retired (R301, R302), with its entry in the log once every mapping of it is removed (R509). -/
def execEccError (pa : Nat) (double lasting : Bool) (s : State) : Host.Outcome State Fault Refusal :=
  let die := pa / 2 ^ 36 % 4
  let put := fun (l : List Nat) (x : Nat) => if l.contains x then l else x :: l
  .next (if !inBase (pa / 128 * 128) 128 then s
    else if !double then s.logError pa kindMemory die logCorrected 0
    else if !lasting then s.logError pa kindMemory die logSoft 0
    else
      let known := s.dev.badPages.contains (pa / 4096)
      let s := { s with dev := { s.dev with
        badLines := put s.dev.badLines (lineOf pa)
        badPages := put s.dev.badPages (pa / 4096)
        retiring := if known then s.dev.retiring else s.dev.retiring ++ [pa] } }
      settleRetired (s.logError pa kindMemory die logLasting 0))

/-- A way of a set of the line buffer is retired; lines that have no place leave (R301). -/
def retireWay (s : State) (t set : Nat) : State :=
  let x := s.tile t
  let s := s.setTile t { x with badWays := Table.set x.badWays set (min 16 (Table.get x.badWays 0 set + 1)) }
  let kept := (s.tile t).lines.filter (fun l => l.line % 64 == set)
  (kept.drop ((s.tile t).waysOf set)).foldl (fun s l => invalidateLine s t l.line) s

/-- A workgroup ends with an error of its tile, which no warp raised: the warp and the position of its exit record are not
stated, and are free values (R301, R432; DESIGN CHOICE, log entry 2). -/
def endByTile (s : State) (u code : Nat) : State :=
  match s.wg u with
  | some g =>
    let wp := s.draw
    let pc := wp.2.draw
    endWithError pc.2 u code (wp.1.toNat % g.nwarps) pc.1.toNat 0 0
  | none => s

/-- Register file and scratchpad: the workgroup ends with error, and the tile is retired; a swap that its cluster prepares is
abandoned (R301, R421). They have no physical address, and ADDR of their entries is 0 (DESIGN CHOICE, log entry 25). -/
def sramError (s : State) (t u : Nat) (lasting : Bool) : State :=
  let asid := ((s.wg u).map s.asidOf).getD 0
  if !lasting then s.logError 0 kindSram t logSoft asid
  else
    let s := endByTile s u 0x52
    let s := s.setTile t { s.tile t with retired := true }
    let c := clusterOf t
    let s := match (s.cluster c).swap with
      | some x => if x.phase = .quiesce ∧ (x.hot = t ∨ x.cool = t) then abandonSwap s c x else s
      | none => s
    logRetired s 0 kindSram t asid

/-- Clean bytes of a line: the line goes, but for bytes that are dirty, and is fetched again (R301). -/
def cleanError (s : State) (t line : Nat) (lasting : Bool) : State :=
  match (s.tile t).line line with
  | none => s
  | some l =>
    let x := s.tile t
    let s := if l.dirty = 0 then s.setTile t (x.dropLine line)
      else s.setTile t { x with lines := x.lines.map (fun y => if y.line = line then { y with valid := y.dirty } else y) }
    if lasting then logRetired (retireWay s t (line % 64)) (line * 128) kindClean t l.asid
    else s.logError (line * 128) kindClean t logSoft l.asid

/-- Dirty bytes of a line: where the error lasts they are lost, every workgroup of the line's context on the tile ends with
error, and the way is retired (R301). -/
def dirtyError (s : State) (t line : Nat) (lasting : Bool) : State :=
  match (s.tile t).line line with
  | none => s
  | some l =>
    if l.dirty = 0 then s
    else if !lasting then s.logError (line * 128) kindDirty t logSoft l.asid
    else
      let s := s.setTile t ((s.tile t).dropLine line)
      let us := (s.wgs.filter (fun g => g.2.onTile && g.2.tile == t && s.asidOf g.2 == l.asid)).map (·.1)
      let s := us.foldl (fun s u => endByTile s u 0x53) s
      logRetired (retireWay s t (line % 64)) (line * 128) kindDirty t l.asid

/-- A line of the instruction cache is discarded (R301). -/
def codeError (s : State) (t line : Nat) (lasting : Bool) : State :=
  let x := s.tile t
  let set := line % 64
  let asid := ((x.code.find? (fun c => c.line == line)).map (·.asid)).getD 0
  let x := { x with code := x.code.filter (fun c => c.line != line) }
  if lasting then
    let bad := min 8 (Table.get x.badCode 0 set + 1)
    let inSet := (x.code.filter (fun c => c.line % 64 == set)).take (8 - bad)
    let x := { x with badCode := Table.set x.badCode set bad,
                      code := x.code.filter (fun c => c.line % 64 != set || inSet.contains c) }
    logRetired (s.setTile t x) (line * 128) kindClean t asid
  else (s.setTile t x).logError (line * 128) kindClean t logSoft asid

/-- An entry of the translation caches is discarded: here the entries of a context; where the error lasts, the tile keeps none for the
context any more, and its accesses read the tables in memory (R301; DESIGN CHOICE, log entry 41). -/
def cacheError (s : State) (t asid : Nat) (lasting : Bool) : State :=
  let x := (s.tile t).forget asid
  let s := s.setTile t (if lasting && !x.badXlat.contains asid then { x with badXlat := asid :: x.badXlat } else x)
  if lasting then logRetired s 0 kindClean t asid else s.logError 0 kindClean t logSoft asid

/-- SRAM_PARITY_ERROR (R301): kind 0 is the register file or scratchpad of the workgroup that `line` numbers, 1 clean bytes of a
line, 2 the instruction cache, 3 the translation caches of the context that `line` names, 4 dirty bytes. -/
def execSramParityError (tile kind line : Nat) (lasting : Bool) (s : State) : Host.Outcome State Fault Refusal :=
  .next (match kind with
    | 0 => sramError s tile line lasting
    | 1 => cleanError s tile line lasting
    | 2 => codeError s tile line lasting
    | 3 => cacheError s tile line lasting
    | 4 => dirtyError s tile line lasting
    | _ => s)

/-! ### Links and ports -/

/-- Reducing copies with an unacknowledged sector that no route leads to any more end with code 0x07 at BASE; their windows are
removed, and nothing of them is applied afterwards (R355, R450). -/
def cutOff (s : State) : State :=
  let lost := fun (c : Copy) => c.sent.any (fun x => x.2.sp.isNone &&
    ((!c.handed && !c.away && !reaches s.dev.badLinks c.tile x.2.addr) || (spaceOf x.2.addr != 0 && s.dev.ports.isEmpty)))
  let gone := (s.dev.copies.filter (fun c => lost c.2)).map (·.1)
  { s with dev := { s.dev with
      copies := s.dev.copies.map (fun (c : Nat × Copy) =>
        if gone.contains c.1 then (c.1, { c.2 with sent := [], err := some (0x07, c.2.base) }) else c)
      applied := s.dev.applied.filter (fun (a : Nat × List Nat) => !gone.contains a.1) } }

/-- A port is no longer among the trained ones (R450). -/
def dropPort (s : State) (n : Nat) : State :=
  cutOff { s with dev := { s.dev with ports := s.dev.ports.filter (fun p => p != n) } }

/-- The die that the entry of a link's error names: the lower one of a boundary, that of an I/O link or of a cluster, and 0 for a port
(R508; DEDUCED, log entry 25). -/
def linkDie (port : Bool) (n : Nat) : Nat :=
  if port then 0 else if n < 4 then (boundaryDies n).1 else if n < 8 then n - 4 else dieOfCluster (n - 8)

/-- LINK_CRC_ERROR: the flit is sent again; where the error lasts the port or link is retired (R301, R448, R450). Boundaries
between dies are numbered 0 to 3, the I/O die's links to the compute dies 4 to 7, and the link of cluster c is 8 + c (DEDUCED, log
entry 25). -/
def execLinkCrcError (port : Bool) (n : Nat) (lasting : Bool) (s : State) : Host.Outcome State Fault Refusal :=
  .next (if !lasting then s.logError n kindLink (linkDie port n) logSoft 0
    else
      let s := if port then dropPort s n
        else
          let bad := if s.dev.badLinks.contains n then s.dev.badLinks else n :: s.dev.badLinks
          let s := cutOff { s with dev := { s.dev with badLinks := bad } }
          if n < 8 then s else s.updCluster (n - 8) (fun k => { k with link := { k.link with retired := true } })
      logRetired s n kindLink (linkDie port n) 0)

/-- PORT_TRAINING_LOSS (R450). -/
def execPortTrainingLoss (port : Nat) (s : State) : Host.Outcome State Fault Refusal := .next (dropPort s port)

/-- The width below a width of an inter-cluster link, in quarters (R453). -/
def narrower (w : Nat) : Nat := if w = 4 then 2 else 1

/-- LINK_OCCUPANCY_WINDOW: a window of 4,096 link cycles in which fewer than a quarter of the slots of the present width
carried a flit narrows the link by a handshake (R453) (DEDUCED, log entry 25). -/
def execLinkOccupancyWindow (cluster flits : Nat) (s : State) : Host.Outcome State Fault Refusal :=
  .next (s.updCluster cluster (fun k =>
    let l := k.link
    if l.handshake.isNone && decide (l.width > 1) && decide (16 * flits < 4096 * l.width) then
      { k with link := { l with handshake := some (narrower l.width) } }
    else k))

/-- LINK_CONGESTION: a narrowed link goes to full width by a handshake (R453) (DEDUCED, log entry 25). -/
def execLinkCongestion (cluster : Nat) (s : State) : Host.Outcome State Fault Refusal :=
  .next (s.updCluster cluster (fun k =>
    let l := k.link
    if l.handshake.isNone && decide (l.width < 4) then { k with link := { l with handshake := some 4 } } else k))

/-- LINK_WIDTH_HANDSHAKE_END (R453). -/
def execLinkWidthHandshakeEnd (cluster : Nat) (s : State) : Host.Outcome State Fault Refusal :=
  .next (s.updCluster cluster (fun k =>
    match k.link.handshake with
    | some w => { k with link := { k.link with width := w, handshake := none } }
    | none => k))

end Sys2Proof.Machine
end

