-- ==== Sys2Proof/Machine/Preempt.lean ====
section
/-! DEFINITION. Pre-emption, discard, the saved image and restore (R40-R45, R437-R443), and the workgroup control block
(R496). The image's positions come from the handler frames of warps that ran a pre-empt handler (R438). -/

namespace Sys2Proof.Machine

/-! ### The saved image -/

/-- What a warp record says of position, s60 to s63, loops and stack: the warp's own state, or the frame of its pre-empt
handler (R438, R439). The index is that of R59 or 0xFF. -/
structure SavedPlace where
  hdr : Nat
  index : Nat
  s60 : List Reg
  lc : List Nat
  ldepth : Nat
  frames : List (Nat × Nat)
  depth : Nat
  stack : List (Nat × Nat)
deriving DecidableEq, Repr

/-- The place of a warp that took no handler. -/
def ownPlace (s : State) (g : Workgroup) (w : Warp) : SavedPlace :=
  let w := w.settle
  let st := w.stackUp.map (fun e => (e.field, e.mask.toNat))
  let frames := (List.range 3).map (fun i => let f := Table.get w.c.frames ⟨0, 0⟩ i; (f.start, f.len))
  ⟨w.c.pos.hdr, savedIndex s g w, (span 60 4).map w.sget, (List.range 3).map (Table.get w.c.lc 0), w.c.depth, frames,
    st.length, st⟩

/-- The place that 96 words of a frame give (R427). -/
def framePlace (ws : List Reg) : SavedPlace :=
  let word := fun i => ws.getD i 0
  let depth := fieldOf (word 2) 16 8
  ⟨(word 1).toNat, fieldOf (word 2) 0 8, (span 4 4).map word,
    [fieldOf (word 8) 0 32, fieldOf (word 8) 32 32, fieldOf (word 9) 0 32], fieldOf (word 2) 24 8,
    (List.range 3).map (fun i => ((word (10 + 2 * i)).toNat, fieldOf (word (11 + 2 * i)) 0 16)), depth,
    (List.range (min depth 32)).map (fun i => ((word (32 + 2 * i)).toNat, fieldOf (word (33 + 2 * i)) 0 32))⟩

/-- The stores of a control block at an offset (R43), its reserved bytes zero (R8). -/
def controlStores (w : Warp) (p : SavedPlace) (o : Nat) : List (Nat × Nat × Nat) :=
  [(o, 8, p.hdr), (o + 0x08, 1, p.index), (o + 0x09, 1, w.r.alloc / 8), (o + 0x0A, 1, p.depth), (o + 0x0B, 1, w.r.winBase),
   (o + 0x0C, 1, w.r.winLen), (o + 0x0D, 1, w.sp.cvm.toNat), (o + 0x0E, 2, w.sp.cvslip.toNat),
   (o + 0x10, 4, w.c.base.toNat), (o + 0x14, 4, w.c.exited.toNat), (o + 0x18, 4, w.c.fmask.toNat),
   (o + 0x1C, 4, w.sp.cvpat.toNat), (o + 0x3C, 4, 0)]
    ++ (List.range 7).map (fun i => (o + 0x20 + 4 * i, 4, (w.pget (i + 1)).toNat))
    ++ (List.range 3).map (fun i => (o + 0x40 + 4 * i, 4, p.lc.getD i 0)) ++ [(o + 0x4C, 4, p.ldepth)]
    ++ (List.range 3).flatMap (fun i =>
      let f := p.frames.getD i (0, 0)
      [(o + 0x50 + 16 * i, 8, f.1), (o + 0x58 + 16 * i, 8, f.2 % 2 ^ 16)])
    ++ [(o + 0x80, 8, w.sp.fstat.toNat), (o + 0x88, 8, w.sp.srseed.toNat), (o + 0x90, 8, w.sp.mrow.toNat)]
    ++ (List.range 8).map (fun i => (o + 0x98 + i, 1, match w.queue i with
      | some n => 0x80 + n
      | none => 0))
    ++ [(o + 0xA0, 8, w.sp.hvFault.toNat), (o + 0xA8, 8, w.sp.hvCancel.toNat), (o + 0xB0, 8, w.sp.hvPreempt.toNat),
        (o + 0xB8, 8, w.sp.hvTrap.toNat)]
    ++ zeroStores (o + 0xC0) 8

/-- The stores of the granules that are present (R42, R45): s-registers, tags and lanes. -/
def granuleStores (w : Warp) (p : SavedPlace) : List (Nat × Nat × Nat) :=
  let ss := if w.r.sAbsent then []
    else (List.range 60).map (fun i => (8 * i, 8, (w.sget i).toNat))
  let top := (List.range 4).map (fun i => (8 * (60 + i), 8, (p.s60.getD i 0).toNat))
  let present := (List.range (w.r.alloc / 8)).filter (fun k => !w.r.absent.contains k)
  let vs := present.flatMap (fun k => (List.range 8).flatMap (fun m =>
    let v := w.vget (8 * k + m)
    (0x640 + 8 * k + m, 1, v.tag.toNat) ::
      laneNums.map (fun l => (0x800 + k * 0x800 + m * 0x100 + 8 * l, 8, (laneOf v.lanes l).toNat))))
  (if w.r.sAbsent then [] else ss ++ top) ++ vs

/-- The stores of the reserved parts of a warp record, those of the stack's entries and of granules beyond the allocation among them (R8,
R42). -/
def recordZeros (w : Warp) : List (Nat × Nat × Nat) :=
  (List.range 32).map (fun i => (0x30C + 16 * i, 4, 0)) ++ (span w.r.alloc (112 - w.r.alloc)).map (fun i => (0x640 + i, 1, 0))
    ++ zeroStores 0x6B0 2 ++ zeroStores 0x740 24 ++ zeroStores 0x7800 256
    ++ (span (w.r.alloc / 8) (14 - w.r.alloc / 8)).flatMap (fun k => zeroStores (0x800 + k * 0x800) 256)

/-- The stores of a warp record (R42). -/
def recordImage (w : Warp) (p : SavedPlace) : List (Nat × Nat × Nat) :=
  granuleStores w p ++ controlStores w p 0x200
    ++ ((List.range p.stack.length).zip p.stack).flatMap (fun e =>
      [(0x300 + 16 * e.1, 8, e.2.1), (0x308 + 16 * e.1, 8, e.2.2 % 2 ^ 32)])
    ++ (List.range 8).flatMap (fun n =>
      let x := w.stream n
      (List.range 5).map (fun i => (0x500 + 40 * n + 8 * i, 8, ([x.w0, x.w1, x.w2, x.w3, x.w4].getD i 0).toNat)))
    ++ laneNums.flatMap (fun l => (List.range 4).map (fun k => (0x6C0 + 4 * l + k, 1, w.xget k l)))
    ++ recordZeros w

/-- The stores of the workgroup's header, its reserved bytes zero, of its group registers and scratchpad (R8, R41). -/
def headerStores (g : Workgroup) : List (Nat × Nat × Nat) :=
  [(0, 8, 1), (8, 8, g.handle), (0x10, 2, g.spAlloc / 4096), (0x12, 1, g.nwarps), (0x13, 1, g.producer),
   (0x14, 1, g.gangix), (0x15, 1, 0), (0x16, 2, 0)]
    ++ zeroStores 0x18 5 ++ zeroStores 0xC0 488
    ++ (List.range 16).map (fun i => (0x40 + 8 * i, 8, (Table.get g.g 0 i).toNat))
    ++ (List.range (g.spAlloc / 8)).map (fun i => (0x1000 + 8 * i, 8, Memory.readN g.sp (8 * i) 8))

/-- The places of a warp record: from the frame in memory of a warp that ran its pre-empt handler. -/
def placeOf (s : State) (g : Workgroup) (wp : Nat) (w : Warp) : IoRes SavedPlace :=
  if w.c.handler = some 3 then
    match imageWords s g (faultArea g wp) 96 with
    | (ws, .ok) => .ok (framePlace ws)
    | (_, .miss) => .miss (faultArea g wp / 4096) 0
    | (_, .fault) => .bad 0x50
  else .ok (ownPlace s g w)

/-- Write a list of stores of an image at their channels, in the workgroup's context (R41). -/
def writeImage (s : State) (g : Workgroup) (base : Nat) : List (Nat × Nat × Nat) → IoRes State
  | [] => .ok s
  | (o, n, v) :: r =>
    (queueXlate s (queueKey g.slot g.queue) (base + o) .store 0x50).andThen (fun pa =>
      if s.dev.badLines.contains (lineOf pa) then .bad 0x50 else writeImage (chanWrite s pa n v) g base r)

/-- Write the records of a workgroup's warps. -/
def writeRecords (s : State) (g : Workgroup) : List (Nat × Warp) → IoRes State
  | [] => .ok s
  | (wp, w) :: r =>
    let s := if w.c.handler = some 3 then fetchImage s g (faultArea g wp) 768 else s
    (placeOf s g wp w).andThen (fun p =>
      (writeImage (warmImage s g (warpRecord g wp) 0x8000) g (warpRecord g wp) (recordImage w p)).andThen (fun s => writeRecords s g r))

/-- Write the whole image (R41) (DESIGN CHOICE, log entry 32). -/
def saveImage (s : State) (g : Workgroup) : IoRes State :=
  (writeImage (warmImage s g (saveArea g) (0x1000 + g.spAlloc)) g (saveArea g) (headerStores g)).andThen (fun s => writeRecords s g g.warps)

/-! ### Switch-out and discard -/

/-- Whether a warp is done with a pre-emption (R275, R439). -/
def Warp.preemptDone (w : Warp) : Bool := w.c.sigdone || w.c.ended

/-- The workgroups that are pre-empted with one: its gang (R441). -/
def gangOf (u : Nat) (g : Workgroup) : List Nat := if g.gangLaunch then g.gang else [u]

/-- Whether every warp of a pre-empted workgroup or gang is done, or its workgroup has left (R275, R441). -/
def allDone (s : State) (u : Nat) (g : Workgroup) : Bool :=
  (gangOf u g).all (fun v => match s.wg v with
    | some h => !h.onTile || h.warps.all (fun w => w.2.preemptDone)
    | none => true)

/-- A warp as it is kept while its workgroup is saved: nothing waits or runs. A record that no handler has taken yet stays (R423; DESIGN
CHOICE, log entry 32). -/
def Warp.stored (w : Warp) : Warp :=
  { w with c := { w.c with wait := .none, handler := none, preReq := false, sigdone := false, trapNo := none },
           outs := [], batches := [], openB := [], joined := false }

/-- The workgroup leaves its tile with its image written (R275, R286) (DESIGN CHOICE, log entry 32). -/
def storeGroup (s : State) (u : Nat) (g : Workgroup) : State :=
  let asid := s.asidOf g
  let bound := g.warps.any (fun w => w.2.r.q.any (fun q => q.2.isSome))
  let g' := { g with status := .saved, preTick := none, cancelTick := none, bound := bound,
                     warps := g.warps.map (fun w => (w.1, w.2.stored)) }
  wcbSettle (afterLeaving (s.setWg u g') g.tile g.slot asid) g

/-- The reads and walks of a tile for writing an image: of the frames of warps in their pre-empt handlers, and of the image's pages (R41,
R288, R298). -/
def saveReads (s : State) (g : Workgroup) : State :=
  let frames := (g.warps.filter (fun w => w.2.c.handler == some 3)).map (fun w => (faultArea g w.1, 768))
  warmImage (fetchAreas s g frames) g (saveArea g) (0x1000 + g.spAlloc + 0x8000 * g.nwarps)

/-- Switch a workgroup out (R40, R41, R275, R336): its matrix instructions stop, dirty lines are written back, its warps leave every
convoy, those that their handlers joined too (R367), and the image is written. A fault in writing it ends the workgroup with error. For a page that
misses a message of SRC 4 goes out, since R435 names none for an image, and the workgroup's queue parses no packet before the reply, where
R41 has only the switch wait (DESIGN CHOICE, log entry 32). -/
def switchOut (s : State) (u : Nat) (g0 : Workgroup) : State :=
  let s1 := g0.warps.foldl (fun s x => stopMatrix s ⟨u, x.1⟩) s
  match s1.wg u with
  | none => s
  | some g =>
    if quiet s1 u g && !leavesLate s1 u g 2 then
      let s2 := writeBackGroup s1 u g
      if !(s2.tile g.tile).unacked.isEmpty then s2 else
      let s2 := g.warps.foldl (fun s x => detachAll s (dieOf g.tile) ⟨u, x.1⟩) s2
      let g := (s2.wg u).getD g
      match saveImage s2 g with
      | .ok s3 => storeGroup (afterIo s3 (queueKey g.slot g.queue) g.handle (u + 1) (.ok s3)) u g
      | .miss p a => queueMiss (saveReads s g) (queueKey g.slot g.queue) p a g.handle (u + 1)
      | .bad _ => endWithError (saveReads s g) u 0x50 0 0 0 0
    else s

/-- Discard a workgroup of an idempotent queue (R276, R390, R442): nothing is saved, it leaves its convoys without a
detach, and it is to be dispatched again with its restart records; one whose level was cancelled counts instead. -/
def discardGroup (s : State) (u : Nat) (g0 : Workgroup) : State :=
  let s1 := stopMatrices s u g0
  match s1.wg u with
  | none => s
  | some g =>
    if quiet s1 u g && !leavesLate s1 u g 1 then
      let s2 := leaveConvoys (writeBackGroup s1 u g) u g
      if !(s2.tile g.tile).unacked.isEmpty then s2 else
      let gone := fun (s : State) => wcbSettle (removeGroup s u g true) g
      if g.cancelled then
        let ends := fun (s : State) => wcbSettle (endGroup s u g true) g
        match countGroup s2 g true with
        | .ok s3 => ends s3
        | .miss p a => queueMiss s (queueKey g.slot g.queue) p a g.handle (u + 1)
        | .bad code => ends (s2.stopQueue (queueKey g.slot g.queue) code)
      else
        let marks := g.warps.filterMap (fun w => w.2.region.map (fun p => (w.1, p)))
        let ended := (g.warps.filter (fun w => w.2.c.ended)).map (·.1)
        match s2.level g.level with
        | some l => gone (s2.setLevel g.level { l with again := l.again ++ [(g.wgix, marks, ended)] })
        | none => gone s2
    else s

/-- WORKGROUP_SWITCH_OUT (R275, R441, R442). -/
def execWorkgroupSwitchOut (wg : Nat) (s : State) : Host.Outcome State Fault Refusal :=
  .next (match s.wg wg with
    | some g =>
      if g.status = .resident ∧ s.swapping g.tile = false then
        if g.discard then discardGroup s wg g
        else if g.preTick.isSome && allDone s wg g && !g.warps.all (fun w => w.2.c.ended) then switchOut s wg g
        else s
      else s
    | none => s)

/-! ### Restore -/

/-- Whether the words of a stream break R24 (R45). -/
def streamWordBad (w0 : Reg) : Bool :=
  let tag := BitVec.ofNat 5 (fieldOf w0 48 5)
  decide (fieldOf w0 53 3 > 4) || !fmtOk tag || (decide (fmtWidth tag < 8))

/-- The bits of words 0 and 4 of a stream that hold something (R8, R24). -/
def streamMask0 : Reg := BitVec.ofNat 64 (2 ^ 56 - 1)
def streamMask4 : Reg := BitVec.ofNat 64 (2 ^ 33 - 1)

/-- The stack of a record: entry 0 lowest, none where bit 1 of an address is set (R166). -/
def stackOfRecord (ws : List Reg) (depth : Nat) : Option (List StackEntry) :=
  if depth > 32 then none else stackOfFrame ws depth

/-- The address bits of a handler register (R270). -/
def vectorMask : Reg := BitVec.ofNat 64 (2 ^ 48 - 4)

/-- A warp from 256 words of its record (R42, R43, R44); none where the record breaks R24, R43, R166, R176 or R232. Its
granules are absent, and their tags are kept for the fills. SRSEED of 0 becomes 1, as R103 has it for SWR, and a window, CVSLIP or
CVPAT outside its limits is taken as it is (DESIGN CHOICE, log entry 32). Streams that were counted stay so (R371), and records that
wait for their handler (R423). A pre-emption that was asked for before the restore comes after it (R441). Where its handler's end left the top path without lanes, the warp goes on from the stack or ends (R170). -/
def restoredWarp (g : Workgroup) (wp : Nat) (ws : List Reg) : Option Warp :=
  let word := fun i => ws.getD i 0
  let byte := fun (o : Nat) => fieldOf (word (o / 8)) (8 * (o % 8)) 8
  let half := fun (o : Nat) => fieldOf (word (o / 8)) (8 * (o % 8)) 16
  let w32 := fun (o : Nat) => fieldOf (word (o / 8)) (8 * (o % 8)) 32
  let index := byte 0x208
  let granules := byte 0x209
  let ldepth := w32 0x24C
  let frame := fun i => LoopFrame.mk (word (0x4A + 2 * i)).toNat (half (0x258 + 16 * i))
  let framesOk := decide (ldepth ≤ 3) && (List.range ldepth).all (fun i =>
    decide (2 ≤ (frame i).len) && decide ((frame i).len ≤ 256))
  let old := (Table.find g.warps wp).getD (Warp.launch 8 0)
  match stackOfRecord (ws.drop 0x60) (byte 0x20A) with
  | some st =>
    let streams := (List.range 8).map (fun n =>
      let o := 0xA0 + 5 * n
      (n, Stream.mk (word o &&& streamMask0) (word (o + 1)) (word (o + 2)) (word (o + 3)) (word (o + 4) &&& streamMask4) []))
    let w := Warp.launch (8 * granules) 0
    let q := (List.range 8).map (fun i =>
      (i, if byte (0x298 + i) ≥ 0x80 then some (byte (0x298 + i) % 64) else none))
    let xs := (List.range 4).map (fun k => (k, laneNums.map (fun l => BitVec.ofNat 8 (byte (0x6C0 + 4 * l + k)))))
    let r := { w.r with
      absent := List.range granules, tagSet := (List.range 112).map (fun i => byte (0x640 + i)), sAbsent := true, winBase := byte 0x20B, winLen := byte 0x20C,
      p := (List.range 7).map (fun i => (i + 1, BitVec.ofNat 32 (w32 (0x220 + 4 * i)))), x := xs, st := streams, q := q }
    let seed := word 0x51
    let sp := { w.sp with
      fstat := (word 0x50).setWidth 8 &&& fstatMask, srseed := if seed = 0 then 1 else seed,
      mrow := word 0x52 &&& mrowMask, cvslip := BitVec.ofNat 8 (byte 0x20E), cvpat := BitVec.ofNat 16 (half 0x21C),
      hvFault := word 0x54 &&& vectorMask, hvCancel := word 0x55 &&& vectorMask, hvPreempt := word 0x56 &&& vectorMask,
      hvTrap := word 0x57 &&& vectorMask, prio := old.sp.prio, counted := old.sp.counted }
    let pos := if index = 0xFF then ⟨(word 0x40).toNat, 0, .trap, .none⟩ else ⟨(word 0x40).toNat, index, .flow, .none⟩
    let c := { w.c with
      base := BitVec.ofNat 32 (w32 0x210), exited := BitVec.ofNat 32 (w32 0x214), fmask := BitVec.ofNat 32 (w32 0x218),
      stack := st, depth := ldepth, lc := (List.range 3).map (fun i => (i, w32 (0x240 + 4 * i))),
      frames := (List.range 3).map (fun i => (i, frame i)), pos := pos, cancelReq := g.cancelled,
      recs := old.c.recs, preReq := g.preTick.isSome && !g.discard }
    let w := { w with r := r, sp := sp, c := c, region := old.region, bars := old.bars, gbars := old.gbars }
    let w := { w with c := { w.c with ended := decide (w.live = 0) } }.resumeEmpty
    let resumes := w.sp.mrow.getLsbD 63
    if (index > 7 ∧ index ≠ 0xFF) ∨ granules = 0 ∨ granules > 14 ∨ framesOk = false ∨ streams.any (fun x => streamWordBad x.2.w0) = true
        ∨ (resumes && mrowBad w w.sp.mrow) = true then none
    else some w
  | none => none

/-- Words of an image, or the page that misses, or the fault (R41, R44). -/
def readImage (s : State) (g : Workgroup) (va n : Nat) : IoRes (List Reg) :=
  queueWords s (queueKey g.slot g.queue) va 0x50 n

/-- The warps of an image. -/
def restoreWarps (s : State) (g : Workgroup) : List Nat → IoRes (Table Warp)
  | [] => .ok []
  | wp :: r =>
    (readImage s g (warpRecord g wp) 256).andThen (fun ws =>
      match restoredWarp g wp ws with
      | some w => (restoreWarps s g r).andThen (fun t => .ok ((wp, w) :: t))
      | none => .bad 0x50)

/-- Where a resumption at restore was started, for its fault records: the word at the saved index, or the one after the clause
where the index lies past it (R59, R231); with the read of the header's line (R288). -/
def savedWord (s : State) (g : Workgroup) (p : Pos) : State × Nat :=
  let at_ := fun (len : Nat) => p.hdr + 4 + 4 * min p.idx (len + 1)
  match queueXlate s (queueKey g.slot g.queue) p.hdr .fetch 0 with
  | .ok pa =>
    (mergeRead s g.tile (lineOf pa), at_ (match decode (BitVec.ofNat 32 (chanRead s pa 4)) with
      | some (.clause _ _ _ l) => l.toNat
      | _ => 7))
  | _ => (s, at_ 7)

/-- Resumptions of matrix instructions start after the restore (R232). -/
def resumeAll (s : State) (u : Nat) (g : Workgroup) : State :=
  g.warps.foldl (fun s x => match s.warp ⟨u, x.1⟩ with
    | some w =>
      if w.sp.mrow.getLsbD 63 && !w.c.ended then
        let q := savedWord s g w.c.pos
        resumeMatrix q.1 ⟨u, x.1⟩ q.2 w.c.pos.hdr w.c.pos.idx
      else s
    | none => s) s

/-- A workgroup as the header of its image has it (R41, R44): none where the allocation or the warp count lies outside its range;
its version is not looked at, and W or an allocation beyond the size that the workgroup was placed with is taken as it
stands (DESIGN CHOICE, log entry 32). -/
def headerGroup (g : Workgroup) (hd : List Reg) : Option Workgroup :=
  let word := fun i => hd.getD i 0
  let scr := fieldOf (word 2) 0 16
  let n := fieldOf (word 2) 16 8
  if scr = 0 ∨ scr > 512 ∨ n = 0 ∨ n > 16 then none
  else some { g with
    handle := (word 1).toNat, spAlloc := scr * 4096, nwarps := n, producer := fieldOf (word 2) 24 8,
    gangix := fieldOf (word 2) 32 8, g := (List.range 16).map (fun i => (i, word (8 + i))) }

/-- The parts of an image that a restore reads: the workgroup with its header, its scratchpad, and its warps (R44). -/
def restoreImage (s : State) (g0 : Workgroup) : IoRes (Workgroup × List Reg × Table Warp) :=
  (readImage s g0 (saveArea g0) 24).andThen (fun hd =>
    match headerGroup g0 hd with
    | none => .bad 0x50
    | some g =>
      (readImage s g (saveArea g + 0x1000) (g.spAlloc / 8)).andThen (fun sp =>
        (restoreWarps s g (List.range g.nwarps)).andThen (fun ws => .ok (g, sp, ws))))

/-- The parts of an image that a restore reads for a tile: the header, and what it names (R44, R288). -/
def restoreAreas (s : State) (g0 : Workgroup) : List (Nat × Nat) :=
  (saveArea g0, 256) :: (match imageWords s g0 (saveArea g0) 24 with
    | (hd, .ok) => match headerGroup g0 hd with
      | some g => (saveArea g + 0x1000, g.spAlloc) :: (List.range g.nwarps).map (fun wp => (warpRecord g wp, 2048))
      | none => []
    | _ => [])

/-- Restore a workgroup that has been placed (R44, R45, R336): header, group registers, scratchpad and control state are
read from the image, every granule is absent, and the lines of the context leave the tile. Warps on other dies that wait to exchange
with it take the exchange fault (R152). A page that misses is served as one is for switchOut (DESIGN CHOICE, log entry 32). -/
def restoreGroup (s : State) (u : Nat) (g : Workgroup) : State :=
  let areas := restoreAreas s g
  match restoreImage s g with
  | .miss p a => queueMiss (fetchAreas s g areas) (queueKey g.slot g.queue) p a g.handle (u + 1)
  | .bad _ => (fetchAreas s g areas).updWg u (fun g => { g with status := .error 0x50 0 0 0 0 })
  | .ok (g1, sp, ws) =>
    let asid := s.asidOf g
    let s := afterIo s (queueKey g.slot g.queue) g.handle (u + 1) (.ok s)
    let s := invalidateWhere s g.tile (fun l => l.asid == asid)
    let mem := ((List.range sp.length).zip sp).foldl (fun m p => Memory.writeN m (8 * p.1) 8 p.2.toNat) []
    let g' := { g1 with status := .resident, sp := mem, warps := ws, recent := []
                        wslots := g.wslots ++ freeSlots s g.tile (g1.nwarps - g.wslots.length) }
    let s := fetchAreas s g areas
    let s := swapPartnerGone (s.setWg u g') g' (fun d => d != dieOf g.tile)
    resumeAll s u g'

/-- WORKGROUP_RESTORE (R44, R396): once the pair is powered. -/
def execWorkgroupRestore (wg : Nat) (s : State) : Host.Outcome State Fault Refusal :=
  .next (match s.wg wg with
    | some g =>
      if g.status = .placed ∧ (s.pair (pairOf (clusterOf g.tile))).gstate < 2 then restoreGroup s wg g else s
    | none => s)

/-! ### Bounds -/

/-- A warp whose bound has expired: in its pre-empt handler it is done as it stands (R440). -/
def Warp.preemptExpired (w : Warp) : Warp :=
  if w.c.handler = some 3 ∧ w.c.ended = false then { w with c := { w.c with sigdone := true, wait := .none } } else w

/-- The bound expires in a workgroup (R440): warps in a pre-empt handler are done, one in another handler ends the
workgroup with error; each is reported. -/
def expireGroup (s : State) (u : Nat) : State :=
  match s.wg u with
  | some g =>
    if g.status ≠ .resident then s else
    match g.warps.find? (fun w => !w.2.preemptDone && w.2.c.handler.isSome && w.2.c.handler != some 3) with
    | some (wp, w) => endWithError (reportExpiry s g wp) u 0x54 wp w.c.pos.place 0 0
    | none =>
      (g.warps.filter (fun w => w.2.c.handler == some 3 && !w.2.preemptDone)).foldl (fun s w => reportExpiry s g w.1)
        (s.setWg u { g with warps := g.warps.map (fun w => (w.1, w.2.preemptExpired)) })
  | none => s

/-- The management cores end the calls of workgroups that have not completed, for every member (R468)
(DEDUCED, log entry 28). -/
def endCalls (s : State) (us : List Nat) : State :=
  s.dev.calls.foldl (fun s k => match s.copy k.copy with
    | some c => if us.contains c.w.wg && !k.ended then abortGroup s k else s
    | none => s) s

/-- PREEMPT_TIMEOUT (R440, R441, R468): 20,000 ticks after the request, for the whole gang; of a workgroup to be discarded only
the calls end (DEDUCED, log entry 28). -/
def execPreemptTimeout (wg : Nat) (s : State) : Host.Outcome State Fault Refusal :=
  .next (match s.wg wg with
    | some g =>
      match g.preTick with
      | some t =>
        if t + 20000 ≤ (s.die (dieOf g.tile)).tick ∧ g.status = .resident then
          let s1 := endCalls s (gangOf wg g)
          if g.discard then s1 else (gangOf wg g).foldl expireGroup s1
        else s
      | none => s
    | none => s)

/-- CANCEL_TIMEOUT (R443): 20,000 ticks after the trap, with a warp still in its handler. -/
def execCancelTimeout (wg : Nat) (s : State) : Host.Outcome State Fault Refusal :=
  .next (match s.wg wg with
    | some g =>
      match g.cancelTick, g.warps.find? (fun w => !w.2.c.ended && w.2.c.handler == some 2) with
      | some t, some (wp, w) =>
        if t + 20000 ≤ (s.die (dieOf g.tile)).tick then
          (endWithError s wg 0x30 wp w.c.pos.place 0 0).updWg wg (fun g => { g with cancelled := true })
        else s
      | _, _ => s
    | none => s)

/-! ### The workgroup control block -/

/-- A request while another is in progress is ignored (R496) (DEDUCED, log entry 33). -/
def wcbRequest (s : State) (op slot handle wgix : Nat) (f : Nat → Workgroup → State) : State :=
  if s.dev.wcbState = 1 then s
  else
    match wcbTarget s slot handle wgix with
    | none => wcbWrite s op slot handle wgix 2 1
    | some (u, g) => f u g

/-- Whether a workgroup stands on a tile to run there: it is resident, or has been placed and waits for its restore. -/
def Workgroup.seatedNow (g : Workgroup) : Bool := g.status == .resident || g.status == .placed

/-- Pre-empt one workgroup: its warps take the trap at their next boundaries, or it is discarded; one that waits for its restore does so
after it (R437, R441, R442). -/
def preemptGroup (s : State) (u : Nat) : State :=
  s.updWg u (fun g =>
    if g.seatedNow then
      let g := { g with preTick := some (s.die (dieOf g.tile)).tick }
      if (s.queue (queueKey g.slot g.queue)).idem then { g with discard := true }
      else { g with warps := g.warps.map (fun w => (w.1, { w.2 with c := { w.2.c with preReq := !w.2.c.ended } })) }
    else g)

/-- Pre-empt a workgroup or its gang (R437, R441, R496). -/
def preemptRequest (s : State) (op slot handle wgix u : Nat) (g : Workgroup) : State :=
  if g.seatedNow ∧ g.preTick = none then
    (gangOf u g).foldl preemptGroup (wcbWrite s op slot handle wgix 1 0)
  else wcbWrite s op slot handle wgix 2 2

/-- WCB_PREEMPT (R437, R496): OP 1; for a member of a gang, the gang. -/
def execWcbPreempt (slot : Nat) (handle wgix : Nat) (s : State) : Host.Outcome State Fault Refusal :=
  .next (wcbRequest s 1 slot handle wgix (fun u g => preemptRequest s 1 slot handle wgix u g))

/-- WCB_PREEMPT_GANG (R441, R496): OP 2, on a member of a gang. -/
def execWcbPreemptGang (slot : Nat) (handle wgix : Nat) (s : State) : Host.Outcome State Fault Refusal :=
  .next (wcbRequest s 2 slot handle wgix (fun u g =>
    if g.gangLaunch then preemptRequest s 2 slot handle wgix u g else wcbWrite s 2 slot handle wgix 2 2))

/-- WCB_RESTORE (R441, R496): OP 3; the dispatcher places the workgroup, or its whole gang once every member that lives is
saved. -/
def execWcbRestore (slot : Nat) (handle wgix : Nat) (s : State) : Host.Outcome State Fault Refusal :=
  .next (wcbRequest s 3 slot handle wgix (fun u g =>
    let ready := (gangOf u g).all (fun v => match s.wg v with
      | some h => h.status == .saved || h.status == .ended
      | none => true)
    if g.status = .saved ∧ ready = true then wcbWrite s 3 slot handle wgix 1 0 else wcbWrite s 3 slot handle wgix 2 2))

/-- WCB_END (R443, R496): OP 4 ends a saved workgroup, counted as one that was cancelled. -/
def execWcbEnd (slot : Nat) (handle wgix : Nat) (s : State) : Host.Outcome State Fault Refusal :=
  .next (wcbRequest s 4 slot handle wgix (fun u g =>
    if g.status = .saved then
      endSaved (wcbWrite s 4 slot handle wgix 1 0) (4, slot % 8, handle % 2 ^ 48, wgix % 2 ^ 64) u g
    else wcbWrite s 4 slot handle wgix 2 2))

end Sys2Proof.Machine
end

