-- ==== Sys2Proof/Machine/FaultService.lean ====
section
/-! DEFINITION. The fault ring and its replies (R434-R436, R501), and writes of context slots (R494, R495). Messages that
the full ring cannot take wait behind it in order. -/

namespace Sys2Proof.Machine

/-- TAIL as it reads: messages beyond 256 unread ones are not in the ring yet (R501). -/
def ringTailOf (d : Device) : Nat := min d.ringTail (d.ringHead + 256)

/-- The clock of a message's die, or of the I/O die for the queue processor. -/
def messageClock (s : State) (m : FaultMsg) : Nat := if m.src = 4 then s.dev.tick else (s.die (dieOfCluster m.cluster)).tick

/-- HEAD advances: messages that waited for room enter the ring, and their service begins (R501, R506). -/
def advanceRing (s : State) (head : Nat) : State :=
  let old := ringTailOf s.dev
  let d := { s.dev with ringHead := head }
  { s with dev := { d with ring := d.ring.map (fun (m : Nat × FaultMsg) =>
      (m.1, if old ≤ m.1 ∧ m.1 < ringTailOf d then { m.2 with born := messageClock s m.2 } else m.2)) } }

/-- FAULT_RING_HEAD_WRITE (R501): a value behind HEAD or beyond TAIL is ignored (DEDUCED, log entry 26). -/
def execFaultRingHeadWrite (v : BitVec 64) (s : State) : Host.Outcome State Fault Refusal :=
  .next (if s.dev.ringHead ≤ v.toNat ∧ v.toNat ≤ ringTailOf s.dev then advanceRing s v.toNat else s)

/-- The message in the ring that has a tag and no reply yet, with its index. -/
def pendingMessage (d : Device) (tag : Nat) : Option (Nat × FaultMsg) :=
  d.ring.find? (fun m => m.2.tag == tag && !m.2.answered && decide (m.1 < ringTailOf d))

/-- A warp parked on a page has its reply (R434); with none left it is ready to replay. -/
def replyWarp (s : State) (r : WRef) (m : FaultMsg) (refused : Bool) : State :=
  s.updWarp r (fun w =>
    match w.c.wait with
    | .park tags =>
      if tags.contains m.tag then
        { w with nones := if refused then w.nones ++ [m.va / 4096] else w.nones
                 c := { w.c with wait := .park (tags.filter (fun t => t != m.tag)) } }
      else w
    | _ => w)

/-- An engine's fault has its reply (R230). After a cancel or pre-empt trap of the warp the engine still waits for it and takes it, a verdict
"none" included: R436 drops late replies to a warp's own park, and R230 has the engine go on after the service (DESIGN CHOICE, log
entry 10). -/
def replyMatrix (s : State) (r : WRef) (m : FaultMsg) (refused : Bool) : State :=
  match s.warp r with
  | some w =>
    match w.mat with
    | some x =>
      if x.tags.contains m.tag then
        let tags := x.tags.filter (fun t => t != m.tag)
        let ends := x.parked && tags.isEmpty
        let x := { x with tags := tags, nones := if refused then x.nones ++ [m.va / 4096] else x.nones,
                          parked := x.parked && !tags.isEmpty }
        let s := s.setWarp r { w with mat := some x }
        if ends then releaseParked s r else s
      else s
    | none => s
  | none => s

/-- A parked copy has its reply (R244). -/
def replyCopy (s : State) (c : Copy) (m : FaultMsg) (refused : Bool) : State :=
  let c := { c with parked := c.parked.filter (fun t => t != m.tag)
                    nones := if refused then c.nones ++ [m.va / 4096] else c.nones }
  putRecord (s.setCopy c) c (if c.parked.isEmpty then 0 else 1)

/-- Every warp, engine and copy that waits on a miss has its reply (R230, R244, R434). -/
def replyMiss (s : State) (m : FaultMsg) (refused : Bool) : State :=
  let rs := s.wgs.flatMap (fun g => g.2.warps.map (fun w => WRef.mk g.1 w.1))
  let s := rs.foldl (fun s r => replyMatrix (replyWarp s r m refused) r m refused) s
  (s.dev.copies.filter (fun c => c.2.parked.contains m.tag)).foldl (fun s c => replyCopy s c.2 m refused) s

/-- A warp parked on BKPT goes on past it, or issues it again (R273). -/
def replyBreak (s : State) (m : FaultMsg) (again : Bool) : State :=
  let r : WRef := ⟨m.uid, m.warp⟩
  match s.wg r.wg, s.warp r with
  | some g, some w =>
    if w.c.wait = .brk m.tag then
      if again then s.setWarp r { w with c := { w.c with wait := .none } } else retire s r g w w false
    else s
  | _, _ => s

/-- The queue processor's access has its reply (R522). -/
def replyQueue (s : State) (m : FaultMsg) (refused : Bool) : State :=
  { s with dev := { s.dev with queues := s.dev.queues.map (fun (q : Nat × Queue) =>
      if q.2.waitTag = some m.tag then
        (q.1, { q.2 with waitTag := none, nones := if refused then q.2.nones ++ [(q.2.waitBy, m.va / 4096)] else q.2.nones })
      else q) } }

/-- What a reply releases, by the message's source (R435). -/
def releaseReply (s : State) (m : FaultMsg) (refused : Bool) : State :=
  match m.src with
  | 3 => replyBreak s m refused
  | 4 => wcbResume (replyQueue s m refused)
  | _ => replyMiss s m refused

/-- FAULT_RING_REPLY (R501): a tag that names no pending message is ignored. The service time is counted (R506). -/
def execFaultRingReply (v : BitVec 64) (s : State) : Host.Outcome State Fault Refusal :=
  .next (match pendingMessage s.dev (fieldOf v 0 32) with
    | some (i, m) =>
      let s := { s with dev := { s.dev with ring := Table.set s.dev.ring i { m with answered := true } } }
      let s := if m.src = 4 then s else s.countEvent m.cluster 9 (messageClock s m - m.born) 1
      releaseReply s m (v.getLsbD 32)
    | none => s)

/-! ### Context slots -/

/-- Whether a slot may be unbound: no workgroup of its context resident, no queue of it parsing or waiting (R494). -/
def mayUnbind (s : State) (a : Nat) : Bool :=
  s.wgs.all (fun g => !(g.2.onTile && g.2.slot == a)) && (List.range 64).all (fun j =>
    let st := (s.queue (queueKey a j)).state
    st != 1 && st != 2)

/-- A register of a slot that is not bound (R494, R495). -/
def Slot.write (c : Slot) (off : Nat) (v : Reg) : Slot :=
  match off with
  | 0x00 => { c with asid := fieldOf v 48 16, deflevel := fieldOf v 44 4, cap := fieldOf v 40 4, dbg := v.getLsbD 1, v := v.getLsbD 0 }
  | 0x08 => { c with ptroot := fieldOf v 12 40 }
  | 0x10 => { c with rtab := fieldOf v 11 41 }
  | 0x18 => { c with ctab := fieldOf v 12 40, ccnt := fieldOf v 0 12 }
  | 0x20 => if c.used.isEmpty then { c with abase := fieldOf v 12 36 } else c
  | 0x28 => if c.used.isEmpty then { c with asize := fieldOf v 48 16, acnt := fieldOf v 0 16 } else c
  | _ => c

/-- The areas of a slot's pool that the workgroups of a context hold (R495). -/
def areasHeld (s : State) (c : Slot) (asid : Nat) : List Nat :=
  (List.range c.acnt).filter (fun k => s.wgs.any (fun g => g.2.status != .ended && g.2.asid == asid && g.2.area == c.areaAt k))

/-- A context is bound to a slot (R494): its levels and saved workgroups are served there, those of the context that had the slot
have none; the areas that its workgroups hold are in use. The retired pages that the log holds as retired have left its mappings too: the
management cores removed those of a context without a slot in its tables (R302, R509; DEDUCED, log entry 25). -/
def bindSlot (s : State) (a : Nat) (c : Slot) : State :=
  let seat := fun (asid old : Nat) => if asid = c.asid then a else if old = a then 8 else old
  let s := { s with
    wgs := s.wgs.map (fun (g : Nat × Workgroup) => (g.1, { g.2 with slot := seat g.2.asid g.2.slot }))
    dev := { s.dev with levels := s.dev.levels.map (fun (l : Level) => { l with slot := seat l.asid l.slot }) } }
  let left := s.dev.badPages.filter (fun p => s.dev.retiring.all (fun pa => pa / 4096 != p))
  let pages := (Table.get s.dev.unmapped [] c.asid ++ left).eraseDups
  let s := { s with dev := { s.dev with unmapped := Table.set s.dev.unmapped c.asid pages } }
  s.setSlot a { c with used := areasHeld s c c.asid }

/-- CONTEXT_SLOT_WRITE (R494): a bound slot takes only DEFLEVEL, CAP, DBG and V; a write that would unbind it too early is
ignored as a whole. The areas of a pool belong to the context, not to the slot it leaves (DEDUCED, log entry 46). -/
def execContextSlotWrite (slot off : Nat) (v : BitVec 64) (s : State) : Host.Outcome State Fault Refusal :=
  let a := slot % 8
  let c := s.slot a
  .next (
    if c.v = false then
      let c' := c.write off v
      if c'.v then bindSlot s a c' else s.setSlot a c'
    else if off ≠ 0 then s
    else if v.getLsbD 0 = false ∧ mayUnbind s a = false then s
    else s.setSlot a { c with deflevel := fieldOf v 44 4, cap := fieldOf v 40 4, dbg := v.getLsbD 1, v := v.getLsbD 0,
                              used := if v.getLsbD 0 then c.used else [] })

end Sys2Proof.Machine
end

