-- ==== Sys2Proof/Machine/Registers.lean ====
section
/-! DEFINITION. Reads of 8 bytes through the monitor interface (R492): the value of every register, with write-only fields, reserved
fields and addresses outside the regions reading 0 (R7, R8). -/

namespace Sys2Proof.Machine

/-- A word from its fields: place of the lowest bit, and value. -/
def packFields (fs : List (Nat × Nat)) : Reg := BitVec.ofNat 64 ((fs.map (fun f => f.2 * 2 ^ f.1)).sum)

/-- One bit of a field. -/
def bitVal (b : Bool) : Nat := if b then 1 else 0

/-- The word at an offset among 8-byte words. -/
def wordAt (ws : List Reg) (off : Nat) : Reg := ws.getD (off / 8) 0

/-! ### A die's registers -/

/-- The dispatch register of a cluster (R391). -/
def dispatchWord (s : State) (c : Nat) : Reg :=
  let k := s.cluster c
  packFields [(21, residents s c), (12, min k.syslim k.clk.plim), (3, k.syslim),
    (2, bitVal ((s.pair (pairOf c)).gstate == 3)), (1, bitVal k.rsv)]

/-- ROTCTL and ROTSTAT (R408, R409). -/
def rotctlWord (k : Cluster) : Reg := packFields [(16, k.thresh), (12, k.maxsw), (0, bitVal k.roten)]
def rotstatWord (k : Cluster) : Reg :=
  packFields [(48, k.swaps), (32, k.aborts), (21, k.hot1), (18, k.cool1), (15, k.hot0), (12, k.cool0), (10, k.nlast)]

/-- CLKSTAT (R478). -/
def clkstatWord (k : Clock) : Reg :=
  packFields [(60, k.level), (56, k.target), (52, k.pcap), (48, k.ilevel), (44, k.fblevel), (41, k.cstate),
    (40, bitVal k.gsel), (39, bitVal k.clamp), (30, k.plim), (8, k.inocc), (0, k.outocc)]

/-- The words of a performance monitor (R506); CLR reads 0. -/
def monitorWords (m : Monitor) : List Reg :=
  packFields [(32, m.base), (16, m.shift), (0, m.src)] ::
    ([m.min_, m.max_, m.cnt, m.sum].map (BitVec.ofNat 64)
      ++ (List.range 8).map (fun i => packFields [(0, Table.get m.bins 0 (2 * i)), (32, Table.get m.bins 0 (2 * i + 1))]))

/-- The words of a pipe descriptor (R207). -/
def pipeWords (p : Pipe) : List Reg :=
  [packFields [(12, p.ring), (0, bitVal p.en)], packFields [(48, p.asid), (24, p.quota), (0, p.count)]]

/-- A read in a cluster's block (R492). CLKSTAT shows the occupancies of the instant (R480). -/
def clusterRead (s : State) (c off : Nat) : State × Reg :=
  let k := s.cluster c
  if off = 0 then (s, dispatchWord s c)
  else if off = 8 then (s, rotctlWord k)
  else if off = 0x10 then (s, rotstatWord k)
  else if off = 0x18 then
    let s := lookFifos s c true true
    (s, clkstatWord (s.cluster c).clk)
  else if 0x400 ≤ off ∧ off < 0x800 then
    (s, wordAt (monitorWords (Table.get k.mons Monitor.reset ((off - 0x400) / 128))) (off % 128))
  else if 0x800 ≤ off ∧ off < 0xC00 then (s, wordAt (pipeWords (s.pipe c ((off - 0x800) / 16))) (off % 16))
  else (s, 0)

/-- PAIRPWR and BALSTAT (R473, R485). -/
def pairWords (x : Pair) : List Reg :=
  [packFields [(27, x.gstate), (26, bitVal x.gateen), (16, x.vnow), (0, x.pfloor)],
   packFields ((List.range 16).map (fun i => (2 * i + 32, Table.get x.ballast 0 i))
     ++ [(22, x.ieven), (12, x.iodd), (0, bitVal x.bal)])]

/-- DIEPWR (R486). -/
def diepwrWord (x : Die) : Reg := packFields [(48, x.budget), (32, x.power), (16, x.overs), (0, x.hard)]

/-- The words of a convoy slot (R356). -/
def convoyWords (c : Convoy) : List Reg :=
  [packFields [(48, c.asid), (47, bitVal c.en), (40, c.members.length), (32, c.tag.toNat), (0, c.minpos)],
   BitVec.ofNat 64 c.base, c.istride, c.ostride]

/-- The words of the completion record of a TAG (R353). -/
def recordWordsOf (records : Table CopyRecord) (t : Nat) : List Reg :=
  match Table.find records t with
  | some r => [packFields [(32, r.base), (16, t), (2, r.state)], r.win]
  | none => [0, 0]

/-- A read in the block of die m (R492). -/
def dieRead (s : State) (m off : Nat) : State × Reg :=
  if off < 0x10000 then clusterRead s (16 * m + off / 0x1000) (off % 0x1000)
  else if 0x20000 ≤ off ∧ off < 0x20800 then
    (s, wordAt (pairWords (s.pair (8 * m + (off - 0x20000) / 0x100))) (off % 0x100))
  else if off = 0x30000 then (s, diepwrWord (s.die m))
  else if 0x40000 ≤ off ∧ off < 0x42000 then
    (s, wordAt (convoyWords (Table.get (s.die m).slots Convoy.reset ((off - 0x40000) / 32))) (off % 32))
  else if 0x60000 ≤ off ∧ off < 0x70000 then
    (s, wordAt (recordWordsOf (s.die m).records ((off - 0x60000) / 16)) (off % 16))
  else (s, 0)

/-! ### The I/O die's registers -/

/-- The words of a queue descriptor (R375). -/
def queueRegs (q : Queue) : List Reg :=
  [packFields [(32, q.ring % 2 ^ 32), (16, q.tail), (0, q.head)],
   packFields [(48, q.asid), (40, q.chsh), (32, q.ptsh), (29, q.prio), (26, q.eprio), (25, bitVal q.idem), (24, bitVal q.en),
     (22, q.state), (16, q.err), (12, q.size), (0, q.ring / 2 ^ 32)]]

/-- The words of a fault message (R435). -/
def messageWords (m : FaultMsg) : List Reg :=
  [BitVec.ofNat 64 m.va, packFields [(0, m.asid), (16, m.acc), (24, m.src), (32, m.tag)], BitVec.ofNat 64 m.handle,
   BitVec.ofNat 64 m.wg, BitVec.ofNat 64 m.warp]

/-- The number of the newest message that stands at place i of the fault ring, if there is one (R501). -/
def messageAt (d : Device) (i : Nat) : Option Nat :=
  let tail := ringTailOf d
  if i < tail % 256 then some (tail - tail % 256 + i)
  else if tail - tail % 256 ≥ 256 then some (tail - tail % 256 - 256 + i) else none

/-- A read of the fault ring or its pointers (R501); the reply register reads 0. -/
def ringRead (d : Device) (off : Nat) : Reg :=
  if off < 0x4000 then
    match (messageAt d (off / 64)).bind (Table.find d.ring) with
    | some m => wordAt (messageWords m) (off % 64)
    | none => 0
  else if off = 0x4000 then BitVec.ofNat 64 d.ringHead
  else if off = 0x4008 then BitVec.ofNat 64 (ringTailOf d)
  else 0

/-- The words of a context slot (R494). -/
def slotWords (c : Slot) : List Reg :=
  [packFields [(48, c.asid), (44, c.deflevel), (40, c.cap), (1, bitVal c.dbg), (0, bitVal c.v)], packFields [(12, c.ptroot)],
   packFields [(11, c.rtab)], packFields [(12, c.ctab), (0, c.ccnt)], packFields [(12, c.abase)],
   packFields [(48, c.asize), (0, c.acnt)], BitVec.ofNat 64 (c.acnt - c.used.length)]

/-- The words of the workgroup control block (R496); GO reads 0. -/
def wcbWords (d : Device) : List Reg :=
  [packFields [(60, d.wcbOp), (0, d.wcbSlot)], BitVec.ofNat 64 d.wcbHandle, BitVec.ofNat 64 d.wcbWgix,
   packFields [(8, d.wcbCode), (0, d.wcbState)]]

/-- A read in the I/O die's own regions, at an offset from 0x0400_0000 (R492). -/
def ioRead (s : State) (off : Nat) : Reg :=
  let d := s.dev
  if off < 0x4000 then
    (if off % 2048 < 1024 then wordAt (queueRegs (s.queue (queueKey (off / 2048) (off % 2048 / 16)))) (off % 16) else 0)
  else if 0x8000 ≤ off ∧ off < 0x9000 then BitVec.ofNat 64 (s.queue ((off - 0x8000) / 8)).tail
  else if 0x10000 ≤ off ∧ off < 0x18000 then ringRead d (off - 0x10000)
  else if 0x20000 ≤ off ∧ off < 0x28000 then wordAt (Table.get d.log [] ((off - 0x20000) / 32)) (off % 32)
  else if off = 0x28000 then BitVec.ofNat 64 d.logNext
  else if 0x30000 ≤ off ∧ off < 0x31000 then Table.get d.windows 0 ((off - 0x30000) / 8)
  else if off = 0x40000 then d.bootstrap
  else if 0x50000 ≤ off ∧ off < 0x50800 then wordAt (slotWords (s.slot ((off - 0x50000) / 256))) (off % 256)
  else if 0x60000 ≤ off ∧ off < 0x60020 then wordAt (wcbWords d) (off - 0x60000)
  else 0

/-- A read of 8 bytes through the monitor interface (R492): an address outside the regions, or that is no multiple of 8, reads 0. -/
def monitorRead (s : State) (addr : Nat) : State × Reg :=
  if addr % 8 ≠ 0 then (s, 0)
  else if addr < 0x04000000 then dieRead s (addr / 0x01000000) (addr % 0x01000000)
  else (s, ioRead s (addr - 0x04000000))

end Sys2Proof.Machine
end

