-- ==== Sys2Proof/Machine/Fabric.lean ====
section
/-! DEFINITION. The fabric as this device meets it (R449-R451), the monitor interface (R492, R493) and the host port (R503). -/

namespace Sys2Proof.Machine

/-! ### Inbound requests -/

/-- INBOUND_WINDOW_WRITE (R451). -/
def execInboundWindowWrite (entry word : Nat) (v : BitVec 64) (s : State) : Host.Outcome State Fault Refusal :=
  .next (if entry < 64 ∧ word < 3 then
      { s with dev := { s.dev with
        windows := Table.set s.dev.windows (8 * entry + word) (v &&& BitVec.ofNat 64 (windowMask word)) } }
    else s)

/-- A line read that no tile of this device makes, at its merge point (R288). -/
def outerRead (s : State) (line : Nat) : State := mergeRead s 512 line

/-- FABRIC_INBOUND_REQUEST of another device, served as an agent at system scope (R449, R451): a read of the line of pa, a write of the
bytes of that line that v names, or an atomic of `size` bytes at pa with v's data as its operand.
Every request that no window permits, that this device cannot perform, or whose type it does not know is answered without being
performed. -/
def execFabricInboundRequest (src kind pa size : Nat) (op : BitVec 4) (v : LineBytes) (s : State) :
    Host.Outcome State Fault Refusal :=
  .next (
    if kind > 2 ∨ windowPermits s.dev src kind pa = false ∨ inBase pa (if kind = 2 then size else 1) = false then s
    else if kind = 0 then outerRead s (lineOf pa)
    else if kind = 1 then (if v.mask = 0 then s else chanWriteLine s (lineOf pa) v.mask v.data)
    else if atomWidthOk op size && pa % size == 0 then unitAtomic s pa size op v.data.toNat
    else s)

/-! ### Completions -/

/-- What a completion's status makes of its request: a fault kind, or nothing (R449): 1 an error status, 2 a poisoned
completion. -/
def completionKind (status : Nat) : Option Nat := if status = 1 then some 4 else if status = 2 then some 6 else none

/-- The record of a request of an operation that left the device. -/
def Outst.farRecord (o : Outst) (lane va : Nat) : Option FaultRec :=
  o.far.find? (fun f => f.lane == lane && f.addr == BitVec.ofNat 64 va)

/-- A lane's destinations hold what they held before the operation (R186). -/
def Warp.undoLane (w : Warp) (o : Outst) (lane : Nat) : Warp :=
  if lane = 32 then o.oldS.foldl (fun w p => w.sset p.1 p.2) w
  else o.oldV.foldl (fun w p =>
    let x := w.vget p.1
    w.vset p.1 { x with lanes := laneNums.map (fun l => laneOf (if l = lane then p.2.lanes else x.lanes) l) }) w

/-- An operation's request failed: its lane keeps its bits, and completion makes the fault known (R186, R449). -/
def failRequest (w : Warp) (o : Outst) (f : FaultRec) : Warp :=
  let w := w.undoLane o f.lane
  { w with outs := w.outs.map (fun x => if x.id = o.id then { x with recs := x.recs ++ [f] } else x) }

/-- FABRIC_COMPLETION: for a lane below 32 or the uniform access (32) of an operation that left the device, one of its posted stores also
after it has completed (R340), or for the copy whose token is register lane − 64 (R449): the copy ends at the sector whose read or write failed, those below it being written, sent or
applied (R244, R352); one of a call whose group has not written its FLAGS ends the members of the group (R467). Of an access that this model makes in
one step (an object of ACQ, REL or WAITC, a stream element), it says how the warp's next request of that lane and address ends
(DESIGN CHOICE, log entry 2). -/
def execFabricCompletion (w : WRef) (lane status va : Nat) (s : State) : Host.Outcome State Fault Refusal :=
  .next (match completionKind status with
    | none => s
    | some kind =>
      if lane ≤ 32 then
        match s.warp w with
        | none => s
        | some x =>
          match x.outs.findSome? (fun o => (o.farRecord lane va).map (fun f => (o, f))) with
          | some (o, f) => s.setWarp w (failRequest x o { f with fkind := 0, kind := kind })
          | none =>
            match x.posted.find? (fun p => p.2.lane == lane && p.2.addr == BitVec.ofNat 64 va) with
            | some p => knowErrors s w { x with posted := x.posted.erase p } p.1 [{ p.2 with fkind := 0, kind := kind }]
            | none => s.setWarp w (x.farFail lane va kind)
      else
        match s.dev.copies.find? (fun c => c.2.w == w && c.2.tok + 64 == lane && c.2.started && c.2.err.isNone) with
        | some (_, c) =>
          let code := if kind = 4 then 0x03 else 0x05
          match s.call c.id with
          | some k => if groupFlagged s k then failCopy s c code c.next else failGroup s k code 0
          | none =>
            failCopy s c code c.next
        | none => s)

/-! ### The monitor interface -/

/-- A performance monitor's statistics and bins as after reset (R506). -/
def Monitor.cleared (m : Monitor) : Monitor := { Monitor.reset with base := m.base, shift := m.shift, src := m.src }

/-- Change a monitor of a cluster. -/
def State.updMonitor (s : State) (c k : Nat) (f : Monitor → Monitor) : State :=
  s.updCluster c (fun x => { x with mons := Table.set x.mons k (f (Table.get x.mons Monitor.reset k)) })

/-- PERF_MONITOR_CLEAR (R506). -/
def execPerfMonitorClear (cluster k : Nat) (s : State) : Host.Outcome State Fault Refusal :=
  .next (s.updMonitor cluster (k % 8) Monitor.cleared)

/-- A write of CTL of a monitor (R506, R507). -/
def Monitor.control (m : Monitor) (v : Reg) : Monitor :=
  let m := { m with base := fieldOf v 32 32, shift := fieldOf v 16 6, src := fieldOf v 0 5 }
  if v.getLsbD 8 then m.cleared else m

/-- The state that an event's meaning leads to; every event answers a next state. -/
def stateAfter (s : State) (o : Host.Outcome State Fault Refusal) : State :=
  match o with
  | .next t => t
  | _ => s

/-- A write of SYSLIM (R391): what a value outside 1 to 256 stores is not stated, and is a free value (DESIGN CHOICE, log entry 2). -/
def syslimWrite (s : State) (c n : Nat) : State :=
  if 1 ≤ n ∧ n ≤ 256 then s.updCluster c (fun k => { k with syslim := n })
  else s.draw.2.updCluster c (fun k => { k with syslim := 1 + s.draw.1.toNat % 256 })

/-- A write at an offset of a cluster's block (R391, R408, R478, R492, R506, R207). -/
def clusterWrite (s : State) (c off : Nat) (v : Reg) : State :=
  if off = 0 then syslimWrite s c (fieldOf v 3 9)
  else if off = 8 then stateAfter s (execRotctlWrite c v s)
  else if off = 0x18 then clkstatWrite s c v
  else if 0x400 ≤ off ∧ off < 0x800 then
    if off % 128 = 0 then s.updMonitor c ((off - 0x400) / 128) (fun m => m.control v) else s
  else if 0x800 ≤ off ∧ off < 0xC00 then stateAfter s (execPipeDescriptorWrite c ((off - 0x800) / 16) (off / 8 % 2) v s)
  else s

/-- A write in the block of a die (R492). -/
def dieWrite (s : State) (m off : Nat) (v : Reg) : State :=
  if off < 0x10000 then clusterWrite s (16 * m + off / 0x1000) (off % 0x1000) v
  else if 0x20000 ≤ off ∧ off < 0x20800 then
    if off % 0x100 = 0 then stateAfter s (execPairpwrWrite (8 * m + (off - 0x20000) / 0x100) v s) else s
  else if off = 0x30000 then stateAfter s (execDiepwrWrite m v s)
  else if 0x40000 ≤ off ∧ off < 0x42000 then
    if off % 32 = 0 then stateAfter s (execConvoySlotWrite m ((off - 0x40000) / 32) v s) else s
  else s

/-- A write of the workgroup control block: GO starts the request that the registers name; a write with GO while one is in
progress is ignored (R496). -/
def wcbRegister (s : State) (off : Nat) (v : Reg) : State :=
  let d := s.dev
  if off = 0x08 then { s with dev := { d with wcbHandle := fieldOf v 0 48 } }
  else if off = 0x10 then { s with dev := { d with wcbWgix := v.toNat } }
  else if off ≠ 0 then s
  else
    let op := fieldOf v 60 3
    let slot := fieldOf v 0 3
    if v.getLsbD 63 = false then { s with dev := { d with wcbOp := op, wcbSlot := slot } }
    else if d.wcbState = 1 then s
    else
      match op with
      | 1 => stateAfter s (execWcbPreempt slot d.wcbHandle d.wcbWgix s)
      | 2 => stateAfter s (execWcbPreemptGang slot d.wcbHandle d.wcbWgix s)
      | 3 => stateAfter s (execWcbRestore slot d.wcbHandle d.wcbWgix s)
      | 4 => stateAfter s (execWcbEnd slot d.wcbHandle d.wcbWgix s)
      | _ => wcbWrite s op slot d.wcbHandle d.wcbWgix 2 3

/-- A write in the I/O die's own regions, at an offset from 0x0400_0000 (R492). -/
def ioWrite (s : State) (off : Nat) (v : Reg) : State :=
  if off < 0x4000 then
    (if off % 2048 < 1024 then
      stateAfter s (execQueueDescriptorWrite (off / 2048) (off % 2048 / 16) (off / 8 % 2) v s) else s)
  else if 0x8000 ≤ off ∧ off < 0x9000 then
    stateAfter s (execDoorbell ((off - 0x8000) / 512) (off % 512 / 8) v s)
  else if off = 0x14000 then stateAfter s (execFaultRingHeadWrite v s)
  else if off = 0x14010 then stateAfter s (execFaultRingReply v s)
  else if 0x30000 ≤ off ∧ off < 0x31000 then
    stateAfter s (execInboundWindowWrite ((off - 0x30000) / 64) (off % 64 / 8) v s)
  else if 0x50000 ≤ off ∧ off < 0x50800 then
    stateAfter s (execContextSlotWrite ((off - 0x50000) / 256) (off % 256) v s)
  else if 0x60000 ≤ off ∧ off < 0x60020 then wcbRegister s (off - 0x60000) v
  else s

/-- A write of 8 bytes through the monitor interface: an address that is no multiple of 8, or lies outside the regions, and
a read-only register, take no write (R492). -/
def monitorWrite (s : State) (addr : Nat) (v : Reg) : State :=
  if addr % 8 ≠ 0 then s
  else if addr < 0x04000000 then dieWrite s (addr / 0x01000000) (addr % 0x01000000) v
  else ioWrite s (addr - 0x04000000) v

/-- MONITOR_REGISTER_WRITE (R492). -/
def execMonitorRegisterWrite (addr : Nat) (v : BitVec 64) (s : State) : Host.Outcome State Fault Refusal :=
  .next (monitorWrite s addr v)

/-! ### The host -/

/-- What BAR0 opens to the host for writing: the queue descriptors and the doorbells; and for reading: the error log too (R503). -/
def hostMayWrite (off : Nat) : Bool := decide (off < 0x4000) || (decide (0x8000 ≤ off) && decide (off < 0x9000))
def hostMayRead (off : Nat) : Bool := hostMayWrite off || (decide (0x20000 ≤ off) && decide (off < 0x30000))

/-- A read of the host returns a value. -/
def State.hostGets (s : State) (v : Reg) : State := { s with dev := { s.dev with hostRead := v } }

/-- A host access through BAR0 (R503): other addresses read 0 and take no write. -/
def bar0Access (s : State) (off : Nat) (write : Bool) (v : Reg) : State :=
  if write then (if hostMayWrite off then monitorWrite s (0x04000000 + off) v else s)
  else if hostMayRead off then
    let r := monitorRead s (0x04000000 + off)
    r.1.hostGets r.2
  else s.hostGets 0

/-- The parts of n bytes at an address, at most 128 of them, that lie in one line each. -/
def lineParts (pa n : Nat) : List (Nat × Nat) :=
  if pa % 128 + n ≤ 128 then [(pa, n)] else [(pa, 128 - pa % 128), (pa + (128 - pa % 128), n - (128 - pa % 128))]

/-- A host access of n bytes through BAR2, in the 64 GiB that it maps (R342, R503). -/
def bar2Access (s : State) (off n : Nat) (write : Bool) (v : Reg) : State :=
  let ps := lineParts (s.dev.bar2 + off) n
  if off + n ≤ 2 ^ 36 ∧ ps.all (fun p => inBase p.1 p.2) = true then
    (if write then ps.foldl (fun s p => chanWrite s p.1 p.2 (v.toNat / 256 ^ (p.1 - (s.dev.bar2 + off)) % 256 ^ p.2)) s
     else (ps.foldl (fun s p => outerRead s (lineOf p.1)) s).hostGets
      (BitVec.ofNat 64 (ps.foldl (fun a p => a + chanRead s p.1 p.2 * 256 ^ (p.1 - (s.dev.bar2 + off))) 0)))
  else s

/-- HOST_ACCESS: 8 bytes at a multiple of 8 through BAR0, or 1 to 8 bytes anywhere in the 64 GiB of BAR2 (R342, R492, R503). The low
four bits of the first field are the number of the BAR, the rest is the number of bytes, 8 where it is 0 (DESIGN CHOICE,
log entry 47). -/
def execHostAccess (bar off : Nat) (write : Bool) (v : BitVec 64) (s : State) : Host.Outcome State Fault Refusal :=
  let n := if bar / 16 = 0 then 8 else min 8 (bar / 16)
  .next (
    if !s.dev.hostUp then s
    else if bar % 16 = 0 then (if off % 8 = 0 then bar0Access s off write v else if write then s else s.hostGets 0)
    else if bar % 16 = 2 then bar2Access s off n write v
    else s)

end Sys2Proof.Machine
end

