-- ==== Sys2Proof/Machine/LaneFloat.lean ====
section
/-! DEFINITION. Moves, tag changes, floating arithmetic, special functions and conversions (R124-R133). -/

namespace Sys2Proof.Machine

/-- VMOV: bits and tag (R124). -/
def execVmov (d a : BitVec 7) (p : BitVec 3) (s : State) : Host.Outcome State Fault Refusal :=
  runUnary s (.vmov d a p) d a p .A (fun _ x => (x, 0))

/-- VMOVS: the low bits of V in every sub-element (R125). -/
def execVmovs (d : BitVec 7) (f : BitVec 5) (b : BitVec 7) (p : BitVec 3) (s : State) : Host.Outcome State Fault Refusal :=
  runLane s ⟨.vmovs d f b p, some p, [d], [], [], false⟩ (fun _ => true) noCheck
    (fun c => c.put (opdOf d) f (fun _ => splat f (rrsValue c.w b)))

/-- VTAG: bits unchanged under a new tag (R126). -/
def execVtag (d a : BitVec 7) (f : BitVec 5) (p : BitVec 3) (s : State) : Host.Outcome State Fault Refusal :=
  runLane s ⟨.vtag d a f p, some p, [d, a], [a], [a], false⟩ TagClass.A.has noCheck
    (fun c => c.put (opdOf d) f (c.val (opdOf a)))

/-- VFADD (R127). -/
def execVfaddRrr (d a b : BitVec 7) (p : BitVec 3) (s : State) : Host.Outcome State Fault Refusal :=
  runBinary s (.vfaddRrr d a b p) d a b p .F (fun t x y => floatLane t (fun f x y _ => fadd f (fdecode f x) (fdecode f y)) x y 0)

/-- VFSUB (R127). -/
def execVfsub (d a b : BitVec 7) (p : BitVec 3) (s : State) : Host.Outcome State Fault Refusal :=
  runBinary s (.vfsub d a b p) d a b p .F (fun t x y => floatLane t (fun f x y _ => fadd f (fdecode f x) (fdecode f y).negate) x y 0)

/-- VFMUL (R127). -/
def execVfmulRrr (d a b : BitVec 7) (p : BitVec 3) (s : State) : Host.Outcome State Fault Refusal :=
  runBinary s (.vfmulRrr d a b p) d a b p .F (fun t x y => floatLane t (fun f x y _ => fmul f (fdecode f x) (fdecode f y)) x y 0)

/-- VFMA, rounded once (R127). -/
def execVfma (d a b : BitVec 7) (p : BitVec 3) (s : State) : Host.Outcome State Fault Refusal :=
  runTernary s (.vfma d a b p) d a b p .F
    (fun t => floatLane t (fun f x y z => ffma f (fdecode f x) (fdecode f y) (fdecode f z)))

/-- VFMIN, the IEEE 754-2019 minimum (R127). -/
def execVfmin (d a b : BitVec 7) (p : BitVec 3) (s : State) : Host.Outcome State Fault Refusal :=
  runBinary s (.vfmin d a b p) d a b p .F (fun t x y => floatLane t (fun f x y _ => fminmax f false x y) x y 0)

/-- VFMAX, the IEEE 754-2019 maximum (R127). -/
def execVfmax (d a b : BitVec 7) (p : BitVec 3) (s : State) : Host.Outcome State Fault Refusal :=
  runBinary s (.vfmax d a b p) d a b p .F (fun t x y => floatLane t (fun f x y _ => fminmax f true x y) x y 0)

/-- VFABS: the sign bit cleared (R89, R127). -/
def execVfabs (d a : BitVec 7) (p : BitVec 3) (s : State) : Host.Outcome State Fault Refusal :=
  runUnary s (.vfabs d a p) d a p .FA (fun t x => bitLane t (fun w x _ _ => x % 2 ^ (w - 1)) x 0 0)

/-- VFNEG: the sign bit inverted (R89, R127). -/
def execVfneg (d a : BitVec 7) (p : BitVec 3) (s : State) : Host.Outcome State Fault Refusal :=
  runUnary s (.vfneg d a p) d a p .FA (fun t x => bitLane t (fun w x _ _ => xorBits x (2 ^ (w - 1))) x 0 0)

/-- The formats that the special functions accept, and those of VFSQRT (R128). -/
def specialClass : TagClass := .only [0x11, 0x12, 0x13]

/-- VFRCP (R128, R129). -/
def execVfrcp (d a : BitVec 7) (p : BitVec 3) (s : State) : Host.Outcome State Fault Refusal :=
  runUnary s (.vfrcp d a p) d a p specialClass (fun t x => floatLane t (fun f x _ _ => fspecial .rcp f x) x 0 0)

/-- VFRSQ (R128, R129). -/
def execVfrsq (d a : BitVec 7) (p : BitVec 3) (s : State) : Host.Outcome State Fault Refusal :=
  runUnary s (.vfrsq d a p) d a p specialClass (fun t x => floatLane t (fun f x _ _ => fspecial .rsq f x) x 0 0)

/-- VFSQRT (R128, R129). -/
def execVfsqrt (d a : BitVec 7) (p : BitVec 3) (s : State) : Host.Outcome State Fault Refusal :=
  runUnary s (.vfsqrt d a p) d a p .F (fun t x => floatLane t (fun f x _ _ => fspecial .sqrt f x) x 0 0)

/-- VFEX2 (R128, R129). -/
def execVfex2 (d a : BitVec 7) (p : BitVec 3) (s : State) : Host.Outcome State Fault Refusal :=
  runUnary s (.vfex2 d a p) d a p specialClass (fun t x => floatLane t (fun f x _ _ => fspecial .ex2 f x) x 0 0)

/-- VFLG2 (R128, R129). -/
def execVflg2 (d a : BitVec 7) (p : BitVec 3) (s : State) : Host.Outcome State Fault Refusal :=
  runUnary s (.vflg2 d a p) d a p specialClass (fun t x => floatLane t (fun f x _ _ => fspecial .lg2 f x) x 0 0)

/-- VFSIN (R128, R129). -/
def execVfsin (d a : BitVec 7) (p : BitVec 3) (s : State) : Host.Outcome State Fault Refusal :=
  runUnary s (.vfsin d a p) d a p specialClass (fun t x => floatLane t (fun f x _ _ => fspecial .sin f x) x 0 0)

/-- VFCOS (R128, R129). -/
def execVfcos (d a : BitVec 7) (p : BitVec 3) (s : State) : Host.Outcome State Fault Refusal :=
  runUnary s (.vfcos d a p) d a p specialClass (fun t x => floatLane t (fun f x _ _ => fspecial .cos f x) x 0 0)

/-- VFCLASS: class masks as n16 (R130). -/
def execVfclass (d a : BitVec 7) (p : BitVec 3) (s : State) : Host.Outcome State Fault Refusal :=
  runLane s ⟨.vfclass d a p, some p, [d, a], [a], [a], false⟩ TagClass.FA.has noCheck
    (fun c => c.put (opdOf d) 0x04#5 (fun l => classLane c.t (c.val (opdOf a) l)))

/-- VCVT: elements converted with a rounding mode; a raw source or destination is a format fault (R99, R131). -/
def execVcvt (d a : BitVec 7) (f : BitVec 5) (m : BitVec 2) (p : BitVec 3) (s : State) : Host.Outcome State Fault Refusal :=
  runLane s ⟨.vcvt d a f m p, some p, [d, a], [a], [a], false⟩
    (fun t => (TagClass.I.has t || TagClass.FA.has t) && decide (f ≠ 0)) noCheck
    (fun c => c.putFlags (opdOf d) f (fun l => cvtLane c.t f m.toNat (c.val (opdOf a) l)))

/-- VCVTS: stochastic conversion; SRSEED advances once, whatever the execution mask (R100, R132). -/
def execVcvts (d a : BitVec 7) (f : BitVec 5) (p : BitVec 3) (s : State) : Host.Outcome State Fault Refusal :=
  runLane s ⟨.vcvts d a f p, some p, [d, a], [a], [a], false⟩ (fun t => cvtsOk t f) noCheck
    (fun c =>
      let x := seedStep c.w.sp.srseed
      let w := c.putFlags (opdOf d) f (fun l => cvtsLane c.t f x l (c.val (opdOf a) l))
      { w with sp := { w.sp with srseed := x } })

/-- VPACK: part h of d replaced with the low bits of a; the tag of d equals the tag of a or is raw (R133). -/
def execVpack (d a : BitVec 7) (h : BitVec 4) (g p : BitVec 3) (s : State) : Host.Outcome State Fault Refusal :=
  runLane s ⟨.vpack d a h g p, some p, [d, a], [a], [a, d], false⟩ TagClass.A.has noCheck
    (fun c => c.put (opdOf d) c.t
      (fun l => packLane (groupBits g) h.toNat (c.val (opdOf a) l) (c.val (opdOf d) l)))

/-- VUNPK: a shifted right by h groups (R133). -/
def execVunpk (d a : BitVec 7) (h : BitVec 4) (g p : BitVec 3) (s : State) : Host.Outcome State Fault Refusal :=
  runLane s ⟨.vunpk d a h g p, some p, [d, a], [a], [a], false⟩ TagClass.A.has noCheck
    (fun c => c.put (opdOf d) c.t (fun l => unpkLane (groupBits g) h.toNat (c.val (opdOf a) l)))

/-- VFADD with an s-register (R112, R127). -/
def execVfaddRrs (d a b : BitVec 7) (p : BitVec 3) (s : State) : Host.Outcome State Fault Refusal :=
  runScalar s (.vfaddRrs d a b p) d a b p .F
    (fun t x v => floatLane t (fun f x y _ => fadd f (fdecode f x) (fdecode f y)) x (splat t v) 0)

/-- VFMUL with an s-register (R112, R127). -/
def execVfmulRrs (d a b : BitVec 7) (p : BitVec 3) (s : State) : Host.Outcome State Fault Refusal :=
  runScalar s (.vfmulRrs d a b p) d a b p .F
    (fun t x v => floatLane t (fun f x y _ => fmul f (fdecode f x) (fdecode f y)) x (splat t v) 0)

end Sys2Proof.Machine
end

