-- ==== Sys2Proof/Machine/LaneInt.lean ====
section
/-! DEFINITION. Integer, bitwise, shift and bit-field instructions, compares and selects (R118-R123), and index registers
(R178). -/

namespace Sys2Proof.Machine

/-- VADD: wrap(x + y) (R118). -/
def execVaddRrr (d a b : BitVec 7) (p : BitVec 3) (s : State) : Host.Outcome State Fault Refusal :=
  runBinary s (.vaddRrr d a b p) d a b p .I (fun t x y => intLane t (fun x y _ => x + y) x y 0)

/-- VSUB: wrap(x - y) (R118). -/
def execVsubRrr (d a b : BitVec 7) (p : BitVec 3) (s : State) : Host.Outcome State Fault Refusal :=
  runBinary s (.vsubRrr d a b p) d a b p .I (fun t x y => intLane t (fun x y _ => x - y) x y 0)

/-- VMUL: wrap(x * y) (R118). -/
def execVmulRrr (d a b : BitVec 7) (p : BitVec 3) (s : State) : Host.Outcome State Fault Refusal :=
  runBinary s (.vmulRrr d a b p) d a b p .I (fun t x y => intLane t (fun x y _ => x * y) x y 0)

/-- VMULH: the high half of the product (R118). -/
def execVmulh (d a b : BitVec 7) (p : BitVec 3) (s : State) : Host.Outcome State Fault Refusal :=
  runBinary s (.vmulh d a b p) d a b p .I (fun t x y => intLane t (fun x y _ => x * y / 2 ^ fmtWidth t) x y 0)

/-- VMAD: wrap(x * y + z) (R118). -/
def execVmad (d a b : BitVec 7) (p : BitVec 3) (s : State) : Host.Outcome State Fault Refusal :=
  runTernary s (.vmad d a b p) d a b p .I (fun t => intLane t (fun x y z => x * y + z))

/-- VADDSAT: clamp(x + y) (R118). -/
def execVaddsat (d a b : BitVec 7) (p : BitVec 3) (s : State) : Host.Outcome State Fault Refusal :=
  runBinary s (.vaddsat d a b p) d a b p .I (fun t x y => intLane t (fun x y _ => clampTo t (x + y)) x y 0)

/-- VSUBSAT: clamp(x - y) (R118). -/
def execVsubsat (d a b : BitVec 7) (p : BitVec 3) (s : State) : Host.Outcome State Fault Refusal :=
  runBinary s (.vsubsat d a b p) d a b p .I (fun t x y => intLane t (fun x y _ => clampTo t (x - y)) x y 0)

/-- VMIN, signed or unsigned by the tag (R118). -/
def execVmin (d a b : BitVec 7) (p : BitVec 3) (s : State) : Host.Outcome State Fault Refusal :=
  runBinary s (.vmin d a b p) d a b p .I (fun t x y => intLane t (fun x y _ => min x y) x y 0)

/-- VMAX, signed or unsigned by the tag (R118). -/
def execVmax (d a b : BitVec 7) (p : BitVec 3) (s : State) : Host.Outcome State Fault Refusal :=
  runBinary s (.vmax d a b p) d a b p .I (fun t x y => intLane t (fun x y _ => max x y) x y 0)

/-- VABS with wrap; an n-format keeps its value (R118). -/
def execVabs (d a : BitVec 7) (p : BitVec 3) (s : State) : Host.Outcome State Fault Refusal :=
  runUnary s (.vabs d a p) d a p .I (fun t x => intLane t (fun x _ _ => (x.natAbs : Int)) x 0 0)

/-- VNEG with wrap (R118). -/
def execVneg (d a : BitVec 7) (p : BitVec 3) (s : State) : Host.Outcome State Fault Refusal :=
  runUnary s (.vneg d a p) d a p .I (fun t x => intLane t (fun x _ _ => -x) x 0 0)

/-- VAND on bits (R118). -/
def execVandRrr (d a b : BitVec 7) (p : BitVec 3) (s : State) : Host.Outcome State Fault Refusal :=
  runBinary s (.vandRrr d a b p) d a b p .A (fun t x y => bitLane t (fun _ x y _ => andBits x y) x y 0)

/-- VOR on bits (R118). -/
def execVorRrr (d a b : BitVec 7) (p : BitVec 3) (s : State) : Host.Outcome State Fault Refusal :=
  runBinary s (.vorRrr d a b p) d a b p .A (fun t x y => bitLane t (fun _ x y _ => orBits x y) x y 0)

/-- VXOR on bits (R118). -/
def execVxor (d a b : BitVec 7) (p : BitVec 3) (s : State) : Host.Outcome State Fault Refusal :=
  runBinary s (.vxor d a b p) d a b p .A (fun t x y => bitLane t (fun _ x y _ => xorBits x y) x y 0)

/-- VANDN: x AND NOT y (R118). -/
def execVandn (d a b : BitVec 7) (p : BitVec 3) (s : State) : Host.Outcome State Fault Refusal :=
  runBinary s (.vandn d a b p) d a b p .A (fun t x y => bitLane t (fun w x y _ => andBits x (notBits w y)) x y 0)

/-- VNOT (R118). -/
def execVnot (d a : BitVec 7) (p : BitVec 3) (s : State) : Host.Outcome State Fault Refusal :=
  runUnary s (.vnot d a p) d a p .A (fun t x => bitLane t (fun w x _ _ => notBits w x) x 0 0)

/-- VSHL by the amount of each sub-element (R119). -/
def execVshlRrr (d a b : BitVec 7) (p : BitVec 3) (s : State) : Host.Outcome State Fault Refusal :=
  runBinary s (.vshlRrr d a b p) d a b p .B (fun t x y => bitLane t (fun w x n _ => shlBits w x n) x y 0)

/-- VSHR by the amount of each sub-element (R119). -/
def execVshrRrr (d a b : BitVec 7) (p : BitVec 3) (s : State) : Host.Outcome State Fault Refusal :=
  runBinary s (.vshrRrr d a b p) d a b p .B (fun t x y => bitLane t (fun w x n _ => shrBits w x n) x y 0)

/-- VSAR by the amount of each sub-element (R119). -/
def execVsarRrr (d a b : BitVec 7) (p : BitVec 3) (s : State) : Host.Outcome State Fault Refusal :=
  runBinary s (.vsarRrr d a b p) d a b p .B (fun t x y => bitLane t (fun w x n _ => sarBits w x n) x y 0)

/-- VROL by the amount modulo w (R119). -/
def execVrol (d a b : BitVec 7) (p : BitVec 3) (s : State) : Host.Outcome State Fault Refusal :=
  runBinary s (.vrol d a b p) d a b p .B (fun t x y => bitLane t (fun w x n _ => rolBits w x n) x y 0)

/-- VCLZ (R118). -/
def execVclz (d a : BitVec 7) (p : BitVec 3) (s : State) : Host.Outcome State Fault Refusal :=
  runUnary s (.vclz d a p) d a p .B (fun t x => bitLane t (fun w x _ _ => clzBits w x) x 0 0)

/-- VPOPC (R118). -/
def execVpopc (d a : BitVec 7) (p : BitVec 3) (s : State) : Host.Outcome State Fault Refusal :=
  runUnary s (.vpopc d a p) d a p .B (fun t x => bitLane t (fun w x _ _ => popBits w x) x 0 0)

/-- VBREV (R118). -/
def execVbrev (d a : BitVec 7) (p : BitVec 3) (s : State) : Host.Outcome State Fault Refusal :=
  runUnary s (.vbrev d a p) d a p .B (fun t x => bitLane t (fun w x _ _ => revBits w x) x 0 0)

/-- Position and length of a bit field, from V (R120). -/
def fieldPos (v : Reg) : Nat := fieldOf v 0 6
def fieldLen (v : Reg) : Nat := fieldOf v 8 6

/-- VBFX: extract a bit field, extended by the kind of the tag (R120). -/
def execVbfx (d a b : BitVec 7) (p : BitVec 3) (s : State) : Host.Outcome State Fault Refusal :=
  runScalar s (.vbfx d a b p) d a b p .B
    (fun t x v => bitLane t (fun w x _ _ => bfExtract (isSigned t) w x (fieldPos v) (fieldLen v)) x 0 0)

/-- VBFI: insert into a bit field of d (R120). -/
def execVbfi (d a b : BitVec 7) (p : BitVec 3) (s : State) : Host.Outcome State Fault Refusal :=
  runScalarInto s (.vbfi d a b p) d a b p .B
    (fun t x v z => bitLane t (fun w x _ z => bfInsert w x z (fieldPos v) (fieldLen v)) x 0 z)

/-- VAMIN: clamp(min(z, x + y)) with the exact sum (R118, R119). -/
def execVamin (d a b : BitVec 7) (p : BitVec 3) (s : State) : Host.Outcome State Fault Refusal :=
  runTernary s (.vamin d a b p) d a b p .I (fun t => intLane t (fun x y z => clampTo t (min z (x + y))))

/-- VAMAX: clamp(max(z, x + y)) with the exact sum (R118, R119). -/
def execVamax (d a b : BitVec 7) (p : BitVec 3) (s : State) : Host.Outcome State Fault Refusal :=
  runTernary s (.vamax d a b p) d a b p .I (fun t => intLane t (fun x y z => clampTo t (max z (x + y))))

/-- VADD with V (R112, R118). -/
def execVaddRrs (d a b : BitVec 7) (p : BitVec 3) (s : State) : Host.Outcome State Fault Refusal :=
  runScalar s (.vaddRrs d a b p) d a b p .I (fun t x v => intLane t (fun x y _ => x + y) x (splat t v) 0)

/-- VSUB with V (R112, R118). -/
def execVsubRrs (d a b : BitVec 7) (p : BitVec 3) (s : State) : Host.Outcome State Fault Refusal :=
  runScalar s (.vsubRrs d a b p) d a b p .I (fun t x v => intLane t (fun x y _ => x - y) x (splat t v) 0)

/-- VMUL with V (R112, R118). -/
def execVmulRrs (d a b : BitVec 7) (p : BitVec 3) (s : State) : Host.Outcome State Fault Refusal :=
  runScalar s (.vmulRrs d a b p) d a b p .I (fun t x v => intLane t (fun x y _ => x * y) x (splat t v) 0)

/-- VAND with V (R112, R118). -/
def execVandRrs (d a b : BitVec 7) (p : BitVec 3) (s : State) : Host.Outcome State Fault Refusal :=
  runScalar s (.vandRrs d a b p) d a b p .A (fun t x v => bitLane t (fun _ x y _ => andBits x y) x (splat t v) 0)

/-- VOR with V (R112, R118). -/
def execVorRrs (d a b : BitVec 7) (p : BitVec 3) (s : State) : Host.Outcome State Fault Refusal :=
  runScalar s (.vorRrs d a b p) d a b p .A (fun t x v => bitLane t (fun _ x y _ => orBits x y) x (splat t v) 0)

/-- VSHL by the whole of V (R119). -/
def execVshlRrs (d a b : BitVec 7) (p : BitVec 3) (s : State) : Host.Outcome State Fault Refusal :=
  runScalar s (.vshlRrs d a b p) d a b p .B (fun t x v => bitLane t (fun w x _ _ => shlBits w x v.toNat) x 0 0)

/-- VSHR by the whole of V (R119). -/
def execVshrRrs (d a b : BitVec 7) (p : BitVec 3) (s : State) : Host.Outcome State Fault Refusal :=
  runScalar s (.vshrRrs d a b p) d a b p .B (fun t x v => bitLane t (fun w x _ _ => shrBits w x v.toNat) x 0 0)

/-- VSAR by the whole of V (R119). -/
def execVsarRrs (d a b : BitVec 7) (p : BitVec 3) (s : State) : Host.Outcome State Fault Refusal :=
  runScalar s (.vsarRrs d a b p) d a b p .B (fun t x v => bitLane t (fun w x _ _ => sarBits w x v.toNat) x 0 0)

/-- Write a predicate from a lane condition: lanes of the active mask outside the execution mask get 0, lanes outside the
active mask and lanes with a faulted element keep their bits (R121). Under an empty execution mask they get 0 too, also where the
operands give no tag (R111; DEDUCED, log entry 7). -/
def LaneCtx.putPred (c : LaneCtx) (q : Nat) (f : Nat → Bool) : Warp :=
  let act := c.w.active
  let old := c.w.pget q
  let new := maskOf (fun l =>
    if !act.getLsbD l || c.bad.getLsbD l then old.getLsbD l else c.m.getLsbD l && f l)
  c.w.pset q new

/-- VCMP (R121, R122). -/
def execVcmp (q : BitVec 3) (n : BitVec 1) (c : BitVec 3) (a b : BitVec 7) (p : BitVec 3) (s : State) : Host.Outcome State Fault Refusal :=
  runLane s ⟨.vcmp q n c a b p, some p, [a, b], [a, b], [a, b], false⟩ TagClass.I.has noCheck
    (fun x => x.putPred q.toNat (fun l => cmpLane x.t c.toNat (n == 1) (x.val (opdOf a) l) (x.val (opdOf b) l)))

/-- VFCMP, with the NV it raises (R121, R122). -/
def execVfcmp (q : BitVec 3) (n : BitVec 1) (c : BitVec 3) (a b : BitVec 7) (p : BitVec 3) (s : State) : Host.Outcome State Fault Refusal :=
  runLane s ⟨.vfcmp q n c a b p, some p, [a, b], [a, b], [a, b], false⟩ TagClass.FA.has noCheck
    (fun x =>
      let f := fun l => fcmpLane x.t c.toNat (n == 1) (x.val (opdOf a) l) (x.val (opdOf b) l)
      let fl := (lanesIn (x.m &&& ~~~x.bad)).foldl (fun acc l => acc ||| (f l).2) 0
      (x.putPred q.toNat (fun l => (f l).1)).raise fl)

/-- VSEL: a or b by the bit of pk, in every active lane (R123). -/
def execVsel (d a b : BitVec 7) (k : BitVec 3) (s : State) : Host.Outcome State Fault Refusal :=
  runLane s ⟨.vsel d a b k, none, [d, a, b], [a, b], [a, b], false⟩ TagClass.A.has noCheck
    (fun c => c.put (opdOf d) c.t
      (fun l => if (c.w.pget k.toNat).getLsbD l then c.val (opdOf a) l else c.val (opdOf b) l))

/-- An index limited to what an index register holds: out of range gives 255 (R178). -/
def clampIndex (v : Int) : Nat := if 0 ≤ v ∧ v ≤ 255 then v.toNat else 255

/-- XSET: an index register from sub-element 0 of a (R178). It takes no index fault for the value it writes; an operand that an index
register names outside the window switches the lane off as for every instruction (R19, R114) (DEDUCED, log entry 48). -/
def execXset (k : BitVec 2) (a : BitVec 7) (p : BitVec 3) (s : State) : Host.Outcome State Fault Refusal :=
  runLane s ⟨.xset k a p, some p, [a], [a], [a], false⟩ TagClass.B.has noCheck
    (fun c => if c.undef then c.w else c.w.xset k.toNat (c.m &&& ~~~c.bad)
      (fun l => clampIndex (elVal c.t (subEl (fmtWidth c.t) (c.val (opdOf a) l) 0))))

/-- XADD: an index register plus V read signed (R178). -/
def execXadd (k j : BitVec 2) (b : BitVec 7) (p : BitVec 3) (s : State) : Host.Outcome State Fault Refusal :=
  runLane s ⟨.xadd k j b p, some p, [], [], [], false⟩ (fun _ => true) noCheck
    (fun c => c.w.xset k.toNat c.m
      (fun l => clampIndex ((c.w.xget j.toNat l : Int) + (rrsValue c.w b).toInt)))

end Sys2Proof.Machine
end

