-- ==== Sys2Proof/Machine/Streams.lean ====
section
/-! DEFINITION. Setting and saving streams (R200-R203), and the group registers (R205, R206). -/

namespace Sys2Proof.Machine

/-- Leave the stream's convoy if it is a member (R203). -/
def outOfConvoy (s : State) (r : WRef) (g : Workgroup) (w : Warp) (n : Nat) : State × Warp :=
  if w.sp.cvm.getLsbD n then
    let s := leaveConvoy s (dieOf g.tile) r n
    (s, (s.warp r).getD w)
  else (s, w)

/-- Set a stream, drop its prefetched vectors, start prefetch again, and retire (R201-R203). -/
def restream (s : State) (r : WRef) (g : Workgroup) (w : Warp) (n : Nat) (f : Stream → Stream) : State :=
  let q := outOfConvoy s r g w n
  let w1 := q.2.setStream n { f (q.2.stream n) with pre := [] }
  let p := prefetch q.1 r g w1 n
  retire p.1 r g w p.2 false

/-- Whether the words of STSET break R201. -/
def streamWordsBad (w0 w1 : Reg) : Bool :=
  decide (fieldOf w0 56 8 ≠ 0) || decide (fieldOf w0 53 3 > 4) || !byteFmt (BitVec.ofNat 5 (fieldOf w0 48 5))
    || decide (fieldOf w1 0 32 = 0) || decide (fieldOf w1 32 32 = 0)

/-- STSET (R201, R203). -/
def execStset (a : BitVec 6) (n : BitVec 3) (s : State) : Host.Outcome State Fault Refusal :=
  runNamed s (.stset a n) (fun w => w.active) (fun s r g w =>
    let x := fun i => w.sget (a.toNat + i)
    if streamWordsBad (x 0) (x 1) then preciseTrap s r w 0x02
    else restream s r g w n.toNat (fun _ => ⟨x 0, x 1, x 2, x 3, 0, []⟩))

/-- Word k of a stream (R24). -/
def Stream.word (x : Stream) (k : Nat) : Reg :=
  match k with
  | 0 => x.w0
  | 1 => x.w1
  | 2 => x.w2
  | 3 => x.w3
  | _ => x.w4

/-- STSAVE (R202). -/
def execStsave (d : BitVec 6) (k n : BitVec 3) (s : State) : Host.Outcome State Fault Refusal :=
  runUniform s (.stsave d k n) (fun w => .ok (w.sset d.toNat ((w.stream n.toNat).word k.toNat)))

/-- STPOS (R202, R203). -/
def execStpos (a : BitVec 6) (n : BitVec 3) (s : State) : Host.Outcome State Fault Refusal :=
  runNamed s (.stpos a n) (fun w => w.active) (fun s r g w =>
    restream s r g w n.toNat (fun x => { x with w4 := BitVec.ofNat 64 (fieldOf (w.sget a.toNat) 0 32) }))

/-- STSKIP (R202, R203). -/
def execStskip (a : BitVec 6) (n : BitVec 3) (s : State) : Host.Outcome State Fault Refusal :=
  runNamed s (.stskip a n) (fun w => w.active) (fun s r g w =>
    restream s r g w n.toNat (fun x =>
      { x with w4 := setField x.w4 0 32 (min (x.pos + (w.sget a.toNat).toNat) (2 ^ 32 - 1)) }))

/-! ### Group registers -/

/-- Group register k as the writes that have issued leave it (R29). -/
def Workgroup.gget (g : Workgroup) (k : Nat) : Reg := Table.get g.g 0 k
def Workgroup.gset (g : Workgroup) (k : Nat) (x : Reg) : Workgroup := { g with g := Table.set g.g k x }

/-- Group register k as a GRD reads it at a cycle of the tile: as it was before the first write of this cycle or the one before it (R29;
DESIGN CHOICE, log entry 23). -/
def Workgroup.gread (g : Workgroup) (now : Reg) (k : Nat) : Reg :=
  match g.fresh now k with
  | x :: _ => x.old
  | [] => g.gget k

/-- A warp writes group register k at a cycle of the tile (R29, R206). -/
def Workgroup.gwrite (g : Workgroup) (now : Reg) (wp k : Nat) (x : Reg) : Workgroup :=
  { g.gset k x with recent := Table.set g.recent k (g.fresh now k ++ [⟨g.gget k, now, wp⟩]) }

/-- GRD (R29, R205). -/
def execGrd (d : BitVec 6) (k : BitVec 4) (s : State) : Host.Outcome State Fault Refusal :=
  runNamed s (.grd d k) (fun w => w.active) (fun s r g w =>
    retire s r g w (w.sset d.toNat (g.gread (s.tile g.tile).cycle k.toNat)) false)

/-- GWR (R205, R206). -/
def execGwr (a : BitVec 6) (k : BitVec 4) (s : State) : Host.Outcome State Fault Refusal :=
  runNamed s (.gwr a k) (fun w => w.active) (fun s r g w =>
    retire (s.updWg r.wg (fun g => g.gwrite (s.tile g.tile).cycle r.wp k.toNat (w.sget a.toNat))) r g w w false)

/-- The old value that GATOM returns, and the register after it: .FADD and .BFADD work on the low bits alone (R205). -/
def gatomOn (o : BitVec 4) (old v : Reg) : Reg × Reg :=
  let n := 8 * atomSize o
  let x := old.toNat % 2 ^ n
  (BitVec.ofNat 64 x, BitVec.ofNat 64 (old.toNat - x + atomNew o n x (v.toNat % 2 ^ n)))

/-- GATOM (R205, R206): it works on what every earlier write has left. -/
def execGatom (d : BitVec 6) (k : BitVec 4) (b : BitVec 6) (o : BitVec 4) (s : State) :
    Host.Outcome State Fault Refusal :=
  runNamed s (.gatom d k b o) (fun w => w.active) (fun s r g w =>
    let q := gatomOn o (g.gget k.toNat) (w.sget b.toNat)
    retire (s.updWg r.wg (fun g => g.gwrite (s.tile g.tile).cycle r.wp k.toNat q.2)) r g w (w.sset d.toNat q.1) false)

end Sys2Proof.Machine
end

