-- ==== Sys2Proof/Machine/System.lean ====
section
/-! DEFINITION. The special registers and the system instructions that act on the warp and its cluster (R269-R272, R276,
R279, R280). -/

namespace Sys2Proof.Machine

/-- CVSTAT (R270). -/
def WarpSpecial.cvstat (x : WarpSpecial) : Reg := BitVec.ofNat 64 (x.merged * 2 ^ 40 + x.unmerged * 2 ^ 16 + x.detach)

/-- The value of a special register, as a lane reads it (R269, R270, R274); other numbers than these are reserved. -/
def specialRead (s : State) (r : WRef) (g : Workgroup) (w : Warp) (n lane : Nat) : Reg :=
  let nat := fun (x : Nat) => BitVec.ofNat 64 x
  match n with
  | 0x00 => nat lane
  | 0x01 => nat r.wp
  | 0x02 => nat g.wx
  | 0x03 => nat g.wy
  | 0x04 => nat g.wz
  | 0x05 => nat g.gangix
  | 0x06 => nat g.tile
  | 0x07 => nat (clusterOf g.tile)
  | 0x08 => nat (dieOf g.tile)
  | 0x09 => nat s.dev.devid
  | 0x0A => (s.tile g.tile).cycle
  | 0x0B => w.sp.fstat.setWidth 64
  | 0x0C => w.c.fmask.setWidth 64
  | 0x0D => w.sp.mrow
  | 0x0E => w.sp.cvm.setWidth 64
  | 0x0F => w.sp.cvslip.setWidth 64
  | 0x10 => w.sp.cvpat.setWidth 64
  | 0x11 => nat (cvpos s (dieOf g.tile) r w)
  | 0x12 => w.sp.cvstat
  | 0x13 => nat (s.cluster (clusterOf g.tile)).ratio
  | 0x14 => nat (s.cluster (clusterOf g.tile)).clk.level
  | 0x15 => w.sp.srseed
  | 0x16 => nat (warpPrio g r.wp w)
  | 0x17 => w.sp.hvFault
  | 0x18 => w.sp.hvCancel
  | 0x19 => w.sp.hvPreempt
  | 0x1A => w.sp.hvTrap
  | _ => 0

/-- SRD (R271). -/
def execSrd (d n : BitVec 6) (s : State) : Host.Outcome State Fault Refusal :=
  runNamed s (.srd d n) (fun w => w.active) (fun s r g w =>
    retire s r g w (w.sset d.toNat (specialRead s r g w n.toNat 0)) false)

/-- SRD.V (R271): LANEID with tag n32, every other register with tag n64. -/
def execSrdV (d : BitVec 6) (h : BitVec 1) (n : BitVec 6) (s : State) : Host.Outcome State Fault Refusal :=
  runNamed s (.srdV d h n) (fun w => w.active) (fun s r g w =>
    let tag : BitVec 5 := if n = 0 then 0x06#5 else 0x08#5
    retire s r g w
      (writeDst w (.reg (h.toNat * 64 + d.toNat)) tag w.active 0 (fun l => specialRead s r g w n.toNat l)) false)

/-- What SWR does to a writable register other than MROW; none where the value takes the trap (R272). -/
def specialWrite (w : Warp) (n : Nat) (a : Reg) : Option Warp :=
  let put := fun (f : WarpSpecial → WarpSpecial) => { w with sp := f w.sp }
  let v := a.toNat
  let vecOk := decide (v % 4 = 0) && decide (v < 2 ^ 48)
  match n with
  | 0x0B => some (w.setFstat a)
  | 0x0F => if v = 0 ∨ v > 64 then none else some (put (fun x => { x with cvslip := BitVec.ofNat 8 v }))
  | 0x10 => if v = 0 ∨ v > 65535 then none else some (put (fun x => { x with cvpat := BitVec.ofNat 16 v }))
  | 0x15 => some (put (fun x => { x with srseed := if a = 0 then 1 else a }))
  | 0x17 => if vecOk then some (put (fun x => { x with hvFault := a })) else none
  | 0x18 => if vecOk then some (put (fun x => { x with hvCancel := a })) else none
  | 0x19 => if vecOk then some (put (fun x => { x with hvPreempt := a })) else none
  | 0x1A => if vecOk then some (put (fun x => { x with hvTrap := a })) else none
  | _ => none

/-- SWR (R271, R272). A write of MROW with ACT retires and starts a resumption, whose run is named by the SWR's place. -/
def execSwr (a n : BitVec 6) (s : State) : Host.Outcome State Fault Refusal :=
  runNamed s (.swr a n) (fun w => w.active) (fun s r g w =>
    let v := w.sget a.toNat
    if n = 0x0D#6 then
      let s := retire s r g w (w.setMrow (v &&& mrowMask)) false
      if v.getLsbD 63 then resumeMatrix s r w.pcOf w.c.pos.hdr w.c.pos.idx else s
    else
      match specialWrite w n.toNat v with
      | some w' => retire s r g w w' false
      | none => preciseTrap s r w 0x01)

/-- REGION: the restart record of the warp (R276). -/
def execRegion (a : BitVec 6) (o : BitVec 12) (s : State) : Host.Outcome State Fault Refusal :=
  runNamed s (.region a o) (fun w => w.active) (fun s r g w =>
    retire s r g w { w with region := some (wrapTo 64 ((w.pcOf : Int) + 4 * o.toInt), w.sget a.toNat) } false)

/-- SLEEP retires, and the warp is not ready for t ticks of its die; t of 0 has no effect (R279). -/
def execSleep (a : BitVec 6) (s : State) : Host.Outcome State Fault Refusal :=
  runNamed s (.sleep a) (fun w => w.active) (fun s r g w =>
    let t := fieldOf (w.sget a.toNat) 0 32
    let s := retire s r g w w false
    if t = 0 then s
    else s.updWarp r (fun w => { w with c := { w.c with wait := .sleep ((s.die (dieOf g.tile)).tick + t) } }))

/-- SLEEP_EXPIRE: the count has ended (R279). -/
def execSleepExpire (r : WRef) (s : State) : Host.Outcome State Fault Refusal :=
  .next (match s.wg r.wg, s.warp r with
    | some g, some w =>
      match w.c.wait with
      | .sleep t =>
        if t ≤ (s.die (dieOf g.tile)).tick then s.setWarp r { w with c := { w.c with wait := .none } } else s
      | _ => s
    | _, _ => s)

/-- The request of a context on a cluster (R280): the slot's default level until one was made. -/
def requestOf (s : State) (c slot : Nat) : Nat := Table.get (s.cluster c).requests (s.slot slot).deflevel slot

/-- SETPERF (R280, R474). -/
def execSetperf (d a : BitVec 6) (s : State) : Host.Outcome State Fault Refusal :=
  runNamed s (.setperf d a) (fun w => w.active) (fun s r g w =>
    let v := w.sget a.toNat
    let c := clusterOf g.tile
    let cap := (s.slot g.slot).cap
    let want := fieldOf v 0 4
    let l := min want cap
    let code := if fieldOf v 4 60 ≠ 0 then 3
      else if levelVoltage l < (s.pair (pairOf c)).pfloor then 1
      else if want > cap then 2 else 0
    let s := if code % 2 = 1 then s
      else refreshClock (s.setCluster c { s.cluster c with requests := Table.set (s.cluster c).requests g.slot l }) c
    let sd := code + requestOf s c g.slot * 2 ^ 8 + clockTarget (s.cluster c) * 2 ^ 12
    retire s r g w (w.sset d.toNat (BitVec.ofNat 64 sd)) false)

end Sys2Proof.Machine
end

