-- ==== Sys2Proof/Machine/Traps.lean ====
section
/-! DEFINITION. Entering a handler at a boundary, leaving one, and the instructions that raise and end traps
(R273, R275, R426-R431, R434). -/

namespace Sys2Proof.Machine

/-- The first event that is due at a boundary enters its handler: a known global fault, a trap, a cancel, a pre-empt
(R431); before them one whose entry has waited for its pages. A warp in a handler, ended or done takes none (R429), nor one that is
parked, but for a cancel or a pre-empt (R436), nor one of a workgroup that is ending or is discarded, which stops
(R421, R442). The bound of a cancel runs from its trap (R443); at a pre-empt
an outstanding matrix instruction stops (R232), and the trap detaches in its place in the tick's order (R373). -/
def enterPending (s : State) (r : WRef) : State :=
  match s.wg r.wg, s.warp r with
  | some g, some w =>
    if !g.live || !w.takes || w.c.ended || w.c.sigdone then s
    else
    match w.c.entry with
    | some e => enterException s r { w with c := { w.c with entry := none } } e
    | none =>
    if !w.c.recs.isEmpty then
      takeException s r { w with c := { w.c with recs := [] } } 0x10 0 w.c.recs none
    else
      match w.c.trapNo with
      | some n => takeException s r { w with c := { w.c with trapNo := none } } 0x20 n [] none
      | none =>
        if w.c.cancelReq then
          let s := s.updWg r.wg (fun g => { g with cancelTick := g.cancelTick.or (some (s.die (dieOf g.tile)).tick) })
          takeException s r { w with c := { w.c with cancelReq := false } } 0x30 0 [] none
        else if w.c.preReq then
          if s.leavesPast (dieOf g.tile) 2 r then s else
          let s := stopMatrix s r
          let w := (s.warp r).getD w
          takeException s r { w with c := { w.c with preReq := false } } 0x40 0 [] none
        else s
  | _, _ => s

/-- HANDLER_ENTRY (R426, R431). A warp whose tile is in a swap takes a known fault in the quiesce, and any other event once the
swap has ended (R414). -/
def execHandlerEntry (r : WRef) (s : State) : Host.Outcome State Fault Refusal :=
  .next (match s.wg r.wg, s.warp r with
    | some g, some w => if s.swapping g.tile && !(s.quiescing g.tile && w.faultDue) then s else enterPending s r
    | _, _ => s)

/-- WARP_REPLAY: every message has its reply, and the warp is ready to issue the instruction again (R434). -/
def execWarpReplay (r : WRef) (s : State) : Host.Outcome State Fault Refusal :=
  .next (s.updWarp r (fun w => match w.c.wait with
    | .park [] => { w with c := { w.c with wait := .none } }
    | _ => w))

/-- TRAP n: retires, and its trap is taken at the boundary that follows, after a fault that is already known (R273, R431);
in a handler it is a handler fault (R430). -/
def execTrap (n : BitVec 8) (s : State) : Host.Outcome State Fault Refusal :=
  runNamed s (.trap n) (fun w => w.active) (fun s r g w =>
    let s := retire s r g w { w with c := { w.c with trapNo := some n.toNat } } false
    match s.warp r with
    | some w' =>
      if w'.c.handler.isSome then takeException s r { w' with c := { w'.c with trapNo := none } } 0x20 n.toNat [] none
      else enterPending s r
    | none => s)

/-- TRET: leaves the handler; outside one, or not last in its clause, it traps (R57, R273, R428). -/
def execTret (s : State) : Host.Outcome State Fault Refusal :=
  lastOnly s (runNamed s .tret (fun w => w.active) (fun s r _ w =>
    match w.c.handler with
    | some k => returnFromException { s with issues := s.issues + 1 } r { w with lastIssue := s.issues } k
    | none => preciseTrap s r w 0x01))

/-- SIGDONE: the warp is done with its pre-empt handler and issues nothing further (R275). -/
def execSigdone (s : State) : Host.Outcome State Fault Refusal :=
  runNamed s .sigdone (fun w => w.active) (fun s r _ w =>
    if w.c.handler = some 3 then
      let s := { s with issues := s.issues + 1 }
      s.setWarp r { w with lastIssue := s.issues - 1, c := { w.c with sigdone := true } }
    else preciseTrap s r w 0x01)

/-- BKPT n: no effect unless the slot's DBG is set; then the warp parks, and a break message goes into the fault ring
(R273, R435, R501). -/
def execBkpt (n : BitVec 8) (s : State) : Host.Outcome State Fault Refusal :=
  runNamed s (.bkpt n) (fun w => w.active) (fun s r g w =>
    if (s.slot g.slot).dbg then
      let m : FaultMsg := ⟨w.pcOf, s.asidOf g, n.toNat, 3, 0, g.handle, g.wgix, r.wp, r.wg, clusterOf g.tile,
        (s.die (dieOf g.tile)).tick, false⟩
      let tag := s.dev.nextTag
      (sendMessage s m).setWarp r { w with c := { w.c with wait := .brk tag } }
    else retire s r g w w false)

end Sys2Proof.Machine
end

