-- ==== Sys2Proof/Machine/Uniform.lean ====
section
/-! DEFINITION. Uniform arithmetic, moves between lanes, predicates and s-registers, and the register window
(R156-R161, R177 apart, R179). -/

namespace Sys2Proof.Machine

/-- Write one s-register and go on. -/
def runSet (s : State) (i : Instr) (d : BitVec 6) (f : Warp → Reg) : Host.Outcome State Fault Refusal :=
  runUniform s i (fun w => .ok (w.sset d.toNat (f w)))

/-- A register form: sd from sa and sb (R156). -/
def runAlu (s : State) (i : Instr) (d a b : BitVec 6) (f : Reg → Reg → Reg) : Host.Outcome State Fault Refusal :=
  runSet s i d (fun w => f (w.sget a.toNat) (w.sget b.toNat))

/-- A form of one source (R156, R158). -/
def runAlu1 (s : State) (i : Instr) (d a : BitVec 6) (f : Reg → Reg) : Host.Outcome State Fault Refusal :=
  runSet s i d (fun w => f (w.sget a.toNat))

/-- SADD (R156). -/
def execSadd (d a b : BitVec 6) (s : State) : Host.Outcome State Fault Refusal :=
  runAlu s (.sadd d a b) d a b (fun x y => x + y)

/-- SSUB (R156). -/
def execSsub (d a b : BitVec 6) (s : State) : Host.Outcome State Fault Refusal :=
  runAlu s (.ssub d a b) d a b (fun x y => x - y)

/-- SMUL, low 64 bits (R156). -/
def execSmul (d a b : BitVec 6) (s : State) : Host.Outcome State Fault Refusal :=
  runAlu s (.smul d a b) d a b (fun x y => x * y)

/-- SMULH, signed (R156). -/
def execSmulh (d a b : BitVec 6) (s : State) : Host.Outcome State Fault Refusal :=
  runAlu s (.smulh d a b) d a b mulHighS

/-- SMULH.U (R156). -/
def execSmulhU (d a b : BitVec 6) (s : State) : Host.Outcome State Fault Refusal :=
  runAlu s (.smulhU d a b) d a b mulHighU

/-- SDIV (R157). -/
def execSdiv (d a b : BitVec 6) (s : State) : Host.Outcome State Fault Refusal :=
  runAlu s (.sdiv d a b) d a b divS

/-- SDIV.U (R157). -/
def execSdivU (d a b : BitVec 6) (s : State) : Host.Outcome State Fault Refusal :=
  runAlu s (.sdivU d a b) d a b divU

/-- SREM (R157). -/
def execSrem (d a b : BitVec 6) (s : State) : Host.Outcome State Fault Refusal :=
  runAlu s (.srem d a b) d a b remS

/-- SREM.U (R157). -/
def execSremU (d a b : BitVec 6) (s : State) : Host.Outcome State Fault Refusal :=
  runAlu s (.sremU d a b) d a b remU

/-- SAND (R156). -/
def execSand (d a b : BitVec 6) (s : State) : Host.Outcome State Fault Refusal :=
  runAlu s (.sand d a b) d a b (fun x y => x &&& y)

/-- SOR (R156). -/
def execSor (d a b : BitVec 6) (s : State) : Host.Outcome State Fault Refusal :=
  runAlu s (.sor d a b) d a b (fun x y => x ||| y)

/-- SXOR (R156). -/
def execSxor (d a b : BitVec 6) (s : State) : Host.Outcome State Fault Refusal :=
  runAlu s (.sxor d a b) d a b (fun x y => x ^^^ y)

/-- SNOT (R156). -/
def execSnot (d a : BitVec 6) (s : State) : Host.Outcome State Fault Refusal :=
  runAlu1 s (.snot d a) d a (fun x => ~~~x)

/-- SSHL by the whole of sb (R156). -/
def execSshl (d a b : BitVec 6) (s : State) : Host.Outcome State Fault Refusal :=
  runAlu s (.sshl d a b) d a b (fun x y => shl64 x y.toNat)

/-- SSHR by the whole of sb (R156). -/
def execSshr (d a b : BitVec 6) (s : State) : Host.Outcome State Fault Refusal :=
  runAlu s (.sshr d a b) d a b (fun x y => shr64 x y.toNat)

/-- SSAR by the whole of sb (R156). -/
def execSsar (d a b : BitVec 6) (s : State) : Host.Outcome State Fault Refusal :=
  runAlu s (.ssar d a b) d a b (fun x y => sar64 x y.toNat)

/-- SMIN, signed (R156). -/
def execSmin (d a b : BitVec 6) (s : State) : Host.Outcome State Fault Refusal :=
  runAlu s (.smin d a b) d a b minS

/-- SMIN.U (R156). -/
def execSminU (d a b : BitVec 6) (s : State) : Host.Outcome State Fault Refusal :=
  runAlu s (.sminU d a b) d a b minU

/-- SMAX, signed (R156). -/
def execSmax (d a b : BitVec 6) (s : State) : Host.Outcome State Fault Refusal :=
  runAlu s (.smax d a b) d a b maxS

/-- SMAX.U (R156). -/
def execSmaxU (d a b : BitVec 6) (s : State) : Host.Outcome State Fault Refusal :=
  runAlu s (.smaxU d a b) d a b maxU

/-- SSEL: a if the old value of sd is nonzero, else b (R156). -/
def execSsel (d a b : BitVec 6) (s : State) : Host.Outcome State Fault Refusal :=
  runSet s (.ssel d a b) d (fun w => if w.sget d.toNat ≠ 0 then w.sget a.toNat else w.sget b.toNat)

/-- SMOV (R156). -/
def execSmov (d a : BitVec 6) (s : State) : Host.Outcome State Fault Refusal :=
  runAlu1 s (.smov d a) d a id

/-- SCMP.cc: 1 or 0 (R156). -/
def execScmp (d a b : BitVec 6) (c : BitVec 4) (s : State) : Host.Outcome State Fault Refusal :=
  runAlu s (.scmp d a b c) d a b (fun x y => if scmpCond c x y then 1 else 0)

/-- SMOVI: the immediate sign-extended (R159). -/
def execSmovi (d : BitVec 6) (i : BitVec 18) (s : State) : Host.Outcome State Fault Refusal :=
  runSet s (.smovi d i) d (fun _ => i.signExtend 64)

/-- SADD with a signed immediate (R158). -/
def execSaddImm (d a : BitVec 6) (i : BitVec 12) (s : State) : Host.Outcome State Fault Refusal :=
  runAlu1 s (.saddImm d a i) d a (fun x => x + immS i)

/-- SAND with a sign-extended immediate (R158). -/
def execSandImm (d a : BitVec 6) (i : BitVec 12) (s : State) : Host.Outcome State Fault Refusal :=
  runAlu1 s (.sandImm d a i) d a (fun x => x &&& immS i)

/-- SOR with a sign-extended immediate (R158). -/
def execSorImm (d a : BitVec 6) (i : BitVec 12) (s : State) : Host.Outcome State Fault Refusal :=
  runAlu1 s (.sorImm d a i) d a (fun x => x ||| immS i)

/-- SXOR with a sign-extended immediate (R158). -/
def execSxorImm (d a : BitVec 6) (i : BitVec 12) (s : State) : Host.Outcome State Fault Refusal :=
  runAlu1 s (.sxorImm d a i) d a (fun x => x ^^^ immS i)

/-- SSHL by an unsigned immediate (R158). -/
def execSshlImm (d a : BitVec 6) (i : BitVec 12) (s : State) : Host.Outcome State Fault Refusal :=
  runAlu1 s (.sshlImm d a i) d a (fun x => shl64 x (immU i))

/-- SSHR by an unsigned immediate (R158). -/
def execSshrImm (d a : BitVec 6) (i : BitVec 12) (s : State) : Host.Outcome State Fault Refusal :=
  runAlu1 s (.sshrImm d a i) d a (fun x => shr64 x (immU i))

/-- SSAR by an unsigned immediate (R158). -/
def execSsarImm (d a : BitVec 6) (i : BitVec 12) (s : State) : Host.Outcome State Fault Refusal :=
  runAlu1 s (.ssarImm d a i) d a (fun x => sar64 x (immU i))

/-- SLANE: the 64 bits of lane k, whatever the mask (R160). -/
def execSlane (d : BitVec 6) (v : BitVec 7) (k : BitVec 5) (s : State) : Host.Outcome State Fault Refusal :=
  runNamed s (.slane d v k) (fun w => w.active) (fun s r g w =>
    retire s r g w (w.sset d.toNat ((opdOf v).val w [] k.toNat)) false)

/-- SPRED.GET (R161). -/
def execSpredGet (d : BitVec 6) (k : BitVec 3) (s : State) : Host.Outcome State Fault Refusal :=
  runSet s (.spredGet d k) d (fun w => (w.pget k.toNat).setWidth 64)

/-- SPRED.SET: all 32 bits, whatever the mask (R161). -/
def execSpredSet (a : BitVec 6) (k : BitVec 3) (s : State) : Host.Outcome State Fault Refusal :=
  runUniform s (.spredSet a k) (fun w => .ok (w.pset k.toNat ((w.sget a.toNat).setWidth 32)))

/-- SPRED.ACT: the active mask (R161). -/
def execSpredAct (d : BitVec 6) (s : State) : Host.Outcome State Fault Refusal :=
  runSet s (.spredAct d) d (fun w => w.active.setWidth 64)

/-- XWIN: the window, or the trap where the value breaks R19 (R179). -/
def execXwin (a : BitVec 6) (s : State) : Host.Outcome State Fault Refusal :=
  runUniform s (.xwin a) (fun w =>
    let v := w.sget a.toNat
    let b := fieldOf v 0 8
    let n := fieldOf v 8 8
    if fieldOf v 16 48 ≠ 0 ∨ n = 0 ∨ b + n > w.r.alloc then .trap 0x01 w
    else .ok { w with r := { w.r with winBase := b, winLen := n } })

end Sys2Proof.Machine
end

