-- ==== Sys2Proof/Machine/Dispatch.lean ====
section
/-! DEFINITION. Which meaning each constructor of Instr has, one direct call each. -/

namespace Sys2Proof.Machine

/-- The meaning of an instruction or event at a state. -/
def exec (i : Instr) (s : State) : Host.Outcome State Fault Refusal :=
  match i with
  | .vaddRrr d a b p => Sys2Proof.Machine.execVaddRrr d a b p s
  | .vsubRrr d a b p => Sys2Proof.Machine.execVsubRrr d a b p s
  | .vmulRrr d a b p => Sys2Proof.Machine.execVmulRrr d a b p s
  | .vmulh d a b p => Sys2Proof.Machine.execVmulh d a b p s
  | .vmad d a b p => Sys2Proof.Machine.execVmad d a b p s
  | .vaddsat d a b p => Sys2Proof.Machine.execVaddsat d a b p s
  | .vsubsat d a b p => Sys2Proof.Machine.execVsubsat d a b p s
  | .vmin d a b p => Sys2Proof.Machine.execVmin d a b p s
  | .vmax d a b p => Sys2Proof.Machine.execVmax d a b p s
  | .vabs d a p => Sys2Proof.Machine.execVabs d a p s
  | .vneg d a p => Sys2Proof.Machine.execVneg d a p s
  | .vandRrr d a b p => Sys2Proof.Machine.execVandRrr d a b p s
  | .vorRrr d a b p => Sys2Proof.Machine.execVorRrr d a b p s
  | .vxor d a b p => Sys2Proof.Machine.execVxor d a b p s
  | .vandn d a b p => Sys2Proof.Machine.execVandn d a b p s
  | .vnot d a p => Sys2Proof.Machine.execVnot d a p s
  | .vshlRrr d a b p => Sys2Proof.Machine.execVshlRrr d a b p s
  | .vshrRrr d a b p => Sys2Proof.Machine.execVshrRrr d a b p s
  | .vsarRrr d a b p => Sys2Proof.Machine.execVsarRrr d a b p s
  | .vrol d a b p => Sys2Proof.Machine.execVrol d a b p s
  | .vclz d a p => Sys2Proof.Machine.execVclz d a p s
  | .vpopc d a p => Sys2Proof.Machine.execVpopc d a p s
  | .vbrev d a p => Sys2Proof.Machine.execVbrev d a p s
  | .vbfx d a b p => Sys2Proof.Machine.execVbfx d a b p s
  | .vbfi d a b p => Sys2Proof.Machine.execVbfi d a b p s
  | .vcmp q n c a b p => Sys2Proof.Machine.execVcmp q n c a b p s
  | .vsel d a b k => Sys2Proof.Machine.execVsel d a b k s
  | .vmov d a p => Sys2Proof.Machine.execVmov d a p s
  | .vmovs d f b p => Sys2Proof.Machine.execVmovs d f b p s
  | .vamin d a b p => Sys2Proof.Machine.execVamin d a b p s
  | .vamax d a b p => Sys2Proof.Machine.execVamax d a b p s
  | .vfaddRrr d a b p => Sys2Proof.Machine.execVfaddRrr d a b p s
  | .vfsub d a b p => Sys2Proof.Machine.execVfsub d a b p s
  | .vfmulRrr d a b p => Sys2Proof.Machine.execVfmulRrr d a b p s
  | .vfma d a b p => Sys2Proof.Machine.execVfma d a b p s
  | .vfmin d a b p => Sys2Proof.Machine.execVfmin d a b p s
  | .vfmax d a b p => Sys2Proof.Machine.execVfmax d a b p s
  | .vfabs d a p => Sys2Proof.Machine.execVfabs d a p s
  | .vfneg d a p => Sys2Proof.Machine.execVfneg d a p s
  | .vfcmp q n c a b p => Sys2Proof.Machine.execVfcmp q n c a b p s
  | .vfrcp d a p => Sys2Proof.Machine.execVfrcp d a p s
  | .vfrsq d a p => Sys2Proof.Machine.execVfrsq d a p s
  | .vfsqrt d a p => Sys2Proof.Machine.execVfsqrt d a p s
  | .vfex2 d a p => Sys2Proof.Machine.execVfex2 d a p s
  | .vflg2 d a p => Sys2Proof.Machine.execVflg2 d a p s
  | .vfsin d a p => Sys2Proof.Machine.execVfsin d a p s
  | .vfcos d a p => Sys2Proof.Machine.execVfcos d a p s
  | .vfclass d a p => Sys2Proof.Machine.execVfclass d a p s
  | .vcvt d a f m p => Sys2Proof.Machine.execVcvt d a f m p s
  | .vcvts d a f p => Sys2Proof.Machine.execVcvts d a f p s
  | .vtag d a f p => Sys2Proof.Machine.execVtag d a f p s
  | .vpack d a h g p => Sys2Proof.Machine.execVpack d a h g p s
  | .vunpk d a h g p => Sys2Proof.Machine.execVunpk d a h g p s
  | .vaddRrs d a b p => Sys2Proof.Machine.execVaddRrs d a b p s
  | .vsubRrs d a b p => Sys2Proof.Machine.execVsubRrs d a b p s
  | .vmulRrs d a b p => Sys2Proof.Machine.execVmulRrs d a b p s
  | .vandRrs d a b p => Sys2Proof.Machine.execVandRrs d a b p s
  | .vorRrs d a b p => Sys2Proof.Machine.execVorRrs d a b p s
  | .vshlRrs d a b p => Sys2Proof.Machine.execVshlRrs d a b p s
  | .vshrRrs d a b p => Sys2Proof.Machine.execVshrRrs d a b p s
  | .vsarRrs d a b p => Sys2Proof.Machine.execVsarRrs d a b p s
  | .vfaddRrs d a b p => Sys2Proof.Machine.execVfaddRrs d a b p s
  | .vfmulRrs d a b p => Sys2Proof.Machine.execVfmulRrs d a b p s
  | .vshuf d a z w k => Sys2Proof.Machine.execVshuf d a z w k s
  | .vshufi d a z w m => Sys2Proof.Machine.execVshufi d a z w m s
  | .vlsh d a z w x n => Sys2Proof.Machine.execVlsh d a z w x n s
  | .vbcst d a z w k => Sys2Proof.Machine.execVbcst d a z w k s
  | .vred d a w o => Sys2Proof.Machine.execVred d a w o s
  | .vscan d a w x o => Sys2Proof.Machine.execVscan d a w x o s
  | .vcav d a w o => Sys2Proof.Machine.execVcav d a w o s
  | .vballot d w k => Sys2Proof.Machine.execVballot d w k s
  | .vsubel d a s0 => Sys2Proof.Machine.execVsubel d a s0 s
  | .vxswap d a z s0 => Sys2Proof.Machine.execVxswap d a z s0 s
  | .vld d b t f o => Sys2Proof.Machine.execVld d b t f o s
  | .vst d b t f o => Sys2Proof.Machine.execVst d b t f o s
  | .vatom d b t f o => Sys2Proof.Machine.execVatom d b t f o s
  | .vcas d b t f o => Sys2Proof.Machine.execVcas d b t f o s
  | .vprf b f o => Sys2Proof.Machine.execVprf b f o s
  | .vlds d b t f o => Sys2Proof.Machine.execVlds d b t f o s
  | .vsts d b t f o => Sys2Proof.Machine.execVsts d b t f o s
  | .vatoms d b t f o => Sys2Proof.Machine.execVatoms d b t f o s
  | .br p s0 o => Sys2Proof.Machine.execBr p s0 o s
  | .xset k a p => Sys2Proof.Machine.execXset k a p s
  | .xadd k j b p => Sys2Proof.Machine.execXadd k j b p s
  | .sadd d a b => Sys2Proof.Machine.execSadd d a b s
  | .ssub d a b => Sys2Proof.Machine.execSsub d a b s
  | .smul d a b => Sys2Proof.Machine.execSmul d a b s
  | .smulh d a b => Sys2Proof.Machine.execSmulh d a b s
  | .smulhU d a b => Sys2Proof.Machine.execSmulhU d a b s
  | .sdiv d a b => Sys2Proof.Machine.execSdiv d a b s
  | .sdivU d a b => Sys2Proof.Machine.execSdivU d a b s
  | .srem d a b => Sys2Proof.Machine.execSrem d a b s
  | .sremU d a b => Sys2Proof.Machine.execSremU d a b s
  | .sand d a b => Sys2Proof.Machine.execSand d a b s
  | .sor d a b => Sys2Proof.Machine.execSor d a b s
  | .sxor d a b => Sys2Proof.Machine.execSxor d a b s
  | .snot d a => Sys2Proof.Machine.execSnot d a s
  | .sshl d a b => Sys2Proof.Machine.execSshl d a b s
  | .sshr d a b => Sys2Proof.Machine.execSshr d a b s
  | .ssar d a b => Sys2Proof.Machine.execSsar d a b s
  | .smin d a b => Sys2Proof.Machine.execSmin d a b s
  | .sminU d a b => Sys2Proof.Machine.execSminU d a b s
  | .smax d a b => Sys2Proof.Machine.execSmax d a b s
  | .smaxU d a b => Sys2Proof.Machine.execSmaxU d a b s
  | .ssel d a b => Sys2Proof.Machine.execSsel d a b s
  | .smov d a => Sys2Proof.Machine.execSmov d a s
  | .scmp d a b c => Sys2Proof.Machine.execScmp d a b c s
  | .smovi d imm => Sys2Proof.Machine.execSmovi d imm s
  | .saddImm d a imm => Sys2Proof.Machine.execSaddImm d a imm s
  | .sandImm d a imm => Sys2Proof.Machine.execSandImm d a imm s
  | .sorImm d a imm => Sys2Proof.Machine.execSorImm d a imm s
  | .sxorImm d a imm => Sys2Proof.Machine.execSxorImm d a imm s
  | .sshlImm d a imm => Sys2Proof.Machine.execSshlImm d a imm s
  | .sshrImm d a imm => Sys2Proof.Machine.execSshrImm d a imm s
  | .ssarImm d a imm => Sys2Proof.Machine.execSsarImm d a imm s
  | .slane d v k => Sys2Proof.Machine.execSlane d v k s
  | .spredGet d k => Sys2Proof.Machine.execSpredGet d k s
  | .spredSet a k => Sys2Proof.Machine.execSpredSet a k s
  | .spredAct d => Sys2Proof.Machine.execSpredAct d s
  | .bra o => Sys2Proof.Machine.execBra o s
  | .brasNz d o => Sys2Proof.Machine.execBrasNz d o s
  | .brasZ d o => Sys2Proof.Machine.execBrasZ d o s
  | .call d o => Sys2Proof.Machine.execCall d o s
  | .ret a => Sys2Proof.Machine.execRet a s
  | .mark o => Sys2Proof.Machine.execMark o s
  | .join => Sys2Proof.Machine.execJoin s
  | .loop d n l => Sys2Proof.Machine.execLoop d n l s
  | .exit => Sys2Proof.Machine.execExit s
  | .nop => Sys2Proof.Machine.execNop s
  | .xwin a => Sys2Proof.Machine.execXwin a s
  | .sld d a f z g o => Sys2Proof.Machine.execSld d a f z g o s
  | .sst d a f z o => Sys2Proof.Machine.execSst d a f z o s
  | .satom d a b f o => Sys2Proof.Machine.execSatom d a b f o s
  | .scas d a b f => Sys2Proof.Machine.execScas d a b f s
  | .ldlW d o => Sys2Proof.Machine.execLdlW d o s
  | .ldlD d o => Sys2Proof.Machine.execLdlD d o s
  | .acq d a s0 => Sys2Proof.Machine.execAcq d a s0 s
  | .rel d a s0 => Sys2Proof.Machine.execRel d a s0 s
  | .fence k s0 => Sys2Proof.Machine.execFence k s0 s
  | .publish d a s0 => Sys2Proof.Machine.execPublish d a s0 s
  | .stset a n => Sys2Proof.Machine.execStset a n s
  | .stsave d w n => Sys2Proof.Machine.execStsave d w n s
  | .stpos a n => Sys2Proof.Machine.execStpos a n s
  | .stskip a n => Sys2Proof.Machine.execStskip a n s
  | .grd d k => Sys2Proof.Machine.execGrd d k s
  | .gwr a k => Sys2Proof.Machine.execGwr a k s
  | .gatom d k b o => Sys2Proof.Machine.execGatom d k b o s
  | .qbind a k => Sys2Proof.Machine.execQbind a k s
  | .qpush a k => Sys2Proof.Machine.execQpush a k s
  | .qpushv a n k => Sys2Proof.Machine.execQpushv a n k s
  | .qpop d k => Sys2Proof.Machine.execQpop d k s
  | .qtry d k => Sys2Proof.Machine.execQtry d k s
  | .qsteal d a => Sys2Proof.Machine.execQsteal d a s
  | .qlen d k => Sys2Proof.Machine.execQlen d k s
  | .mma p s0 f v n => Sys2Proof.Machine.execMma p s0 f v n s
  | .mmt p s0 f v t => Sys2Proof.Machine.execMmt p s0 f v t s
  | .mzero v n t => Sys2Proof.Machine.execMzero v n t s
  | .mscale d a f => Sys2Proof.Machine.execMscale d a f s
  | .cpy t r b v => Sys2Proof.Machine.execCpy t r b v s
  | .cpt t r b v => Sys2Proof.Machine.execCpt t r b v s
  | .cpr t r b v => Sys2Proof.Machine.execCpr t r b v s
  | .cpx t r b v => Sys2Proof.Machine.execCpx t r b v s
  | .cpc t r b v => Sys2Proof.Machine.execCpc t r b v s
  | .cpclose => Sys2Proof.Machine.execCpclose s
  | .cpwait n => Sys2Proof.Machine.execCpwait n s
  | .tbinit d a => Sys2Proof.Machine.execTbinit d a s
  | .tbexp d a r s0 g => Sys2Proof.Machine.execTbexp d a r s0 g s
  | .tbarr d a s0 g => Sys2Proof.Machine.execTbarr d a s0 g s
  | .tbwait d a => Sys2Proof.Machine.execTbwait d a s
  | .bar => Sys2Proof.Machine.execBar s
  | .gbar => Sys2Proof.Machine.execGbar s
  | .cvjoin d a n => Sys2Proof.Machine.execCvjoin d a n s
  | .cvleave d n => Sys2Proof.Machine.execCvleave d n s
  | .cvslip d a => Sys2Proof.Machine.execCvslip d a s
  | .cvrejoin d a n => Sys2Proof.Machine.execCvrejoin d a n s
  | .srd d n => Sys2Proof.Machine.execSrd d n s
  | .srdV d h n => Sys2Proof.Machine.execSrdV d h n s
  | .swr a n => Sys2Proof.Machine.execSwr a n s
  | .trap n => Sys2Proof.Machine.execTrap n s
  | .tret => Sys2Proof.Machine.execTret s
  | .sigdone => Sys2Proof.Machine.execSigdone s
  | .region a o => Sys2Proof.Machine.execRegion a o s
  | .setperf d a => Sys2Proof.Machine.execSetperf d a s
  | .waitc d a => Sys2Proof.Machine.execWaitc d a s
  | .cancel d a l => Sys2Proof.Machine.execCancel d a l s
  | .sleep a => Sys2Proof.Machine.execSleep a s
  | .bkpt n => Sys2Proof.Machine.execBkpt n s
  | .pool n => Sys2Proof.Machine.execPool n s
  | .clause w a b l => Sys2Proof.Machine.execClause w a b l s
  | .illegalInstruction word => Sys2Proof.Machine.execIllegalInstruction word s
  | .instructionFetchFault va => Sys2Proof.Machine.execInstructionFetchFault va s
  | .loopFallThrough w => Sys2Proof.Machine.execLoopFallThrough w s
  | .longLatencyComplete w k => Sys2Proof.Machine.execLongLatencyComplete w k s
  | .handlerEntry w => Sys2Proof.Machine.execHandlerEntry w s
  | .warpReplay w => Sys2Proof.Machine.execWarpReplay w s
  | .matrixRowBlock w => Sys2Proof.Machine.execMatrixRowBlock w s
  | .copyStart tile => Sys2Proof.Machine.execCopyStart tile s
  | .copySectorPerformed id => Sys2Proof.Machine.execCopySectorPerformed id s
  | .copyTokenWrite id => Sys2Proof.Machine.execCopyTokenWrite id s
  | .applyRequest id sector => Sys2Proof.Machine.execApplyRequest id sector s
  | .applyAck id sector => Sys2Proof.Machine.execApplyAck id sector s
  | .applyAckTimeout id sector => Sys2Proof.Machine.execApplyAckTimeout id sector s
  | .tbwaitWake wg off => Sys2Proof.Machine.execTbwaitWake wg off s
  | .barRelease wg gang => Sys2Proof.Machine.execBarRelease wg gang s
  | .pipeEntryAvailable cluster pipe => Sys2Proof.Machine.execPipeEntryAvailable cluster pipe s
  | .waitcWake w => Sys2Proof.Machine.execWaitcWake w s
  | .remoteCounterPoll w => Sys2Proof.Machine.execRemoteCounterPoll w s
  | .sleepExpire w => Sys2Proof.Machine.execSleepExpire w s
  | .convoyReevaluate die slot => Sys2Proof.Machine.execConvoyReevaluate die slot s
  | .patienceExpiry w => Sys2Proof.Machine.execPatienceExpiry w s
  | .mergePointRead tile line => Sys2Proof.Machine.execMergePointRead tile line s
  | .mergePointWrite line mask data => Sys2Proof.Machine.execMergePointWrite line mask data s
  | .dramReturn line => Sys2Proof.Machine.execDramReturn line s
  | .atomicUnitRequest pa op size v => Sys2Proof.Machine.execAtomicUnitRequest pa op size v s
  | .remoteWriteAck w => Sys2Proof.Machine.execRemoteWriteAck w s
  | .pageWalkStart cluster asid vpn acc => Sys2Proof.Machine.execPageWalkStart cluster asid vpn acc s
  | .pageWalkEnd cluster asid vpn => Sys2Proof.Machine.execPageWalkEnd cluster asid vpn s
  | .translationInvalidate asid => Sys2Proof.Machine.execTranslationInvalidate asid s
  | .publishExchange w => Sys2Proof.Machine.execPublishExchange w s
  | .fabricInboundRequest src kind pa size op v => Sys2Proof.Machine.execFabricInboundRequest src kind pa size op v s
  | .fabricCompletion w lane status va => Sys2Proof.Machine.execFabricCompletion w lane status va s
  | .hostAccess bar off write v => Sys2Proof.Machine.execHostAccess bar off write v s
  | .linkCrcError port n lasting => Sys2Proof.Machine.execLinkCrcError port n lasting s
  | .portTrainingLoss port => Sys2Proof.Machine.execPortTrainingLoss port s
  | .sramParityError tile kind line lasting => Sys2Proof.Machine.execSramParityError tile kind line lasting s
  | .eccError pa double lasting => Sys2Proof.Machine.execEccError pa double lasting s
  | .linkOccupancyWindow cluster flits => Sys2Proof.Machine.execLinkOccupancyWindow cluster flits s
  | .linkWidthHandshakeEnd cluster => Sys2Proof.Machine.execLinkWidthHandshakeEnd cluster s
  | .doorbell slot queue v => Sys2Proof.Machine.execDoorbell slot queue v s
  | .launchPacket slot queue => Sys2Proof.Machine.execLaunchPacket slot queue s
  | .fencePacket slot queue => Sys2Proof.Machine.execFencePacket slot queue s
  | .fenceConditionTest slot queue cond => Sys2Proof.Machine.execFenceConditionTest slot queue cond s
  | .signalPacket slot queue => Sys2Proof.Machine.execSignalPacket slot queue s
  | .cancelPacket slot queue => Sys2Proof.Machine.execCancelPacket slot queue s
  | .graphOpen slot queue => Sys2Proof.Machine.execGraphOpen slot queue s
  | .graphClose slot queue => Sys2Proof.Machine.execGraphClose slot queue s
  | .phaseOpen slot queue => Sys2Proof.Machine.execPhaseOpen slot queue s
  | .phaseClose slot queue => Sys2Proof.Machine.execPhaseClose slot queue s
  | .jobOpen slot queue => Sys2Proof.Machine.execJobOpen slot queue s
  | .jobClose slot queue => Sys2Proof.Machine.execJobClose slot queue s
  | .dispatchRound die => Sys2Proof.Machine.execDispatchRound die s
  | .gangReservation die => Sys2Proof.Machine.execGangReservation die s
  | .eprioUpdate slot => Sys2Proof.Machine.execEprioUpdate slot s
  | .bandwidthWindow resource => Sys2Proof.Machine.execBandwidthWindow resource s
  | .workgroupEnd wg => Sys2Proof.Machine.execWorkgroupEnd wg s
  | .workgroupSwitchOut wg => Sys2Proof.Machine.execWorkgroupSwitchOut wg s
  | .workgroupRestore wg => Sys2Proof.Machine.execWorkgroupRestore wg s
  | .preemptTimeout wg => Sys2Proof.Machine.execPreemptTimeout wg s
  | .cancelTimeout wg => Sys2Proof.Machine.execCancelTimeout wg s
  | .rotationInterval cluster temps => Sys2Proof.Machine.execRotationInterval cluster temps s
  | .swapQuiesceEnd cluster => Sys2Proof.Machine.execSwapQuiesceEnd cluster s
  | .swapQuiesceTimeout cluster => Sys2Proof.Machine.execSwapQuiesceTimeout cluster s
  | .swapTransferEnd cluster => Sys2Proof.Machine.execSwapTransferEnd cluster s
  | .swapWritebackEnd cluster => Sys2Proof.Machine.execSwapWritebackEnd cluster s
  | .swapEnd cluster => Sys2Proof.Machine.execSwapEnd cluster s
  | .clockLockDone cluster => Sys2Proof.Machine.execClockLockDone cluster s
  | .voltageTargetReached pair => Sys2Proof.Machine.execVoltageTargetReached pair s
  | .balanceSample pair ieven iodd => Sys2Proof.Machine.execBalanceSample pair ieven iodd s
  | .powerSample die power draws => Sys2Proof.Machine.execPowerSample die power draws s
  | .hardClamp die power => Sys2Proof.Machine.execHardClamp die power s
  | .stallWindow cluster stalled held => Sys2Proof.Machine.execStallWindow cluster stalled held s
  | .gatingIdleExpiry pair => Sys2Proof.Machine.execGatingIdleExpiry pair s
  | .gatingDone pair => Sys2Proof.Machine.execGatingDone pair s
  | .pairWakeDone pair => Sys2Proof.Machine.execPairWakeDone pair s
  | .rendezvousPost id => Sys2Proof.Machine.execRendezvousPost id s
  | .pullRequest id suffix seg => Sys2Proof.Machine.execPullRequest id suffix seg s
  | .pullData id suffix seg => Sys2Proof.Machine.execPullData id suffix seg s
  | .flagUnion id => Sys2Proof.Machine.execFlagUnion id s
  | .powerOn straps => Sys2Proof.Machine.execPowerOn straps s
  | .bootStage1 => Sys2Proof.Machine.execBootStage1 s
  | .bootStage2 => Sys2Proof.Machine.execBootStage2 s
  | .attestationReport nonce => Sys2Proof.Machine.execAttestationReport nonce s
  | .mctpRequest => Sys2Proof.Machine.execMctpRequest s
  | .faultRingHeadWrite v => Sys2Proof.Machine.execFaultRingHeadWrite v s
  | .faultRingReply v => Sys2Proof.Machine.execFaultRingReply v s
  | .contextSlotWrite slot off v => Sys2Proof.Machine.execContextSlotWrite slot off v s
  | .wcbPreempt slot handle wgix => Sys2Proof.Machine.execWcbPreempt slot handle wgix s
  | .wcbPreemptGang slot handle wgix => Sys2Proof.Machine.execWcbPreemptGang slot handle wgix s
  | .wcbRestore slot handle wgix => Sys2Proof.Machine.execWcbRestore slot handle wgix s
  | .wcbEnd slot handle wgix => Sys2Proof.Machine.execWcbEnd slot handle wgix s
  | .queueDescriptorWrite slot queue word v => Sys2Proof.Machine.execQueueDescriptorWrite slot queue word v s
  | .pipeDescriptorWrite cluster pipe word v => Sys2Proof.Machine.execPipeDescriptorWrite cluster pipe word v s
  | .convoySlotWrite die slot v => Sys2Proof.Machine.execConvoySlotWrite die slot v s
  | .rotctlWrite cluster v => Sys2Proof.Machine.execRotctlWrite cluster v s
  | .pairpwrWrite pair v => Sys2Proof.Machine.execPairpwrWrite pair v s
  | .diepwrWrite die v => Sys2Proof.Machine.execDiepwrWrite die v s
  | .perfMonitorClear cluster k => Sys2Proof.Machine.execPerfMonitorClear cluster k s
  | .inboundWindowWrite entry word v => Sys2Proof.Machine.execInboundWindowWrite entry word v s
  | .monitorRegisterWrite addr v => Sys2Proof.Machine.execMonitorRegisterWrite addr v s
  | .writeAcknowledgement tile line => Sys2Proof.Machine.execWriteAcknowledgement tile line s
  | .linkCongestion cluster => Sys2Proof.Machine.execLinkCongestion cluster s
  | .managementCoreStore pa size v => Sys2Proof.Machine.execManagementCoreStore pa size v s

end Sys2Proof.Machine
end

