-- ==== Sys2Proof/Machine/Load.lean ====
section
/-! DEFINITION. Placing one instruction where the next step fetches it: a context bound to slot 0 whose first range entry
maps all of the device's memory one to one, and a workgroup of one warp on an empty tile that stands at the word. It stands
for what system software, the queue processor and the dispatcher do before a program's first instruction (DESIGN CHOICE, log
entry 3). -/

namespace Sys2Proof.Machine

/-- The bytes of a range entry that maps every page one to one, readable, writable and executable (R294). -/
def identityEntry : Nat := 1 + 4 + 8 + 2 ^ 7 + (2 ^ 36 - 1) * 2 ^ 72

/-- Where the placed instruction lies, and the page of the range table. -/
def placedAddr : Nat := 0x10000
def placedTable : Nat := 1

/-- A clause of one word whose flags are f0 and f1, and the position at its word. -/
def placedPos (header : Bool) : Pos :=
  if header then Pos.atFlow placedAddr else ⟨placedAddr - 4, 0, .body, ⟨0, 0, 1, 0⟩⟩

/-- The first tile that no workgroup holds. -/
def emptyTile (s : State) : Nat :=
  ((List.range 512).find? (fun t => s.wgs.all (fun g => g.2.tile != t))).getD 0

/-- A workgroup of one warp at the placed word. -/
def placedGroup (t : Nat) (header : Bool) : Workgroup :=
  let w := Warp.launch 112 placedAddr
  { level := 0, tbp := false, exitrec := 0, vgr := 14, bound := false, asid := 0, slot := 0, queue := 0, handle := 0, wgix := 0,
    wx := 0, wy := 0, wz := 0, gangix := 0, gang := [], gangLaunch := false, producer := 0, g := [], recent := [], spAlloc := 4096, sp := [],
    tile := t, area := 0x100000, status := .resident, cancelled := false, discard := false,
    warps := [(0, w.goto (placedPos header))], nwarps := 1, preTick := none, cancelTick := none,
    wslots := [0] }

/-- The state with an instruction's bits where the next step fetches it. -/
def placeWord (s : State) (w : Nat) : State :=
  let t := emptyTile s
  let header := decide (w / 2 ^ 25 % 128 = 0x7F)
  let mem := Memory.writeN (Memory.writeN s.mem (placedTable * 2048) 32 identityEntry) placedAddr 4 w
  { s with
    mem := mem
    turns := []
    here := t
    cur := none
    quantum := 0
    late := []
    early := []
    nextUid := s.nextUid + 1
    wgs := Table.set s.wgs s.nextUid (placedGroup t header)
    tiles := Table.set s.tiles t Tile.reset
    slots := Table.set s.slots 0 { Slot.reset with v := true, rtab := placedTable, abase := 0x100, asize := 64, acnt := 1 } }

end Sys2Proof.Machine
end

