-- ==== Sys2Proof/Machine/Relaxed.lean ====
section
/-! DEFINITION. Accesses of a warp that other agents see out of its program order (R309, R315, R318): a load or store that is performed
after accesses issued later, and a load that reads what stood there before accesses issued earlier. A warp's own values stay as R308
gives them, and its ordering points end both. Only the turn list brings them about (DESIGN CHOICE, log entry 40). -/

namespace Sys2Proof.Machine

/-- The state after an instruction has run. -/
def ran (i : Instr) (s : State) : State :=
  match exec i s with
  | .next t => t
  | _ => s

/-- The bytes of scratchpad that the lanes of an access name. -/
def scratchPlaces (w : Warp) (b : BitVec 7) (z : Nat) (off : Int) : List (Nat × Nat) :=
  (lanesIn w.active).flatMap (fun l => (span ((opdOf b).base w l + off * z).toNat z).map (fun a => (0, a)))

/-- The bytes of memory that the parts of an access name. -/
def memoryPlaces (s : State) (g : Workgroup) (w : Warp) (a : Acc) (z : Nat) (cs : List (Nat × Int)) : List (Nat × Nat) :=
  (checkAll s g w a z cs).2.flatMap (fun c => match c.2.2 with
    | .ok x => (span x.pa z).map (fun p => (2, p))
    | _ => [])

/-- The addresses of the lanes of a global access. -/
def laneAddrs (w : Warp) (b : BitVec 7) (z : Nat) (off : Int) : LaneAddrs :=
  (lanesIn w.active).map (fun l => (l, (opdOf b).base w l + off * z))

/-- The locations of an access that others may be performed around (R305): a byte of scratchpad, a group register, or a byte of
memory. -/
def places (s : State) (g : Workgroup) (w : Warp) : Instr → Option (List (Nat × Nat))
  | .vlds _ b t _ o | .vsts _ b t _ o => some (scratchPlaces w b (fmtWidth t / 8) o.toInt)
  | .vatoms _ b t _ _ => some (scratchPlaces w b (fmtWidth t / 8) 0)
  | .grd _ k | .gwr _ k => some [(1, k.toNat)]
  | .gatom _ k _ _ => some [(1, k.toNat)]
  | .vatom _ b t _ _ => some (memoryPlaces s g w .atomic (fmtWidth t / 8) (laneAddrs w b (fmtWidth t / 8) 0))
  | .vcas _ b t _ o => some (memoryPlaces s g w .atomic (fmtWidth t / 8) (laneAddrs w b (fmtWidth t / 8) o.toInt))
  | .satom _ a _ _ o => some (memoryPlaces s g w .atomic (atomSize o) [(32, ((w.sget a.toNat).toNat : Int))])
  | .scas _ a _ _ => some (memoryPlaces s g w .atomic 8 [(32, ((w.sget a.toNat).toNat : Int))])
  | .vld _ b t _ o =>
    some (memoryPlaces s g w .load (fmtWidth t / 8) (laneAddrs w b (fmtWidth t / 8) o.toInt))
  | .vst _ b t _ o =>
    some (memoryPlaces s g w .store (fmtWidth t / 8) (laneAddrs w b (fmtWidth t / 8) o.toInt))
  | .sld _ a _ z _ o =>
    some (memoryPlaces s g w .load (sizeOf_ z) [(32, (w.sget a.toNat).toNat + o.toInt * sizeOf_ z)])
  | .sst _ a _ z o =>
    some (memoryPlaces s g w .store (sizeOf_ z) [(32, (w.sget a.toNat).toNat + o.toInt * sizeOf_ z)])
  | _ => none

/-- The plain stores to memory and scratchpad. -/
def plainStore : Instr → Bool
  | .vsts _ _ _ _ _ | .vst _ _ _ _ _ => true
  | .sst _ _ _ _ _ => true
  | _ => false

/-- The accesses among those of `places` that write: the stores and the atomics. -/
def placesStored (i : Instr) : Bool :=
  plainStore i || (match i with
    | .gwr _ _ => true
    | .gatom _ _ _ _ | .satom _ _ _ _ _ | .vatom _ _ _ _ _ | .vcas _ _ _ _ _ | .vatoms _ _ _ _ _ => true
    | .scas _ _ _ _ => true
    | _ => false)

/-- The vector and the s-registers that receive what a plain load of memory or scratchpad reads; none for any other instruction. -/
def loadRegs (w : Warp) : Instr → Option (List Nat × List Nat)
  | .vld d _ _ _ _ | .vlds d _ _ _ _ => some ((opdOf d).names w w.active, [])
  | .sld d _ _ _ _ _ => some ([], [d.toNat])
  | _ => none

/-- A warp with the registers of an access as they stand in another. -/
def Warp.takeRegs (w : Warp) (vregs sregs : List Nat) (x : Warp) : Warp :=
  sregs.foldl (fun w n => w.sset n (x.sget n)) (vregs.foldl (fun w n => w.vset n (x.vget n)) w)

/-- The instructions that fetch vectors of a stream ahead (R204); they act after the warp's earlier stores. -/
def prefetches : Instr → Bool
  | .stset _ _ | .stpos _ _ | .stskip _ _ => true
  | _ => false

/-- A warp as an instruction sees it: the registers that it names are present (R44). -/
def namedWarp (s : State) (g : Workgroup) (wp : Nat) (w : Warp) (i : Instr) : Warp := (fillNamed s g wp w w.active i).1

/-- The lines that an instruction reaches at the atomic unit: those of a global atomic, and of the object of ACQ, REL or WAITC (R197,
R277, R327). -/
def atomicLines (s : State) (g : Workgroup) (w : Warp) (i : Instr) : List Nat :=
  let object := fun (a : BitVec 6) => some (memoryPlaces s g w .load 8 [(32, ((w.sget a.toNat).toNat : Int))])
  let ps := match i with
    | .vatom _ _ _ _ _ | .vcas _ _ _ _ _ => places s g w i
    | .satom _ _ _ _ _ | .scas _ _ _ _ => places s g w i
    | .acq _ a _ | .rel _ a _ => object a
    | .waitc _ a => object a
    | _ => none
  ((ps.getD []).map (fun p => lineOf p.2)).eraseDups

/-- Whether a late access is a store of the context on the tile to one of some lines: an atomic to such a line is ordered after it
(R327). -/
def LateAccess.stores (l : LateAccess) (s : State) (g : Workgroup) (lines : List Nat) : Bool :=
  plainStore l.i && ((s.wg l.r.wg).map (fun h => h.tile == g.tile && s.asidOf h == s.asidOf g)).getD false
    && l.places.any (fun p => p.1 == 2 && lines.contains (lineOf p.2))

/-- Two accesses that share no location. -/
def apart (a b : List (Nat × Nat)) : Bool := a.all (fun p => !b.contains p)

/-- The warp of a reference has issued and goes on: no trap, no wait, no end. -/
def retired (s t : State) (r : WRef) : Bool :=
  match s.warp r, t.warp r with
  | some a, some b => t.issues == s.issues + 1 && b.c.handler == a.c.handler && b.c.wait == .none && !b.c.ended
  | _, _ => false

/-- s with what t has done for a warp alone. -/
def takeWarp (s t : State) (r : WRef) : State :=
  match t.warp r with
  | some w => { s.setWarp r w with issues := t.issues, nextId := t.nextId, free := t.free }
  | none => s

/-- t with a warp as it stands in s, but for what an access it has made has read into its registers. -/
def keepWarp (s t : State) (r : WRef) (vregs sregs : List Nat) : State :=
  match s.warp r, t.warp r with
  | some w, some x =>
    { t.setWarp r (w.takeRegs vregs sregs x) with issues := s.issues, nextId := s.nextId, cur := s.cur }
  | _, _ => t

/-- A late access is performed: as its warp would have made it, if it still can, with what it reads now. -/
def LateAccess.perform (l : LateAccess) (s : State) : Option State :=
  let s := { s with late := s.late.erase l }
  let t := ran l.i { s.setWarp l.r l.before with cur := some l.r }
  match t.warp l.r with
  | some w =>
    if { w.takeRegs l.vregs l.sregs l.after with lastIssue := l.after.lastIssue } = l.after then
      some (keepWarp s t l.r l.vregs l.sregs)
    else none
  | none => none

/-- The first of some late accesses is performed; one that cannot be performed any more is dropped, which an instruction that overtakes
it never brings about. -/
def performFirst (s : State) : List LateAccess → State
  | l :: _ => (l.perform s).getD { s with late := s.late.erase l }
  | [] => s

/-- Whether an instruction leaves the order of its warp's accesses open: one of `places`, or one that acts on its warp alone, reads no
memory ahead and is no ordering point; one that ends its warp does not, since the warp then counts as arrived at every barrier (R264,
R317). -/
def unordered (s t : State) (r : WRef) (i : Instr) (ps : Option (List (Nat × Nat))) : Bool :=
  !ordering i && (encode i).isSome && ((t.warp r).map (fun w => !w.c.ended)).getD false && (ps.isSome || (!prefetches i && takeWarp s t r = t))
    && (vecCodes i).all (fun c => match opdOf c with
      | .stream _ => false
      | _ => true)

/-- The views of a warp once it has issued an instruction: none past an ordering point or a store of its own (R308), and each notes what the
instruction read. -/
def noteRead (vs : List EarlyView) (r : WRef) (open_ : Bool) (ps : List (Nat × Nat)) : List EarlyView :=
  vs.filterMap (fun v => if v.r != r then some v else if open_ then some { v with seen := v.seen ++ ps } else none)

/-- A selection issues while late accesses or views stand: an own late access that the instruction must not overtake is performed first,
and so is one that could not be performed after it, and every late store of the context on the tile to the line of an atomic (R327). `s`
holds the turn still. -/
def overtake (s : State) (c : Candidate) (g : Workgroup) (w : Warp) : State :=
  let s1 := { c.s with cur := some c.r }
  let t := ran c.i s1
  let w := namedWarp s1 g c.r.wp w c.i
  let ps := places s1 g w c.i
  let free := unordered s1 t c.r c.i ps
  let lines := atomicLines s1 g w c.i
  let own := s.late.filter (fun l => (l.r == c.r && !(free && apart (ps.getD []) l.places)) || l.stores s1 g lines)
  if !own.isEmpty then performFirst s own
  else if t.late.all (fun l => (l.perform t).isSome) then
    { t with early := noteRead t.early c.r (free && !placesStored c.i) (ps.getD []) }
  else performFirst s s.late

/-- A selection issues a plain load or store that is performed later, in any order with what is late already where they share no location;
without effect where what is chosen is no such access. The registers that it names are filled at the issue (R44). -/
def issueLate (s : State) (c : Candidate) (g : Workgroup) (w : Warp) : State :=
  let s1 := { c.s with cur := some c.r }
  let t := ran c.i s1
  let s1 := fillReads s1 g c.r.wp w w.active c.i
  let w := namedWarp s1 g c.r.wp w c.i
  match places s1 g w c.i, t.warp c.r with
  | some ps, some w' =>
    let regs := loadRegs w c.i
    if (plainStore c.i || regs.isSome) && retired s1 t c.r && unordered s1 t c.r c.i (some ps)
        && (s.late.filter (fun l => l.r == c.r)).all (fun l => apart ps l.places) then
      let regs := regs.getD ([], [])
      { takeWarp s1 t c.r with
        late := s1.late ++ [⟨c.r, c.i, w, w', ps, regs.1, regs.2⟩]
        early := noteRead s1.early c.r (!plainStore c.i) ps }
    else s
  | _, _ => s

/-- The machine as a view holds it. -/
def EarlyView.put (v : EarlyView) (s : State) : State :=
  { s with mem := v.mem, tiles := v.tiles, clusters := v.clusters, wadi := v.wadi }.updWg v.r.wg
    (fun g => { g with sp := v.wg.sp })

/-- A selection issues a plain load that reads as of a view of its warp: one since which the warp has read none of its locations; without
effect where there is none, or where what is chosen is no such load. A group register is read as R29 times it. -/
def issueEarly (s : State) (c : Candidate) (g : Workgroup) (w : Warp) : State :=
  let s1 := { c.s with cur := some c.r }
  let w := namedWarp s1 g c.r.wp w c.i
  let fits := fun (v : EarlyView) => v.r == c.r && (match places (v.put s1) g w c.i with
    | some ps => (loadRegs w c.i).isSome && apart ps v.seen && retired s1 (ran c.i (v.put s1)) c.r
    | none => false)
  match s1.early.find? fits with
  | some v =>
    let t := ran c.i (v.put s1)
    let ps := (places (v.put s1) g w c.i).getD []
    if unordered s1 t c.r c.i (some ps) then { takeWarp s1 t c.r with early := noteRead s1.early c.r true ps } else s
  | none => s

/-- What a warp's later loads may read is kept; without effect while an access of its own is late (R308), and while the warp waits, since
what it waits for may be an ordering point that ends then (R317). -/
def keepView (s : State) (r : WRef) : State :=
  match s.wg r.wg, s.warp r with
  | some g, some w =>
    if s.late.any (fun l => l.r == r) || w.c.wait != .none then s
    else { s with early := s.early ++ [⟨r, g, s.mem, s.tiles, s.clusters, s.wadi, []⟩] }
  | _, _ => s

/-- The instruction that a selection chooses, with its workgroup and warp, acts on the state; with no ready warp nothing issues. -/
def selected (s : State) (t pipe : Nat) (f : Candidate → Workgroup → Warp → State) : State :=
  match pick s t pipe with
  | some c =>
    match c.s.wg c.r.wg, c.s.warp c.r with
    | some g, some w => f c g w
    | _, _ => s
  | none => s

/-- The events through which views last. -/
def keepsViews : Instr → Bool
  | .longLatencyComplete _ _ => true
  | _ => false

/-- Whether an event is the completion of a late access, which cannot complete before it is performed (R54). -/
def LateAccess.completes (l : LateAccess) : Instr → Bool
  | .longLatencyComplete r k => r == l.r && l.after.outs.any (fun o => o.id == k) && !l.before.outs.any (fun o => o.id == k)
  | _ => false

/-- Whether an event may come before the late accesses: each of them can be performed after it still, and it changes none of their warps,
or completes another access (R309). -/
def passesLate (s : State) (e : Instr) : Bool :=
  let t := ran e { s with cur := none }
  s.late.all (fun l => (l.perform t).isSome && (keepsViews e || decide (t.warp l.r = s.warp l.r)))

/-- An entry of the turn list while late accesses or views stand, or one that makes them; `held` has the entry still at its head. -/
def relaxedPlan (held s : State) : Turn → Plan
  | .select t p => .done (selected s t p (overtake held))
  | .late t p => .done (selected s t p (issueLate s))
  | .early t p => .done (selected s t p (issueEarly s))
  | .perform k => .done (performFirst s (s.late.drop k))
  | .view r => .done (keepView s r)
  | .event e =>
    match s.late.filter (fun l => l.completes e) with
    | l :: _ => .done (performFirst held [l])
    | [] =>
      if s.late.isEmpty || passesLate s e then turnPlan { s with early := if keepsViews e then s.early else [] } (.event e)
      else .done (performFirst held held.late)
  | .ticks d n => turnPlan s (.ticks d n)
  | .cycles t n => turnPlan s (.cycles t n)

/-- Whether an entry of the turn list makes accesses late or early. -/
def Turn.relaxed : Turn → Bool
  | .late _ _ | .perform _ | .view _ => true
  | .early _ _ => true
  | _ => false

end Sys2Proof.Machine
end

