-- ==== Sys2Proof/Machine/Plan.lean ====
section
/-! DEFINITION. What the next step does (DESIGN CHOICE, log entry 1): the head of the turn list, or, when the list is empty, the machine's
own course: tile `here` issues from its best ready warp, at most `quantumLimit` times; with none ready, or after that, the
events of the tile that have an effect happen; then the next occupied tile has its turn, and after the last of them the
device's own events, or a ref tick. -/

namespace Sys2Proof.Machine

/-- An event that may happen. -/
abbrev Act := State → Host.Outcome State Fault Refusal

/-- The first of some events that changes the state, and what it leads to. -/
def firstEffect (s : State) : List Act → Option State
  | [] => none
  | f :: r =>
    match f s with
    | .next t => if t = s then firstEffect s r else some t
    | _ => firstEffect s r

/-- The events of a warp: what it has outstanding, and what it waits for. -/
def warpActs (r : WRef) (g : Workgroup) (w : Warp) : List Act :=
  let mat := w.mat.map (·.opId)
  let ops := (w.outs.filter (fun o => mat != some o.id)).map (fun o => execLongLatencyComplete r o.id)
  let acks := if w.remote = 0 then [] else [execRemoteWriteAck r]
  let engine := if w.mat.isSome then [execMatrixRowBlock r] else []
  let waits : List Act := match w.c.wait with
    | .bar gang => [execBarRelease r.wg gang]
    | .counter _ _ => [execWaitcWake r, execRemoteCounterPoll r]
    | .pipe k _ _ => [execPipeEntryAvailable (clusterOf g.tile) k]
    | .sleep _ => [execSleepExpire r]
    | .tb off _ _ => [execTbwaitWake r.wg off]
    | .publish _ _ _ => [execPublishExchange r]
    | .park _ => [execWarpReplay r]
    | .hold k _ => [execConvoyReevaluate (dieOf g.tile) k, execPatienceExpiry r]
    | _ => []
  ops ++ acks ++ engine ++ waits

/-- The events of a copy, its collective call among them. -/
def copyActs (s : State) (id : Nat) : List Act :=
  let call := s.dev.calls.find? (fun k => k.copy == id)
  let pulls : List Act := match call with
    | some k => (List.range k.segs).flatMap (fun g =>
        [execPullRequest id false g, execPullRequest id true g, execPullData id false g, execPullData id true g])
    | none => []
  let sent : List Nat := match s.copy id with
    | some c => c.sent.map (·.1)
    | none => []
  let applied : List Act := sent.flatMap (fun k => [execApplyRequest id k, execApplyAck id k, execApplyAckTimeout id k])
  [execRendezvousPost id] ++ pulls ++ [execFlagUnion id, execCopySectorPerformed id] ++ applied ++ [execCopyTokenWrite id]

/-- The events of a tile: acknowledgements, its warps, its streamer, its workgroups. -/
def tileActs (s : State) (t : Nat) : List Act :=
  let x := s.tile t
  let acks := x.unacked.map (execWriteAcknowledgement t)
  let warps := (tileWarps s t).flatMap (fun x => warpActs x.1 x.2.1 x.2.2)
  let copies := (x.copies ++ x.forward).flatMap (copyActs s)
  let groups : List Act := (s.wgs.filter (fun g => g.2.tile == t)).flatMap (fun g =>
    [execWorkgroupEnd g.1, execWorkgroupSwitchOut g.1, execWorkgroupRestore g.1, execPreemptTimeout g.1,
     execCancelTimeout g.1])
  acks ++ warps ++ [execCopyStart t] ++ copies ++ groups

/-- The events of a queue: the packet at its head, and the conditions it waits on. -/
def queueActs (k : Nat) (q : Queue) : List Act :=
  let a := k / 64
  let j := k % 64
  [execLaunchPacket a j, execFencePacket a j, execSignalPacket a j, execCancelPacket a j, execGraphOpen a j,
   execGraphClose a j, execPhaseOpen a j, execPhaseClose a j, execJobOpen a j, execJobClose a j]
    ++ (List.range q.conds.length).map (execFenceConditionTest a j)

/-- The events of a cluster and of a pair. -/
def clusterActs (c : Nat) (k : Cluster) : List Act :=
  k.pipes.map (fun p => execPipeEntryAvailable c p.1) ++ k.walks.map (fun w => execPageWalkEnd c w.asid w.vpn)
    ++ [execSwapQuiesceEnd c, execSwapTransferEnd c, execSwapWritebackEnd c, execSwapEnd c, execSwapQuiesceTimeout c,
        execClockLockDone c, execLinkWidthHandshakeEnd c]
def pairActs (p : Nat) : List Act :=
  [execVoltageTargetReached p, execGatingIdleExpiry p, execGatingDone p, execPairWakeDone p]

/-- The events of a merge point: data returns for the entry that its channel serves next (R288, R403). -/
def mergeActs (s : State) (k : Nat) (m : MergePoint) : List Act :=
  ((nextServed s k m.entries).map (fun e => execDramReturn e.line)).toList

/-- The events of the device beside its tiles. -/
def deviceActs (s : State) : List Act :=
  s.dev.queues.flatMap (fun q => queueActs q.1 q.2)
    ++ [0, 1, 2, 3].map execGangReservation ++ [0, 1, 2, 3].map execDispatchRound
    ++ (List.range 8).map execEprioUpdate
    ++ s.clusters.flatMap (fun c => clusterActs c.1 c.2) ++ (s.pairs.flatMap (fun p => pairActs p.1))
    ++ s.wadi.flatMap (fun m => mergeActs s m.1 m.2)
    ++ (s.dev.copies.filter (fun c => c.2.handed)).flatMap (fun c => copyActs s c.1)

/-- One ref tick passes on every die, the I/O die among them, and a cycle on every tile (R4). -/
def passTime (s : State) : State :=
  let s := [0, 1, 2, 3, 4].foldl (fun s d => passTicks s d 1) s
  s.tiles.foldl (fun s t => passCycles s t.1 1) s

/-- How many instructions a tile may issue before its events and the other tiles have their turn. -/
def quantumLimit : Nat := 16

/-- A cycle of a tile's clock passes as an instruction issues (R29, R274), one in which a warp was ready (R489). -/
def issueCycle (s : State) (t : Nat) : State :=
  let s := { s.setTile t { s.tile t with cycle := (s.tile t).cycle + 1, issued := [] } with quantum := s.quantum + 1 }
  if s.swapping t then s else s.updCluster (clusterOf t) (fun k => { k with held := k.held + 1 })

/-- Tile `here` issues nothing: an event of the tile, or the next tile's turn; after the last tile an event of the
device, or time passes. -/
def idlePlan (s : State) : State :=
  let s := { s with cur := none }
  match firstEffect s (tileActs s s.here) with
  | some t => t
  | none =>
    let next := nextTile s s.here
    if s.here < next then { s with here := next, quantum := 0 }
    else
      match firstEffect s (deviceActs s) with
      | some t => { t with here := next, quantum := 0 }
      | none => { passTime s with here := next, quantum := 0 }

/-- What the machine does when the turn list is empty and no access is late. -/
def freePlan (s : State) : Plan :=
  if s.quantum < quantumLimit then
    match choose (candidates s s.here (fun _ => true)) with
    | some c => { c with s := issueCycle c.s s.here }.plan
    | none => .done (idlePlan s)
  else .done (idlePlan s)

/-- What the next step does. Late accesses and views stand only while the turn list goes on (log entry 40). -/
def plan (s : State) : Plan :=
  match s.turns with
  | [] => if s.late.isEmpty then freePlan { s with early := [] } else .done (performFirst s s.late)
  | t :: r =>
    if s.late.isEmpty && s.early.isEmpty && !t.relaxed then turnPlan { s with turns := r } t
    else relaxedPlan s { s with turns := r } t

end Sys2Proof.Machine
end

