-- ==== Sys2Proof/Machine/Step.lean ====
section
/-! DEFINITION. One step of the machine: the next action of the agent whose turn it is (DESIGN CHOICE, log entry 1). -/

namespace Sys2Proof.Machine

/-- One step: run the instruction or event that the plan names, or stand at the state it gives. -/
def step (s : State) : Host.Outcome State Fault Refusal :=
  match plan s with
  | .run i s' => exec i s'
  | .done s' => .next s'

/-- The state with an instruction, given by its table bits, stored where step fetches next. Every instruction is one word
of 32 bits, so bits above nbits are zero. -/
def State.withFetchWord (s : State) (nbits w : Nat) : State := placeWord s (w % 2 ^ nbits)

end Sys2Proof.Machine
end

