-- ==== Sys2Proof/Laws/Encoding.lean ====
section
/-! SUPPORT. Laws of the decoder: no word fits two rows, a word that fits a row decodes to that row's instruction, and how
fields come out of a word built from fields. -/

namespace Sys2Proof.Laws

/-- Bits taken from the lower part of an appended word. -/
theorem extract_append_low {m k : Nat} (x : BitVec m) (y : BitVec k) (lo n : Nat) (h : lo + n ≤ k) :
    (x ++ y).extractLsb' lo n = y.extractLsb' lo n := by
  ext i hi
  simp only [BitVec.getElem_extractLsb', BitVec.getLsbD_append]
  simp [show lo + i < k by omega]

/-- Bits taken from the upper part of an appended word. -/
theorem extract_append_high {m k : Nat} (x : BitVec m) (y : BitVec k) (lo n : Nat) (h : k ≤ lo) :
    (x ++ y).extractLsb' lo n = x.extractLsb' (lo - k) n := by
  ext i hi
  simp only [BitVec.getElem_extractLsb', BitVec.getLsbD_append]
  simp [show ¬ lo + i < k by omega, show lo + i - k = lo - k + i by omega]

/-- A whole field. -/
theorem extract_whole {k : Nat} (y : BitVec k) : y.extractLsb' 0 k = y := by
  ext i hi
  simp

/-- A field of the body is that field of the word. -/
theorem extract_body (w : Word) (lo n : Nat) (h : lo + n ≤ 24) :
    (w.extractLsb' 0 24).extractLsb' lo n = w.extractLsb' lo n := by
  ext i hi
  simp [BitVec.getElem_extractLsb', show lo + i < 24 by omega]

/-- Masking the body is masking the word. -/
theorem body_and (w : Word) (m : BitVec 24) :
    w.extractLsb' 0 24 &&& m = (w &&& (0#8 ++ m)).extractLsb' 0 24 := by
  ext i hi
  simp only [BitVec.getElem_and, BitVec.getElem_extractLsb', BitVec.getLsbD_and, BitVec.getLsbD_append]
  simp [hi]

/-- Masks apply part by part. -/
theorem append_and {m k : Nat} {x p x' : BitVec m} {y q y' : BitVec k} (hx : x &&& p = x') (hy : y &&& q = y') :
    (x ++ y) &&& (p ++ q) = x' ++ y' := by
  subst hx hy
  ext i hi
  simp only [BitVec.getElem_and, BitVec.getElem_append]
  split <;> simp

/-- Whether two rows differ in bits [31:24] or in a body bit that both fix. -/
def apart (a b : OpRow) : Bool := a.major != b.major || (a.mask &&& b.mask &&& (a.pat ^^^ b.pat)) != 0#24

/-- No word fits two rows that are apart. -/
theorem apart_not_fits (a b : OpRow) (m : BitVec 8) (w : BitVec 24) (h : apart a b = true) (ha : a.fits m w = true) :
    b.fits m w = false := by
  rcases Bool.eq_false_or_eq_true (b.fits m w) with hb | hb
  · exfalso
    simp only [OpRow.fits, Bool.and_eq_true, beq_iff_eq] at ha hb
    simp only [apart, Bool.or_eq_true, bne_iff_ne, ne_eq] at h
    rcases h with h | h
    · exact h (ha.1.trans hb.1.symm)
    · apply h
      rw [← ha.2, ← hb.2]
      ext i hi
      simp only [BitVec.getElem_and, BitVec.getElem_xor, BitVec.getElem_zero]
      cases w[i] <;> cases a.mask[i] <;> cases b.mask[i] <;> rfl
  · exact hb

/-- The rows of the maps are apart from one another: every word has at most one reading (R69). -/
theorem rows_apart : opRows.Pairwise (fun a b => apart a b = true) := by
  decide +kernel

/-- Among rows that are apart, the row that fits gives the instruction. -/
theorem decodeIn_of_fits (rows : List OpRow) (m : BitVec 8) (w : BitVec 24) (r : OpRow)
    (hp : rows.Pairwise (fun a b => apart a b = true)) (hr : r ∈ rows) (hf : r.fits m w = true) :
    decodeIn rows m w = some (r.build w) := by
  induction rows with
  | nil => cases hr
  | cons q rest ih =>
    rw [List.pairwise_cons] at hp
    rw [decodeIn]
    rcases List.mem_cons.mp hr with rfl | hr
    · rw [if_pos hf]
    · have hq : q.fits m w = false := by
        rcases Bool.eq_false_or_eq_true (q.fits m w) with h | h
        · have := apart_not_fits q r m w (hp.1 r hr) h
          rw [this] at hf
          cases hf
        · exact h
      rw [hq]
      exact ih hp.2 hr

/-- A word that fits row number k decodes to what the row builds of its body. -/
theorem decode_of_row (k : Nat) (hk : k < opRows.length) (w : Word) (i : Instr)
    (hf : (opRows[k]).fits (w.extractLsb' 24 8) (w.extractLsb' 0 24) = true)
    (hb : (opRows[k]).build (w.extractLsb' 0 24) = i) : decode w = some i := by
  rw [← hb]
  exact decodeIn_of_fits opRows _ _ _ rows_apart (List.getElem_mem hk) hf

/-- When a word fits a row: its bits [31:24], and its body under the row's mask. -/
theorem fits_of (r : OpRow) (w p : Word) (h1 : w.extractLsb' 24 8 = r.major) (hm : 0#8 ++ r.mask = p)
    (h : w &&& p = 0#8 ++ r.pat) : r.fits (w.extractLsb' 24 8) (w.extractLsb' 0 24) = true := by
  simp only [OpRow.fits, h1, body_and, hm, h, Bool.and_eq_true, beq_iff_eq, true_and]
  rw [extract_append_low _ _ _ _ (Nat.le_refl 24), extract_whole]

end Sys2Proof.Laws
end

