-- ==== Sys2Proof/Laws/PerInstr.lean ====
section
/-! SUPPORT. Statements made of every instruction, one lemma per constructor. Family EncodeDecode: the word that the encoder
makes of an instruction decodes to that instruction, with every operand (R46, R51, R60, R62, R66, R70-R73). An event of the
hardware has no word, and its statement is that the encoder gives none. -/

set_option linter.unusedSimpArgs false
set_option Elab.async false

namespace Sys2Proof.Laws.EncodeDecode

/-- An instruction that has a word is read back from it; the encoder refuses exactly the events. -/
def Statement (i : Instr) : Prop :=
  match encode i with
  | some x => decode x = some i
  | none => Machine.isEvent i = true ∨ (∃ x, i = .illegalInstruction x) ∨ ∃ a, i = .instructionFetchFault a

theorem vaddRrr (d : BitVec 7) (a : BitVec 7) (b : BitVec 7) (p : BitVec 3) : Statement (.vaddRrr d a b p) := by
  refine decode_of_row 0 (by decide +kernel) _ _ (fits_of _ _ (0x0#8 ++ 0x0#7 ++ 0x0#7 ++ 0x0#7 ++ 0x0#3) ?_ (by decide +kernel)
    (((append_and (append_and (append_and (append_and rfl BitVec.and_zero) BitVec.and_zero) BitVec.and_zero) BitVec.and_zero) : _ = 0x0#8 ++ 0x0#7 ++ 0x0#7 ++ 0x0#7 ++ 0x0#3).trans (by decide +kernel))) ?_
  · simp (disch := decide) only [extract_append_high, Nat.reduceSub]
    decide +kernel
  · show Instr.vaddRrr _ _ _ _ = _
    simp (disch := decide) only [extract_body, extract_append_low, extract_append_high, extract_whole, Nat.reduceSub]

theorem vsubRrr (d : BitVec 7) (a : BitVec 7) (b : BitVec 7) (p : BitVec 3) : Statement (.vsubRrr d a b p) := by
  refine decode_of_row 1 (by decide +kernel) _ _ (fits_of _ _ (0x0#8 ++ 0x0#7 ++ 0x0#7 ++ 0x0#7 ++ 0x0#3) ?_ (by decide +kernel)
    (((append_and (append_and (append_and (append_and rfl BitVec.and_zero) BitVec.and_zero) BitVec.and_zero) BitVec.and_zero) : _ = 0x0#8 ++ 0x0#7 ++ 0x0#7 ++ 0x0#7 ++ 0x0#3).trans (by decide +kernel))) ?_
  · simp (disch := decide) only [extract_append_high, Nat.reduceSub]
    decide +kernel
  · show Instr.vsubRrr _ _ _ _ = _
    simp (disch := decide) only [extract_body, extract_append_low, extract_append_high, extract_whole, Nat.reduceSub]

theorem vmulRrr (d : BitVec 7) (a : BitVec 7) (b : BitVec 7) (p : BitVec 3) : Statement (.vmulRrr d a b p) := by
  refine decode_of_row 2 (by decide +kernel) _ _ (fits_of _ _ (0x0#8 ++ 0x0#7 ++ 0x0#7 ++ 0x0#7 ++ 0x0#3) ?_ (by decide +kernel)
    (((append_and (append_and (append_and (append_and rfl BitVec.and_zero) BitVec.and_zero) BitVec.and_zero) BitVec.and_zero) : _ = 0x0#8 ++ 0x0#7 ++ 0x0#7 ++ 0x0#7 ++ 0x0#3).trans (by decide +kernel))) ?_
  · simp (disch := decide) only [extract_append_high, Nat.reduceSub]
    decide +kernel
  · show Instr.vmulRrr _ _ _ _ = _
    simp (disch := decide) only [extract_body, extract_append_low, extract_append_high, extract_whole, Nat.reduceSub]

theorem vmulh (d : BitVec 7) (a : BitVec 7) (b : BitVec 7) (p : BitVec 3) : Statement (.vmulh d a b p) := by
  refine decode_of_row 3 (by decide +kernel) _ _ (fits_of _ _ (0x0#8 ++ 0x0#7 ++ 0x0#7 ++ 0x0#7 ++ 0x0#3) ?_ (by decide +kernel)
    (((append_and (append_and (append_and (append_and rfl BitVec.and_zero) BitVec.and_zero) BitVec.and_zero) BitVec.and_zero) : _ = 0x0#8 ++ 0x0#7 ++ 0x0#7 ++ 0x0#7 ++ 0x0#3).trans (by decide +kernel))) ?_
  · simp (disch := decide) only [extract_append_high, Nat.reduceSub]
    decide +kernel
  · show Instr.vmulh _ _ _ _ = _
    simp (disch := decide) only [extract_body, extract_append_low, extract_append_high, extract_whole, Nat.reduceSub]

theorem vmad (d : BitVec 7) (a : BitVec 7) (b : BitVec 7) (p : BitVec 3) : Statement (.vmad d a b p) := by
  refine decode_of_row 4 (by decide +kernel) _ _ (fits_of _ _ (0x0#8 ++ 0x0#7 ++ 0x0#7 ++ 0x0#7 ++ 0x0#3) ?_ (by decide +kernel)
    (((append_and (append_and (append_and (append_and rfl BitVec.and_zero) BitVec.and_zero) BitVec.and_zero) BitVec.and_zero) : _ = 0x0#8 ++ 0x0#7 ++ 0x0#7 ++ 0x0#7 ++ 0x0#3).trans (by decide +kernel))) ?_
  · simp (disch := decide) only [extract_append_high, Nat.reduceSub]
    decide +kernel
  · show Instr.vmad _ _ _ _ = _
    simp (disch := decide) only [extract_body, extract_append_low, extract_append_high, extract_whole, Nat.reduceSub]

theorem vaddsat (d : BitVec 7) (a : BitVec 7) (b : BitVec 7) (p : BitVec 3) : Statement (.vaddsat d a b p) := by
  refine decode_of_row 5 (by decide +kernel) _ _ (fits_of _ _ (0x0#8 ++ 0x0#7 ++ 0x0#7 ++ 0x0#7 ++ 0x0#3) ?_ (by decide +kernel)
    (((append_and (append_and (append_and (append_and rfl BitVec.and_zero) BitVec.and_zero) BitVec.and_zero) BitVec.and_zero) : _ = 0x0#8 ++ 0x0#7 ++ 0x0#7 ++ 0x0#7 ++ 0x0#3).trans (by decide +kernel))) ?_
  · simp (disch := decide) only [extract_append_high, Nat.reduceSub]
    decide +kernel
  · show Instr.vaddsat _ _ _ _ = _
    simp (disch := decide) only [extract_body, extract_append_low, extract_append_high, extract_whole, Nat.reduceSub]

theorem vsubsat (d : BitVec 7) (a : BitVec 7) (b : BitVec 7) (p : BitVec 3) : Statement (.vsubsat d a b p) := by
  refine decode_of_row 6 (by decide +kernel) _ _ (fits_of _ _ (0x0#8 ++ 0x0#7 ++ 0x0#7 ++ 0x0#7 ++ 0x0#3) ?_ (by decide +kernel)
    (((append_and (append_and (append_and (append_and rfl BitVec.and_zero) BitVec.and_zero) BitVec.and_zero) BitVec.and_zero) : _ = 0x0#8 ++ 0x0#7 ++ 0x0#7 ++ 0x0#7 ++ 0x0#3).trans (by decide +kernel))) ?_
  · simp (disch := decide) only [extract_append_high, Nat.reduceSub]
    decide +kernel
  · show Instr.vsubsat _ _ _ _ = _
    simp (disch := decide) only [extract_body, extract_append_low, extract_append_high, extract_whole, Nat.reduceSub]

theorem vmin (d : BitVec 7) (a : BitVec 7) (b : BitVec 7) (p : BitVec 3) : Statement (.vmin d a b p) := by
  refine decode_of_row 7 (by decide +kernel) _ _ (fits_of _ _ (0x0#8 ++ 0x0#7 ++ 0x0#7 ++ 0x0#7 ++ 0x0#3) ?_ (by decide +kernel)
    (((append_and (append_and (append_and (append_and rfl BitVec.and_zero) BitVec.and_zero) BitVec.and_zero) BitVec.and_zero) : _ = 0x0#8 ++ 0x0#7 ++ 0x0#7 ++ 0x0#7 ++ 0x0#3).trans (by decide +kernel))) ?_
  · simp (disch := decide) only [extract_append_high, Nat.reduceSub]
    decide +kernel
  · show Instr.vmin _ _ _ _ = _
    simp (disch := decide) only [extract_body, extract_append_low, extract_append_high, extract_whole, Nat.reduceSub]

theorem vmax (d : BitVec 7) (a : BitVec 7) (b : BitVec 7) (p : BitVec 3) : Statement (.vmax d a b p) := by
  refine decode_of_row 8 (by decide +kernel) _ _ (fits_of _ _ (0x0#8 ++ 0x0#7 ++ 0x0#7 ++ 0x0#7 ++ 0x0#3) ?_ (by decide +kernel)
    (((append_and (append_and (append_and (append_and rfl BitVec.and_zero) BitVec.and_zero) BitVec.and_zero) BitVec.and_zero) : _ = 0x0#8 ++ 0x0#7 ++ 0x0#7 ++ 0x0#7 ++ 0x0#3).trans (by decide +kernel))) ?_
  · simp (disch := decide) only [extract_append_high, Nat.reduceSub]
    decide +kernel
  · show Instr.vmax _ _ _ _ = _
    simp (disch := decide) only [extract_body, extract_append_low, extract_append_high, extract_whole, Nat.reduceSub]

theorem vabs (d : BitVec 7) (a : BitVec 7) (p : BitVec 3) : Statement (.vabs d a p) := by
  refine decode_of_row 9 (by decide +kernel) _ _ (fits_of _ _ (0x0#8 ++ 0x0#7 ++ 0x0#7 ++ 0x7F#7 ++ 0x0#3) ?_ (by decide +kernel)
    (((append_and (append_and (append_and (append_and rfl BitVec.and_zero) BitVec.and_zero) rfl) BitVec.and_zero) : _ = 0x0#8 ++ 0x0#7 ++ 0x0#7 ++ 0x0#7 ++ 0x0#3).trans (by decide +kernel))) ?_
  · simp (disch := decide) only [extract_append_high, Nat.reduceSub]
    decide +kernel
  · show Instr.vabs _ _ _ = _
    simp (disch := decide) only [extract_body, extract_append_low, extract_append_high, extract_whole, Nat.reduceSub]

theorem vneg (d : BitVec 7) (a : BitVec 7) (p : BitVec 3) : Statement (.vneg d a p) := by
  refine decode_of_row 10 (by decide +kernel) _ _ (fits_of _ _ (0x0#8 ++ 0x0#7 ++ 0x0#7 ++ 0x7F#7 ++ 0x0#3) ?_ (by decide +kernel)
    (((append_and (append_and (append_and (append_and rfl BitVec.and_zero) BitVec.and_zero) rfl) BitVec.and_zero) : _ = 0x0#8 ++ 0x0#7 ++ 0x0#7 ++ 0x0#7 ++ 0x0#3).trans (by decide +kernel))) ?_
  · simp (disch := decide) only [extract_append_high, Nat.reduceSub]
    decide +kernel
  · show Instr.vneg _ _ _ = _
    simp (disch := decide) only [extract_body, extract_append_low, extract_append_high, extract_whole, Nat.reduceSub]

theorem vandRrr (d : BitVec 7) (a : BitVec 7) (b : BitVec 7) (p : BitVec 3) : Statement (.vandRrr d a b p) := by
  refine decode_of_row 11 (by decide +kernel) _ _ (fits_of _ _ (0x0#8 ++ 0x0#7 ++ 0x0#7 ++ 0x0#7 ++ 0x0#3) ?_ (by decide +kernel)
    (((append_and (append_and (append_and (append_and rfl BitVec.and_zero) BitVec.and_zero) BitVec.and_zero) BitVec.and_zero) : _ = 0x0#8 ++ 0x0#7 ++ 0x0#7 ++ 0x0#7 ++ 0x0#3).trans (by decide +kernel))) ?_
  · simp (disch := decide) only [extract_append_high, Nat.reduceSub]
    decide +kernel
  · show Instr.vandRrr _ _ _ _ = _
    simp (disch := decide) only [extract_body, extract_append_low, extract_append_high, extract_whole, Nat.reduceSub]

theorem vorRrr (d : BitVec 7) (a : BitVec 7) (b : BitVec 7) (p : BitVec 3) : Statement (.vorRrr d a b p) := by
  refine decode_of_row 12 (by decide +kernel) _ _ (fits_of _ _ (0x0#8 ++ 0x0#7 ++ 0x0#7 ++ 0x0#7 ++ 0x0#3) ?_ (by decide +kernel)
    (((append_and (append_and (append_and (append_and rfl BitVec.and_zero) BitVec.and_zero) BitVec.and_zero) BitVec.and_zero) : _ = 0x0#8 ++ 0x0#7 ++ 0x0#7 ++ 0x0#7 ++ 0x0#3).trans (by decide +kernel))) ?_
  · simp (disch := decide) only [extract_append_high, Nat.reduceSub]
    decide +kernel
  · show Instr.vorRrr _ _ _ _ = _
    simp (disch := decide) only [extract_body, extract_append_low, extract_append_high, extract_whole, Nat.reduceSub]

theorem vxor (d : BitVec 7) (a : BitVec 7) (b : BitVec 7) (p : BitVec 3) : Statement (.vxor d a b p) := by
  refine decode_of_row 13 (by decide +kernel) _ _ (fits_of _ _ (0x0#8 ++ 0x0#7 ++ 0x0#7 ++ 0x0#7 ++ 0x0#3) ?_ (by decide +kernel)
    (((append_and (append_and (append_and (append_and rfl BitVec.and_zero) BitVec.and_zero) BitVec.and_zero) BitVec.and_zero) : _ = 0x0#8 ++ 0x0#7 ++ 0x0#7 ++ 0x0#7 ++ 0x0#3).trans (by decide +kernel))) ?_
  · simp (disch := decide) only [extract_append_high, Nat.reduceSub]
    decide +kernel
  · show Instr.vxor _ _ _ _ = _
    simp (disch := decide) only [extract_body, extract_append_low, extract_append_high, extract_whole, Nat.reduceSub]

theorem vandn (d : BitVec 7) (a : BitVec 7) (b : BitVec 7) (p : BitVec 3) : Statement (.vandn d a b p) := by
  refine decode_of_row 14 (by decide +kernel) _ _ (fits_of _ _ (0x0#8 ++ 0x0#7 ++ 0x0#7 ++ 0x0#7 ++ 0x0#3) ?_ (by decide +kernel)
    (((append_and (append_and (append_and (append_and rfl BitVec.and_zero) BitVec.and_zero) BitVec.and_zero) BitVec.and_zero) : _ = 0x0#8 ++ 0x0#7 ++ 0x0#7 ++ 0x0#7 ++ 0x0#3).trans (by decide +kernel))) ?_
  · simp (disch := decide) only [extract_append_high, Nat.reduceSub]
    decide +kernel
  · show Instr.vandn _ _ _ _ = _
    simp (disch := decide) only [extract_body, extract_append_low, extract_append_high, extract_whole, Nat.reduceSub]

theorem vnot (d : BitVec 7) (a : BitVec 7) (p : BitVec 3) : Statement (.vnot d a p) := by
  refine decode_of_row 15 (by decide +kernel) _ _ (fits_of _ _ (0x0#8 ++ 0x0#7 ++ 0x0#7 ++ 0x7F#7 ++ 0x0#3) ?_ (by decide +kernel)
    (((append_and (append_and (append_and (append_and rfl BitVec.and_zero) BitVec.and_zero) rfl) BitVec.and_zero) : _ = 0x0#8 ++ 0x0#7 ++ 0x0#7 ++ 0x0#7 ++ 0x0#3).trans (by decide +kernel))) ?_
  · simp (disch := decide) only [extract_append_high, Nat.reduceSub]
    decide +kernel
  · show Instr.vnot _ _ _ = _
    simp (disch := decide) only [extract_body, extract_append_low, extract_append_high, extract_whole, Nat.reduceSub]

theorem vshlRrr (d : BitVec 7) (a : BitVec 7) (b : BitVec 7) (p : BitVec 3) : Statement (.vshlRrr d a b p) := by
  refine decode_of_row 16 (by decide +kernel) _ _ (fits_of _ _ (0x0#8 ++ 0x0#7 ++ 0x0#7 ++ 0x0#7 ++ 0x0#3) ?_ (by decide +kernel)
    (((append_and (append_and (append_and (append_and rfl BitVec.and_zero) BitVec.and_zero) BitVec.and_zero) BitVec.and_zero) : _ = 0x0#8 ++ 0x0#7 ++ 0x0#7 ++ 0x0#7 ++ 0x0#3).trans (by decide +kernel))) ?_
  · simp (disch := decide) only [extract_append_high, Nat.reduceSub]
    decide +kernel
  · show Instr.vshlRrr _ _ _ _ = _
    simp (disch := decide) only [extract_body, extract_append_low, extract_append_high, extract_whole, Nat.reduceSub]

theorem vshrRrr (d : BitVec 7) (a : BitVec 7) (b : BitVec 7) (p : BitVec 3) : Statement (.vshrRrr d a b p) := by
  refine decode_of_row 17 (by decide +kernel) _ _ (fits_of _ _ (0x0#8 ++ 0x0#7 ++ 0x0#7 ++ 0x0#7 ++ 0x0#3) ?_ (by decide +kernel)
    (((append_and (append_and (append_and (append_and rfl BitVec.and_zero) BitVec.and_zero) BitVec.and_zero) BitVec.and_zero) : _ = 0x0#8 ++ 0x0#7 ++ 0x0#7 ++ 0x0#7 ++ 0x0#3).trans (by decide +kernel))) ?_
  · simp (disch := decide) only [extract_append_high, Nat.reduceSub]
    decide +kernel
  · show Instr.vshrRrr _ _ _ _ = _
    simp (disch := decide) only [extract_body, extract_append_low, extract_append_high, extract_whole, Nat.reduceSub]

theorem vsarRrr (d : BitVec 7) (a : BitVec 7) (b : BitVec 7) (p : BitVec 3) : Statement (.vsarRrr d a b p) := by
  refine decode_of_row 18 (by decide +kernel) _ _ (fits_of _ _ (0x0#8 ++ 0x0#7 ++ 0x0#7 ++ 0x0#7 ++ 0x0#3) ?_ (by decide +kernel)
    (((append_and (append_and (append_and (append_and rfl BitVec.and_zero) BitVec.and_zero) BitVec.and_zero) BitVec.and_zero) : _ = 0x0#8 ++ 0x0#7 ++ 0x0#7 ++ 0x0#7 ++ 0x0#3).trans (by decide +kernel))) ?_
  · simp (disch := decide) only [extract_append_high, Nat.reduceSub]
    decide +kernel
  · show Instr.vsarRrr _ _ _ _ = _
    simp (disch := decide) only [extract_body, extract_append_low, extract_append_high, extract_whole, Nat.reduceSub]

theorem vrol (d : BitVec 7) (a : BitVec 7) (b : BitVec 7) (p : BitVec 3) : Statement (.vrol d a b p) := by
  refine decode_of_row 19 (by decide +kernel) _ _ (fits_of _ _ (0x0#8 ++ 0x0#7 ++ 0x0#7 ++ 0x0#7 ++ 0x0#3) ?_ (by decide +kernel)
    (((append_and (append_and (append_and (append_and rfl BitVec.and_zero) BitVec.and_zero) BitVec.and_zero) BitVec.and_zero) : _ = 0x0#8 ++ 0x0#7 ++ 0x0#7 ++ 0x0#7 ++ 0x0#3).trans (by decide +kernel))) ?_
  · simp (disch := decide) only [extract_append_high, Nat.reduceSub]
    decide +kernel
  · show Instr.vrol _ _ _ _ = _
    simp (disch := decide) only [extract_body, extract_append_low, extract_append_high, extract_whole, Nat.reduceSub]

theorem vclz (d : BitVec 7) (a : BitVec 7) (p : BitVec 3) : Statement (.vclz d a p) := by
  refine decode_of_row 20 (by decide +kernel) _ _ (fits_of _ _ (0x0#8 ++ 0x0#7 ++ 0x0#7 ++ 0x7F#7 ++ 0x0#3) ?_ (by decide +kernel)
    (((append_and (append_and (append_and (append_and rfl BitVec.and_zero) BitVec.and_zero) rfl) BitVec.and_zero) : _ = 0x0#8 ++ 0x0#7 ++ 0x0#7 ++ 0x0#7 ++ 0x0#3).trans (by decide +kernel))) ?_
  · simp (disch := decide) only [extract_append_high, Nat.reduceSub]
    decide +kernel
  · show Instr.vclz _ _ _ = _
    simp (disch := decide) only [extract_body, extract_append_low, extract_append_high, extract_whole, Nat.reduceSub]

theorem vpopc (d : BitVec 7) (a : BitVec 7) (p : BitVec 3) : Statement (.vpopc d a p) := by
  refine decode_of_row 21 (by decide +kernel) _ _ (fits_of _ _ (0x0#8 ++ 0x0#7 ++ 0x0#7 ++ 0x7F#7 ++ 0x0#3) ?_ (by decide +kernel)
    (((append_and (append_and (append_and (append_and rfl BitVec.and_zero) BitVec.and_zero) rfl) BitVec.and_zero) : _ = 0x0#8 ++ 0x0#7 ++ 0x0#7 ++ 0x0#7 ++ 0x0#3).trans (by decide +kernel))) ?_
  · simp (disch := decide) only [extract_append_high, Nat.reduceSub]
    decide +kernel
  · show Instr.vpopc _ _ _ = _
    simp (disch := decide) only [extract_body, extract_append_low, extract_append_high, extract_whole, Nat.reduceSub]

theorem vbrev (d : BitVec 7) (a : BitVec 7) (p : BitVec 3) : Statement (.vbrev d a p) := by
  refine decode_of_row 22 (by decide +kernel) _ _ (fits_of _ _ (0x0#8 ++ 0x0#7 ++ 0x0#7 ++ 0x7F#7 ++ 0x0#3) ?_ (by decide +kernel)
    (((append_and (append_and (append_and (append_and rfl BitVec.and_zero) BitVec.and_zero) rfl) BitVec.and_zero) : _ = 0x0#8 ++ 0x0#7 ++ 0x0#7 ++ 0x0#7 ++ 0x0#3).trans (by decide +kernel))) ?_
  · simp (disch := decide) only [extract_append_high, Nat.reduceSub]
    decide +kernel
  · show Instr.vbrev _ _ _ = _
    simp (disch := decide) only [extract_body, extract_append_low, extract_append_high, extract_whole, Nat.reduceSub]

theorem vbfx (d : BitVec 7) (a : BitVec 7) (b : BitVec 7) (p : BitVec 3) : Statement (.vbfx d a b p) := by
  refine decode_of_row 23 (by decide +kernel) _ _ (fits_of _ _ (0x0#8 ++ 0x0#7 ++ 0x0#7 ++ 0x0#7 ++ 0x0#3) ?_ (by decide +kernel)
    (((append_and (append_and (append_and (append_and rfl BitVec.and_zero) BitVec.and_zero) BitVec.and_zero) BitVec.and_zero) : _ = 0x0#8 ++ 0x0#7 ++ 0x0#7 ++ 0x0#7 ++ 0x0#3).trans (by decide +kernel))) ?_
  · simp (disch := decide) only [extract_append_high, Nat.reduceSub]
    decide +kernel
  · show Instr.vbfx _ _ _ _ = _
    simp (disch := decide) only [extract_body, extract_append_low, extract_append_high, extract_whole, Nat.reduceSub]

theorem vbfi (d : BitVec 7) (a : BitVec 7) (b : BitVec 7) (p : BitVec 3) : Statement (.vbfi d a b p) := by
  refine decode_of_row 24 (by decide +kernel) _ _ (fits_of _ _ (0x0#8 ++ 0x0#7 ++ 0x0#7 ++ 0x0#7 ++ 0x0#3) ?_ (by decide +kernel)
    (((append_and (append_and (append_and (append_and rfl BitVec.and_zero) BitVec.and_zero) BitVec.and_zero) BitVec.and_zero) : _ = 0x0#8 ++ 0x0#7 ++ 0x0#7 ++ 0x0#7 ++ 0x0#3).trans (by decide +kernel))) ?_
  · simp (disch := decide) only [extract_append_high, Nat.reduceSub]
    decide +kernel
  · show Instr.vbfi _ _ _ _ = _
    simp (disch := decide) only [extract_body, extract_append_low, extract_append_high, extract_whole, Nat.reduceSub]

theorem vcmp (q : BitVec 3) (n : BitVec 1) (c : BitVec 3) (a : BitVec 7) (b : BitVec 7) (p : BitVec 3) : Statement (.vcmp q n c a b p) := by
  refine decode_of_row 25 (by decide +kernel) _ _ (fits_of _ _ (0x0#8 ++ 0x0#3 ++ 0x0#1 ++ 0x0#3 ++ 0x0#7 ++ 0x0#7 ++ 0x0#3) ?_ (by decide +kernel)
    (((append_and (append_and (append_and (append_and (append_and (append_and rfl BitVec.and_zero) BitVec.and_zero) BitVec.and_zero) BitVec.and_zero) BitVec.and_zero) BitVec.and_zero) : _ = 0x0#8 ++ 0x0#3 ++ 0x0#1 ++ 0x0#3 ++ 0x0#7 ++ 0x0#7 ++ 0x0#3).trans (by decide +kernel))) ?_
  · simp (disch := decide) only [extract_append_high, Nat.reduceSub]
    decide +kernel
  · show Instr.vcmp _ _ _ _ _ _ = _
    simp (disch := decide) only [extract_body, extract_append_low, extract_append_high, extract_whole, Nat.reduceSub]

theorem vsel (d : BitVec 7) (a : BitVec 7) (b : BitVec 7) (k : BitVec 3) : Statement (.vsel d a b k) := by
  refine decode_of_row 26 (by decide +kernel) _ _ (fits_of _ _ (0x0#8 ++ 0x0#7 ++ 0x0#7 ++ 0x0#7 ++ 0x0#3) ?_ (by decide +kernel)
    (((append_and (append_and (append_and (append_and rfl BitVec.and_zero) BitVec.and_zero) BitVec.and_zero) BitVec.and_zero) : _ = 0x0#8 ++ 0x0#7 ++ 0x0#7 ++ 0x0#7 ++ 0x0#3).trans (by decide +kernel))) ?_
  · simp (disch := decide) only [extract_append_high, Nat.reduceSub]
    decide +kernel
  · show Instr.vsel _ _ _ _ = _
    simp (disch := decide) only [extract_body, extract_append_low, extract_append_high, extract_whole, Nat.reduceSub]

theorem vmov (d : BitVec 7) (a : BitVec 7) (p : BitVec 3) : Statement (.vmov d a p) := by
  refine decode_of_row 27 (by decide +kernel) _ _ (fits_of _ _ (0x0#8 ++ 0x0#7 ++ 0x0#7 ++ 0x7F#7 ++ 0x0#3) ?_ (by decide +kernel)
    (((append_and (append_and (append_and (append_and rfl BitVec.and_zero) BitVec.and_zero) rfl) BitVec.and_zero) : _ = 0x0#8 ++ 0x0#7 ++ 0x0#7 ++ 0x0#7 ++ 0x0#3).trans (by decide +kernel))) ?_
  · simp (disch := decide) only [extract_append_high, Nat.reduceSub]
    decide +kernel
  · show Instr.vmov _ _ _ = _
    simp (disch := decide) only [extract_body, extract_append_low, extract_append_high, extract_whole, Nat.reduceSub]

theorem vmovs (d : BitVec 7) (f : BitVec 5) (b : BitVec 7) (p : BitVec 3) : Statement (.vmovs d f b p) := by
  refine decode_of_row 28 (by decide +kernel) _ _ (fits_of _ _ (0x0#8 ++ 0x0#7 ++ 0x0#5 ++ 0x3#2 ++ 0x0#7 ++ 0x0#3) ?_ (by decide +kernel)
    (((append_and (append_and (append_and (append_and (append_and rfl BitVec.and_zero) BitVec.and_zero) rfl) BitVec.and_zero) BitVec.and_zero) : _ = 0x0#8 ++ 0x0#7 ++ 0x0#5 ++ 0x0#2 ++ 0x0#7 ++ 0x0#3).trans (by decide +kernel))) ?_
  · simp (disch := decide) only [extract_append_high, Nat.reduceSub]
    decide +kernel
  · show Instr.vmovs _ _ _ _ = _
    simp (disch := decide) only [extract_body, extract_append_low, extract_append_high, extract_whole, Nat.reduceSub]

theorem vamin (d : BitVec 7) (a : BitVec 7) (b : BitVec 7) (p : BitVec 3) : Statement (.vamin d a b p) := by
  refine decode_of_row 29 (by decide +kernel) _ _ (fits_of _ _ (0x0#8 ++ 0x0#7 ++ 0x0#7 ++ 0x0#7 ++ 0x0#3) ?_ (by decide +kernel)
    (((append_and (append_and (append_and (append_and rfl BitVec.and_zero) BitVec.and_zero) BitVec.and_zero) BitVec.and_zero) : _ = 0x0#8 ++ 0x0#7 ++ 0x0#7 ++ 0x0#7 ++ 0x0#3).trans (by decide +kernel))) ?_
  · simp (disch := decide) only [extract_append_high, Nat.reduceSub]
    decide +kernel
  · show Instr.vamin _ _ _ _ = _
    simp (disch := decide) only [extract_body, extract_append_low, extract_append_high, extract_whole, Nat.reduceSub]

theorem vamax (d : BitVec 7) (a : BitVec 7) (b : BitVec 7) (p : BitVec 3) : Statement (.vamax d a b p) := by
  refine decode_of_row 30 (by decide +kernel) _ _ (fits_of _ _ (0x0#8 ++ 0x0#7 ++ 0x0#7 ++ 0x0#7 ++ 0x0#3) ?_ (by decide +kernel)
    (((append_and (append_and (append_and (append_and rfl BitVec.and_zero) BitVec.and_zero) BitVec.and_zero) BitVec.and_zero) : _ = 0x0#8 ++ 0x0#7 ++ 0x0#7 ++ 0x0#7 ++ 0x0#3).trans (by decide +kernel))) ?_
  · simp (disch := decide) only [extract_append_high, Nat.reduceSub]
    decide +kernel
  · show Instr.vamax _ _ _ _ = _
    simp (disch := decide) only [extract_body, extract_append_low, extract_append_high, extract_whole, Nat.reduceSub]

theorem vfaddRrr (d : BitVec 7) (a : BitVec 7) (b : BitVec 7) (p : BitVec 3) : Statement (.vfaddRrr d a b p) := by
  refine decode_of_row 31 (by decide +kernel) _ _ (fits_of _ _ (0x0#8 ++ 0x0#7 ++ 0x0#7 ++ 0x0#7 ++ 0x0#3) ?_ (by decide +kernel)
    (((append_and (append_and (append_and (append_and rfl BitVec.and_zero) BitVec.and_zero) BitVec.and_zero) BitVec.and_zero) : _ = 0x0#8 ++ 0x0#7 ++ 0x0#7 ++ 0x0#7 ++ 0x0#3).trans (by decide +kernel))) ?_
  · simp (disch := decide) only [extract_append_high, Nat.reduceSub]
    decide +kernel
  · show Instr.vfaddRrr _ _ _ _ = _
    simp (disch := decide) only [extract_body, extract_append_low, extract_append_high, extract_whole, Nat.reduceSub]

theorem vfsub (d : BitVec 7) (a : BitVec 7) (b : BitVec 7) (p : BitVec 3) : Statement (.vfsub d a b p) := by
  refine decode_of_row 32 (by decide +kernel) _ _ (fits_of _ _ (0x0#8 ++ 0x0#7 ++ 0x0#7 ++ 0x0#7 ++ 0x0#3) ?_ (by decide +kernel)
    (((append_and (append_and (append_and (append_and rfl BitVec.and_zero) BitVec.and_zero) BitVec.and_zero) BitVec.and_zero) : _ = 0x0#8 ++ 0x0#7 ++ 0x0#7 ++ 0x0#7 ++ 0x0#3).trans (by decide +kernel))) ?_
  · simp (disch := decide) only [extract_append_high, Nat.reduceSub]
    decide +kernel
  · show Instr.vfsub _ _ _ _ = _
    simp (disch := decide) only [extract_body, extract_append_low, extract_append_high, extract_whole, Nat.reduceSub]

theorem vfmulRrr (d : BitVec 7) (a : BitVec 7) (b : BitVec 7) (p : BitVec 3) : Statement (.vfmulRrr d a b p) := by
  refine decode_of_row 33 (by decide +kernel) _ _ (fits_of _ _ (0x0#8 ++ 0x0#7 ++ 0x0#7 ++ 0x0#7 ++ 0x0#3) ?_ (by decide +kernel)
    (((append_and (append_and (append_and (append_and rfl BitVec.and_zero) BitVec.and_zero) BitVec.and_zero) BitVec.and_zero) : _ = 0x0#8 ++ 0x0#7 ++ 0x0#7 ++ 0x0#7 ++ 0x0#3).trans (by decide +kernel))) ?_
  · simp (disch := decide) only [extract_append_high, Nat.reduceSub]
    decide +kernel
  · show Instr.vfmulRrr _ _ _ _ = _
    simp (disch := decide) only [extract_body, extract_append_low, extract_append_high, extract_whole, Nat.reduceSub]

theorem vfma (d : BitVec 7) (a : BitVec 7) (b : BitVec 7) (p : BitVec 3) : Statement (.vfma d a b p) := by
  refine decode_of_row 34 (by decide +kernel) _ _ (fits_of _ _ (0x0#8 ++ 0x0#7 ++ 0x0#7 ++ 0x0#7 ++ 0x0#3) ?_ (by decide +kernel)
    (((append_and (append_and (append_and (append_and rfl BitVec.and_zero) BitVec.and_zero) BitVec.and_zero) BitVec.and_zero) : _ = 0x0#8 ++ 0x0#7 ++ 0x0#7 ++ 0x0#7 ++ 0x0#3).trans (by decide +kernel))) ?_
  · simp (disch := decide) only [extract_append_high, Nat.reduceSub]
    decide +kernel
  · show Instr.vfma _ _ _ _ = _
    simp (disch := decide) only [extract_body, extract_append_low, extract_append_high, extract_whole, Nat.reduceSub]

theorem vfmin (d : BitVec 7) (a : BitVec 7) (b : BitVec 7) (p : BitVec 3) : Statement (.vfmin d a b p) := by
  refine decode_of_row 35 (by decide +kernel) _ _ (fits_of _ _ (0x0#8 ++ 0x0#7 ++ 0x0#7 ++ 0x0#7 ++ 0x0#3) ?_ (by decide +kernel)
    (((append_and (append_and (append_and (append_and rfl BitVec.and_zero) BitVec.and_zero) BitVec.and_zero) BitVec.and_zero) : _ = 0x0#8 ++ 0x0#7 ++ 0x0#7 ++ 0x0#7 ++ 0x0#3).trans (by decide +kernel))) ?_
  · simp (disch := decide) only [extract_append_high, Nat.reduceSub]
    decide +kernel
  · show Instr.vfmin _ _ _ _ = _
    simp (disch := decide) only [extract_body, extract_append_low, extract_append_high, extract_whole, Nat.reduceSub]

theorem vfmax (d : BitVec 7) (a : BitVec 7) (b : BitVec 7) (p : BitVec 3) : Statement (.vfmax d a b p) := by
  refine decode_of_row 36 (by decide +kernel) _ _ (fits_of _ _ (0x0#8 ++ 0x0#7 ++ 0x0#7 ++ 0x0#7 ++ 0x0#3) ?_ (by decide +kernel)
    (((append_and (append_and (append_and (append_and rfl BitVec.and_zero) BitVec.and_zero) BitVec.and_zero) BitVec.and_zero) : _ = 0x0#8 ++ 0x0#7 ++ 0x0#7 ++ 0x0#7 ++ 0x0#3).trans (by decide +kernel))) ?_
  · simp (disch := decide) only [extract_append_high, Nat.reduceSub]
    decide +kernel
  · show Instr.vfmax _ _ _ _ = _
    simp (disch := decide) only [extract_body, extract_append_low, extract_append_high, extract_whole, Nat.reduceSub]

theorem vfabs (d : BitVec 7) (a : BitVec 7) (p : BitVec 3) : Statement (.vfabs d a p) := by
  refine decode_of_row 37 (by decide +kernel) _ _ (fits_of _ _ (0x0#8 ++ 0x0#7 ++ 0x0#7 ++ 0x7F#7 ++ 0x0#3) ?_ (by decide +kernel)
    (((append_and (append_and (append_and (append_and rfl BitVec.and_zero) BitVec.and_zero) rfl) BitVec.and_zero) : _ = 0x0#8 ++ 0x0#7 ++ 0x0#7 ++ 0x0#7 ++ 0x0#3).trans (by decide +kernel))) ?_
  · simp (disch := decide) only [extract_append_high, Nat.reduceSub]
    decide +kernel
  · show Instr.vfabs _ _ _ = _
    simp (disch := decide) only [extract_body, extract_append_low, extract_append_high, extract_whole, Nat.reduceSub]

theorem vfneg (d : BitVec 7) (a : BitVec 7) (p : BitVec 3) : Statement (.vfneg d a p) := by
  refine decode_of_row 38 (by decide +kernel) _ _ (fits_of _ _ (0x0#8 ++ 0x0#7 ++ 0x0#7 ++ 0x7F#7 ++ 0x0#3) ?_ (by decide +kernel)
    (((append_and (append_and (append_and (append_and rfl BitVec.and_zero) BitVec.and_zero) rfl) BitVec.and_zero) : _ = 0x0#8 ++ 0x0#7 ++ 0x0#7 ++ 0x0#7 ++ 0x0#3).trans (by decide +kernel))) ?_
  · simp (disch := decide) only [extract_append_high, Nat.reduceSub]
    decide +kernel
  · show Instr.vfneg _ _ _ = _
    simp (disch := decide) only [extract_body, extract_append_low, extract_append_high, extract_whole, Nat.reduceSub]

theorem vfcmp (q : BitVec 3) (n : BitVec 1) (c : BitVec 3) (a : BitVec 7) (b : BitVec 7) (p : BitVec 3) : Statement (.vfcmp q n c a b p) := by
  refine decode_of_row 39 (by decide +kernel) _ _ (fits_of _ _ (0x0#8 ++ 0x0#3 ++ 0x0#1 ++ 0x0#3 ++ 0x0#7 ++ 0x0#7 ++ 0x0#3) ?_ (by decide +kernel)
    (((append_and (append_and (append_and (append_and (append_and (append_and rfl BitVec.and_zero) BitVec.and_zero) BitVec.and_zero) BitVec.and_zero) BitVec.and_zero) BitVec.and_zero) : _ = 0x0#8 ++ 0x0#3 ++ 0x0#1 ++ 0x0#3 ++ 0x0#7 ++ 0x0#7 ++ 0x0#3).trans (by decide +kernel))) ?_
  · simp (disch := decide) only [extract_append_high, Nat.reduceSub]
    decide +kernel
  · show Instr.vfcmp _ _ _ _ _ _ = _
    simp (disch := decide) only [extract_body, extract_append_low, extract_append_high, extract_whole, Nat.reduceSub]

theorem vfrcp (d : BitVec 7) (a : BitVec 7) (p : BitVec 3) : Statement (.vfrcp d a p) := by
  refine decode_of_row 40 (by decide +kernel) _ _ (fits_of _ _ (0x0#8 ++ 0x0#7 ++ 0x0#7 ++ 0x7F#7 ++ 0x0#3) ?_ (by decide +kernel)
    (((append_and (append_and (append_and (append_and rfl BitVec.and_zero) BitVec.and_zero) rfl) BitVec.and_zero) : _ = 0x0#8 ++ 0x0#7 ++ 0x0#7 ++ 0x0#7 ++ 0x0#3).trans (by decide +kernel))) ?_
  · simp (disch := decide) only [extract_append_high, Nat.reduceSub]
    decide +kernel
  · show Instr.vfrcp _ _ _ = _
    simp (disch := decide) only [extract_body, extract_append_low, extract_append_high, extract_whole, Nat.reduceSub]

theorem vfrsq (d : BitVec 7) (a : BitVec 7) (p : BitVec 3) : Statement (.vfrsq d a p) := by
  refine decode_of_row 41 (by decide +kernel) _ _ (fits_of _ _ (0x0#8 ++ 0x0#7 ++ 0x0#7 ++ 0x7F#7 ++ 0x0#3) ?_ (by decide +kernel)
    (((append_and (append_and (append_and (append_and rfl BitVec.and_zero) BitVec.and_zero) rfl) BitVec.and_zero) : _ = 0x0#8 ++ 0x0#7 ++ 0x0#7 ++ 0x0#7 ++ 0x0#3).trans (by decide +kernel))) ?_
  · simp (disch := decide) only [extract_append_high, Nat.reduceSub]
    decide +kernel
  · show Instr.vfrsq _ _ _ = _
    simp (disch := decide) only [extract_body, extract_append_low, extract_append_high, extract_whole, Nat.reduceSub]

theorem vfsqrt (d : BitVec 7) (a : BitVec 7) (p : BitVec 3) : Statement (.vfsqrt d a p) := by
  refine decode_of_row 42 (by decide +kernel) _ _ (fits_of _ _ (0x0#8 ++ 0x0#7 ++ 0x0#7 ++ 0x7F#7 ++ 0x0#3) ?_ (by decide +kernel)
    (((append_and (append_and (append_and (append_and rfl BitVec.and_zero) BitVec.and_zero) rfl) BitVec.and_zero) : _ = 0x0#8 ++ 0x0#7 ++ 0x0#7 ++ 0x0#7 ++ 0x0#3).trans (by decide +kernel))) ?_
  · simp (disch := decide) only [extract_append_high, Nat.reduceSub]
    decide +kernel
  · show Instr.vfsqrt _ _ _ = _
    simp (disch := decide) only [extract_body, extract_append_low, extract_append_high, extract_whole, Nat.reduceSub]

theorem vfex2 (d : BitVec 7) (a : BitVec 7) (p : BitVec 3) : Statement (.vfex2 d a p) := by
  refine decode_of_row 43 (by decide +kernel) _ _ (fits_of _ _ (0x0#8 ++ 0x0#7 ++ 0x0#7 ++ 0x7F#7 ++ 0x0#3) ?_ (by decide +kernel)
    (((append_and (append_and (append_and (append_and rfl BitVec.and_zero) BitVec.and_zero) rfl) BitVec.and_zero) : _ = 0x0#8 ++ 0x0#7 ++ 0x0#7 ++ 0x0#7 ++ 0x0#3).trans (by decide +kernel))) ?_
  · simp (disch := decide) only [extract_append_high, Nat.reduceSub]
    decide +kernel
  · show Instr.vfex2 _ _ _ = _
    simp (disch := decide) only [extract_body, extract_append_low, extract_append_high, extract_whole, Nat.reduceSub]

theorem vflg2 (d : BitVec 7) (a : BitVec 7) (p : BitVec 3) : Statement (.vflg2 d a p) := by
  refine decode_of_row 44 (by decide +kernel) _ _ (fits_of _ _ (0x0#8 ++ 0x0#7 ++ 0x0#7 ++ 0x7F#7 ++ 0x0#3) ?_ (by decide +kernel)
    (((append_and (append_and (append_and (append_and rfl BitVec.and_zero) BitVec.and_zero) rfl) BitVec.and_zero) : _ = 0x0#8 ++ 0x0#7 ++ 0x0#7 ++ 0x0#7 ++ 0x0#3).trans (by decide +kernel))) ?_
  · simp (disch := decide) only [extract_append_high, Nat.reduceSub]
    decide +kernel
  · show Instr.vflg2 _ _ _ = _
    simp (disch := decide) only [extract_body, extract_append_low, extract_append_high, extract_whole, Nat.reduceSub]

theorem vfsin (d : BitVec 7) (a : BitVec 7) (p : BitVec 3) : Statement (.vfsin d a p) := by
  refine decode_of_row 45 (by decide +kernel) _ _ (fits_of _ _ (0x0#8 ++ 0x0#7 ++ 0x0#7 ++ 0x7F#7 ++ 0x0#3) ?_ (by decide +kernel)
    (((append_and (append_and (append_and (append_and rfl BitVec.and_zero) BitVec.and_zero) rfl) BitVec.and_zero) : _ = 0x0#8 ++ 0x0#7 ++ 0x0#7 ++ 0x0#7 ++ 0x0#3).trans (by decide +kernel))) ?_
  · simp (disch := decide) only [extract_append_high, Nat.reduceSub]
    decide +kernel
  · show Instr.vfsin _ _ _ = _
    simp (disch := decide) only [extract_body, extract_append_low, extract_append_high, extract_whole, Nat.reduceSub]

theorem vfcos (d : BitVec 7) (a : BitVec 7) (p : BitVec 3) : Statement (.vfcos d a p) := by
  refine decode_of_row 46 (by decide +kernel) _ _ (fits_of _ _ (0x0#8 ++ 0x0#7 ++ 0x0#7 ++ 0x7F#7 ++ 0x0#3) ?_ (by decide +kernel)
    (((append_and (append_and (append_and (append_and rfl BitVec.and_zero) BitVec.and_zero) rfl) BitVec.and_zero) : _ = 0x0#8 ++ 0x0#7 ++ 0x0#7 ++ 0x0#7 ++ 0x0#3).trans (by decide +kernel))) ?_
  · simp (disch := decide) only [extract_append_high, Nat.reduceSub]
    decide +kernel
  · show Instr.vfcos _ _ _ = _
    simp (disch := decide) only [extract_body, extract_append_low, extract_append_high, extract_whole, Nat.reduceSub]

theorem vfclass (d : BitVec 7) (a : BitVec 7) (p : BitVec 3) : Statement (.vfclass d a p) := by
  refine decode_of_row 47 (by decide +kernel) _ _ (fits_of _ _ (0x0#8 ++ 0x0#7 ++ 0x0#7 ++ 0x7F#7 ++ 0x0#3) ?_ (by decide +kernel)
    (((append_and (append_and (append_and (append_and rfl BitVec.and_zero) BitVec.and_zero) rfl) BitVec.and_zero) : _ = 0x0#8 ++ 0x0#7 ++ 0x0#7 ++ 0x0#7 ++ 0x0#3).trans (by decide +kernel))) ?_
  · simp (disch := decide) only [extract_append_high, Nat.reduceSub]
    decide +kernel
  · show Instr.vfclass _ _ _ = _
    simp (disch := decide) only [extract_body, extract_append_low, extract_append_high, extract_whole, Nat.reduceSub]

theorem vcvt (d : BitVec 7) (a : BitVec 7) (f : BitVec 5) (m : BitVec 2) (p : BitVec 3) : Statement (.vcvt d a f m p) := by
  refine decode_of_row 48 (by decide +kernel) _ _ (fits_of _ _ (0x0#8 ++ 0x0#7 ++ 0x0#7 ++ 0x0#5 ++ 0x0#2 ++ 0x0#3) ?_ (by decide +kernel)
    (((append_and (append_and (append_and (append_and (append_and rfl BitVec.and_zero) BitVec.and_zero) BitVec.and_zero) BitVec.and_zero) BitVec.and_zero) : _ = 0x0#8 ++ 0x0#7 ++ 0x0#7 ++ 0x0#5 ++ 0x0#2 ++ 0x0#3).trans (by decide +kernel))) ?_
  · simp (disch := decide) only [extract_append_high, Nat.reduceSub]
    decide +kernel
  · show Instr.vcvt _ _ _ _ _ = _
    simp (disch := decide) only [extract_body, extract_append_low, extract_append_high, extract_whole, Nat.reduceSub]

theorem vcvts (d : BitVec 7) (a : BitVec 7) (f : BitVec 5) (p : BitVec 3) : Statement (.vcvts d a f p) := by
  refine decode_of_row 49 (by decide +kernel) _ _ (fits_of _ _ (0x0#8 ++ 0x0#7 ++ 0x0#7 ++ 0x0#5 ++ 0x3#2 ++ 0x0#3) ?_ (by decide +kernel)
    (((append_and (append_and (append_and (append_and (append_and rfl BitVec.and_zero) BitVec.and_zero) BitVec.and_zero) rfl) BitVec.and_zero) : _ = 0x0#8 ++ 0x0#7 ++ 0x0#7 ++ 0x0#5 ++ 0x0#2 ++ 0x0#3).trans (by decide +kernel))) ?_
  · simp (disch := decide) only [extract_append_high, Nat.reduceSub]
    decide +kernel
  · show Instr.vcvts _ _ _ _ = _
    simp (disch := decide) only [extract_body, extract_append_low, extract_append_high, extract_whole, Nat.reduceSub]

theorem vtag (d : BitVec 7) (a : BitVec 7) (f : BitVec 5) (p : BitVec 3) : Statement (.vtag d a f p) := by
  refine decode_of_row 50 (by decide +kernel) _ _ (fits_of _ _ (0x0#8 ++ 0x0#7 ++ 0x0#7 ++ 0x0#5 ++ 0x3#2 ++ 0x0#3) ?_ (by decide +kernel)
    (((append_and (append_and (append_and (append_and (append_and rfl BitVec.and_zero) BitVec.and_zero) BitVec.and_zero) rfl) BitVec.and_zero) : _ = 0x0#8 ++ 0x0#7 ++ 0x0#7 ++ 0x0#5 ++ 0x0#2 ++ 0x0#3).trans (by decide +kernel))) ?_
  · simp (disch := decide) only [extract_append_high, Nat.reduceSub]
    decide +kernel
  · show Instr.vtag _ _ _ _ = _
    simp (disch := decide) only [extract_body, extract_append_low, extract_append_high, extract_whole, Nat.reduceSub]

theorem vpack (d : BitVec 7) (a : BitVec 7) (h : BitVec 4) (g : BitVec 3) (p : BitVec 3) : Statement (.vpack d a h g p) := by
  refine decode_of_row 51 (by decide +kernel) _ _ (fits_of _ _ (0x0#8 ++ 0x0#7 ++ 0x0#7 ++ 0x0#4 ++ 0x0#3 ++ 0x0#3) ?_ (by decide +kernel)
    (((append_and (append_and (append_and (append_and (append_and rfl BitVec.and_zero) BitVec.and_zero) BitVec.and_zero) BitVec.and_zero) BitVec.and_zero) : _ = 0x0#8 ++ 0x0#7 ++ 0x0#7 ++ 0x0#4 ++ 0x0#3 ++ 0x0#3).trans (by decide +kernel))) ?_
  · simp (disch := decide) only [extract_append_high, Nat.reduceSub]
    decide +kernel
  · show Instr.vpack _ _ _ _ _ = _
    simp (disch := decide) only [extract_body, extract_append_low, extract_append_high, extract_whole, Nat.reduceSub]

theorem vunpk (d : BitVec 7) (a : BitVec 7) (h : BitVec 4) (g : BitVec 3) (p : BitVec 3) : Statement (.vunpk d a h g p) := by
  refine decode_of_row 52 (by decide +kernel) _ _ (fits_of _ _ (0x0#8 ++ 0x0#7 ++ 0x0#7 ++ 0x0#4 ++ 0x0#3 ++ 0x0#3) ?_ (by decide +kernel)
    (((append_and (append_and (append_and (append_and (append_and rfl BitVec.and_zero) BitVec.and_zero) BitVec.and_zero) BitVec.and_zero) BitVec.and_zero) : _ = 0x0#8 ++ 0x0#7 ++ 0x0#7 ++ 0x0#4 ++ 0x0#3 ++ 0x0#3).trans (by decide +kernel))) ?_
  · simp (disch := decide) only [extract_append_high, Nat.reduceSub]
    decide +kernel
  · show Instr.vunpk _ _ _ _ _ = _
    simp (disch := decide) only [extract_body, extract_append_low, extract_append_high, extract_whole, Nat.reduceSub]

theorem vaddRrs (d : BitVec 7) (a : BitVec 7) (b : BitVec 7) (p : BitVec 3) : Statement (.vaddRrs d a b p) := by
  refine decode_of_row 53 (by decide +kernel) _ _ (fits_of _ _ (0x0#8 ++ 0x0#7 ++ 0x0#7 ++ 0x0#7 ++ 0x0#3) ?_ (by decide +kernel)
    (((append_and (append_and (append_and (append_and rfl BitVec.and_zero) BitVec.and_zero) BitVec.and_zero) BitVec.and_zero) : _ = 0x0#8 ++ 0x0#7 ++ 0x0#7 ++ 0x0#7 ++ 0x0#3).trans (by decide +kernel))) ?_
  · simp (disch := decide) only [extract_append_high, Nat.reduceSub]
    decide +kernel
  · show Instr.vaddRrs _ _ _ _ = _
    simp (disch := decide) only [extract_body, extract_append_low, extract_append_high, extract_whole, Nat.reduceSub]

theorem vsubRrs (d : BitVec 7) (a : BitVec 7) (b : BitVec 7) (p : BitVec 3) : Statement (.vsubRrs d a b p) := by
  refine decode_of_row 54 (by decide +kernel) _ _ (fits_of _ _ (0x0#8 ++ 0x0#7 ++ 0x0#7 ++ 0x0#7 ++ 0x0#3) ?_ (by decide +kernel)
    (((append_and (append_and (append_and (append_and rfl BitVec.and_zero) BitVec.and_zero) BitVec.and_zero) BitVec.and_zero) : _ = 0x0#8 ++ 0x0#7 ++ 0x0#7 ++ 0x0#7 ++ 0x0#3).trans (by decide +kernel))) ?_
  · simp (disch := decide) only [extract_append_high, Nat.reduceSub]
    decide +kernel
  · show Instr.vsubRrs _ _ _ _ = _
    simp (disch := decide) only [extract_body, extract_append_low, extract_append_high, extract_whole, Nat.reduceSub]

theorem vmulRrs (d : BitVec 7) (a : BitVec 7) (b : BitVec 7) (p : BitVec 3) : Statement (.vmulRrs d a b p) := by
  refine decode_of_row 55 (by decide +kernel) _ _ (fits_of _ _ (0x0#8 ++ 0x0#7 ++ 0x0#7 ++ 0x0#7 ++ 0x0#3) ?_ (by decide +kernel)
    (((append_and (append_and (append_and (append_and rfl BitVec.and_zero) BitVec.and_zero) BitVec.and_zero) BitVec.and_zero) : _ = 0x0#8 ++ 0x0#7 ++ 0x0#7 ++ 0x0#7 ++ 0x0#3).trans (by decide +kernel))) ?_
  · simp (disch := decide) only [extract_append_high, Nat.reduceSub]
    decide +kernel
  · show Instr.vmulRrs _ _ _ _ = _
    simp (disch := decide) only [extract_body, extract_append_low, extract_append_high, extract_whole, Nat.reduceSub]

theorem vandRrs (d : BitVec 7) (a : BitVec 7) (b : BitVec 7) (p : BitVec 3) : Statement (.vandRrs d a b p) := by
  refine decode_of_row 56 (by decide +kernel) _ _ (fits_of _ _ (0x0#8 ++ 0x0#7 ++ 0x0#7 ++ 0x0#7 ++ 0x0#3) ?_ (by decide +kernel)
    (((append_and (append_and (append_and (append_and rfl BitVec.and_zero) BitVec.and_zero) BitVec.and_zero) BitVec.and_zero) : _ = 0x0#8 ++ 0x0#7 ++ 0x0#7 ++ 0x0#7 ++ 0x0#3).trans (by decide +kernel))) ?_
  · simp (disch := decide) only [extract_append_high, Nat.reduceSub]
    decide +kernel
  · show Instr.vandRrs _ _ _ _ = _
    simp (disch := decide) only [extract_body, extract_append_low, extract_append_high, extract_whole, Nat.reduceSub]

theorem vorRrs (d : BitVec 7) (a : BitVec 7) (b : BitVec 7) (p : BitVec 3) : Statement (.vorRrs d a b p) := by
  refine decode_of_row 57 (by decide +kernel) _ _ (fits_of _ _ (0x0#8 ++ 0x0#7 ++ 0x0#7 ++ 0x0#7 ++ 0x0#3) ?_ (by decide +kernel)
    (((append_and (append_and (append_and (append_and rfl BitVec.and_zero) BitVec.and_zero) BitVec.and_zero) BitVec.and_zero) : _ = 0x0#8 ++ 0x0#7 ++ 0x0#7 ++ 0x0#7 ++ 0x0#3).trans (by decide +kernel))) ?_
  · simp (disch := decide) only [extract_append_high, Nat.reduceSub]
    decide +kernel
  · show Instr.vorRrs _ _ _ _ = _
    simp (disch := decide) only [extract_body, extract_append_low, extract_append_high, extract_whole, Nat.reduceSub]

theorem vshlRrs (d : BitVec 7) (a : BitVec 7) (b : BitVec 7) (p : BitVec 3) : Statement (.vshlRrs d a b p) := by
  refine decode_of_row 58 (by decide +kernel) _ _ (fits_of _ _ (0x0#8 ++ 0x0#7 ++ 0x0#7 ++ 0x0#7 ++ 0x0#3) ?_ (by decide +kernel)
    (((append_and (append_and (append_and (append_and rfl BitVec.and_zero) BitVec.and_zero) BitVec.and_zero) BitVec.and_zero) : _ = 0x0#8 ++ 0x0#7 ++ 0x0#7 ++ 0x0#7 ++ 0x0#3).trans (by decide +kernel))) ?_
  · simp (disch := decide) only [extract_append_high, Nat.reduceSub]
    decide +kernel
  · show Instr.vshlRrs _ _ _ _ = _
    simp (disch := decide) only [extract_body, extract_append_low, extract_append_high, extract_whole, Nat.reduceSub]

theorem vshrRrs (d : BitVec 7) (a : BitVec 7) (b : BitVec 7) (p : BitVec 3) : Statement (.vshrRrs d a b p) := by
  refine decode_of_row 59 (by decide +kernel) _ _ (fits_of _ _ (0x0#8 ++ 0x0#7 ++ 0x0#7 ++ 0x0#7 ++ 0x0#3) ?_ (by decide +kernel)
    (((append_and (append_and (append_and (append_and rfl BitVec.and_zero) BitVec.and_zero) BitVec.and_zero) BitVec.and_zero) : _ = 0x0#8 ++ 0x0#7 ++ 0x0#7 ++ 0x0#7 ++ 0x0#3).trans (by decide +kernel))) ?_
  · simp (disch := decide) only [extract_append_high, Nat.reduceSub]
    decide +kernel
  · show Instr.vshrRrs _ _ _ _ = _
    simp (disch := decide) only [extract_body, extract_append_low, extract_append_high, extract_whole, Nat.reduceSub]

theorem vsarRrs (d : BitVec 7) (a : BitVec 7) (b : BitVec 7) (p : BitVec 3) : Statement (.vsarRrs d a b p) := by
  refine decode_of_row 60 (by decide +kernel) _ _ (fits_of _ _ (0x0#8 ++ 0x0#7 ++ 0x0#7 ++ 0x0#7 ++ 0x0#3) ?_ (by decide +kernel)
    (((append_and (append_and (append_and (append_and rfl BitVec.and_zero) BitVec.and_zero) BitVec.and_zero) BitVec.and_zero) : _ = 0x0#8 ++ 0x0#7 ++ 0x0#7 ++ 0x0#7 ++ 0x0#3).trans (by decide +kernel))) ?_
  · simp (disch := decide) only [extract_append_high, Nat.reduceSub]
    decide +kernel
  · show Instr.vsarRrs _ _ _ _ = _
    simp (disch := decide) only [extract_body, extract_append_low, extract_append_high, extract_whole, Nat.reduceSub]

theorem vfaddRrs (d : BitVec 7) (a : BitVec 7) (b : BitVec 7) (p : BitVec 3) : Statement (.vfaddRrs d a b p) := by
  refine decode_of_row 61 (by decide +kernel) _ _ (fits_of _ _ (0x0#8 ++ 0x0#7 ++ 0x0#7 ++ 0x0#7 ++ 0x0#3) ?_ (by decide +kernel)
    (((append_and (append_and (append_and (append_and rfl BitVec.and_zero) BitVec.and_zero) BitVec.and_zero) BitVec.and_zero) : _ = 0x0#8 ++ 0x0#7 ++ 0x0#7 ++ 0x0#7 ++ 0x0#3).trans (by decide +kernel))) ?_
  · simp (disch := decide) only [extract_append_high, Nat.reduceSub]
    decide +kernel
  · show Instr.vfaddRrs _ _ _ _ = _
    simp (disch := decide) only [extract_body, extract_append_low, extract_append_high, extract_whole, Nat.reduceSub]

theorem vfmulRrs (d : BitVec 7) (a : BitVec 7) (b : BitVec 7) (p : BitVec 3) : Statement (.vfmulRrs d a b p) := by
  refine decode_of_row 62 (by decide +kernel) _ _ (fits_of _ _ (0x0#8 ++ 0x0#7 ++ 0x0#7 ++ 0x0#7 ++ 0x0#3) ?_ (by decide +kernel)
    (((append_and (append_and (append_and (append_and rfl BitVec.and_zero) BitVec.and_zero) BitVec.and_zero) BitVec.and_zero) : _ = 0x0#8 ++ 0x0#7 ++ 0x0#7 ++ 0x0#7 ++ 0x0#3).trans (by decide +kernel))) ?_
  · simp (disch := decide) only [extract_append_high, Nat.reduceSub]
    decide +kernel
  · show Instr.vfmulRrs _ _ _ _ = _
    simp (disch := decide) only [extract_body, extract_append_low, extract_append_high, extract_whole, Nat.reduceSub]

theorem vshuf (d : BitVec 7) (a : BitVec 7) (z : BitVec 1) (w : BitVec 3) (k : BitVec 2) : Statement (.vshuf d a z w k) := by
  refine decode_of_row 63 (by decide +kernel) _ _ (fits_of _ _ (0x0#8 ++ 0x0#7 ++ 0x0#7 ++ 0x0#1 ++ 0x0#3 ++ 0xF#4 ++ 0x0#2) ?_ (by decide +kernel)
    (((append_and (append_and (append_and (append_and (append_and (append_and rfl BitVec.and_zero) BitVec.and_zero) BitVec.and_zero) BitVec.and_zero) rfl) BitVec.and_zero) : _ = 0x0#8 ++ 0x0#7 ++ 0x0#7 ++ 0x0#1 ++ 0x0#3 ++ 0x0#4 ++ 0x0#2).trans (by decide +kernel))) ?_
  · simp (disch := decide) only [extract_append_high, Nat.reduceSub]
    decide +kernel
  · show Instr.vshuf _ _ _ _ _ = _
    simp (disch := decide) only [extract_body, extract_append_low, extract_append_high, extract_whole, Nat.reduceSub]

theorem vshufi (d : BitVec 7) (a : BitVec 7) (z : BitVec 1) (w : BitVec 3) (m : BitVec 5) : Statement (.vshufi d a z w m) := by
  refine decode_of_row 64 (by decide +kernel) _ _ (fits_of _ _ (0x0#8 ++ 0x0#7 ++ 0x0#7 ++ 0x0#1 ++ 0x0#3 ++ 0x1#1 ++ 0x0#5) ?_ (by decide +kernel)
    (((append_and (append_and (append_and (append_and (append_and (append_and rfl BitVec.and_zero) BitVec.and_zero) BitVec.and_zero) BitVec.and_zero) rfl) BitVec.and_zero) : _ = 0x0#8 ++ 0x0#7 ++ 0x0#7 ++ 0x0#1 ++ 0x0#3 ++ 0x0#1 ++ 0x0#5).trans (by decide +kernel))) ?_
  · simp (disch := decide) only [extract_append_high, Nat.reduceSub]
    decide +kernel
  · show Instr.vshufi _ _ _ _ _ = _
    simp (disch := decide) only [extract_body, extract_append_low, extract_append_high, extract_whole, Nat.reduceSub]

theorem vlsh (d : BitVec 7) (a : BitVec 7) (z : BitVec 1) (w : BitVec 3) (x : BitVec 1) (n : BitVec 5) : Statement (.vlsh d a z w x n) := by
  refine decode_of_row 65 (by decide +kernel) _ _ (fits_of _ _ (0x0#8 ++ 0x0#7 ++ 0x0#7 ++ 0x0#1 ++ 0x0#3 ++ 0x0#1 ++ 0x0#5) ?_ (by decide +kernel)
    (((append_and (append_and (append_and (append_and (append_and (append_and rfl BitVec.and_zero) BitVec.and_zero) BitVec.and_zero) BitVec.and_zero) BitVec.and_zero) BitVec.and_zero) : _ = 0x0#8 ++ 0x0#7 ++ 0x0#7 ++ 0x0#1 ++ 0x0#3 ++ 0x0#1 ++ 0x0#5).trans (by decide +kernel))) ?_
  · simp (disch := decide) only [extract_append_high, Nat.reduceSub]
    decide +kernel
  · show Instr.vlsh _ _ _ _ _ _ = _
    simp (disch := decide) only [extract_body, extract_append_low, extract_append_high, extract_whole, Nat.reduceSub]

theorem vbcst (d : BitVec 7) (a : BitVec 7) (z : BitVec 1) (w : BitVec 3) (k : BitVec 5) : Statement (.vbcst d a z w k) := by
  refine decode_of_row 66 (by decide +kernel) _ _ (fits_of _ _ (0x0#8 ++ 0x0#7 ++ 0x0#7 ++ 0x0#1 ++ 0x0#3 ++ 0x1#1 ++ 0x0#5) ?_ (by decide +kernel)
    (((append_and (append_and (append_and (append_and (append_and (append_and rfl BitVec.and_zero) BitVec.and_zero) BitVec.and_zero) BitVec.and_zero) rfl) BitVec.and_zero) : _ = 0x0#8 ++ 0x0#7 ++ 0x0#7 ++ 0x0#1 ++ 0x0#3 ++ 0x0#1 ++ 0x0#5).trans (by decide +kernel))) ?_
  · simp (disch := decide) only [extract_append_high, Nat.reduceSub]
    decide +kernel
  · show Instr.vbcst _ _ _ _ _ = _
    simp (disch := decide) only [extract_body, extract_append_low, extract_append_high, extract_whole, Nat.reduceSub]

theorem vred (d : BitVec 7) (a : BitVec 7) (w : BitVec 3) (o : BitVec 3) : Statement (.vred d a w o) := by
  refine decode_of_row 67 (by decide +kernel) _ _ (fits_of _ _ (0x0#8 ++ 0x0#7 ++ 0x0#7 ++ 0x1#1 ++ 0x0#3 ++ 0x7#3 ++ 0x0#3) ?_ (by decide +kernel)
    (((append_and (append_and (append_and (append_and (append_and (append_and rfl BitVec.and_zero) BitVec.and_zero) rfl) BitVec.and_zero) rfl) BitVec.and_zero) : _ = 0x0#8 ++ 0x0#7 ++ 0x0#7 ++ 0x0#1 ++ 0x0#3 ++ 0x0#3 ++ 0x0#3).trans (by decide +kernel))) ?_
  · simp (disch := decide) only [extract_append_high, Nat.reduceSub]
    decide +kernel
  · show Instr.vred _ _ _ _ = _
    simp (disch := decide) only [extract_body, extract_append_low, extract_append_high, extract_whole, Nat.reduceSub]

theorem vscan (d : BitVec 7) (a : BitVec 7) (w : BitVec 3) (x : BitVec 1) (o : BitVec 3) : Statement (.vscan d a w x o) := by
  refine decode_of_row 68 (by decide +kernel) _ _ (fits_of _ _ (0x0#8 ++ 0x0#7 ++ 0x0#7 ++ 0x1#1 ++ 0x0#3 ++ 0x0#1 ++ 0x3#2 ++ 0x0#3) ?_ (by decide +kernel)
    (((append_and (append_and (append_and (append_and (append_and (append_and (append_and rfl BitVec.and_zero) BitVec.and_zero) rfl) BitVec.and_zero) BitVec.and_zero) rfl) BitVec.and_zero) : _ = 0x0#8 ++ 0x0#7 ++ 0x0#7 ++ 0x0#1 ++ 0x0#3 ++ 0x0#1 ++ 0x0#2 ++ 0x0#3).trans (by decide +kernel))) ?_
  · simp (disch := decide) only [extract_append_high, Nat.reduceSub]
    decide +kernel
  · show Instr.vscan _ _ _ _ _ = _
    simp (disch := decide) only [extract_body, extract_append_low, extract_append_high, extract_whole, Nat.reduceSub]

theorem vcav (d : BitVec 7) (a : BitVec 7) (w : BitVec 3) (o : BitVec 3) : Statement (.vcav d a w o) := by
  refine decode_of_row 69 (by decide +kernel) _ _ (fits_of _ _ (0x0#8 ++ 0x0#7 ++ 0x0#7 ++ 0x1#1 ++ 0x0#3 ++ 0x7#3 ++ 0x0#3) ?_ (by decide +kernel)
    (((append_and (append_and (append_and (append_and (append_and (append_and rfl BitVec.and_zero) BitVec.and_zero) rfl) BitVec.and_zero) rfl) BitVec.and_zero) : _ = 0x0#8 ++ 0x0#7 ++ 0x0#7 ++ 0x0#1 ++ 0x0#3 ++ 0x0#3 ++ 0x0#3).trans (by decide +kernel))) ?_
  · simp (disch := decide) only [extract_append_high, Nat.reduceSub]
    decide +kernel
  · show Instr.vcav _ _ _ _ = _
    simp (disch := decide) only [extract_body, extract_append_low, extract_append_high, extract_whole, Nat.reduceSub]

theorem vballot (d : BitVec 7) (w : BitVec 3) (k : BitVec 3) : Statement (.vballot d w k) := by
  refine decode_of_row 70 (by decide +kernel) _ _ (fits_of _ _ (0x0#8 ++ 0x0#7 ++ 0xFF#8 ++ 0x0#3 ++ 0x7#3 ++ 0x0#3) ?_ (by decide +kernel)
    (((append_and (append_and (append_and (append_and (append_and rfl BitVec.and_zero) rfl) BitVec.and_zero) rfl) BitVec.and_zero) : _ = 0x0#8 ++ 0x0#7 ++ 0x0#8 ++ 0x0#3 ++ 0x0#3 ++ 0x0#3).trans (by decide +kernel))) ?_
  · simp (disch := decide) only [extract_append_high, Nat.reduceSub]
    decide +kernel
  · show Instr.vballot _ _ _ = _
    simp (disch := decide) only [extract_body, extract_append_low, extract_append_high, extract_whole, Nat.reduceSub]

theorem vsubel (d : BitVec 7) (a : BitVec 7) (s : BitVec 5) : Statement (.vsubel d a s) := by
  refine decode_of_row 71 (by decide +kernel) _ _ (fits_of _ _ (0x0#8 ++ 0x0#7 ++ 0x0#7 ++ 0x1F#5 ++ 0x0#5) ?_ (by decide +kernel)
    (((append_and (append_and (append_and (append_and rfl BitVec.and_zero) BitVec.and_zero) rfl) BitVec.and_zero) : _ = 0x0#8 ++ 0x0#7 ++ 0x0#7 ++ 0x0#5 ++ 0x0#5).trans (by decide +kernel))) ?_
  · simp (disch := decide) only [extract_append_high, Nat.reduceSub]
    decide +kernel
  · show Instr.vsubel _ _ _ = _
    simp (disch := decide) only [extract_body, extract_append_low, extract_append_high, extract_whole, Nat.reduceSub]

theorem vxswap (d : BitVec 7) (a : BitVec 7) (z : BitVec 1) (s : BitVec 5) : Statement (.vxswap d a z s) := by
  refine decode_of_row 72 (by decide +kernel) _ _ (fits_of _ _ (0x0#8 ++ 0x0#7 ++ 0x0#7 ++ 0x0#1 ++ 0xF#4 ++ 0x0#5) ?_ (by decide +kernel)
    (((append_and (append_and (append_and (append_and (append_and rfl BitVec.and_zero) BitVec.and_zero) BitVec.and_zero) rfl) BitVec.and_zero) : _ = 0x0#8 ++ 0x0#7 ++ 0x0#7 ++ 0x0#1 ++ 0x0#4 ++ 0x0#5).trans (by decide +kernel))) ?_
  · simp (disch := decide) only [extract_append_high, Nat.reduceSub]
    decide +kernel
  · show Instr.vxswap _ _ _ _ = _
    simp (disch := decide) only [extract_body, extract_append_low, extract_append_high, extract_whole, Nat.reduceSub]

theorem vld (d : BitVec 7) (b : BitVec 7) (t : BitVec 5) (f : BitVec 1) (o : BitVec 4) : Statement (.vld d b t f o) := by
  refine decode_of_row 73 (by decide +kernel) _ _ (fits_of _ _ (0x0#8 ++ 0x0#7 ++ 0x0#7 ++ 0x0#5 ++ 0x0#1 ++ 0x0#4) ?_ (by decide +kernel)
    (((append_and (append_and (append_and (append_and (append_and rfl BitVec.and_zero) BitVec.and_zero) BitVec.and_zero) BitVec.and_zero) BitVec.and_zero) : _ = 0x0#8 ++ 0x0#7 ++ 0x0#7 ++ 0x0#5 ++ 0x0#1 ++ 0x0#4).trans (by decide +kernel))) ?_
  · simp (disch := decide) only [extract_append_high, Nat.reduceSub]
    decide +kernel
  · show Instr.vld _ _ _ _ _ = _
    simp (disch := decide) only [extract_body, extract_append_low, extract_append_high, extract_whole, Nat.reduceSub]

theorem vst (d : BitVec 7) (b : BitVec 7) (t : BitVec 5) (f : BitVec 1) (o : BitVec 4) : Statement (.vst d b t f o) := by
  refine decode_of_row 74 (by decide +kernel) _ _ (fits_of _ _ (0x0#8 ++ 0x0#7 ++ 0x0#7 ++ 0x0#5 ++ 0x0#1 ++ 0x0#4) ?_ (by decide +kernel)
    (((append_and (append_and (append_and (append_and (append_and rfl BitVec.and_zero) BitVec.and_zero) BitVec.and_zero) BitVec.and_zero) BitVec.and_zero) : _ = 0x0#8 ++ 0x0#7 ++ 0x0#7 ++ 0x0#5 ++ 0x0#1 ++ 0x0#4).trans (by decide +kernel))) ?_
  · simp (disch := decide) only [extract_append_high, Nat.reduceSub]
    decide +kernel
  · show Instr.vst _ _ _ _ _ = _
    simp (disch := decide) only [extract_body, extract_append_low, extract_append_high, extract_whole, Nat.reduceSub]

theorem vatom (d : BitVec 7) (b : BitVec 7) (t : BitVec 5) (f : BitVec 1) (o : BitVec 4) : Statement (.vatom d b t f o) := by
  refine decode_of_row 75 (by decide +kernel) _ _ (fits_of _ _ (0x0#8 ++ 0x0#7 ++ 0x0#7 ++ 0x0#5 ++ 0x0#1 ++ 0x0#4) ?_ (by decide +kernel)
    (((append_and (append_and (append_and (append_and (append_and rfl BitVec.and_zero) BitVec.and_zero) BitVec.and_zero) BitVec.and_zero) BitVec.and_zero) : _ = 0x0#8 ++ 0x0#7 ++ 0x0#7 ++ 0x0#5 ++ 0x0#1 ++ 0x0#4).trans (by decide +kernel))) ?_
  · simp (disch := decide) only [extract_append_high, Nat.reduceSub]
    decide +kernel
  · show Instr.vatom _ _ _ _ _ = _
    simp (disch := decide) only [extract_body, extract_append_low, extract_append_high, extract_whole, Nat.reduceSub]

theorem vcas (d : BitVec 7) (b : BitVec 7) (t : BitVec 5) (f : BitVec 1) (o : BitVec 4) : Statement (.vcas d b t f o) := by
  refine decode_of_row 76 (by decide +kernel) _ _ (fits_of _ _ (0x0#8 ++ 0x0#7 ++ 0x0#7 ++ 0x0#5 ++ 0x0#1 ++ 0x0#4) ?_ (by decide +kernel)
    (((append_and (append_and (append_and (append_and (append_and rfl BitVec.and_zero) BitVec.and_zero) BitVec.and_zero) BitVec.and_zero) BitVec.and_zero) : _ = 0x0#8 ++ 0x0#7 ++ 0x0#7 ++ 0x0#5 ++ 0x0#1 ++ 0x0#4).trans (by decide +kernel))) ?_
  · simp (disch := decide) only [extract_append_high, Nat.reduceSub]
    decide +kernel
  · show Instr.vcas _ _ _ _ _ = _
    simp (disch := decide) only [extract_body, extract_append_low, extract_append_high, extract_whole, Nat.reduceSub]

theorem vprf (b : BitVec 7) (f : BitVec 1) (o : BitVec 4) : Statement (.vprf b f o) := by
  refine decode_of_row 77 (by decide +kernel) _ _ (fits_of _ _ (0x0#8 ++ 0x7F#7 ++ 0x0#7 ++ 0x1F#5 ++ 0x0#1 ++ 0x0#4) ?_ (by decide +kernel)
    (((append_and (append_and (append_and (append_and (append_and rfl rfl) BitVec.and_zero) rfl) BitVec.and_zero) BitVec.and_zero) : _ = 0x0#8 ++ 0x0#7 ++ 0x0#7 ++ 0x0#5 ++ 0x0#1 ++ 0x0#4).trans (by decide +kernel))) ?_
  · simp (disch := decide) only [extract_append_high, Nat.reduceSub]
    decide +kernel
  · show Instr.vprf _ _ _ = _
    simp (disch := decide) only [extract_body, extract_append_low, extract_append_high, extract_whole, Nat.reduceSub]

theorem vlds (d : BitVec 7) (b : BitVec 7) (t : BitVec 5) (f : BitVec 1) (o : BitVec 4) : Statement (.vlds d b t f o) := by
  refine decode_of_row 78 (by decide +kernel) _ _ (fits_of _ _ (0x0#8 ++ 0x0#7 ++ 0x0#7 ++ 0x0#5 ++ 0x0#1 ++ 0x0#4) ?_ (by decide +kernel)
    (((append_and (append_and (append_and (append_and (append_and rfl BitVec.and_zero) BitVec.and_zero) BitVec.and_zero) BitVec.and_zero) BitVec.and_zero) : _ = 0x0#8 ++ 0x0#7 ++ 0x0#7 ++ 0x0#5 ++ 0x0#1 ++ 0x0#4).trans (by decide +kernel))) ?_
  · simp (disch := decide) only [extract_append_high, Nat.reduceSub]
    decide +kernel
  · show Instr.vlds _ _ _ _ _ = _
    simp (disch := decide) only [extract_body, extract_append_low, extract_append_high, extract_whole, Nat.reduceSub]

theorem vsts (d : BitVec 7) (b : BitVec 7) (t : BitVec 5) (f : BitVec 1) (o : BitVec 4) : Statement (.vsts d b t f o) := by
  refine decode_of_row 79 (by decide +kernel) _ _ (fits_of _ _ (0x0#8 ++ 0x0#7 ++ 0x0#7 ++ 0x0#5 ++ 0x0#1 ++ 0x0#4) ?_ (by decide +kernel)
    (((append_and (append_and (append_and (append_and (append_and rfl BitVec.and_zero) BitVec.and_zero) BitVec.and_zero) BitVec.and_zero) BitVec.and_zero) : _ = 0x0#8 ++ 0x0#7 ++ 0x0#7 ++ 0x0#5 ++ 0x0#1 ++ 0x0#4).trans (by decide +kernel))) ?_
  · simp (disch := decide) only [extract_append_high, Nat.reduceSub]
    decide +kernel
  · show Instr.vsts _ _ _ _ _ = _
    simp (disch := decide) only [extract_body, extract_append_low, extract_append_high, extract_whole, Nat.reduceSub]

theorem vatoms (d : BitVec 7) (b : BitVec 7) (t : BitVec 5) (f : BitVec 1) (o : BitVec 4) : Statement (.vatoms d b t f o) := by
  refine decode_of_row 80 (by decide +kernel) _ _ (fits_of _ _ (0x0#8 ++ 0x0#7 ++ 0x0#7 ++ 0x0#5 ++ 0x0#1 ++ 0x0#4) ?_ (by decide +kernel)
    (((append_and (append_and (append_and (append_and (append_and rfl BitVec.and_zero) BitVec.and_zero) BitVec.and_zero) BitVec.and_zero) BitVec.and_zero) : _ = 0x0#8 ++ 0x0#7 ++ 0x0#7 ++ 0x0#5 ++ 0x0#1 ++ 0x0#4).trans (by decide +kernel))) ?_
  · simp (disch := decide) only [extract_append_high, Nat.reduceSub]
    decide +kernel
  · show Instr.vatoms _ _ _ _ _ = _
    simp (disch := decide) only [extract_body, extract_append_low, extract_append_high, extract_whole, Nat.reduceSub]

theorem br (p : BitVec 3) (s : BitVec 1) (o : BitVec 20) : Statement (.br p s o) := by
  refine decode_of_row 81 (by decide +kernel) _ _ (fits_of _ _ (0x0#8 ++ 0x0#3 ++ 0x0#1 ++ 0x0#20) ?_ (by decide +kernel)
    (((append_and (append_and (append_and rfl BitVec.and_zero) BitVec.and_zero) BitVec.and_zero) : _ = 0x0#8 ++ 0x0#3 ++ 0x0#1 ++ 0x0#20).trans (by decide +kernel))) ?_
  · simp (disch := decide) only [extract_append_high, Nat.reduceSub]
    decide +kernel
  · show Instr.br _ _ _ = _
    simp (disch := decide) only [extract_body, extract_append_low, extract_append_high, extract_whole, Nat.reduceSub]

theorem xset (k : BitVec 2) (a : BitVec 7) (p : BitVec 3) : Statement (.xset k a p) := by
  refine decode_of_row 82 (by decide +kernel) _ _ (fits_of _ _ (0x0#8 ++ 0x1F#5 ++ 0x0#2 ++ 0x0#7 ++ 0x7F#7 ++ 0x0#3) ?_ (by decide +kernel)
    (((append_and (append_and (append_and (append_and (append_and rfl rfl) BitVec.and_zero) BitVec.and_zero) rfl) BitVec.and_zero) : _ = 0x0#8 ++ 0x0#5 ++ 0x0#2 ++ 0x0#7 ++ 0x0#7 ++ 0x0#3).trans (by decide +kernel))) ?_
  · simp (disch := decide) only [extract_append_high, Nat.reduceSub]
    decide +kernel
  · show Instr.xset _ _ _ = _
    simp (disch := decide) only [extract_body, extract_append_low, extract_append_high, extract_whole, Nat.reduceSub]

theorem xadd (k : BitVec 2) (j : BitVec 2) (b : BitVec 7) (p : BitVec 3) : Statement (.xadd k j b p) := by
  refine decode_of_row 83 (by decide +kernel) _ _ (fits_of _ _ (0x0#8 ++ 0x1F#5 ++ 0x0#2 ++ 0x1F#5 ++ 0x0#2 ++ 0x0#7 ++ 0x0#3) ?_ (by decide +kernel)
    (((append_and (append_and (append_and (append_and (append_and (append_and rfl rfl) BitVec.and_zero) rfl) BitVec.and_zero) BitVec.and_zero) BitVec.and_zero) : _ = 0x0#8 ++ 0x0#5 ++ 0x0#2 ++ 0x0#5 ++ 0x0#2 ++ 0x0#7 ++ 0x0#3).trans (by decide +kernel))) ?_
  · simp (disch := decide) only [extract_append_high, Nat.reduceSub]
    decide +kernel
  · show Instr.xadd _ _ _ _ = _
    simp (disch := decide) only [extract_body, extract_append_low, extract_append_high, extract_whole, Nat.reduceSub]

theorem sadd (d : BitVec 6) (a : BitVec 6) (b : BitVec 6) : Statement (.sadd d a b) := by
  refine decode_of_row 84 (by decide +kernel) _ _ (fits_of _ _ (0x0#8 ++ 0x0#6 ++ 0x0#6 ++ 0x0#6 ++ 0x3F#6) ?_ (by decide +kernel)
    (((append_and (append_and (append_and (append_and rfl BitVec.and_zero) BitVec.and_zero) BitVec.and_zero) rfl) : _ = 0x0#8 ++ 0x0#6 ++ 0x0#6 ++ 0x0#6 ++ 0x0#6).trans (by decide +kernel))) ?_
  · simp (disch := decide) only [extract_append_high, Nat.reduceSub]
    decide +kernel
  · show Instr.sadd _ _ _ = _
    simp (disch := decide) only [extract_body, extract_append_low, extract_append_high, extract_whole, Nat.reduceSub]

theorem ssub (d : BitVec 6) (a : BitVec 6) (b : BitVec 6) : Statement (.ssub d a b) := by
  refine decode_of_row 85 (by decide +kernel) _ _ (fits_of _ _ (0x0#8 ++ 0x0#6 ++ 0x0#6 ++ 0x0#6 ++ 0x3F#6) ?_ (by decide +kernel)
    (((append_and (append_and (append_and (append_and rfl BitVec.and_zero) BitVec.and_zero) BitVec.and_zero) rfl) : _ = 0x0#8 ++ 0x0#6 ++ 0x0#6 ++ 0x0#6 ++ 0x1#6).trans (by decide +kernel))) ?_
  · simp (disch := decide) only [extract_append_high, Nat.reduceSub]
    decide +kernel
  · show Instr.ssub _ _ _ = _
    simp (disch := decide) only [extract_body, extract_append_low, extract_append_high, extract_whole, Nat.reduceSub]

theorem smul (d : BitVec 6) (a : BitVec 6) (b : BitVec 6) : Statement (.smul d a b) := by
  refine decode_of_row 86 (by decide +kernel) _ _ (fits_of _ _ (0x0#8 ++ 0x0#6 ++ 0x0#6 ++ 0x0#6 ++ 0x3F#6) ?_ (by decide +kernel)
    (((append_and (append_and (append_and (append_and rfl BitVec.and_zero) BitVec.and_zero) BitVec.and_zero) rfl) : _ = 0x0#8 ++ 0x0#6 ++ 0x0#6 ++ 0x0#6 ++ 0x2#6).trans (by decide +kernel))) ?_
  · simp (disch := decide) only [extract_append_high, Nat.reduceSub]
    decide +kernel
  · show Instr.smul _ _ _ = _
    simp (disch := decide) only [extract_body, extract_append_low, extract_append_high, extract_whole, Nat.reduceSub]

theorem smulh (d : BitVec 6) (a : BitVec 6) (b : BitVec 6) : Statement (.smulh d a b) := by
  refine decode_of_row 87 (by decide +kernel) _ _ (fits_of _ _ (0x0#8 ++ 0x0#6 ++ 0x0#6 ++ 0x0#6 ++ 0x3F#6) ?_ (by decide +kernel)
    (((append_and (append_and (append_and (append_and rfl BitVec.and_zero) BitVec.and_zero) BitVec.and_zero) rfl) : _ = 0x0#8 ++ 0x0#6 ++ 0x0#6 ++ 0x0#6 ++ 0x3#6).trans (by decide +kernel))) ?_
  · simp (disch := decide) only [extract_append_high, Nat.reduceSub]
    decide +kernel
  · show Instr.smulh _ _ _ = _
    simp (disch := decide) only [extract_body, extract_append_low, extract_append_high, extract_whole, Nat.reduceSub]

theorem smulhU (d : BitVec 6) (a : BitVec 6) (b : BitVec 6) : Statement (.smulhU d a b) := by
  refine decode_of_row 88 (by decide +kernel) _ _ (fits_of _ _ (0x0#8 ++ 0x0#6 ++ 0x0#6 ++ 0x0#6 ++ 0x3F#6) ?_ (by decide +kernel)
    (((append_and (append_and (append_and (append_and rfl BitVec.and_zero) BitVec.and_zero) BitVec.and_zero) rfl) : _ = 0x0#8 ++ 0x0#6 ++ 0x0#6 ++ 0x0#6 ++ 0x4#6).trans (by decide +kernel))) ?_
  · simp (disch := decide) only [extract_append_high, Nat.reduceSub]
    decide +kernel
  · show Instr.smulhU _ _ _ = _
    simp (disch := decide) only [extract_body, extract_append_low, extract_append_high, extract_whole, Nat.reduceSub]

theorem sdiv (d : BitVec 6) (a : BitVec 6) (b : BitVec 6) : Statement (.sdiv d a b) := by
  refine decode_of_row 89 (by decide +kernel) _ _ (fits_of _ _ (0x0#8 ++ 0x0#6 ++ 0x0#6 ++ 0x0#6 ++ 0x3F#6) ?_ (by decide +kernel)
    (((append_and (append_and (append_and (append_and rfl BitVec.and_zero) BitVec.and_zero) BitVec.and_zero) rfl) : _ = 0x0#8 ++ 0x0#6 ++ 0x0#6 ++ 0x0#6 ++ 0x5#6).trans (by decide +kernel))) ?_
  · simp (disch := decide) only [extract_append_high, Nat.reduceSub]
    decide +kernel
  · show Instr.sdiv _ _ _ = _
    simp (disch := decide) only [extract_body, extract_append_low, extract_append_high, extract_whole, Nat.reduceSub]

theorem sdivU (d : BitVec 6) (a : BitVec 6) (b : BitVec 6) : Statement (.sdivU d a b) := by
  refine decode_of_row 90 (by decide +kernel) _ _ (fits_of _ _ (0x0#8 ++ 0x0#6 ++ 0x0#6 ++ 0x0#6 ++ 0x3F#6) ?_ (by decide +kernel)
    (((append_and (append_and (append_and (append_and rfl BitVec.and_zero) BitVec.and_zero) BitVec.and_zero) rfl) : _ = 0x0#8 ++ 0x0#6 ++ 0x0#6 ++ 0x0#6 ++ 0x6#6).trans (by decide +kernel))) ?_
  · simp (disch := decide) only [extract_append_high, Nat.reduceSub]
    decide +kernel
  · show Instr.sdivU _ _ _ = _
    simp (disch := decide) only [extract_body, extract_append_low, extract_append_high, extract_whole, Nat.reduceSub]

theorem srem (d : BitVec 6) (a : BitVec 6) (b : BitVec 6) : Statement (.srem d a b) := by
  refine decode_of_row 91 (by decide +kernel) _ _ (fits_of _ _ (0x0#8 ++ 0x0#6 ++ 0x0#6 ++ 0x0#6 ++ 0x3F#6) ?_ (by decide +kernel)
    (((append_and (append_and (append_and (append_and rfl BitVec.and_zero) BitVec.and_zero) BitVec.and_zero) rfl) : _ = 0x0#8 ++ 0x0#6 ++ 0x0#6 ++ 0x0#6 ++ 0x7#6).trans (by decide +kernel))) ?_
  · simp (disch := decide) only [extract_append_high, Nat.reduceSub]
    decide +kernel
  · show Instr.srem _ _ _ = _
    simp (disch := decide) only [extract_body, extract_append_low, extract_append_high, extract_whole, Nat.reduceSub]

theorem sremU (d : BitVec 6) (a : BitVec 6) (b : BitVec 6) : Statement (.sremU d a b) := by
  refine decode_of_row 92 (by decide +kernel) _ _ (fits_of _ _ (0x0#8 ++ 0x0#6 ++ 0x0#6 ++ 0x0#6 ++ 0x3F#6) ?_ (by decide +kernel)
    (((append_and (append_and (append_and (append_and rfl BitVec.and_zero) BitVec.and_zero) BitVec.and_zero) rfl) : _ = 0x0#8 ++ 0x0#6 ++ 0x0#6 ++ 0x0#6 ++ 0x8#6).trans (by decide +kernel))) ?_
  · simp (disch := decide) only [extract_append_high, Nat.reduceSub]
    decide +kernel
  · show Instr.sremU _ _ _ = _
    simp (disch := decide) only [extract_body, extract_append_low, extract_append_high, extract_whole, Nat.reduceSub]

theorem sand (d : BitVec 6) (a : BitVec 6) (b : BitVec 6) : Statement (.sand d a b) := by
  refine decode_of_row 93 (by decide +kernel) _ _ (fits_of _ _ (0x0#8 ++ 0x0#6 ++ 0x0#6 ++ 0x0#6 ++ 0x3F#6) ?_ (by decide +kernel)
    (((append_and (append_and (append_and (append_and rfl BitVec.and_zero) BitVec.and_zero) BitVec.and_zero) rfl) : _ = 0x0#8 ++ 0x0#6 ++ 0x0#6 ++ 0x0#6 ++ 0x9#6).trans (by decide +kernel))) ?_
  · simp (disch := decide) only [extract_append_high, Nat.reduceSub]
    decide +kernel
  · show Instr.sand _ _ _ = _
    simp (disch := decide) only [extract_body, extract_append_low, extract_append_high, extract_whole, Nat.reduceSub]

theorem sor (d : BitVec 6) (a : BitVec 6) (b : BitVec 6) : Statement (.sor d a b) := by
  refine decode_of_row 94 (by decide +kernel) _ _ (fits_of _ _ (0x0#8 ++ 0x0#6 ++ 0x0#6 ++ 0x0#6 ++ 0x3F#6) ?_ (by decide +kernel)
    (((append_and (append_and (append_and (append_and rfl BitVec.and_zero) BitVec.and_zero) BitVec.and_zero) rfl) : _ = 0x0#8 ++ 0x0#6 ++ 0x0#6 ++ 0x0#6 ++ 0xA#6).trans (by decide +kernel))) ?_
  · simp (disch := decide) only [extract_append_high, Nat.reduceSub]
    decide +kernel
  · show Instr.sor _ _ _ = _
    simp (disch := decide) only [extract_body, extract_append_low, extract_append_high, extract_whole, Nat.reduceSub]

theorem sxor (d : BitVec 6) (a : BitVec 6) (b : BitVec 6) : Statement (.sxor d a b) := by
  refine decode_of_row 95 (by decide +kernel) _ _ (fits_of _ _ (0x0#8 ++ 0x0#6 ++ 0x0#6 ++ 0x0#6 ++ 0x3F#6) ?_ (by decide +kernel)
    (((append_and (append_and (append_and (append_and rfl BitVec.and_zero) BitVec.and_zero) BitVec.and_zero) rfl) : _ = 0x0#8 ++ 0x0#6 ++ 0x0#6 ++ 0x0#6 ++ 0xB#6).trans (by decide +kernel))) ?_
  · simp (disch := decide) only [extract_append_high, Nat.reduceSub]
    decide +kernel
  · show Instr.sxor _ _ _ = _
    simp (disch := decide) only [extract_body, extract_append_low, extract_append_high, extract_whole, Nat.reduceSub]

theorem snot (d : BitVec 6) (a : BitVec 6) : Statement (.snot d a) := by
  refine decode_of_row 96 (by decide +kernel) _ _ (fits_of _ _ (0x0#8 ++ 0x0#6 ++ 0x0#6 ++ 0xFFF#12) ?_ (by decide +kernel)
    (((append_and (append_and (append_and rfl BitVec.and_zero) BitVec.and_zero) rfl) : _ = 0x0#8 ++ 0x0#6 ++ 0x0#6 ++ 0xC#12).trans (by decide +kernel))) ?_
  · simp (disch := decide) only [extract_append_high, Nat.reduceSub]
    decide +kernel
  · show Instr.snot _ _ = _
    simp (disch := decide) only [extract_body, extract_append_low, extract_append_high, extract_whole, Nat.reduceSub]

theorem sshl (d : BitVec 6) (a : BitVec 6) (b : BitVec 6) : Statement (.sshl d a b) := by
  refine decode_of_row 97 (by decide +kernel) _ _ (fits_of _ _ (0x0#8 ++ 0x0#6 ++ 0x0#6 ++ 0x0#6 ++ 0x3F#6) ?_ (by decide +kernel)
    (((append_and (append_and (append_and (append_and rfl BitVec.and_zero) BitVec.and_zero) BitVec.and_zero) rfl) : _ = 0x0#8 ++ 0x0#6 ++ 0x0#6 ++ 0x0#6 ++ 0xD#6).trans (by decide +kernel))) ?_
  · simp (disch := decide) only [extract_append_high, Nat.reduceSub]
    decide +kernel
  · show Instr.sshl _ _ _ = _
    simp (disch := decide) only [extract_body, extract_append_low, extract_append_high, extract_whole, Nat.reduceSub]

theorem sshr (d : BitVec 6) (a : BitVec 6) (b : BitVec 6) : Statement (.sshr d a b) := by
  refine decode_of_row 98 (by decide +kernel) _ _ (fits_of _ _ (0x0#8 ++ 0x0#6 ++ 0x0#6 ++ 0x0#6 ++ 0x3F#6) ?_ (by decide +kernel)
    (((append_and (append_and (append_and (append_and rfl BitVec.and_zero) BitVec.and_zero) BitVec.and_zero) rfl) : _ = 0x0#8 ++ 0x0#6 ++ 0x0#6 ++ 0x0#6 ++ 0xE#6).trans (by decide +kernel))) ?_
  · simp (disch := decide) only [extract_append_high, Nat.reduceSub]
    decide +kernel
  · show Instr.sshr _ _ _ = _
    simp (disch := decide) only [extract_body, extract_append_low, extract_append_high, extract_whole, Nat.reduceSub]

theorem ssar (d : BitVec 6) (a : BitVec 6) (b : BitVec 6) : Statement (.ssar d a b) := by
  refine decode_of_row 99 (by decide +kernel) _ _ (fits_of _ _ (0x0#8 ++ 0x0#6 ++ 0x0#6 ++ 0x0#6 ++ 0x3F#6) ?_ (by decide +kernel)
    (((append_and (append_and (append_and (append_and rfl BitVec.and_zero) BitVec.and_zero) BitVec.and_zero) rfl) : _ = 0x0#8 ++ 0x0#6 ++ 0x0#6 ++ 0x0#6 ++ 0xF#6).trans (by decide +kernel))) ?_
  · simp (disch := decide) only [extract_append_high, Nat.reduceSub]
    decide +kernel
  · show Instr.ssar _ _ _ = _
    simp (disch := decide) only [extract_body, extract_append_low, extract_append_high, extract_whole, Nat.reduceSub]

theorem smin (d : BitVec 6) (a : BitVec 6) (b : BitVec 6) : Statement (.smin d a b) := by
  refine decode_of_row 100 (by decide +kernel) _ _ (fits_of _ _ (0x0#8 ++ 0x0#6 ++ 0x0#6 ++ 0x0#6 ++ 0x3F#6) ?_ (by decide +kernel)
    (((append_and (append_and (append_and (append_and rfl BitVec.and_zero) BitVec.and_zero) BitVec.and_zero) rfl) : _ = 0x0#8 ++ 0x0#6 ++ 0x0#6 ++ 0x0#6 ++ 0x10#6).trans (by decide +kernel))) ?_
  · simp (disch := decide) only [extract_append_high, Nat.reduceSub]
    decide +kernel
  · show Instr.smin _ _ _ = _
    simp (disch := decide) only [extract_body, extract_append_low, extract_append_high, extract_whole, Nat.reduceSub]

theorem sminU (d : BitVec 6) (a : BitVec 6) (b : BitVec 6) : Statement (.sminU d a b) := by
  refine decode_of_row 101 (by decide +kernel) _ _ (fits_of _ _ (0x0#8 ++ 0x0#6 ++ 0x0#6 ++ 0x0#6 ++ 0x3F#6) ?_ (by decide +kernel)
    (((append_and (append_and (append_and (append_and rfl BitVec.and_zero) BitVec.and_zero) BitVec.and_zero) rfl) : _ = 0x0#8 ++ 0x0#6 ++ 0x0#6 ++ 0x0#6 ++ 0x11#6).trans (by decide +kernel))) ?_
  · simp (disch := decide) only [extract_append_high, Nat.reduceSub]
    decide +kernel
  · show Instr.sminU _ _ _ = _
    simp (disch := decide) only [extract_body, extract_append_low, extract_append_high, extract_whole, Nat.reduceSub]

theorem smax (d : BitVec 6) (a : BitVec 6) (b : BitVec 6) : Statement (.smax d a b) := by
  refine decode_of_row 102 (by decide +kernel) _ _ (fits_of _ _ (0x0#8 ++ 0x0#6 ++ 0x0#6 ++ 0x0#6 ++ 0x3F#6) ?_ (by decide +kernel)
    (((append_and (append_and (append_and (append_and rfl BitVec.and_zero) BitVec.and_zero) BitVec.and_zero) rfl) : _ = 0x0#8 ++ 0x0#6 ++ 0x0#6 ++ 0x0#6 ++ 0x12#6).trans (by decide +kernel))) ?_
  · simp (disch := decide) only [extract_append_high, Nat.reduceSub]
    decide +kernel
  · show Instr.smax _ _ _ = _
    simp (disch := decide) only [extract_body, extract_append_low, extract_append_high, extract_whole, Nat.reduceSub]

theorem smaxU (d : BitVec 6) (a : BitVec 6) (b : BitVec 6) : Statement (.smaxU d a b) := by
  refine decode_of_row 103 (by decide +kernel) _ _ (fits_of _ _ (0x0#8 ++ 0x0#6 ++ 0x0#6 ++ 0x0#6 ++ 0x3F#6) ?_ (by decide +kernel)
    (((append_and (append_and (append_and (append_and rfl BitVec.and_zero) BitVec.and_zero) BitVec.and_zero) rfl) : _ = 0x0#8 ++ 0x0#6 ++ 0x0#6 ++ 0x0#6 ++ 0x13#6).trans (by decide +kernel))) ?_
  · simp (disch := decide) only [extract_append_high, Nat.reduceSub]
    decide +kernel
  · show Instr.smaxU _ _ _ = _
    simp (disch := decide) only [extract_body, extract_append_low, extract_append_high, extract_whole, Nat.reduceSub]

theorem ssel (d : BitVec 6) (a : BitVec 6) (b : BitVec 6) : Statement (.ssel d a b) := by
  refine decode_of_row 104 (by decide +kernel) _ _ (fits_of _ _ (0x0#8 ++ 0x0#6 ++ 0x0#6 ++ 0x0#6 ++ 0x3F#6) ?_ (by decide +kernel)
    (((append_and (append_and (append_and (append_and rfl BitVec.and_zero) BitVec.and_zero) BitVec.and_zero) rfl) : _ = 0x0#8 ++ 0x0#6 ++ 0x0#6 ++ 0x0#6 ++ 0x14#6).trans (by decide +kernel))) ?_
  · simp (disch := decide) only [extract_append_high, Nat.reduceSub]
    decide +kernel
  · show Instr.ssel _ _ _ = _
    simp (disch := decide) only [extract_body, extract_append_low, extract_append_high, extract_whole, Nat.reduceSub]

theorem smov (d : BitVec 6) (a : BitVec 6) : Statement (.smov d a) := by
  refine decode_of_row 105 (by decide +kernel) _ _ (fits_of _ _ (0x0#8 ++ 0x0#6 ++ 0x0#6 ++ 0xFFF#12) ?_ (by decide +kernel)
    (((append_and (append_and (append_and rfl BitVec.and_zero) BitVec.and_zero) rfl) : _ = 0x0#8 ++ 0x0#6 ++ 0x0#6 ++ 0x15#12).trans (by decide +kernel))) ?_
  · simp (disch := decide) only [extract_append_high, Nat.reduceSub]
    decide +kernel
  · show Instr.smov _ _ = _
    simp (disch := decide) only [extract_body, extract_append_low, extract_append_high, extract_whole, Nat.reduceSub]

theorem scmp (d : BitVec 6) (a : BitVec 6) (b : BitVec 6) (c : BitVec 4) : Statement (.scmp d a b c) := by
  refine decode_of_row 106 (by decide +kernel) _ _ (fits_of _ _ (0x0#8 ++ 0x0#6 ++ 0x0#6 ++ 0x0#6 ++ 0x3#2 ++ 0x0#4) ?_ (by decide +kernel)
    (((append_and (append_and (append_and (append_and (append_and rfl BitVec.and_zero) BitVec.and_zero) BitVec.and_zero) rfl) BitVec.and_zero) : _ = 0x0#8 ++ 0x0#6 ++ 0x0#6 ++ 0x0#6 ++ 0x2#2 ++ 0x0#4).trans (by decide +kernel))) ?_
  · simp (disch := decide) only [extract_append_high, Nat.reduceSub]
    decide +kernel
  · show Instr.scmp _ _ _ _ = _
    simp (disch := decide) only [extract_body, extract_append_low, extract_append_high, extract_whole, Nat.reduceSub]

theorem smovi (d : BitVec 6) (i : BitVec 18) : Statement (.smovi d i) := by
  refine decode_of_row 107 (by decide +kernel) _ _ (fits_of _ _ (0x0#8 ++ 0x0#6 ++ 0x0#18) ?_ (by decide +kernel)
    (((append_and (append_and rfl BitVec.and_zero) BitVec.and_zero) : _ = 0x0#8 ++ 0x0#6 ++ 0x0#18).trans (by decide +kernel))) ?_
  · simp (disch := decide) only [extract_append_high, Nat.reduceSub]
    decide +kernel
  · show Instr.smovi _ _ = _
    simp (disch := decide) only [extract_body, extract_append_low, extract_append_high, extract_whole, Nat.reduceSub]

theorem saddImm (d : BitVec 6) (a : BitVec 6) (i : BitVec 12) : Statement (.saddImm d a i) := by
  refine decode_of_row 108 (by decide +kernel) _ _ (fits_of _ _ (0x0#8 ++ 0x0#6 ++ 0x0#6 ++ 0x0#12) ?_ (by decide +kernel)
    (((append_and (append_and (append_and rfl BitVec.and_zero) BitVec.and_zero) BitVec.and_zero) : _ = 0x0#8 ++ 0x0#6 ++ 0x0#6 ++ 0x0#12).trans (by decide +kernel))) ?_
  · simp (disch := decide) only [extract_append_high, Nat.reduceSub]
    decide +kernel
  · show Instr.saddImm _ _ _ = _
    simp (disch := decide) only [extract_body, extract_append_low, extract_append_high, extract_whole, Nat.reduceSub]

theorem sandImm (d : BitVec 6) (a : BitVec 6) (i : BitVec 12) : Statement (.sandImm d a i) := by
  refine decode_of_row 109 (by decide +kernel) _ _ (fits_of _ _ (0x0#8 ++ 0x0#6 ++ 0x0#6 ++ 0x0#12) ?_ (by decide +kernel)
    (((append_and (append_and (append_and rfl BitVec.and_zero) BitVec.and_zero) BitVec.and_zero) : _ = 0x0#8 ++ 0x0#6 ++ 0x0#6 ++ 0x0#12).trans (by decide +kernel))) ?_
  · simp (disch := decide) only [extract_append_high, Nat.reduceSub]
    decide +kernel
  · show Instr.sandImm _ _ _ = _
    simp (disch := decide) only [extract_body, extract_append_low, extract_append_high, extract_whole, Nat.reduceSub]

theorem sorImm (d : BitVec 6) (a : BitVec 6) (i : BitVec 12) : Statement (.sorImm d a i) := by
  refine decode_of_row 110 (by decide +kernel) _ _ (fits_of _ _ (0x0#8 ++ 0x0#6 ++ 0x0#6 ++ 0x0#12) ?_ (by decide +kernel)
    (((append_and (append_and (append_and rfl BitVec.and_zero) BitVec.and_zero) BitVec.and_zero) : _ = 0x0#8 ++ 0x0#6 ++ 0x0#6 ++ 0x0#12).trans (by decide +kernel))) ?_
  · simp (disch := decide) only [extract_append_high, Nat.reduceSub]
    decide +kernel
  · show Instr.sorImm _ _ _ = _
    simp (disch := decide) only [extract_body, extract_append_low, extract_append_high, extract_whole, Nat.reduceSub]

theorem sxorImm (d : BitVec 6) (a : BitVec 6) (i : BitVec 12) : Statement (.sxorImm d a i) := by
  refine decode_of_row 111 (by decide +kernel) _ _ (fits_of _ _ (0x0#8 ++ 0x0#6 ++ 0x0#6 ++ 0x0#12) ?_ (by decide +kernel)
    (((append_and (append_and (append_and rfl BitVec.and_zero) BitVec.and_zero) BitVec.and_zero) : _ = 0x0#8 ++ 0x0#6 ++ 0x0#6 ++ 0x0#12).trans (by decide +kernel))) ?_
  · simp (disch := decide) only [extract_append_high, Nat.reduceSub]
    decide +kernel
  · show Instr.sxorImm _ _ _ = _
    simp (disch := decide) only [extract_body, extract_append_low, extract_append_high, extract_whole, Nat.reduceSub]

theorem sshlImm (d : BitVec 6) (a : BitVec 6) (i : BitVec 12) : Statement (.sshlImm d a i) := by
  refine decode_of_row 112 (by decide +kernel) _ _ (fits_of _ _ (0x0#8 ++ 0x0#6 ++ 0x0#6 ++ 0x0#12) ?_ (by decide +kernel)
    (((append_and (append_and (append_and rfl BitVec.and_zero) BitVec.and_zero) BitVec.and_zero) : _ = 0x0#8 ++ 0x0#6 ++ 0x0#6 ++ 0x0#12).trans (by decide +kernel))) ?_
  · simp (disch := decide) only [extract_append_high, Nat.reduceSub]
    decide +kernel
  · show Instr.sshlImm _ _ _ = _
    simp (disch := decide) only [extract_body, extract_append_low, extract_append_high, extract_whole, Nat.reduceSub]

theorem sshrImm (d : BitVec 6) (a : BitVec 6) (i : BitVec 12) : Statement (.sshrImm d a i) := by
  refine decode_of_row 113 (by decide +kernel) _ _ (fits_of _ _ (0x0#8 ++ 0x0#6 ++ 0x0#6 ++ 0x0#12) ?_ (by decide +kernel)
    (((append_and (append_and (append_and rfl BitVec.and_zero) BitVec.and_zero) BitVec.and_zero) : _ = 0x0#8 ++ 0x0#6 ++ 0x0#6 ++ 0x0#12).trans (by decide +kernel))) ?_
  · simp (disch := decide) only [extract_append_high, Nat.reduceSub]
    decide +kernel
  · show Instr.sshrImm _ _ _ = _
    simp (disch := decide) only [extract_body, extract_append_low, extract_append_high, extract_whole, Nat.reduceSub]

theorem ssarImm (d : BitVec 6) (a : BitVec 6) (i : BitVec 12) : Statement (.ssarImm d a i) := by
  refine decode_of_row 114 (by decide +kernel) _ _ (fits_of _ _ (0x0#8 ++ 0x0#6 ++ 0x0#6 ++ 0x0#12) ?_ (by decide +kernel)
    (((append_and (append_and (append_and rfl BitVec.and_zero) BitVec.and_zero) BitVec.and_zero) : _ = 0x0#8 ++ 0x0#6 ++ 0x0#6 ++ 0x0#12).trans (by decide +kernel))) ?_
  · simp (disch := decide) only [extract_append_high, Nat.reduceSub]
    decide +kernel
  · show Instr.ssarImm _ _ _ = _
    simp (disch := decide) only [extract_body, extract_append_low, extract_append_high, extract_whole, Nat.reduceSub]

theorem slane (d : BitVec 6) (v : BitVec 7) (k : BitVec 5) : Statement (.slane d v k) := by
  refine decode_of_row 115 (by decide +kernel) _ _ (fits_of _ _ (0x0#8 ++ 0x0#6 ++ 0x0#7 ++ 0x0#5 ++ 0x3F#6) ?_ (by decide +kernel)
    (((append_and (append_and (append_and (append_and rfl BitVec.and_zero) BitVec.and_zero) BitVec.and_zero) rfl) : _ = 0x0#8 ++ 0x0#6 ++ 0x0#7 ++ 0x0#5 ++ 0x0#6).trans (by decide +kernel))) ?_
  · simp (disch := decide) only [extract_append_high, Nat.reduceSub]
    decide +kernel
  · show Instr.slane _ _ _ = _
    simp (disch := decide) only [extract_body, extract_append_low, extract_append_high, extract_whole, Nat.reduceSub]

theorem spredGet (d : BitVec 6) (k : BitVec 3) : Statement (.spredGet d k) := by
  refine decode_of_row 116 (by decide +kernel) _ _ (fits_of _ _ (0x0#8 ++ 0x0#6 ++ 0x7FFF#15 ++ 0x0#3) ?_ (by decide +kernel)
    (((append_and (append_and (append_and rfl BitVec.and_zero) rfl) BitVec.and_zero) : _ = 0x0#8 ++ 0x0#6 ++ 0x0#15 ++ 0x0#3).trans (by decide +kernel))) ?_
  · simp (disch := decide) only [extract_append_high, Nat.reduceSub]
    decide +kernel
  · show Instr.spredGet _ _ = _
    simp (disch := decide) only [extract_body, extract_append_low, extract_append_high, extract_whole, Nat.reduceSub]

theorem spredSet (a : BitVec 6) (k : BitVec 3) : Statement (.spredSet a k) := by
  refine decode_of_row 117 (by decide +kernel) _ _ (fits_of _ _ (0x0#8 ++ 0x3F#6 ++ 0x0#6 ++ 0x1FF#9 ++ 0x0#3) ?_ (by decide +kernel)
    (((append_and (append_and (append_and (append_and rfl rfl) BitVec.and_zero) rfl) BitVec.and_zero) : _ = 0x0#8 ++ 0x0#6 ++ 0x0#6 ++ 0x80#9 ++ 0x0#3).trans (by decide +kernel))) ?_
  · simp (disch := decide) only [extract_append_high, Nat.reduceSub]
    decide +kernel
  · show Instr.spredSet _ _ = _
    simp (disch := decide) only [extract_body, extract_append_low, extract_append_high, extract_whole, Nat.reduceSub]

theorem spredAct (d : BitVec 6) : Statement (.spredAct d) := by
  refine decode_of_row 118 (by decide +kernel) _ _ (fits_of _ _ (0x0#8 ++ 0x0#6 ++ 0x3FFFF#18) ?_ (by decide +kernel)
    (((append_and (append_and rfl BitVec.and_zero) rfl) : _ = 0x0#8 ++ 0x0#6 ++ 0x800#18).trans (by decide +kernel))) ?_
  · simp (disch := decide) only [extract_append_high, Nat.reduceSub]
    decide +kernel
  · show Instr.spredAct _ = _
    simp (disch := decide) only [extract_body, extract_append_low, extract_append_high, extract_whole, Nat.reduceSub]

theorem bra (o : BitVec 24) : Statement (.bra o) := by
  refine decode_of_row 119 (by decide +kernel) _ _ (fits_of _ _ (0x0#8 ++ 0x0#24) ?_ (by decide +kernel)
    (((append_and rfl BitVec.and_zero) : _ = 0x0#8 ++ 0x0#24).trans (by decide +kernel))) ?_
  · simp (disch := decide) only [extract_append_high, Nat.reduceSub]
    decide +kernel
  · show Instr.bra _ = _
    simp (disch := decide) only [extract_body, extract_append_low, extract_append_high, extract_whole, Nat.reduceSub]

theorem brasNz (d : BitVec 6) (o : BitVec 17) : Statement (.brasNz d o) := by
  refine decode_of_row 120 (by decide +kernel) _ _ (fits_of _ _ (0x0#8 ++ 0x0#6 ++ 0x1#1 ++ 0x0#17) ?_ (by decide +kernel)
    (((append_and (append_and (append_and rfl BitVec.and_zero) rfl) BitVec.and_zero) : _ = 0x0#8 ++ 0x0#6 ++ 0x0#1 ++ 0x0#17).trans (by decide +kernel))) ?_
  · simp (disch := decide) only [extract_append_high, Nat.reduceSub]
    decide +kernel
  · show Instr.brasNz _ _ = _
    simp (disch := decide) only [extract_body, extract_append_low, extract_append_high, extract_whole, Nat.reduceSub]

theorem brasZ (d : BitVec 6) (o : BitVec 17) : Statement (.brasZ d o) := by
  refine decode_of_row 121 (by decide +kernel) _ _ (fits_of _ _ (0x0#8 ++ 0x0#6 ++ 0x1#1 ++ 0x0#17) ?_ (by decide +kernel)
    (((append_and (append_and (append_and rfl BitVec.and_zero) rfl) BitVec.and_zero) : _ = 0x0#8 ++ 0x0#6 ++ 0x1#1 ++ 0x0#17).trans (by decide +kernel))) ?_
  · simp (disch := decide) only [extract_append_high, Nat.reduceSub]
    decide +kernel
  · show Instr.brasZ _ _ = _
    simp (disch := decide) only [extract_body, extract_append_low, extract_append_high, extract_whole, Nat.reduceSub]

theorem call (d : BitVec 6) (o : BitVec 18) : Statement (.call d o) := by
  refine decode_of_row 122 (by decide +kernel) _ _ (fits_of _ _ (0x0#8 ++ 0x0#6 ++ 0x0#18) ?_ (by decide +kernel)
    (((append_and (append_and rfl BitVec.and_zero) BitVec.and_zero) : _ = 0x0#8 ++ 0x0#6 ++ 0x0#18).trans (by decide +kernel))) ?_
  · simp (disch := decide) only [extract_append_high, Nat.reduceSub]
    decide +kernel
  · show Instr.call _ _ = _
    simp (disch := decide) only [extract_body, extract_append_low, extract_append_high, extract_whole, Nat.reduceSub]

theorem ret (a : BitVec 6) : Statement (.ret a) := by
  refine decode_of_row 123 (by decide +kernel) _ _ (fits_of _ _ (0x0#8 ++ 0x3F#6 ++ 0x0#6 ++ 0xFFF#12) ?_ (by decide +kernel)
    (((append_and (append_and (append_and rfl rfl) BitVec.and_zero) rfl) : _ = 0x0#8 ++ 0x0#6 ++ 0x0#6 ++ 0x0#12).trans (by decide +kernel))) ?_
  · simp (disch := decide) only [extract_append_high, Nat.reduceSub]
    decide +kernel
  · show Instr.ret _ = _
    simp (disch := decide) only [extract_body, extract_append_low, extract_append_high, extract_whole, Nat.reduceSub]

theorem mark (o : BitVec 24) : Statement (.mark o) := by
  refine decode_of_row 124 (by decide +kernel) _ _ (fits_of _ _ (0x0#8 ++ 0x0#24) ?_ (by decide +kernel)
    (((append_and rfl BitVec.and_zero) : _ = 0x0#8 ++ 0x0#24).trans (by decide +kernel))) ?_
  · simp (disch := decide) only [extract_append_high, Nat.reduceSub]
    decide +kernel
  · show Instr.mark _ = _
    simp (disch := decide) only [extract_body, extract_append_low, extract_append_high, extract_whole, Nat.reduceSub]

theorem join : Statement .join := by
  refine decode_of_row 125 (by decide +kernel) _ _ (fits_of _ _ (0x0#8 ++ 0xFFFFFF#24) ?_ (by decide +kernel)
    (((append_and rfl rfl) : _ = 0x0#8 ++ 0xFFFFFF#24).trans (by decide +kernel))) ?_
  · simp (disch := decide) only [extract_append_high, Nat.reduceSub]
    decide +kernel
  · show Instr.join  = _
    simp (disch := decide) only [extract_body, extract_append_low, extract_append_high, extract_whole, Nat.reduceSub]

theorem loop (d : BitVec 6) (n : BitVec 2) (l : BitVec 9) : Statement (.loop d n l) := by
  refine decode_of_row 126 (by decide +kernel) _ _ (fits_of _ _ (0x0#8 ++ 0x0#6 ++ 0x0#2 ++ 0x7F#7 ++ 0x0#9) ?_ (by decide +kernel)
    (((append_and (append_and (append_and (append_and rfl BitVec.and_zero) BitVec.and_zero) rfl) BitVec.and_zero) : _ = 0x0#8 ++ 0x0#6 ++ 0x0#2 ++ 0x0#7 ++ 0x0#9).trans (by decide +kernel))) ?_
  · simp (disch := decide) only [extract_append_high, Nat.reduceSub]
    decide +kernel
  · show Instr.loop _ _ _ = _
    simp (disch := decide) only [extract_body, extract_append_low, extract_append_high, extract_whole, Nat.reduceSub]

theorem exit : Statement .exit := by
  refine decode_of_row 127 (by decide +kernel) _ _ (fits_of _ _ (0x0#8 ++ 0xFFFFFF#24) ?_ (by decide +kernel)
    (((append_and rfl rfl) : _ = 0x0#8 ++ 0x0#24).trans (by decide +kernel))) ?_
  · simp (disch := decide) only [extract_append_high, Nat.reduceSub]
    decide +kernel
  · show Instr.exit  = _
    simp (disch := decide) only [extract_body, extract_append_low, extract_append_high, extract_whole, Nat.reduceSub]

theorem nop : Statement .nop := by
  refine decode_of_row 128 (by decide +kernel) _ _ (fits_of _ _ (0x0#8 ++ 0xFFFFFF#24) ?_ (by decide +kernel)
    (((append_and rfl rfl) : _ = 0x0#8 ++ 0x0#24).trans (by decide +kernel))) ?_
  · simp (disch := decide) only [extract_append_high, Nat.reduceSub]
    decide +kernel
  · show Instr.nop  = _
    simp (disch := decide) only [extract_body, extract_append_low, extract_append_high, extract_whole, Nat.reduceSub]

theorem xwin (a : BitVec 6) : Statement (.xwin a) := by
  refine decode_of_row 129 (by decide +kernel) _ _ (fits_of _ _ (0x0#8 ++ 0x3F#6 ++ 0x0#6 ++ 0xFFF#12) ?_ (by decide +kernel)
    (((append_and (append_and (append_and rfl rfl) BitVec.and_zero) rfl) : _ = 0x0#8 ++ 0x0#6 ++ 0x0#6 ++ 0x0#12).trans (by decide +kernel))) ?_
  · simp (disch := decide) only [extract_append_high, Nat.reduceSub]
    decide +kernel
  · show Instr.xwin _ = _
    simp (disch := decide) only [extract_body, extract_append_low, extract_append_high, extract_whole, Nat.reduceSub]

theorem sld (d : BitVec 6) (a : BitVec 6) (f : BitVec 1) (z : BitVec 2) (g : BitVec 1) (o : BitVec 8) : Statement (.sld d a f z g o) := by
  refine decode_of_row 130 (by decide +kernel) _ _ (fits_of _ _ (0x0#8 ++ 0x0#6 ++ 0x0#6 ++ 0x0#1 ++ 0x0#2 ++ 0x0#1 ++ 0x0#8) ?_ (by decide +kernel)
    (((append_and (append_and (append_and (append_and (append_and (append_and rfl BitVec.and_zero) BitVec.and_zero) BitVec.and_zero) BitVec.and_zero) BitVec.and_zero) BitVec.and_zero) : _ = 0x0#8 ++ 0x0#6 ++ 0x0#6 ++ 0x0#1 ++ 0x0#2 ++ 0x0#1 ++ 0x0#8).trans (by decide +kernel))) ?_
  · simp (disch := decide) only [extract_append_high, Nat.reduceSub]
    decide +kernel
  · show Instr.sld _ _ _ _ _ _ = _
    simp (disch := decide) only [extract_body, extract_append_low, extract_append_high, extract_whole, Nat.reduceSub]

theorem sst (d : BitVec 6) (a : BitVec 6) (f : BitVec 1) (z : BitVec 2) (o : BitVec 8) : Statement (.sst d a f z o) := by
  refine decode_of_row 131 (by decide +kernel) _ _ (fits_of _ _ (0x0#8 ++ 0x0#6 ++ 0x0#6 ++ 0x0#1 ++ 0x0#2 ++ 0x1#1 ++ 0x0#8) ?_ (by decide +kernel)
    (((append_and (append_and (append_and (append_and (append_and (append_and rfl BitVec.and_zero) BitVec.and_zero) BitVec.and_zero) BitVec.and_zero) rfl) BitVec.and_zero) : _ = 0x0#8 ++ 0x0#6 ++ 0x0#6 ++ 0x0#1 ++ 0x0#2 ++ 0x0#1 ++ 0x0#8).trans (by decide +kernel))) ?_
  · simp (disch := decide) only [extract_append_high, Nat.reduceSub]
    decide +kernel
  · show Instr.sst _ _ _ _ _ = _
    simp (disch := decide) only [extract_body, extract_append_low, extract_append_high, extract_whole, Nat.reduceSub]

theorem satom (d : BitVec 6) (a : BitVec 6) (b : BitVec 6) (f : BitVec 1) (o : BitVec 4) : Statement (.satom d a b f o) := by
  refine decode_of_row 132 (by decide +kernel) _ _ (fits_of _ _ (0x0#8 ++ 0x0#6 ++ 0x0#6 ++ 0x0#6 ++ 0x0#1 ++ 0x1#1 ++ 0x0#4) ?_ (by decide +kernel)
    (((append_and (append_and (append_and (append_and (append_and (append_and rfl BitVec.and_zero) BitVec.and_zero) BitVec.and_zero) BitVec.and_zero) rfl) BitVec.and_zero) : _ = 0x0#8 ++ 0x0#6 ++ 0x0#6 ++ 0x0#6 ++ 0x0#1 ++ 0x0#1 ++ 0x0#4).trans (by decide +kernel))) ?_
  · simp (disch := decide) only [extract_append_high, Nat.reduceSub]
    decide +kernel
  · show Instr.satom _ _ _ _ _ = _
    simp (disch := decide) only [extract_body, extract_append_low, extract_append_high, extract_whole, Nat.reduceSub]

theorem scas (d : BitVec 6) (a : BitVec 6) (b : BitVec 6) (f : BitVec 1) : Statement (.scas d a b f) := by
  refine decode_of_row 133 (by decide +kernel) _ _ (fits_of _ _ (0x0#8 ++ 0x0#6 ++ 0x0#6 ++ 0x0#6 ++ 0x0#1 ++ 0x1F#5) ?_ (by decide +kernel)
    (((append_and (append_and (append_and (append_and (append_and rfl BitVec.and_zero) BitVec.and_zero) BitVec.and_zero) BitVec.and_zero) rfl) : _ = 0x0#8 ++ 0x0#6 ++ 0x0#6 ++ 0x0#6 ++ 0x0#1 ++ 0x0#5).trans (by decide +kernel))) ?_
  · simp (disch := decide) only [extract_append_high, Nat.reduceSub]
    decide +kernel
  · show Instr.scas _ _ _ _ = _
    simp (disch := decide) only [extract_body, extract_append_low, extract_append_high, extract_whole, Nat.reduceSub]

theorem ldlW (d : BitVec 6) (o : BitVec 17) : Statement (.ldlW d o) := by
  refine decode_of_row 134 (by decide +kernel) _ _ (fits_of _ _ (0x0#8 ++ 0x0#6 ++ 0x1#1 ++ 0x0#17) ?_ (by decide +kernel)
    (((append_and (append_and (append_and rfl BitVec.and_zero) rfl) BitVec.and_zero) : _ = 0x0#8 ++ 0x0#6 ++ 0x0#1 ++ 0x0#17).trans (by decide +kernel))) ?_
  · simp (disch := decide) only [extract_append_high, Nat.reduceSub]
    decide +kernel
  · show Instr.ldlW _ _ = _
    simp (disch := decide) only [extract_body, extract_append_low, extract_append_high, extract_whole, Nat.reduceSub]

theorem ldlD (d : BitVec 6) (o : BitVec 17) : Statement (.ldlD d o) := by
  refine decode_of_row 135 (by decide +kernel) _ _ (fits_of _ _ (0x0#8 ++ 0x0#6 ++ 0x1#1 ++ 0x0#17) ?_ (by decide +kernel)
    (((append_and (append_and (append_and rfl BitVec.and_zero) rfl) BitVec.and_zero) : _ = 0x0#8 ++ 0x0#6 ++ 0x1#1 ++ 0x0#17).trans (by decide +kernel))) ?_
  · simp (disch := decide) only [extract_append_high, Nat.reduceSub]
    decide +kernel
  · show Instr.ldlD _ _ = _
    simp (disch := decide) only [extract_body, extract_append_low, extract_append_high, extract_whole, Nat.reduceSub]

theorem acq (d : BitVec 6) (a : BitVec 6) (s : BitVec 3) : Statement (.acq d a s) := by
  refine decode_of_row 136 (by decide +kernel) _ _ (fits_of _ _ (0x0#8 ++ 0x0#6 ++ 0x0#6 ++ 0x1FF#9 ++ 0x0#3) ?_ (by decide +kernel)
    (((append_and (append_and (append_and (append_and rfl BitVec.and_zero) BitVec.and_zero) rfl) BitVec.and_zero) : _ = 0x0#8 ++ 0x0#6 ++ 0x0#6 ++ 0x0#9 ++ 0x0#3).trans (by decide +kernel))) ?_
  · simp (disch := decide) only [extract_append_high, Nat.reduceSub]
    decide +kernel
  · show Instr.acq _ _ _ = _
    simp (disch := decide) only [extract_body, extract_append_low, extract_append_high, extract_whole, Nat.reduceSub]

theorem rel (d : BitVec 6) (a : BitVec 6) (s : BitVec 3) : Statement (.rel d a s) := by
  refine decode_of_row 137 (by decide +kernel) _ _ (fits_of _ _ (0x0#8 ++ 0x0#6 ++ 0x0#6 ++ 0x1FF#9 ++ 0x0#3) ?_ (by decide +kernel)
    (((append_and (append_and (append_and (append_and rfl BitVec.and_zero) BitVec.and_zero) rfl) BitVec.and_zero) : _ = 0x0#8 ++ 0x0#6 ++ 0x0#6 ++ 0x0#9 ++ 0x0#3).trans (by decide +kernel))) ?_
  · simp (disch := decide) only [extract_append_high, Nat.reduceSub]
    decide +kernel
  · show Instr.rel _ _ _ = _
    simp (disch := decide) only [extract_body, extract_append_low, extract_append_high, extract_whole, Nat.reduceSub]

theorem fence (k : BitVec 2) (s : BitVec 3) : Statement (.fence k s) := by
  refine decode_of_row 138 (by decide +kernel) _ _ (fits_of _ _ (0x0#8 ++ 0x7FFFF#19 ++ 0x0#2 ++ 0x0#3) ?_ (by decide +kernel)
    (((append_and (append_and (append_and rfl rfl) BitVec.and_zero) BitVec.and_zero) : _ = 0x0#8 ++ 0x0#19 ++ 0x0#2 ++ 0x0#3).trans (by decide +kernel))) ?_
  · simp (disch := decide) only [extract_append_high, Nat.reduceSub]
    decide +kernel
  · show Instr.fence _ _ = _
    simp (disch := decide) only [extract_body, extract_append_low, extract_append_high, extract_whole, Nat.reduceSub]

theorem publish (d : BitVec 6) (a : BitVec 6) (s : BitVec 3) : Statement (.publish d a s) := by
  refine decode_of_row 139 (by decide +kernel) _ _ (fits_of _ _ (0x0#8 ++ 0x0#6 ++ 0x0#6 ++ 0x1FF#9 ++ 0x0#3) ?_ (by decide +kernel)
    (((append_and (append_and (append_and (append_and rfl BitVec.and_zero) BitVec.and_zero) rfl) BitVec.and_zero) : _ = 0x0#8 ++ 0x0#6 ++ 0x0#6 ++ 0x0#9 ++ 0x0#3).trans (by decide +kernel))) ?_
  · simp (disch := decide) only [extract_append_high, Nat.reduceSub]
    decide +kernel
  · show Instr.publish _ _ _ = _
    simp (disch := decide) only [extract_body, extract_append_low, extract_append_high, extract_whole, Nat.reduceSub]

theorem stset (a : BitVec 6) (n : BitVec 3) : Statement (.stset a n) := by
  refine decode_of_row 140 (by decide +kernel) _ _ (fits_of _ _ (0x0#8 ++ 0x3F#6 ++ 0x0#6 ++ 0x1FF#9 ++ 0x0#3) ?_ (by decide +kernel)
    (((append_and (append_and (append_and (append_and rfl rfl) BitVec.and_zero) rfl) BitVec.and_zero) : _ = 0x0#8 ++ 0x0#6 ++ 0x0#6 ++ 0x0#9 ++ 0x0#3).trans (by decide +kernel))) ?_
  · simp (disch := decide) only [extract_append_high, Nat.reduceSub]
    decide +kernel
  · show Instr.stset _ _ = _
    simp (disch := decide) only [extract_body, extract_append_low, extract_append_high, extract_whole, Nat.reduceSub]

theorem stsave (d : BitVec 6) (w : BitVec 3) (n : BitVec 3) : Statement (.stsave d w n) := by
  refine decode_of_row 141 (by decide +kernel) _ _ (fits_of _ _ (0x0#8 ++ 0x0#6 ++ 0xFFF#12 ++ 0x0#3 ++ 0x0#3) ?_ (by decide +kernel)
    (((append_and (append_and (append_and (append_and rfl BitVec.and_zero) rfl) BitVec.and_zero) BitVec.and_zero) : _ = 0x0#8 ++ 0x0#6 ++ 0x0#12 ++ 0x0#3 ++ 0x0#3).trans (by decide +kernel))) ?_
  · simp (disch := decide) only [extract_append_high, Nat.reduceSub]
    decide +kernel
  · show Instr.stsave _ _ _ = _
    simp (disch := decide) only [extract_body, extract_append_low, extract_append_high, extract_whole, Nat.reduceSub]

theorem stpos (a : BitVec 6) (n : BitVec 3) : Statement (.stpos a n) := by
  refine decode_of_row 142 (by decide +kernel) _ _ (fits_of _ _ (0x0#8 ++ 0x3F#6 ++ 0x0#6 ++ 0x1FF#9 ++ 0x0#3) ?_ (by decide +kernel)
    (((append_and (append_and (append_and (append_and rfl rfl) BitVec.and_zero) rfl) BitVec.and_zero) : _ = 0x0#8 ++ 0x0#6 ++ 0x0#6 ++ 0x0#9 ++ 0x0#3).trans (by decide +kernel))) ?_
  · simp (disch := decide) only [extract_append_high, Nat.reduceSub]
    decide +kernel
  · show Instr.stpos _ _ = _
    simp (disch := decide) only [extract_body, extract_append_low, extract_append_high, extract_whole, Nat.reduceSub]

theorem stskip (a : BitVec 6) (n : BitVec 3) : Statement (.stskip a n) := by
  refine decode_of_row 143 (by decide +kernel) _ _ (fits_of _ _ (0x0#8 ++ 0x3F#6 ++ 0x0#6 ++ 0x1FF#9 ++ 0x0#3) ?_ (by decide +kernel)
    (((append_and (append_and (append_and (append_and rfl rfl) BitVec.and_zero) rfl) BitVec.and_zero) : _ = 0x0#8 ++ 0x0#6 ++ 0x0#6 ++ 0x0#9 ++ 0x0#3).trans (by decide +kernel))) ?_
  · simp (disch := decide) only [extract_append_high, Nat.reduceSub]
    decide +kernel
  · show Instr.stskip _ _ = _
    simp (disch := decide) only [extract_body, extract_append_low, extract_append_high, extract_whole, Nat.reduceSub]

theorem grd (d : BitVec 6) (k : BitVec 4) : Statement (.grd d k) := by
  refine decode_of_row 144 (by decide +kernel) _ _ (fits_of _ _ (0x0#8 ++ 0x0#6 ++ 0x3FFF#14 ++ 0x0#4) ?_ (by decide +kernel)
    (((append_and (append_and (append_and rfl BitVec.and_zero) rfl) BitVec.and_zero) : _ = 0x0#8 ++ 0x0#6 ++ 0x0#14 ++ 0x0#4).trans (by decide +kernel))) ?_
  · simp (disch := decide) only [extract_append_high, Nat.reduceSub]
    decide +kernel
  · show Instr.grd _ _ = _
    simp (disch := decide) only [extract_body, extract_append_low, extract_append_high, extract_whole, Nat.reduceSub]

theorem gwr (a : BitVec 6) (k : BitVec 4) : Statement (.gwr a k) := by
  refine decode_of_row 145 (by decide +kernel) _ _ (fits_of _ _ (0x0#8 ++ 0x3F#6 ++ 0x0#6 ++ 0xFF#8 ++ 0x0#4) ?_ (by decide +kernel)
    (((append_and (append_and (append_and (append_and rfl rfl) BitVec.and_zero) rfl) BitVec.and_zero) : _ = 0x0#8 ++ 0x0#6 ++ 0x0#6 ++ 0x0#8 ++ 0x0#4).trans (by decide +kernel))) ?_
  · simp (disch := decide) only [extract_append_high, Nat.reduceSub]
    decide +kernel
  · show Instr.gwr _ _ = _
    simp (disch := decide) only [extract_body, extract_append_low, extract_append_high, extract_whole, Nat.reduceSub]

theorem gatom (d : BitVec 6) (k : BitVec 4) (b : BitVec 6) (o : BitVec 4) : Statement (.gatom d k b o) := by
  refine decode_of_row 146 (by decide +kernel) _ _ (fits_of _ _ (0x0#8 ++ 0x0#6 ++ 0x3#2 ++ 0x0#4 ++ 0x0#6 ++ 0x3#2 ++ 0x0#4) ?_ (by decide +kernel)
    (((append_and (append_and (append_and (append_and (append_and (append_and rfl BitVec.and_zero) rfl) BitVec.and_zero) BitVec.and_zero) rfl) BitVec.and_zero) : _ = 0x0#8 ++ 0x0#6 ++ 0x0#2 ++ 0x0#4 ++ 0x0#6 ++ 0x0#2 ++ 0x0#4).trans (by decide +kernel))) ?_
  · simp (disch := decide) only [extract_append_high, Nat.reduceSub]
    decide +kernel
  · show Instr.gatom _ _ _ _ = _
    simp (disch := decide) only [extract_body, extract_append_low, extract_append_high, extract_whole, Nat.reduceSub]

theorem qbind (a : BitVec 6) (k : BitVec 3) : Statement (.qbind a k) := by
  refine decode_of_row 147 (by decide +kernel) _ _ (fits_of _ _ (0x0#8 ++ 0x3F#6 ++ 0x0#6 ++ 0x1FF#9 ++ 0x0#3) ?_ (by decide +kernel)
    (((append_and (append_and (append_and (append_and rfl rfl) BitVec.and_zero) rfl) BitVec.and_zero) : _ = 0x0#8 ++ 0x0#6 ++ 0x0#6 ++ 0x0#9 ++ 0x0#3).trans (by decide +kernel))) ?_
  · simp (disch := decide) only [extract_append_high, Nat.reduceSub]
    decide +kernel
  · show Instr.qbind _ _ = _
    simp (disch := decide) only [extract_body, extract_append_low, extract_append_high, extract_whole, Nat.reduceSub]

theorem qpush (a : BitVec 6) (k : BitVec 3) : Statement (.qpush a k) := by
  refine decode_of_row 148 (by decide +kernel) _ _ (fits_of _ _ (0x0#8 ++ 0x3F#6 ++ 0x0#6 ++ 0x1FF#9 ++ 0x0#3) ?_ (by decide +kernel)
    (((append_and (append_and (append_and (append_and rfl rfl) BitVec.and_zero) rfl) BitVec.and_zero) : _ = 0x0#8 ++ 0x0#6 ++ 0x0#6 ++ 0x0#9 ++ 0x0#3).trans (by decide +kernel))) ?_
  · simp (disch := decide) only [extract_append_high, Nat.reduceSub]
    decide +kernel
  · show Instr.qpush _ _ = _
    simp (disch := decide) only [extract_body, extract_append_low, extract_append_high, extract_whole, Nat.reduceSub]

theorem qpushv (a : BitVec 6) (n : BitVec 5) (k : BitVec 3) : Statement (.qpushv a n k) := by
  refine decode_of_row 149 (by decide +kernel) _ _ (fits_of _ _ (0x0#8 ++ 0x3F#6 ++ 0x0#6 ++ 0xF#4 ++ 0x0#5 ++ 0x0#3) ?_ (by decide +kernel)
    (((append_and (append_and (append_and (append_and (append_and rfl rfl) BitVec.and_zero) rfl) BitVec.and_zero) BitVec.and_zero) : _ = 0x0#8 ++ 0x0#6 ++ 0x0#6 ++ 0x0#4 ++ 0x0#5 ++ 0x0#3).trans (by decide +kernel))) ?_
  · simp (disch := decide) only [extract_append_high, Nat.reduceSub]
    decide +kernel
  · show Instr.qpushv _ _ _ = _
    simp (disch := decide) only [extract_body, extract_append_low, extract_append_high, extract_whole, Nat.reduceSub]

theorem qpop (d : BitVec 6) (k : BitVec 3) : Statement (.qpop d k) := by
  refine decode_of_row 150 (by decide +kernel) _ _ (fits_of _ _ (0x0#8 ++ 0x0#6 ++ 0x7FFF#15 ++ 0x0#3) ?_ (by decide +kernel)
    (((append_and (append_and (append_and rfl BitVec.and_zero) rfl) BitVec.and_zero) : _ = 0x0#8 ++ 0x0#6 ++ 0x0#15 ++ 0x0#3).trans (by decide +kernel))) ?_
  · simp (disch := decide) only [extract_append_high, Nat.reduceSub]
    decide +kernel
  · show Instr.qpop _ _ = _
    simp (disch := decide) only [extract_body, extract_append_low, extract_append_high, extract_whole, Nat.reduceSub]

theorem qtry (d : BitVec 6) (k : BitVec 3) : Statement (.qtry d k) := by
  refine decode_of_row 151 (by decide +kernel) _ _ (fits_of _ _ (0x0#8 ++ 0x0#6 ++ 0x7FFF#15 ++ 0x0#3) ?_ (by decide +kernel)
    (((append_and (append_and (append_and rfl BitVec.and_zero) rfl) BitVec.and_zero) : _ = 0x0#8 ++ 0x0#6 ++ 0x0#15 ++ 0x0#3).trans (by decide +kernel))) ?_
  · simp (disch := decide) only [extract_append_high, Nat.reduceSub]
    decide +kernel
  · show Instr.qtry _ _ = _
    simp (disch := decide) only [extract_body, extract_append_low, extract_append_high, extract_whole, Nat.reduceSub]

theorem qsteal (d : BitVec 6) (a : BitVec 6) : Statement (.qsteal d a) := by
  refine decode_of_row 152 (by decide +kernel) _ _ (fits_of _ _ (0x0#8 ++ 0x0#6 ++ 0x0#6 ++ 0xFFF#12) ?_ (by decide +kernel)
    (((append_and (append_and (append_and rfl BitVec.and_zero) BitVec.and_zero) rfl) : _ = 0x0#8 ++ 0x0#6 ++ 0x0#6 ++ 0x0#12).trans (by decide +kernel))) ?_
  · simp (disch := decide) only [extract_append_high, Nat.reduceSub]
    decide +kernel
  · show Instr.qsteal _ _ = _
    simp (disch := decide) only [extract_body, extract_append_low, extract_append_high, extract_whole, Nat.reduceSub]

theorem qlen (d : BitVec 6) (k : BitVec 3) : Statement (.qlen d k) := by
  refine decode_of_row 153 (by decide +kernel) _ _ (fits_of _ _ (0x0#8 ++ 0x0#6 ++ 0x7FFF#15 ++ 0x0#3) ?_ (by decide +kernel)
    (((append_and (append_and (append_and rfl BitVec.and_zero) rfl) BitVec.and_zero) : _ = 0x0#8 ++ 0x0#6 ++ 0x0#15 ++ 0x0#3).trans (by decide +kernel))) ?_
  · simp (disch := decide) only [extract_append_high, Nat.reduceSub]
    decide +kernel
  · show Instr.qlen _ _ = _
    simp (disch := decide) only [extract_body, extract_append_low, extract_append_high, extract_whole, Nat.reduceSub]

theorem mma (p : BitVec 3) (s : BitVec 6) (f : BitVec 1) (v : BitVec 7) (n : BitVec 2) : Statement (.mma p s f v n) := by
  refine decode_of_row 154 (by decide +kernel) _ _ (fits_of _ _ (0x0#8 ++ 0x0#3 ++ 0x7#3 ++ 0x0#6 ++ 0x0#1 ++ 0x0#7 ++ 0x0#2 ++ 0x3#2) ?_ (by decide +kernel)
    (((append_and (append_and (append_and (append_and (append_and (append_and (append_and rfl BitVec.and_zero) rfl) BitVec.and_zero) BitVec.and_zero) BitVec.and_zero) BitVec.and_zero) rfl) : _ = 0x0#8 ++ 0x0#3 ++ 0x0#3 ++ 0x0#6 ++ 0x0#1 ++ 0x0#7 ++ 0x0#2 ++ 0x0#2).trans (by decide +kernel))) ?_
  · simp (disch := decide) only [extract_append_high, Nat.reduceSub]
    decide +kernel
  · show Instr.mma _ _ _ _ _ = _
    simp (disch := decide) only [extract_body, extract_append_low, extract_append_high, extract_whole, Nat.reduceSub]

theorem mmt (p : BitVec 3) (s : BitVec 6) (f : BitVec 1) (v : BitVec 7) (t : BitVec 2) : Statement (.mmt p s f v t) := by
  refine decode_of_row 155 (by decide +kernel) _ _ (fits_of _ _ (0x0#8 ++ 0x0#3 ++ 0x7#3 ++ 0x0#6 ++ 0x0#1 ++ 0x0#7 ++ 0x3#2 ++ 0x0#2) ?_ (by decide +kernel)
    (((append_and (append_and (append_and (append_and (append_and (append_and (append_and rfl BitVec.and_zero) rfl) BitVec.and_zero) BitVec.and_zero) BitVec.and_zero) rfl) BitVec.and_zero) : _ = 0x0#8 ++ 0x0#3 ++ 0x0#3 ++ 0x0#6 ++ 0x0#1 ++ 0x0#7 ++ 0x2#2 ++ 0x0#2).trans (by decide +kernel))) ?_
  · simp (disch := decide) only [extract_append_high, Nat.reduceSub]
    decide +kernel
  · show Instr.mmt _ _ _ _ _ = _
    simp (disch := decide) only [extract_body, extract_append_low, extract_append_high, extract_whole, Nat.reduceSub]

theorem mzero (v : BitVec 7) (n : BitVec 2) (t : BitVec 1) : Statement (.mzero v n t) := by
  refine decode_of_row 156 (by decide +kernel) _ _ (fits_of _ _ (0x0#8 ++ 0x3F#6 ++ 0x0#7 ++ 0x0#2 ++ 0x0#1 ++ 0xFF#8) ?_ (by decide +kernel)
    (((append_and (append_and (append_and (append_and (append_and rfl rfl) BitVec.and_zero) BitVec.and_zero) BitVec.and_zero) rfl) : _ = 0x0#8 ++ 0x0#6 ++ 0x0#7 ++ 0x0#2 ++ 0x0#1 ++ 0x0#8).trans (by decide +kernel))) ?_
  · simp (disch := decide) only [extract_append_high, Nat.reduceSub]
    decide +kernel
  · show Instr.mzero _ _ _ = _
    simp (disch := decide) only [extract_body, extract_append_low, extract_append_high, extract_whole, Nat.reduceSub]

theorem mscale (d : BitVec 6) (a : BitVec 6) (f : BitVec 3) : Statement (.mscale d a f) := by
  refine decode_of_row 157 (by decide +kernel) _ _ (fits_of _ _ (0x0#8 ++ 0x0#6 ++ 0x0#6 ++ 0x1FF#9 ++ 0x0#3) ?_ (by decide +kernel)
    (((append_and (append_and (append_and (append_and rfl BitVec.and_zero) BitVec.and_zero) rfl) BitVec.and_zero) : _ = 0x0#8 ++ 0x0#6 ++ 0x0#6 ++ 0x0#9 ++ 0x0#3).trans (by decide +kernel))) ?_
  · simp (disch := decide) only [extract_append_high, Nat.reduceSub]
    decide +kernel
  · show Instr.mscale _ _ _ = _
    simp (disch := decide) only [extract_body, extract_append_low, extract_append_high, extract_whole, Nat.reduceSub]

theorem cpy (t : BitVec 6) (r : BitVec 6) (b : BitVec 6) (v : BitVec 1) : Statement (.cpy t r b v) := by
  refine decode_of_row 158 (by decide +kernel) _ _ (fits_of _ _ (0x0#8 ++ 0x0#6 ++ 0x0#6 ++ 0x0#6 ++ 0x0#1 ++ 0x1F#5) ?_ (by decide +kernel)
    (((append_and (append_and (append_and (append_and (append_and rfl BitVec.and_zero) BitVec.and_zero) BitVec.and_zero) BitVec.and_zero) rfl) : _ = 0x0#8 ++ 0x0#6 ++ 0x0#6 ++ 0x0#6 ++ 0x0#1 ++ 0x0#5).trans (by decide +kernel))) ?_
  · simp (disch := decide) only [extract_append_high, Nat.reduceSub]
    decide +kernel
  · show Instr.cpy _ _ _ _ = _
    simp (disch := decide) only [extract_body, extract_append_low, extract_append_high, extract_whole, Nat.reduceSub]

theorem cpt (t : BitVec 6) (r : BitVec 6) (b : BitVec 6) (v : BitVec 1) : Statement (.cpt t r b v) := by
  refine decode_of_row 159 (by decide +kernel) _ _ (fits_of _ _ (0x0#8 ++ 0x0#6 ++ 0x0#6 ++ 0x0#6 ++ 0x0#1 ++ 0x1F#5) ?_ (by decide +kernel)
    (((append_and (append_and (append_and (append_and (append_and rfl BitVec.and_zero) BitVec.and_zero) BitVec.and_zero) BitVec.and_zero) rfl) : _ = 0x0#8 ++ 0x0#6 ++ 0x0#6 ++ 0x0#6 ++ 0x0#1 ++ 0x0#5).trans (by decide +kernel))) ?_
  · simp (disch := decide) only [extract_append_high, Nat.reduceSub]
    decide +kernel
  · show Instr.cpt _ _ _ _ = _
    simp (disch := decide) only [extract_body, extract_append_low, extract_append_high, extract_whole, Nat.reduceSub]

theorem cpr (t : BitVec 6) (r : BitVec 6) (b : BitVec 6) (v : BitVec 1) : Statement (.cpr t r b v) := by
  refine decode_of_row 160 (by decide +kernel) _ _ (fits_of _ _ (0x0#8 ++ 0x0#6 ++ 0x0#6 ++ 0x0#6 ++ 0x0#1 ++ 0x1F#5) ?_ (by decide +kernel)
    (((append_and (append_and (append_and (append_and (append_and rfl BitVec.and_zero) BitVec.and_zero) BitVec.and_zero) BitVec.and_zero) rfl) : _ = 0x0#8 ++ 0x0#6 ++ 0x0#6 ++ 0x0#6 ++ 0x0#1 ++ 0x0#5).trans (by decide +kernel))) ?_
  · simp (disch := decide) only [extract_append_high, Nat.reduceSub]
    decide +kernel
  · show Instr.cpr _ _ _ _ = _
    simp (disch := decide) only [extract_body, extract_append_low, extract_append_high, extract_whole, Nat.reduceSub]

theorem cpx (t : BitVec 6) (r : BitVec 6) (b : BitVec 6) (v : BitVec 1) : Statement (.cpx t r b v) := by
  refine decode_of_row 161 (by decide +kernel) _ _ (fits_of _ _ (0x0#8 ++ 0x0#6 ++ 0x0#6 ++ 0x0#6 ++ 0x0#1 ++ 0x1F#5) ?_ (by decide +kernel)
    (((append_and (append_and (append_and (append_and (append_and rfl BitVec.and_zero) BitVec.and_zero) BitVec.and_zero) BitVec.and_zero) rfl) : _ = 0x0#8 ++ 0x0#6 ++ 0x0#6 ++ 0x0#6 ++ 0x0#1 ++ 0x0#5).trans (by decide +kernel))) ?_
  · simp (disch := decide) only [extract_append_high, Nat.reduceSub]
    decide +kernel
  · show Instr.cpx _ _ _ _ = _
    simp (disch := decide) only [extract_body, extract_append_low, extract_append_high, extract_whole, Nat.reduceSub]

theorem cpc (t : BitVec 6) (r : BitVec 6) (b : BitVec 6) (v : BitVec 1) : Statement (.cpc t r b v) := by
  refine decode_of_row 162 (by decide +kernel) _ _ (fits_of _ _ (0x0#8 ++ 0x0#6 ++ 0x0#6 ++ 0x0#6 ++ 0x0#1 ++ 0x1F#5) ?_ (by decide +kernel)
    (((append_and (append_and (append_and (append_and (append_and rfl BitVec.and_zero) BitVec.and_zero) BitVec.and_zero) BitVec.and_zero) rfl) : _ = 0x0#8 ++ 0x0#6 ++ 0x0#6 ++ 0x0#6 ++ 0x0#1 ++ 0x0#5).trans (by decide +kernel))) ?_
  · simp (disch := decide) only [extract_append_high, Nat.reduceSub]
    decide +kernel
  · show Instr.cpc _ _ _ _ = _
    simp (disch := decide) only [extract_body, extract_append_low, extract_append_high, extract_whole, Nat.reduceSub]

theorem cpclose : Statement .cpclose := by
  refine decode_of_row 163 (by decide +kernel) _ _ (fits_of _ _ (0x0#8 ++ 0xFFFFFF#24) ?_ (by decide +kernel)
    (((append_and rfl rfl) : _ = 0x0#8 ++ 0x0#24).trans (by decide +kernel))) ?_
  · simp (disch := decide) only [extract_append_high, Nat.reduceSub]
    decide +kernel
  · show Instr.cpclose  = _
    simp (disch := decide) only [extract_body, extract_append_low, extract_append_high, extract_whole, Nat.reduceSub]

theorem cpwait (n : BitVec 4) : Statement (.cpwait n) := by
  refine decode_of_row 164 (by decide +kernel) _ _ (fits_of _ _ (0x0#8 ++ 0xFFFFF#20 ++ 0x0#4) ?_ (by decide +kernel)
    (((append_and (append_and rfl rfl) BitVec.and_zero) : _ = 0x0#8 ++ 0x0#20 ++ 0x0#4).trans (by decide +kernel))) ?_
  · simp (disch := decide) only [extract_append_high, Nat.reduceSub]
    decide +kernel
  · show Instr.cpwait _ = _
    simp (disch := decide) only [extract_body, extract_append_low, extract_append_high, extract_whole, Nat.reduceSub]

theorem tbinit (d : BitVec 6) (a : BitVec 6) : Statement (.tbinit d a) := by
  refine decode_of_row 165 (by decide +kernel) _ _ (fits_of _ _ (0x0#8 ++ 0x0#6 ++ 0x0#6 ++ 0xFFF#12) ?_ (by decide +kernel)
    (((append_and (append_and (append_and rfl BitVec.and_zero) BitVec.and_zero) rfl) : _ = 0x0#8 ++ 0x0#6 ++ 0x0#6 ++ 0x0#12).trans (by decide +kernel))) ?_
  · simp (disch := decide) only [extract_append_high, Nat.reduceSub]
    decide +kernel
  · show Instr.tbinit _ _ = _
    simp (disch := decide) only [extract_body, extract_append_low, extract_append_high, extract_whole, Nat.reduceSub]

theorem tbexp (d : BitVec 6) (a : BitVec 6) (r : BitVec 1) (s : BitVec 1) (g : BitVec 3) : Statement (.tbexp d a r s g) := by
  refine decode_of_row 166 (by decide +kernel) _ _ (fits_of _ _ (0x0#8 ++ 0x0#6 ++ 0x0#6 ++ 0x7F#7 ++ 0x0#1 ++ 0x0#1 ++ 0x0#3) ?_ (by decide +kernel)
    (((append_and (append_and (append_and (append_and (append_and (append_and rfl BitVec.and_zero) BitVec.and_zero) rfl) BitVec.and_zero) BitVec.and_zero) BitVec.and_zero) : _ = 0x0#8 ++ 0x0#6 ++ 0x0#6 ++ 0x0#7 ++ 0x0#1 ++ 0x0#1 ++ 0x0#3).trans (by decide +kernel))) ?_
  · simp (disch := decide) only [extract_append_high, Nat.reduceSub]
    decide +kernel
  · show Instr.tbexp _ _ _ _ _ = _
    simp (disch := decide) only [extract_body, extract_append_low, extract_append_high, extract_whole, Nat.reduceSub]

theorem tbarr (d : BitVec 6) (a : BitVec 6) (s : BitVec 1) (g : BitVec 3) : Statement (.tbarr d a s g) := by
  refine decode_of_row 167 (by decide +kernel) _ _ (fits_of _ _ (0x0#8 ++ 0x0#6 ++ 0x0#6 ++ 0xFF#8 ++ 0x0#1 ++ 0x0#3) ?_ (by decide +kernel)
    (((append_and (append_and (append_and (append_and (append_and rfl BitVec.and_zero) BitVec.and_zero) rfl) BitVec.and_zero) BitVec.and_zero) : _ = 0x0#8 ++ 0x0#6 ++ 0x0#6 ++ 0x0#8 ++ 0x0#1 ++ 0x0#3).trans (by decide +kernel))) ?_
  · simp (disch := decide) only [extract_append_high, Nat.reduceSub]
    decide +kernel
  · show Instr.tbarr _ _ _ _ = _
    simp (disch := decide) only [extract_body, extract_append_low, extract_append_high, extract_whole, Nat.reduceSub]

theorem tbwait (d : BitVec 6) (a : BitVec 6) : Statement (.tbwait d a) := by
  refine decode_of_row 168 (by decide +kernel) _ _ (fits_of _ _ (0x0#8 ++ 0x0#6 ++ 0x0#6 ++ 0xFFF#12) ?_ (by decide +kernel)
    (((append_and (append_and (append_and rfl BitVec.and_zero) BitVec.and_zero) rfl) : _ = 0x0#8 ++ 0x0#6 ++ 0x0#6 ++ 0x0#12).trans (by decide +kernel))) ?_
  · simp (disch := decide) only [extract_append_high, Nat.reduceSub]
    decide +kernel
  · show Instr.tbwait _ _ = _
    simp (disch := decide) only [extract_body, extract_append_low, extract_append_high, extract_whole, Nat.reduceSub]

theorem bar : Statement .bar := by
  refine decode_of_row 169 (by decide +kernel) _ _ (fits_of _ _ (0x0#8 ++ 0xFFFFFF#24) ?_ (by decide +kernel)
    (((append_and rfl rfl) : _ = 0x0#8 ++ 0x0#24).trans (by decide +kernel))) ?_
  · simp (disch := decide) only [extract_append_high, Nat.reduceSub]
    decide +kernel
  · show Instr.bar  = _
    simp (disch := decide) only [extract_body, extract_append_low, extract_append_high, extract_whole, Nat.reduceSub]

theorem gbar : Statement .gbar := by
  refine decode_of_row 170 (by decide +kernel) _ _ (fits_of _ _ (0x0#8 ++ 0xFFFFFF#24) ?_ (by decide +kernel)
    (((append_and rfl rfl) : _ = 0x0#8 ++ 0x1#24).trans (by decide +kernel))) ?_
  · simp (disch := decide) only [extract_append_high, Nat.reduceSub]
    decide +kernel
  · show Instr.gbar  = _
    simp (disch := decide) only [extract_body, extract_append_low, extract_append_high, extract_whole, Nat.reduceSub]

theorem cvjoin (d : BitVec 6) (a : BitVec 6) (n : BitVec 3) : Statement (.cvjoin d a n) := by
  refine decode_of_row 171 (by decide +kernel) _ _ (fits_of _ _ (0x0#8 ++ 0x0#6 ++ 0x0#6 ++ 0x1FF#9 ++ 0x0#3) ?_ (by decide +kernel)
    (((append_and (append_and (append_and (append_and rfl BitVec.and_zero) BitVec.and_zero) rfl) BitVec.and_zero) : _ = 0x0#8 ++ 0x0#6 ++ 0x0#6 ++ 0x0#9 ++ 0x0#3).trans (by decide +kernel))) ?_
  · simp (disch := decide) only [extract_append_high, Nat.reduceSub]
    decide +kernel
  · show Instr.cvjoin _ _ _ = _
    simp (disch := decide) only [extract_body, extract_append_low, extract_append_high, extract_whole, Nat.reduceSub]

theorem cvleave (d : BitVec 6) (n : BitVec 3) : Statement (.cvleave d n) := by
  refine decode_of_row 172 (by decide +kernel) _ _ (fits_of _ _ (0x0#8 ++ 0x0#6 ++ 0x7FFF#15 ++ 0x0#3) ?_ (by decide +kernel)
    (((append_and (append_and (append_and rfl BitVec.and_zero) rfl) BitVec.and_zero) : _ = 0x0#8 ++ 0x0#6 ++ 0x0#15 ++ 0x0#3).trans (by decide +kernel))) ?_
  · simp (disch := decide) only [extract_append_high, Nat.reduceSub]
    decide +kernel
  · show Instr.cvleave _ _ = _
    simp (disch := decide) only [extract_body, extract_append_low, extract_append_high, extract_whole, Nat.reduceSub]

theorem cvslip (d : BitVec 6) (a : BitVec 6) : Statement (.cvslip d a) := by
  refine decode_of_row 173 (by decide +kernel) _ _ (fits_of _ _ (0x0#8 ++ 0x0#6 ++ 0x0#6 ++ 0xFFF#12) ?_ (by decide +kernel)
    (((append_and (append_and (append_and rfl BitVec.and_zero) BitVec.and_zero) rfl) : _ = 0x0#8 ++ 0x0#6 ++ 0x0#6 ++ 0x0#12).trans (by decide +kernel))) ?_
  · simp (disch := decide) only [extract_append_high, Nat.reduceSub]
    decide +kernel
  · show Instr.cvslip _ _ = _
    simp (disch := decide) only [extract_body, extract_append_low, extract_append_high, extract_whole, Nat.reduceSub]

theorem cvrejoin (d : BitVec 6) (a : BitVec 6) (n : BitVec 3) : Statement (.cvrejoin d a n) := by
  refine decode_of_row 174 (by decide +kernel) _ _ (fits_of _ _ (0x0#8 ++ 0x0#6 ++ 0x0#6 ++ 0x1FF#9 ++ 0x0#3) ?_ (by decide +kernel)
    (((append_and (append_and (append_and (append_and rfl BitVec.and_zero) BitVec.and_zero) rfl) BitVec.and_zero) : _ = 0x0#8 ++ 0x0#6 ++ 0x0#6 ++ 0x0#9 ++ 0x0#3).trans (by decide +kernel))) ?_
  · simp (disch := decide) only [extract_append_high, Nat.reduceSub]
    decide +kernel
  · show Instr.cvrejoin _ _ _ = _
    simp (disch := decide) only [extract_body, extract_append_low, extract_append_high, extract_whole, Nat.reduceSub]

theorem srd (d : BitVec 6) (n : BitVec 6) : Statement (.srd d n) := by
  refine decode_of_row 175 (by decide +kernel) _ _ (fits_of _ _ (0x0#8 ++ 0x0#6 ++ 0xFFF#12 ++ 0x0#6) ?_ (by decide +kernel)
    (((append_and (append_and (append_and rfl BitVec.and_zero) rfl) BitVec.and_zero) : _ = 0x0#8 ++ 0x0#6 ++ 0x0#12 ++ 0x0#6).trans (by decide +kernel))) ?_
  · simp (disch := decide) only [extract_append_high, Nat.reduceSub]
    decide +kernel
  · show Instr.srd _ _ = _
    simp (disch := decide) only [extract_body, extract_append_low, extract_append_high, extract_whole, Nat.reduceSub]

theorem srdV (d : BitVec 6) (h : BitVec 1) (n : BitVec 6) : Statement (.srdV d h n) := by
  refine decode_of_row 176 (by decide +kernel) _ _ (fits_of _ _ (0x0#8 ++ 0x0#6 ++ 0x7F#7 ++ 0x0#1 ++ 0xF#4 ++ 0x0#6) ?_ (by decide +kernel)
    (((append_and (append_and (append_and (append_and (append_and rfl BitVec.and_zero) rfl) BitVec.and_zero) rfl) BitVec.and_zero) : _ = 0x0#8 ++ 0x0#6 ++ 0x1#7 ++ 0x0#1 ++ 0x0#4 ++ 0x0#6).trans (by decide +kernel))) ?_
  · simp (disch := decide) only [extract_append_high, Nat.reduceSub]
    decide +kernel
  · show Instr.srdV _ _ _ = _
    simp (disch := decide) only [extract_body, extract_append_low, extract_append_high, extract_whole, Nat.reduceSub]

theorem swr (a : BitVec 6) (n : BitVec 6) : Statement (.swr a n) := by
  refine decode_of_row 177 (by decide +kernel) _ _ (fits_of _ _ (0x0#8 ++ 0x3F#6 ++ 0x0#6 ++ 0x3F#6 ++ 0x0#6) ?_ (by decide +kernel)
    (((append_and (append_and (append_and (append_and rfl rfl) BitVec.and_zero) rfl) BitVec.and_zero) : _ = 0x0#8 ++ 0x0#6 ++ 0x0#6 ++ 0x0#6 ++ 0x0#6).trans (by decide +kernel))) ?_
  · simp (disch := decide) only [extract_append_high, Nat.reduceSub]
    decide +kernel
  · show Instr.swr _ _ = _
    simp (disch := decide) only [extract_body, extract_append_low, extract_append_high, extract_whole, Nat.reduceSub]

theorem trap (n : BitVec 8) : Statement (.trap n) := by
  refine decode_of_row 178 (by decide +kernel) _ _ (fits_of _ _ (0x0#8 ++ 0xFFFF#16 ++ 0x0#8) ?_ (by decide +kernel)
    (((append_and (append_and rfl rfl) BitVec.and_zero) : _ = 0x0#8 ++ 0x0#16 ++ 0x0#8).trans (by decide +kernel))) ?_
  · simp (disch := decide) only [extract_append_high, Nat.reduceSub]
    decide +kernel
  · show Instr.trap _ = _
    simp (disch := decide) only [extract_body, extract_append_low, extract_append_high, extract_whole, Nat.reduceSub]

theorem tret : Statement .tret := by
  refine decode_of_row 179 (by decide +kernel) _ _ (fits_of _ _ (0x0#8 ++ 0xFFFFFF#24) ?_ (by decide +kernel)
    (((append_and rfl rfl) : _ = 0x0#8 ++ 0x0#24).trans (by decide +kernel))) ?_
  · simp (disch := decide) only [extract_append_high, Nat.reduceSub]
    decide +kernel
  · show Instr.tret  = _
    simp (disch := decide) only [extract_body, extract_append_low, extract_append_high, extract_whole, Nat.reduceSub]

theorem sigdone : Statement .sigdone := by
  refine decode_of_row 180 (by decide +kernel) _ _ (fits_of _ _ (0x0#8 ++ 0xFFFFFF#24) ?_ (by decide +kernel)
    (((append_and rfl rfl) : _ = 0x0#8 ++ 0x0#24).trans (by decide +kernel))) ?_
  · simp (disch := decide) only [extract_append_high, Nat.reduceSub]
    decide +kernel
  · show Instr.sigdone  = _
    simp (disch := decide) only [extract_body, extract_append_low, extract_append_high, extract_whole, Nat.reduceSub]

theorem region (a : BitVec 6) (o : BitVec 12) : Statement (.region a o) := by
  refine decode_of_row 181 (by decide +kernel) _ _ (fits_of _ _ (0x0#8 ++ 0x3F#6 ++ 0x0#6 ++ 0x0#12) ?_ (by decide +kernel)
    (((append_and (append_and (append_and rfl rfl) BitVec.and_zero) BitVec.and_zero) : _ = 0x0#8 ++ 0x0#6 ++ 0x0#6 ++ 0x0#12).trans (by decide +kernel))) ?_
  · simp (disch := decide) only [extract_append_high, Nat.reduceSub]
    decide +kernel
  · show Instr.region _ _ = _
    simp (disch := decide) only [extract_body, extract_append_low, extract_append_high, extract_whole, Nat.reduceSub]

theorem setperf (d : BitVec 6) (a : BitVec 6) : Statement (.setperf d a) := by
  refine decode_of_row 182 (by decide +kernel) _ _ (fits_of _ _ (0x0#8 ++ 0x0#6 ++ 0x0#6 ++ 0xFFF#12) ?_ (by decide +kernel)
    (((append_and (append_and (append_and rfl BitVec.and_zero) BitVec.and_zero) rfl) : _ = 0x0#8 ++ 0x0#6 ++ 0x0#6 ++ 0x0#12).trans (by decide +kernel))) ?_
  · simp (disch := decide) only [extract_append_high, Nat.reduceSub]
    decide +kernel
  · show Instr.setperf _ _ = _
    simp (disch := decide) only [extract_body, extract_append_low, extract_append_high, extract_whole, Nat.reduceSub]

theorem waitc (d : BitVec 6) (a : BitVec 6) : Statement (.waitc d a) := by
  refine decode_of_row 183 (by decide +kernel) _ _ (fits_of _ _ (0x0#8 ++ 0x0#6 ++ 0x0#6 ++ 0xFFF#12) ?_ (by decide +kernel)
    (((append_and (append_and (append_and rfl BitVec.and_zero) BitVec.and_zero) rfl) : _ = 0x0#8 ++ 0x0#6 ++ 0x0#6 ++ 0x0#12).trans (by decide +kernel))) ?_
  · simp (disch := decide) only [extract_append_high, Nat.reduceSub]
    decide +kernel
  · show Instr.waitc _ _ = _
    simp (disch := decide) only [extract_body, extract_append_low, extract_append_high, extract_whole, Nat.reduceSub]

theorem cancel (d : BitVec 6) (a : BitVec 6) (l : BitVec 2) : Statement (.cancel d a l) := by
  refine decode_of_row 184 (by decide +kernel) _ _ (fits_of _ _ (0x0#8 ++ 0x0#6 ++ 0x0#6 ++ 0x3FF#10 ++ 0x0#2) ?_ (by decide +kernel)
    (((append_and (append_and (append_and (append_and rfl BitVec.and_zero) BitVec.and_zero) rfl) BitVec.and_zero) : _ = 0x0#8 ++ 0x0#6 ++ 0x0#6 ++ 0x0#10 ++ 0x0#2).trans (by decide +kernel))) ?_
  · simp (disch := decide) only [extract_append_high, Nat.reduceSub]
    decide +kernel
  · show Instr.cancel _ _ _ = _
    simp (disch := decide) only [extract_body, extract_append_low, extract_append_high, extract_whole, Nat.reduceSub]

theorem sleep (a : BitVec 6) : Statement (.sleep a) := by
  refine decode_of_row 185 (by decide +kernel) _ _ (fits_of _ _ (0x0#8 ++ 0x3F#6 ++ 0x0#6 ++ 0xFFF#12) ?_ (by decide +kernel)
    (((append_and (append_and (append_and rfl rfl) BitVec.and_zero) rfl) : _ = 0x0#8 ++ 0x0#6 ++ 0x0#6 ++ 0x0#12).trans (by decide +kernel))) ?_
  · simp (disch := decide) only [extract_append_high, Nat.reduceSub]
    decide +kernel
  · show Instr.sleep _ = _
    simp (disch := decide) only [extract_body, extract_append_low, extract_append_high, extract_whole, Nat.reduceSub]

theorem bkpt (n : BitVec 8) : Statement (.bkpt n) := by
  refine decode_of_row 186 (by decide +kernel) _ _ (fits_of _ _ (0x0#8 ++ 0xFFFF#16 ++ 0x0#8) ?_ (by decide +kernel)
    (((append_and (append_and rfl rfl) BitVec.and_zero) : _ = 0x0#8 ++ 0x0#16 ++ 0x0#8).trans (by decide +kernel))) ?_
  · simp (disch := decide) only [extract_append_high, Nat.reduceSub]
    decide +kernel
  · show Instr.bkpt _ = _
    simp (disch := decide) only [extract_body, extract_append_low, extract_append_high, extract_whole, Nat.reduceSub]

theorem pool (n : BitVec 16) : Statement (.pool n) := by
  refine decode_of_row 187 (by decide +kernel) _ _ (fits_of _ _ (0x0#8 ++ 0xFF#8 ++ 0x0#16) ?_ (by decide +kernel)
    (((append_and (append_and rfl rfl) BitVec.and_zero) : _ = 0x0#8 ++ 0x0#8 ++ 0x0#16).trans (by decide +kernel))) ?_
  · simp (disch := decide) only [extract_append_high, Nat.reduceSub]
    decide +kernel
  · show Instr.pool _ = _
    simp (disch := decide) only [extract_body, extract_append_low, extract_append_high, extract_whole, Nat.reduceSub]

theorem clause (w : BitVec 12) (a : BitVec 4) (b : BitVec 4) (l : BitVec 3) : Statement (.clause w a b l) := by
  refine decode_of_row 188 (by decide +kernel) _ _ (fits_of _ _ (0x0#8 ++ 0x0#12 ++ 0x0#4 ++ 0x0#4 ++ 0x0#3 ++ 0x1#1) ?_ (by decide +kernel)
    (((append_and (append_and (append_and (append_and (append_and rfl BitVec.and_zero) BitVec.and_zero) BitVec.and_zero) BitVec.and_zero) rfl) : _ = 0x0#8 ++ 0x0#12 ++ 0x0#4 ++ 0x0#4 ++ 0x0#3 ++ 0x0#1).trans (by decide +kernel))) ?_
  · simp (disch := decide) only [extract_append_high, Nat.reduceSub]
    decide +kernel
  · show Instr.clause _ _ _ _ = _
    simp (disch := decide) only [extract_body, extract_append_low, extract_append_high, extract_whole, Nat.reduceSub]

theorem loopFallThrough (w : WRef) : Statement (.loopFallThrough w) := Or.inl rfl

theorem longLatencyComplete (w : WRef) (k : Nat) : Statement (.longLatencyComplete w k) := Or.inl rfl

theorem handlerEntry (w : WRef) : Statement (.handlerEntry w) := Or.inl rfl

theorem warpReplay (w : WRef) : Statement (.warpReplay w) := Or.inl rfl

theorem matrixRowBlock (w : WRef) : Statement (.matrixRowBlock w) := Or.inl rfl

theorem copyStart (tile : Nat) : Statement (.copyStart tile) := Or.inl rfl

theorem copySectorPerformed (id : Nat) : Statement (.copySectorPerformed id) := Or.inl rfl

theorem copyTokenWrite (id : Nat) : Statement (.copyTokenWrite id) := Or.inl rfl

theorem applyRequest (id : Nat) (sector : Nat) : Statement (.applyRequest id sector) := Or.inl rfl

theorem applyAck (id : Nat) (sector : Nat) : Statement (.applyAck id sector) := Or.inl rfl

theorem applyAckTimeout (id : Nat) (sector : Nat) : Statement (.applyAckTimeout id sector) := Or.inl rfl

theorem tbwaitWake (wg : Nat) (off : Nat) : Statement (.tbwaitWake wg off) := Or.inl rfl

theorem barRelease (wg : Nat) (gang : Bool) : Statement (.barRelease wg gang) := Or.inl rfl

theorem pipeEntryAvailable (cluster : Nat) (pipe : Nat) : Statement (.pipeEntryAvailable cluster pipe) := Or.inl rfl

theorem waitcWake (w : WRef) : Statement (.waitcWake w) := Or.inl rfl

theorem remoteCounterPoll (w : WRef) : Statement (.remoteCounterPoll w) := Or.inl rfl

theorem sleepExpire (w : WRef) : Statement (.sleepExpire w) := Or.inl rfl

theorem convoyReevaluate (die : Nat) (slot : Nat) : Statement (.convoyReevaluate die slot) := Or.inl rfl

theorem patienceExpiry (w : WRef) : Statement (.patienceExpiry w) := Or.inl rfl

theorem mergePointRead (tile : Nat) (line : Nat) : Statement (.mergePointRead tile line) := Or.inl rfl

theorem mergePointWrite (line : Nat) (mask : BitVec 128) (data : BitVec 1024) : Statement (.mergePointWrite line mask data) := Or.inl rfl

theorem dramReturn (line : Nat) : Statement (.dramReturn line) := Or.inl rfl

theorem atomicUnitRequest (pa : Nat) (op : BitVec 4) (size : Nat) (v : BitVec 64) : Statement (.atomicUnitRequest pa op size v) := Or.inl rfl

theorem remoteWriteAck (w : WRef) : Statement (.remoteWriteAck w) := Or.inl rfl

theorem pageWalkStart (cluster : Nat) (asid : Nat) (vpn : Nat) (acc : Nat) : Statement (.pageWalkStart cluster asid vpn acc) := Or.inl rfl

theorem pageWalkEnd (cluster : Nat) (asid : Nat) (vpn : Nat) : Statement (.pageWalkEnd cluster asid vpn) := Or.inl rfl

theorem translationInvalidate (asid : Nat) : Statement (.translationInvalidate asid) := Or.inl rfl

theorem publishExchange (w : WRef) : Statement (.publishExchange w) := Or.inl rfl

theorem fabricInboundRequest (src : Nat) (kind : Nat) (pa : Nat) (size : Nat) (op : BitVec 4) (v : LineBytes) :
    Statement (.fabricInboundRequest src kind pa size op v) := Or.inl rfl

theorem fabricCompletion (w : WRef) (lane : Nat) (status : Nat) (va : Nat) : Statement (.fabricCompletion w lane status va) := Or.inl rfl

theorem hostAccess (bar : Nat) (off : Nat) (write : Bool) (v : BitVec 64) : Statement (.hostAccess bar off write v) := Or.inl rfl

theorem linkCrcError (port : Bool) (n : Nat) (lasting : Bool) : Statement (.linkCrcError port n lasting) := Or.inl rfl

theorem portTrainingLoss (port : Nat) : Statement (.portTrainingLoss port) := Or.inl rfl

theorem sramParityError (tile : Nat) (kind : Nat) (line : Nat) (lasting : Bool) : Statement (.sramParityError tile kind line lasting) := Or.inl rfl

theorem eccError (pa : Nat) (double : Bool) (lasting : Bool) : Statement (.eccError pa double lasting) := Or.inl rfl

theorem linkOccupancyWindow (cluster : Nat) (flits : Nat) : Statement (.linkOccupancyWindow cluster flits) := Or.inl rfl

theorem linkWidthHandshakeEnd (cluster : Nat) : Statement (.linkWidthHandshakeEnd cluster) := Or.inl rfl

theorem doorbell (slot : Nat) (queue : Nat) (v : BitVec 64) : Statement (.doorbell slot queue v) := Or.inl rfl

theorem launchPacket (slot : Nat) (queue : Nat) : Statement (.launchPacket slot queue) := Or.inl rfl

theorem fencePacket (slot : Nat) (queue : Nat) : Statement (.fencePacket slot queue) := Or.inl rfl

theorem fenceConditionTest (slot : Nat) (queue : Nat) (cond : Nat) : Statement (.fenceConditionTest slot queue cond) := Or.inl rfl

theorem signalPacket (slot : Nat) (queue : Nat) : Statement (.signalPacket slot queue) := Or.inl rfl

theorem cancelPacket (slot : Nat) (queue : Nat) : Statement (.cancelPacket slot queue) := Or.inl rfl

theorem graphOpen (slot : Nat) (queue : Nat) : Statement (.graphOpen slot queue) := Or.inl rfl

theorem graphClose (slot : Nat) (queue : Nat) : Statement (.graphClose slot queue) := Or.inl rfl

theorem phaseOpen (slot : Nat) (queue : Nat) : Statement (.phaseOpen slot queue) := Or.inl rfl

theorem phaseClose (slot : Nat) (queue : Nat) : Statement (.phaseClose slot queue) := Or.inl rfl

theorem jobOpen (slot : Nat) (queue : Nat) : Statement (.jobOpen slot queue) := Or.inl rfl

theorem jobClose (slot : Nat) (queue : Nat) : Statement (.jobClose slot queue) := Or.inl rfl

theorem dispatchRound (die : Nat) : Statement (.dispatchRound die) := Or.inl rfl

theorem gangReservation (die : Nat) : Statement (.gangReservation die) := Or.inl rfl

theorem eprioUpdate (slot : Nat) : Statement (.eprioUpdate slot) := Or.inl rfl

theorem bandwidthWindow (resource : Nat) : Statement (.bandwidthWindow resource) := Or.inl rfl

theorem workgroupEnd (wg : Nat) : Statement (.workgroupEnd wg) := Or.inl rfl

theorem workgroupSwitchOut (wg : Nat) : Statement (.workgroupSwitchOut wg) := Or.inl rfl

theorem workgroupRestore (wg : Nat) : Statement (.workgroupRestore wg) := Or.inl rfl

theorem preemptTimeout (wg : Nat) : Statement (.preemptTimeout wg) := Or.inl rfl

theorem cancelTimeout (wg : Nat) : Statement (.cancelTimeout wg) := Or.inl rfl

theorem rotationInterval (cluster : Nat) (temps : List Nat) : Statement (.rotationInterval cluster temps) := Or.inl rfl

theorem swapQuiesceEnd (cluster : Nat) : Statement (.swapQuiesceEnd cluster) := Or.inl rfl

theorem swapQuiesceTimeout (cluster : Nat) : Statement (.swapQuiesceTimeout cluster) := Or.inl rfl

theorem swapTransferEnd (cluster : Nat) : Statement (.swapTransferEnd cluster) := Or.inl rfl

theorem swapWritebackEnd (cluster : Nat) : Statement (.swapWritebackEnd cluster) := Or.inl rfl

theorem swapEnd (cluster : Nat) : Statement (.swapEnd cluster) := Or.inl rfl

theorem clockLockDone (cluster : Nat) : Statement (.clockLockDone cluster) := Or.inl rfl

theorem voltageTargetReached (pair : Nat) : Statement (.voltageTargetReached pair) := Or.inl rfl

theorem balanceSample (pair : Nat) (ieven : Nat) (iodd : Nat) : Statement (.balanceSample pair ieven iodd) := Or.inl rfl

theorem powerSample (die : Nat) (power : Nat) (draws : List Nat) : Statement (.powerSample die power draws) := Or.inl rfl

theorem hardClamp (die : Nat) (power : Nat) : Statement (.hardClamp die power) := Or.inl rfl

theorem stallWindow (cluster stalled held : Nat) : Statement (.stallWindow cluster stalled held) := Or.inl rfl

theorem gatingIdleExpiry (pair : Nat) : Statement (.gatingIdleExpiry pair) := Or.inl rfl

theorem gatingDone (pair : Nat) : Statement (.gatingDone pair) := Or.inl rfl

theorem pairWakeDone (pair : Nat) : Statement (.pairWakeDone pair) := Or.inl rfl

theorem rendezvousPost (id : Nat) : Statement (.rendezvousPost id) := Or.inl rfl

theorem pullRequest (id : Nat) (suffix : Bool) (seg : Nat) : Statement (.pullRequest id suffix seg) := Or.inl rfl

theorem pullData (id : Nat) (suffix : Bool) (seg : Nat) : Statement (.pullData id suffix seg) := Or.inl rfl

theorem flagUnion (id : Nat) : Statement (.flagUnion id) := Or.inl rfl

theorem powerOn (straps : BitVec 64) : Statement (.powerOn straps) := Or.inl rfl

theorem bootStage1 : Statement .bootStage1 := Or.inl rfl

theorem bootStage2 : Statement .bootStage2 := Or.inl rfl

theorem attestationReport (nonce : BitVec 256) : Statement (.attestationReport nonce) := Or.inl rfl

theorem mctpRequest : Statement .mctpRequest := Or.inl rfl

theorem faultRingHeadWrite (v : BitVec 64) : Statement (.faultRingHeadWrite v) := Or.inl rfl

theorem faultRingReply (v : BitVec 64) : Statement (.faultRingReply v) := Or.inl rfl

theorem contextSlotWrite (slot : Nat) (off : Nat) (v : BitVec 64) : Statement (.contextSlotWrite slot off v) := Or.inl rfl

theorem wcbPreempt (slot : Nat) (handle : Nat) (wgix : Nat) : Statement (.wcbPreempt slot handle wgix) := Or.inl rfl

theorem wcbPreemptGang (slot : Nat) (handle : Nat) (wgix : Nat) : Statement (.wcbPreemptGang slot handle wgix) := Or.inl rfl

theorem wcbRestore (slot : Nat) (handle : Nat) (wgix : Nat) : Statement (.wcbRestore slot handle wgix) := Or.inl rfl

theorem wcbEnd (slot : Nat) (handle : Nat) (wgix : Nat) : Statement (.wcbEnd slot handle wgix) := Or.inl rfl

theorem queueDescriptorWrite (slot : Nat) (queue : Nat) (word : Nat) (v : BitVec 64) : Statement (.queueDescriptorWrite slot queue word v) := Or.inl rfl

theorem pipeDescriptorWrite (cluster : Nat) (pipe : Nat) (word : Nat) (v : BitVec 64) : Statement (.pipeDescriptorWrite cluster pipe word v) := Or.inl rfl

theorem convoySlotWrite (die : Nat) (slot : Nat) (v : BitVec 64) : Statement (.convoySlotWrite die slot v) := Or.inl rfl

theorem rotctlWrite (cluster : Nat) (v : BitVec 64) : Statement (.rotctlWrite cluster v) := Or.inl rfl

theorem pairpwrWrite (pair : Nat) (v : BitVec 64) : Statement (.pairpwrWrite pair v) := Or.inl rfl

theorem diepwrWrite (die : Nat) (v : BitVec 64) : Statement (.diepwrWrite die v) := Or.inl rfl

theorem perfMonitorClear (cluster : Nat) (k : Nat) : Statement (.perfMonitorClear cluster k) := Or.inl rfl

theorem inboundWindowWrite (entry : Nat) (word : Nat) (v : BitVec 64) : Statement (.inboundWindowWrite entry word v) := Or.inl rfl

theorem monitorRegisterWrite (addr : Nat) (v : BitVec 64) : Statement (.monitorRegisterWrite addr v) := Or.inl rfl

theorem illegalInstruction (word : Word) : Statement (.illegalInstruction word) := Or.inr (Or.inl ⟨_, rfl⟩)

theorem instructionFetchFault (va : Nat) : Statement (.instructionFetchFault va) := Or.inr (Or.inr ⟨_, rfl⟩)

theorem writeAcknowledgement (tile : Nat) (line : Nat) : Statement (.writeAcknowledgement tile line) := Or.inl rfl

theorem linkCongestion (cluster : Nat) : Statement (.linkCongestion cluster) := Or.inl rfl

theorem managementCoreStore (pa : Nat) (size : Nat) (v : BitVec 64) : Statement (.managementCoreStore pa size v) := Or.inl rfl

end Sys2Proof.Laws.EncodeDecode
end

