-- ==== Sys2Proof/Certificates/Slice0/Obligations.lean ====
section
/-! DEFINITION. The statements about the machine, and the terms they are stated in. -/

namespace Sys2Proof.Claims

open Sys2Proof.Machine

/-! ### Terms -/

/-- From the machine s₀, warp r of workgroup g issues the word i, whose fields, registers and flag are legal; w is the warp with
every granule present that i names under the mask, and s the machine once the absent ones have been read from memory: s₀ itself
where none is absent (R44, R45, R68, R288). The warp has not ended. -/
structure Issues (s₀ s : State) (i : Instr) (m : Warp → Mask) (r : WRef) (g : Workgroup) (w : Warp) : Prop where
  word : ∃ w0, s₀.current = some (r, g, w0) ∧ (legal i && allocOk w0 i && flagChosen w0 i) = true ∧
    s = fillReads s₀ g r.wp w0 (m w0) i ∧ fillNamed s g r.wp w0 (m w0) i = (w, true)
  lives : w.c.ended = false

/-- The warp at the next word after it retired (R52). -/
def goneOn (n : Nat) (w : Warp) : Warp :=
  { w.advance with lastIssue := n, nones := [], farFails := [], c := { w.advance.c with wait := .none } }

/-- The warp where its instruction moved it, after it retired (R57). -/
def goneTo (n : Nat) (w : Warp) : Warp := { w with lastIssue := n, nones := [], farFails := [], c := { w.c with wait := .none } }

/-- The machine with one warp changed and its place in the order of issue taken: everything else, every byte of memory among
it, is as before. -/
def retiredAs (s : State) (r : WRef) (u : Warp) : State := ({ s with issues := s.issues + 1 } : State).setWarp r u

/-- The instruction retires, sd holds x, and no other register, mask, flag or byte changes. -/
def WritesS (s₀ s : State) (i : Instr) (r : WRef) (w : Warp) (d : BitVec 6) (x : Reg) : Prop :=
  ∃ u, exec i s₀ = .next (retiredAs s r u) ∧ u.sget d.toNat = x ∧ (∀ k, k ≠ d.toNat → u.sget k = w.sget k) ∧
    u = { goneOn s.issues w with r := { w.r with s := u.r.s } }

/-- The active mask, under which a uniform instruction names its registers. -/
abbrev act (w : Warp) : Mask := w.active

end Sys2Proof.Claims

open Sys2Proof Sys2Proof.Machine Sys2Proof.Claims

/-! ### Uniform instructions -/

/-- SADD, SSUB and SMUL write the wrapped result to sd, SMULH and SMULH.U the high half of the product, and nothing else
changes (R156). -/
def Obligations.UniformArithmetic : Prop := ∀ (s₀ s : State) (r : WRef) (g : Workgroup) (w : Warp) (d a b : BitVec 6),
  let x := w.sget a.toNat
  let y := w.sget b.toNat
  (Issues s₀ s (.sadd d a b) act r g w → WritesS s₀ s (.sadd d a b) r w d (BitVec.ofNat 64 (x.toNat + y.toNat))) ∧
  (Issues s₀ s (.ssub d a b) act r g w → WritesS s₀ s (.ssub d a b) r w d (BitVec.ofInt 64 ((x.toNat : Int) - y.toNat))) ∧
  (Issues s₀ s (.smul d a b) act r g w → WritesS s₀ s (.smul d a b) r w d (BitVec.ofNat 64 (x.toNat * y.toNat))) ∧
  (Issues s₀ s (.smulh d a b) act r g w → ∃ (z : Reg) (low : Nat), low < 2 ^ 64 ∧ x.toInt * y.toInt = z.toInt * 2 ^ 64 + low ∧
    WritesS s₀ s (.smulh d a b) r w d z) ∧
  (Issues s₀ s (.smulhU d a b) act r g w → ∃ (z : Reg) (low : Nat), low < 2 ^ 64 ∧ x.toNat * y.toNat = z.toNat * 2 ^ 64 + low ∧
    WritesS s₀ s (.smulhU d a b) r w d z)

/-- Division rounds toward zero and the remainder has the dividend's sign, signed and unsigned; by zero the quotient is all
ones and the remainder the dividend, and -2^63 divided by -1 gives -2^63 and 0; division never traps (R157). -/
def Obligations.UniformDivision : Prop := ∀ (s₀ s : State) (r : WRef) (g : Workgroup) (w : Warp) (d a b : BitVec 6),
  let x := w.sget a.toNat
  let y := w.sget b.toNat
  (Issues s₀ s (.sdiv d a b) act r g w → Issues s₀ s (.srem d a b) act r g w → ∃ q m : Reg,
    WritesS s₀ s (.sdiv d a b) r w d q ∧ WritesS s₀ s (.srem d a b) r w d m ∧
    (y = 0 → q = BitVec.allOnes 64 ∧ m = x) ∧
    (x = BitVec.intMin 64 → y = BitVec.allOnes 64 → q = BitVec.intMin 64 ∧ m = 0) ∧
    (y ≠ 0 → ¬ (x = BitVec.intMin 64 ∧ y = BitVec.allOnes 64) → x.toInt = q.toInt * y.toInt + m.toInt ∧
      m.toInt.natAbs < y.toInt.natAbs ∧ (0 ≤ x.toInt → 0 ≤ m.toInt) ∧ (x.toInt ≤ 0 → m.toInt ≤ 0))) ∧
  (Issues s₀ s (.sdivU d a b) act r g w → Issues s₀ s (.sremU d a b) act r g w → ∃ q m : Reg,
    WritesS s₀ s (.sdivU d a b) r w d q ∧ WritesS s₀ s (.sremU d a b) r w d m ∧
    (y = 0 → q = BitVec.allOnes 64 ∧ m = x) ∧
    (y ≠ 0 → x.toNat = q.toNat * y.toNat + m.toNat ∧ m.toNat < y.toNat))

/-- The bitwise, shift, minimum, maximum, select, move and compare forms write sd as R156 gives, shifts by the whole of sb. -/
def Sys2Proof.Claims.uniformLogic : Prop := ∀ (s₀ s : State) (r : WRef) (g : Workgroup) (w : Warp) (d a b : BitVec 6) (c : BitVec 4),
  let x := w.sget a.toNat
  let y := w.sget b.toNat
  (Issues s₀ s (.sand d a b) act r g w → WritesS s₀ s (.sand d a b) r w d (x &&& y)) ∧
  (Issues s₀ s (.sor d a b) act r g w → WritesS s₀ s (.sor d a b) r w d (x ||| y)) ∧
  (Issues s₀ s (.sxor d a b) act r g w → WritesS s₀ s (.sxor d a b) r w d (x ^^^ y)) ∧
  (Issues s₀ s (.snot d a) act r g w → WritesS s₀ s (.snot d a) r w d (~~~x)) ∧
  (Issues s₀ s (.sshl d a b) act r g w → WritesS s₀ s (.sshl d a b) r w d (x <<< y.toNat)) ∧
  (Issues s₀ s (.sshr d a b) act r g w → WritesS s₀ s (.sshr d a b) r w d (x >>> y.toNat)) ∧
  (Issues s₀ s (.ssar d a b) act r g w → WritesS s₀ s (.ssar d a b) r w d (x.sshiftRight y.toNat)) ∧
  (Issues s₀ s (.smin d a b) act r g w → WritesS s₀ s (.smin d a b) r w d (BitVec.ofInt 64 (min x.toInt y.toInt))) ∧
  (Issues s₀ s (.smax d a b) act r g w → WritesS s₀ s (.smax d a b) r w d (BitVec.ofInt 64 (max x.toInt y.toInt))) ∧
  (Issues s₀ s (.sminU d a b) act r g w → WritesS s₀ s (.sminU d a b) r w d (BitVec.ofNat 64 (min x.toNat y.toNat))) ∧
  (Issues s₀ s (.smaxU d a b) act r g w → WritesS s₀ s (.smaxU d a b) r w d (BitVec.ofNat 64 (max x.toNat y.toNat))) ∧
  (Issues s₀ s (.ssel d a b) act r g w → WritesS s₀ s (.ssel d a b) r w d (if w.sget d.toNat = 0 then y else x)) ∧
  (Issues s₀ s (.smov d a) act r g w → WritesS s₀ s (.smov d a) r w d x) ∧
  (Issues s₀ s (.scmp d a b c) act r g w → ∃ z : Reg, WritesS s₀ s (.scmp d a b c) r w d z ∧ (z = 0 ∨ z = 1) ∧
    (c = 0 → (z = 1 ↔ x = y)) ∧ (c = 1 → (z = 1 ↔ x ≠ y)) ∧
    (c = 2 → (z = 1 ↔ x.toInt < y.toInt)) ∧ (c = 3 → (z = 1 ↔ x.toInt ≤ y.toInt)) ∧
    (c = 4 → (z = 1 ↔ y.toInt < x.toInt)) ∧ (c = 5 → (z = 1 ↔ y.toInt ≤ x.toInt)) ∧
    (c = 6 → (z = 1 ↔ x.toNat < y.toNat)) ∧ (c = 7 → (z = 1 ↔ x.toNat ≤ y.toNat)) ∧
    (c = 8 → (z = 1 ↔ y.toNat < x.toNat)) ∧ (c = 9 → (z = 1 ↔ y.toNat ≤ x.toNat)))

/-- The immediate forms read their immediate signed, for shifts unsigned, and write sd; SMOVI writes its immediate
sign-extended (R158, R159). -/
def Sys2Proof.Claims.uniformImmediates : Prop := ∀ (s₀ s : State) (r : WRef) (g : Workgroup) (w : Warp) (d a : BitVec 6)
    (i : BitVec 12) (j : BitVec 18),
  let x := w.sget a.toNat
  (Issues s₀ s (.smovi d j) act r g w → WritesS s₀ s (.smovi d j) r w d (BitVec.ofInt 64 j.toInt)) ∧
  (Issues s₀ s (.saddImm d a i) act r g w → WritesS s₀ s (.saddImm d a i) r w d (BitVec.ofInt 64 (x.toInt + i.toInt))) ∧
  (Issues s₀ s (.sandImm d a i) act r g w → WritesS s₀ s (.sandImm d a i) r w d (x &&& BitVec.ofInt 64 i.toInt)) ∧
  (Issues s₀ s (.sorImm d a i) act r g w → WritesS s₀ s (.sorImm d a i) r w d (x ||| BitVec.ofInt 64 i.toInt)) ∧
  (Issues s₀ s (.sxorImm d a i) act r g w → WritesS s₀ s (.sxorImm d a i) r w d (x ^^^ BitVec.ofInt 64 i.toInt)) ∧
  (Issues s₀ s (.sshlImm d a i) act r g w → WritesS s₀ s (.sshlImm d a i) r w d (x <<< i.toNat)) ∧
  (Issues s₀ s (.sshrImm d a i) act r g w → WritesS s₀ s (.sshrImm d a i) r w d (x >>> i.toNat)) ∧
  (Issues s₀ s (.ssarImm d a i) act r g w → WritesS s₀ s (.ssarImm d a i) r w d (x.sshiftRight i.toNat))

/-- The bitwise, shift, minimum, select, move and compare forms, and the immediate forms, each write sd alone (R156, R158, R159). -/
def Obligations.UniformLogicAndImmediates : Prop := Sys2Proof.Claims.uniformLogic ∧ Sys2Proof.Claims.uniformImmediates

/-- SLANE copies lane k of a direct register, 0 of vz and k of vl, whatever the mask; SPRED moves masks, p0 reading as all
ones; SRD writes a special register's value; XWIN sets the window or traps (R160, R161, R179, R271). -/
def Obligations.UniformMoves : Prop := ∀ (s₀ s : State) (r : WRef) (g : Workgroup) (w : Warp) (d a n : BitVec 6) (v : BitVec 7)
    (l : BitVec 5) (k : BitVec 3),
  let x := w.sget a.toNat
  (Issues s₀ s (.slane d v l) act r g w → ∃ z : Reg, WritesS s₀ s (.slane d v l) r w d z ∧
    (v.toNat < 112 → z = laneOf (w.vget v.toNat).lanes l.toNat) ∧ (v = 124 → z = 0) ∧ (v = 125 → z = BitVec.ofNat 64 l.toNat)) ∧
  (Issues s₀ s (.spredGet d k) act r g w → ∃ z : Reg, WritesS s₀ s (.spredGet d k) r w d z ∧
    (k = 0 → z = 0xFFFFFFFF#64) ∧ (k ≠ 0 → z = (w.pget k.toNat).setWidth 64)) ∧
  (Issues s₀ s (.spredAct d) act r g w → WritesS s₀ s (.spredAct d) r w d (w.active.setWidth 64)) ∧
  (Issues s₀ s (.spredSet a k) act r g w → ∃ u, exec (.spredSet a k) s₀ = .next (retiredAs s r u) ∧
    u.pget k.toNat = x.setWidth 32 ∧ (∀ j, j ≠ k.toNat → u.pget j = w.pget j) ∧
    u = { goneOn s.issues w with r := { w.r with p := u.r.p } }) ∧
  (Issues s₀ s (.srd d n) act r g w →
    WritesS s₀ s (.srd d n) r w d (specialRead (s.setWarp r w) r (g.setWarp r.wp w) w n.toNat 0)) ∧
  (Issues s₀ s (.xwin a) act r g w →
    (fieldOf x 16 48 = 0 → 0 < fieldOf x 8 8 → fieldOf x 0 8 + fieldOf x 8 8 ≤ w.r.alloc →
      exec (.xwin a) s₀ = .next (retiredAs s r (goneOn s.issues { w with r := { w.r with winBase := fieldOf x 0 8, winLen := fieldOf x 8 8 } }))) ∧
    (fieldOf x 16 48 ≠ 0 ∨ fieldOf x 8 8 = 0 ∨ w.r.alloc < fieldOf x 0 8 + fieldOf x 8 8 →
      exec (.xwin a) s₀ = .next (preciseTrap ((s.setWarp r w).setWarp r w) r w 0x01)))

/-! ### Control -/

namespace Sys2Proof.Claims

/-- The instruction retires and its warp is u; nothing else of the machine changes. -/
def RetiresAs (s₀ s : State) (i : Instr) (r : WRef) (u : Warp) : Prop := exec i s₀ = .next (retiredAs s r u)

/-- The instruction takes the precise trap of a cause code, with no effect of its own. -/
def TrapsWith (s₀ s : State) (i : Instr) (r : WRef) (w : Warp) (code : Nat) : Prop :=
  exec i s₀ = .next (preciseTrap ((s.setWarp r w).setWarp r w) r w code)

/-- Where it does not stand last in its clause, the instruction takes the illegal-instruction trap, with no effect before it, a fill of a
register among them (R57). -/
def LastOrTraps (i : Instr) : Prop := ∀ (s : State) (r : WRef) (g : Workgroup) (w : Warp), s.current = some (r, g, w) →
  w.c.pos.idx ≠ w.c.pos.cl.len → exec i s = .next (preciseTrap s r w 0x01)

/-- Where the fall-through at word address e comes to rest and with how many frames, from d of them: the innermost that ends at e counts
down and runs again while its count is not 0, and goes at 0, when the next one may end there too (R174). -/
def bodyEnd (w : Warp) (e : Nat) : Nat → Nat × Nat
  | 0 => (0, e)
  | d + 1 =>
    match Table.find w.c.frames d with
    | none => (d + 1, e)
    | some f =>
      if f.start + 4 * f.len ≠ e then (d + 1, e)
      else if (Table.get w.c.lc 0 d + (2 ^ 32 - 1)) % 2 ^ 32 ≠ 0 then (d + 1, f.start)
      else bodyEnd w e d

end Sys2Proof.Claims

/-- NOP takes one issue slot of pipe U and has no other effect; a word of its major with any other body is no instruction
(R165). -/
def Obligations.NopDoesNothing : Prop :=
  (∀ (s₀ s : State) (r : WRef) (g : Workgroup) (w : Warp), Issues s₀ s .nop act r g w → RetiresAs s₀ s .nop r (goneOn s.issues w)) ∧
  (∀ pipe : Nat, fitsPipe pipe (some (!(0x98000000#32).getLsbD 31)) = true ↔ 2 ≤ pipe) ∧
  (∀ body : BitVec 24, decode (0x98#8 ++ body) = if body = 0 then some .nop else none)

/-- BRA, BRAS and CALL go to the word at the instruction's address plus 4 times the signed offset, RET to its register's word
address; a branch not taken goes on; CALL leaves the address of the next word in sd. Each stands last in its clause or takes
the illegal-instruction trap, as RET does to an address that is none (R57, R58, R163, R164). -/
def Obligations.Transfers : Prop := ∀ (s₀ s : State) (r : WRef) (g : Workgroup) (w : Warp) (d a : BitVec 6) (o : BitVec 24)
    (b : BitVec 17) (c : BitVec 18),
  let dest := fun (k : Int) => (BitVec.ofInt 64 ((w.pcOf : Int) + 4 * k)).toNat
  let x := w.sget d.toNat
  let v := (w.sget a.toNat).toNat
  let last := w.c.pos.idx = w.c.pos.cl.len
  (Issues s₀ s (.bra o) act r g w → last → RetiresAs s₀ s (.bra o) r (goneTo s.issues (w.transfer (dest o.toInt)))) ∧
  (Issues s₀ s (.brasNz d b) act r g w → last →
    RetiresAs s₀ s (.brasNz d b) r (if x = 0 then goneOn s.issues w else goneTo s.issues (w.transfer (dest b.toInt)))) ∧
  (Issues s₀ s (.brasZ d b) act r g w → last →
    RetiresAs s₀ s (.brasZ d b) r (if x = 0 then goneTo s.issues (w.transfer (dest b.toInt)) else goneOn s.issues w)) ∧
  (Issues s₀ s (.call d c) act r g w → last → RetiresAs s₀ s (.call d c) r
    (goneTo s.issues ((w.sset d.toNat (BitVec.ofNat 64 (w.pcOf + 4))).transfer (dest c.toInt)))) ∧
  (Issues s₀ s (.ret a) act r g w → last → v % 4 = 0 → v < 2 ^ 48 →
    RetiresAs s₀ s (.ret a) r (goneTo s.issues (w.transfer v))) ∧
  (Issues s₀ s (.ret a) act r g w → last → (v % 4 ≠ 0 ∨ 2 ^ 48 ≤ v) → TrapsWith s₀ s (.ret a) r w 0x01) ∧
  (LastOrTraps (.bra o) ∧ LastOrTraps (.brasNz d b) ∧ LastOrTraps (.brasZ d b) ∧ LastOrTraps (.call d c) ∧ LastOrTraps (.ret a)) ∧
  (∀ k : Nat, (w.transfer k).c.pos = ⟨k, 0, .target, .none⟩ ∧
    w.transfer k = { w with c := { w.c with pos := (w.transfer k).c.pos, depth := (w.transfer k).c.depth } } ∧
    (w.c.depth = 0 → (w.transfer k).c.depth = 0))

/-- MARK pushes a rejoin entry with the active mask, and BR splits it: with lanes on both sides it runs the taken ones at the
target and keeps the others for the next word, the top path entry giving way; a push onto a full stack takes the
divergence-overflow trap (R34, R167, R168). -/
def Sys2Proof.Claims.divergenceSplit : Prop := ∀ (s₀ s : State) (r : WRef) (g : Workgroup) (w : Warp) (o : BitVec 24)
    (p : BitVec 3) (n : BitVec 1) (b : BitVec 20),
  let dest := fun (k : Int) => (BitVec.ofInt 64 ((w.pcOf : Int) + 4 * k)).toNat
  let st := w.c.stack
  let push := fun (st' : List StackEntry) => ({ w with c := { w.c with stack := st' } } : Warp)
  let taken := w.active &&& (if n = 0 then w.pget p.toNat else ~~~(w.pget p.toNat))
  let left := w.active &&& ~~~taken
  let isPath := match st with | e :: _ => e.path | [] => false
  (Issues s₀ s (.mark o) act r g w →
    (st.length < 32 → RetiresAs s₀ s (.mark o) r (goneOn s.issues (push (⟨false, dest o.toInt, w.active⟩ :: st)))) ∧
    (32 ≤ st.length → TrapsWith s₀ s (.mark o) r w 0x0B)) ∧
  (Issues s₀ s (.br p n b) act r g w → w.c.pos.idx = w.c.pos.cl.len →
    (taken = 0 → RetiresAs s₀ s (.br p n b) r (goneOn s.issues w)) ∧
    (taken ≠ 0 → left = 0 → RetiresAs s₀ s (.br p n b) r (goneTo s.issues (w.transfer (dest b.toInt)))) ∧
    (taken ≠ 0 → left ≠ 0 → st.length + (if isPath then 1 else 2) ≤ 32 → RetiresAs s₀ s (.br p n b) r (goneTo s.issues
      ((push (⟨true, dest b.toInt, taken⟩ :: ⟨true, w.pcOf + 4, left⟩ :: (if isPath then st.tail else st))).transfer
        (dest b.toInt)))) ∧
    (taken ≠ 0 → left ≠ 0 → 32 < st.length + (if isPath then 1 else 2) → TrapsWith s₀ s (.br p n b) r w 0x0B)) ∧
  LastOrTraps (.br p n b)

/-- JOIN drops the path that ends and the paths without live lanes; a path left on top runs next, a rejoin entry for this
clause header is popped and its lanes go on together, another one takes the join trap. EXIT takes the active lanes out; with
no stack the warp ends (R169-R171). That JOIN does the same at every index of its clause, and compares a rejoin entry with the
clause's header, is the model's reading (DEDUCED, log entry 8). Where EXIT leads with a stack is not stated. -/
def Sys2Proof.Claims.divergenceJoin : Prop := ∀ (s₀ s : State) (r : WRef) (g : Workgroup) (w : Warp),
  let live := fun (e : StackEntry) => decide (e.mask &&& ~~~w.c.exited &&& ~~~w.c.fmask ≠ 0)
  let push := fun (st' : List StackEntry) => ({ w with c := { w.c with stack := st' } } : Warp)
  let ends := fun (i : Instr) (u : Warp) (moved : Bool) =>
    exec i s₀ = .next (retire (s.setWarp r w) r (g.setWarp r.wp w) w u moved)
  (Issues s₀ s .join act r g w →
    (w.c.stack = [] → RetiresAs s₀ s .join r (goneOn s.issues w)) ∧
    (∀ (e : StackEntry) (rest : List StackEntry), w.c.stack = e :: rest →
      let kept := popDead live (if e.path then rest else e :: rest)
      (kept = [] → ends .join (push []) false) ∧
      (∀ t tl, kept = t :: tl →
        (t.path = true → ends .join ((push kept).transfer t.addr) true) ∧
        (t.path = false → t.addr = w.c.pos.hdr → ends .join (push tl) false) ∧
        (t.path = false → t.addr ≠ w.c.pos.hdr → TrapsWith s₀ s .join r w 0x0C)))) ∧
  (Issues s₀ s .exit act r g w →
    (w.c.pos.idx = w.c.pos.cl.len → ∃ u, ends .exit u true ∧ u.c.exited = w.c.exited ||| w.active ∧ u.r = w.r ∧ u.sp = w.sp ∧
      (w.c.stack = [] → u.c.ended = true))) ∧
  LastOrTraps .exit

/-- What MARK, BR, JOIN and EXIT do to the divergence stack and to the lanes of a warp (R34-R36, R166-R172; JOIN at any index: log entry 8). -/
def Obligations.Divergence : Prop := Sys2Proof.Claims.divergenceSplit ∧ Sys2Proof.Claims.divergenceJoin

/-- LOOP with a count runs its body from the next word under a new frame, without one goes to the body's end, and out of its
nesting order takes the illegal-instruction trap; at a body's end the count goes down and the body runs again until it is 0,
when the frame goes, and an enclosing frame whose body ends at the same word counts down in turn (R173, R174). A count of 0 wraps,
which is the model's choice (log entry 48). -/
def Obligations.Loops : Prop := ∀ (s₀ s : State) (r : WRef) (g : Workgroup) (w : Warp) (a : BitVec 6) (n : BitVec 2)
    (l : BitVec 9),
  let i := Instr.loop a n l
  let start := w.pcOf + 4
  let count := fieldOf (w.sget a.toNat) 0 32
  let inner := match w.frame with | none => True | some f => f.start ≤ start ∧ start + 4 * l.toNat ≤ f.start + 4 * f.len
  let counted := ({ w with c := { w.c with lc := Table.set w.c.lc n.toNat count } } : Warp)
  (Issues s₀ s i act r g w → w.c.pos.idx = w.c.pos.cl.len → n.toNat = w.c.depth → inner →
    (count = 0 → RetiresAs s₀ s i r (goneTo s.issues (counted.toEnd (start + 4 * l.toNat)))) ∧
    (count ≠ 0 → ∃ u, RetiresAs s₀ s i r u ∧ u.c.pos = ⟨start, 0, .target, .none⟩ ∧ u.c.depth = w.c.depth + 1 ∧
      u.frame = some ⟨start, l.toNat⟩ ∧ Table.get u.c.lc 0 n.toNat = count ∧ u.r = w.r ∧ u.c.stack = w.c.stack)) ∧
  (Issues s₀ s i act r g w → w.c.pos.idx = w.c.pos.cl.len → (n.toNat ≠ w.c.depth ∨ ¬ inner) → TrapsWith s₀ s i r w 0x01) ∧
  LastOrTraps i ∧
  (∀ (q : WRef) (x : Warp) (f : LoopFrame), s.warp q = some x →
    let k := x.c.depth - 1
    let c := (Table.get x.c.lc 0 k + (2 ^ 32 - 1)) % 2 ^ 32
    (x.c.pos.mode ≠ .fell → exec (.loopFallThrough q) s = .next (s.setWarp q x)) ∧
    (x.c.pos.mode = .fell → x.frame = some f → ∃ y, exec (.loopFallThrough q) s = .next (s.setWarp q y) ∧
      Table.get y.c.lc 0 k = c ∧ y.r = x.r ∧
      (c ≠ 0 → y.c.pos = ⟨f.start, 0, .target, .none⟩ ∧ y.c.depth = x.c.depth) ∧
      (x.c.depth ≤ 4 → y.c.depth = (bodyEnd x (f.start + 4 * f.len) x.c.depth).1 ∧
        y.c.pos = ⟨(bodyEnd x (f.start + 4 * f.len) x.c.depth).2, 0, .target, .none⟩ ∧
        (∀ j, j + 1 < y.c.depth ∨ x.c.depth ≤ j → Table.get y.c.lc 0 j = Table.get x.c.lc 0 j) ∧
        (∀ j, j + 1 = y.c.depth → Table.get y.c.lc 0 j =
          if (Table.find x.c.frames j).any (fun f' => f'.start + 4 * f'.len == f.start + 4 * f.len)
          then (Table.get x.c.lc 0 j + (2 ^ 32 - 1)) % 2 ^ 32 else Table.get x.c.lc 0 j) ∧
        (∀ j, y.c.depth ≤ j → j < x.c.depth → Table.get x.c.lc 0 j % 2 ^ 32 = 1 ∧ Table.get y.c.lc 0 j = 0))))

/-- LDL reads one or two words of code at an aligned offset from its own word, zero-extended; an unaligned address takes the
illegal-instruction trap, an unresolvable fetch gives a fetch record and writes nothing (R164, R177). -/
def Sys2Proof.Claims.literals : Prop := ∀ (s₀ s : State) (r : WRef) (g : Workgroup) (w : Warp) (d : BitVec 6) (o : BitVec 17),
  let va := (BitVec.ofInt 64 ((w.pcOf : Int) + 4 * o.toInt)).toNat
  let s0 := s.setWarp r w
  let g0 := g.setWarp r.wp w
  (Issues s₀ s (.ldlW d o) act r g w → va % 4 = 0 →
    (∀ x s1, fetchWord s0 g0 w va = .word x s1 →
      exec (.ldlW d o) s₀ = .next (retire s1 r g0 w (w.sset d.toNat (x.setWidth 64)) false)) ∧
    (∀ s1, fetchWord s0 g0 w va = .miss s1 → exec (.ldlW d o) s₀ = .next (parkOn s1 r g0 w .fetch [va / 4096])) ∧
    (∀ k s1, fetchWord s0 g0 w va = .fail k s1 →
      exec (.ldlW d o) s₀ = .next (retireWithRecords s1 r g0 w w false [fetchRecord w va w.pcOf k]))) ∧
  (Issues s₀ s (.ldlD d o) act r g w →
    (va % 8 ≠ 0 → exec (.ldlD d o) s₀ = .next (preciseTrap s0 r w 0x01)) ∧
    (∀ x y s1 s2, va % 8 = 0 → fetchWord s0 g0 w va = .word x s1 → fetchWord s1 g0 w (va + 4) = .word y s2 →
      exec (.ldlD d o) s₀ = .next (retire s2 r g0 w (w.sset d.toNat (y ++ x)) false)))

/-- A CLAUSE header reached where a header stands holds its warp until every flag of WAIT is clear and then leads to the word at
the saved index; a POOL header reached in sequence is passed with its words; any other word at a header's place, and a header
among the words of a clause, traps; a fetch that misses parks, and one that fails is a global fault of kind fetch
(R51-R53, R58, R59, R61, R68, R164). That a CLAUSE with illegal fields traps at its own position, and that a word of a header's major
with a nonzero reserved field traps with INDEX 0xFF, is the model's reading (DEDUCED, log entry 14). Headers reached inside a loop
body, and POOL with N = 0, are not stated. -/
def Sys2Proof.Claims.headers : Prop := ∀ (s : State) (r : WRef) (g : Workgroup) (w : Warp), s.current = some (r, g, w) →
  (∀ (f : BitVec 12) (a b : BitVec 4) (l : BitVec 3),
    (w.c.pos.mode ≠ .body → legal (.clause f a b l) = true →
      ((∃ k, k < 12 ∧ f.getLsbD k = true ∧ w.flag k ≠ 0) → exec (.clause f a b l) s = .next s) ∧
      ((∀ k, k < 12 → f.getLsbD k = true → w.flag k = 0) → w.frame = none → w.c.pos.idx ≤ l.toNat →
        exec (.clause f a b l) s = .next (s.setWarp r (w.goto ⟨w.c.pos.hdr, w.c.pos.idx, .body, ⟨f, a, b, l.toNat⟩⟩)))) ∧
    (w.c.pos.mode = .body ∨ legal (.clause f a b l) = false → exec (.clause f a b l) s = .next (preciseTrap s r w 0x01))) ∧
  (∀ n : BitVec 16,
    (w.c.pos.mode = .flow → w.c.pos.idx = 0 → n ≠ 0 → w.frame = none →
      exec (.pool n) s = .next (s.setWarp r (w.goto ⟨w.c.pos.hdr + 4 * (n.toNat + 1), 0, .flow, .none⟩))) ∧
    (w.c.pos.mode = .body → exec (.pool n) s = .next (preciseTrap s r w 0x01)) ∧
    (w.c.pos.mode = .target → exec (.pool n) s = .next (targetTrap s r w))) ∧
  (∀ x : Word,
    (w.c.pos.mode = .body → exec (.illegalInstruction x) s = .next (preciseTrap s r w 0x01)) ∧
    (w.c.pos.mode ≠ .body → x.extractLsb' 24 8 ≠ 0xFF#8 → exec (.illegalInstruction x) s = .next (targetTrap s r w))) ∧
  (∀ va : Nat,
    (∀ s1, nextWord s r g w = .miss s1 → exec (.instructionFetchFault va) s = .next (parkOn s1 r g w .fetch [va / 4096])) ∧
    (∀ k s1, nextWord s r g w = .fail k s1 →
      exec (.instructionFetchFault va) s = .next (takeException s1 r w 0x10 1 [fetchRecord w va va k] none)))

/-- LDL, and the CLAUSE and POOL headers (R51-R53, R58-R61, R162; illegal headers: log entry 14). -/
def Obligations.LiteralsAndHeaders : Prop := Sys2Proof.Claims.literals ∧ Sys2Proof.Claims.headers

/-! ### Lane instructions -/

namespace Sys2Proof.Claims

/-- A lane instruction at its operation (R114): warp r of workgroup g, as it issues with its granules present (w), its
execution mask m, its common tag t, the machine before (s₀) and after (s) its absent granules were read, and the machine (s1) and warp (u) after its streams delivered their values sv, with the
records recs of the elements that failed. -/
structure LaneRun where
  s₀ : State
  s : State
  r : WRef
  g : Workgroup
  w : Warp
  m : Mask
  t : BitVec 5
  s1 : State
  u : Warp
  sv : List StreamVals
  recs : List FaultRec

namespace LaneRun

/-- The lanes whose index lies outside the window (R19). -/
def off (c : LaneRun) (f : LaneForm) : Mask := f.codes.foldl (fun a k => a ||| (opdOf k).offLanes c.w (f.mask c.w)) 0

/-- The instruction of the form f is legal and passes the steps before its operation: its lanes with an index outside the window
are switched off, its tags agree on one that its class accepts, its streams are set (R110, R111, R114). -/
structure Fits (c : LaneRun) (f : LaneForm) (ok : BitVec 5 → Bool) : Prop where
  word : ∃ w0, c.s₀.current = some (c.r, c.g, w0) ∧ (legal f.i && allocOk w0 f.i && flagChosen w0 f.i) = true ∧
    c.s = fillReads c.s₀ c.g c.r.wp w0 (f.mask w0) f.i ∧
    fillNamed c.s c.g c.r.wp w0 (f.mask w0) f.i = (c.w, true)
  lanes : c.m = f.mask c.w &&& ~~~(c.off f)
  tag : f.tag (c.w.switchOff (c.off f)) c.m = .tag c.t
  fits : ok c.t = true
  set : anyUnset (c.w.switchOff (c.off f)) f.streams = false

/-- And its streams deliver: it reaches its operation (R114). -/
structure Reaches (c : LaneRun) (f : LaneForm) (ok : BitVec 5 → Bool) : Prop extends Fits c f ok where
  read : consume (c.s.setWarp c.r c.w) c.r (c.g.setWarp c.r.wp c.w) c.w (c.w.switchOff (c.off f)) c.m f.streams =
    .ok c.s1 c.u c.sv c.recs

/-- The lanes whose stream element failed (R115). -/
def bad (c : LaneRun) : Mask := recordMask c.recs

/-- The width of the sub-elements. -/
def width (c : LaneRun) : Nat := fmtWidth c.t

/-- The bits of an operand in a lane. -/
def val (c : LaneRun) (o : BitVec 7) (l : Nat) : Reg := (opdOf o).val c.u c.sv l

/-- Sub-element j of an operand in a lane: its pattern, and its value under the common tag. -/
def pat (c : LaneRun) (o : BitVec 7) (l j : Nat) : Nat := subEl c.width (c.val o l) j
def num (c : LaneRun) (o : BitVec 7) (l j : Nat) : Int := elVal c.t (c.pat o l j)

/-- Sub-element j of what an L-RRS operand gives to every lane (R112). -/
def patS (c : LaneRun) (b : BitVec 7) (_ j : Nat) : Nat := subEl c.width (splat c.t (rrsValue c.u b)) j
def numS (c : LaneRun) (b : BitVec 7) (l j : Nat) : Int := elVal c.t (c.patS b l j)

/-- The instruction retires with the warp x, and with the records of its streams. -/
def Ends (c : LaneRun) (i : Instr) (x : Warp) : Prop :=
  exec i c.s₀ = .next (retireWithRecords c.s1 c.r (c.g.setWarp c.r.wp c.w) c.w.beforeHold x false c.recs)

/-- It writes d under a tag in the lanes of the execution mask whose elements came, and nothing else; P says what each
sub-element becomes, of the width of that tag. -/
def Writes (c : LaneRun) (i : Instr) (d : BitVec 7) (tag : BitVec 5) (P : Nat → Nat → Nat → Prop) : Prop :=
  ∃ new : Nat → Reg, c.Ends i (writeDst c.u (opdOf d) tag c.m c.bad new) ∧
    ∀ l j, l < 32 → (c.m &&& ~~~c.bad).getLsbD l = true → j < 64 / fmtWidth tag → P l j (subEl (fmtWidth tag) (new l) j)

/-- It writes the low bits of an integer to each sub-element. -/
def WritesInt (c : LaneRun) (i : Instr) (d : BitVec 7) (v : Nat → Nat → Int) : Prop :=
  c.Writes i d c.t (fun l j x => (x : Int) = v l j % 2 ^ c.width)

/-- The range of an integer tag, and a value limited to it (R81, R118). -/
def low (c : LaneRun) : Int := if isSigned c.t then -2 ^ (c.width - 1) else 0
def high (c : LaneRun) : Int := if isSigned c.t then 2 ^ (c.width - 1) - 1 else 2 ^ c.width - 1
def clamp (c : LaneRun) (v : Int) : Int := max c.low (min c.high v)

end LaneRun

/-- The forms of the lane set: one, two and three operands, and the forms with a value V. -/
def form1 (i : Instr) (d a : BitVec 7) (p : BitVec 3) : LaneForm := ⟨i, some p, [d, a], [a], [a], false⟩
def form2 (i : Instr) (d a b : BitVec 7) (p : BitVec 3) : LaneForm := ⟨i, some p, [d, a, b], [a, b], [a, b], false⟩
def form3 (i : Instr) (d a b : BitVec 7) (p : BitVec 3) : LaneForm := ⟨i, some p, [d, a, b], [a, b], [a, b, d], false⟩
def formD (i : Instr) (d a : BitVec 7) (p : BitVec 3) : LaneForm := ⟨i, some p, [d, a], [a], [a, d], false⟩

/-- A form of the cross-lane set: under the active mask, and without effect where an element failed (R136, R139). -/
def formX (i : Instr) (d a : BitVec 7) : LaneForm := ⟨i, none, [d, a], [a], [a], true⟩

end Sys2Proof.Claims

/-- The integer instructions of two and three operands write, in each sub-element, the wrapped or clamped result of exact
arithmetic on the operands' values under the common tag, and keep that tag (R118, R119). -/
def Obligations.LaneIntegers : Prop := ∀ (c : LaneRun) (d a b : BitVec 7) (p : BitVec 3),
  let x := c.num a
  let y := c.num b
  let z := c.num d
  let I := TagClass.I.has
  (c.Reaches (form2 (.vaddRrr d a b p) d a b p) I → c.WritesInt (.vaddRrr d a b p) d (fun l j => x l j + y l j)) ∧
  (c.Reaches (form2 (.vsubRrr d a b p) d a b p) I → c.WritesInt (.vsubRrr d a b p) d (fun l j => x l j - y l j)) ∧
  (c.Reaches (form2 (.vmulRrr d a b p) d a b p) I → c.WritesInt (.vmulRrr d a b p) d (fun l j => x l j * y l j)) ∧
  (c.Reaches (form2 (.vmulh d a b p) d a b p) I → c.WritesInt (.vmulh d a b p) d (fun l j => x l j * y l j / 2 ^ c.width)) ∧
  (c.Reaches (form3 (.vmad d a b p) d a b p) I → c.WritesInt (.vmad d a b p) d (fun l j => x l j * y l j + z l j)) ∧
  (c.Reaches (form2 (.vaddsat d a b p) d a b p) I → c.WritesInt (.vaddsat d a b p) d (fun l j => c.clamp (x l j + y l j))) ∧
  (c.Reaches (form2 (.vsubsat d a b p) d a b p) I → c.WritesInt (.vsubsat d a b p) d (fun l j => c.clamp (x l j - y l j))) ∧
  (c.Reaches (form2 (.vmin d a b p) d a b p) I → c.WritesInt (.vmin d a b p) d (fun l j => min (x l j) (y l j))) ∧
  (c.Reaches (form2 (.vmax d a b p) d a b p) I → c.WritesInt (.vmax d a b p) d (fun l j => max (x l j) (y l j))) ∧
  (c.Reaches (form1 (.vabs d a p) d a p) I → c.WritesInt (.vabs d a p) d (fun l j => |x l j|)) ∧
  (c.Reaches (form1 (.vneg d a p) d a p) I → c.WritesInt (.vneg d a p) d (fun l j => -x l j)) ∧
  (c.Reaches (form3 (.vamin d a b p) d a b p) I →
    c.WritesInt (.vamin d a b p) d (fun l j => c.clamp (min (z l j) (x l j + y l j)))) ∧
  (c.Reaches (form3 (.vamax d a b p) d a b p) I →
    c.WritesInt (.vamax d a b p) d (fun l j => c.clamp (max (z l j) (x l j + y l j)))) ∧
  (c.Reaches (form1 (.vaddRrs d a b p) d a p) I → c.WritesInt (.vaddRrs d a b p) d (fun l j => x l j + c.numS b l j)) ∧
  (c.Reaches (form1 (.vsubRrs d a b p) d a p) I → c.WritesInt (.vsubRrs d a b p) d (fun l j => x l j - c.numS b l j)) ∧
  (c.Reaches (form1 (.vmulRrs d a b p) d a p) I → c.WritesInt (.vmulRrs d a b p) d (fun l j => x l j * c.numS b l j))

/-- The bitwise instructions, counts, reversals and rotations act on the pattern of each sub-element (R118, R119). -/
def Sys2Proof.Claims.laneBits : Prop := ∀ (c : LaneRun) (d a b : BitVec 7) (p : BitVec 3),
  let x := c.pat a
  let y := c.pat b
  let A := TagClass.A.has
  let B := TagClass.B.has
  let bits := fun (i : Instr) (f : Nat → Nat → Nat → Bool) =>
    c.Writes i d c.t (fun l j v => ∀ k, k < c.width → v.testBit k = f l j k)
  (c.Reaches (form2 (.vandRrr d a b p) d a b p) A →
    bits (.vandRrr d a b p) (fun l j k => (x l j).testBit k && (y l j).testBit k)) ∧
  (c.Reaches (form2 (.vorRrr d a b p) d a b p) A →
    bits (.vorRrr d a b p) (fun l j k => (x l j).testBit k || (y l j).testBit k)) ∧
  (c.Reaches (form2 (.vxor d a b p) d a b p) A →
    bits (.vxor d a b p) (fun l j k => (x l j).testBit k ^^ (y l j).testBit k)) ∧
  (c.Reaches (form2 (.vandn d a b p) d a b p) A →
    bits (.vandn d a b p) (fun l j k => (x l j).testBit k && !(y l j).testBit k)) ∧
  (c.Reaches (form1 (.vnot d a p) d a p) A → bits (.vnot d a p) (fun l j k => !(x l j).testBit k)) ∧
  (c.Reaches (form1 (.vandRrs d a b p) d a p) A →
    bits (.vandRrs d a b p) (fun l j k => (x l j).testBit k && (c.patS b l j).testBit k)) ∧
  (c.Reaches (form1 (.vorRrs d a b p) d a p) A →
    bits (.vorRrs d a b p) (fun l j k => (x l j).testBit k || (c.patS b l j).testBit k)) ∧
  (c.Reaches (form1 (.vbrev d a p) d a p) B → bits (.vbrev d a p) (fun l j k => (x l j).testBit (c.width - 1 - k))) ∧
  (c.Reaches (form2 (.vrol d a b p) d a b p) B →
    bits (.vrol d a b p) (fun l j k => (x l j).testBit ((k + (c.width - y l j % c.width)) % c.width))) ∧
  (c.Reaches (form1 (.vclz d a p) d a p) B → c.Writes (.vclz d a p) d c.t
    (fun l j v => v ≤ c.width ∧ x l j < 2 ^ (c.width - v) ∧ (v < c.width → 2 ^ (c.width - 1 - v) ≤ x l j))) ∧
  (c.Reaches (form1 (.vpopc d a p) d a p) B → c.Writes (.vpopc d a p) d c.t
    (fun l j v => v = ((List.range c.width).filter (fun k => (x l j).testBit k)).length))

/-- Shifts take the amount of each sub-element, or the whole of V; bit fields take position and length from V, VBFX extending
by the tag's sign and VBFI keeping the other bits of d (R119, R120). -/
def Sys2Proof.Claims.laneShifts : Prop := ∀ (c : LaneRun) (d a b : BitVec 7) (p : BitVec 3),
  let x := c.pat a
  let y := c.pat b
  let z := c.pat d
  let sgn := fun (l j : Nat) => signedOf c.width (x l j)
  let B := TagClass.B.has
  let v := rrsValue c.u b
  let n := v.toNat
  let pos := n % 64
  let len := if c.width ≤ pos then 0 else min (pos + n / 256 % 64) c.width - pos
  (c.Reaches (form2 (.vshlRrr d a b p) d a b p) B →
    c.WritesInt (.vshlRrr d a b p) d (fun l j => (x l j : Int) * 2 ^ y l j)) ∧
  (c.Reaches (form2 (.vshrRrr d a b p) d a b p) B →
    c.WritesInt (.vshrRrr d a b p) d (fun l j => (x l j : Int) / 2 ^ y l j)) ∧
  (c.Reaches (form2 (.vsarRrr d a b p) d a b p) B → c.WritesInt (.vsarRrr d a b p) d (fun l j => sgn l j / 2 ^ y l j)) ∧
  (c.Reaches (form1 (.vshlRrs d a b p) d a p) B → c.WritesInt (.vshlRrs d a b p) d (fun l j => (x l j : Int) * 2 ^ n)) ∧
  (c.Reaches (form1 (.vshrRrs d a b p) d a p) B → c.WritesInt (.vshrRrs d a b p) d (fun l j => (x l j : Int) / 2 ^ n)) ∧
  (c.Reaches (form1 (.vsarRrs d a b p) d a p) B → c.WritesInt (.vsarRrs d a b p) d (fun l j => sgn l j / 2 ^ n)) ∧
  (c.Reaches (form1 (.vbfx d a b p) d a p) B → c.Writes (.vbfx d a b p) d c.t (fun l j e =>
    (∀ k, k < len → e.testBit k = (x l j).testBit (pos + k)) ∧
    (∀ k, len ≤ k → k < c.width → e.testBit k = (isSigned c.t && decide (0 < len) && (x l j).testBit (pos + len - 1))))) ∧
  (c.Reaches (formD (.vbfi d a b p) d a p) B → c.Writes (.vbfi d a b p) d c.t (fun l j e => ∀ k, k < c.width →
    e.testBit k = if pos ≤ k ∧ k < pos + len then (x l j).testBit (k - pos) else (z l j).testBit k))

/-- Bitwise lane instructions and lane shifts (R117-R120). -/
def Obligations.LaneBitsAndShifts : Prop := Sys2Proof.Claims.laneBits ∧ Sys2Proof.Claims.laneShifts

/-- VCMP writes a predicate: in the lanes of the execution mask the condition over all sub-elements, or any of them, in the
other active lanes 0; lanes that are not active, or whose element failed, keep their bit. VSEL takes each active lane from a or
b by a predicate. XSET and XADD set an index register, out of range to 255 (R121-R123, R178). -/
def Sys2Proof.Claims.laneSelects : Prop := ∀ (c : LaneRun) (d a b : BitVec 7) (p q k : BitVec 3) (cc : BitVec 3) (e f : BitVec 2),
  let x := c.num a
  let y := c.num b
  let cond := fun (l j : Nat) => match cc.toNat with
    | 0 => x l j = y l j
    | 1 => x l j ≠ y l j
    | 2 => x l j < y l j
    | 3 => x l j ≤ y l j
    | 4 => y l j < x l j
    | _ => y l j ≤ x l j
  let cmp := fun (n : BitVec 1) => Instr.vcmp q n cc a b p
  let setsPred := fun (n : BitVec 1) (val : Nat → Prop) => ∃ mk : Mask, c.Ends (cmp n) (c.u.pset q.toNat mk) ∧
    ∀ l, l < 32 →
      (c.u.active.getLsbD l = false ∨ c.bad.getLsbD l = true → mk.getLsbD l = (c.u.pget q.toNat).getLsbD l) ∧
      (c.u.active.getLsbD l = true → c.bad.getLsbD l = false → (mk.getLsbD l = true ↔ c.m.getLsbD l = true ∧ val l))
  let clampx := fun (v : Int) => if 0 ≤ v ∧ v ≤ 255 then v else 255
  let setsIndex := fun (i : Instr) (val : Nat → Int) => ∃ g : Nat → Nat, c.Ends i (c.u.xset e.toNat (c.m &&& ~~~c.bad) g) ∧
    ∀ l, (g l : Int) = clampx (val l)
  (c.Reaches ⟨cmp 0, some p, [a, b], [a, b], [a, b], false⟩ TagClass.I.has →
    setsPred 0 (fun l => ∀ j, j < 64 / c.width → cond l j)) ∧
  (c.Reaches ⟨cmp 1, some p, [a, b], [a, b], [a, b], false⟩ TagClass.I.has →
    setsPred 1 (fun l => ∃ j, j < 64 / c.width ∧ cond l j)) ∧
  (c.Reaches ⟨.vsel d a b k, none, [d, a, b], [a, b], [a, b], false⟩ TagClass.A.has → c.Ends (.vsel d a b k)
    (writeDst c.u (opdOf d) c.t c.m c.bad
      (fun l => if (c.u.pget k.toNat).getLsbD l then c.val a l else c.val b l))) ∧
  (c.Reaches ⟨.xset e a p, some p, [a], [a], [a], false⟩ TagClass.B.has →
    setsIndex (.xset e a p) (fun l => c.num a l 0)) ∧
  (c.Reaches ⟨.xadd e f b p, some p, [], [], [], false⟩ (fun _ => true) →
    setsIndex (.xadd e f b p) (fun l => (c.u.xget f.toNat l : Int) + (rrsValue c.u b).toInt))

/-- VMOV keeps bits and tag, VMOVS splats the low bits of V under a tag, VTAG changes the tag alone, VUNPK shifts a lane right
by groups, VPACK replaces one group of d (R124-R126, R133). -/
def Sys2Proof.Claims.laneMoves : Prop := ∀ (c : LaneRun) (d a b : BitVec 7) (p g : BitVec 3) (f : BitVec 5) (h : BitVec 4),
  let bad := c.bad
  let sh := h.toNat * groupBits g
  (c.Reaches (form1 (.vmov d a p) d a p) TagClass.A.has →
    c.Ends (.vmov d a p) (writeDst c.u (opdOf d) c.t c.m bad (c.val a))) ∧
  (c.Reaches ⟨.vmovs d f b p, some p, [d], [], [], false⟩ (fun _ => true) →
    c.Writes (.vmovs d f b p) d f (fun _ _ v => v = (rrsValue c.u b).toNat % 2 ^ fmtWidth f)) ∧
  (c.Reaches (form1 (.vtag d a f p) d a p) TagClass.A.has →
    c.Ends (.vtag d a f p) (writeDst c.u (opdOf d) f c.m bad (c.val a))) ∧
  (c.Reaches (form1 (.vunpk d a h g p) d a p) TagClass.A.has →
    c.Ends (.vunpk d a h g p) (writeDst c.u (opdOf d) c.t c.m bad (fun l => (c.val a l) >>> sh))) ∧
  (c.Reaches (formD (.vpack d a h g p) d a p) TagClass.A.has → ∃ new : Nat → Reg,
    c.Ends (.vpack d a h g p) (writeDst c.u (opdOf d) c.t c.m bad new) ∧
    ∀ l k, k < 64 → (new l).getLsbD k =
      if sh ≤ k ∧ k < sh + groupBits g then (c.val a l).getLsbD (k - sh) else (c.val d l).getLsbD k)

/-- Compares, selections, index registers and moves of lanes (R121-R126, R133, R178). -/
def Obligations.LaneSelectsAndMoves : Prop := Sys2Proof.Claims.laneSelects ∧ Sys2Proof.Claims.laneMoves

/-- Writing a destination changes vector registers alone. A direct register takes the tag whatever the mask, and the new values
in the lanes of the mask that are not kept; through v[xk] each register that a lane of the mask names takes the tag, and in a
lane that names it and is not kept the new value; no other register changes (R31, R114, R115). -/
def Sys2Proof.Claims.writeDestination : Prop := ∀ (w : Warp) (tag : BitVec 5) (m keep : Mask) (new : Nat → Reg),
  (∀ o : Opd, writeDst w o tag m keep new = { w with r := { w.r with v := (writeDst w o tag m keep new).r.v } }) ∧
  (∀ n k : Nat,
    let u := writeDst w (.reg n) tag m keep new
    (k ≠ n → u.vget k = w.vget k) ∧ (u.vget n).tag = tag ∧
    (∀ l, l < 32 → laneOf (u.vget n).lanes l =
      if m.getLsbD l && !keep.getLsbD l then new l else laneOf (w.vget n).lanes l)) ∧
  (∀ x k : Nat,
    let u := writeDst w (.idx x) tag m keep new
    let named := ∃ l, l < 32 ∧ m.getLsbD l = true ∧ w.windowReg x l = some k
    (¬ named → u.vget k = w.vget k) ∧ (named → (u.vget k).tag = tag) ∧
    (named → ∀ l, l < 32 → laneOf (u.vget k).lanes l =
      if m.getLsbD l && !keep.getLsbD l && (w.windowReg x l == some k) then new l else laneOf (w.vget k).lanes l))

namespace Sys2Proof.Claims

/-- The instructions of the lane and cross-lane sets that read typed operands, in the order of the sets, each with the tags that it
accepts (R99, R110, R117-R133, R141-R147, R178). -/
def typedForms (d a b : BitVec 7) (p q g o cc : BitVec 3) (h : BitVec 4) (t v : BitVec 5) (e rm : BitVec 2) (n z : BitVec 1) :
    List (LaneForm × (BitVec 5 → Bool)) :=
  let two := fun (k : TagClass) (l : List Instr) => l.map (fun i => (form2 i d a b p, k.has))
  let one := fun (k : TagClass) (l : List Instr) => l.map (fun i => (form1 i d a p, k.has))
  let three := fun (k : TagClass) (l : List Instr) => l.map (fun i => (form3 i d a b p, k.has))
  let cross := fun (l : List Instr) => l.map (fun i => (formX i d a, TagClass.A.has))
  two .I [.vaddRrr d a b p, .vsubRrr d a b p, .vmulRrr d a b p, .vmulh d a b p, .vaddsat d a b p, .vsubsat d a b p, .vmin d a b p,
    .vmax d a b p] ++
  one .I [.vabs d a p, .vneg d a p, .vaddRrs d a b p, .vsubRrs d a b p, .vmulRrs d a b p] ++
  three .I [.vmad d a b p, .vamin d a b p, .vamax d a b p] ++
  two .A [.vandRrr d a b p, .vorRrr d a b p, .vxor d a b p, .vandn d a b p] ++
  one .A [.vnot d a p, .vandRrs d a b p, .vorRrs d a b p, .vmov d a p, .vtag d a t p, .vunpk d a h g p] ++
  two .B [.vshlRrr d a b p, .vshrRrr d a b p, .vsarRrr d a b p, .vrol d a b p] ++
  one .B [.vshlRrs d a b p, .vshrRrs d a b p, .vsarRrs d a b p, .vbfx d a b p, .vbrev d a p, .vclz d a p, .vpopc d a p] ++
  two .F [.vfaddRrr d a b p, .vfsub d a b p, .vfmulRrr d a b p, .vfmin d a b p, .vfmax d a b p] ++
  one .F [.vfaddRrs d a b p, .vfmulRrs d a b p, .vfsqrt d a p] ++ three .F [.vfma d a b p] ++
  one .FA [.vfabs d a p, .vfneg d a p, .vfclass d a p] ++
  one (.only [0x11, 0x12, 0x13]) [.vfrcp d a p, .vfrsq d a p, .vfex2 d a p, .vflg2 d a p, .vfsin d a p, .vfcos d a p] ++
  cross [.vshuf d a z g e, .vshufi d a z g t, .vlsh d a z g n t, .vbcst d a z g t, .vsubel d a v] ++
  [(formD (.vbfi d a b p) d a p, TagClass.B.has), (formD (.vpack d a h g p) d a p, TagClass.A.has),
   (⟨.vcmp q n cc a b p, some p, [a, b], [a, b], [a, b], false⟩, TagClass.I.has),
   (⟨.vfcmp q n cc a b p, some p, [a, b], [a, b], [a, b], false⟩, TagClass.FA.has),
   (⟨.vsel d a b q, none, [d, a, b], [a, b], [a, b], false⟩, TagClass.A.has),
   (⟨.xset e a p, some p, [a], [a], [a], false⟩, TagClass.B.has),
   (form1 (.vcvt d a t rm p) d a p, fun x => (TagClass.I.has x || TagClass.FA.has x) && decide (t ≠ 0)),
   (form1 (.vcvts d a t p) d a p, fun x => cvtsOk x t),
   (formX (.vred d a g o) d a, redClassOk (redOpOf o)), (formX (.vscan d a g n o) d a, redClassOk (redOpOf o)),
   (formX (.vcav d a g o) d a, cavClassOk (redOpOf o))]

end Sys2Proof.Claims

/-- Every instruction of the lane and cross-lane sets that reads typed operands takes the format fault where these disagree, where its
class does not accept their common tag, or where it names an unset stream; the lanes whose index lies outside the window are
switched off all the same (R110, R111, R114, R200). -/
def Sys2Proof.Claims.laneFormatFault : Prop := ∀ (s₀ s : State) (d a b : BitVec 7) (p q g o cc : BitVec 3) (h : BitVec 4)
    (t v : BitVec 5) (e rm : BitVec 2) (n z : BitVec 1) (r : WRef) (x : Workgroup) (w : Warp),
  ∀ f ∈ typedForms d a b p q g o cc h t v e rm n z,
    let off := f.1.codes.foldl (fun y k => y ||| (opdOf k).offLanes w (f.1.mask w)) 0
    let m := f.1.mask w &&& ~~~off
    let u := w.switchOff off
    Issues s₀ s f.1.i f.1.mask r x w →
      (f.1.tag u m = .fault ∨ anyUnset u f.1.streams = true ∨ ∃ y, f.1.tag u m = .tag y ∧ f.2 y = false) →
      exec f.1.i s₀ = .next (preciseTrap ((s.setWarp r w).setWarp r u) r u 0x02)

/-- What a lane destination is written with, and the format fault of tags that do not fit (R30, R31, R63, R110, R111). -/
def Obligations.LaneDestinations : Prop := Sys2Proof.Claims.writeDestination ∧ Sys2Proof.Claims.laneFormatFault

/-! ### Floating and cross-lane instructions -/

namespace Sys2Proof.Claims

/-- A lane instruction writes results that carry flags to the first n sub-elements and zeros to the rest, and raises the flags
of the lanes that computed (R94, R115). -/
def LaneRun.WritesFloat (c : LaneRun) (i : Instr) (d : BitVec 7) (tag : BitVec 5) (n : Nat) (v : Nat → Nat → FRes) : Prop :=
  ∃ (new : Nat → Reg) (fl : BitVec 8), c.Ends i ((writeDst c.u (opdOf d) tag c.m c.bad new).raise fl) ∧
    (∀ l j, l < 32 → (c.m &&& ~~~c.bad).getLsbD l = true → j < 64 / fmtWidth tag →
      subEl (fmtWidth tag) (new l) j = if j < n then (v l j).bits % 2 ^ fmtWidth tag else 0) ∧
    (∀ k, k < 8 → (fl.getLsbD k = true ↔
      ∃ l j, l < 32 ∧ j < n ∧ (c.m &&& ~~~c.bad).getLsbD l = true ∧ (v l j).fl.getLsbD k = true))

/-- The sub-elements of a lane. -/
def LaneRun.count (c : LaneRun) : Nat := 64 / c.width

/-- The lanes of the sub-group of lane l that execute, ascending (R136, R145). -/
def LaneRun.group (c : LaneRun) (w l : Nat) : List Nat := (List.range 32).filter (fun k => c.m.getLsbD k && (k / w == l / w))


end Sys2Proof.Claims

/-- The floating instructions write, in each sub-element, the exact result on the operands' values rounded once to nearest with
ties to even, and raise the flags of every lane that computed; VFABS and VFNEG act on the sign bit alone; VFCMP writes a
predicate as VCMP does, ordered or unordered, raising NV for a signalling NaN, or for any in the ordering conditions (R89, R91,
R94, R121, R122, R127). -/
def Obligations.LaneFloats : Prop := ∀ (c : LaneRun) (d a b : BitVec 7) (p q cc : BitVec 3) (any : BitVec 1) (f : FloatFmt),
  floatFmt c.t = some f →
  let x := fun (l j : Nat) => fdecode f (c.pat a l j)
  let y := fun (l j : Nat) => fdecode f (c.pat b l j)
  let z := fun (l j : Nat) => fdecode f (c.pat d l j)
  let v := fun (l j : Nat) => fdecode f (c.patS b l j)
  let F := TagClass.F.has
  let n := c.count
  (c.Reaches (form2 (.vfaddRrr d a b p) d a b p) F →
    c.WritesFloat (.vfaddRrr d a b p) d c.t n (fun l j => fadd f (x l j) (y l j))) ∧
  (c.Reaches (form2 (.vfsub d a b p) d a b p) F →
    c.WritesFloat (.vfsub d a b p) d c.t n (fun l j => fadd f (x l j) (y l j).negate)) ∧
  (c.Reaches (form2 (.vfmulRrr d a b p) d a b p) F →
    c.WritesFloat (.vfmulRrr d a b p) d c.t n (fun l j => fmul f (x l j) (y l j))) ∧
  (c.Reaches (form3 (.vfma d a b p) d a b p) F →
    c.WritesFloat (.vfma d a b p) d c.t n (fun l j => ffma f (x l j) (y l j) (z l j))) ∧
  (c.Reaches (form2 (.vfmin d a b p) d a b p) F →
    c.WritesFloat (.vfmin d a b p) d c.t n (fun l j => fminmax f false (c.pat a l j) (c.pat b l j))) ∧
  (c.Reaches (form2 (.vfmax d a b p) d a b p) F →
    c.WritesFloat (.vfmax d a b p) d c.t n (fun l j => fminmax f true (c.pat a l j) (c.pat b l j))) ∧
  (c.Reaches (form1 (.vfaddRrs d a b p) d a p) F →
    c.WritesFloat (.vfaddRrs d a b p) d c.t n (fun l j => fadd f (x l j) (v l j))) ∧
  (c.Reaches (form1 (.vfmulRrs d a b p) d a p) F →
    c.WritesFloat (.vfmulRrs d a b p) d c.t n (fun l j => fmul f (x l j) (v l j))) ∧
  (c.Reaches (form1 (.vfabs d a p) d a p) TagClass.FA.has → c.Writes (.vfabs d a p) d c.t (fun l j e =>
    ∀ k, k < c.width → e.testBit k = (decide (k < c.width - 1) && (c.pat a l j).testBit k))) ∧
  (c.Reaches (form1 (.vfneg d a p) d a p) TagClass.FA.has → c.Writes (.vfneg d a p) d c.t (fun l j e =>
    ∀ k, k < c.width → e.testBit k = ((c.pat a l j).testBit k ^^ decide (k = c.width - 1)))) ∧
  (let un := fun (l j : Nat) => (x l j).isNan = true ∨ (y l j).isNan = true
   let ord := fun (l j : Nat) => fcmp (x l j) (y l j)
   let holds := fun (l j : Nat) => match cc.toNat with
     | 0 => ¬ un l j ∧ ord l j = 0
     | 1 => un l j ∨ ord l j ≠ 0
     | 2 => ¬ un l j ∧ ord l j < 0
     | 3 => ¬ un l j ∧ ord l j ≤ 0
     | 4 => ¬ un l j ∧ 0 < ord l j
     | 5 => ¬ un l j ∧ 0 ≤ ord l j
     | 6 => un l j
     | _ => ¬ un l j
   let raises := fun (l j : Nat) => if 2 ≤ cc.toNat ∧ cc.toNat ≤ 5 then un l j
     else (x l j).isSnan = true ∨ (y l j).isSnan = true
   c.Reaches ⟨.vfcmp q any cc a b p, some p, [a, b], [a, b], [a, b], false⟩ TagClass.FA.has →
     ∃ (mk : Mask) (fl : BitVec 8), c.Ends (.vfcmp q any cc a b p) ((c.u.pset q.toNat mk).raise fl) ∧
       (∀ l, l < 32 →
         (c.u.active.getLsbD l = false ∨ c.bad.getLsbD l = true → mk.getLsbD l = (c.u.pget q.toNat).getLsbD l) ∧
         (c.u.active.getLsbD l = true → c.bad.getLsbD l = false → (mk.getLsbD l = true ↔ c.m.getLsbD l = true ∧
           if any = 0 then ∀ j, j < n → holds l j else ∃ j, j < n ∧ holds l j))) ∧
       (fl = 0 ∨ fl = flNV) ∧ (fl = flNV ↔ ∃ l j, l < 32 ∧ j < n ∧ (c.m &&& ~~~c.bad).getLsbD l = true ∧ raises l j))

/-- The special functions write their function of each sub-element with its flags; VFCLASS writes class masks as n16; VCVT
converts each element under its rounding mode, and VCVTS with the random bits of its lane and element, each with the flags of the
elements it converts; after VCVTS the seed has moved on once (R93, R99-R101, R128, R130-R132). -/
def Obligations.LaneSpecials : Prop := ∀ (c : LaneRun) (d a : BitVec 7) (p : BitVec 3) (t : BitVec 5) (m : BitVec 2),
  let n := min c.count (64 / fmtWidth t)
  (∀ f, floatFmt c.t = some f →
    let fn := fun (i : Instr) (h : SpecialFn) => c.WritesFloat i d c.t c.count (fun l j => fspecial h f (c.pat a l j))
    (c.Reaches (form1 (.vfrcp d a p) d a p) specialClass.has → fn (.vfrcp d a p) .rcp) ∧
    (c.Reaches (form1 (.vfrsq d a p) d a p) specialClass.has → fn (.vfrsq d a p) .rsq) ∧
    (c.Reaches (form1 (.vfsqrt d a p) d a p) TagClass.F.has → fn (.vfsqrt d a p) .sqrt) ∧
    (c.Reaches (form1 (.vfex2 d a p) d a p) specialClass.has → fn (.vfex2 d a p) .ex2) ∧
    (c.Reaches (form1 (.vflg2 d a p) d a p) specialClass.has → fn (.vflg2 d a p) .lg2) ∧
    (c.Reaches (form1 (.vfsin d a p) d a p) specialClass.has → fn (.vfsin d a p) .sin) ∧
    (c.Reaches (form1 (.vfcos d a p) d a p) specialClass.has → fn (.vfcos d a p) .cos) ∧
    (c.Reaches (form1 (.vfclass d a p) d a p) TagClass.FA.has → c.Writes (.vfclass d a p) d 0x04 (fun l j e =>
      e = if j < c.count then fclass f (c.pat a l j) else 0)) ∧
    (∀ h, floatFmt t = some h → c.Reaches (form1 (.vcvts d a t p) d a p) (fun x => cvtsOk x t) →
      ∃ u, c.Ends (.vcvts d a t p) { u with sp := { u.sp with srseed := seedStep c.u.sp.srseed } } ∧
        let v := fun (l j : Nat) => stochRound h (seedStep c.u.sp.srseed) (2 * l + j) (fdecode f (c.pat a l j))
        ∃ (new : Nat → Reg) (fl : BitVec 8), u = (writeDst c.u (opdOf d) t c.m c.bad new).raise fl ∧
        (∀ l j, l < 32 → (c.m &&& ~~~c.bad).getLsbD l = true → j < 64 / fmtWidth t →
          subEl (fmtWidth t) (new l) j = if j < n then (v l j).bits % 2 ^ fmtWidth t else 0) ∧
        (∀ k, k < 8 → (fl.getLsbD k = true ↔
          ∃ l j, l < 32 ∧ j < n ∧ (c.m &&& ~~~c.bad).getLsbD l = true ∧ (v l j).fl.getLsbD k = true)))) ∧
  (c.Reaches (form1 (.vcvt d a t m p) d a p) (fun x => (TagClass.I.has x || TagClass.FA.has x) && decide (t ≠ 0)) →
    c.WritesFloat (.vcvt d a t m p) d t n (fun l j => (convertEl c.t t m.toNat (c.pat a l j)).getD ⟨0, 0⟩))

/-- Sums, products and special functions of NaNs, infinities and zeros give the patterns and flags that the tables name; minima
and maxima order -0 below +0 (R88, R127, R129). -/
def Sys2Proof.Claims.floatSpecialValues : Prop := ∀ (f : FloatFmt) (x : FVal) (q n k : Bool) (m : Nat) (e : Int),
  f ∈ [fmtF64, fmtF32, fmtF16, fmtBf16] →
  let nan := FVal.nan q
  let quiet : FRes := ⟨canonNan f, if q || x.isSnan then flNV else 0⟩
  let invalid : FRes := ⟨canonNan f, flNV⟩
  let zero := fun (n : Bool) => FVal.fin n 0 0
  let one := fround f false 1 0
  fadd f nan x = quiet ∧ fadd f x nan = quiet ∧ fmul f nan x = quiet ∧ fmul f x nan = quiet ∧
  fadd f (.inf n) (.inf (!n)) = invalid ∧ fadd f (.inf n) (.inf n) = ⟨infPattern f n, 0⟩ ∧
  fmul f (.inf n) (zero k) = invalid ∧ fmul f (zero k) (.inf n) = invalid ∧
  (ffma f (.inf n) (zero k) (.nan false)) = invalid ∧
  (m ≠ 0 → fmul f (.inf n) (.fin k m e) = ⟨infPattern f (n != k), 0⟩) ∧
  (∀ h : SpecialFn, specialAt h f nan = ⟨canonNan f, if q then flNV else 0⟩) ∧
  specialAt .rcp f (zero n) = ⟨infPattern f n, flDZ⟩ ∧ specialAt .rsq f (zero n) = ⟨infPattern f n, flDZ⟩ ∧
  specialAt .sqrt f (zero n) = ⟨signBit f n, 0⟩ ∧ specialAt .lg2 f (zero n) = ⟨infPattern f true, flDZ⟩ ∧
  specialAt .sin f (zero n) = ⟨signBit f n, 0⟩ ∧ specialAt .ex2 f (zero n) = one ∧ specialAt .cos f (zero n) = one ∧
  specialAt .rcp f (.inf n) = ⟨signBit f n, 0⟩ ∧ specialAt .sin f (.inf n) = invalid ∧
  specialAt .cos f (.inf n) = invalid ∧ specialAt .ex2 f (.inf n) = ⟨if n then 0 else infPattern f false, 0⟩ ∧
  (∀ h ∈ [SpecialFn.rsq, .sqrt, .lg2], specialAt h f (.inf true) = invalid ∧
    (m ≠ 0 → specialAt h f (.fin true m e) = invalid)) ∧
  specialAt .rsq f (.inf false) = ⟨0, 0⟩ ∧ specialAt .sqrt f (.inf false) = ⟨infPattern f false, 0⟩ ∧
  specialAt .lg2 f (.inf false) = ⟨infPattern f false, 0⟩ ∧ specialAt .ex2 f (.fin false 1 0) = fround f false 2 0 ∧
  specialAt .lg2 f (.fin false 1 0) = ⟨0, 0⟩ ∧
  fminmax f false (signBit f true) (signBit f false) = ⟨signBit f true, 0⟩ ∧
  fminmax f true (signBit f true) (signBit f false) = ⟨signBit f false, 0⟩

/-- Rounding a value that a format holds, under any mode, gives its own pattern and raises nothing (R83-R85, R92). -/
def Sys2Proof.Claims.floatRoundsExact : Prop := ∀ (t : BitVec 5) (f : FloatFmt) (mode b : Nat) (neg : Bool) (m : Nat) (e : Int),
  floatFmt t = some f → b < 2 ^ f.width → fdecode f b = .fin neg m e → froundMode f mode neg m e = ⟨b, 0⟩

/-- The special values of floating operations, and that rounding a value of the format is exact (R83-R85, R88, R92, R127, R129). -/
def Obligations.FloatValues : Prop := Sys2Proof.Claims.floatSpecialValues ∧ Sys2Proof.Claims.floatRoundsExact

/-- The moves between lanes deliver the 64 bits of the source lane within the sub-group; without .Z a bad source traps before
any effect, with .Z it gives 0; an edge of VLSH keeps the lane or gives 0 (R136-R138, R141). -/
def Sys2Proof.Claims.crossMoves : Prop := ∀ (c : LaneRun) (d a : BitVec 7) (z x : BitVec 1) (w : BitVec 3) (k : BitVec 2)
    (n : BitVec 5),
  let W := 2 ^ w.toNat
  let base := fun l => W * (l / W)
  let good := fun (l i : Nat) => i < W ∧ c.m.getLsbD (base l + i) = true
  let moves := fun (i : Instr) (edge : Nat → Prop) (idx : Nat → Nat) =>
    (z = 1 ∨ ∀ l, l < 32 → c.m.getLsbD l = true → edge l ∨ good l (idx l)) → ∃ new : Nat → Reg,
      c.Ends i (writeDst c.u (opdOf d) c.t c.m 0 new) ∧
      ∀ l, l < 32 → c.m.getLsbD l = true →
        (edge l → new l = if z = 1 then 0 else c.val d l) ∧
        (¬ edge l → good l (idx l) → new l = c.val a (base l + idx l)) ∧
        (¬ edge l → ¬ good l (idx l) → new l = 0)
  c.recs = [] →
  (c.Reaches (formX (.vshuf d a z w k) d a) TagClass.A.has → c.u = c.w.switchOff (c.off (formX (.vshuf d a z w k) d a)) →
    moves (.vshuf d a z w k) (fun _ => False) (fun l => c.u.xget k.toNat l)) ∧
  (c.Reaches (formX (.vshufi d a z w n) d a) TagClass.A.has →
    moves (.vshufi d a z w n) (fun _ => False) (fun l => if n.toNat < W then (l % W) ^^^ n.toNat else W)) ∧
  (c.Reaches (formX (.vlsh d a z w x n) d a) TagClass.A.has →
    (x = 0 → moves (.vlsh d a z w x n) (fun l => l < base l + n.toNat) (fun l => l - n.toNat - base l)) ∧
    (x = 1 → moves (.vlsh d a z w x n) (fun l => base l + W ≤ l + n.toNat) (fun l => l + n.toNat - base l))) ∧
  (c.Reaches (formX (.vbcst d a z w n) d a) TagClass.A.has →
    moves (.vbcst d a z w n) (fun _ => False) (fun _ => n.toNat)) ∧
  (let traps := fun (i : Instr) (edge : Nat → Prop) (idx : Nat → Nat) =>
     z = 0 → (∃ l, l < 32 ∧ c.m.getLsbD l = true ∧ ¬ edge l ∧ ¬ good l (idx l)) → c.Fits (formX i d a) TagClass.A.has →
       exec i c.s₀ = .next
         (let u := c.w.switchOff (c.off (formX i d a))
          preciseTrap ((c.s.setWarp c.r c.w).setWarp c.r u) c.r u 0x03)
   traps (.vshuf d a z w k) (fun _ => False) (fun l => c.w.xget k.toNat l) ∧
   traps (.vshufi d a z w n) (fun _ => False) (fun l => if n.toNat < W then (l % W) ^^^ n.toNat else W) ∧
   (x = 0 → traps (.vlsh d a z w x n) (fun l => l < base l + n.toNat) (fun l => l - n.toNat - base l)) ∧
   (x = 1 → traps (.vlsh d a z w x n) (fun l => base l + W ≤ l + n.toNat) (fun l => l + n.toNat - base l)) ∧
   traps (.vbcst d a z w n) (fun _ => False) (fun _ => n.toNat))

/-- VSUBEL picks sub-elements by the nibbles of a selector; VBALLOT gives the sub-group's bits of a predicate under the mask, and
their count, as n32; VRED, VSCAN and VCAV combine the sub-group's executing lanes in ascending order (R142-R147). -/
def Sys2Proof.Claims.crossReductions : Prop := ∀ (c : LaneRun) (d a : BitVec 7) (w o k : BitVec 3) (x : BitVec 1) (q : BitVec 5),
  let W := 2 ^ w.toNat
  let op := redOpOf o
  let col := fun (ls : List Nat) (j : Nat) => ls.map (fun i => c.pat a i j)
  c.recs = [] →
  (c.Reaches (formX (.vsubel d a q) d a) TagClass.A.has → c.Writes (.vsubel d a q) d c.t (fun l j e =>
    let sel := (c.u.sget q.toNat).toNat / 16 ^ j % 16
    e = if sel < c.count then c.pat a l sel else 0)) ∧
  (c.Reaches ⟨.vballot d w k, none, [d], [], [], true⟩ (fun _ => true) → c.Writes (.vballot d w k) d 0x06 (fun l j e =>
    (j = 0 → ∀ i, i < 32 → e.testBit i = (decide (i < W) && ((c.u.pget k.toNat).getLsbD (W * (l / W) + i) && c.m.getLsbD (W * (l / W) + i)))) ∧
    (j = 1 → e = ((List.range 32).filter (fun i => (c.u.pget k.toNat).getLsbD i && c.m.getLsbD i && (i / W == l / W))).length))) ∧
  (c.Reaches (formX (.vred d a w o) d a) (redClassOk op) →
    c.WritesFloat (.vred d a w o) d c.t c.count (fun l j => tree op c.t (col (c.group W l) j))) ∧
  (c.Reaches (formX (.vscan d a w x o) d a) (redClassOk op) → c.WritesFloat (.vscan d a w x o) d c.t c.count (fun l j =>
    tree op c.t (col ((c.group W l).filter (fun i => if x = 1 then decide (i < l) else decide (i ≤ l))) j))) ∧
  (c.Reaches (formX (.vcav d a w o) d a) (cavClassOk op) → c.WritesFloat (.vcav d a w o) d c.t c.count (fun l j =>
    cavity op c.t (col (c.group W l) j) ((c.group W l).filter (fun i => decide (i < l))).length))

/-- On integer tags, and on raw for the bitwise operations, the reduction tree of at most 64 elements gives what any fold from
the identity gives, and raises nothing (R104, R144, R145). -/
def Sys2Proof.Claims.reductionTree : Prop := ∀ (o : RedOp) (t : BitVec 5) (cs : List Nat),
  (intFmt t).isSome = true ∨ (t = 0 ∧ (o = .and ∨ o = .or ∨ o = .xor)) → cs.length ≤ 64 → (∀ x ∈ cs, x < 2 ^ fmtWidth t) →
  tree o t cs = ⟨cs.foldl (fun x y => (redStep o t x y).bits) (redIdentity o t), 0⟩

/-- Reductions, scans and votes, and the order in which a reduction combines (R142-R147). -/
def Obligations.Reductions : Prop := Sys2Proof.Claims.crossReductions ∧ Sys2Proof.Claims.reductionTree

/-- VXSWAP posts the warp's lanes and waits, or, when the partner waits for this warp on the same die, both destinations get the
partner's lanes and both retire, if the pairing comes in time for the order of the tick (R373); a handle with reserved bits, of the warp itself, or of no warp of the launch on this die takes
the exchange fault (R150-R152). -/
def Sys2Proof.Claims.exchange : Prop := ∀ (s₀ s : State) (d a : BitVec 7) (z : BitVec 1) (k : BitVec 5) (r : WRef) (g : Workgroup)
    (w : Warp) (t : BitVec 5),
  let i := Instr.vxswap d a z k
  let m := w.active
  let s0 := s.setWarp r w
  let g0 := g.setWarp r.wp w
  let wgix := (w.sget k.toNat).toNat
  let word := w.sget (k.toNat + 1)
  let vals := laneNums.map (fun l => (opdOf a).val w [] l)
  Issues s₀ s i act r g w → (opdOf d).offLanes w m = 0 → (∀ n, opdOf a ≠ .stream n) → commonTag false [(opdOf a).tag w m] = .tag t →
  (exchangeFault s0 r g0 wgix word = true → exec i s₀ = .next (preciseTrap (s0.setWarp r w) r w 0x04)) ∧
  (∀ (u : Nat) (h : Workgroup) (x : Warp) (xm : Mask) (xt : BitVec 5) (xv : List Reg) (xd : BitVec 7) (xz : Bool)
      (xs : Option (Nat × Bool)),
    let wp := fieldOf word 0 4
    exchangeFault s0 r g0 wgix word = false → findPartner s0 g0 wgix = some (u, h) → h.warp wp = some x →
    let p := s0.setWarp r { w with c := { w.c with wait := .swap wgix wp m t vals d (z == 1) none } }
    (x.c.wait = .none → exec i s₀ = .next p) ∧
    (x.c.wait = .swap g.wgix r.wp xm xt xv xd xz xs → g.live = true → h.live = true → p.frozen ⟨u, wp⟩ = false → p.frozen r = false →
      let late := swapLate p (dieOf h.tile) ⟨u, wp⟩ xm xs || swapLate p (dieOf g.tile) r m none
      (late = true → exec i s₀ = .next p) ∧ (late = false → swapHeld p (dieOf h.tile) ⟨u, wp⟩ x xs = none →
      exec i s₀ = .next (finishSwap (finishSwap p ⟨u, wp⟩ (xm, xd, xz, xs) m t vals) r (m, d, z == 1, none) xm xt xv)))) ∧
  (∀ (q : WRef) (mine yours : Mask) (e : BitVec 7) (y : Bool) (vs : List Reg) (h : Workgroup) (x : Warp),
    s.wg q.wg = some h → s.warp q = some x →
      finishSwap s q (mine, e, y, none) yours t vs = retire s q h x
        (writeDst (x.switchOff (x.active &&& ~~~mine)) (opdOf e) t mine (if y then 0 else mine &&& ~~~yours)
          (fun l => if yours.getLsbD l then laneOf vs l else 0)) false)

/-- Moves between the lanes of a warp, and the exchange of two warps (R136-R141, R149, R150). -/
def Obligations.CrossMovesAndExchange : Prop := Sys2Proof.Claims.crossMoves ∧ Sys2Proof.Claims.exchange

/-! ### Memory -/

namespace Sys2Proof.Claims

/-- A memory instruction of the lanes past steps 1 to 3 of R114: the issuing warp with its granules (w) and with the lanes
outside the window off (u), the machine before (s₀) and after (s) its absent granules were read, the execution mask m, the exact addresses, and what the checks of R184 answer (cs), with the
machine after them (s1). -/
structure MemRun where
  s₀ : State
  s : State
  r : WRef
  g : Workgroup
  w : Warp
  u : Warp
  m : Mask
  addrs : LaneAddrs
  s1 : State
  cs : List (Nat × Int × LaneAcc)

namespace MemRun

/-- The workgroup with the issuing warp in it. -/
def wgp (c : MemRun) : Workgroup := c.g.setWarp c.r.wp c.w

/-- The address-space number of the context. -/
def asid (c : MemRun) (s : State) : Nat := s.asidOf c.wgp

/-- The instruction is legal, its base is an integer or raw, its data fits its format, and its addresses are base plus scaled
offset, exact (R181, R184). -/
structure Reaches (c : MemRun) (i : Instr) (codes : List (BitVec 7)) (b : BitVec 7) (scale : Nat) (off : Int)
    (data : Warp → Mask → Bool) : Prop where
  word : ∃ w0, c.s₀.current = some (c.r, c.g, w0) ∧ (legal i && allocOk w0 i && flagChosen w0 i) = true ∧
    c.s = fillReads c.s₀ c.g c.r.wp w0 w0.active i ∧
    fillNamed c.s c.g c.r.wp w0 w0.active i = (c.w, true)
  lanes : c.m = c.w.active &&& ~~~(codes.foldl (fun a k => a ||| (opdOf k).offLanes c.w c.w.active) 0)
  warp : c.u = c.w.switchOff (codes.foldl (fun a k => a ||| (opdOf k).offLanes c.w c.w.active) 0)
  tags : (((opdOf b).tags c.u c.m).all (fun t => TagClass.B.has t) && data c.u c.m) = true
  addrs : c.addrs = (lanesIn c.m).map (fun l => (l, (opdOf b).base c.u l + off * scale))

/-- The checks of its accesses, none of which misses (R184, R185). -/
def Checked (c : MemRun) (a : Acc) (z : Nat) : Prop :=
  checkAll (c.s.setWarp c.r c.w) c.wgp c.u a z c.addrs = (c.s1, c.cs) ∧ missPages c.cs = []

/-- It completes as a long-latency instruction on flag k: the machine after its accesses is s2, its warp x, its destinations
are busy until it completes; the lanes that failed give their records, and the warp has left the word (R54, R185, R186). -/
def Completes {α : Type} (c : MemRun) (i : Instr) (typ k : Nat) (busy : List Nat) (s2 : State)
    (vs : List (Nat × α × Bool)) (x : Warp) (load : Bool) : Prop :=
  exec i c.s₀ = .next (retireLong s2 c.r c.wgp c.w x k busy [] (failRecords c.u typ c.cs) (errorRecords c.u typ c.cs vs)
    (farRecords c.u typ c.cs) load)

/-- The warp after a load or atomic: each lane that received a value holds it, zero-extended, under the format (R188, R192). -/
def Loaded (c : MemRun) (d : BitVec 7) (t : BitVec 5) (vs : List (Nat × Nat × Bool)) (x : Warp) : Prop :=
  ∃ new : Nat → Reg, x = writeDst c.u (opdOf d) t c.m (c.m &&& ~~~doneLanes vs) new ∧ ∀ l, new l = BitVec.ofNat 64 (valueAt 0 vs l)

/-- Where a page of its lanes misses, the instruction parks and has no effect (R185). -/
def ParksOn (c : MemRun) (i : Instr) (a : Acc) (z : Nat) : Prop :=
  ∀ p ps, checkAll (c.s.setWarp c.r c.w) c.wgp c.u a z c.addrs = (c.s1, c.cs) → missPages c.cs = p :: ps →
    exec i c.s₀ = .next (parkOn c.s1 c.r c.wgp c.w a (p :: ps))

end MemRun

/-- What making room in a tile for a line does to memory (R284, R286): nothing while the set has a free way; otherwise only dirty
bytes of lines of the set change, to what the tile holds, those of the last of a full set among them. -/
def Evicts (s s1 : State) (t line : Nat) : Prop :=
  let inSet := (s.tile t).lines.filter (fun l => l.line % 64 == line % 64)
  let ways := (s.tile t).waysOf (line % 64)
  let byteOf := fun (l : Line) (a : Nat) => BitVec.ofNat 8 (l.data.toNat / 256 ^ (a % 128))
  (inSet.length < ways → s1.mem = s.mem) ∧
  (∀ a, s1.mem.read a = s.mem.read a ∨
    ∃ l ∈ inSet, a / 128 = l.line ∧ l.dirty.getLsbD (a % 128) = true ∧ s1.mem.read a = byteOf l a) ∧
  (∀ l, inSet.length = ways → inSet.getLast? = some l → (s.tile t).line l.line = some l → ∀ a, a / 128 = l.line →
    l.dirty.getLsbD (a % 128) = true → s1.mem.read a = byteOf l a)

end Sys2Proof.Claims

/-- The lanes' global accesses: each lane that passes its checks loads, stores its low bytes, or applies its atomic in ascending
lane order, and the instruction completes on its flag; with a lane that misses the warp parks and nothing has happened; VPRF
reads lines and takes no fault, its alignment being checked for one byte (R184-R195; the check's size is the model's, log
entry 48). -/
def Sys2Proof.Claims.laneGlobal : Prop := ∀ (c : MemRun) (d b : BitVec 7) (t : BitVec 5) (f : BitVec 1) (o : BitVec 4),
  let z := fmtWidth t / 8
  let k := c.u.flagOf f
  let any := fun (_ : Warp) (_ : Mask) => true
  let low := fun (l : Nat) => ((opdOf d).val c.u [] l).toNat % 2 ^ (8 * z)
  (c.Reaches (.vld d b t f o) [d, b] b z o.toInt any →
    (∀ s2 vs x, c.Checked .load z → eachLane (fun s _ y => tileLoad s c.g.tile (c.asid s) y z) c.s1 c.cs = (s2, vs) →
      c.Loaded d t vs x → c.Completes (.vld d b t f o) t.toNat k ((opdOf d).names c.u c.m) s2 vs x true) ∧
    c.ParksOn (.vld d b t f o) .load z) ∧
  (c.Reaches (.vst d b t f o) [d, b] b z o.toInt (fun w m => dataTagOk w m (opdOf d) t true) →
    (∀ s2 vs, c.Checked .store z → eachLane (fun s l y => (tileStore s c.g.tile (c.asid s) y z (low l), (), false)) c.s1 c.cs =
      (s2, vs) → c.Completes (.vst d b t f o) (32 + t.toNat) k [] s2 vs (c.u.noteStores true z c.cs) false) ∧
    c.ParksOn (.vst d b t f o) .store z) ∧
  (c.Reaches (.vatom d b t f o) [d, b] b z 0 (fun w m => dataTagOk w m (opdOf d) t false) →
    c.ParksOn (.vatom d b t f o) .atomic z) ∧
  (c.Reaches (.vcas d b t f o) [d, b] b z o.toInt
      (fun w m => dataTagOk w m (opdOf d) t false && (fmtWidth t == 32 || (w.vget (d.toNat + 1)).tag == t)) →
    c.ParksOn (.vcas d b t f o) .atomic z) ∧
  (c.Reaches (.vatom d b t f o) [d, b] b z 0 (fun w m => dataTagOk w m (opdOf d) t false) → c.Checked .atomic z →
    ∀ s2 vs x, eachLane (fun s l y => chanAtomic s c.g.tile y.pa z (fun old => atomNew o (8 * z) old (low l))) c.s1 c.cs =
      (s2, vs) → c.Loaded d t vs x → c.Completes (.vatom d b t f o) (64 + t.toNat) k ((opdOf d).names c.u c.m) s2 vs
        (x.noteStores false z c.cs) false) ∧
  (t.toNat = 0x05 ∨ t.toNat = 0x06 → c.Reaches (.vcas d b t f o) [d, b] b z o.toInt
      (fun w m => dataTagOk w m (opdOf d) t false && (fmtWidth t == 32 || (w.vget (d.toNat + 1)).tag == t)) →
    c.Checked .atomic z → ∀ s2 vs,
      let old := fun l => subEl 32 ((opdOf d).val c.u [] l) 0
      eachLane (fun s l y => chanAtomic s c.g.tile y.pa 4
        (fun x => if x = old l then subEl 32 ((opdOf d).val c.u [] l) 1 else x)) c.s1 c.cs = (s2, vs) →
      ∃ new : Nat → Reg, c.Completes (.vcas d b t f o) (64 + t.toNat) k ((opdOf d).names c.u c.m) s2 vs
        ((writeDst c.u (opdOf d) t c.m (c.m &&& ~~~doneLanes vs) new).noteStores false 4 c.cs) false ∧
        ∀ l, new l = BitVec.ofNat 64 (valueAt 0 vs l + if valueAt 0 vs l = old l then 2 ^ 32 else 0)) ∧
  (t.toNat = 0x07 ∨ t.toNat = 0x08 → c.Reaches (.vcas d b t f o) [d, b] b z o.toInt
      (fun w m => dataTagOk w m (opdOf d) t false && (fmtWidth t == 32 || (w.vget (d.toNat + 1)).tag == t)) →
    c.Checked .atomic z → ∀ s2 vs,
      let old := fun l => ((opdOf d).val c.u [] l).toNat
      let next := .reg (d.toNat + 1)
      let keep := c.m &&& ~~~doneLanes vs
      eachLane (fun s l y => chanAtomic s c.g.tile y.pa 8 (fun x => if x = old l then (next.val c.u [] l).toNat else x)) c.s1 c.cs =
        (s2, vs) →
      ∃ new won : Nat → Reg, c.Completes (.vcas d b t f o) (64 + t.toNat) k ((opdOf d).names c.u c.m ++ [d.toNat + 1]) s2 vs
        ((writeDst (writeDst c.u (opdOf d) t c.m keep new) next t c.m keep won).noteStores false 8 c.cs) false ∧
        ∀ l, new l = BitVec.ofNat 64 (valueAt 0 vs l) ∧ won l = if valueAt 0 vs l = old l then 1 else 0) ∧
  (c.Reaches (.vprf b f o) [b] b 128 o.toInt any →
    checkAll (c.s.setWarp c.r c.w) c.wgp c.u .load 1 c.addrs = (c.s1, c.cs) → exec (.vprf b f o) c.s₀ =
      .next (retireLong (c.cs.foldl (fun s y => prefetchLine s c.wgp y.2.2) c.s1) c.r c.wgp c.w c.u k [] [] [] [] [] false))

/-- The lanes' scratchpad accesses: a lane outside the allocation or misaligned is switched off first, the others act on the
workgroup's scratchpad in ascending lane order, and memory is not touched (R36, R184, R185, R188, R190). -/
def Sys2Proof.Claims.laneScratch : Prop := ∀ (c : MemRun) (d b : BitVec 7) (t : BitVec 5) (f : BitVec 1) (o : BitVec 4),
  let z := fmtWidth t / 8
  let any := fun (_ : Warp) (_ : Mask) => true
  let lost := maskOf (fun l => c.addrs.any (fun x => x.1 == l &&
    !(decide (0 ≤ x.2) && decide (x.2 + z ≤ c.g.spAlloc) && decide (x.2.toNat % z = 0))))
  let u := c.u.switchOff lost
  let m := c.m &&& ~~~lost
  let mine := c.addrs.filter (fun x => m.getLsbD x.1)
  let low := fun (l : Nat) => ((opdOf d).val c.u [] l).toNat % 2 ^ (8 * z)
  let completes := fun (i : Instr) (sp : Memory) (busy : List Nat) (x : Warp) =>
    exec i c.s₀ = .next (retireLong ((c.s.setWarp c.r c.w).updWg c.r.wg (fun g => { g with sp := sp })) c.r c.wgp c.w x
      (c.u.flagOf f) busy [] [] [] [] false)
  (c.Reaches (.vlds d b t f o) [d, b] b z o.toInt any → ∃ new : Nat → Reg,
    completes (.vlds d b t f o) c.g.sp ((opdOf d).names u m)
      (writeDst u (opdOf d) t m (m &&& ~~~maskOf (fun l => mine.any (fun x => x.1 == l))) new) ∧
    ∀ x ∈ mine, new x.1 = BitVec.ofNat 64 (Memory.readN c.g.sp x.2.toNat z)) ∧
  (c.Reaches (.vsts d b t f o) [d, b] b z o.toInt (fun w m => dataTagOk w m (opdOf d) t true) →
    completes (.vsts d b t f o) (mine.foldl (fun sp x => Memory.writeN sp x.2.toNat z (low x.1)) c.g.sp) [] u) ∧
  (c.Reaches (.vatoms d b t f o) [d, b] b z 0 (fun w m => dataTagOk w m (opdOf d) t false) → ∃ new : Nat → Reg,
    let after := fun (sp : Memory) (x : Nat × Int) => Memory.writeN sp x.2.toNat z
      (atomNew o (8 * z) (Memory.readN sp x.2.toNat z) (low x.1))
    completes (.vatoms d b t f o) (mine.foldl after c.g.sp) ((opdOf d).names u m)
      (writeDst u (opdOf d) t m (m &&& ~~~maskOf (fun l => mine.any (fun x => x.1 == l))) new) ∧
    ∀ (pre post : LaneAddrs) (x : Nat × Int), mine = pre ++ x :: post →
      new x.1 = BitVec.ofNat 64 (Memory.readN (pre.foldl after c.g.sp) x.2.toNat z))

/-- Lane accesses of global memory and of the scratchpad (R180-R188). -/
def Obligations.LaneMemory : Prop := Sys2Proof.Claims.laneGlobal ∧ Sys2Proof.Claims.laneScratch

/-- SLD loads and extends, SST stores the low bytes, SATOM and SCAS act at the channel on sb and return the old value in sd; a
page that misses parks the warp, and a failed check gives the uniform record and no effect (R184, R194, R196). -/
def Obligations.UniformMemory : Prop := ∀ (s₀ s : State) (r : WRef) (g : Workgroup) (w : Warp) (d a b : BitVec 6) (f n : BitVec 1)
    (z : BitVec 2) (o : BitVec 8) (op : BitVec 4) (s1 : State),
  let g0 := g.setWarp r.wp w
  let base := ((w.sget a.toNat).toNat : Int)
  let size : Nat := 2 ^ z.toNat
  let addr := base + o.toInt * size
  let check := fun (k : Acc) (x : Int) (n : Nat) => checkAccess (s.setWarp r w) g0 w k x n
  let completes := fun (i : Instr) (s2 : State) (x : Warp) (typ : Nat) (busy : List Nat) (now late : Bool) (at_ : Int) (k : Nat)
      (pl : List (Nat × Int × LaneAcc)) (load : Bool) =>
    exec i s₀ = .next (retireLong s2 r g0 w x (w.flagOf f) [] busy (if now then [uniRecord w at_ k typ] else [])
      (if late then [uniRecord w at_ 6 typ] else []) (farRecords w typ pl) load)
  let sld := Instr.sld d a f z n o
  let stops := fun (i : Instr) (k : Acc) (x : Int) (m typ : Nat) =>
    (∀ p, check k x m = (s1, .miss p) → exec i s₀ = .next (parkOn s1 r g0 w k [p])) ∧
    (∀ e, check k x m = (s1, .bad e) → completes i s1 w typ [] true false x e [] false)
  let asize := if op = 0xA then 4 else if op = 0xB then 2 else 8
  (Issues s₀ s sld act r g w →
    (∀ x s2 v e, check .load addr size = (s1, .ok x) → tileLoad s1 g.tile (s1.asidOf g0) x size = (s2, v, e) → ∃ y : Reg,
      completes sld s2 (if e then w else w.sset d.toNat y) size [d.toNat] false e addr 6 [(32, addr, .ok x)] true ∧
      (n = 0 → y = BitVec.ofNat 64 v) ∧ (n = 1 → y.toInt = (BitVec.ofNat (8 * size) v).toInt)) ∧
    stops sld .load addr size size) ∧
  (Issues s₀ s (.sst d a f z o) act r g w → stops (.sst d a f z o) .store addr size (32 + size)) ∧
  (Issues s₀ s (.satom d a b f op) act r g w → stops (.satom d a b f op) .atomic base asize (64 + asize)) ∧
  (Issues s₀ s (.scas d a b f) act r g w → stops (.scas d a b f) .atomic base 8 (64 + 8)) ∧
  (Issues s₀ s (.sst d a f z o) act r g w → ∀ x, check .store addr size = (s1, .ok x) →
    completes (.sst d a f z o) (tileStore s1 g.tile (s1.asidOf g0) x size ((w.sget d.toNat).toNat % 2 ^ (8 * size)))
      (w.noteStores true size [(32, addr, .ok x)]) (32 + size) [] false false addr 6 [(32, addr, .ok x)] false) ∧
  (Issues s₀ s (.satom d a b f op) act r g w → ∀ x s2 v,
    let m := asize
    check .atomic base m = (s1, .ok x) → chanAtomic s1 g.tile x.pa m
      (fun old => atomNew op (8 * m) old ((w.sget b.toNat).toNat % 2 ^ (8 * m))) = (s2, v, false) →
    completes (.satom d a b f op) s2 ((w.sset d.toNat (BitVec.ofNat 64 v)).noteStores false m [(32, base, .ok x)]) (64 + m) [d.toNat]
      false false base 6 [(32, base, .ok x)] false) ∧
  (Issues s₀ s (.scas d a b f) act r g w → ∀ x s2 v, check .atomic base 8 = (s1, .ok x) → chanAtomic s1 g.tile x.pa 8
      (fun old => if old = (w.sget d.toNat).toNat then (w.sget b.toNat).toNat else old) = (s2, v, false) →
    completes (.scas d a b f) s2 ((w.sset d.toNat (BitVec.ofNat 64 v)).noteStores false 8 [(32, base, .ok x)]) (64 + 8) [d.toNat]
      false false base 6 [(32, base, .ok x)] false)

/-- The checks of an access are made in the order of the table, the first that fails decides, and a range that covers the address
decides before any page does; a table that cannot be read is a data error, an entry that leads to a retired page misses, and so does an address
whose walk has no room at its walker yet (R184, R295, R300-R302). That a retired page is one of its context once the context's caches
were invalidated after the error is the model's reading (DEDUCED, log entry 25), and so is the wait for a walk (DEDUCED, log entry 24). -/
def Obligations.AccessChecks : Prop := ∀ (s : State) (g : Workgroup) (w : Warp) (a : Acc) (addr : Int) (z : Nat),
  let r := checkAccess s g w a addr z
  let c := s.slot g.slot
  (addr < 0 ∨ 2 ^ 48 ≤ addr → r = (s, .bad 1)) ∧
  (0 ≤ addr → addr < 2 ^ 48 → addr.toNat % z ≠ 0 → r = (s, .bad 2)) ∧
  (0 ≤ addr → addr < 2 ^ 48 → addr.toNat % z = 0 → walkHeld s g.tile g.slot addr.toNat = true →
    r = (s, .miss (addr.toNat / 4096))) ∧
  (0 ≤ addr → addr < 2 ^ 48 → addr.toNat % z = 0 → walkHeld s g.tile g.slot addr.toNat = false → ∀ s1 x, translate s g.tile g.slot addr.toNat a = (s1, x) →
    r.1 = s1 ∧ r.2 = (match x with
      | .ok y => .ok y
      | .err k => .bad k
      | .miss => if w.nones.contains (addr.toNat / 4096) then .bad 3 else .miss (addr.toNat / 4096))) ∧
  (∀ s1, loadRanges s g.tile c.asid (c.rtab * 2048) = (s1, none) → ∀ va, translate s g.tile g.slot va a = (s1, .err 6)) ∧
  (∀ s1 es, loadRanges s g.tile c.asid (c.rtab * 2048) = (s1, some es) → s1.mem = s.mem ∧
    es = tileRanges s g.tile c.asid (c.rtab * 2048) ∧ ∀ k e va, findRange es va 0 = some (k, e) →
      translate s g.tile g.slot va a = (s1, if s1.removed c.asid (rangePa a e va) then .miss else rangeXlate s1 a k e va)) ∧
  (∀ rd wr x, a.permits rd wr x = match a with
    | .load | .stream | .engRead => rd
    | .store | .engWrite | .relObj => wr
    | .atomic | .waitObj => rd && wr
    | .fetch => x)

/-- A load of a line that the tile does not hold reads memory, and makes room for the line, writing back the dirty bytes of what it
replaces; of a line that it holds for the context it gives the tile's bytes, or memory's with the tile's dirty bytes over them,
and changes no memory; a line of another context leaves first. A store to a line that the tile holds or can hold is read back by
the tile; a direct load or store finds memory with the dirty bytes of the context's own line written back, and the store writes exactly
its bytes there; and an atomic, once the tile's line is written back, writes its new
value and returns the old (R182, R190, R284-R286, R305; that another context's line, and the context's own before a direct access, leaves
is the model's, log entry 42). -/
def Obligations.LoadsAndStores : Prop := ∀ (s : State) (t asid n v : Nat) (x : Xlated) (new : Nat → Nat),
  let line := x.pa / 128
  let seen := match (s.tile t).line line with
    | some l => if l.asid = asid then Memory.writeMasked s.mem (line * 128) l.dirty.toNat l.data.toNat 128 else s.mem
    | none => s.mem
  x.pa % 128 + n ≤ 128 → line ∉ s.dev.badLines →
  (x.direct = true → ∃ s1, tileLoad s t asid x n = (s1, Memory.readN seen x.pa n, false) ∧ s1.mem = seen) ∧
  (x.direct = false → s.mem.wf = true → (s.tile t).line line = none →
    ∃ s1, tileLoad s t asid x n = (s1, Memory.readN s.mem x.pa n, false) ∧ Evicts s s1 t line) ∧
  (∀ l, x.direct = false → (s.tile t).line line = some l →
    let whole := decide (l.rix = x.rix) && decide (spanMask (x.pa % 128) n &&& ~~~l.valid = 0)
    let held := if whole then l.data else mergeBytes l.dirty l.data (chanLine s line)
    (l.asid = asid → ∃ s1, tileLoad s t asid x n = (s1, lineBytes held (x.pa % 128) n, false) ∧ s1.mem = s.mem) ∧
    (l.asid ≠ asid → tileLoad s t asid x n = tileLoad (invalidateLine s t line) t asid x n)) ∧
  (x.direct = false → 0 < (s.tile t).waysOf (line % 64) →
    (tileLoad (tileStore s t asid x n v) t asid x n).2 = (v % 2 ^ (8 * n), false)) ∧
  (x.direct = true → (tileStore s t asid x n v).mem = Memory.writeN seen x.pa n v) ∧
  (let m := (invalidateLine s t line).mem
   (∃ s1, chanAtomic s t x.pa n new = (s1, Memory.readN m x.pa n, false) ∧
     s1.mem = Memory.writeN m x.pa n (new (Memory.readN m x.pa n))) ∧
   ((s.tile t).line line = none → m = s.mem) ∧
   (∀ l, (s.tile t).line line = some l → m = Memory.writeMasked s.mem (line * 128) l.dirty.toNat l.data.toNat 128)) ∧
  (∀ (m : Memory) (a k : Nat), m.wf = true → (m.writeN a k v).readN a k = v % 2 ^ (8 * k) ∧
    (∀ b, b < a ∨ a + k ≤ b → (m.writeN a k v).read b = m.read b))

/-- The atomic operations compute the new value of the location as R190 gives (R190, R194). -/
def Obligations.AtomicOperations : Prop := ∀ (w x v : Nat), 0 < w → x < 2 ^ w → v < 2 ^ w →
  let old := BitVec.ofNat w x
  let arg := BitVec.ofNat w v
  let new := fun (o : BitVec 4) => BitVec.ofNat w (atomNew o w x v)
  new 0 = old + arg ∧ (new 1).toInt = min old.toInt arg.toInt ∧ (new 2).toInt = max old.toInt arg.toInt ∧
  atomNew 3 w x v = min x v ∧ atomNew 4 w x v = max x v ∧ new 5 = old &&& arg ∧ new 6 = old ||| arg ∧ new 7 = old ^^^ arg ∧
  atomNew 8 w x v = v ∧ atomNew 9 w x v = (if v ≤ x then 0 else x + 1) ∧
  atomNew 0xA w x v = (fadd fmtF32 (fdecode fmtF32 x) (fdecode fmtF32 v)).bits ∧
  atomNew 0xB w x v = (fadd fmtBf16 (fdecode fmtBf16 x) (fdecode fmtBf16 v)).bits

/-! ### Ordering, streams, group registers and pipes -/

namespace Sys2Proof.Claims

/-- The instruction retires from a machine s2 with the warp x. -/
def RetiresFrom (s₀ : State) (i : Instr) (r : WRef) (g : Workgroup) (w : Warp) (s2 : State) (x : Warp) : Prop :=
  exec i s₀ = .next (retire s2 r (g.setWarp r.wp w) w x false)

/-- The lines of a tile that belong to the context of a workgroup. -/
def contextLine (s : State) (g : Workgroup) (l : Line) : Bool := l.asid == s.asidOf g

end Sys2Proof.Claims

/-- A FENCE below cluster scope changes the warp's prefetched vectors alone; from cluster scope on a release writes back the
dirty lines of the context and waits for the acknowledgements of the tile's writes, and an acquire then invalidates the lines
(R198, R286, R328, R341). -/
def Sys2Proof.Claims.fences : Prop := ∀ (s₀ s : State) (k : BitVec 2) (sc : BitVec 3) (r : WRef) (g : Workgroup) (w : Warp),
  let i := Instr.fence k sc
  let s0 := s.setWarp r w
  let g0 := g.setWarp r.wp w
  let mine := contextLine s0 g0
  let s1 := if k = 1 then s0 else writeBackWhere s0 g.tile mine
  let x := if k = 0 then w else w.dropPrefetch
  Issues s₀ s i act r g w →
  (sc.toNat < 3 → RetiresAs s₀ s i r (goneOn s.issues x)) ∧
  (3 ≤ sc.toNat → k ≠ 1 → ((s1.tile g.tile).unacked ≠ [] ∨ (sc = 6 ∧ w.remote ≠ 0)) → exec i s₀ = .next (waitAt s1 r w .remote)) ∧
  (3 ≤ sc.toNat → (k = 1 ∨ ((s1.tile g.tile).unacked = [] ∧ (sc = 6 → w.remote = 0))) →
    RetiresFrom s₀ i r g w (if k = 0 then writeBackWhere s1 g.tile mine else invalidateWhere s1 g.tile mine) x)

/-- Writing back leaves no dirty byte in the lines chosen, and invalidating leaves none of those lines, when no line is held
twice (R284, R286). -/
def Sys2Proof.Claims.lineInvalidation : Prop := ∀ (s : State) (t asid : Nat),
  ((s.tile t).lines.map (·.line)).Nodup →
  (∀ l ∈ ((writeBackWhere s t (fun l => l.asid == asid)).tile t).lines, l.asid = asid → l.dirty = 0) ∧
  (∀ l ∈ ((invalidateWhere s t (fun l => l.asid == asid)).tile t).lines, l.asid ≠ asid)

/-- FENCE, and what writing back and invalidating leave in a tile (R198, R284, R286, R328, R341). -/
def Obligations.FencesAndLines : Prop := Sys2Proof.Claims.fences ∧ Sys2Proof.Claims.lineInvalidation

/-- ACQ reads its object at the channel and gives it in sd, REL stores sd to its object, both with the lines of the regions bound
to the object; WAITC retires as an acquire once the counter has the value and waits while it has not, an event waking it;
PUBLISH, from cluster scope on a release before anything else, gives 1 without an entry, 2 for one without a shadow, and otherwise
the home exchanges the two offsets, raises the generation and gives 0; an error completion of an object's request is a global
fault (R197, R199, R277, R297, R449; that it falls to the next request at its address is the model's, log entry 2, and so are the sizes in the TYPE
of its record, DEDUCED, log entry 15). -/
def Obligations.OrderingObjects : Prop := ∀ (s₀ s : State) (d a : BitVec 6) (sc : BitVec 3) (r : WRef) (g : Workgroup) (w : Warp)
    (s1 : State) (y : Xlated),
  let s0 := s.setWarp r w
  let g0 := g.setWarp r.wp w
  let va := (w.sget a.toNat).toNat
  let check := fun (k : Acc) => checkAccess s0 g0 w k va 8 = (s1, .ok y) ∧ w.farFault y 32 va = none
  let fails := fun (i : Instr) (k : Acc) (typ : Nat) => checkAccess s0 g0 w k va 8 = (s1, .ok y) → ∀ e, w.farFault y 32 va = some e →
    exec i s₀ = .next (retireWithRecords s1 r g0 w w false [uniRecord w va e typ])
  let sees := fun (s2 : State) (v : Nat) => chanObject s1 g.tile y.pa = (s2, v, false)
  (Issues s₀ s (.acq d a sc) act r g w → check .atomic → ∀ s2 v, sees s2 v → RetiresFrom s₀ (.acq d a sc) r g w
    (invalidateWhere s2 g.tile (boundLine s2 g0 va)) ((w.sset d.toNat (BitVec.ofNat 64 v)).dropPrefetch)) ∧
  (Issues s₀ s (.rel d a sc) act r g w → check .relObj →
    let s2 := if sc.toNat < 3 then s1 else writeBackWhere s1 g.tile (boundLine s1 g0 va)
    (awaitsAcks s2 g0 w true sc.toNat = true → exec (.rel d a sc) s₀ = .next (waitAt s2 r w .remote)) ∧
    (awaitsAcks s2 g0 w true sc.toNat = false → RetiresFrom s₀ (.rel d a sc) r g w
      (chanWrite (invalidateLine s2 g.tile (y.pa / 128)) y.pa 8 (w.sget d.toNat).toNat)
      { w.noteStores true 8 [(32, va, .ok y)] with
        posted := w.posted ++ (farRecords w (32 + 8) [(32, va, .ok y)]).map (fun f => (w.c.handler.isSome, f)) })) ∧
  (Issues s₀ s (.waitc d a) act r g w → check .waitObj → ∀ s2 v, sees s2 v →
    (v < (w.sget d.toNat).toNat →
      exec (.waitc d a) s₀ = .next (waitAt s2 r w (.counter va (w.sget d.toNat).toNat))) ∧
    ((w.sget d.toNat).toNat ≤ v → RetiresFrom s₀ (.waitc d a) r g w (invalidateWhere s2 g.tile (contextLine s2 g0)) w.dropPrefetch)) ∧
  (Issues s₀ s (.acq d a sc) act r g w → fails (.acq d a sc) .atomic (64 + 8)) ∧
  (Issues s₀ s (.rel d a sc) act r g w → fails (.rel d a sc) .relObj (32 + 8)) ∧
  (Issues s₀ s (.waitc d a) act r g w → fails (.waitc d a) .waitObj (64 + 8)) ∧
  (Issues s₀ s (.publish d a sc) act r g w →
    let mine := contextLine s0 g0
    let s2 := if sc.toNat < 3 then s0 else writeBackWhere s0 g.tile mine
    let s3 := if sc.toNat < 3 then s2 else writeBackWhere s2 g.tile mine
    let owed := 3 ≤ sc.toNat ∧ ((s2.tile g.tile).unacked ≠ [] ∨ (sc = 6 ∧ w.remote ≠ 0))
    let table := rangeTable s3 ((s3.slot g.slot).rtab * 2048)
    (owed → exec (.publish d a sc) s₀ = .next (waitAt s2 r w .remote)) ∧
    (¬ owed → findRange table va 0 = none → RetiresFrom s₀ (.publish d a sc) r g w s3 (w.sset d.toNat 1)) ∧
    (∀ k e, ¬ owed → findRange table va 0 = some (k, e) →
      (rangeField e 6 1 = 0 → RetiresFrom s₀ (.publish d a sc) r g w s3 (w.sset d.toNat 2)) ∧
      (rangeField e 6 1 ≠ 0 → exec (.publish d a sc) s₀ =
        .next (waitAt { s3 with issues := s3.issues + 1 } r w (.publish va d.toNat s3.issues))))) ∧
  (∀ (q : WRef) (h : Workgroup) (x : Warp) (v n o : Nat), s.wg q.wg = some h → s.warp q = some x →
    (x.c.wait = .counter v n → s.frozen q = false → walkHeld s h.tile h.slot v = true → exec (.waitcWake q) s = .next (waitAt s q x .none)) ∧
    (x.c.wait = .counter v n → s.frozen q = false → walkHeld s h.tile h.slot v = false → ∀ s1 y s2 c, translate s h.tile h.slot v .waitObj = (s1, .ok y) →
      x.farFault y 32 v = none → chanObject s1 h.tile y.pa = (s2, c, false) →
      (c < n → exec (.waitcWake q) s = .next s2) ∧
      (n ≤ c → exec (.waitcWake q) s = .next (retire (invalidateWhere s2 h.tile (contextLine s2 h)) q h x x.dropPrefetch false)) ∧
      (c < n → y.pa / 2 ^ 48 ≠ 0 → exec (.remoteCounterPoll q) s = .next s2) ∧
      (n ≤ c → y.pa / 2 ^ 48 ≠ 0 → exec (.remoteCounterPoll q) s =
        .next (retire (invalidateWhere s2 h.tile (contextLine s2 h)) q h x x.dropPrefetch false))) ∧
    (x.c.wait = .publish v n o → ∀ k e, findRange (rangeTable s ((s.slot h.slot).rtab * 2048)) v 0 = some (k, e) →
      rangeField e 6 1 ≠ 0 → publishBefore s h.slot k o = false → exec (.publishExchange q) s =
        .next (retire (writeRange s h.slot k (exchanged e)) q h x (x.sset n 0) false))) ∧
  (∀ e : BitVec 256, rangeField (exchanged e) 108 40 = rangeField e 148 40 ∧ rangeField (exchanged e) 148 40 = rangeField e 108 40 ∧
    rangeField (exchanged e) 192 16 = (rangeField e 192 16 + 1) % 2 ^ 16 ∧ rangeField (exchanged e) 0 108 = rangeField e 0 108 ∧
    rangeField (exchanged e) 208 48 = rangeField e 208 48)

/-- An acknowledged remote write is taken off its warp, and the warps that wait on a remote counter test it; an acknowledged write of a tile off the tile; with none left the releases
that wait on them go on (R328, R340, R341, R344). -/
def Sys2Proof.Claims.acknowledgements : Prop := ∀ (s : State) (r : WRef) (w : Warp) (tile line : Nat),
  (s.warp r = some w → ∃ u, exec (.remoteWriteAck r) s = .next (testCounters (s.setWarp r u) (fun _ => true) true) ∧
    ((∀ q x, s.warp q = some x → ∀ v n, x.c.wait ≠ .counter v n) → exec (.remoteWriteAck r) s = .next (s.setWarp r u)) ∧
    u = { w with remote := w.remote - 1, c := { w.c with wait := u.c.wait } } ∧
    u.c.wait = if w.c.wait = .remote ∧ w.remote - 1 = 0 then .none else w.c.wait) ∧
  (∃ t, exec (.writeAcknowledgement tile line) s = .next t ∧ (t.tile tile).unacked = (s.tile tile).unacked.erase line ∧
    t.mem = s.mem ∧
    (∀ q h x, s.wg q.wg = some h → s.warp q = some x → ∃ y, t.warp q = some y ∧
      y = { x with c := { x.c with wait := y.c.wait } } ∧
      y.c.wait = if h.tile = tile ∧ (s.tile tile).unacked.erase line = [] ∧ x.c.wait = .remote then .none else x.c.wait))

/-- STSET loads four words and starts at position 0, or takes the format fault; STPOS sets the position, STSKIP moves it without
passing 2^32 - 1; all drop the prefetched vectors; STSAVE reads a word; element e lies at BASE + (e mod ICOUNT) * ISTRIDE +
(e div ICOUNT) * OSTRIDE (R25, R201, R202). -/
def Sys2Proof.Claims.streams : Prop := ∀ (s₀ s : State) (d a : BitVec 6) (n k : BitVec 3) (r : WRef) (g : Workgroup) (w : Warp),
  let s0 := s.setWarp r w
  let g0 := g.setWarp r.wp w
  let x := fun i => w.sget (a.toNat + i)
  let old := w.stream n.toNat
  let legalWords := fieldOf (x 0) 56 8 = 0 ∧ fieldOf (x 0) 53 3 ≤ 4 ∧ byteFmt (BitVec.ofNat 5 (fieldOf (x 0) 48 5)) = true ∧
    fieldOf (x 1) 0 32 ≠ 0 ∧ fieldOf (x 1) 32 32 ≠ 0
  let sets := fun (i : Instr) (st : Stream) => ∃ p : State × Warp, p = prefetch s0 r g0 (w.setStream n.toNat st) n.toNat ∧
    RetiresFrom s₀ i r g w p.1 p.2
  w.sp.cvm.getLsbD n.toNat = false →
  (Issues s₀ s (.stset a n) act r g w →
    (legalWords → sets (.stset a n) ⟨x 0, x 1, x 2, x 3, 0, []⟩) ∧ (¬ legalWords → exec (.stset a n) s₀ = .next (preciseTrap s0 r w 0x02))) ∧
  (Issues s₀ s (.stpos a n) act r g w →
    sets (.stpos a n) { old with w4 := BitVec.ofNat 64 ((w.sget a.toNat).toNat % 2 ^ 32), pre := [] }) ∧
  (Issues s₀ s (.stskip a n) act r g w → ∃ v : Reg, sets (.stskip a n) { old with w4 := v, pre := [] } ∧
    v.toNat % 2 ^ 32 = min (old.w4.toNat % 2 ^ 32 + (w.sget a.toNat).toNat) (2 ^ 32 - 1) ∧ v.toNat / 2 ^ 32 = old.w4.toNat / 2 ^ 32) ∧
  (Issues s₀ s (.stsave d k n) act r g w → ∃ v : Reg, WritesS s₀ s (.stsave d k n) r w d v ∧ (k = 0 → v = old.w0) ∧
    (k = 1 → v = old.w1) ∧ (k = 2 → v = old.w2) ∧ (k = 3 → v = old.w3) ∧ (k = 4 → v = old.w4)) ∧
  (∀ (y : Stream) (e : Nat), y.addr e = (y.w0.toNat % 2 ^ 48 : Nat) + ((e % (y.w1.toNat % 2 ^ 32) : Nat) : Int) * y.w2.toInt +
    ((e / (y.w1.toNat % 2 ^ 32) : Nat) : Int) * y.w3.toInt)

/-- A consumption moves a stream's position on by one, up to 2^32 - 1, sets EXH when a lane read past the end and else keeps it,
and leaves the other words; the lanes of the mask before the end read their element (R26). -/
def Sys2Proof.Claims.streamAdvance : Prop := ∀ (x : Stream) (m : Mask) (p : Nat) (exh : Bool),
  let y := x.advance exh
  y.w0 = x.w0 ∧ y.w1 = x.w1 ∧ y.w2 = x.w2 ∧ y.w3 = x.w3 ∧
  y.w4.toNat % 2 ^ 32 = min (x.w4.toNat % 2 ^ 32 + 1) (2 ^ 32 - 1) ∧
  y.w4.toNat / 2 ^ 32 = (if exh then 1 else x.w4.toNat / 2 ^ 32 % 2) ∧
  (∀ l a, (l, a) ∈ x.reads m p ↔ l < 32 ∧ m.getLsbD l = true ∧
    p * 32 + l < (x.w1.toNat % 2 ^ 32) * (x.w1.toNat / 2 ^ 32) ∧ a = x.addr (p * 32 + l)) ∧
  (∀ v ∈ y.pre, v ∈ x.pre ∧ min (x.w4.toNat % 2 ^ 32 + 1) (2 ^ 32 - 1) ≤ v.at_)

/-- The stream instructions, and how a stream advances (R24-R27, R201-R206). -/
def Obligations.StreamRegisters : Prop := Sys2Proof.Claims.streams ∧ Sys2Proof.Claims.streamAdvance

/-- GRD reads a group register, GWR writes one, GATOM applies an atomic operation to one and returns the old value; no other
group register, no memory and no other warp changes; a GRD gives a write from two cycles after it on, and before that what the
register held (R29, R205). -/
def Obligations.GroupRegisters : Prop := ∀ (s₀ s : State) (d a : BitVec 6) (k o : BitVec 4) (r : WRef) (g : Workgroup) (w : Warp),
  let s0 := s.setWarp r w
  let old := g.gget k.toNat
  let now := (s.tile g.tile).cycle
  let m := if o = 0xA then 32 else if o = 0xB then 16 else 64
  let wrote := fun (i : Instr) (x : Reg) (u : Warp) => RetiresFrom s₀ i r g w (s0.updWg r.wg (fun g => g.gwrite now r.wp k.toNat x)) u
  (Issues s₀ s (.grd d k) act r g w → WritesS s₀ s (.grd d k) r w d (g.gread now k.toNat)) ∧
  (Issues s₀ s (.gwr a k) act r g w → wrote (.gwr a k) (w.sget a.toNat) w) ∧
  (Issues s₀ s (.gatom d k a o) act r g w → ∃ new : Reg,
    wrote (.gatom d k a o) new (w.sset d.toNat (BitVec.ofNat 64 (old.toNat % 2 ^ m))) ∧
    (m = 64 → new = BitVec.ofNat 64 (atomNew o 64 old.toNat (w.sget a.toNat).toNat)) ∧
    (m < 64 → new.toNat / 2 ^ m = old.toNat / 2 ^ m ∧
      new.toNat % 2 ^ m = atomNew o m (old.toNat % 2 ^ m) ((w.sget a.toNat).toNat % 2 ^ m) % 2 ^ m)) ∧
  (∀ (h : Workgroup) (j n : Nat) (x at_ later : Reg),
    let h' := h.gwrite at_ n k.toNat x
    let age := (later - at_).toNat
    h'.gget k.toNat = x ∧ (j ≠ k.toNat → h'.gget j = h.gget j ∧ h'.gread later j = h.gread later j) ∧ h'.sp = h.sp ∧ h'.warps = h.warps ∧
    (2 ≤ age → age < 2 ^ 64 - 1 → h'.gread later k.toNat = x) ∧
    (age < 2 → Table.get h.recent [] k.toNat = [] → h'.gread later k.toNat = h.gget k.toNat))

/-- QBIND binds a queue register to an enabled pipe of the context or unbinds it; QPUSH and QPUSHV append entries or take the
overflow trap; QPOP takes the oldest available entry that has gone to no waiting warp or waits, QTRY and QSTEAL take it or give 0;
QLEN counts; all others take the pipe fault (R208-R212; that an entry can have gone to a warp that cannot retire yet is the
model's, log entry 16). -/
def Sys2Proof.Claims.pipes : Prop := ∀ (s₀ s : State) (d a : BitVec 6) (k : BitVec 3) (n : BitVec 5) (r : WRef) (g : Workgroup) (w : Warp)
    (q : Nat),
  let s0 := s.setWarp r w
  let g0 := g.setWarp r.wp w
  let c := g.tile / 8
  let p := s0.pipe c q
  let usable := fun (j : Nat) => (s0.pipe c j).en = true ∧ (s0.pipe c j).asid = s0.asidOf g0
  let v := w.sget a.toNat
  let traps := fun (i : Instr) (code : Nat) => exec i s₀ = .next (preciseTrap s0 r w code)
  let pushes := fun (i : Instr) (vs : List Reg) =>
    (p.count + vs.length ≤ p.quota →
      exec i s₀ = .next (failPoppers (pushEntries (retire s0 r g0 w w false) c q vs) c q)) ∧
    (p.quota < p.count + vs.length → traps i 0x06)
  let firstFree := fun (j : Nat) (pre : List PipeEntry) (e : PipeEntry) (rest : List PipeEntry) =>
    (s0.pipe c j).entries = pre ++ e :: rest ∧ (∀ x ∈ pre, x.gone (poppers s0 c j) = true) ∧ e.gone (poppers s0 c j) = false
  let takes := fun (i : Instr) (j : Nat) (x : PipeEntry → Warp) => ∀ pre e rest, firstFree j pre e rest →
    e.ready = true → exec i s₀ = .next (failPoppers
      (retire (refill (s0.setPipe c j { s0.pipe c j with entries := pre ++ rest }) c j 1) r g0 w (x e) false) c j)
  let empty := fun (j : Nat) => ∀ pre e rest, firstFree j pre e rest → e.ready = false
  (Issues s₀ s (.qbind a k) act r g w →
    let bound := fun (b : Option Nat) => ({ w with r := { w.r with q := Table.set w.r.q k.toNat b } } : Warp)
    (v.getLsbD 6 = true → RetiresAs s₀ s (.qbind a k) r (goneOn s.issues (bound none))) ∧
    (v.getLsbD 6 = false → usable (v.toNat % 64) → RetiresAs s₀ s (.qbind a k) r (goneOn s.issues (bound (some (v.toNat % 64))))) ∧
    (v.getLsbD 6 = false → ¬ usable (v.toNat % 64) → traps (.qbind a k) 0x05)) ∧
  (w.queue k.toNat = some q → usable q →
    (Issues s₀ s (.qpush a k) act r g w → pushes (.qpush a k) [v]) ∧
    (Issues s₀ s (.qpushv a n k) act r g w → pushes (.qpushv a n k) ((List.range (n.toNat + 1)).map (fun j => w.sget (a.toNat + j)))) ∧
    (Issues s₀ s (.qpop d k) act r g w → takes (.qpop d k) q (fun e => w.sset d.toNat e.v) ∧
      (empty q → exec (.qpop d k) s₀ = .next (waitAt { s0 with issues := s0.issues + 1 } r w (.pipe q s0.issues d.toNat)))) ∧
    (Issues s₀ s (.qtry d k) act r g w → takes (.qtry d k) q (fun e => (w.sset d.toNat e.v).sset (d.toNat + 1) 1) ∧
      (empty q → RetiresAs s₀ s (.qtry d k) r (goneOn s.issues ((w.sset d.toNat 0).sset (d.toNat + 1) 0)))) ∧
    (Issues s₀ s (.qlen d k) act r g w → WritesS s₀ s (.qlen d k) r w d (BitVec.ofNat 64 (p.entries.length + p.spilled.length)))) ∧
  (Issues s₀ s (.qsteal d a) act r g w → usable (v.toNat % 64) →
    takes (.qsteal d a) (v.toNat % 64) (fun e => (w.sset d.toNat e.v).sset (d.toNat + 1) 1) ∧
    (empty (v.toNat % 64) → RetiresAs s₀ s (.qsteal d a) r (goneOn s.issues ((w.sset d.toNat 0).sset (d.toNat + 1) 0)))) ∧
  (Issues s₀ s (.qsteal d a) act r g w → ¬ usable (v.toNat % 64) → traps (.qsteal d a) 0x05) ∧
  (w.queue k.toNat = none ∨ (w.queue k.toNat = some q ∧ ¬ usable q) →
    (Issues s₀ s (.qpush a k) act r g w → traps (.qpush a k) 0x05) ∧ (Issues s₀ s (.qpushv a n k) act r g w → traps (.qpushv a n k) 0x05) ∧
    (Issues s₀ s (.qpop d k) act r g w → traps (.qpop d k) 0x05) ∧ (Issues s₀ s (.qtry d k) act r g w → traps (.qtry d k) 0x05) ∧
    (Issues s₀ s (.qlen d k) act r g w → traps (.qlen d k) 0x05))

/-- A push that finds room on chip and nothing spilled goes last on chip, else its entries go to places of the ring that hold none, in
order; where one of these cannot be written nothing is appended and the pipe is disabled. Entries become available in order,
and go to a QPOP that waits; a write of a pipe's descriptor changes its fields and keeps its entries (R207, R210-R212). That a push
which meets an error of the ring appends nothing, that entries take the next free places, and that a QUOTA of 0 is stored are
the model's (log entry 16). -/
def Sys2Proof.Claims.pipeEntries : Prop := ∀ (s : State) (c k : Nat) (v : Reg) (vs : List Reg),
  let p := s.pipe c k
  let t := pushEntries s c k vs
  (p.spilled = [] → p.entries.length + vs.length ≤ 256 → t.mem = s.mem ∧ (t.pipe c k).spilled = [] ∧
    (t.pipe c k).entries = p.entries ++ vs.map (fun x => ⟨x, false, none⟩)) ∧
  (∀ i, p.spilled ≠ [] ∨ 256 ≤ p.entries.length → vs = [v] → p.places 1 = [i] → p.ringAddr i / 128 ∉ s.dev.badLines →
    (t.pipe c k).entries = p.entries ∧ (t.pipe c k).spilled = p.spilled ++ [p.ringAddr i] ∧
    (s.mem.wf = true → t.mem.readN (p.ringAddr i) 8 = v.toNat)) ∧
  (∀ i, p.spilled ≠ [] ∨ 256 ≤ p.entries.length → i ∈ p.places vs.length → p.ringAddr i / 128 ∈ s.dev.badLines →
    t.mem = s.mem ∧ (t.pipe c k) = { p with en := false }) ∧
  (∀ n i, i ∈ p.places n → p.ringAddr i ∉ p.spilled) ∧
  (∀ u : State, poppers s c k = [] → exec (.pipeEntryAvailable c k) s = .next u →
    u = s.setPipe c k { p with entries := makeReady p.entries }) ∧
  (∃ u, exec (.pipeEntryAvailable c k) s = .next u) ∧
  (∀ pre e post, (∀ x ∈ pre, x.ready = true) → e.ready = false →
    makeReady (pre ++ e :: post) = pre ++ { e with ready := true } :: post) ∧
  (poppers s c k = [] →
    exec (.pipeDescriptorWrite c k 0 v) s = .next (s.setPipe c k { p with en := v.getLsbD 0, ring := v.toNat / 2 ^ 12 % 2 ^ 40 }) ∧
    exec (.pipeDescriptorWrite c k 1 v) s =
      .next (s.setPipe c k { p with quota := v.toNat / 2 ^ 24 % 2 ^ 24, asid := v.toNat / 2 ^ 48 % 2 ^ 16 }))

/-- QPUSH, QPOP and the binding of pipes, and what their events do (R207-R214; log entry 16). -/
def Obligations.PipeAccess : Prop := Sys2Proof.Claims.pipes ∧ Sys2Proof.Claims.pipeEntries

/-! ### Barriers, convoys, system instructions and exceptions -/

/-- TBINIT makes a barrier in phase 0 with n pending arrivals, TBEXP adds expected sectors and with .ARR arrives, TBARR arrives
and returns the phase; the phase advances in the step that leaves nothing pending; a place or an object that is none traps; the
instruction is a release, at cluster scope for a sibling's barrier (R258-R261, R263). -/
def Sys2Proof.Claims.barrierUpdates : Prop := ∀ (s₀ s : State) (d a : BitVec 6) (e : BitVec 1) (k : BitVec 3) (r : WRef) (g : Workgroup)
    (w : Warp),
  let s0 := s.setWarp r w
  let g0 := g.setWarp r.wp w
  let off := (w.sget a.toNat).toNat
  let v := (w.sget d.toNat).toNat
  let place := fun (h : Workgroup) => off % 16 = 0 ∧ off + 16 ≤ h.spAlloc
  let sound := fun (b : TBar) => b.zero = 0 ∧ b.init ≠ 0 ∧ b.rest = 0
  let settled := fun (b : TBar) =>
    if b.pend = 0 ∧ b.sect = 0 then { b with phase := (b.phase + 1) % 16, pend := b.init, pv := 0, wprio := 0 } else b
  let own := fun (i : Instr) (b : TBar) (x : Warp) => RetiresFrom s₀ i r g w
    (s0.updWg r.wg (fun h => { h with sp := h.sp.writeN off 16 (tbarBits (settled b)) })) x
  let sibling := fun (i : Instr) (u : Nat) (b : TBar) (x : Warp) =>
    let mine := contextLine s0 g0
    let s1 := writeBackWhere s0 g.tile mine
    ((s1.tile g.tile).unacked ≠ [] → exec i s₀ = .next (waitAt s1 r w .remote)) ∧
    ((s1.tile g.tile).unacked = [] → RetiresFrom s₀ i r g w
      ((writeBackWhere s1 g.tile mine).updWg u (fun h => { h with sp := h.sp.writeN off 16 (tbarBits (settled b)) })) x)
  let traps := fun (i : Instr) => exec i s₀ = .next (preciseTrap s0 r w 0x09)
  let exp := fun (b : TBar) => { b with sect := (b.sect + v) % 2 ^ 32, pend := if e = 1 then b.pend - 1 else b.pend }
  let expOk := fun (b : TBar) => v < 2 ^ 32 ∧ sound b ∧ (e = 1 → b.pend ≠ 0)
  let arr := fun (b : TBar) => { b with pend := b.pend - 1 }
  let back := fun (b : TBar) => w.sset d.toNat (BitVec.ofNat 64 b.phase)
  let b := tbarAt g0 off
  (Issues s₀ s (.tbinit d a) act r g w →
    (place g → 0 < v → v < 2 ^ 24 → own (.tbinit d a) ⟨0, 0, v, v, 0, 0, 0, 0⟩ w) ∧
    (¬ place g ∨ v = 0 ∨ 2 ^ 24 ≤ v → traps (.tbinit d a))) ∧
  (Issues s₀ s (.tbexp d a e 0 k) act r g w → (place g → expOk b → own (.tbexp d a e 0 k) (exp b) w) ∧
    (¬ place g ∨ ¬ expOk b → traps (.tbexp d a e 0 k))) ∧
  (Issues s₀ s (.tbarr d a 0 k) act r g w → (place g → sound b → b.pend ≠ 0 → own (.tbarr d a 0 k) (arr b) (back b)) ∧
    (¬ place g ∨ ¬ sound b ∨ b.pend = 0 → traps (.tbarr d a 0 k))) ∧
  (∀ (u : Nat) (h : Workgroup), g.gangLaunch = true → g.gang[k.toNat]? = some u → s0.wg u = some h →
    let c := tbarAt h off
    (Issues s₀ s (.tbexp d a e 1 k) act r g w → place h → expOk c → sibling (.tbexp d a e 1 k) u (exp c) w) ∧
    (Issues s₀ s (.tbarr d a 1 k) act r g w → place h → sound c → c.pend ≠ 0 → sibling (.tbarr d a 1 k) u (arr c) (back c))) ∧
  (g.gangLaunch = false → (Issues s₀ s (.tbexp d a e 1 k) act r g w → traps (.tbexp d a e 1 k)) ∧
    (Issues s₀ s (.tbarr d a 1 k) act r g w → traps (.tbarr d a 1 k))) ∧
  (∀ n : Nat, n < 2 ^ 128 → tbarBits (tbarOf n) = n ∧ (tbarOf n).phase = n % 16 ∧ (tbarOf n).pend = n / 2 ^ 16 % 2 ^ 24 ∧
    (tbarOf n).init = n / 2 ^ 40 % 2 ^ 24 ∧ (tbarOf n).sect = n / 2 ^ 64 % 2 ^ 32)

/-- TBWAIT retires as an acquire at cluster scope once the phase is past the expected one, and otherwise records the waiter's
priority and waits until a wake finds the phase changed (R262, R263). -/
def Sys2Proof.Claims.barrierWaits : Prop := ∀ (s₀ s : State) (d a : BitVec 6) (r : WRef) (g : Workgroup) (w : Warp),
  let i := Instr.tbwait d a
  let s0 := s.setWarp r w
  let g0 := g.setWarp r.wp w
  let off := (w.sget a.toNat).toNat
  let b := tbarAt g0 off
  let good := off % 16 = 0 ∧ off + 16 ≤ g.spAlloc ∧ b.zero = 0 ∧ b.init ≠ 0 ∧ b.rest = 0
  let phase := (w.sget d.toNat).toNat % 16
  let waits := { b with wprio := max b.wprio (warpPrio g0 r.wp w), pv := 1 }
  (Issues s₀ s i act r g w →
    (good → b.phase ≠ phase → RetiresFrom s₀ i r g w (invalidateWhere s0 g.tile (contextLine s0 g0)) w.dropPrefetch) ∧
    (good → b.phase = phase → ∃ t, exec i s₀ = .next (waitAt { t with issues := t.issues + 1 } r w (.tb off phase t.issues)) ∧
      t = s0.updWg r.wg (fun h => tbarPut h off waits)) ∧
    (¬ good → exec i s₀ = .next (preciseTrap s0 r w 0x09))) ∧
  (∀ (u o : Nat) (q : Waiter) (h : Workgroup) (x : Warp), tbWaiters s u o = [q] → s.wg q.r.wg = some h → s.warp q.r = some x →
    exec (.tbwaitWake u o) s = .next (retire (invalidateWhere s h.tile (contextLine s h)) q.r h x x.dropPrefetch false)) ∧
  (∀ u o : Nat, tbWaiters s u o = [] → exec (.tbwaitWake u o) s = .next s) ∧
  (∀ u o q h, s.wg u = some h → q ∈ tbWaiters s u o → ∃ x ph n, (q.r.wp, x) ∈ h.warps ∧ x.c.wait = .tb o ph n ∧
    (tbarAt h o).phase ≠ ph)

/-- Transaction barriers: updates, and waits with their wake (R258-R263). -/
def Obligations.Barriers : Prop := Sys2Proof.Claims.barrierUpdates ∧ Sys2Proof.Claims.barrierWaits

/-- A warp at BAR or GBAR waits until every party has arrived or ended, and then every party that stands there goes on with a
fence, at workgroup scope or in a launch of gangs at cluster scope; the end of the last party missing releases the others
(R264). -/
def Obligations.Meetings : Prop := ∀ (s₀ s : State) (r : WRef) (g : Workgroup) (w : Warp) (gang : Bool),
  let i := if gang then Instr.gbar else .bar
  let t := waitAt (s.setWarp r w) r w (.bar gang)
  let us := if gang && g.gangLaunch then g.gang else [r.wg]
  let k := if gang then w.gbars else w.bars
  let p := meetingSends t us gang
  (Issues s₀ s i act r g w →
    (allArrived t us gang k = false → exec i s₀ = .next t) ∧
    (allArrived t us gang k = true → p.2 = false → exec i s₀ = .next p.1) ∧
    (allArrived t us gang k = true → p.2 = true →
      exec i s₀ = .next ((standing p.1 us gang k).foldl (fun s q => releaseParty s q gang) p.1))) ∧
  (∀ (q : WRef) (h : Workgroup) (x : Warp), s.wg q.wg = some h → s.warp q = some x →
    let far := gang && h.gangLaunch
    let mine := contextLine s h
    releaseParty s q gang = retire (if far then invalidateWhere s h.tile mine else s) q h x
      (if gang then { x.dropPrefetch with gbars := x.gbars + 1 } else { x.dropPrefetch with bars := x.bars + 1 }) false) ∧
  (∀ (u j : Nat) (h : Workgroup), s.wg u = some h →
    (h.warps.filterMap (fun x => if x.2.c.wait = .bar gang then some (x.2.meetings gang) else none)).eraseDups = [j] →
    exec (.barRelease u gang) s = .next (releaseMeeting s (meetingGroups h u gang) gang j)) ∧
  (∀ (j : Nat) (us : List Nat), allArrived s us gang j = false → releaseMeeting s us gang j = s) ∧
  (∀ us j, allArrived s us gang j = true ↔ ∀ u ∈ us, ∀ h, s.wg u = some h → ∀ x ∈ h.warps, x.2.c.ended = true ∨
    j < x.2.meetings gang ∨ (x.2.meetings gang = j ∧ x.2.c.wait = .bar gang))

/-- CVJOIN and CVREJOIN check the slot, the stream, the membership, the key, the room and the slip in that order, join on success
and write the status; CVLEAVE takes a member out; CVSLIP sets slip and patience or gives 8 (R266, R267). -/
def Sys2Proof.Claims.convoys : Prop := ∀ (s₀ s : State) (d a : BitVec 6) (n : BitVec 3) (r : WRef) (g : Workgroup) (w : Warp) (re : Bool),
  let i := if re then Instr.cvrejoin d a n else .cvjoin d a n
  let s0 := s.setWarp r w
  let die := g.tile / 128
  let v := (w.sget a.toNat).toNat
  let k := v % 256
  let c := s0.convoy die k
  let x := w.stream n.toNat
  let slip := w.sp.cvslip.toNat
  let keyed := c.base = x.w0.toNat % 2 ^ 48 ∧ c.istride = x.w2 ∧ c.ostride = x.w3 ∧ c.tag = x.tag
  let status := fun (code low : Nat) => BitVec.ofNat 64 (code + 2 ^ 32 * (low % 2 ^ 32))
  let fails := fun (code : Nat) (low : Nat) => RetiresAs s₀ s i r (goneOn s.issues (w.sset d.toNat (status code low)))
  let slotBad := 256 ≤ v ∨ c.en = false ∨ c.asid ≠ s0.asidOf (g.setWarp r.wp w)
  let member := w.sp.cvm.getLsbD n.toNat = true ∨ ∃ m ∈ c.members, m.w = r
  let near := x.pos ≤ c.minpos + slip ∧ c.minpos ≤ x.pos + slip
  let m : Member := ⟨r, n.toNat, x.pos, false, 0, 0, (s0.die die).tick, false, false, false, [], false⟩
  let joins := fun (code : Nat) (c' : Convoy) => RetiresFrom s₀ i r g w ((s0.setConvoy die k c').noteConvoy die k 1 r)
    (({ (w.setCvm n.toNat true) with sp := { (w.setCvm n.toNat true).sp with counted := w.sp.counted ||| BitVec.ofNat 8 (2 ^ n.toNat) } } :
      Warp).sset d.toNat (status code c'.minpos))
  (Issues s₀ s i act r g w →
    (slotBad → fails 4 0) ∧
    (¬ slotBad → x.icount = 0 → fails 5 0) ∧
    (¬ slotBad → x.icount ≠ 0 → member → fails 6 0) ∧
    (¬ slotBad → x.icount ≠ 0 → ¬ member → c.members = [] →
      joins 1 { c with base := x.w0.toNat % 2 ^ 48, istride := x.w2, ostride := x.w3, tag := x.tag, members := [m] }) ∧
    (¬ slotBad → x.icount ≠ 0 → ¬ member → c.members ≠ [] → ¬ keyed → fails 2 0) ∧
    (¬ slotBad → x.icount ≠ 0 → ¬ member → keyed → 64 ≤ c.members.length → fails 3 0) ∧
    (¬ slotBad → x.icount ≠ 0 → ¬ member → c.members ≠ [] → keyed → c.members.length < 64 →
      (re = true → ¬ near → fails 7 c.minpos) ∧
      (re = false ∨ near → joins 0 { c with members := c.members ++ [m] }))) ∧
  (Issues s₀ s (.cvleave d n) act r g w →
    (w.sp.cvm.getLsbD n.toNat = false → RetiresAs s₀ s (.cvleave d n) r (goneOn s.issues (w.sset d.toNat (status 9 0)))) ∧
    (w.sp.cvm.getLsbD n.toNat = true → ∃ x, RetiresFrom s₀ (.cvleave d n) r g w (leaveConvoy s0 die r n.toNat) x ∧
      (∀ y k, (leaveConvoy s0 die r n.toNat).warp r = some y → s0.memberSlot die r n.toNat = some k →
        x = y.sset d.toNat (status 0 ((leaveConvoy s0 die r n.toNat).convoy die k).minpos)))) ∧
  (Issues s₀ s (.cvslip d a) act r g w →
    let good := v % 128 ≠ 0 ∧ v % 128 ≤ 64 ∧ v / 2 ^ 7 % 2 ^ 9 = 0 ∧ v / 2 ^ 32 = 0
    let pat := v / 2 ^ 16 % 2 ^ 16
    (¬ good → RetiresAs s₀ s (.cvslip d a) r (goneOn s.issues (w.sset d.toNat (status 8 0)))) ∧
    (good → RetiresAs s₀ s (.cvslip d a) r (goneOn s.issues
      (({ w with sp := { w.sp with cvslip := BitVec.ofNat 8 (v % 128), cvpat := if pat = 0 then w.sp.cvpat else BitVec.ofNat 16 pat } } :
        Warp).sset d.toNat (status 0 (cvpos s0 die r w))))))

/-- A held member's hold ends when its stream's position is within the slip of the minimum, or in a tick after its patience has run out
when no stalled member is left, an expiry of the tick coming before a re-evaluation; its warp goes on once none of its streams is held; a slot's descriptor write sets context and
enable and detaches every member when it disables, which ends their holds (R356, R357, R362-R364, R373). That an expiry does
nothing in the tick in which the limit is reached, nor after a re-evaluation of its convoy in the same tick, and that a convoy
notes the last of its events, is the model's reading (DEDUCED, log entry 49). -/
def Sys2Proof.Claims.convoyEvents : Prop := ∀ (s : State) (die slot : Nat) (r : WRef) (w : Warp) (v : Reg),
  let c := s.convoy die (slot % 256)
  let set := fun (en : Bool) => s.setConvoy die (slot % 256) { c with asid := v.toNat / 2 ^ 48 % 2 ^ 16, en := en }
  (v.getLsbD 47 = true → exec (.convoySlotWrite die slot v) s = .next (set true)) ∧
  (v.getLsbD 47 = false → exec (.convoySlotWrite die slot v) s =
    .next (c.members.foldl (fun s m => detachMember s die m.w m.n) (set false))) ∧
  (∀ m, heldBy s die slot = [m] → s.warp m.w = some w → m.hstart + m.limit ≤ (s.die die).tick →
    let t := expire s die m.w m.n (s.die die).tick
    exec (.convoyReevaluate die slot) s = .next ((heldBy t die slot).foldl (fun s m => reevaluate s die slot m) t)) ∧
  (∀ m, heldBy s die slot = [m] → s.warp m.w = some w → (s.die die).tick < m.hstart + m.limit → exec (.convoyReevaluate die slot) s = .next
    (if slipAllows s die m.w w m.n then (endHold (endStreamHold s die slot m.w m) die m.w).noteConvoy die slot 3 m.w else s)) ∧
  (∀ n k, s.warp r = some w → s.memberSlot die r n = some k →
    let b := s.convoy die k
    let p := b.members.foldl (fun s m => if m.w == r && m.n == n && m.held then s.holdEnded die r m else s) s
    let gone := { b with members := b.members.filter (fun m => !(m.w == r && m.n == n)) }
    let sp := fun (x : Warp) => { (x.setCvm n false).sp with detach := sat16 (x.sp.detach + 1) }
    detachMember s die r n = (endHold ((p.setConvoy die k gone).noteConvoy die k 2 r) die r).updWarp r
      (fun x => { x.setCvm n false with sp := sp x })) ∧
  (s.warp r = some w → endHold s die r =
    if (s.die die).slots.any (fun c => c.2.members.any (fun m => m.w == r && m.held)) then s
    else s.setWarp r (match w.c.wait with
      | .hold _ _ => { w with c := { w.c with wait := .none } }
      | _ => w)) ∧
  (∀ g n k q m, s.wg r.wg = some g → s.warp r = some w → w.c.wait = .hold slot q → w.memberStreams = [n] →
    s.member (g.tile / 128) r n = some (k, s.convoy (g.tile / 128) k, m) →
    let d := g.tile / 128
    let past := fun (y : Member) => { y with expired := true, due := [] }
    (m.held = false ∨ (s.die d).tick ≤ m.hstart + m.limit → exec (.patienceExpiry r) s = .next s) ∧
    (s.leavesPast d 2 r = true → exec (.patienceExpiry r) s = .next s) ∧
    (m.held = true → m.hstart + m.limit < (s.die d).tick → s.leavesPast d 2 r = false → m.expired = false → stalledMembers (s.convoy d k) m.hstart = [] →
      exec (.patienceExpiry r) s = .next (endHold ((endStreamHold (s.updMember d k r n past) d k r (past m)).updMember d k r n
        (fun y => { y with go := true })) d r))) ∧
  (∀ n, slipAllows s die r w n = true ↔ ∀ k c m, s.member die r n = some (k, c, m) → m.go = true ∨
    (w.stream n).pos ≤ c.minpos + w.sp.cvslip.toNat)

/-- The convoy instructions and the events of convoys (R356-R371; log entry 49). -/
def Obligations.ConvoyMembership : Prop := Sys2Proof.Claims.convoys ∧ Sys2Proof.Claims.convoyEvents

/-- SRD.V writes a special register to the active lanes with its tag; SWR writes the writable registers or traps; REGION sets the
restart record; SLEEP waits for its ticks, none of them for 0; SETPERF asks for a level (R269-R272, R276, R279, R280). -/
def Obligations.System : Prop := ∀ (s₀ s : State) (d a n : BitVec 6) (h : BitVec 1) (o : BitVec 12) (r : WRef) (g : Workgroup) (w : Warp),
  let s0 := s.setWarp r w
  let g0 := g.setWarp r.wp w
  let v := w.sget a.toNat
  let swr := fun (k : BitVec 6) (f : WarpSpecial → WarpSpecial) => RetiresAs s₀ s (.swr a k) r (goneOn s.issues { w with sp := f w.sp })
  let vecOk := v.toNat % 4 = 0 ∧ v.toNat < 2 ^ 48
  let vec := fun (k : BitVec 6) (f : WarpSpecial → WarpSpecial) => Issues s₀ s (.swr a k) act r g w →
    (vecOk → swr k f) ∧ (¬ vecOk → TrapsWith s₀ s (.swr a k) r w 0x01)
  (Issues s₀ s (.srdV d h n) act r g w → RetiresAs s₀ s (.srdV d h n) r (goneOn s.issues
    (writeDst w (.reg (64 * h.toNat + d.toNat)) (if n = 0 then 0x06 else 0x08) w.active 0
      (fun l => if n = 0 then BitVec.ofNat 64 l else specialRead s0 r g0 w n.toNat 0)))) ∧
  (Issues s₀ s (.swr a 0x0B) act r g w → swr 0x0B (fun x => { x with fstat := v.setWidth 8 &&& 0x3F })) ∧
  (Issues s₀ s (.swr a 0x0D) act r g w →
    let x := { w with sp := { w.sp with mrow := v &&& mrowMask } }
    (v.getLsbD 63 = false → RetiresAs s₀ s (.swr a 0x0D) r (goneOn s.issues x)) ∧
    (v.getLsbD 63 = true → exec (.swr a 0x0D) s₀ =
      .next (resumeMatrix (retiredAs s r (goneOn s.issues x)) r w.pcOf w.c.pos.hdr w.c.pos.idx))) ∧
  (Issues s₀ s (.swr a 0x0F) act r g w → (1 ≤ v.toNat → v.toNat ≤ 64 → swr 0x0F (fun x => { x with cvslip := v.setWidth 8 })) ∧
    (v.toNat = 0 ∨ 64 < v.toNat → TrapsWith s₀ s (.swr a 0x0F) r w 0x01)) ∧
  (Issues s₀ s (.swr a 0x10) act r g w → (1 ≤ v.toNat → v.toNat < 2 ^ 16 → swr 0x10 (fun x => { x with cvpat := v.setWidth 16 })) ∧
    (v.toNat = 0 ∨ 2 ^ 16 ≤ v.toNat → TrapsWith s₀ s (.swr a 0x10) r w 0x01)) ∧
  (Issues s₀ s (.swr a 0x15) act r g w → swr 0x15 (fun x => { x with srseed := if v = 0 then 1 else v })) ∧
  vec 0x17 (fun x => { x with hvFault := v }) ∧ vec 0x18 (fun x => { x with hvCancel := v }) ∧
  vec 0x19 (fun x => { x with hvPreempt := v }) ∧ vec 0x1A (fun x => { x with hvTrap := v }) ∧
  (Issues s₀ s (.region a o) act r g w → RetiresAs s₀ s (.region a o) r (goneOn s.issues
    { w with region := some ((BitVec.ofInt 64 ((w.pcOf : Int) + 4 * o.toInt)).toNat, v) })) ∧
  (Issues s₀ s (.sleep a) act r g w → (v.toNat % 2 ^ 32 = 0 → RetiresAs s₀ s (.sleep a) r (goneOn s.issues w)) ∧
    (v.toNat % 2 ^ 32 ≠ 0 → ∃ u, exec (.sleep a) s₀ = .next ((retiredAs s r (goneOn s.issues w)).updWarp r
      (fun x => { x with c := { x.c with wait := .sleep u } })) ∧
      u = (((retiredAs s r (goneOn s.issues w)).die (g.tile / 128)).tick + v.toNat % 2 ^ 32))) ∧
  (∀ (q : WRef) (k : Workgroup) (x : Warp) (t : Nat), s.wg q.wg = some k → s.warp q = some x → x.c.wait = .sleep t →
    exec (.sleepExpire q) s = .next (if t ≤ (s.die (k.tile / 128)).tick then s.setWarp q { x with c := { x.c with wait := .none } } else s)) ∧
  (Issues s₀ s (.setperf d a) act r g w →
    let c := g.tile / 8
    let cap := (s0.slot g.slot).cap
    let l := min (v.toNat % 16) cap
    let low := levelVoltage l < (s0.pair (c / 2)).pfloor
    ∃ (t : State) (code : Nat), RetiresFrom s₀ (.setperf d a) r g w t (w.sset d.toNat
        (BitVec.ofNat 64 (code + requestOf t c g.slot * 2 ^ 8 + clockTarget (t.cluster c) * 2 ^ 12))) ∧
      (16 ≤ v.toNat → code = 3 ∧ t = s0) ∧ (v.toNat < 16 → low → code = 1 ∧ t = s0) ∧
      (v.toNat < 16 → ¬ low → code = (if cap < v.toNat then 2 else 0) ∧ requestOf t c g.slot = l))

/-- TRAP retires and then takes its trap with its number; TRET returns, outside a handler or not last in its clause it traps;
SIGDONE ends a pre-empt handler; BKPT parks with a break message when the slot debugs and has no effect otherwise; at a boundary
a known fault, a trap, a cancel and a pre-empt are taken in that order, none in a workgroup that ends or is discarded, and while its tile is in a swap none but a fault before the quiesce ends (R414); a parked warp takes
none but for a cancel or a pre-empt, and one whose messages are all answered issues again, or first goes on with an entry that waited for
its pages (R273, R275, R428, R431, R434, R436; log entry 17). -/
def Obligations.Traps : Prop := ∀ (s₀ s : State) (n : BitVec 8) (r : WRef) (g : Workgroup) (w : Warp),
  let s0 := s.setWarp r w
  let u := goneOn s.issues w
  let flagged := ({ u with c := { u.c with trapNo := some n.toNat } } : Warp)
  (Issues s₀ s (.trap n) act r g w → g.status = .resident → g.discard = false → w.c.handler = none → w.c.recs = [] →
    w.c.sigdone = false → w.c.entry = none → w.matParked = false → exec (.trap n) s₀ =
    .next (takeException (retiredAs s r flagged) r { u with c := { u.c with trapNo := none } } 0x20 n.toNat [] none)) ∧
  (Issues s₀ s .tret act r g w →
    (∀ k, w.c.handler = some k → w.c.pos.idx = w.c.pos.cl.len → exec .tret s₀ =
      .next (returnFromException { s0 with issues := s0.issues + 1 } r { w with lastIssue := s0.issues } k)) ∧
    (w.c.handler = none → w.c.pos.idx = w.c.pos.cl.len → TrapsWith s₀ s .tret r w 0x01)) ∧ LastOrTraps .tret ∧
  (Issues s₀ s .sigdone act r g w →
    (w.c.handler = some 3 → exec .sigdone s₀ = .next (retiredAs s r { w with lastIssue := s.issues, c := { w.c with sigdone := true } })) ∧
    (w.c.handler ≠ some 3 → TrapsWith s₀ s .sigdone r w 0x01)) ∧
  (Issues s₀ s (.bkpt n) act r g w →
    ((s0.slot g.slot).dbg = false → RetiresAs s₀ s (.bkpt n) r u) ∧
    ((s0.slot g.slot).dbg = true → ∃ m : FaultMsg, m.va = w.pcOf ∧ m.src = 3 ∧ m.acc = n.toNat ∧ m.answered = false ∧
      exec (.bkpt n) s₀ = .next ((sendMessage s0 m).setWarp r { w with c := { w.c with wait := .brk s0.dev.nextTag } }))) ∧
  (∀ q h x, s.wg q.wg = some h → s.warp q = some x → x.parked = true → x.c.cancelReq = false → x.c.preReq = false →
    exec (.handlerEntry q) s = .next s) ∧
  (∀ q h x e, s.wg q.wg = some h → s.warp q = some x → x.c.handler = none → x.c.ended = false → x.c.sigdone = false →
    x.parked = false → x.c.entry = some e → s.swapping h.tile = false → h.status = .resident → h.discard = false →
    exec (.handlerEntry q) s = .next (enterException s q { x with c := { x.c with entry := none } } e)) ∧
  (∀ q h x, s.wg q.wg = some h → s.warp q = some x → x.c.handler = none → x.c.ended = false → x.c.sigdone = false →
    x.parked = false → x.c.entry = none →
    (s.swapping h.tile = true → s.quiescing h.tile = false ∨ x.c.recs = [] → exec (.handlerEntry q) s = .next s) ∧
    (s.swapping h.tile = false ∨ (s.quiescing h.tile = true ∧ x.c.recs ≠ []) →
    (h.status ≠ .resident ∨ h.discard = true → exec (.handlerEntry q) s = .next s) ∧ (h.status = .resident → h.discard = false →
    let entry := fun (y : Warp) (code arg : Nat) (recs : List FaultRec) => exec (.handlerEntry q) s =
      .next (takeException s q y code arg recs none)
    (x.c.recs ≠ [] → entry { x with c := { x.c with recs := [] } } 0x10 0 x.c.recs) ∧
    (∀ k, x.c.recs = [] → x.c.trapNo = some k → entry { x with c := { x.c with trapNo := none } } 0x20 k []) ∧
    (x.c.recs = [] → x.c.trapNo = none → x.c.cancelReq = true → ∃ t, exec (.handlerEntry q) s =
      .next (takeException t q { x with c := { x.c with cancelReq := false } } 0x30 0 [] none)) ∧
    (x.c.recs = [] → x.c.trapNo = none → x.c.cancelReq = false → x.c.preReq = true → x.mat = none →
      s.leavesPast (h.tile / 128) 2 q = false → ∃ t, exec (.handlerEntry q) s =
      .next (takeException t q { x with c := { x.c with preReq := false } } 0x40 0 [] none)) ∧
    (x.c.recs = [] → x.c.trapNo = none → x.c.cancelReq = false → x.c.preReq = false → exec (.handlerEntry q) s = .next s)))) ∧
  (∀ q x, s.warp q = some x → exec (.warpReplay q) s =
    .next (s.setWarp q (if x.c.wait = .park [] then { x with c := { x.c with wait := .none } } else x)))

/-- Entering a handler writes the frame with cause, position, masks, s60 to s63, loops and stack, and the records, puts fault area,
cause, active and record masks in s63 to s60, empties stack and loops and goes to the vector; of a global fault the cause has the number of
records and U, of a pre-empt the memberships end first; a page of the area that misses parks the warp. In a handler the exception is a handler fault,
or ends a pre-empt handler; with no vector the workgroup ends with error, or the warp is done (R367, R420, R421, R423-R427, R430, R434, R439, R440).
That of two records of a lane one is kept, that an entry waits for its pages, that the traps of codes 0x20 and 0x30 leave prefetched vectors in
place, and that a sleep outlasts the entry of its warp, is the model's reading (DEDUCED, log entry 17). -/
def Sys2Proof.Claims.exceptionEntry : Prop := ∀ (s : State) (r : WRef) (g : Workgroup) (w : Warp) (code arg idx : Nat) (recs : List FaultRec),
  s.wg r.wg = some g → g.status = .resident → (g.warp r.wp).isSome = true → w.c.pos.mode ≠ .fell → w.mat = none → w.nones = [] → w.farFails = [] →
  code ∈ [0x01, 0x02, 0x03, 0x04, 0x05, 0x06, 0x07, 0x08, 0x09, 0x0A, 0x0B, 0x0C, 0x10, 0x20, 0x30, 0x40] → (code ≠ 0x10 → recs = []) →
  let k := if code = 0x20 then 1 else if code = 0x30 then 2 else if code = 0x40 then 3 else 0
  let vec := if k = 0 then w.sp.hvFault else if k = 1 then w.sp.hvTrap else if k = 2 then w.sp.hvCancel else w.sp.hvPreempt
  let x := if k = 1 ∨ k = 2 then w else w.dropPrefetch
  let area := g.area + 2048 * r.wp
  let rs := lastRecords recs
  let count := if code = 0x10 then rs.length else arg
  let cause := code + 2 ^ 8 * (count % 256) + (if rs.any (fun f => f.lane == 32) then 2 ^ 16 else 0)
  let rmask := maskOf (fun l => rs.any (fun f => f.lane == l))
  let first := firstRecord recs
  let pc := (first.map (·.pc)).getD w.c.pos.place
  let g1 := g.setWarp r.wp x
  let s2 := unhold (s.setWarp r x) (g.tile / 128) r
  let s3 := if k = 3 then detachAll s2 (g.tile / 128) r else s2
  let t := takeException s r w code arg recs (some idx)
  (w.c.handler = none → vec ≠ 0 → w.r.sAbsent = false →
    (∀ s4 p ps, areaMiss s2 g1 r.wp x .store = (s4, p :: ps) →
      let q := sendPages s4 r g1 0 Acc.store.code (p :: ps)
      t = q.1.setWarp r { x with c := { x.c with entry := some ⟨code, arg, recs, some idx⟩, wait := .park q.2 } }) ∧
    ((areaMiss s2 g1 r.wp x .store).2 = [] → ∀ v, s3.warp r = some v →
      let y := { x with sp := { x.sp with cvm := v.sp.cvm, detach := v.sp.detach } }
      let stores := handlerFrame y k cause rmask idx ++ rs.flatMap recordStores
      (k ≠ 3 → v = x) ∧
      (∀ s4, hwStores s3 g1 area stores = (s4, .ok) → ∃ z, t = s4.setWarp r z ∧
        z.sget 63 = BitVec.ofNat 64 area ∧ z.sget 62 = BitVec.ofNat 64 cause ∧ z.sget 61 = w.active.setWidth 64 ∧ z.sget 60 = rmask.setWidth 64 ∧
        (∀ j, j < 60 → z.sget j = w.sget j) ∧ z.c.stack = [] ∧ z.c.depth = 0 ∧ z.c.handler = some k ∧ z.c.wait = w.c.wait.entered k ∧
        z.c.pos = ⟨vec.toNat, 0, .target, .none⟩ ∧ z.r = { x.r with s := z.r.s } ∧ z.sp = y.sp ∧ z.outs = w.outs ∧ z.active = w.live) ∧
      (∀ s4 e, hwStores s3 g1 area stores = (s4, e) → e ≠ .ok → t = endWithError s4 r.wg 0x51 r.wp w.c.pos.place 0 0))) ∧
  (∀ h, w.c.handler = some h → h ≠ 3 → t = endWithError s2 r.wg 0x51 r.wp pc 0 0) ∧
  (w.c.handler = some 3 → t = reportExpiry (s2.setWarp r { x with c := { x.c with sigdone := true, wait := .none } }) g r.wp) ∧
  (let e := endWithError s2 r.wg code r.wp pc ((first.map (·.kind)).getD 0) ((first.map (·.addr)).getD 0)
   w.c.handler = none → vec = 0 → (k ≠ 2 → k ≠ 3 → t = e) ∧ (k = 2 → t = e.updWg r.wg (fun h => { h with cancelled := true })) ∧
    (k = 3 → t = s3.updWarp r (fun v => { v with c := { v.c with sigdone := true, wait := .none } }))) ∧
  (rs.map (·.lane)).Nodup ∧ (∀ f ∈ rs, f ∈ recs) ∧ (∀ f ∈ recs, ∃ f' ∈ rs, f'.lane = f.lane) ∧ ((recs.map (·.lane)).Nodup → rs = recs) ∧
  (∀ f ∈ recs, recordStores f = let o := if f.lane = 32 then 0x700 else 0x300 + 32 * f.lane
    [(o, 8, f.addr.toNat), (o + 8, 8, f.pc), (o + 16, 8, f.hdr),
     (o + 24, 8, f.lane + 2 ^ 8 * f.kind + 2 ^ 16 * f.offs + 2 ^ 24 * f.typ + 2 ^ 32 * f.fkind)]) ∧
  (∀ b : Nat, [(0x000, 8, cause), (0x008, 8, w.c.pos.hdr), (0x010, 1, idx), (0x011, 1, 0x80 + k), (0x012, 1, w.c.stack.length),
    (0x013, 1, w.c.depth), (0x014, 4, w.active.toNat), (0x018, 4, b), (0x01C, 4, w.c.base.toNat), (0x020, 8, (w.sget 60).toNat),
    (0x028, 8, (w.sget 61).toNat), (0x030, 8, (w.sget 62).toNat), (0x038, 8, (w.sget 63).toNat)] =
      (handlerFrame w k cause (BitVec.ofNat 32 b) idx).take 13 ∨ 2 ^ 32 ≤ b)

/-- Leaving a handler restores position, s60 to s63, loops and stack from the frame and keeps the exited and fault masks; from a
cancel handler the live lanes exit and the warp ends; a frame whose page misses parks the warp, and one that cannot be read or breaks its rules is a handler fault
(R428). That TRET in a pre-empt handler resumes the warp as in the other two is the model's reading (DEDUCED, log entry 17). -/
def Sys2Proof.Claims.exceptionReturn : Prop := ∀ (s : State) (r : WRef) (g : Workgroup) (w : Warp) (k : Nat) (s2 : State) (ws : List Reg),
  s.wg r.wg = some g →
  let t := returnFromException s r w k
  let word := fun i => ws.getD i 0
  let byte := fun i b => (word i).toNat / 2 ^ (8 * b) % 256
  (k = 2 → ∃ (s1 : State) (u : Warp), t = s1.setWarp r u ∧ u.c.ended = true ∧ u.c.handler = none ∧ u.c.exited = w.c.exited ||| w.live) ∧
  (∀ s1 p ps, k ≠ 2 → areaMiss s g r.wp w .load = (s1, p :: ps) →
    let q := sendPages s1 r g 0 Acc.load.code (p :: ps)
    t = q.1.setWarp r { w with c := { w.c with wait := .park q.2 } }) ∧
  (k ≠ 2 → (areaMiss s g r.wp w .load).2 = [] → hwLoadWords s g (g.area + 2048 * r.wp) 96 = (s2, ws, .ok) →
    (restoreFrame w ws = none → t = endWithError s2 r.wg 0x51 r.wp w.c.pos.place 0 0) ∧
    ((7 < byte 2 0 ∧ byte 2 0 ≠ 0xFF) ∨ 32 < byte 2 2 ∨ 3 < byte 2 3 → restoreFrame w ws = none) ∧
    (∀ u, restoreFrame w ws = some u → u.sget 60 = word 4 ∧ u.sget 61 = word 5 ∧ u.sget 62 = word 6 ∧ u.sget 63 = word 7 ∧
      (∀ j, j < 60 → u.sget j = w.sget j) ∧ u.c.handler = none ∧ u.c.depth = byte 2 3 ∧ u.c.stack.length = byte 2 2 ∧
      Table.get u.c.lc 0 0 = (word 8).toNat % 2 ^ 32 ∧ Table.get u.c.lc 0 1 = (word 8).toNat / 2 ^ 32 ∧
      u.c.exited = w.c.exited ∧ u.c.fmask = w.c.fmask ∧ u.c.pos.hdr = (word 1).toNat ∧
      (byte 2 0 ≠ 0xFF → u.c.pos.idx = byte 2 0 ∧ u.c.pos.mode = .flow) ∧ (byte 2 0 = 0xFF → u.c.pos.mode = .trap) ∧
      (u.active ≠ 0 → u.c.ended = false → t = s2.setWarp r { u with nones := [] }))) ∧
  (∀ e, k ≠ 2 → (areaMiss s g r.wp w .load).2 = [] → e ≠ .ok → hwLoadWords s g (g.area + 2048 * r.wp) 96 = (s2, ws, e) →
    t = endWithError s2 r.wg 0x51 r.wp w.c.pos.place 0 0)

/-- Taking an exception, that of a global fault with its records and that of a pre-empt among them, and returning from one (R367, R421-R431, R434,
R439, R440; log entry 17). -/
def Obligations.Exceptions : Prop := Sys2Proof.Claims.exceptionEntry ∧ Sys2Proof.Claims.exceptionReturn

/-! ### Matrix products -/

/-- MMA and MMT trap with 0x0A where the record passes s63 or is bad, where the row mask holds an inactive lane, and MMT where
its arrival cannot join; with 0x02 where an accumulator register has another tag. Otherwise they retire with MROW showing no
progress, the flag raised and the run held by the warp: MMA behind the tile's other products, MMT in its team. MZERO gives
the accumulator registers the tag and zeroes their active lanes; MSCALE writes the scale code of its format (R220-R224, R227,
R228, R235). -/
def Obligations.MatrixStarts : Prop := ∀ (s₀ s : State) (p : BitVec 3) (sr d a : BitVec 6) (f : BitVec 1) (v : BitVec 7)
    (n t : BitVec 2) (tg : BitVec 1) (k : BitVec 3) (r : WRef) (g : Workgroup) (w : Warp),
  let s0 := s.setWarp r w
  let g0 := g.setWarp r.wp w
  let mask := w.pget p.toNat
  let flag := w.flagOf f
  let words := fun (team : Bool) => recordWords w sr.toNat (recordLen w team sr.toNat)
  let late := fun (t : BitVec 2) =>
    arrivalBad s0 g0 (openTeam s0 (clusterOf g.tile) g.gang t.toNat) (words true)
  let x := goneOn s.issues w
  (Issues s₀ s (.mma p sr f v n) act r g w →
    (matrixBad g0 w false sr.toNat (accWidth n) mask = true → TrapsWith s₀ s (.mma p sr f v n) r w 0x0A) ∧
    (matrixBad g0 w false sr.toNat (accWidth n) mask = false → accTagged w v.toNat (accWidth n) (words false) = false →
      TrapsWith s₀ s (.mma p sr f v n) r w 0x02) ∧
    (matrixBad g0 w false sr.toNat (accWidth n) mask = false → accTagged w v.toNat (accWidth n) (words false) = true →
      ∃ u, exec (.mma p sr f v n) s₀ = .next ((retiredAs s r u).updEngine g.tile (fun q => q ++ [.mma r])) ∧
        u.sp.mrow = mrowStart none flag p.toNat n.toNat v.toNat sr.toNat ∧ u.flag flag = w.flag flag + 1 ∧
        (∃ m, u.mat = some m ∧ m.team = none ∧ m.words = words false ∧ m.vd = v.toNat ∧ m.n = accWidth n ∧ m.mask = mask) ∧
        u.r = { w.r with flags := u.r.flags })) ∧
  (Issues s₀ s (.mmt p sr f v t) act r g w →
    (matrixBad g0 w true sr.toNat 64 mask = true ∨ late t = true → TrapsWith s₀ s (.mmt p sr f v t) r w 0x0A) ∧
    (matrixBad g0 w true sr.toNat 64 mask = false → late t = false → accTagged w v.toNat 64 (words true) = false →
      TrapsWith s₀ s (.mmt p sr f v t) r w 0x02) ∧
    (matrixBad g0 w true sr.toNat 64 mask = false → late t = false → accTagged w v.toNat 64 (words true) = true →
      ∃ s1, s1.warp r = some x ∧ s1 = retiredAs s r x ∧ exec (.mmt p sr f v t) s₀ = .next (startMatrix s1 r g0 x (some t.toNat)
        sr.toNat v.toNat 64 p.toNat flag mask (mrowStart (some t.toNat) flag p.toNat 2 v.toNat sr.toNat) w.pcOf w.c.pos.hdr
        w.c.pos.idx))) ∧
  (Issues s₀ s (.mzero v n tg) act r g w → ∃ u, RetiresAs s₀ s (.mzero v n tg) r u ∧
    (∀ j ∈ span v.toNat (accWidth n), (u.vget j).tag = (if tg = 0 then 0x11#5 else 0x05#5) ∧
      ∀ l, l < 32 → laneOf (u.vget j).lanes l = if w.active.getLsbD l then 0 else laneOf (w.vget j).lanes l) ∧
    (∀ j, j ∉ span v.toNat (accWidth n) → u.vget j = w.vget j) ∧
    u = { goneOn s.issues w with r := { w.r with v := u.r.v } }) ∧
  (Issues s₀ s (.mscale d a k) act r g w →
    WritesS s₀ s (.mscale d a k) r w d (BitVec.ofNat 64 (mscaleCode k (fieldOf (w.sget a.toNat) 0 32))))

/-- A long-latency access that completes takes its count off its flag and frees its registers, its data errors becoming fault
records of the warp, or a fault of its handler if it was issued there and the warp is still in it; a row block of the product that an engine runs is added and MROW counts it, the last k-block's ending
the instruction; nothing happens while it is not the product's turn. A completion of the fabric makes its fault of a request
that left the device, a posted store after its completion among them, or ends the copy or the collective call it belongs to (R54, R186,
R223, R230, R236, R340, R449, R467). That a completion for which nothing is outstanding is kept for the access that made it is the model's
(DESIGN CHOICE, log entry 2), and so is that a row block fetches when it completes, and only the rows and columns that it needs (log entry 10). -/
def Sys2Proof.Claims.completions : Prop := ∀ (s : State) (r : WRef) (g : Workgroup) (w : Warp), s.wg r.wg = some g → s.warp r = some w →
  (∀ k o, (∀ m, w.mat = some m → m.opId ≠ k) → w.outs.find? (fun o => o.id == k) = some o → o.load = none →
    let x := { w.uncountFlag o.flag with outs := w.outs.filter (fun x => x.id != k), posted := w.posted ++ o.postedStores }
    let fin := fun (t : State) => if w.outs.any (fun o => o.id == k && !o.far.isEmpty) then testCounters t (fun _ => true) true else t
    (o.recs = [] → exec (.longLatencyComplete r k) s = .next (fin (s.setWarp r x))) ∧
    (o.recs ≠ [] → (o.inHandler = false ∨ w.c.handler = none ∨ w.c.sigdone = true ∨ w.c.ended = true ∨ g.status ≠ .resident ∨
      g.discard = true) → exec (.longLatencyComplete r k) s =
      .next (fin (s.setWarp r { x with c := { x.c with recs := w.c.recs ++ o.recs } }))) ∧
    (o.recs ≠ [] → o.inHandler = true → w.c.handler.isSome = true → w.c.sigdone = false → w.c.ended = false → g.status = .resident →
      g.discard = false → exec (.longLatencyComplete r k) s =
      .next (fin (takeException (s.setWarp r x) r x 0x10 o.recs.length o.recs none))) ∧
    x.flag o.flag = w.flag o.flag - 1) ∧
  (∀ m, w.mat = some m → m.team = none →
    let turn := m.tags = [] ∧ s.swapping g.tile = false ∧ (s.tile g.tile).engine.head? = some (.mma r)
    (¬ turn → exec (.matrixRowBlock r) s = .next s) ∧
    (turn → exec (.matrixRowBlock r) s = .next (rowBlock s r g w m)) ∧
    (blocksLeft m.mask w.sp.mrow = [] → rowBlock s r g w m = blockDone s r w m none true) ∧
    (∀ rb rest, blocksLeft m.mask w.sp.mrow = rb :: rest →
      let rows := rowsOf m.mask rb
      let cols := span 0 m.n
      let kb := mrowK w.sp.mrow
      let fs := blockFetches false m.words kb (neededRows m.words rows cols) (neededCols m.words rows cols)
      let w0 := { w with nones := m.nones }
      (∀ s1 va kind fmt, fetchBlocks s g w0 fs = .bad s1 va kind fmt →
        rowBlock s r g w m = faultMatrix s1 r (BitVec.ofNat 64 va) kind fmt) ∧
      (∀ s1 pages, fetchBlocks s g w0 fs = .miss s1 pages → rowBlock s r g w m = parkMatrix s1 r g w m pages) ∧
      (∀ s1 blocks, fetchBlocks s g w0 fs = .ok s1 blocks →
        let m' := { m with nones := [] }
        rowBlock s r g w m =
          blockDone s1 r (addBlock g { w with mat := some m' } m blocks kb 0 0 rows) m' (some rb) rest.isEmpty))) ∧
  (∀ (lane va : Nat), exec (.fabricCompletion r lane 0 va) s = .next s) ∧
  (∀ (lane status va : Nat) (o : Outst) (f : FaultRec), lane ≤ 32 → status = 1 ∨ status = 2 →
    w.outs.find? (fun o => (o.farRecord lane va).isSome) = some o → o.farRecord lane va = some f →
    exec (.fabricCompletion r lane status va) s =
      .next (s.setWarp r (failRequest w o { f with fkind := 0, kind := if status = 1 then 4 else 6 }))) ∧
  (∀ (lane status va : Nat) (p : Bool × FaultRec), lane ≤ 32 → status = 1 ∨ status = 2 → (∀ o ∈ w.outs, o.farRecord lane va = none) →
    w.posted.find? (fun p => p.2.lane == lane && p.2.addr == BitVec.ofNat 64 va) = some p →
    let f := { p.2 with fkind := 0, kind := if status = 1 then 4 else 6 }
    let x := { w with posted := w.posted.erase p }
    exec (.fabricCompletion r lane status va) s = .next (
      if p.1 = true ∧ w.c.handler.isSome = true ∧ w.c.sigdone = false ∧ w.c.ended = false ∧ g.status = .resident ∧ g.discard = false
      then takeException (s.setWarp r x) r x 0x10 1 [f] none
      else s.setWarp r { x with c := { x.c with recs := w.c.recs ++ [f] } })) ∧
  (∀ (o : Outst) (p : Bool × FaultRec), p ∈ o.postedStores ↔ p.1 = o.inHandler ∧ p.2 ∈ o.far ∧ p.2.typ / 32 = 1 ∧
    ∀ x ∈ o.recs, x.lane = p.2.lane → x.addr ≠ p.2.addr) ∧
  (∀ (lane status va : Nat), lane ≤ 32 → status = 1 ∨ status = 2 → (∀ o ∈ w.outs, o.farRecord lane va = none) →
    (∀ p ∈ w.posted, p.2.lane = lane → p.2.addr ≠ BitVec.ofNat 64 va) →
    exec (.fabricCompletion r lane status va) s = .next (s.setWarp r (w.farFail lane va (if status = 1 then 4 else 6)))) ∧
  (∀ (lane status va id : Nat) (c : Copy), 32 < lane → status = 1 ∨ status = 2 →
    s.dev.copies.find? (fun c => c.2.w == r && c.2.tok + 64 == lane && c.2.started && c.2.err.isNone) = some (id, c) →
    let code := if status = 1 then 0x03 else 0x05
    (s.call c.id = none → exec (.fabricCompletion r lane status va) s = .next (failCopy s c code c.next)) ∧
    (∀ k, s.call c.id = some k → groupFlagged s k = true → exec (.fabricCompletion r lane status va) s = .next (failCopy s c code c.next)) ∧
    (∀ k, s.call c.id = some k → groupFlagged s k = false → exec (.fabricCompletion r lane status va) s = .next (failGroup s k code 0)))

/-- Acknowledgements and completions of what is outstanding (R54, R186, R223, R230, R328, R340, R341, R449; that a fabric completion without a
outstanding access is kept for the next of its address: DESIGN CHOICE, log entry 2; that a row block fetches as it completes, the rows and
columns it needs: log entry 10). -/
def Obligations.OutstandingAccesses : Prop := Sys2Proof.Claims.acknowledgements ∧ Sys2Proof.Claims.completions

/-! ### Copies -/

/-- CPY, CPR and CPX trap with 0x07 in a warp that is not the producer and with 0x08 on a bad record; a copy of no bytes
retires with token 0, and any other joins the streamer's queue and the open batch, its token register as it was; that of no bytes counts as a time of 0. CPT and CPC
read their shape record first, a global fault of that ending the instruction with a record; CPCLOSE closes the open batch;
CPWAIT closes it and waits while more than n batches are outstanding (R242, R243, R245-R249, R251, R253, R257, R455, R458, R506). That a shape record which cannot
be read gives a record of TYPE load with 8 bytes is the model's reading (DEDUCED, log entry 15). Misses and faults of the group's
table are not stated. -/
def Obligations.CopyInstructions : Prop := ∀ (s₀ s : State) (t a b : BitVec 6) (v : BitVec 1) (n : BitVec 4) (r : WRef)
    (g : Workgroup) (w : Warp),
  let s0 := s.setWarp r w
  let g0 := g.setWarp r.wp w
  let words := fun (k : Nat) => (span a.toNat k).map w.sget
  let off := fieldOf (w.sget b.toNat) 0 32
  let new := fun (s1 : State) (kind : CopyKind) (ws sh : List Reg) => newCopy s1 r g0 w kind t.toNat ws sh (siblingOf g0 kind ws)
  let traps := fun (s1 : State) (code : Nat) => preciseTrap s1 r w code
  let issued := fun (i : Instr) (s1 : State) (c : Copy) =>
    (copyBad g0 c (v == 1) off = true → exec i s₀ = .next (traps s1 0x08)) ∧
    (copyBad g0 c (v == 1) off = false → c.len = 0 → RetiresFrom s₀ i r g w (s1.countEvent (g.tile / 8) 2 0 1) { w.sset t.toNat 0 with joined := true }) ∧
    (copyBad g0 c (v == 1) off = false → c.len ≠ 0 → ∃ c' s2, c' = { c with bar := if v = 1 then some (c.receiver, off) else none } ∧
      c.id = s1.nextId ∧ s2.copy c.id = some c' ∧ (s2.tile g.tile).copies = (s1.tile g.tile).copies ++ [c.id] ∧
      s2.nextId = s1.nextId + 1 ∧ s2.mem = s1.mem ∧ s2.wgs = s1.wgs ∧
      RetiresFrom s₀ i r g w s2 { w with openB := w.openB ++ [c.id], joined := true })
  let plain := fun (i : Instr) (kind : CopyKind) (k : Nat) => Issues s₀ s i act r g w →
    (r.wp ≠ g.producer → TrapsWith s₀ s i r w 0x07) ∧
    (r.wp = g.producer → issued i s0 (new s0 kind (words k) []))
  let shaped := fun (i : Instr) (kind : CopyKind) (k : Nat) => Issues s₀ s i act r g w →
    (r.wp ≠ g.producer → TrapsWith s₀ s i r w 0x07) ∧
    (r.wp = g.producer → shapeNameBad kind (words k) = true → TrapsWith s₀ s i r w 0x08) ∧
    (r.wp = g.producer → shapeNameBad kind (words k) = false →
      let res := readWords s0 r g0 w (fieldOf ((words k).getD 0 0) 0 48) 8
      (∀ s1, res = .park s1 → exec i s₀ = .next s1) ∧
      ∀ s1 ad fk, res = .bad s1 ad fk →
        exec i s₀ = .next (retireWithRecords s1 r g0 w w false [uniRecord w ad fk (typeOf 0 8)]))
  plain (.cpy t a b v) .cpy 3 ∧ plain (.cpr t a b v) .cpr 4 ∧ plain (.cpx t a b v) .cpx 4 ∧
  shaped (.cpt t a b v) .cpt 4 ∧ shaped (.cpc t a b v) .cpc 3 ∧
  (Issues s₀ s (.cpt t a b v) act r g w → r.wp = g.producer → shapeNameBad .cpt (words 4) = false → ∀ s1 sh,
    readWords s0 r g0 w (fieldOf ((words 4).getD 0 0) 0 48) 8 = .ok s1 sh → issued (.cpt t a b v) s1 (new s1 .cpt (words 4) sh)) ∧
  (Issues s₀ s (.cpc t a b v) act r g w → r.wp = g.producer → shapeNameBad .cpc (words 3) = false → ∀ s1 sh,
    readWords s0 r g0 w (fieldOf ((words 3).getD 0 0) 0 48) 8 = .ok s1 sh →
    let dst := fieldOf ((words 3).getD 2 0) 0 48
    let table := fieldOf ((words 3).getD 1 0) 0 48
    (shapeBad sh true = true ∨ callShapeBad sh dst = true → exec (.cpc t a b v) s₀ = .next (traps s1 0x08)) ∧
    (shapeBad sh true = false → callShapeBad sh dst = false → ∀ s2 hd, readWords s1 r g0 w table 8 = .ok s2 hd →
      (groupHeaderBad sh hd = true → exec (.cpc t a b v) s₀ = .next (traps s2 0x08)) ∧
      (groupHeaderBad sh hd = false → ∀ s3 es, readWords s2 r g0 w (table + 64) (gridSize sh) = .ok s3 es →
        (groupEntriesBad sh s3.dev.devid es = true → exec (.cpc t a b v) s₀ = .next (traps s3 0x08)) ∧
        (groupEntriesBad sh s3.dev.devid es = false → copyBad g0 (new s3 .cpc (words 3) sh) (v == 1) off = false →
          (new s3 .cpc (words 3) sh).len ≠ 0 → ∃ t', exec (.cpc t a b v) s₀ = .next t' ∧ t'.mem = s3.mem ∧
            ∃ k, t'.dev.calls = s3.dev.calls ++ [k] ∧ k.copy = s3.nextId ∧ k.seq = fieldOf ((words 3).getD 1 0) 48 16 ∧
              k.gid = fieldOf (hd.getD 0 0) 0 32 ∧ k.rank = ownRank sh ∧ k.entries = es ∧ k.posted = false)))) ∧
  (Issues s₀ s .cpclose act r g w → RetiresAs s₀ s .cpclose r (goneOn s.issues w.closeBatch)) ∧
  (Issues s₀ s (.cpwait n) act r g w → let x := w.closeBatch
    (x.batches.length ≤ n.toNat → RetiresFrom s₀ (.cpwait n) r g w s0 x) ∧
    (n.toNat < x.batches.length → exec (.cpwait n) s₀ = .next (waitAt s0 r x (.batch n.toNat)))) ∧
  w.closeBatch = if w.joined then { w with openB := [], joined := false, batches := (w.batches ++ [w.openB]).dropWhile (·.isEmpty) } else w

/-! ### What copies and collective calls do after issue -/

/-- The streamer starts the copy of the highest priority that has not started and is not parked, the oldest of these, and parks one whose applying die
its destination's page does not yet tell; a sector that is no application is performed in order and counted
by the barrier, its destination written; one that is applied is sent while fewer than 64 are unacknowledged, applied once,
and acknowledged, which advances BASE and WIN; one unacknowledged for 200 ticks is sent again; and once all is performed the
token is written, 0 or the code with the sector number (R243-R245, R249, R255, R256, R352-R354, R401, R406). That a plain copy's sectors are performed in ascending order, one at a time,
is the model's choice (DESIGN CHOICE, log entry 22); so is that the numbers from 512 on start the copies that other devices hand over, and do nothing
while no tag is free (DESIGN CHOICE, log entry 37). -/
def Obligations.CopyProgress : Prop := ∀ (s : State) (id : Nat) (c : Copy) (g : Workgroup), s.copy id = some c → c.id = id →
    c.tile < 512 → s.wg c.w.wg = some g →
  let waits := fun (tile : Nat) => ((s.tile tile).copies.filterMap s.copy).filter (fun c => !c.started && c.parked.isEmpty)
  (∀ tile, tile < 512 → s.swapping tile = false → nextCopy (waits tile) = some c → c.applies = false →
    exec (.copyStart tile) s = .next (s.setCopy { c with
      gens := shadowPages s tile g.slot, started := true, units := copyUnits c, nsect := copySectors c })) ∧
  (∀ tile, tile < 512 → s.swapping tile = true → exec (.copyStart tile) s = .next s) ∧
  (∀ (l pre post : List Copy), l = pre ++ c :: post → (∀ d ∈ pre, d.prio < c.prio) → (∀ d ∈ post, d.prio ≤ c.prio) →
    nextCopy l = some c) ∧
  (∀ tile, 512 ≤ tile → freeTag s (tile % 4) = none → exec (.copyStart tile) s = .next s) ∧
  (∀ tile t, tile < 512 → s.swapping tile = false → nextCopy (waits tile) = some c → c.applies = true →
    let c1 := { c with gens := shadowPages s tile g.slot, started := true, units := copyUnits c, nsect := copySectors c }
    startMiss s g c1 = none → freeTag s (applyingDie s g c1) = some t →
    let c2 := { c1 with tag := some t, die := applyingDie s g c1 }
    exec (.copyStart tile) s = .next (putRecord (s.setCopy c2) c2 0)) ∧
  (∀ tile s1 p, tile < 512 → s.swapping tile = false → nextCopy (waits tile) = some c → c.applies = true →
    let c1 := { c with gens := shadowPages s tile g.slot, started := true, units := copyUnits c, nsect := copySectors c }
    startMiss s g c1 = some (s1, p) → exec (.copyStart tile) s = .next (parkCopy s1 g { c1 with started := false } p 1)) ∧
  (c.started = true → c.parked = [] → c.err = none → c.next < c.nsect → partnerLost s c = true →
    exec (.copySectorPerformed id) s = .next (failCopy s c 0x06 c.next)) ∧
  (c.started = true → c.parked = [] → c.err = none → c.next < c.nsect → partnerLost s c = false →
    (c.applies = false → exec (.copySectorPerformed id) s = .next (s.onBehalf c.w (fun s => performSector s g c))) ∧
    (c.applies = true → c.next < c.base + 64 → (c.kind ≠ .cpc ∨ resultsDue s id = true) →
      exec (.copySectorPerformed id) s = .next (s.onBehalf c.w (fun s => sendSector s g c))) ∧
    (c.applies = true → c.base + 64 ≤ c.next → exec (.copySectorPerformed id) s = .next s)) ∧
  (∀ s1 e, sectorData s g c c.next = .err s1 e → performSector s g c = failCopy s1 c e c.next) ∧
  (∀ s1 p a, sectorData s g c c.next = .miss s1 p a → performSector s g c = parkCopy s1 g c p a) ∧
  (∀ s1 d u, sectorData s g c c.next = .ok s1 d → c.dst.sp = some u → performSector s g c =
    countSector ((s1.updWg u (fun h =>
      let x := unitBytes d (Memory.readN h.sp d.addr 32)
      { h with sp := Memory.writeMasked h.sp d.addr x.1 x.2 32 })).setCopy { c with next := c.next + 1 }) c) ∧
  (∀ s1 d s2 x, sectorData s g c c.next = .ok s1 d → c.dst.sp = none → copyXlate s1 g c .engWrite d.addr = (s2, .ok x) →
    performSector s g c = countSector ((remoteAcked (writeUnit s2 x.pa d) x.pa).setCopy
      ({ c with next := c.next + 1 }.addLine (lineOf x.pa))) c) ∧
  (∀ n x, Table.find c.sent n = some x → (Table.get s.dev.applied [] id).contains n = false →
    let marks := Table.set s.dev.applied id (n :: Table.get s.dev.applied [] id)
    let noted := fun (s1 : State) => ({ s1 with dev := { s1.dev with applied := marks } } : State)
    (∀ u, x.sp = some u → exec (.applyRequest id n) s = .next (noted (s.updWg u (fun h => { h with
      sp := Memory.writeN h.sp x.addr x.n (appliedBytes c (Memory.readN h.sp x.addr x.n) x.data x.n) })))) ∧
    (x.sp = none → exec (.applyRequest id n) s =
      .next (noted (chanWrite s x.addr x.n (appliedBytes c (chanRead s x.addr x.n) x.data x.n))))) ∧
  (∀ n, (Table.get s.dev.applied [] id).contains n = true → exec (.applyRequest id n) s = .next s) ∧
  (∀ n x, Table.find c.sent n = some x → (Table.get s.dev.applied [] id).contains n = true →
    let c1 := advanceBase { c with sent := Table.del c.sent n, win := n :: c.win } 65
    exec (.applyAck id n) s = .next (countSector (remoteAcked (putRecord (s.setCopy c1) c1 (if c1.parked = [] then 0 else 1))
      (if x.sp = none then x.addr else 0)) c1)) ∧
  (∀ n x, Table.find c.sent n = some x → let now := (s.die c.die).tick
    (now < x.tick + 200 → exec (.applyAckTimeout id n) s = .next s) ∧
    (x.tick + 200 ≤ now → exec (.applyAckTimeout id n) s =
      .next (s.setCopy { c with sent := Table.set c.sent n { x with tick := now } }))) ∧
  (copyDone c = false → exec (.copyTokenWrite id) s = .next s) ∧
  (∀ w, copyDone c = true → s.warp c.w = some w → ∃ t, exec (.copyTokenWrite id) s = .next t ∧ t.copy id = none ∧
    t.mem = ((destLines s g c).foldl (fun s l => invalidateLine s g.tile l) s).mem ∧
    ∃ w', t.warp c.w = some w' ∧ w'.sget c.tok = tokenOf c ∧ (∀ k, k ≠ c.tok → w'.sget k = w.sget k)) ∧
  (∀ n, advanceBase c (n + 1) = if c.win.contains c.base = true then
    advanceBase { c with base := c.base + 1, win := c.win.filter (fun k => k != c.base) } n else c) ∧
  (c.err = none → tokenOf c = 0) ∧
  (∀ code sect, c.err = some (code, sect) → tokenOf c = BitVec.ofNat 64 (sect % 2 ^ 32 * 2 ^ 32 + code))

/-- A call posts once its contribution is read, of 256 posted ones at most, whatever the size of its group, with its Q4 blocks and its residual where
it has them, or ends where its group has ended; it then waits, posted, and a pull from a member that has not posted is not served; the group
has formed its results only when every member has posted and formed its own; a pull is served once the other call has posted and has
the segment; participants that disagree end the group with 0x06 and MISMATCH, a member of another device that ends its call
ends the group, and a pair without a route ends with 0x07; the data combine, and what they form is published; when the group
has formed everything the union of the flags is written and the results may be, unless participants disagree or two have no route
(R457, R459-R464, R467, R468, R521). What members of other devices do, and that one which ends its call ends the group when one of
this device pulls from it or the flags are united, is the model's reading (DESIGN CHOICE, log entries 2 and 28). -/
def Obligations.CollectiveCalls : Prop := ∀ (s : State) (id : Nat) (g : Workgroup) (c : Copy) (k : Call),
    activeCall s id = some (g, c, k) →
  let own : State := { s with cur := some c.w }
  let written := fun (s2 : State) (lines : List Nat) (k' : Call) => (s2.setCopy (lines.foldl Copy.addLine c)).setCall k'
  (k.posted = true → exec (.rendezvousPost id) s = .next s) ∧
  (k.posted = false → k.size > 1 → (s.dev.calls.filter (fun j => j.posted && !j.ended && decide (j.size > 1))).length ≥ 256 →
    exec (.rendezvousPost id) s = .next s) ∧
  (let used := (s.dev.calls.filter (fun j => (j.posted && !j.ended && decide (j.size > 1)) || postsBefore own k j)).length
   let ended := fun (j : Call) => j.failed && k.meets j && k.group.contains j.rank
   let n : Nat := shapeSize k.shape
   let q4 : Bool := shapeQ4 k.shape
   (∀ j, k.posted = false → k.size = 1 ∨ used < 256 → s.dev.calls.find? ended = some j →
     exec (.rendezvousPost id) s = .next { failMember own k 0x06 j.failWord with cur := s.cur }) ∧
   (k.posted = false → k.size = 1 ∨ used < 256 → (∀ j ∈ s.dev.calls, ended j = false) → ∀ s1 xs s2 rs s3 lines,
     engineReads own g c (callElem k.shape) (contribAddr k.shape) 0 n = .ok s1 xs →
     engineReads s1 g c 4 (fun e => shapeResid k.shape + 4 * e) 0 (if q4 then n else 0) = .ok s2 rs →
     let blocks := ((cutSegs k.segs xs).zip (cutSegs k.segs rs)).map (fun p => q4Block p.1 p.2)
     let k1 : Call := { k with posted := true, x := if q4 then blocks.map (·.1) else cutSegs k.segs xs }
     let k2 : Call := if k1.hasP = true ∧ k1.pos = 0 then { k1 with p := k1.x } else k1
     let k3 := localSteps k2 k.segs
     engineWrites s2 g c ((if q4 then [(shapeResid k.shape, 4 * n, packEls 32 (blocks.flatMap (·.2)))] else []) ++
       publishWrites k.shape k k3 false ++ publishWrites k.shape k k3 true ++ headerWrites k3 false ++ headerWrites k3 true) =
         .ok s3 lines →
     exec (.rendezvousPost id) s = .next { ensureRemotes (written s3 lines k3) k3 with cur := s.cur } ∧ k3.posted = true)) ∧
  (∀ up seg, k.posted = false → exec (.pullRequest id up seg) s = .next s) ∧
  (∀ up seg st rank, nextStage k up seg = some st → k.group[stageSource k st]? = some rank → k.rankLocal s.dev.devid rank = true →
    pullCutOff s c k (pullRank k st) = false → remoteFate s k (pullRank k st) = none →
    (∀ j ∈ s.dev.calls, k.meets j = true → j.rank = rank → j.posted = false) → exec (.pullRequest id up seg) s = .next s) ∧
  (∀ rank j, peerOf s.dev.calls k rank = some j → j ∈ s.dev.calls ∧ j.posted = true ∧ j.rank = rank ∧ k.meets j = true) ∧
  (groupFormed s k = true ↔ ∀ rank ∈ k.group, k.rankLocal s.dev.devid rank = true → ∃ j, peerOf s.dev.calls k rank = some j ∧
    j.formed = true) ∧
  (groupFlagged s k = true ↔ ∀ rank ∈ k.group, k.rankLocal s.dev.devid rank = true → ∃ j, peerOf s.dev.calls k rank = some j ∧
    j.result ≠ none) ∧
  (∀ up seg st, nextStage k up seg = some st → let q := pullRank k st
    (pullCutOff s c k q = true → exec (.pullRequest id up seg) s = .next (failPair s k q)) ∧
    (∀ word, pullCutOff s c k q = false → remoteFate s k q = some word →
      exec (.pullRequest id up seg) s = .next (failGroup s k 0x06 word)) ∧
    (∀ j, pullCutOff s c k q = false → remoteFate s k q = none → sourceCall s k st seg = some j →
      (j.params ≠ k.params → exec (.pullRequest id up seg) s = .next (failGroup s k 0x06 (statusWord false true 0))) ∧
      (j.params = k.params → (stageValue k j st seg).isSome = true → k.asked.contains (up, seg) = false →
        exec (.pullRequest id up seg) s = .next (s.setCall { k with asked := (up, seg) :: k.asked })) ∧
      (j.params = k.params → stageValue k j st seg = none → exec (.pullRequest id up seg) s = .next s)) ∧
    (∀ j v fl s2 lines, k.asked.contains (up, seg) = true → sourceCall s k st seg = some j → stageValue k j st seg = some (v, fl) →
      let k1 := addStage { k with asked := k.asked.filter (fun a => a != (up, seg)) } st v fl
      let k2 := localSteps k1 k.segs
      engineWrites own g c (publishWrites k.shape k k2 false ++ publishWrites k.shape k k2 true) = .ok s2 lines →
      exec (.pullData id up seg) s = .next { written s2 lines k2 with cur := s.cur })) ∧
  (k.formed = false → exec (.flagUnion id) s = .next s) ∧
  (k.formed = true → paramsDiffer s k = true → exec (.flagUnion id) s = .next (failGroup s k 0x06 (statusWord false true 0))) ∧
  (k.formed = true → paramsDiffer s k = false → groupFormed s k = false → exec (.flagUnion id) s = .next s) ∧
  (k.formed = true → paramsDiffer s k = false → groupFormed s k = true → groupCut s k = true →
    exec (.flagUnion id) s = .next (failCut s k)) ∧
  (paramsDiffer s k = true ↔ ∃ r ∈ k.group, k.rankLocal s.dev.devid r = true ∧ ∃ j, peerOf s.dev.calls k r = some j ∧
    j.params ≠ k.params) ∧
  (k.formed = true → paramsDiffer s k = false → groupFormed s k = true → groupCut s k = false →
    (∀ word, k.group.findSome? (remoteFate s k) = some word → exec (.flagUnion id) s = .next (failGroup s k 0x06 word)) ∧
    (k.group.findSome? (remoteFate s k) = none → ∀ s2 lines, let at_ := shapeSweep k.shape false
      engineWrites own g c (if at_ = 0 then [] else [(at_ + 8, 8, statusWord false false (flagUnionOf s k))]) = .ok s2 lines →
      exec (.flagUnion id) s = .next { written s2 lines { k with result := some (resultBytes k) } with cur := s.cur })) ∧
  (∀ s1 e ws, engineWrites s g c ws = .err s1 e → memberRes g c k (engineWrites s g c ws) (fun s _ => s) = failGroup s1 k e 0)

/-! ### Channels, walks and errors -/

/-- What a channel's agents do: a read takes a new entry of its merge point where no open one has its line and one is free, and reads
change no memory; masked writes and atomics replace the bytes they name and close the line's entry; a channel serves its lines in its
order, and a returned line frees its entry; stores of the management cores, inbound requests and host accesses are performed where they
lie in base memory and a window or the link permits them, and otherwise change nothing; a host's read gives the register or the bytes, 0 at
other places of BAR0
(R288, R289, R291, R327, R342, R402, R403, R449, R451, R492, R503). Where a host's read leaves what it got, how an access names its
BAR and its bytes, and that a BAR0 write at no multiple of 8 does nothing, is the model's choice (DESIGN CHOICE, log entry 47); that
DRAM_RETURN acts for the line which its channel serves next, and counts its service then, is the model's reading (DEDUCED, log entry 24). -/
def Obligations.ChannelAgents : Prop := ∀ (s : State) (tile line pa size off src kind : Nat) (mask : BitVec 128)
    (data : BitVec 1024) (op : BitVec 4) (v : BitVec 64) (b : Bool),
  let k := mergePointOf line
  let m := Table.get s.wadi MergePoint.reset k
  let read := mergeRead s tile line
  (exec (.mergePointRead tile line) s = .next read ∧ read.mem = s.mem ∧ read.wgs = s.wgs ∧ read.tiles = s.tiles ∧
    (line * 128 < 2 ^ 48 → (∀ e ∈ m.entries, e.line = line → e.isOpen = false) → m.entries.length < 512 → ∃ q p,
      Table.get read.wadi MergePoint.reset k = { m with entries := m.entries ++ [⟨line, true, 1, q, p, s.cur⟩] })) ∧
  (exec (.mergePointWrite line mask data) s =
    .next (if inBase (line * 128) 128 then chanWriteLine s line mask data else s)) ∧
  (∀ b : Nat, b < 128 → mask.getLsbD b = true → (chanWriteLine s line mask data).mem.read (line * 128 + b) =
    data.extractLsb' (8 * b) 8) ∧
  (∀ a : Nat, (a / 128 ≠ line ∨ mask.getLsbD (a % 128) = false) → (chanWriteLine s line mask data).mem.read a = s.mem.read a) ∧
  (∀ e, nextServed s k m.entries = some e → line * 128 < 2 ^ 48 → e.line = line → ∃ t, exec (.dramReturn line) s = .next t ∧
    t.mem = s.mem ∧ Table.get t.dev.served 0 (1024 * k + e.queue) = Table.get s.dev.served 0 (1024 * k + e.queue) + 1 ∧
    (m.queue = [] → t.wgs = s.wgs ∧ (Table.get t.wadi MergePoint.reset k).entries = dropEntry line m.entries)) ∧
  ((∀ e, nextServed s k m.entries = some e → e.line ≠ line) → exec (.dramReturn line) s = .next s) ∧
  (inBase pa size = true → atomWidthOk op size = true → pa % size = 0 → exec (.atomicUnitRequest pa op size v) s =
    .next (chanWrite s pa size (atomNew op (8 * size) (chanRead s pa size) (v.toNat % 2 ^ (8 * size))))) ∧
  (inBase pa size = false ∨ atomWidthOk op size = false ∨ pa % size ≠ 0 → exec (.atomicUnitRequest pa op size v) s = .next s) ∧
  (exec (.managementCoreStore pa size v) s = .next (if inBase pa size = true ∧ size ≤ 8 then chanWrite s pa size v.toNat else s)) ∧
  (∀ a : Nat, a < pa ∨ pa + size ≤ a → (chanWrite s pa size v.toNat).mem.read a = s.mem.read a) ∧
  (∀ a : Nat, a < size → a < 8 → (chanWrite s pa size v.toNat).mem.read (pa + a) = BitVec.ofNat 8 (v.toNat / 256 ^ a)) ∧
  (windowPermits s.dev src kind pa = true →
    (kind = 0 → inBase pa 1 = true → exec (.fabricInboundRequest src kind pa size op ⟨mask, data⟩) s = .next (outerRead s (pa / 128)) ∧
      (outerRead s (pa / 128)).mem = s.mem) ∧
    (kind = 1 → inBase pa 1 = true → exec (.fabricInboundRequest src kind pa size op ⟨mask, data⟩) s =
      .next (if mask = 0 then s else chanWriteLine s (pa / 128) mask data)) ∧
    (kind = 2 → inBase pa size = true → atomWidthOk op size = true → pa % size = 0 →
      exec (.fabricInboundRequest src kind pa size op ⟨mask, data⟩) s =
        .next (chanWrite s pa size (atomNew op (8 * size) (chanRead s pa size) (data.toNat % 2 ^ (8 * size)))))) ∧
  (2 < kind ∨ windowPermits s.dev src kind pa = false ∨ inBase pa (if kind = 2 then size else 1) = false →
    exec (.fabricInboundRequest src kind pa size op ⟨mask, data⟩) s = .next s) ∧
  (∀ n at_ : Nat, 1 ≤ n → n ≤ 8 → at_ = s.dev.bar2 + off →
    (s.dev.hostUp = true → off + n ≤ 2 ^ 36 → at_ % 128 + n ≤ 128 → inBase at_ n = true →
      exec (.hostAccess (2 + 16 * n) off true v) s = .next (chanWrite s at_ n (v.toNat % 256 ^ n)) ∧
      exec (.hostAccess (2 + 16 * n) off false v) s = .next ((outerRead s (at_ / 128)).hostGets
        (BitVec.ofNat 64 (chanRead s at_ n)))) ∧
    (2 ^ 36 < off + n ∨ (at_ % 128 + n ≤ 128 ∧ inBase at_ n = false) →
      exec (.hostAccess (2 + 16 * n) off b v) s = .next s) ∧
    exec (.hostAccess 2 off b v) s = exec (.hostAccess (2 + 16 * 8) off b v) s) ∧
  (s.dev.hostUp = true → off % 8 = 0 →
    (hostMayWrite off = true → exec (.hostAccess 0 off true v) s = exec (.monitorRegisterWrite (0x04000000 + off) v) s) ∧
    (hostMayWrite off = false → exec (.hostAccess 0 off true v) s = .next s) ∧
    exec (.hostAccess 0 off false v) s = .next (if hostMayRead off then (monitorRead s (0x04000000 + off)).1.hostGets
      (monitorRead s (0x04000000 + off)).2 else s.hostGets 0)) ∧
  (∀ x : Reg, (s.hostGets x).dev.hostRead = x ∧ (s.hostGets x).mem = s.mem) ∧
  (s.dev.hostUp = true → kind % 16 = 0 → off % 8 ≠ 0 → exec (.hostAccess kind off b v) s = .next (if b then s else s.hostGets 0)) ∧
  (s.dev.hostUp = false ∨ (kind % 16 ≠ 0 ∧ kind % 16 ≠ 2) →
    exec (.hostAccess kind off b v) s = .next s)

/-- A walker runs one walk for a context and page and 64 at most, and more wait; a walk that ends leaves, and an invalidation makes every
tile and walker forget the context, and the retired pages leave its mappings. A lasting double-bit error marks its line and page, whose retirement is logged once no context maps it, a lasting error of
registers or scratchpad ends its workgroup with code 0x52 and retires the tile, one of dirty bytes its context's workgroups
with 0x53; a lost port is no longer trained; a link narrows, widens and takes its width at the handshake's end (R300-R302,
R450, R453, R508, R509). That the walks of a walker stand in one list, and the waiting ones behind those that run, is the model's
(DEDUCED, log entry 24); so is that the retired pages leave a context's mappings at its invalidation (DEDUCED, log entry 25). -/
def Obligations.TranslationAndErrors : Prop := ∀ (s : State) (c asid vpn acc pa t u line n flits : Nat) (b : Bool),
  let ws := (s.cluster c).walks
  let same := fun (w : Walk) => w.asid == asid && w.vpn == vpn
  (ws.any same = true → exec (.pageWalkStart c asid vpn acc) s = .next s) ∧
  (ws.any same = false → ∃ x, exec (.pageWalkStart c asid vpn acc) s = .next x ∧
    (x.cluster c).walks = ws ++ [⟨asid, vpn, acc, (s.die (dieOfCluster c)).tick⟩] ∧ x.mem = s.mem ∧ x.wgs = s.wgs) ∧
  (∃ x, exec (.pageWalkEnd c asid vpn) s = .next x ∧ x.mem = s.mem ∧ x.wgs = s.wgs ∧
    (x.cluster c).walks.map (fun w => (w.asid, w.vpn)) =
      (if (ws.take (walkRoom s c)).any same then ws.filter (fun w => !same w) else ws).map (fun w => (w.asid, w.vpn))) ∧
  (∃ x, exec (.translationInvalidate asid) s = .next x ∧ x.mem = s.mem ∧ x.wgs = s.wgs ∧
    Table.get x.dev.unmapped [] asid = s.dev.badPages ∧
    (s.dev.retiring = [pa] → s.dev.badPages.contains (pa / 4096) = true → (∀ k ∈ s.slots, k.2.v = false ∨ k.2.asid = asid ∨
      (Table.get s.dev.unmapped [] k.2.asid).contains (pa / 4096) = true) →
      x.dev.retiring = [] ∧ x.dev.logNext = s.dev.logNext + 1) ∧ (∀ k,
    (x.tile k).pages = (s.tile k).pages.filter (fun p => p.asid != asid) ∧
    (x.tile k).ranges = Table.del (s.tile k).ranges asid ∧ (x.tile k).lines = (s.tile k).lines ∧
    (x.cluster k).upper = (s.cluster k).upper.filter (fun p => p.asid != asid))) ∧
  (∃ x, exec (.eccError pa true true) s = .next x ∧ x.mem = s.mem ∧
    (inBase (pa / 128 * 128) 128 = true → x.dev.badLines.contains (pa / 128) = true ∧ x.dev.badPages.contains (pa / 4096) = true ∧
      s.dev.logNext < x.dev.logNext ∧ (s.dev.badPages.contains (pa / 4096) = false → s.dev.retiring = [] →
        let maps := fun (k : Nat × Slot) => k.2.v && !(Table.get s.dev.unmapped [] k.2.asid).contains (pa / 4096)
        (s.slots.any maps = false → x.dev.retiring = [] ∧ x.dev.logNext = s.dev.logNext + 2) ∧
        (s.slots.any maps = true → x.dev.retiring = [pa] ∧ x.dev.logNext = s.dev.logNext + 1)))) ∧
  (inBase (pa / 128 * 128) 128 = true → (exec (.eccError pa false b) s = .next (s.logError pa 4 (pa / 2 ^ 36 % 4) 1 0)) ∧
    (exec (.eccError pa true false) s = .next (s.logError pa 4 (pa / 2 ^ 36 % 4) 0 0))) ∧
  (∀ g, s.wg u = some g → g.status = .resident → 0 < g.nwarps → (s.cluster (clusterOf t)).swap = none →
    ∃ x h wp pc, exec (.sramParityError t 0 u true) s = .next x ∧ (x.tile t).retired = true ∧ x.wg u = some h ∧
      h.status = .error 0x52 wp pc 0 0 ∧ x.mem = s.mem) ∧
  (∀ l, (s.tile t).line line = some l → l.dirty = 0 → ∃ x, exec (.sramParityError t 1 line false) s = .next x ∧
    (x.tile t).lines = ((s.tile t).dropLine line).lines ∧ x.mem = s.mem) ∧
  (exec (.portTrainingLoss n) s = .next (dropPort s n) ∧ (dropPort s n).dev.ports = s.dev.ports.filter (fun p => p != n)) ∧
  (exec (.linkCrcError true n false) s = .next (s.logError n 5 0 0 0)) ∧
  (∃ x, exec (.linkCrcError true n true) s = .next x ∧ x.dev.ports = s.dev.ports.filter (fun p => p != n)) ∧
  (∃ x, exec (.linkCrcError false n true) s = .next x ∧ x.dev.badLinks.contains n = true ∧ x.mem = s.mem) ∧
  (let l := (s.cluster c).link
   let after := fun (i : Instr) (l' : Link) => ∃ x, exec i s = .next x ∧ (x.cluster c).link = l' ∧ x.mem = s.mem ∧ x.wgs = s.wgs
   (l.handshake = none → 1 < l.width → 16 * flits < 4096 * l.width →
     after (.linkOccupancyWindow c flits) { l with handshake := some (if l.width = 4 then 2 else 1) }) ∧
   (4096 * l.width ≤ 16 * flits → after (.linkOccupancyWindow c flits) l) ∧
   (l.handshake = none → l.width < 4 → after (.linkCongestion c) { l with handshake := some 4 }) ∧
   (4 ≤ l.width → after (.linkCongestion c) l) ∧
   (∀ k, l.handshake = some k → after (.linkWidthHandshakeEnd c) { l with width := k, handshake := none }))

/-! ### Queues and levels -/

namespace Sys2Proof.Claims

/-- The event's packet kind, the meaning of a packet, and the event, for a queue. -/
def packetEvents (a j : Nat) : List (Instr × Nat × (State → List Reg → State)) :=
  let k := queueKey a j
  [(.launchPacket a j, 0x01, parseLaunch a j), (.fencePacket a j, 0x02, parseFence k), (.signalPacket a j, 0x03, parseSignal k),
   (.cancelPacket a j, 0x04, parseCancel a j), (.graphOpen a j, 0x10, parseOpen a j 1), (.graphClose a j, 0x11, parseClose a j 1),
   (.phaseOpen a j, 0x12, parseOpen a j 2), (.phaseClose a j, 0x13, parseClose a j 2), (.jobOpen a j, 0x14, parseOpen a j 3),
   (.jobClose a j, 0x15, parseClose a j 3)]

end Sys2Proof.Claims

/-- The processor takes up the packet at HEAD of an enabled queue with packets that neither stopped nor waits: one that cannot be
read stops the queue with 0x05; bit B holds it, whatever its kind, while a launch or level of the queue is not complete; then an unknown
kind stops the queue with 0x01, reserved bits with 0x02; otherwise the packet's own effect follows. A queue that may not parse stays as it is (R376-R378). -/
def Sys2Proof.Claims.packetParsing : Prop := ∀ (s : State) (a j kind : Nat) (i : Instr) (f : State → List Reg → State),
    (i, kind, f) ∈ packetEvents a j →
  let k := queueKey a j
  let q := s.queue k
  let stops := fun (code : Nat) => exec i s = .next (s.setQueue k { q with state := 3, err := code })
  (canParse s k = false → exec i s = .next s) ∧
  (canParse s k = true →
    (headPacket s k = none → stops 0x05) ∧
    (∀ ws, headPacket s k = some ws → let w0 := ws.getD 0 0
      (w0.getLsbD 8 = true → allComplete s k = false → exec i s = .next (s.setQueue k { q with state := 2 })) ∧
      ((w0.getLsbD 8 = false ∨ allComplete s k = true) → ¬ fieldOf w0 0 8 ∈ packetKinds → stops 0x01) ∧
      (fieldOf w0 0 8 = kind →
        ((w0.getLsbD 8 = false ∨ allComplete s k = true) → packetClean kind ws = false → stops 0x02) ∧
        ((w0.getLsbD 8 = false ∨ allComplete s k = true) → packetClean kind ws = true → exec i s = .next (f s ws))))) ∧
  (canParse s k = true → q.en = true ∧ q.state ≠ 3 ∧ q.conds = [] ∧ q.waitTag = none ∧ 0 < q.held)

/-- A LAUNCH outside its limits stops the queue with 0x03 and one whose counter is not aligned with 0x06; otherwise its counter
holds DONE 0, ERR 0, TOTAL the grid's product and its control word, and the queue goes on; a write of the processor that leaves the device
has the waits on remote counters test theirs (R344). A SIGNAL writes or adds; a FENCE
holds the queue until each condition is met, and then its context's lines leave the tiles; an open marker may not stand
inside its own or an inner kind, a close marker must name the innermost open level (R379, R381-R383, R385-R387). That the end of a
FENCE takes the context's lines out of every tile is the model's reading (DEDUCED, log entry 31), and that HEAD counts modulo 2^16
too (DEDUCED, log entry 11). -/
def Sys2Proof.Claims.packetEffects : Prop := ∀ (s : State) (a j : Nat) (ws : List Reg),
  let k := queueKey a j
  let q := s.queue k
  let w := fun (n : Nat) => (ws.getD n 0).toNat
  let stop := fun (code : Nat) => s.setQueue k { q with state := 3, err := code }
  (launchBad s a ws = true → parseLaunch a j s ws = stop 0x03) ∧
  (launchBad s a ws = false → w 3 % 32 ≠ 0 → parseLaunch a j s ws = stop 0x06) ∧
  (launchBad s a ws = false → w 3 % 32 = 0 → innermost s k [1, 2, 3] = none →
    ∀ args pa, queueWords s k (w 4) 0x05 (launchArgs (ws.getD 0 0)) = .ok args → queueXlate s k (w 3) .store 0x06 = .ok pa →
    let l : Level := { kind := 0, asid := (s.slot a).asid, slot := a, queue := j, counter := w 3, parent := none, isOpen := false, closed := true,
                       cancelled := false, complete := false, packet := ws, args := args, next := 0, again := [] }
    let t := parseLaunch a j s ws
    t.dev.levels = s.dev.levels ++ [l] ∧ (t.queue k).head = (q.head + 1) % 65536 ∧
    t.mem = (queueWrite (queueWrite (queueWrite (queueWrite s pa 8 0) (pa + 8) 8 0) (pa + 16) 8 l.total) (pa + 24) 8 l.control).mem) ∧
  (∀ (u : State) (pa n v : Nat), queueWrite u pa n v = if pa / 2 ^ 48 = 1 then testCounters (chanWrite u pa n v) (fun _ => true) true
    else chanWrite u pa n v) ∧
  (let op := fieldOf (ws.getD 0 0) 16 2
   (2 ≤ op ∨ w 1 % 8 ≠ 0 ∨ 2 ^ 48 ≤ w 1 → parseSignal k s ws = stop 0x03) ∧
   (op < 2 → w 1 % 8 = 0 → w 1 < 2 ^ 48 → ∀ pa,
     queueXlate s k (w 1) (if op = 0 then .store else .atomic) 0x05 = .ok pa →
     (op = 1 → s.dev.badLines.contains (lineOf pa) = false) →
     (parseSignal k s ws).mem = (queueWrite s pa 8 (if op = 0 then w 2 else (chanRead s pa 8 + w 2) % 2 ^ 64)).mem ∧
     ((parseSignal k s ws).queue k).head = (q.head + 1) % 65536)) ∧
  (let n := fieldOf (ws.getD 0 0) 16 4
   (n = 0 ∨ 12 < n ∨ w 1 % 16 ≠ 0 ∨ 2 ^ 48 ≤ w 1 → parseFence k s ws = stop 0x03) ∧
   (0 < n → n ≤ 12 → w 1 % 16 = 0 → w 1 < 2 ^ 48 → ∀ xs cs, queueWords s k (w 1) 0x05 (2 * n) = .ok xs → fenceConds xs = some cs →
     parseFence k s ws = endFence ((List.range n).foldl (fun s i => testCond s k i)
       (s.setQueue k { q with conds := cs, state := 2, nones := q.nones.filter (fun x => x.1 != 0) })) k)) ∧
  (∀ c, q.waitTag = none → q.state = 2 → q.en = true → exec (.fenceConditionTest a j c) s = .next (endFence (testCond s k c) k)) ∧
  (∀ c, q.en = false → exec (.fenceConditionTest a j c) s = .next s) ∧
  (∀ c x pa, q.conds[c]? = some x → x.met = false → queueXlate s k x.va .load 0x05 = .ok pa →
    s.dev.badLines.contains (lineOf pa) = false →
    let met := decide (x.v ≤ chanRead s pa 8)
    testCond s k c = s.setQueue k { q with nones := if met then q.nones.filter (fun x => x.1 != 0) else q.nones,
                                           conds := q.conds.set c { x with pa := some pa, met := met } }) ∧
  ((∃ x ∈ q.conds, x.met = false) → endFence s k = s) ∧
  (q.conds ≠ [] → (∀ x ∈ q.conds, x.met = true) → (endFence s k).queue k = (nextPacket (s.setQueue k { q with conds := [] }) k).queue k ∧
    ∀ t, ∀ l ∈ ((endFence s k).tile t).lines, l ∈ (s.tile t).lines ∧ l.asid ≠ (s.slot (k / 64)).asid) ∧
  (∀ kind : Nat, 1 ≤ kind → kind ≤ 3 →
    ((innermost s k (kind :: innerKinds kind)).isSome = true → parseOpen a j kind s ws = stop 0x04) ∧
    (innermost s k [kind] = none → parseClose a j kind s ws = stop 0x04) ∧
    (∀ id l, innermost s k [kind] = some id → s.level id = some l →
      ((innermost s k (innerKinds kind)).isSome = true ∨ l.counter ≠ w 1) → parseClose a j kind s ws = stop 0x04) ∧
    (∀ pa, innermost s k (kind :: innerKinds kind) = none → innermost s k (span (kind + 1) (3 - kind)) = none → w 1 % 32 = 0 →
      queueXlate s k (w 1) .store 0x06 = .ok pa →
      ∃ l, (parseOpen a j kind s ws).dev.levels = s.dev.levels ++ [l] ∧ l.kind = kind ∧ l.counter = w 1 ∧ l.isOpen = true ∧
        l.closed = false ∧ l.parent = none))

/-- How a queue parses its packets, and what each packet does (R376-R387; log entries 11 and 31). -/
def Obligations.Packets : Prop := Sys2Proof.Claims.packetParsing ∧ Sys2Proof.Claims.packetEffects

/-- CANCEL gives 3 for no such level, 1 for a complete one and 2 for one cancelled before, and otherwise 0 with the level's cancel
carried out: the level and each open or parsed level beneath it is marked in its counter, a launch's undispatched workgroups count
in DONE and ERR, and workgroups that have not ended have the cancel requested of their warps. A CANCEL packet writes the code
to its status word, but stays at HEAD where a counter could not be written and its queue has stopped (R278, R377, R384, R389; that its status is
then not written is the model's, DESIGN CHOICE, log entry 30). -/
def Obligations.Cancels : Prop := ∀ (s₀ s : State) (d b : BitVec 6) (l : BitVec 2) (r : WRef) (g : Workgroup) (w : Warp),
  let i := Instr.cancel d b l
  let s0 := s.setWarp r w
  let h := (w.sget b.toNat).toNat
  Issues s₀ s i act r g w →
  (findLevel s0 g.slot l.toNat h = none → RetiresFrom s₀ i r g w s0 (w.sset d.toNat 3)) ∧
  (∀ id x, findLevel s0 g.slot l.toNat h = some id → s0.level id = some x →
    (x.complete = true → RetiresFrom s₀ i r g w s0 (w.sset d.toNat 1)) ∧
    (x.complete = false → x.cancelled = true → RetiresFrom s₀ i r g w s0 (w.sset d.toNat 2)) ∧
    (x.complete = false → x.cancelled = false → ∀ s1 s2, cancelLevel s0 (queueKey g.slot g.queue) id = .ok s1 →
      s2 = retire s0 r (g.setWarp r.wp w) w (w.sset d.toNat 0) false → ∀ s3,
      cancelLevel s2 (queueKey g.slot g.queue) id = .ok s3 →
      exec i s₀ = .next (afterIo s2 (queueKey g.slot g.queue) h (r.wg + 1) (.ok s3)))) ∧
  (∀ j x pa k, s.level j = some x → counterAt s k x = .ok pa → markCancelled k (.ok s) j =
    .ok (queueWrite (s.setLevel j { x with cancelled := true }) (pa + 24) 8 ({ x with cancelled := true } : Level).control)) ∧
  (∀ j x k, s.level j = some x → x.kind = 0 → dropUndispatched k (.ok s) j =
    count (s.setLevel j { x with next := x.total, again := [] }) k j (x.total - x.next + x.again.length)
      (x.total - x.next + x.again.length)) ∧
  (∀ a j ws code s1 pa, let st := (ws.getD 2 0).toNat
    st ≠ 0 → st % 8 = 0 → st < 2 ^ 48 → cancelByHandle s (queueKey a j) a (fieldOf (ws.getD 0 0) 16 2) (ws.getD 1 0).toNat = .ok (s1, code) →
    let k := queueKey a j
    let done := fun (t : State) => t.setQueue k { t.queue k with nones := (t.queue k).nones.filter (fun x => x.1 != 0) }
    ((s1.queue k).state = 3 → parseCancel a j s ws = done s1) ∧
    ((s1.queue k).state ≠ 3 → queueXlate s k st .store 0x05 = .ok pa →
      parseCancel a j s ws = done (nextPacket (queueWrite s1 pa 8 code) k))) ∧
  (∀ ids u x, s.wg u = some x → ∃ y, (requestCancel s ids).wg u = some y ∧
    (ids.contains x.level = true → x.status ≠ .ended → y.cancelled = true ∧ y.warps = x.warps.map (fun v =>
      (v.1, { v.2 with c := { v.2.c with cancelReq := !v.2.c.ended } }))) ∧
    ((ids.contains x.level = false ∨ x.status = .ended) → y = x))

/-! ### Dispatch and workgroups -/

namespace Sys2Proof.Claims

/-- An event leads to a state with a property. -/
def LeadsTo (s : State) (i : Instr) (p : State → Prop) : Prop := ∃ t, exec i s = .next t ∧ p t

end Sys2Proof.Claims

/-- A doorbell writes TAIL, or stops the queue with 0x07 where the ring would hold more than its size less one; a descriptor
write takes the fields of its word, STATE 0 restarts a stopped queue, and shares that would pass 224 leave the old values; an
update of priorities gives every resident warp the effective priority of its queue; the end of a window clears the counts of
its resource, queue by queue; in a slot that is not bound a descriptor write takes HEAD too, which is the model's
reading (DEDUCED, log entry 46), as is that the ring's count is modulo 2^16 (DEDUCED, log entry 11) (R375-R377, R398, R402, R403, R494,
R497). What a reserved SIZE stores is a free value (log entry 2). -/
def Obligations.QueueRegisters : Prop := ∀ (s : State) (a j c : Nat) (v : BitVec 64),
  let k := queueKey a j
  let q := s.queue k
  let tail := fieldOf v 0 16
  let tooMany := fun (q : Queue) (t : Nat) => 2 ^ (q.size + 4) - 1 < (t + 65536 - q.head) % 65536
  (tooMany q tail → exec (.doorbell a j v) s = .next (s.setQueue k { q with state := 3, err := 0x07 })) ∧
  (¬ tooMany q tail → LeadsTo s (.doorbell a j v) (fun t => (t.queue k).tail = tail ∧ (t.queue k).head = q.head ∧
    (t.queue k).state = (if 2 ≤ q.state then q.state
      else if q.en = true ∧ ((tail + 65536 - q.head) % 65536 ≠ 0 ∨ launchBusy s k = true) then 1 else 0) ∧
    (∀ n, n ≠ k → t.queue n = s.queue n) ∧ t.mem = s.mem ∧ t.wgs = s.wgs)) ∧
  ((s.slot (k / 64)).v = false → let x := { q with ring := q.ring / 2 ^ 32 * 2 ^ 32 + fieldOf v 32 32, head := fieldOf v 0 16 }
    (tooMany x (fieldOf v 16 16) → exec (.queueDescriptorWrite a j 0 v) s = .next (s.setQueue k { x with state := 3, err := 0x07 })) ∧
    (¬ tooMany x (fieldOf v 16 16) → LeadsTo s (.queueDescriptorWrite a j 0 v) (fun t => (t.queue k).tail = fieldOf v 16 16 ∧
      (t.queue k).ring = x.ring ∧ (t.queue k).head = x.head ∧ (∀ n, n ≠ k → t.queue n = s.queue n) ∧ t.mem = s.mem))) ∧
  ((s.slot (k / 64)).v = true → ¬ tooMany q (fieldOf v 16 16) → LeadsTo s (.queueDescriptorWrite a j 0 v) (fun t => (t.queue k).tail = fieldOf v 16 16 ∧
    (t.queue k).ring = q.ring / 2 ^ 32 * 2 ^ 32 + fieldOf v 32 32 ∧ (t.queue k).head = q.head ∧ t.mem = s.mem)) ∧
  (j < 64 → fieldOf v 12 4 ≤ 12 →
    let sum := fun (f : Queue → Nat) (n : Nat) => shareSum s k { q with en := v.getLsbD 24, chsh := n, ptsh := n } f
    (224 < sum (·.chsh) (fieldOf v 40 8) ∨ 224 < sum (·.ptsh) (fieldOf v 32 8) →
      exec (.queueDescriptorWrite a j 1 v) s = .next s) ∧
    (sum (·.chsh) (fieldOf v 40 8) ≤ 224 → sum (·.ptsh) (fieldOf v 32 8) ≤ 224 →
      LeadsTo s (.queueDescriptorWrite a j 1 v) (fun t => let x := t.queue k
        x.asid = fieldOf v 48 16 ∧ x.chsh = fieldOf v 40 8 ∧ x.ptsh = fieldOf v 32 8 ∧ x.prio = fieldOf v 29 3 ∧
        x.idem = v.getLsbD 25 ∧ x.en = v.getLsbD 24 ∧ x.size = fieldOf v 12 4 ∧
        x.ring = q.ring % 2 ^ 32 + fieldOf v 0 8 * 2 ^ 32 ∧ x.head = q.head ∧ x.tail = q.tail ∧
        (q.state = 3 → fieldOf v 22 2 ≠ 0 → x.state = 3 ∧ x.err = q.err) ∧
        (q.state = 3 → fieldOf v 22 2 = 0 → x.state < 2 ∧ x.err = 0) ∧ t.mem = s.mem))) ∧
  (LeadsTo s (.eprioUpdate a) (fun t => t.mem = s.mem ∧ (∀ n x, Table.find s.dev.queues n = some x →
      (t.queue n).eprio = if n / 64 = a then (effective s a).getD (n % 64) 0 else x.eprio) ∧
    (∀ u g, s.wg u = some g → ∃ g', t.wg u = some g' ∧ g'.status = g.status ∧
      (g.slot = a → ∀ w ∈ g'.warps, w.2.sp.prio = (t.queue (queueKey a g.queue)).eprio) ∧ (g.slot ≠ a → g' = g)))) ∧
  exec (.bandwidthWindow c) s = .next { s with dev := { s.dev with served := s.dev.served.filter (fun x => x.1 / 1024 != c) } } ∧
  (∀ n x, Table.find s.dev.queues n = some x → n / 64 = a → x.prio ≤ (effective s a).getD (n % 64) 0)

/-- A released dispatcher places the first item in its order that fits; otherwise nothing is placed. An item of a launch fits where
the first cluster under its limits has a tile for each of its workgroups and the context has that many free areas: each then stands
on its own one of those tiles, with the free area of lowest number, its warps at the entry with the arguments and the seed of R395,
and no other workgroup and no byte of memory changes. A die without a reservation gives one to the gang that has waited 10,000 ticks
and waits still, of the highest priority and then the longest (R391-R395, R495). That a die keeps its reservation when another gang of higher priority has waited
as long is the model's (DESIGN CHOICE, log entry 36). -/
def Obligations.Dispatching : Prop := ∀ (s : State) (d : Nat),
  ((s.die d).released = false → exec (.dispatchRound d) s = .next s) ∧
  ((s.die d).released = true → (∀ x ∈ dieItems s d, placeItem s d x = none) →
    exec (.dispatchRound d) s = .next (countGangs s d) ∧ (countGangs s d).wgs = s.wgs ∧ (countGangs s d).mem = s.mem) ∧
  (∀ pre x post t, (s.die d).released = true → dieItems s d = pre ++ x :: post → (∀ y ∈ pre, placeItem s d y = none) →
    placeItem s d x = some t → LeadsTo s (.dispatchRound d) (fun u => u.wgs = t.wgs ∧ u.mem = t.mem ∧
      (u.die d).lastQueue = x.key)) ∧
  (∀ z i n cs ts, placeFor s d i z n cs = some ts → ts.length = n ∧ (∀ t ∈ ts, s.swapping t = false) ∧
    ∃ c ∈ cs, dieOfCluster c = d ∧ clusterOpen s c i = true ∧ ∀ t ∈ ts, clusterOf t = c ∧ fitsTile s z t = true) ∧
  (∀ c i, clusterOpen s c i = true ↔ residents s c < rglOf (s.cluster c) ∧ ((s.cluster c).rsv = true →
    ∃ x ∈ (s.die (dieOfCluster c)).resv, x.isFor i = true ∧ x.cluster = c)) ∧
  (∀ (l : Level) (prio ix wp : Nat), let w := launchWarp l prio ix wp none false
    let seed := l.word 6 ^^^ BitVec.ofNat 64 (16 * ix + wp)
    w.c.pos = ⟨(l.word 1).toNat, 0, .target, .none⟩ ∧ w.c.base = BitVec.allOnes 32 ∧ w.c.ended = false ∧ w.c.stack = [] ∧
    w.sp.srseed = (if seed = 0 then 1 else seed) ∧ w.sp.prio = prio ∧ w.r.alloc = 8 * launchVgr l.w0 ∧
    (∀ k x, l.args[k]? = some x → w.sget k = x) ∧ (∀ k, l.args.length ≤ k → w.sget k = 0) ∧ (∀ k, w.vget k = VReg.zero)) ∧
  (∀ (x : Item) (l : Level), x.uids = [] → s.level x.level = some l →
    let n := x.ixs.length
    let free := (List.range (s.slot l.slot).acnt).filter (fun k => !(s.slot l.slot).used.contains k)
    let place := placeFor s d x l.size n (dieClusters d)
    (free.length < n ∨ place = none → placeItem s d x = none) ∧
    (∀ ts, n ≤ free.length → place = some ts → l.again = [] → (∀ u, s.nextUid ≤ u → s.wg u = none) → ∃ t, placeItem s d x = some t ∧
      t.mem = s.mem ∧ t.nextUid = s.nextUid + n ∧ (∀ u, u < s.nextUid → t.wg u = s.wg u) ∧
      (∀ k ∈ free.take n, k ∈ (t.slot l.slot).used) ∧
      ∀ j ix tile k, x.ixs[j]? = some ix → ts[j]? = some tile → free[j]? = some k → ∃ g, t.wg (s.nextUid + j) = some g ∧
        g.tile = tile ∧ g.area = (s.slot l.slot).abase * 4096 + k * (s.slot l.slot).asize * 4096 ∧ g.status = .resident ∧
        g.wgix = ix ∧ g.level = x.level ∧ g.slot = l.slot ∧ g.queue = l.queue ∧ g.handle = l.counter ∧ g.sp = [] ∧ g.g = [] ∧
        g.warps = (List.range (launchWarps l.w0)).map (fun wp => (wp, launchWarp l x.prio ix wp none false)) ∧
        (launchGrouped l.w0 = false → g.gang = []) ∧ (launchGrouped l.w0 = true → x.ixs = span (x.ixs.headD 0) l.gangSize →
          x.ixs.headD 0 % l.gangSize = 0 → g.gang = span s.nextUid n))) ∧
  (∀ (l : Level) (id prio ix tile area : Nat) (gang : List Nat) (marks : Table (Nat × Reg)) (ended : List Nat),
    (launchGroup l id prio ix tile area gang (some (marks, ended))).warps = (List.range (launchWarps l.w0)).map (fun wp =>
      (wp, launchWarp l prio ix wp (Table.find marks wp) (ended.contains wp))) ∧
    ∀ wp p, let w := launchWarp l prio ix wp (some p) (ended.contains wp)
      w.c.pos = ⟨p.1, 0, .target, .none⟩ ∧ w.sget 63 = p.2 ∧ w.region = some p ∧ w.c.ended = ended.contains wp) ∧
  (∀ key, reservedKey s d = some key → ∃ w x, (key, w) ∈ (s.die d).gangWait ∧ w.since + 10000 ≤ (s.die d).tick ∧
    queueItem s d key = some x ∧ x.level = w.level ∧ x.ixs.headD 0 = w.first ∧
    ∀ e ∈ (s.die d).gangWait, e.2.since + 10000 ≤ (s.die d).tick → stillWaits s d e.1 e.2 = true →
      (s.queue e.1).eprio < (s.queue key).eprio ∨ ((s.queue e.1).eprio = (s.queue key).eprio ∧ w.since ≤ e.2.since)) ∧
  ((s.die d).resv ≠ none → exec (.gangReservation d) s = .next s) ∧
  ((s.die d).resv = none → reservedKey s d = none → exec (.gangReservation d) s = .next s) ∧
  (∀ key x l, (s.die d).resv = none → reservedKey s d = some key → queueItem s d key = some x → s.level x.level = some l →
    LeadsTo s (.gangReservation d) (fun t => (t.die d).resv = some ⟨x.level, x.ixs.headD 0, reserveOn s d l.size x.ixs.length⟩ ∧
      (t.cluster (reserveOn s d l.size x.ixs.length)).rsv = true ∧ t.wgs = s.wgs ∧ t.mem = s.mem))

/-- A workgroup that has ended with nothing outstanding writes its exit record, is counted and is removed, without a warp; a
discarded one is removed and listed for its new dispatch with its restart records; one pre-empted is switched out once every
warp is done, and restored once it has been placed on a powered pair; past the bounds of 20,000 ticks a warp that keeps its
handler running ends the workgroup with error, or its pre-empt handler is abandoned, and the management cores are told (R275, R276, R388, R396,
R421, R437, R440, R442, R443). What they are told, slot, handle, index and warp, is the model's (DESIGN CHOICE, log entry 44), and the PC of an exit
record is that of the warp's position, its reading (log entry 13). -/
def Obligations.WorkgroupLife : Prop := ∀ (s : State) (u : Nat) (g : Workgroup), s.wg u = some g →
  let k := queueKey g.slot g.queue
  let now := (s.die (dieOf g.tile)).tick
  (g.status = .saved ∨ g.status = .placed ∨ g.status = .ended → exec (.workgroupEnd u) s = .next s) ∧
  (g.status = .resident → g.discard = true ∨ (∃ w ∈ g.warps, w.2.c.ended = false) → exec (.workgroupEnd u) s = .next s) ∧
  (g.status = .resident → g.discard = false → (∀ w ∈ g.warps, w.2.c.ended = true) → quiet s u g = true → s.swapping g.tile = false →
    leavesLate s u g 1 = false → let s2 := leaveConvoys (writeBackGroup s u g) u g
    ((s2.tile g.tile).unacked ≠ [] → exec (.workgroupEnd u) s = .next s2) ∧
    ((s2.tile g.tile).unacked = [] → ∀ s3 s4, exitRecord s2 g (exitInfo g) = .ok s3 → countGroup s3 g false = .ok s4 →
      exec (.workgroupEnd u) s = .next (wcbSettle (endGroup (afterIo s3 k g.handle (u + 1) (.ok s4)) u g true) g))) ∧
  (∀ b, ∃ h, (removeGroup s u g b).wg u = some h ∧ h.status = .ended ∧ h.warps = []) ∧
  (∀ b, endGroup s u g b = swapPartnerGone (removeGroup s u g b) g (fun _ => true)) ∧
  (g.status = .resident → s.swapping g.tile = false → g.discard = true → exec (.workgroupSwitchOut u) s = .next (discardGroup s u g)) ∧
  ((∀ w ∈ g.warps, w.2.mat = none) → quiet s u g = true → g.cancelled = false →
    leavesLate s u g 1 = false → let s2 := leaveConvoys (writeBackGroup s u g) u g
    ∀ l, (s2.tile g.tile).unacked = [] → s2.level g.level = some l → discardGroup s u g =
      wcbSettle (removeGroup (s2.setLevel g.level { l with again := l.again ++
        [(g.wgix, g.warps.filterMap (fun w => w.2.region.map (fun p => (w.1, p))),
          (g.warps.filter (fun w => w.2.c.ended)).map (·.1))] }) u g true) g) ∧
  (g.status = .resident → s.swapping g.tile = false → g.discard = false → g.preTick ≠ none → allDone s u g = true →
    (∃ w ∈ g.warps, w.2.c.ended = false) → exec (.workgroupSwitchOut u) s = .next (switchOut s u g)) ∧
  (g.discard = false → g.preTick = none ∨ allDone s u g = false → exec (.workgroupSwitchOut u) s = .next s) ∧
  (∃ h, (storeGroup s u g).wg u = some h ∧ h.status = .saved ∧ h.preTick = none) ∧
  (g.status ≠ .placed ∨ 2 ≤ (s.pair (pairOf (clusterOf g.tile))).gstate → exec (.workgroupRestore u) s = .next s) ∧
  (g.status = .placed → (s.pair (pairOf (clusterOf g.tile))).gstate < 2 →
    exec (.workgroupRestore u) s = .next (restoreGroup s u g)) ∧
  (∀ t, g.preTick = some t → (now < t + 20000 → exec (.preemptTimeout u) s = .next s) ∧
    (t + 20000 ≤ now → g.status = .resident → exec (.preemptTimeout u) s = .next (if g.discard then endCalls s (gangOf u g)
      else (gangOf u g).foldl expireGroup (endCalls s (gangOf u g))))) ∧
  (∀ wp w, g.warps.find? (fun w => !w.2.preemptDone && w.2.c.handler.isSome && w.2.c.handler != some 3) = some (wp, w) →
    g.status = .resident → expireGroup s u = endWithError (reportExpiry s g wp) u 0x54 wp w.c.pos.place 0 0) ∧
  (g.status ≠ .resident → expireGroup s u = s) ∧
  (g.status = .resident → (∀ w ∈ g.warps, w.2.preemptDone = true ∨ w.2.c.handler = none ∨ w.2.c.handler = some 3) →
    (expireGroup s u).wg u = some { g with warps := g.warps.map (fun w => (w.1, w.2.preemptExpired)) } ∧
    (expireGroup s u).dev.expiries = s.dev.expiries ++ (g.warps.filter (fun w => w.2.c.handler == some 3 && !w.2.preemptDone)).map
      (fun w => ⟨g.slot, g.handle, g.wgix, w.1⟩) ∧ (expireGroup s u).mem = s.mem) ∧
  (∀ t wp w, g.cancelTick = some t → g.warps.find? (fun w => !w.2.c.ended && w.2.c.handler == some 2) = some (wp, w) →
    (now < t + 20000 → exec (.cancelTimeout u) s = .next s) ∧
    (t + 20000 ≤ now → exec (.cancelTimeout u) s = .next
      ((endWithError s u 0x30 wp w.c.pos.place 0 0).updWg u (fun g => { g with cancelled := true }))))

/-- A request of the control block while one is in progress is ignored, and one that names no workgroup ends with code 1. A
pre-emption marks the workgroup or its gang, whose warps take the trap at their next boundary, those of one placed again once it is restored, or which is discarded in an
idempotent queue; OP 2 of one without a gang, a restore of one not saved and an end of one not saved end with code 2; a restore
waits for its dispatcher; an end counts the workgroup with error and removes it, once its pages are there (R437, R441-R443, R496). That OP 2 of a
workgroup of no gang ends with code 2, and OP 4 ends any saved workgroup with error, is the model's reading (DEDUCED, log entry 33). -/
def Obligations.ControlBlock : Prop := ∀ (s : State) (a h n : Nat),
  let ops : List (Nat × Instr) := [(1, .wcbPreempt a h n), (2, .wcbPreemptGang a h n), (3, .wcbRestore a h n), (4, .wcbEnd a h n)]
  (∀ x ∈ ops, s.dev.wcbState = 1 → exec x.2 s = .next s) ∧
  (∀ x ∈ ops, s.dev.wcbState ≠ 1 → wcbTarget s a h n = none → exec x.2 s = .next (wcbWrite s x.1 a h n 2 1)) ∧
  (∀ u g, s.dev.wcbState ≠ 1 → wcbTarget s a h n = some (u, g) →
    (g.status = .resident ∨ g.status = .placed → g.preTick = none → exec (.wcbPreempt a h n) s =
      .next ((gangOf u g).foldl preemptGroup (wcbWrite s 1 a h n 1 0))) ∧
    ((g.status ≠ .resident ∧ g.status ≠ .placed) ∨ g.preTick ≠ none → exec (.wcbPreempt a h n) s = .next (wcbWrite s 1 a h n 2 2)) ∧
    (g.status = .resident ∨ g.status = .placed → g.preTick = none → g.gangLaunch = true → exec (.wcbPreemptGang a h n) s =
      .next (g.gang.foldl preemptGroup (wcbWrite s 2 a h n 1 0))) ∧
    (g.gangLaunch = false → exec (.wcbPreemptGang a h n) s = .next (wcbWrite s 2 a h n 2 2)) ∧
    (g.status ≠ .saved → exec (.wcbRestore a h n) s = .next (wcbWrite s 3 a h n 2 2) ∧
      exec (.wcbEnd a h n) s = .next (wcbWrite s 4 a h n 2 2)) ∧
    (g.status = .saved → g.gangLaunch = false → s.wg u = some g → exec (.wcbRestore a h n) s = .next (wcbWrite s 3 a h n 1 0)) ∧
    (g.status = .saved → let s0 := wcbWrite s 4 a h n 1 0
      let r := (4, a % 8, h % 2 ^ 48, n % 2 ^ 64)
      let x : ExitInfo := ⟨g.wgix, 0x30, g.nwarps, true, true, 0, 0, 0, 0, g.warps.map (fun w => w.2.c.fmask.toNat)⟩
      (∀ p c, exitRecord s0 g x = .miss p c → exec (.wcbEnd a h n) s =
        .next (queueMiss (wcbAnswer s0 r 1 0) (queueKey g.slot g.queue) p c g.handle (u + 1))) ∧
      ∀ s1 s2, exitRecord s0 g ⟨g.wgix, 0x30, g.nwarps, true, true, 0, 0, 0, 0,
        g.warps.map (fun w => w.2.c.fmask.toNat)⟩ = .ok s1 → countGroup s1 g true = .ok s2 →
      exec (.wcbEnd a h n) s = .next (endGroup (wcbAnswer (afterIo s2 (queueKey g.slot g.queue) g.handle (u + 1) (.ok s2)) r 2 0)
        u g false))) ∧
  (∀ r st code, (wcbAnswer s r st code).dev.wcbState = st ∧ (wcbAnswer s r st code).dev.wcbCode = code ∧
    (wcbAnswer s r st code).dev.wcbReq = if st = 1 then some r else none) ∧
  (∀ op st code, (wcbWrite s op a h n st code).dev.wcbReq = if st = 1 then some (op, a % 8, h % 2 ^ 48, n % 2 ^ 64) else none) ∧
  (∀ u g, s.wg u = some g → g.status = .resident ∨ g.status = .placed → ∃ x, (preemptGroup s u).wg u = some x ∧
    x.preTick = some (s.die (dieOf g.tile)).tick ∧
    ((s.queue (queueKey g.slot g.queue)).idem = true → x.discard = true) ∧
    ((s.queue (queueKey g.slot g.queue)).idem = false → x.discard = g.discard ∧ x.warps = g.warps.map (fun w =>
      (w.1, { w.2 with c := { w.2.c with preReq := !w.2.c.ended } }))))

/-! ### Rotation, power, registers, boot -/

/-- At every 100,000th tick, once, an enabled controller of a powered cluster at L8 or above chooses the hottest resident tile and the
coolest other one that differ by the threshold at least; the swap waits for the accesses of both, then writes back the moved
contexts with the link at full width, exchanges the residencies and is counted, or is abandoned 300 ticks after the two of its
decision (R407-R416, R453). That no workgroup on an eligible tile has a pre-emption or a discard under way, which R410 leaves open, is the model's
choice (DESIGN CHOICE, log entry 35). -/
def Obligations.Rotation : Prop := ∀ (s : State) (c : Nat) (temps : List Nat) (v : BitVec 64),
  let k := s.cluster c
  let now := (s.die (dieOfCluster c)).tick
  (now % 100000 ≠ 0 ∨ now = 0 ∨ k.interval = now ∨ k.swap ≠ none → exec (.rotationInterval c temps) s = .next s) ∧
  (now ≠ 0 → now % 100000 = 0 → k.interval ≠ now → k.swap = none →
    (k.roten = false ∨ 2 ≤ (s.pair (pairOf c)).gstate ∨ k.clk.level < 8 →
      exec (.rotationInterval c temps) s = .next (s.setCluster c { k with nlast := 0, interval := now })) ∧
    (k.roten = true → (s.pair (pairOf c)).gstate < 2 → 8 ≤ k.clk.level →
      exec (.rotationInterval c temps) s =
        .next (startSwap (s.setCluster c { k with nlast := 0, interval := now }) c 0 temps (swapTiles s c)))) ∧
  (∀ n elig h t, n < k.maxsw → chooseSwap s c temps elig = some (h, t) → let z := (startSwap s c n temps elig).cluster c
    (startSwap s c n temps elig).mem = s.mem ∧ (startSwap s c n temps elig).wgs = s.wgs ∧ z.nlast = n + 1 ∧
    z.swap = some ⟨h, t, .quiesce, now, false, false, n, temps,
      elig.filter (fun u => u != h && u != t)⟩) ∧
  (∀ t ∈ swapTiles s c, clusterOf t = c ∧ (s.tile t).retired = false ∧
    (s.tile t).placed ≠ some (s.die (dieOf t)).tick ∧ ∀ g ∈ onTileOf s t, g.preTick = none ∧ g.discard = false ∧ g.status ≠ .placed) ∧
  (∀ elig h t, chooseSwap s c temps elig = some (h, t) → h ≠ t ∧ h ∈ elig ∧ t ∈ elig ∧ onTileOf s h ≠ [] ∧
    (s.tile h).retired = false ∧ (s.tile t).retired = false ∧
    temps.getD (t % 8) 0 + k.thresh ≤ temps.getD (h % 8) 0) ∧
  (k.swap = none → exec (.swapQuiesceEnd c) s = .next s ∧ exec (.swapQuiesceTimeout c) s = .next s ∧
    exec (.swapTransferEnd c) s = .next s ∧ exec (.swapWritebackEnd c) s = .next s ∧ exec (.swapEnd c) s = .next s) ∧
  (∀ x, k.swap = some x →
    (x.phase = .quiesce → x.start + 302 ≤ now → exec (.swapQuiesceTimeout c) s = .next (abandonSwap s c x)) ∧
    (x.phase ≠ .quiesce ∨ now < x.start + 302 → exec (.swapQuiesceTimeout c) s = .next s) ∧
    (x.phase = .quiesce → x.start + 302 < now → exec (.swapQuiesceEnd c) s = .next s) ∧
    (x.phase = .quiesce → now ≤ x.start + 302 → (∀ g ∈ onTileOf s x.hot ++ onTileOf s x.cool, ∀ w ∈ g.warps,
        w.2.quiesced = true ∧ (canRun g w.2 && w.2.faultDue) = false) → LeadsTo s (.swapQuiesceEnd c) (fun t =>
      (t.cluster c).swap = some { x with phase := .transfer } ∧ (t.cluster c).link = { k.link with width := 4, handshake := none } ∧
      t.mem = (sendMoved s x).mem)) ∧
    (x.phase = .transfer → x.moved = false → LeadsTo s (.swapTransferEnd c) (fun t =>
      (t.cluster c).swap = some { x with moved := true } ∧ t.mem = s.mem ∧ t.wgs = s.wgs.map (fun g =>
        if g.2.onTile && g.2.tile == x.hot then (g.1, { g.2 with tile := x.cool, recent := [] })
        else if g.2.onTile && g.2.tile == x.cool then (g.1, { g.2 with tile := x.hot, recent := [] }) else g))) ∧
    (x.phase ≠ .transfer ∨ x.moved = true → exec (.swapTransferEnd c) s = .next s) ∧
    (x.phase = .transfer → x.written = false → (s.tile x.hot).unacked = [] → (s.tile x.cool).unacked = [] →
      (∀ g ∈ onTileOf s x.hot ++ onTileOf s x.cool, ∀ w ∈ g.warps, w.2.remote = 0) →
      exec (.swapWritebackEnd c) s = .next (s.setCluster c { k with swap := some { x with written := true } })) ∧
    (x.phase = .transfer → x.moved = true → x.written = true → exec (.swapEnd c) s = .next
      (endRotation (s.setCluster c { k with swaps := min (k.swaps + 1) 65535 }) c x)) ∧
    (x.phase ≠ .transfer ∨ x.moved = false ∨ x.written = false → exec (.swapEnd c) s = .next s)) ∧
  exec (.rotctlWrite c v) s = .next (s.setCluster c { k with
    thresh := max 1 (fieldOf v 16 8), maxsw := min 2 (fieldOf v 12 2), roten := v.getLsbD 0 })

/-- What the events of clocks, voltage and power do: a lock ends after 200 ticks and its switch comes in a later tick, a balance sample is taken
once every 10 ticks in a pair that is not gated and a power sample every 1,000, past the budget the heaviest cluster losing a place and
below 0.9 of it every limit rising by 8; a pair that idles 2,048 ticks gates, in 20 more is off with its tiles' buffers
and its walkers' caches empty, and wakes in 500 (R475, R476, R481-R491). That the end of a stall window which names other counts than
those of the ended sample changes nothing is the model's choice (DESIGN CHOICE, log entry 27). -/
def Obligations.PowerAndClocks : Prop := ∀ (s : State) (c p d power a b : Nat) (draws : List Nat),
  let k := (s.cluster c).clk
  let x := s.pair p
  let y := s.die d
  let now := fun (d : Nat) => (s.die d).tick
  (∀ (q : Clock) l tick, q.lockTo l tick = if q.fblevel = l then q else { q with fblevel := l, locking := true, lockEnd := tick + 200 }) ∧
  (k.locking = true ∨ now (dieOfCluster c) ≤ k.lockEnd ∨ now (dieOfCluster c) ≤ k.since → trySwitch s c = s) ∧
  (k.locking = true → now (dieOfCluster c) < k.lockEnd → exec (.clockLockDone c) s = .next s) ∧
  (k.locking = false ∨ k.lockEnd ≤ now (dieOfCluster c) →
    exec (.clockLockDone c) s = .next (trySwitch (s.updClk c (fun k => { k with locking := false })) c)) ∧
  (3 ≤ x.gstate ∨ x.vnow ≠ requiredVoltage s p → exec (.voltageTargetReached p) s = .next s) ∧
  (x.gstate < 3 → x.vnow = requiredVoltage s p → exec (.voltageTargetReached p) s = .next ((pairClusters p).foldl (fun s c =>
    if (s.cluster c).clk.cstate = 1 then trySwitch s c else endLowering s c) s)) ∧
  (3 ≤ x.gstate ∨ now (p / 8) % 10 ≠ 0 ∨ x.sampleAt = some (now (p / 8)) → exec (.balanceSample p a b) s = .next s) ∧
  (x.gstate < 3 → now (p / 8) % 10 = 0 → x.sampleAt ≠ some (now (p / 8)) → a < 1024 → b < 1024 → LeadsTo s (.balanceSample p a b) (fun t =>
    let z := t.pair p
    z.ieven = a ∧ z.iodd = b ∧ z.sampled = true ∧ z.sampleAt = some (now (p / 8)) ∧ (z.bal = true ↔ 10 * (a - b + (b - a)) ≤ max a b) ∧ t.mem = s.mem ∧ t.wgs = s.wgs)) ∧
  (y.tick % 1000 ≠ 0 ∨ y.powerAt = some y.tick → exec (.powerSample d power draws) s = .next s) ∧
  (y.tick % 1000 = 0 → y.powerAt ≠ some y.tick → LeadsTo s (.powerSample d power draws) (fun t =>
    (t.die d).power = min power 65535 ∧ (t.die d).powerAt = some y.tick ∧ t.mem = s.mem ∧
    (t.die d).overs = (if y.budget < min power 65535 then min (y.overs + 1) 65535 else y.overs) ∧
    (∀ i, y.budget < min power 65535 → heaviest s d draws = some i →
      (t.cluster (16 * d + i)).clk.plim = max 1 (residents s (16 * d + i) - 1)) ∧
    (10 * min power 65535 < 9 * y.budget → ∀ i, i < 16 →
      (t.cluster (16 * d + i)).clk.plim = min 256 ((s.cluster (16 * d + i)).clk.plim + 8)) ∧
    (min power 65535 ≤ y.budget → 9 * y.budget ≤ 10 * min power 65535 → t.clusters = s.clusters))) ∧
  (4 * power ≤ 5 * y.budget → exec (.hardClamp d power) s = .next s) ∧
  (5 * y.budget < 4 * power → LeadsTo s (.hardClamp d power) (fun t => (t.die d).hard = min (y.hard + 1) 65535 ∧ t.mem = s.mem ∧
    ∀ i, i < 16 → let l := (s.cluster (16 * d + i)).clk.level
      l - 4 < l → (t.cluster (16 * d + i)).clk.clamp = true ∧ (t.cluster (16 * d + i)).clk.pcap = l - 4)) ∧
  (∀ stalled held, (s.cluster c).sample ≠ some (stalled, held) → exec (.stallWindow c stalled held) s = .next s) ∧
  (∀ stalled held, (s.cluster c).sample = some (stalled, held) → LeadsTo s (.stallWindow c stalled held) (fun t =>
    (t.cluster c).ratio = (if held = 0 then 0 else min 65535 (65536 * stalled / held)) ∧ (t.cluster c).sample = none ∧
    t.mem = s.mem ∧ t.wgs = s.wgs)) ∧
  (x.gstate = 1 → pairIdle s p = true → x.since + 2048 ≤ now (p / 8) →
    exec (.gatingIdleExpiry p) s = .next (s.setPair p { x with gstate := 2, since := now (p / 8) })) ∧
  (x.gstate ≠ 1 ∨ pairIdle s p = false ∨ now (p / 8) < x.since + 2048 → exec (.gatingIdleExpiry p) s = .next s) ∧
  (x.gstate = 2 → x.since + 20 ≤ now (p / 8) → LeadsTo s (.gatingDone p) (fun t => (t.pair p).ballast = [] ∧
    (t.pair p).gstate = (if residents s (2 * p) = 0 ∧ residents s (2 * p + 1) = 0 then 3 else 4) ∧
    (∀ i, i < 16 → (t.tile (16 * p + i)).lines = [] ∧ (t.tile (16 * p + i)).code = [] ∧ (t.tile (16 * p + i)).pages = []) ∧
    (t.cluster (2 * p)).clk.cstate = 4 ∧ (t.cluster (2 * p + 1)).clk.cstate = 4 ∧
    (t.cluster (2 * p)).upper = [] ∧ (t.cluster (2 * p + 1)).upper = [])) ∧
  (x.gstate ≠ 2 ∨ now (p / 8) < x.since + 20 → exec (.gatingDone p) s = .next s) ∧
  (x.gstate = 4 → x.since + 500 ≤ now (p / 8) → LeadsTo s (.pairWakeDone p) (fun t => (t.pair p).gstate = 0 ∧
    (t.cluster (2 * p)).clk.level = (s.cluster (2 * p)).clk.ilevel ∧
    (t.cluster (2 * p + 1)).clk.level = (s.cluster (2 * p + 1)).clk.ilevel ∧
    (t.pair p).vnow = max (max x.pfloor (levelVoltage (s.cluster (2 * p)).clk.ilevel))
      (levelVoltage (s.cluster (2 * p + 1)).clk.ilevel) ∧ t.mem = s.mem)) ∧
  (x.gstate ≠ 4 ∨ now (p / 8) < x.since + 500 → exec (.pairWakeDone p) s = .next s)

/-! ### Registers of the device, the fault ring, and boot -/

/-- The writable fields of the pair, die, window and context registers take their values within their limits, a bound context slot
taking only DEFLEVEL, CAP, DBG and V; a clear empties a monitor's counts; and a write through the monitor interface has the
effect of the register it addresses, a write at an address that is no multiple of 8 none, where a
read gives 0; a context that is bound finds its workgroups at the slot (R451, R473, R486, R492, R494,
R495, R506). That a workgroup of a context without a slot stands at none, and that areas held are in use again at a binding, is the
model's reading (DEDUCED, log entry 46); what an access at no multiple of 8 does is its choice (DESIGN CHOICE, log entry 47). -/
def Obligations.DeviceRegisters : Prop := ∀ (s : State) (p d c e n a off addr : Nat) (v : BitVec 64),
  exec (.pairpwrWrite p v) s = .next (s.setPair p { s.pair p with
    pfloor := max 550 (min 810 (fieldOf v 0 10)), gateen := v.getLsbD 26 }) ∧
  exec (.diepwrWrite d v) s = .next (s.setDie d { s.die d with budget := max 1 (min 1800 (fieldOf v 48 16)) }) ∧
  LeadsTo s (.perfMonitorClear c n) (fun t => let m := Table.get (s.cluster c).mons Monitor.reset (n % 8)
    Table.get (t.cluster c).mons Monitor.reset (n % 8) = ⟨m.base, m.shift, m.src, 2 ^ 64 - 1, 0, 0, 0, []⟩ ∧
    (∀ j, j ≠ n % 8 → Table.get (t.cluster c).mons Monitor.reset j = Table.get (s.cluster c).mons Monitor.reset j) ∧
    t.mem = s.mem ∧ t.wgs = s.wgs) ∧
  (64 ≤ e ∨ 3 ≤ n → exec (.inboundWindowWrite e n v) s = .next s) ∧
  (e < 64 → n < 3 → LeadsTo s (.inboundWindowWrite e n v) (fun t =>
    (∀ i, (t.dev.window e n).getLsbD i = (v.getLsbD i && if n = 0 then decide (i < 10 ∨ (59 ≤ i ∧ i < 64))
      else decide (12 ≤ i ∧ i < 38))) ∧
    (∀ f j, j < 8 → (f, j) ≠ (e, n) → t.dev.window f j = s.dev.window f j) ∧ t.mem = s.mem ∧ t.wgs = s.wgs)) ∧
  (addr % 8 ≠ 0 → exec (.monitorRegisterWrite addr v) s = .next s) ∧
  (d < 4 → p < 8 → exec (.monitorRegisterWrite (0x01000000 * d + 0x20000 + 0x100 * p) v) s =
    exec (.pairpwrWrite (8 * d + p) v) s) ∧
  (d < 4 → exec (.monitorRegisterWrite (0x01000000 * d + 0x30000) v) s = exec (.diepwrWrite d v) s) ∧
  (d < 4 → c < 16 → exec (.monitorRegisterWrite (0x01000000 * d + 0x1000 * c + 8) v) s = exec (.rotctlWrite (16 * d + c) v) s) ∧
  (a < 8 → n < 64 → exec (.monitorRegisterWrite (0x04008000 + 512 * a + 8 * n) v) s = exec (.doorbell a n v) s) ∧
  (exec (.monitorRegisterWrite 0x04014000 v) s = exec (.faultRingHeadWrite v) s) ∧
  (exec (.monitorRegisterWrite 0x04014010 v) s = exec (.faultRingReply v) s) ∧
  (addr % 8 ≠ 0 → monitorRead s addr = (s, 0)) ∧ monitorRead s 0x04014010 = (s, 0) ∧
  (d < 4 → monitorRead s (0x01000000 * d + 0x30000) = (s, packFields [(48, (s.die d).budget), (32, (s.die d).power),
    (16, (s.die d).overs), (0, (s.die d).hard)])) ∧
  (a < 8 → n < 64 → monitorRead s (0x04008000 + 512 * a + 8 * n) = (s, BitVec.ofNat 64 (s.queue (queueKey a n)).tail)) ∧
  (a < 8 → off < 256 → off % 8 = 0 →
    exec (.monitorRegisterWrite (0x04050000 + 256 * a + off) v) s = exec (.contextSlotWrite a off v) s) ∧
  (a < 8 → let q := s.slot a
    (q.v = true → off ≠ 0 → exec (.contextSlotWrite a off v) s = .next s) ∧
    (q.v = true → v.getLsbD 0 = false → mayUnbind s a = false → exec (.contextSlotWrite a 0 v) s = .next s) ∧
    (q.v = true → (v.getLsbD 0 = true ∨ mayUnbind s a = true) → exec (.contextSlotWrite a 0 v) s =
      .next (s.setSlot a { q with deflevel := fieldOf v 44 4, cap := fieldOf v 40 4, dbg := v.getLsbD 1, v := v.getLsbD 0,
                                  used := if v.getLsbD 0 then q.used else [] })) ∧
    (q.v = false → let q' := { q with
        asid := fieldOf v 48 16, deflevel := fieldOf v 44 4, cap := fieldOf v 40 4, dbg := v.getLsbD 1, v := v.getLsbD 0 }
      (v.getLsbD 0 = false → exec (.contextSlotWrite a 0 v) s = .next (s.setSlot a q')) ∧
      (v.getLsbD 0 = true → LeadsTo s (.contextSlotWrite a 0 v) (fun t => t.mem = s.mem ∧
        t.slot a = { q' with used := areasHeld s q' q'.asid } ∧ ∀ u g, s.wg u = some g → t.wg u = some { g with
          slot := if g.asid = q'.asid then a else if g.slot = a then 8 else g.slot })) ∧
      exec (.contextSlotWrite a 8 v) s = .next (s.setSlot a { q with ptroot := fieldOf v 12 40 }) ∧
      exec (.contextSlotWrite a 0x10 v) s = .next (s.setSlot a { q with rtab := fieldOf v 11 41 })) ∧
    (q.v = false → q.used ≠ [] → exec (.contextSlotWrite a 0x20 v) s = .next (s.setSlot a q) ∧
      exec (.contextSlotWrite a 0x28 v) s = .next (s.setSlot a q)))

/-- HEAD of the fault ring moves only forward and not past TAIL, and a message that waited for room is timed from then; a reply with a tag that names no pending message changes
nothing, and one that names a message answers it; a break's warp goes on past its BKPT, or issues it again where the reply says
so; a parked warp has its tag struck, and the page noted where the management cores refuse it; a queue goes on, and with it an
end of a saved workgroup that waited (R244, R273, R434, R435,
R501, R506, R522). -/
def Obligations.FaultRing : Prop := ∀ (s : State) (v : BitVec 64),
  (v.toNat < s.dev.ringHead ∨ ringTailOf s.dev < v.toNat → exec (.faultRingHeadWrite v) s = .next s) ∧
  (s.dev.ringHead ≤ v.toNat → v.toNat ≤ ringTailOf s.dev → exec (.faultRingHeadWrite v) s =
    .next { s with dev := { s.dev with ringHead := v.toNat, ring := s.dev.ring.map (fun e => (e.1,
      if ringTailOf s.dev ≤ e.1 ∧ e.1 < min s.dev.ringTail (v.toNat + 256)
      then { e.2 with born := if e.2.src = 4 then s.dev.tick else (s.die (dieOfCluster e.2.cluster)).tick } else e.2)) } }) ∧
  (pendingMessage s.dev (fieldOf v 0 32) = none → exec (.faultRingReply v) s = .next s) ∧
  (∀ n m, pendingMessage s.dev (fieldOf v 0 32) = some (n, m) → m.tag = fieldOf v 0 32 ∧ m.answered = false) ∧
  (∀ n m, pendingMessage s.dev (fieldOf v 0 32) = some (n, m) → m.src = 4 → ∃ t, exec (.faultRingReply v) s = .next (wcbResume t) ∧
    t.dev.wcbReq = s.dev.wcbReq ∧ t.mem = s.mem ∧ t.wgs = s.wgs ∧ (∀ k, (t.queue k).waitTag ≠ some m.tag) ∧
    ((∀ r, s.dev.wcbReq = some r → r.1 ≠ 4) → wcbResume t = t)) ∧
  (∀ n m, pendingMessage s.dev (fieldOf v 0 32) = some (n, m) → m.src = 4 → (∀ r, s.dev.wcbReq = some r → r.1 ≠ 4) →
    LeadsTo s (.faultRingReply v) (fun t => t.mem = s.mem ∧ t.wgs = s.wgs ∧
      (∃ m', Table.find t.dev.ring n = some m' ∧ m'.answered = true) ∧
      ∀ k q, Table.find s.dev.queues k = some q → Table.find t.dev.queues k = some (if q.waitTag = some m.tag then
        { q with waitTag := none, nones := if v.getLsbD 32 then q.nones ++ [(q.waitBy, m.va / 4096)] else q.nones } else q))) ∧
  (∀ n m, pendingMessage s.dev (fieldOf v 0 32) = some (n, m) → m.src = 3 →
    ∀ g w, s.wg m.uid = some g → s.warp ⟨m.uid, m.warp⟩ = some w → w.c.wait = .brk m.tag → w.c.ended = false →
    LeadsTo s (.faultRingReply v) (fun t => t.mem = s.mem ∧ ∃ w', t.warp ⟨m.uid, m.warp⟩ = some w' ∧ w'.c.wait = .none ∧
      w'.r = w.r ∧ (v.getLsbD 32 = true → w'.c.pos = w.c.pos) ∧ (v.getLsbD 32 = false → w'.c.pos = w.advance.c.pos))) ∧
  (∀ r w m tags refused, s.warp r = some w → w.c.wait = .park tags → tags.contains m.tag = true → replyWarp s r m refused =
    s.setWarp r { w with
      nones := if refused then w.nones ++ [m.va / 4096] else w.nones
      c := { w.c with wait := .park (tags.filter (fun t => t != m.tag)) } })

/-- Power-on keeps the flash, the fuses and the device's place and clears what is volatile; stage 0 takes stage 1 of the strapped
slot or else of the other, and halts where both are rejected; stage 1 clears base memory and takes stage 2; stage 2 trains
the strapped ports and releases the dispatchers. The ROM derives the keys from the secret, which then reads as zero; a report is signed with them, and a report and a status answer
change nothing else (R498, R500, R502, R505). The reasons of a halt are the model's own (log entry 12); that a status answer is ten
words in this order, and that power-on clears all of memory, is its reading (DEDUCED, log entry 38), and the temperature is a free
value (log entry 2). -/
def Obligations.Boot : Prop := ∀ (s : State) (x : BitVec 64) (nonce : BitVec 256),
  let first := if x.getLsbD 3 then 1 else 0
  LeadsTo s (.powerOn x) (fun t => t.mem = [] ∧ t.wgs = [] ∧ t.tiles = [] ∧ t.clusters = [] ∧ t.dies = [] ∧ t.slots = [] ∧
    t.dev.flash = s.dev.flash ∧ t.dev.devid = s.dev.devid ∧ t.dev.secret = s.dev.secret ∧ t.dev.locked = true ∧
    t.dev.queues = [] ∧ t.dev.bootstrap = x &&& 0xFFFF0F#64 ∧
    (imageReason (poweredDevice s.dev x) (imageAt first 1) s.dev.minSvn1 = none →
      t.dev.stage = 1 ∧ t.dev.bootSlot = first ∧ t.dev.halted = none ∧ t.dev.identity = Config.identityKey s.dev.secret ∧
        t.dev.alias_ = Config.aliasKey s.dev.secret t.dev.meas1 t.dev.meas2) ∧
    t.dev.secretRead = s.dev.secret.map (fun _ => 0#8) ∧
    (imageReason (poweredDevice s.dev x) (imageAt first 1) s.dev.minSvn1 ≠ none →
      (imageReason (poweredDevice s.dev x) (imageAt (1 - first) 1) s.dev.minSvn1 = none →
        t.dev.stage = 1 ∧ t.dev.bootSlot = 1 - first ∧ t.dev.halted = none) ∧
      (imageReason (poweredDevice s.dev x) (imageAt (1 - first) 1) s.dev.minSvn1 ≠ none → t.dev.stage = 0 ∧ t.dev.halted ≠ none))) ∧
  (s.dev.stage ≠ 1 ∨ s.dev.halted ≠ none → exec .bootStage1 s = .next s) ∧
  (s.dev.stage = 1 → s.dev.halted = none → LeadsTo s .bootStage1 (fun t => (∀ c ∈ t.mem, 2 ^ 48 ≤ c.1) ∧ t.wgs = s.wgs ∧
    (imageReason s.dev (imageAt s.dev.bootSlot 2) s.dev.minSvn2 = none → t.dev.stage = 2 ∧ t.dev.halted = none) ∧
    ((t.dev.stage = 2 ∧ t.dev.halted = none) ∨ (t.dev.stage = 1 ∧ t.dev.halted ≠ none)))) ∧
  (s.dev.stage ≠ 2 ∨ s.dev.halted ≠ none ∨ (s.die 0).released = true → exec .bootStage2 s = .next s) ∧
  (s.dev.stage = 2 → s.dev.halted = none → (s.die 0).released = false → LeadsTo s .bootStage2 (fun t =>
    (∀ d, d < 4 → (t.die d).released = true) ∧ (∀ k, k ∈ t.dev.ports ↔ k < 16 ∧ s.dev.bootstrap.getLsbD (8 + k) = true) ∧
    t.dev.hostUp = s.dev.bootstrap.getLsbD 0 ∧ (∀ k, k ∈ t.dev.ethUp ↔ k < 2 ∧ s.dev.bootstrap.getLsbD (1 + k) = true) ∧
    t.mem = s.mem ∧ t.wgs = s.wgs)) ∧
  (s.dev.stage ≠ 2 → exec (.attestationReport nonce) s = .next s) ∧
  (s.dev.stage = 2 → exec (.attestationReport nonce) s = .next { s with dev := { s.dev with
    report := reportBody s.dev nonce ++ Config.slhDsaSign s.dev.alias_ (reportBody s.dev nonce) } }) ∧
  (∀ d' : Device, d'.identity = s.dev.identity → d'.alias_ = s.dev.alias_ → d'.devid = s.dev.devid → d'.svn1 = s.dev.svn1 →
    d'.svn2 = s.dev.svn2 → d'.meas1 = s.dev.meas1 → d'.meas2 = s.dev.meas2 → reportBody d' nonce = reportBody s.dev nonce) ∧
  LeadsTo s .mctpRequest (fun t => ∃ temp : Nat, t = { s with free := s.free + 1, dev := { s.dev with mctp := t.dev.mctp } } ∧
    t.dev.mctp.length = 10 ∧ t.dev.mctp.take 3 = [BitVec.ofNat 64 s.dev.stage, BitVec.ofNat 64 (s.dev.halted.getD 0),
      BitVec.ofNat 64 temp] ∧ (t.dev.mctp.drop 3).take 4 = [0, 1, 2, 3].map (fun d => BitVec.ofNat 64 (s.die d).power))

/-! ### Encodings, steps, illegal words, reset, memory -/

/-- The word that an instruction encodes to decodes to it, with every operand at every value, and no word stands for two
instructions; the words of the events of the hardware are none (R46, R51, R60, R62, R66, R70-R73). -/
def Obligations.EncodeDecode : Prop :=
  (∀ (i : Instr) (x : Word), encode i = some x → decode x = some i) ∧
  (∀ (i j : Instr) (x : Word), encode i = some x → encode j = some x → i = j) ∧
  (∀ i : Instr, encode i = none ↔ isEvent i = true ∨ (∃ x, i = .illegalInstruction x) ∨ ∃ a, i = .instructionFetchFault a)

/-- A word that decodes is the word of its instruction, so every bit that no field holds is as the table has it, and a word with
such a bit changed is no instruction (R63, R66, R68). -/
def Obligations.DecodeEncode : Prop := ∀ (x : Word) (i : Instr), decode x = some i → encode i = some x

/-- The words that the spec's own examples work out field by field stand for the instructions that they are examples of; the
all-zeros and the all-ones word stand for none (R46, R51, R60, R62, R66, R69-R73). -/
def Obligations.DecodeWords : Prop :=
  decode 0xFF002FF4#32 = some (.clause 0b000000000010#12 15#4 15#4 2#3) ∧
  decode 0xFE000002#32 = some (.pool 2#16) ∧
  decode 0x01120C8A#32 = some (.vaddRrr 9#7 3#7 17#7 2#3) ∧
  decode 0x360813E8#32 = some (.vaddRrs 4#7 4#7 125#7 0#3) ∧
  decode 0x1A641430#32 = some (.vcmp 3#3 0#1 2#3 5#7 6#7 0#3) ∧
  decode 0x31100A68#32 = some (.vcvt 8#7 2#7 0x13#5 1#2 0#3) ∧
  decode 0x46182880#32 = some (.vcav 12#7 10#7 2#3 0#3) ∧
  decode 0x801461C5#32 = some (.sdiv 5#6 6#6 7#6) ∧
  decode 0x90FFFFFD#32 = some (.bra (BitVec.ofInt 24 (-3))) ∧
  decode 0x96100003#32 = some (.loop 4#6 0#2 3#9) ∧
  decode 0xB0086410#32 = some (.sld 2#6 6#6 0#1 2#2 0#1 16#8) ∧
  decode 0xB7000003#32 = some (.fence 0#2 3#3) ∧
  decode 0xD0614A00#32 = some (.mma 3#3 20#6 1#1 32#7 0#2) ∧
  decode 0xD2000400#32 = some (.mzero 0#7 2#2 0#1) ∧
  decode 0xD4508120#32 = some (.cpy 20#6 8#6 4#6 1#1) ∧
  decode 0xDB144000#32 = some (.tbinit 5#6 4#6) ∧
  decode 0xE0106001#32 = some (.cvjoin 4#6 6#6 1#3) ∧
  decode 0xE4180C00#32 = some (.srdV 6#6 1#1 0#6) ∧
  decode 0xE500300B#32 = some (.swr 3#6 11#6) ∧
  decode 0x00000000#32 = none ∧ decode 0xFFFFFFFF#32 = none ∧
  decodeBytes [0xC5#8, 0x61#8, 0x14#8, 0x80#8] = some (.sdiv 5#6 6#6 7#6)

/-- A selection of a pipe runs the instruction or event of the candidate it chooses, at the state after its fetch with that warp
issuing, and with no candidate changes nothing else; in one cycle of the tile a pipe takes one instruction and a warp issues one; a warp that nothing holds and that stands at a word which decodes is a
candidate with exactly that instruction; a word is the four bytes that memory holds at its address when no buffer of the
tile holds its line; an event of the turn list runs as itself, and without a turn list the tile in turn issues its choice, in a cycle of its
clock; no store is late and no view stands (log entry 40) (R47, R52,
R58, R173, R287, R404; the order of agents is log entry 1). -/
def Obligations.StepRunsDecoded : Prop := ∀ (s : State) (rest : List Turn),
  (∀ t p c, s.late = [] → s.early = [] → s.turns = .select t p :: rest → pick { s with turns := rest } t p = some c →
    step s = exec c.i { c.s with cur := some c.r }) ∧
  (∀ t p, s.late = [] → s.early = [] → s.turns = .select t p :: rest → pick { s with turns := rest } t p = none →
    step s = .next { s with turns := rest }) ∧
  (∀ u t p c, choose (candidates u t (fitsPipe p)) = some c → (u.tile t).issued = [] → pick u t p = some (if c.slot = true then
    { c with s := c.s.setTile t { c.s.tile t with issued := (c.s.tile t).issued ++ [(min p 2, c.r)] } } else c)) ∧
  (∀ u t p c, pick u t p = some c → c.slot = true → ∀ e ∈ (u.tile t).issued, e.1 ≠ min p 2 ∧ e.2 ≠ c.r) ∧
  (∀ u t n, 0 < n → (u.pair (pairOf (clusterOf t))).gstate < 3 → ((passCycles u t n).tile t).issued = []) ∧
  (∀ e, s.late = [] → s.early = [] → s.turns = .event e :: rest → isEvent e = true → step s = exec e { s with turns := rest, cur := none }) ∧
  (∀ c, s.turns = [] → s.late = [] → s.quantum < quantumLimit →
    choose (candidates { s with early := [] } s.here (fun _ => true)) = some c →
    step s = exec c.i { issueCycle c.s s.here with cur := some c.r }) ∧
  (∀ r g w x s1 i, canRun g w = true → (s.pair (pairOf (clusterOf g.tile))).gstate < 2 → s.swapping g.tile = false →
    w.due = false → w.c.wait = .none → w.matParked = false → w.c.pos.mode ≠ .fell → w.c.pos.mode ≠ .trap →
    w.nextAddr % 4 = 0 → nextWord { s with cur := some r } r g w = .word x s1 →
    decode x = some i → (isHeader i = true ∨ w.c.pos.mode = .body) → heldAtHeader w i = false →
    stalls s r g (fillS s g r.wp w).1 i = false →
    readyInstr s r g w = some (i, if isHeader i then none else some (!x.getLsbD 31), s1)) ∧
  (∀ t asid (y : Xlated), (s.tile t).code.find? (fun c => c.line == y.pa / 128 && c.asid == asid) = none →
    s.dev.badLines.contains (y.pa / 128) = false → y.pa % 4 = 0 → (y.direct = true ∨ (s.tile t).line (y.pa / 128) = none) →
    ∃ s1, codeWord s t asid y = .word (wordOfBytes (s.mem.read y.pa) (s.mem.read (y.pa + 1)) (s.mem.read (y.pa + 2))
      (s.mem.read (y.pa + 3))) s1)

/-- Every word that is no header, whose fields, registers or flag are illegal, takes the illegal-instruction trap whatever its
meaning; a warp that issues, and every event, has a next state, and a word without an issuing warp stops the model (R68,
R426). The stop is the model's own. -/
def Obligations.IllegalWords : Prop := ∀ (s : State) (i : Instr),
  (∀ r g w, s.current = some (r, g, w) → (encode i).isSome = true → isHeader i = false →
    (legal i && allocOk w i && flagChosen w i) = false → exec i s = .next (preciseTrap s r w 0x01)) ∧
  (s.current.isSome = true ∨ isEvent i = true → ∃ t, exec i s = .next t) ∧
  (s.current = none → isEvent i = false → exec i s = .fault .noWarp)

/-- What reset leaves, as the register tables give it: no context bound, no queue enabled, limits and thresholds at their reset
values, pairs powered at 550 mV, memory that reads as 0 where nothing has been written (R375, R391, R408, R473, R478, R486, R494,
R506). That memory reads 0 before the boot has cleared it is the model's choice (DESIGN CHOICE, log entry 4), and so are the 0 of
CYCLE and ref ticks, of the fault ring's pointers and of the error log's NEXT, for which no table gives a reset (DESIGN CHOICE, log
entry 5). -/
def Obligations.ResetState : Prop := ∀ n : Nat,
  let s := State.reset
  (s.slot n).v = false ∧ (s.queue n).en = false ∧ (s.queue n).state = 0 ∧ (s.queue n).head = 0 ∧ (s.queue n).tail = 0 ∧
  (s.cluster n).syslim = 256 ∧ (s.cluster n).thresh = 16 ∧ (s.cluster n).maxsw = 2 ∧ (s.cluster n).roten = true ∧
  (s.cluster n).clk.level = 0 ∧ (s.cluster n).clk.pcap = 15 ∧ (s.cluster n).clk.plim = 256 ∧ (s.cluster n).swap = none ∧
  (s.pair n).vnow = 550 ∧ (s.pair n).pfloor = 550 ∧ (s.pair n).gateen = true ∧ (s.pair n).gstate = 0 ∧
  (s.die n).budget = 400 ∧ (s.die n).power = 0 ∧ (s.die n).overs = 0 ∧ (s.die n).hard = 0 ∧ (s.die n).tick = 0 ∧
  (s.tile n).cycle = 0 ∧ (s.tile n).retired = false ∧ (s.tile n).lines = [] ∧ s.wg n = none ∧ s.mem.read n = 0 ∧
  s.dev.ringHead = 0 ∧ s.dev.ringTail = 0 ∧ s.dev.logNext = 0 ∧ s.dev.wcbState = 0 ∧ s.mem.wf = true

namespace Sys2Proof.Claims

/-- Every memory of the machine is in its canonical form: that of the device, and the scratchpad of each workgroup. -/
def Canonical (s : State) : Prop := s.mem.wf = true ∧ ∀ g ∈ s.wgs, g.2.sp.wf = true

end Sys2Proof.Claims

/-- Every step keeps the canonical form of memory and scratchpads, so equal memories are equal data. -/
def Obligations.MemoryCanonical : Prop := ∀ (s t : State), Canonical s → step s = .next t → Canonical t
end

