-- ==== Sys2Proof/Laws/Table.lean ====
section
/-! SUPPORT. Laws of sparse tables and of memory: read after write, what a write leaves alone, and that every memory
operation keeps the canonical form. -/

set_option Elab.async false

namespace Sys2Proof.Laws

open Sys2Proof.Machine

variable {α : Type}

/-! ### Tables -/

/-- A number reads as the value it was set to. -/
@[simp] theorem find_set_same (t : Table α) (k : Nat) (x : α) : Table.find (Table.set t k x) k = some x := by
  induction t with
  | nil => simp [Table.set, Table.find]
  | cons c r ih =>
    obtain ⟨j, y⟩ := c
    simp only [Table.set]
    split
    · simp [Table.find]
    · split
      · simp [Table.find]
      · simp [Table.find, *]

/-- Setting one number leaves every other as it was. -/
theorem find_set_other (t : Table α) (k j : Nat) (x : α) (h : j ≠ k) : Table.find (Table.set t k x) j = Table.find t j := by
  induction t with
  | nil => simp [Table.set, Table.find, Ne.symm h]
  | cons c r ih =>
    obtain ⟨i, y⟩ := c
    simp only [Table.set]
    split
    · subst_vars
      simp [Table.find, Ne.symm h]
    · split
      · simp [Table.find, Ne.symm h]
      · simp only [Table.find, ih]

/-- A number reads as the value it was set to, whatever the default. -/
@[simp] theorem get_set_same (t : Table α) (d : α) (k : Nat) (x : α) : Table.get (Table.set t k x) d k = x := by
  simp [Table.get]

/-- Setting one number leaves what every other reads as. -/
theorem get_set_other (t : Table α) (d : α) (k j : Nat) (x : α) (h : j ≠ k) :
    Table.get (Table.set t k x) d j = Table.get t d j := by
  simp [Table.get, find_set_other t k j x h]

/-- The last of two settings of a number stands. -/
@[simp] theorem set_set (t : Table α) (k : Nat) (x y : α) : Table.set (Table.set t k x) k y = Table.set t k y := by
  induction t with
  | nil => simp [Table.set]
  | cons c r ih =>
    obtain ⟨j, z⟩ := c
    simp only [Table.set]
    split
    · simp [Table.set]
    · split
      · simp [Table.set]
      · simp [Table.set, *]

/-- Setting a number to the value it has changes nothing. -/
theorem set_find (t : Table α) (k : Nat) (x : α) (h : Table.find t k = some x)
    (hs : t.Pairwise (fun a b => a.1 < b.1)) : Table.set t k x = t := by
  induction t with
  | nil => cases h
  | cons c r ih =>
    obtain ⟨j, y⟩ := c
    simp only [Table.find] at h
    rw [List.pairwise_cons] at hs
    simp only [Table.set]
    split
    · rename_i hj
      rw [if_pos hj] at h
      cases h
      rw [hj]
    · rename_i hj
      rw [if_neg hj] at h
      have hm : ∃ z, (k, z) ∈ r := by
        clear ih hs
        induction r with
        | nil => cases h
        | cons e r ih =>
          obtain ⟨i, u⟩ := e
          simp only [Table.find] at h
          split at h
          · exact ⟨u, by simp [*]⟩
          · obtain ⟨z, hz⟩ := ih h
            exact ⟨z, List.mem_cons_of_mem _ hz⟩
      obtain ⟨z, hz⟩ := hm
      have hlt : ¬ k < j := by
        have := hs.1 _ hz
        simp at this
        omega
      rw [if_neg hlt, ih h hs.2]

/-- Striking a number leaves every other as it was. -/
theorem find_del_other (t : Table α) (k j : Nat) (h : j ≠ k) : Table.find (Table.del t k) j = Table.find t j := by
  induction t with
  | nil => rfl
  | cons c r ih =>
    obtain ⟨i, y⟩ := c
    simp only [Table.del, List.filter_cons] at ih ⊢
    by_cases hi : i = k
    · subst hi
      simp [Table.find, ih, Ne.symm h]
    · simp [Table.find, ih, hi]

/-- A number that was struck is not listed. -/
@[simp] theorem find_del_same (t : Table α) (k : Nat) : Table.find (Table.del t k) k = none := by
  induction t with
  | nil => rfl
  | cons c r ih =>
    obtain ⟨i, y⟩ := c
    simp only [Table.del, List.filter_cons] at ih ⊢
    by_cases hi : i = k
    · simp [hi, ih]
    · simp [Table.find, hi, ih]

/-! ### Memory: read after write -/

/-- A byte reads as it was written. -/
@[simp] theorem read_write_same (m : Memory) (a : Nat) (b : Byte) : Memory.read (Memory.write m a b) a = b := by
  unfold Memory.read Memory.write
  split
  · simp [*]
  · simp

/-- Writing a byte leaves every other byte. -/
theorem read_write_other (m : Memory) (a a' : Nat) (b : Byte) (h : a' ≠ a) :
    Memory.read (Memory.write m a b) a' = Memory.read m a' := by
  unfold Memory.read Memory.write
  split
  · rw [find_del_other _ _ _ h]
  · rw [find_set_other _ _ _ _ h]

/-- Writing n bytes leaves every byte outside them. -/
theorem read_writeN_other (m : Memory) (a n v a' : Nat) (h : a' < a ∨ a + n ≤ a') :
    Memory.read (Memory.writeN m a n v) a' = Memory.read m a' := by
  induction n generalizing m a v with
  | zero => rfl
  | succ n ih =>
    rw [Memory.writeN, ih _ _ _ (by omega), read_write_other _ _ _ _ (by omega)]

/-- Reading n bytes depends on nothing but those bytes. -/
theorem readN_congr (m m' : Memory) (a n : Nat) (h : ∀ i, a ≤ i → i < a + n → Memory.read m i = Memory.read m' i) :
    Memory.readN m a n = Memory.readN m' a n := by
  induction n generalizing a with
  | zero => rfl
  | succ n ih =>
    rw [Memory.readN, Memory.readN, h a (Nat.le_refl a) (by omega), ih (a + 1) (fun i h1 h2 => h i (by omega) (by omega))]

/-- A number of n bytes reads as it was written. -/
theorem readN_writeN (m : Memory) (a n v : Nat) : Memory.readN (Memory.writeN m a n v) a n = v % 256 ^ n := by
  induction n generalizing m a v with
  | zero => simp [Memory.readN, Nat.mod_one]
  | succ n ih =>
    rw [Memory.readN, Memory.writeN, ih, read_writeN_other _ _ _ _ _ (by omega), read_write_same]
    rw [BitVec.toNat_ofNat, show (2 : Nat) ^ 8 = 256 from rfl, Nat.pow_succ, Nat.mul_comm (256 ^ n) 256, Nat.mod_mul]

/-- Writing n bytes leaves every n' bytes apart from them. -/
theorem readN_writeN_apart (m : Memory) (a n v a' n' : Nat) (h : a' + n' ≤ a ∨ a + n ≤ a') :
    Memory.readN (Memory.writeN m a n v) a' n' = Memory.readN m a' n' :=
  readN_congr _ _ _ _ (fun i h1 h2 => read_writeN_other _ _ _ _ _ (by omega))

/-- A masked write leaves every byte outside its span. -/
theorem read_writeMasked_other (m : Memory) (a mask data n a' : Nat) (h : a' < a ∨ a + n ≤ a') :
    Memory.read (Memory.writeMasked m a mask data n) a' = Memory.read m a' := by
  induction n generalizing m a mask data with
  | zero => rfl
  | succ n ih =>
    rw [Memory.writeMasked, ih _ _ _ _ (by omega)]
    split
    · rw [read_write_other _ _ _ _ (by omega)]
    · rfl

/-! ### Memory: the canonical form -/

/-- Addresses strictly rising, and no blank byte listed, as propositions. -/
theorem wf_iff (m : Memory) : Memory.wf m = true ↔ m.Pairwise (fun a b => a.1 < b.1) ∧ ∀ c ∈ m, c.2 ≠ blankByte := by
  induction m with
  | nil => simp [Memory.wf]
  | cons c r ih =>
    obtain ⟨a, b⟩ := c
    simp only [Memory.wf, Bool.and_eq_true, bne_iff_ne, ne_eq, ih, List.pairwise_cons, List.mem_cons, forall_eq_or_imp]
    constructor
    · rintro ⟨⟨hb, hr⟩, hp, hc⟩
      refine ⟨⟨?_, hp⟩, hb, hc⟩
      cases r with
      | nil => simp
      | cons d r =>
        obtain ⟨a', b'⟩ := d
        simp only [decide_eq_true_eq] at hr
        intro e he
        rcases List.mem_cons.mp he with rfl | he
        · exact hr
        · exact Nat.lt_trans hr ((List.pairwise_cons.mp hp).1 e he)
    · rintro ⟨⟨hl, hp⟩, hb, hc⟩
      refine ⟨⟨hb, ?_⟩, hp, hc⟩
      cases r with
      | nil => rfl
      | cons d r => simpa using hl d (List.mem_cons_self ..)

/-- Where a cell of a table that was set comes from. -/
theorem mem_set (t : Table α) (k : Nat) (x : α) (c : Nat × α) (h : c ∈ Table.set t k x) : c = (k, x) ∨ c ∈ t := by
  induction t with
  | nil => simpa [Table.set] using h
  | cons d r ih =>
    obtain ⟨j, y⟩ := d
    simp only [Table.set] at h
    split at h
    · rcases List.mem_cons.mp h with h | h
      · exact Or.inl h
      · exact Or.inr (List.mem_cons_of_mem _ h)
    · split at h
      · rcases List.mem_cons.mp h with h | h
        · exact Or.inl h
        · exact Or.inr h
      · rcases List.mem_cons.mp h with h | h
        · exact Or.inr (h ▸ List.mem_cons_self ..)
        · rcases ih h with h | h
          · exact Or.inl h
          · exact Or.inr (List.mem_cons_of_mem _ h)

/-- Setting keeps the numbers rising. -/
theorem set_rising (t : Table α) (k : Nat) (x : α) (h : t.Pairwise (fun a b => a.1 < b.1)) :
    (Table.set t k x).Pairwise (fun a b => a.1 < b.1) := by
  induction t with
  | nil => simp [Table.set]
  | cons d r ih =>
    obtain ⟨j, y⟩ := d
    rw [List.pairwise_cons] at h
    simp only [Table.set]
    split
    · subst_vars
      exact List.pairwise_cons.mpr ⟨h.1, h.2⟩
    · split
      · rename_i hk
        refine List.pairwise_cons.mpr ⟨fun e he => ?_, List.pairwise_cons.mpr h⟩
        rcases List.mem_cons.mp he with rfl | he
        · exact hk
        · exact Nat.lt_trans hk (h.1 e he)
      · rename_i hj hk
        refine List.pairwise_cons.mpr ⟨fun e he => ?_, ih h.2⟩
        rcases mem_set _ _ _ _ he with rfl | he
        · simp only
          omega
        · exact h.1 e he

/-- Writing a byte keeps the canonical form. -/
theorem write_wf (m : Memory) (a : Nat) (b : Byte) (h : Memory.wf m = true) : Memory.wf (Memory.write m a b) = true := by
  rw [wf_iff] at h ⊢
  unfold Memory.write
  split
  · exact ⟨h.1.filter _, fun c hc => h.2 c (List.mem_filter.mp hc).1⟩
  · rename_i hb
    refine ⟨set_rising _ _ _ h.1, fun c hc => ?_⟩
    rcases mem_set _ _ _ _ hc with rfl | hc
    · exact hb
    · exact h.2 c hc

/-- Writing n bytes keeps the canonical form. -/
theorem writeN_wf (m : Memory) (a n v : Nat) (h : Memory.wf m = true) : Memory.wf (Memory.writeN m a n v) = true := by
  induction n generalizing m a v with
  | zero => exact h
  | succ n ih => exact ih _ _ _ (write_wf _ _ _ h)

/-- A masked write keeps the canonical form. -/
theorem writeMasked_wf (m : Memory) (a mask data n : Nat) (h : Memory.wf m = true) :
    Memory.wf (Memory.writeMasked m a mask data n) = true := by
  induction n generalizing m a mask data with
  | zero => exact h
  | succ n ih =>
    rw [Memory.writeMasked]
    apply ih
    split
    · exact write_wf _ _ _ h
    · exact h

/-- Striking cells keeps the canonical form. -/
theorem filter_wf (m : Memory) (p : Host.Cell → Bool) (h : Memory.wf m = true) : Memory.wf (m.filter p) = true := by
  rw [wf_iff] at h ⊢
  exact ⟨h.1.filter _, fun c hc => h.2 c (List.mem_filter.mp hc).1⟩

/-! ### Lanes -/

/-- The lanes of a merged register: new values in the mask, old ones elsewhere (R31). -/
theorem laneOf_mergeLanes (m : Mask) (old : List Reg) (new : Nat → Reg) (l : Nat) (h : l < 32) :
    laneOf (mergeLanes m old new) l = if m.getLsbD l then new l else laneOf old l := by
  simp [laneOf, mergeLanes, laneNums, List.getD, List.getElem?_map, List.getElem?_range h]

end Sys2Proof.Laws
end

