-- ==== Sys2Proof/Laws/Canonical.lean ====
section
/-! SUPPORT. The canonical form of memory and of the workgroups' scratchpads: the predicate, what keeps it, and that the
hierarchy, the operations, the runners and the barriers do. -/

set_option Elab.async false
set_option maxRecDepth 4096

namespace Sys2Proof.Laws

open Sys2Proof.Machine

/-! ### The form and what keeps it -/

/-- A memory and the scratchpads of a table of workgroups are in canonical form. It is said of the two fields, so that an
update of any other field of a state keeps it by definition. -/
def Canon (m : Memory) (w : Table Workgroup) : Prop := m.wf = true ∧ ∀ x ∈ w, x.2.sp.wf = true

/-- A workgroup of the table has its scratchpad in canonical form. -/
theorem Canon.at {m : Memory} {w : Table Workgroup} {u : Nat} {g : Workgroup} (h : Canon m w) (e : Table.find w u =
    some g) :
    g.sp.wf = true := by
  have : ∃ k, (k, g) ∈ w := by
    clear h
    induction w with
    | nil => simp [Table.find] at e
    | cons p t ih =>
      obtain ⟨j, y⟩ := p
      unfold Table.find at e
      split at e
      · cases e; exact ⟨j, by simp⟩
      · first
        | (split at e
           · cases e
           · obtain ⟨k, hk⟩ := ih e; exact ⟨k, by simp [hk]⟩)
        | (obtain ⟨k, hk⟩ := ih e; exact ⟨k, by simp [hk]⟩)
  obtain ⟨k, hk⟩ := this
  exact h.2 _ hk

/-- Setting a workgroup whose scratchpad is in canonical form keeps it. -/
theorem Canon.set {m : Memory} {w : Table Workgroup} {u : Nat} {g : Workgroup} (h : Canon m w) (e : g.sp.wf = true) :
    Canon m (Table.set w u g) := ⟨h.1, fun x hx => by rcases mem_set _ _ _ _ hx with rfl | hx; exact e; exact h.2 _ hx⟩

/-- A workgroup of a state has its scratchpad in canonical form. -/
theorem wg_canon {s : State} {u g} (h : Canon s.mem s.wgs) (e : s.wg u = some g) : g.sp.wf = true := h.at e

/-- A fold keeps what each of its steps keeps. -/
theorem foldl_canon {α : Type} {f : State → α → State} (hf : ∀ s x, Canon s.mem s.wgs → Canon (f s x).mem (f s x).wgs)
    {s : State} (l : List α) (h : Canon s.mem s.wgs) :
    Canon (l.foldl f s).mem (l.foldl f s).wgs := by
  induction l generalizing s with
  | nil => exact h
  | cons x r ih => exact ih (hf _ _ h)

/-- The empty memory is in canonical form. -/
theorem wf_nil : Memory.wf [] = true := rfl

/-- A map of the workgroups that keeps each scratchpad in canonical form keeps it. -/
theorem Canon.map {m : Memory} {w : Table Workgroup} (f : Nat × Workgroup → Nat × Workgroup) (h : Canon m w)
    (hf : ∀ g : Nat × Workgroup, g.2.sp.wf = true → (f g).2.sp.wf = true) : Canon m (w.map f) :=
  ⟨h.1, fun x hx => by obtain ⟨y, hy, rfl⟩ := List.mem_map.1 hx; exact hf _ (h.2 _ hy)⟩

/-- A fold of pairs keeps what each of its steps keeps of the first part. -/
theorem foldlCanon_fst {α β : Type} {f : State × β → α → State × β} (hf : ∀ q x, Canon q.1.mem q.1.wgs → Canon (f q
    x).1.mem (f q x).1.wgs)
    (l : List α) {q : State × β} (h : Canon q.1.mem q.1.wgs) : Canon (l.foldl f q).1.mem (l.foldl f q).1.wgs := by
  induction l generalizing q with
  | nil => exact h
  | cons x r ih => exact ih (hf _ _ h)

/-- What a search finds comes from one of the elements. -/
theorem findSome_exists {α β : Type} {l : List α} {f : α → Option β} {b : β} (h : l.findSome? f = some b) : ∃ a ∈ l, f
    a = some b := by
  induction l with
  | nil => cases h
  | cons x r ih =>
    simp only [List.findSome?_cons] at h
    split at h
    · cases h; exact ⟨x, by simp, ‹_›⟩
    · obtain ⟨a, ha, e⟩ := ih h; exact ⟨a, by simp [ha], e⟩

/-- A restored scratchpad is in canonical form. -/
theorem wf_writes (l : List (Nat × Reg)) (m : Memory) (h : m.wf = true) :
    Memory.wf (l.foldl (fun m p => Memory.writeN m (8 * p.1) 8 p.2.toNat) m) = true := by
  induction l generalizing m with
  | nil => exact h
  | cons x r ih => exact ih _ (writeN_wf _ _ _ _ h)

/-- A workgroup found in the table has its scratchpad in canonical form. -/
theorem Canon.find {m : Memory} {w : Table Workgroup} {p : Nat × Workgroup → Bool} {g : Nat × Workgroup} (h : Canon m
    w) (e : w.find? p = some g) :
    g.2.sp.wf = true := h.2 _ (List.mem_of_find?_eq_some e)

/-! ### State -/

/-- The machine after reset is in canonical form. -/
theorem canon_State_reset : Canon (State.reset).mem (State.reset).wgs := by
  exact ⟨rfl, fun x hx => by cases hx⟩

/-! ### Hierarchy -/

theorem canon_State_setTile {x0 : State} {x1 : Nat} {x2 : Tile} (h0 : Canon x0.mem x0.wgs) : Canon (State.setTile x0
    x1 x2).mem (State.setTile x0 x1 x2).wgs := by
  exact h0

theorem canon_State_setCluster {x0 : State} {x1 : Nat} {x2 : Cluster} (h0 : Canon x0.mem x0.wgs) : Canon
    (State.setCluster x0 x1 x2).mem (State.setCluster x0 x1 x2).wgs := by
  exact h0

theorem canon_State_setPair {x0 : State} {x1 : Nat} {x2 : Pair} (h0 : Canon x0.mem x0.wgs) : Canon (State.setPair x0
    x1 x2).mem (State.setPair x0 x1 x2).wgs := by
  exact h0

theorem canon_State_setDie {x0 : State} {x1 : Nat} {x2 : Die} (h0 : Canon x0.mem x0.wgs) : Canon (State.setDie x0 x1
    x2).mem (State.setDie x0 x1 x2).wgs := by
  exact h0

theorem canon_State_setSlot {x0 : State} {x1 : Nat} {x2 : Slot} (h0 : Canon x0.mem x0.wgs) : Canon (State.setSlot x0
    x1 x2).mem (State.setSlot x0 x1 x2).wgs := by
  exact h0

theorem canon_State_wg {x0 : State} {x1 : Nat} (h0 : Canon x0.mem x0.wgs) : ∀ y0, (State.wg x0 x1) = some y0 →
    (y0.sp.wf = true) := by
  exact fun _ e => wg_canon h0 e

theorem canon_State_setWg {x0 : State} {x1 : Nat} {x2 : Workgroup} (h0 : Canon x0.mem x0.wgs) (h2 : x2.sp.wf = true) :
    Canon (State.setWg x0 x1 x2).mem (State.setWg x0 x1 x2).wgs := by
  unfold State.setWg; grind -ring -linarith -lia [wg_canon, Canon.set, wf_nil, writeN_wf, writeMasked_wf]

theorem canon_State_countEvent {x0 : State} {x1 : Nat} {x2 : Nat} {x3 : Nat} {x4 : Nat} (h0 : Canon x0.mem x0.wgs) :
    Canon (State.countEvent x0 x1 x2 x3 x4).mem (State.countEvent x0 x1 x2 x3 x4).wgs := by
  unfold State.countEvent; grind -ring -linarith -lia [canon_State_setCluster]

theorem canon_Workgroup_setWarp {x0 : Workgroup} {x1 : Nat} {x2 : Warp} (h0 : x0.sp.wf = true) : (Workgroup.setWarp x0
    x1 x2).sp.wf = true := by
  unfold Workgroup.setWarp; grind -ring -linarith -lia

theorem canon_State_setWarp {x0 : State} {x1 : WRef} {x2 : Warp} (h0 : Canon x0.mem x0.wgs) : Canon (State.setWarp x0
    x1 x2).mem (State.setWarp x0 x1 x2).wgs := by
  unfold State.setWarp; grind -ring -linarith -lia [canon_State_wg, canon_State_setWg, canon_Workgroup_setWarp]

theorem canon_State_updWarp {x0 : State} {x1 : WRef} {x2 : Warp → Warp} (h0 : Canon x0.mem x0.wgs) : Canon
    (State.updWarp x0 x1 x2).mem (State.updWarp x0 x1 x2).wgs := by
  unfold State.updWarp; grind -ring -linarith -lia [canon_State_setWarp]

theorem canon_State_updWg {x0 : State} {x1 : Nat} {x2 : Workgroup → Workgroup} (h0 : Canon x0.mem x0.wgs) (h2 : ∀
    (y0_0 : Workgroup), (y0_0.sp.wf = true) → (x2 y0_0).sp.wf = true) : Canon (State.updWg x0 x1 x2).mem (State.updWg
    x0 x1 x2).wgs := by
  unfold State.updWg; grind -ring -linarith -lia [canon_State_wg, canon_State_setWg]

theorem canon_State_draw {x0 : State} (h0 : Canon x0.mem x0.wgs) : Canon ((State.draw x0).2).mem ((State.draw
    x0).2).wgs := by
  unfold State.draw; grind -ring -linarith -lia

theorem canon_State_onBehalf {x0 : State} {x1 : WRef} {x2 : State → State} (h0 : Canon x0.mem x0.wgs) (h2 : ∀ (y0_0 :
    State), (Canon y0_0.mem y0_0.wgs) → Canon (x2 y0_0).mem (x2 y0_0).wgs) : Canon (State.onBehalf x0 x1 x2).mem
    (State.onBehalf x0 x1 x2).wgs := by
  unfold State.onBehalf; grind -ring -linarith -lia [wg_canon, Canon.set, wf_nil, writeN_wf, writeMasked_wf]

theorem canon_mergeFor {x0 : State} {x1 : Nat} {x2 : Nat} {x3 : Option (WRef × Nat)} (h0 : Canon x0.mem x0.wgs) :
    Canon ((mergeFor x0 x1 x2 x3).1).mem ((mergeFor x0 x1 x2 x3).1).wgs := by
  unfold mergeFor; grind -ring -linarith -lia [canon_State_draw]

theorem canon_mergeRead {x0 : State} {x1 : Nat} {x2 : Nat} (h0 : Canon x0.mem x0.wgs) : Canon (mergeRead x0 x1 x2).mem
    (mergeRead x0 x1 x2).wgs := by
  unfold mergeRead; grind -ring -linarith -lia [canon_mergeFor]

theorem canon_readLines {x0 : State} {x1 : Nat} {x2 : List Nat} (h0 : Canon x0.mem x0.wgs) : Canon (readLines x0 x1
    x2).mem (readLines x0 x1 x2).wgs := by
  unfold readLines; exact foldl_canon (fun _ _ h => canon_mergeRead h) _ h0

theorem canon_mergeClose {x0 : State} {x1 : Nat} (h0 : Canon x0.mem x0.wgs) : Canon (mergeClose x0 x1).mem (mergeClose
    x0 x1).wgs := by
  unfold mergeClose; grind -ring -linarith -lia

theorem canon_testConds {x0 : State} {x1 : Nat} (h0 : Canon x0.mem x0.wgs) : Canon (testConds x0 x1).mem (testConds x0
    x1).wgs := by
  unfold testConds; grind -ring -linarith -lia [wg_canon, Canon.set, wf_nil, writeN_wf, writeMasked_wf]

theorem canon_countServed {x0 : State} {x1 : Nat} (h0 : Canon x0.mem x0.wgs) : Canon (countServed x0 x1).mem
    (countServed x0 x1).wgs := by
  unfold countServed; grind -ring -linarith -lia [wg_canon, Canon.set, wf_nil, writeN_wf, writeMasked_wf]

/-- A write at the channel keeps the canonical form. -/
theorem canon_chanWrite {x0 : State} {x1 : Nat} {x2 : Nat} {x3 : Nat} (h0 : Canon x0.mem x0.wgs) : Canon (chanWrite x0
    x1 x2 x3).mem (chanWrite x0 x1 x2 x3).wgs := by
  unfold chanWrite; grind -ring -linarith -lia [wg_canon, Canon.set, wf_nil, writeN_wf, writeMasked_wf,
      canon_countServed, canon_mergeClose, canon_testConds, Canon]

/-- A masked write of a line at the channel keeps the canonical form. -/
theorem canon_chanWriteLine {x0 : State} {x1 : Nat} {x2 : BitVec 128} {x3 : BitVec 1024} (h0 : Canon x0.mem x0.wgs) :
    Canon (chanWriteLine x0 x1 x2 x3).mem (chanWriteLine x0 x1 x2 x3).wgs := by
  unfold chanWriteLine; grind -ring -linarith -lia [wg_canon, Canon.set, wf_nil, writeN_wf, writeMasked_wf,
      canon_countServed, canon_mergeClose, canon_testConds, Canon]

theorem canon_State_owed {x0 : State} {x1 : Nat} {x2 : Nat} (h0 : Canon x0.mem x0.wgs) : Canon (State.owed x0 x1
    x2).mem (State.owed x0 x1 x2).wgs := by
  exact h0

theorem canon_writeBackLine {x0 : State} {x1 : Nat} {x2 : Nat} (h0 : Canon x0.mem x0.wgs) : Canon (writeBackLine x0 x1
    x2).mem (writeBackLine x0 x1 x2).wgs := by
  unfold writeBackLine; grind -ring -linarith -lia [canon_State_owed, canon_chanWriteLine, canon_State_setTile]

theorem canon_invalidateLine {x0 : State} {x1 : Nat} {x2 : Nat} (h0 : Canon x0.mem x0.wgs) : Canon (invalidateLine x0
    x1 x2).mem (invalidateLine x0 x1 x2).wgs := by
  exact canon_State_setTile (canon_writeBackLine h0)

theorem canon_writeBackWhere {x0 : State} {x1 : Nat} {x2 : Line → Bool} (h0 : Canon x0.mem x0.wgs) : Canon
    (writeBackWhere x0 x1 x2).mem (writeBackWhere x0 x1 x2).wgs := by
  unfold writeBackWhere; grind -ring -linarith -lia [canon_writeBackLine, foldl_canon]

theorem canon_invalidateWhere {x0 : State} {x1 : Nat} {x2 : Line → Bool} (h0 : Canon x0.mem x0.wgs) : Canon
    (invalidateWhere x0 x1 x2).mem (invalidateWhere x0 x1 x2).wgs := by
  unfold invalidateWhere; grind -ring -linarith -lia [canon_invalidateLine, foldl_canon]

theorem canon_makeRoom {x0 : State} {x1 : Nat} {x2 : Nat} {x3 : Nat} (h0 : Canon x0.mem x0.wgs) : Canon (makeRoom x0
    x1 x2 x3).mem (makeRoom x0 x1 x2 x3).wgs := by
  fun_induction makeRoom x0 x1 x2 x3 <;> grind -ring -linarith -lia [canon_invalidateLine]

theorem canon_allocLine {x0 : State} {x1 : Nat} {x2 : Line} (h0 : Canon x0.mem x0.wgs) : Canon (allocLine x0 x1
    x2).mem (allocLine x0 x1 x2).wgs := by
  unfold allocLine; grind -ring -linarith -lia [canon_makeRoom, canon_State_setTile]

theorem canon_fetchLine {x0 : State} {x1 : Nat} {x2 : Nat} {x3 : Nat} {x4 : Nat} (h0 : Canon x0.mem x0.wgs) : Canon
    ((fetchLine x0 x1 x2 x3 x4).1).mem ((fetchLine x0 x1 x2 x3 x4).1).wgs := by
  exact canon_allocLine (canon_mergeRead h0)

theorem canon_listWalk {x0 : State} {x1 : Nat} {x2 : Nat} {x3 : Nat} {x4 : Nat} (h0 : Canon x0.mem x0.wgs) : Canon
    (listWalk x0 x1 x2 x3 x4).mem (listWalk x0 x1 x2 x3 x4).wgs := by
  unfold listWalk; grind -ring -linarith -lia [canon_State_setCluster]

theorem canon_loadRanges {x0 : State} {x1 : Nat} {x2 : Nat} {x3 : Nat} (h0 : Canon x0.mem x0.wgs) : Canon ((loadRanges
    x0 x1 x2 x3).1).mem ((loadRanges x0 x1 x2 x3).1).wgs := by
  unfold loadRanges; grind -ring -linarith -lia [canon_readLines, canon_State_setTile]

theorem canon_loadPage {x0 : State} {x1 : Nat} {x2 : Nat} {x3 : Nat} {x4 : Nat} (h0 : Canon x0.mem x0.wgs) : Canon
    ((loadPage x0 x1 x2 x3 x4).1).mem ((loadPage x0 x1 x2 x3 x4).1).wgs := by
  unfold loadPage; grind -ring -linarith -lia [canon_State_countEvent, canon_readLines, canon_State_setTile,
      canon_State_setCluster]

theorem canon_translate {x0 : State} {x1 : Nat} {x2 : Nat} {x3 : Nat} {x4 : Acc} (h0 : Canon x0.mem x0.wgs) : Canon
    ((Machine.translate x0 x1 x2 x3 x4).1).mem ((Machine.translate x0 x1 x2 x3 x4).1).wgs := by
  unfold Machine.translate; grind -ring -linarith -lia [canon_loadRanges, canon_loadPage]

theorem canon_takeLine {x0 : State} {x1 : Nat} {x2 : Nat} {x3 : Nat} (h0 : Canon x0.mem x0.wgs) : Canon (takeLine x0
    x1 x2 x3).mem (takeLine x0 x1 x2 x3).wgs := by
  unfold takeLine; grind -ring -linarith -lia [canon_invalidateLine]

theorem canon_passLine {x0 : State} {x1 : Nat} {x2 : Nat} {x3 : Nat} (h0 : Canon x0.mem x0.wgs) : Canon (passLine x0
    x1 x2 x3).mem (passLine x0 x1 x2 x3).wgs := by
  unfold passLine; grind -ring -linarith -lia [canon_invalidateLine]

theorem canon_tileLoad {x0 : State} {x1 : Nat} {x2 : Nat} {x3 : Xlated} {x4 : Nat} (h0 : Canon x0.mem x0.wgs) : Canon
    ((tileLoad x0 x1 x2 x3 x4).1).mem ((tileLoad x0 x1 x2 x3 x4).1).wgs := by
  unfold tileLoad; grind -ring -linarith -lia [canon_mergeRead, canon_passLine, canon_takeLine, canon_State_setTile,
      canon_fetchLine]

theorem canon_tileStore {x0 : State} {x1 : Nat} {x2 : Nat} {x3 : Xlated} {x4 : Nat} {x5 : Nat} (h0 : Canon x0.mem
    x0.wgs) : Canon (tileStore x0 x1 x2 x3 x4 x5).mem (tileStore x0 x1 x2 x3 x4 x5).wgs := by
  unfold tileStore; grind -ring -linarith -lia [canon_passLine, canon_State_owed, canon_chanWrite, canon_takeLine,
      canon_allocLine]

theorem canon_chanAtomic {x0 : State} {x1 : Nat} {x2 : Nat} {x3 : Nat} {x4 : Nat → Nat} (h0 : Canon x0.mem x0.wgs) :
    Canon ((chanAtomic x0 x1 x2 x3 x4).1).mem ((chanAtomic x0 x1 x2 x3 x4).1).wgs := by
  unfold chanAtomic; grind -ring -linarith -lia [canon_invalidateLine, canon_countServed, canon_mergeClose,
      canon_chanWrite]

theorem canon_chanObject {x0 : State} {x1 : Nat} {x2 : Nat} (h0 : Canon x0.mem x0.wgs) : Canon ((chanObject x0 x1
    x2).1).mem ((chanObject x0 x1 x2).1).wgs := by
  unfold chanObject; grind -ring -linarith -lia [canon_countServed, canon_invalidateLine]

/-! ### Monitor -/

theorem canon_writeRatio {x0 : State} {x1 : Nat} (h0 : Canon x0.mem x0.wgs) : Canon (writeRatio x0 x1).mem (writeRatio
    x0 x1).wgs := by
  unfold writeRatio; grind -ring -linarith -lia [canon_State_countEvent, canon_State_setCluster]

theorem canon_fifoLevel {x0 : State} {x1 : Nat} (h0 : Canon x0.mem x0.wgs) : Canon ((fifoLevel x0 x1).2).mem
    ((fifoLevel x0 x1).2).wgs := by
  unfold fifoLevel; grind -ring -linarith -lia [canon_State_draw]

theorem canon_lookFifos {x0 : State} {x1 : Nat} {x2 : Bool} {x3 : Bool} (h0 : Canon x0.mem x0.wgs) : Canon (lookFifos
    x0 x1 x2 x3).mem (lookFifos x0 x1 x2 x3).wgs := by
  unfold lookFifos; grind -ring -linarith -lia [canon_State_setCluster, canon_fifoLevel]

theorem canon_State_logError {x0 : State} {x1 : Nat} {x2 : Nat} {x3 : Nat} {x4 : Nat} {x5 : Nat} (h0 : Canon x0.mem
    x0.wgs) : Canon (State.logError x0 x1 x2 x3 x4 x5).mem (State.logError x0 x1 x2 x3 x4 x5).wgs := by
  exact h0

/-! ### Code -/

theorem canon_codeWord {x0 : State} {x1 : Nat} {x2 : Nat} {x3 : Xlated} (h0 : Canon x0.mem x0.wgs) : (∀ z0_0 z0_1,
    (codeWord x0 x1 x2 x3) = .word z0_0 z0_1 → (Canon z0_1.mem z0_1.wgs)) ∧ (∀ z0_0, (codeWord x0 x1 x2 x3) = .miss
    z0_0 → (Canon z0_0.mem z0_0.wgs)) ∧ (∀ z0_0 z0_1, (codeWord x0 x1 x2 x3) = .fail z0_0 z0_1 → (Canon z0_1.mem
    z0_1.wgs)) := by
  unfold codeWord; grind -ring -linarith -lia [canon_State_setTile, canon_mergeRead]

theorem canon_codeWord_1 {x0 : State} {x1 : Nat} {x2 : Nat} {x3 : Xlated} (h0 : Canon x0.mem x0.wgs) : (∀ z0_0 z0_1,
    (codeWord x0 x1 x2 x3) = .word z0_0 z0_1 → (Canon z0_1.mem z0_1.wgs)) := (canon_codeWord (h0 := h0)).1

theorem canon_codeWord_2 {x0 : State} {x1 : Nat} {x2 : Nat} {x3 : Xlated} (h0 : Canon x0.mem x0.wgs) : (∀ z0_0,
    (codeWord x0 x1 x2 x3) = .miss z0_0 → (Canon z0_0.mem z0_0.wgs)) := (canon_codeWord (h0 := h0)).2.1

theorem canon_codeWord_3 {x0 : State} {x1 : Nat} {x2 : Nat} {x3 : Xlated} (h0 : Canon x0.mem x0.wgs) : (∀ z0_0 z0_1,
    (codeWord x0 x1 x2 x3) = .fail z0_0 z0_1 → (Canon z0_1.mem z0_1.wgs)) := (canon_codeWord (h0 := h0)).2.2

theorem canon_fetchWord {x0 : State} {x1 : Workgroup} {x2 : Warp} {x3 : Nat} (h0 : Canon x0.mem x0.wgs) (h1 : x1.sp.wf
    = true) : (∀ z0_0 z0_1, (fetchWord x0 x1 x2 x3) = .word z0_0 z0_1 → (Canon z0_1.mem z0_1.wgs)) ∧ (∀ z0_0,
    (fetchWord x0 x1 x2 x3) = .miss z0_0 → (Canon z0_0.mem z0_0.wgs)) ∧ (∀ z0_0 z0_1, (fetchWord x0 x1 x2 x3) = .fail
    z0_0 z0_1 → (Canon z0_1.mem z0_1.wgs)) := by
  unfold fetchWord; grind -ring -linarith -lia [canon_translate, canon_codeWord_1, canon_codeWord_2, canon_codeWord_3]

theorem canon_fetchWord_1 {x0 : State} {x1 : Workgroup} {x2 : Warp} {x3 : Nat} (h0 : Canon x0.mem x0.wgs) (h1 :
    x1.sp.wf = true) : (∀ z0_0 z0_1, (fetchWord x0 x1 x2 x3) = .word z0_0 z0_1 → (Canon z0_1.mem z0_1.wgs)) :=
    (canon_fetchWord (h0 := h0) (h1 := h1)).1

theorem canon_fetchWord_2 {x0 : State} {x1 : Workgroup} {x2 : Warp} {x3 : Nat} (h0 : Canon x0.mem x0.wgs) (h1 :
    x1.sp.wf = true) : (∀ z0_0, (fetchWord x0 x1 x2 x3) = .miss z0_0 → (Canon z0_0.mem z0_0.wgs)) := (canon_fetchWord
    (h0 := h0) (h1 := h1)).2.1

theorem canon_fetchWord_3 {x0 : State} {x1 : Workgroup} {x2 : Warp} {x3 : Nat} (h0 : Canon x0.mem x0.wgs) (h1 :
    x1.sp.wf = true) : (∀ z0_0 z0_1, (fetchWord x0 x1 x2 x3) = .fail z0_0 z0_1 → (Canon z0_1.mem z0_1.wgs)) :=
    (canon_fetchWord (h0 := h0) (h1 := h1)).2.2

/-! ### Ops -/

theorem canon_State_setConvoy {x0 : State} {x1 : Nat} {x2 : Nat} {x3 : Convoy} (h0 : Canon x0.mem x0.wgs) : Canon
    (State.setConvoy x0 x1 x2 x3).mem (State.setConvoy x0 x1 x2 x3).wgs := by
  exact h0

theorem canon_State_noteConvoy {x0 : State} {x1 : Nat} {x2 : Nat} {x3 : Nat} {x4 : WRef} (h0 : Canon x0.mem x0.wgs) :
    Canon (State.noteConvoy x0 x1 x2 x3 x4).mem (State.noteConvoy x0 x1 x2 x3 x4).wgs := by
  unfold State.noteConvoy; grind -ring -linarith -lia [canon_State_setConvoy]

theorem canon_State_holdEnded {x0 : State} {x1 : Nat} {x2 : WRef} {x3 : Member} (h0 : Canon x0.mem x0.wgs) : Canon
    (State.holdEnded x0 x1 x2 x3).mem (State.holdEnded x0 x1 x2 x3).wgs := by
  unfold State.holdEnded; grind -ring -linarith -lia [canon_State_wg, canon_State_countEvent]

theorem canon_endHold {x0 : State} {x1 : Nat} {x2 : WRef} (h0 : Canon x0.mem x0.wgs) : Canon (endHold x0 x1 x2).mem
    (endHold x0 x1 x2).wgs := by
  unfold endHold; grind -ring -linarith -lia [canon_State_updWarp]

theorem canon_State_removeMember {x0 : State} {x1 : Nat} {x2 : Nat} {x3 : WRef} {x4 : Nat} (h0 : Canon x0.mem x0.wgs)
    : Canon (State.removeMember x0 x1 x2 x3 x4).mem (State.removeMember x0 x1 x2 x3 x4).wgs := by
  unfold State.removeMember; grind -ring -linarith -lia [canon_State_holdEnded, canon_State_noteConvoy,
      canon_State_setConvoy, canon_endHold, foldl_canon]

theorem canon_leaveConvoy {x0 : State} {x1 : Nat} {x2 : WRef} {x3 : Nat} (h0 : Canon x0.mem x0.wgs) : Canon
    (leaveConvoy x0 x1 x2 x3).mem (leaveConvoy x0 x1 x2 x3).wgs := by
  exact canon_State_updWarp (canon_State_removeMember h0)

theorem canon_detachMember {x0 : State} {x1 : Nat} {x2 : WRef} {x3 : Nat} (h0 : Canon x0.mem x0.wgs) : Canon
    (detachMember x0 x1 x2 x3).mem (detachMember x0 x1 x2 x3).wgs := by
  exact canon_State_updWarp (canon_State_removeMember h0)

theorem canon_leaveAll {x0 : State} {x1 : Nat} {x2 : WRef} (h0 : Canon x0.mem x0.wgs) : Canon (leaveAll x0 x1 x2).mem
    (leaveAll x0 x1 x2).wgs := by
  unfold leaveAll; grind -ring -linarith -lia [canon_leaveConvoy, foldl_canon]

theorem canon_detachAll {x0 : State} {x1 : Nat} {x2 : WRef} (h0 : Canon x0.mem x0.wgs) : Canon (detachAll x0 x1
    x2).mem (detachAll x0 x1 x2).wgs := by
  unfold detachAll; grind -ring -linarith -lia [canon_detachMember, foldl_canon]

theorem canon_unhold {x0 : State} {x1 : Nat} {x2 : WRef} (h0 : Canon x0.mem x0.wgs) : Canon (unhold x0 x1 x2).mem
    (unhold x0 x1 x2).wgs := by
  unfold unhold; grind -ring -linarith -lia [canon_State_holdEnded, canon_State_setDie, foldl_canon]

theorem canon_hwStore {x0 : State} {x1 : Workgroup} {x2 : Nat} {x3 : Nat} {x4 : Nat} (h0 : Canon x0.mem x0.wgs) (h1 :
    x1.sp.wf = true) : Canon ((hwStore x0 x1 x2 x3 x4).1).mem ((hwStore x0 x1 x2 x3 x4).1).wgs := by
  unfold hwStore; grind -ring -linarith -lia [canon_translate, canon_tileStore]

theorem canon_hwStores {x0 : State} {x1 : Workgroup} {x2 : Nat} {x3 : List (Nat × Nat × Nat)} (h0 : Canon x0.mem
    x0.wgs) (h1 : x1.sp.wf = true) : Canon ((hwStores x0 x1 x2 x3).1).mem ((hwStores x0 x1 x2 x3).1).wgs := by
  fun_induction hwStores x0 x1 x2 x3 <;> grind -ring -linarith -lia [canon_hwStore]

theorem canon_hwLoad {x0 : State} {x1 : Workgroup} {x2 : Nat} {x3 : Nat} (h0 : Canon x0.mem x0.wgs) (h1 : x1.sp.wf =
    true) : Canon ((hwLoad x0 x1 x2 x3).1).mem ((hwLoad x0 x1 x2 x3).1).wgs := by
  unfold hwLoad; grind -ring -linarith -lia [canon_translate, canon_tileLoad]

theorem canon_hwLoadWords {x0 : State} {x1 : Workgroup} {x2 : Nat} {x3 : Nat} (h0 : Canon x0.mem x0.wgs) (h1 :
    x1.sp.wf = true) : Canon ((hwLoadWords x0 x1 x2 x3).1).mem ((hwLoadWords x0 x1 x2 x3).1).wgs := by
  fun_induction hwLoadWords x0 x1 x2 x3 <;> grind -ring -linarith -lia [canon_hwLoad]

theorem canon_withdraw {x0 : State} {x1 : Workgroup} (h0 : Canon x0.mem x0.wgs) (h1 : x1.sp.wf = true) : Canon
    (withdraw x0 x1).mem (withdraw x0 x1).wgs := by
  exact h0

theorem canon_endWithError {x0 : State} {x1 : Nat} {x2 : Nat} {x3 : Nat} {x4 : Nat} {x5 : Nat} {x6 : Reg} (h0 : Canon
    x0.mem x0.wgs) : Canon (endWithError x0 x1 x2 x3 x4 x5 x6).mem (endWithError x0 x1 x2 x3 x4 x5 x6).wgs := by
  unfold endWithError; grind -ring -linarith -lia [canon_State_wg, canon_withdraw, canon_State_setWg]

theorem canon_warmImage {x0 : State} {x1 : Workgroup} {x2 : Nat} {x3 : Nat} (h0 : Canon x0.mem x0.wgs) (h1 : x1.sp.wf
    = true) : Canon (warmImage x0 x1 x2 x3).mem (warmImage x0 x1 x2 x3).wgs := by
  unfold warmImage
  exact foldl_canon (fun s p h => by
    split
    · exact h
    · exact canon_translate h) _ h0

theorem canon_fetchImage {x0 : State} {x1 : Workgroup} {x2 : Nat} {x3 : Nat} (h0 : Canon x0.mem x0.wgs) (h1 : x1.sp.wf
    = true) : Canon (fetchImage x0 x1 x2 x3).mem (fetchImage x0 x1 x2 x3).wgs := by
  unfold fetchImage; grind -ring -linarith -lia [canon_warmImage, canon_readLines]

theorem canon_fetchAreas {x0 : State} {x1 : Workgroup} {x2 : List (Nat × Nat)} (h0 : Canon x0.mem x0.wgs) (h1 :
    x1.sp.wf = true) : Canon (fetchAreas x0 x1 x2).mem (fetchAreas x0 x1 x2).wgs := by
  unfold fetchAreas; exact foldl_canon (fun s p h => canon_fetchImage h h1) _ h0

theorem canon_sendMessage {x0 : State} {x1 : FaultMsg} (h0 : Canon x0.mem x0.wgs) : Canon (sendMessage x0 x1).mem
    (sendMessage x0 x1).wgs := by
  exact h0

theorem canon_sendPages {x0 : State} {x1 : WRef} {x2 : Workgroup} {x3 : Nat} {x4 : Nat} {x5 : List Nat} (h0 : Canon
    x0.mem x0.wgs) (h2 : x2.sp.wf = true) : Canon ((sendPages x0 x1 x2 x3 x4 x5).1).mem ((sendPages x0 x1 x2 x3 x4
    x5).1).wgs := by
  fun_induction sendPages x0 x1 x2 x3 x4 x5 <;> grind -ring -linarith -lia [canon_sendMessage, canon_listWalk]

theorem canon_areaMiss {x0 : State} {x1 : Workgroup} {x2 : Nat} {x3 : Warp} {x4 : Acc} (h0 : Canon x0.mem x0.wgs) (h1
    : x1.sp.wf = true) : Canon ((areaMiss x0 x1 x2 x3 x4).1).mem ((areaMiss x0 x1 x2 x3 x4).1).wgs := by
  unfold areaMiss; grind -ring -linarith -lia [canon_translate]

theorem canon_parkEntry {x0 : State} {x1 : WRef} {x2 : Workgroup} {x3 : Warp} {x4 : Entry} {x5 : List Nat} {x6 : List
    Nat} (h0 : Canon x0.mem x0.wgs) (h2 : x2.sp.wf = true) : Canon (parkEntry x0 x1 x2 x3 x4 x5 x6).mem (parkEntry x0
    x1 x2 x3 x4 x5 x6).wgs := by
  unfold parkEntry; grind -ring -linarith -lia [canon_sendPages, canon_State_setWarp]

theorem canon_enterVector {x0 : State} {x1 : WRef} {x2 : Workgroup} {x3 : Warp} {x4 : Nat} {x5 : Entry} (h0 : Canon
    x0.mem x0.wgs) (h2 : x2.sp.wf = true) : Canon (enterVector x0 x1 x2 x3 x4 x5).mem (enterVector x0 x1 x2 x3 x4
    x5).wgs := by
  unfold enterVector; grind -ring -linarith -lia [canon_fetchAreas, canon_areaMiss, canon_parkEntry,
      canon_endWithError, canon_detachAll, canon_hwStores, canon_State_setWarp]

theorem canon_reportExpiry {x0 : State} {x1 : Workgroup} {x2 : Nat} (h0 : Canon x0.mem x0.wgs) (h1 : x1.sp.wf = true)
    : Canon (reportExpiry x0 x1 x2).mem (reportExpiry x0 x1 x2).wgs := by
  unfold reportExpiry; grind -ring -linarith -lia [wg_canon, Canon.set, wf_nil, writeN_wf, writeMasked_wf]

theorem canon_enterException {x0 : State} {x1 : WRef} {x2 : Warp} {x3 : Entry} (h0 : Canon x0.mem x0.wgs) : Canon
    (enterException x0 x1 x2 x3).mem (enterException x0 x1 x2 x3).wgs := by
  unfold enterException; grind -ring -linarith -lia [canon_State_setWarp, canon_State_wg, canon_unhold,
      canon_reportExpiry, canon_endWithError, canon_State_updWarp, canon_detachAll, canon_State_updWg,
      canon_enterVector]

theorem canon_takeException {x0 : State} {x1 : WRef} {x2 : Warp} {x3 : Nat} {x4 : Nat} {x5 : List FaultRec} {x6 :
    Option Nat} (h0 : Canon x0.mem x0.wgs) : Canon (takeException x0 x1 x2 x3 x4 x5 x6).mem (takeException x0 x1 x2 x3
    x4 x5 x6).wgs := by
  unfold takeException; grind -ring -linarith -lia [canon_enterException]

theorem canon_preciseTrap {x0 : State} {x1 : WRef} {x2 : Warp} {x3 : Nat} (h0 : Canon x0.mem x0.wgs) : Canon
    (preciseTrap x0 x1 x2 x3).mem (preciseTrap x0 x1 x2 x3).wgs := by
  unfold preciseTrap; exact canon_takeException (by assumption)

theorem canon_targetTrap {x0 : State} {x1 : WRef} {x2 : Warp} (h0 : Canon x0.mem x0.wgs) : Canon (targetTrap x0 x1
    x2).mem (targetTrap x0 x1 x2).wgs := by
  unfold targetTrap; exact canon_takeException (by assumption)

theorem canon_returnFromException {x0 : State} {x1 : WRef} {x2 : Warp} {x3 : Nat} (h0 : Canon x0.mem x0.wgs) : Canon
    (returnFromException x0 x1 x2 x3).mem (returnFromException x0 x1 x2 x3).wgs := by
  unfold returnFromException; grind -ring -linarith -lia [canon_State_wg, canon_leaveAll, canon_State_setWarp,
      canon_areaMiss, canon_sendPages, canon_hwLoadWords, canon_endWithError]

theorem canon_State_current {x0 : State} (h0 : Canon x0.mem x0.wgs) : ∀ y0, (State.current x0) = some y0 →
    (((y0.2).1).sp.wf = true) := by
  unfold State.current; grind -ring -linarith -lia [canon_State_wg]

theorem canon_withCurrent {x0 : State} {x1 : WRef → Workgroup → Warp → State} (h0 : Canon x0.mem x0.wgs) (h1 : ∀ (y0_0
    : WRef) (y0_1 : Workgroup) (y0_2 : Warp), (y0_1.sp.wf = true) → Canon (x1 y0_0 y0_1 y0_2).mem (x1 y0_0 y0_1
    y0_2).wgs) : ∀ y0, (withCurrent x0 x1) = .next y0 → (Canon y0.mem y0.wgs) := by
  unfold withCurrent; grind -ring -linarith -lia [→ canon_State_current, State.current]

theorem canon_retire {x0 : State} {x1 : WRef} {x2 : Workgroup} {x3 : Warp} {x4 : Warp} {x5 : Bool} (h0 : Canon x0.mem
    x0.wgs) (h2 : x2.sp.wf = true) : Canon (retire x0 x1 x2 x3 x4 x5).mem (retire x0 x1 x2 x3 x4 x5).wgs := by
  unfold retire; grind -ring -linarith -lia [canon_State_setWarp, canon_leaveAll]

theorem canon_retireWithRecords {x0 : State} {x1 : WRef} {x2 : Workgroup} {x3 : Warp} {x4 : Warp} {x5 : Bool} {x6 :
    List FaultRec} (h0 : Canon x0.mem x0.wgs) (h2 : x2.sp.wf = true) : Canon (retireWithRecords x0 x1 x2 x3 x4 x5
    x6).mem (retireWithRecords x0 x1 x2 x3 x4 x5 x6).wgs := by
  unfold retireWithRecords; grind -ring -linarith -lia [canon_retire, canon_takeException]

/-! ### Consume -/

theorem canon_checkAccess {x0 : State} {x1 : Workgroup} {x2 : Warp} {x3 : Acc} {x4 : Int} {x5 : Nat} (h0 : Canon
    x0.mem x0.wgs) (h1 : x1.sp.wf = true) : Canon ((checkAccess x0 x1 x2 x3 x4 x5).1).mem ((checkAccess x0 x1 x2 x3 x4
    x5).1).wgs := by
  unfold checkAccess; grind -ring -linarith -lia [canon_translate]

theorem canon_checkAll {x0 : State} {x1 : Workgroup} {x2 : Warp} {x3 : Acc} {x4 : Nat} {x5 : List (Nat × Int)} (h0 :
    Canon x0.mem x0.wgs) (h1 : x1.sp.wf = true) : Canon ((checkAll x0 x1 x2 x3 x4 x5).1).mem ((checkAll x0 x1 x2 x3 x4
    x5).1).wgs := by
  fun_induction checkAll x0 x1 x2 x3 x4 x5 <;> grind -ring -linarith -lia [canon_checkAccess]

theorem canon_parkOn {x0 : State} {x1 : WRef} {x2 : Workgroup} {x3 : Warp} {x4 : Acc} {x5 : List Nat} (h0 : Canon
    x0.mem x0.wgs) (h2 : x2.sp.wf = true) : Canon (parkOn x0 x1 x2 x3 x4 x5).mem (parkOn x0 x1 x2 x3 x4 x5).wgs := by
  exact canon_State_setWarp (canon_sendPages h0 h2)

theorem canon_fetchCounted {x0 : State} {x1 : WRef} {x2 : Nat} {x3 : Warp} {x4 : Nat} {x5 : List Nat} (h0 : Canon
    x0.mem x0.wgs) : Canon ((fetchCounted x0 x1 x2 x3 x4 x5).1).mem ((fetchCounted x0 x1 x2 x3 x4 x5).1).wgs := by
  fun_induction fetchCounted x0 x1 x2 x3 x4 x5 <;> grind -ring -linarith -lia [canon_mergeFor]

theorem canon_prefetchOne {x0 : State} {x1 : WRef} {x2 : Workgroup} {x3 : Warp} {x4 : Nat} {x5 : Nat} (h0 : Canon
    x0.mem x0.wgs) (h2 : x2.sp.wf = true) : Canon ((prefetchOne x0 x1 x2 x3 x4 x5).1).mem ((prefetchOne x0 x1 x2 x3 x4
    x5).1).wgs := by
  unfold prefetchOne; grind -ring -linarith -lia [canon_checkAll, canon_fetchCounted]

theorem canon_prefetchFrom {x0 : State} {x1 : WRef} {x2 : Workgroup} {x3 : Warp} {x4 : Nat} {x5 : Nat} {x6 : Nat} (h0
    : Canon x0.mem x0.wgs) (h2 : x2.sp.wf = true) : Canon ((prefetchFrom x0 x1 x2 x3 x4 x5 x6).1).mem ((prefetchFrom
    x0 x1 x2 x3 x4 x5 x6).1).wgs := by
  fun_induction prefetchFrom x0 x1 x2 x3 x4 x5 x6 <;> grind -ring -linarith -lia [canon_prefetchOne]

theorem canon_prefetch {x0 : State} {x1 : WRef} {x2 : Workgroup} {x3 : Warp} {x4 : Nat} (h0 : Canon x0.mem x0.wgs) (h2
    : x2.sp.wf = true) : Canon ((prefetch x0 x1 x2 x3 x4).1).mem ((prefetch x0 x1 x2 x3 x4).1).wgs := by
  unfold prefetch; grind -ring -linarith -lia [canon_prefetchFrom]

theorem canon_State_updMember {x0 : State} {x1 : Nat} {x2 : Nat} {x3 : WRef} {x4 : Nat} {x5 : Member → Member} (h0 :
    Canon x0.mem x0.wgs) : Canon (State.updMember x0 x1 x2 x3 x4 x5).mem (State.updMember x0 x1 x2 x3 x4 x5).wgs := by
  exact h0

theorem canon_holdStream {x0 : State} {x1 : Nat} {x2 : WRef} {x3 : Warp} {x4 : Nat} (h0 : Canon x0.mem x0.wgs) : Canon
    (holdStream x0 x1 x2 x3 x4).mem (holdStream x0 x1 x2 x3 x4).wgs := by
  unfold holdStream; grind -ring -linarith -lia [canon_State_updMember]

theorem canon_endStreamHold {x0 : State} {x1 : Nat} {x2 : Nat} {x3 : WRef} {x4 : Member} (h0 : Canon x0.mem x0.wgs) :
    Canon (endStreamHold x0 x1 x2 x3 x4).mem (endStreamHold x0 x1 x2 x3 x4).wgs := by
  unfold endStreamHold; grind -ring -linarith -lia [canon_State_updMember, canon_State_holdEnded]

theorem canon_advanceMember {x0 : State} {x1 : Nat} {x2 : WRef} {x3 : Warp} {x4 : Nat} (h0 : Canon x0.mem x0.wgs) :
    Canon (advanceMember x0 x1 x2 x3 x4).mem (advanceMember x0 x1 x2 x3 x4).wgs := by
  unfold advanceMember; grind -ring -linarith -lia [canon_State_noteConvoy, canon_State_updMember, canon_endStreamHold]

theorem canon_streamMisses {x0 : State} {x1 : Workgroup} {x2 : Warp} {x3 : Mask} {x4 : List Nat} (h0 : Canon x0.mem
    x0.wgs) (h1 : x1.sp.wf = true) : Canon ((streamMisses x0 x1 x2 x3 x4).1).mem ((streamMisses x0 x1 x2 x3 x4).1).wgs
    := by
  fun_induction streamMisses x0 x1 x2 x3 x4 <;> grind -ring -linarith -lia [canon_checkAll]

theorem canon_consumeEach {x0 : State} {x1 : WRef} {x2 : Workgroup} {x3 : Warp} {x4 : Mask} {x5 : List Nat} (h0 :
    Canon x0.mem x0.wgs) (h2 : x2.sp.wf = true) : Canon ((consumeEach x0 x1 x2 x3 x4 x5).1).mem ((consumeEach x0 x1 x2
    x3 x4 x5).1).wgs := by
  fun_induction consumeEach x0 x1 x2 x3 x4 x5 <;> grind -ring -linarith -lia [canon_fetchCounted, canon_checkAll]

theorem canon_consumeStop {x0 : State} {x1 : WRef} {x2 : Workgroup} {x3 : Warp} {x4 : Warp} {x5 : Mask} {x6 : List
    Nat} (h0 : Canon x0.mem x0.wgs) (h2 : x2.sp.wf = true) : ∀ y0, (consumeStop x0 x1 x2 x3 x4 x5 x6) = some y0 → ((∀
    z1_0 z1_1 z1_2 z1_3, y0 = .ok z1_0 z1_1 z1_2 z1_3 → (Canon z1_0.mem z1_0.wgs)) ∧ (∀ z1_0, y0 = .held z1_0 → (Canon
    z1_0.mem z1_0.wgs)) ∧ (∀ z1_0, y0 = .park z1_0 → (Canon z1_0.mem z1_0.wgs))) := by
  unfold consumeStop
  intro y hy
  simp only at hy
  split at hy
  · cases hy
    refine ⟨fun _ _ _ _ h => (by cases h), fun t h => ?_, fun _ h => (by cases h)⟩
    cases h
    refine canon_State_updWarp (foldl_canon (fun s n h => ?_) _ (canon_State_setWarp h0))
    split
    · exact h
    · exact canon_holdStream h
  · split at hy
    · cases hy
      refine ⟨fun _ _ _ _ h => (by cases h), fun _ h => (by cases h), fun t h => ?_⟩
      cases h
      exact canon_parkOn (canon_streamMisses h0 h2) h2
    · cases hy

theorem canon_consume {x0 : State} {x1 : WRef} {x2 : Workgroup} {x3 : Warp} {x4 : Warp} {x5 : Mask} {x6 : List Nat}
    (h0 : Canon x0.mem x0.wgs) (h2 : x2.sp.wf = true) : (∀ z0_0 z0_1 z0_2 z0_3, (consume x0 x1 x2 x3 x4 x5 x6) = .ok
    z0_0 z0_1 z0_2 z0_3 → (Canon z0_0.mem z0_0.wgs)) ∧ (∀ z0_0, (consume x0 x1 x2 x3 x4 x5 x6) = .held z0_0 → (Canon
    z0_0.mem z0_0.wgs)) ∧ (∀ z0_0, (consume x0 x1 x2 x3 x4 x5 x6) = .park z0_0 → (Canon z0_0.mem z0_0.wgs)) := by
  unfold consume; grind -ring -linarith -lia [canon_consumeStop, canon_consumeEach, canon_advanceMember,
      canon_prefetch, foldl_canon, foldlCanon_fst]

theorem canon_consume_1 {x0 : State} {x1 : WRef} {x2 : Workgroup} {x3 : Warp} {x4 : Warp} {x5 : Mask} {x6 : List Nat}
    (h0 : Canon x0.mem x0.wgs) (h2 : x2.sp.wf = true) : (∀ z0_0 z0_1 z0_2 z0_3, (consume x0 x1 x2 x3 x4 x5 x6) = .ok
    z0_0 z0_1 z0_2 z0_3 → (Canon z0_0.mem z0_0.wgs)) := (canon_consume (h0 := h0) (h2 := h2)).1

theorem canon_consume_2 {x0 : State} {x1 : WRef} {x2 : Workgroup} {x3 : Warp} {x4 : Warp} {x5 : Mask} {x6 : List Nat}
    (h0 : Canon x0.mem x0.wgs) (h2 : x2.sp.wf = true) : (∀ z0_0, (consume x0 x1 x2 x3 x4 x5 x6) = .held z0_0 → (Canon
    z0_0.mem z0_0.wgs)) := (canon_consume (h0 := h0) (h2 := h2)).2.1

theorem canon_consume_3 {x0 : State} {x1 : WRef} {x2 : Workgroup} {x3 : Warp} {x4 : Warp} {x5 : Mask} {x6 : List Nat}
    (h0 : Canon x0.mem x0.wgs) (h2 : x2.sp.wf = true) : (∀ z0_0, (consume x0 x1 x2 x3 x4 x5 x6) = .park z0_0 → (Canon
    z0_0.mem z0_0.wgs)) := (canon_consume (h0 := h0) (h2 := h2)).2.2

/-! ### LaneRun -/

theorem canon_fillReads {x0 : State} {x1 : Workgroup} {x2 : Nat} {x3 : Warp} {x4 : Mask} {x5 : Instr} (h0 : Canon
    x0.mem x0.wgs) (h1 : x1.sp.wf = true) : Canon (fillReads x0 x1 x2 x3 x4 x5).mem (fillReads x0 x1 x2 x3 x4 x5).wgs
    := by
  unfold fillReads; grind -ring -linarith -lia [canon_fetchAreas]

theorem canon_runNamed {x0 : State} {x1 : Instr} {x2 : Warp → Mask} {x3 : State → WRef → Workgroup → Warp → State} (h0
    : Canon x0.mem x0.wgs) (h3 : ∀ (y0_0 : State) (y0_1 : WRef) (y0_2 : Workgroup) (y0_3 : Warp), (Canon y0_0.mem
    y0_0.wgs) → (y0_2.sp.wf = true) → Canon (x3 y0_0 y0_1 y0_2 y0_3).mem (x3 y0_0 y0_1 y0_2 y0_3).wgs) : ∀ y0,
    (runNamed x0 x1 x2 x3) = .next y0 → (Canon y0.mem y0.wgs) := by
  unfold runNamed; grind -ring -linarith -lia [canon_withCurrent, canon_fillReads, canon_State_setWarp,
      canon_Workgroup_setWarp, canon_endWithError, canon_parkOn, canon_preciseTrap]

theorem canon_lastOnly {x0 : State} {x1 : Host.Outcome State Fault Refusal} (h0 : Canon x0.mem x0.wgs) (h1 : ∀ y0, x1
    = .next y0 → (Canon y0.mem y0.wgs)) : ∀ y0, (lastOnly x0 x1) = .next y0 → (Canon y0.mem y0.wgs) := by
  unfold lastOnly; grind -ring -linarith -lia [canon_State_current, canon_preciseTrap]

theorem canon_finishWarp {x0 : State} {x1 : WRef} {x2 : Workgroup} {x3 : Warp} {x4 : WRes} (h0 : Canon x0.mem x0.wgs)
    (h2 : x2.sp.wf = true) : Canon (finishWarp x0 x1 x2 x3 x4).mem (finishWarp x0 x1 x2 x3 x4).wgs := by
  unfold finishWarp; grind -ring -linarith -lia [canon_retire, canon_preciseTrap, canon_State_setWarp]

theorem canon_runUniform {x0 : State} {x1 : Instr} {x2 : Warp → WRes} (h0 : Canon x0.mem x0.wgs) : ∀ y0, (runUniform
    x0 x1 x2) = .next y0 → (Canon y0.mem y0.wgs) := by
  unfold runUniform; grind -ring -linarith -lia [canon_runNamed, canon_finishWarp]

theorem canon_runLane {x0 : State} {x1 : LaneForm} {x2 : BitVec 5 → Bool} {x3 : LaneCtx → Option Nat} {x4 : LaneCtx →
    Warp} (h0 : Canon x0.mem x0.wgs) : ∀ y0, (runLane x0 x1 x2 x3 x4) = .next y0 → (Canon y0.mem y0.wgs) := by
  unfold runLane; grind -ring -linarith -lia [canon_runNamed, canon_preciseTrap, canon_State_setWarp, canon_consume_1,
      canon_consume_2, canon_consume_3, canon_retireWithRecords]

theorem canon_runUnary {x0 : State} {x1 : Instr} {x2 : BitVec 7} {x3 : BitVec 7} {x4 : BitVec 3} {x5 : TagClass} {x6 :
    BitVec 5 → Reg → LaneRes} (h0 : Canon x0.mem x0.wgs) : ∀ y0, (runUnary x0 x1 x2 x3 x4 x5 x6) = .next y0 → (Canon
    y0.mem y0.wgs) := by
  unfold runUnary; exact canon_runLane (by assumption)

theorem canon_runBinary {x0 : State} {x1 : Instr} {x2 : BitVec 7} {x3 : BitVec 7} {x4 : BitVec 7} {x5 : BitVec 3} {x6
    : TagClass} {x7 : BitVec 5 → Reg → Reg → LaneRes} (h0 : Canon x0.mem x0.wgs) : ∀ y0, (runBinary x0 x1 x2 x3 x4 x5
    x6 x7) = .next y0 → (Canon y0.mem y0.wgs) := by
  unfold runBinary; exact canon_runLane (by assumption)

theorem canon_runTernary {x0 : State} {x1 : Instr} {x2 : BitVec 7} {x3 : BitVec 7} {x4 : BitVec 7} {x5 : BitVec 3} {x6
    : TagClass} {x7 : BitVec 5 → Reg → Reg → Reg → LaneRes} (h0 : Canon x0.mem x0.wgs) : ∀ y0, (runTernary x0 x1 x2 x3
    x4 x5 x6 x7) = .next y0 → (Canon y0.mem y0.wgs) := by
  unfold runTernary; exact canon_runLane (by assumption)

theorem canon_runScalar {x0 : State} {x1 : Instr} {x2 : BitVec 7} {x3 : BitVec 7} {x4 : BitVec 7} {x5 : BitVec 3} {x6
    : TagClass} {x7 : BitVec 5 → Reg → Reg → LaneRes} (h0 : Canon x0.mem x0.wgs) : ∀ y0, (runScalar x0 x1 x2 x3 x4 x5
    x6 x7) = .next y0 → (Canon y0.mem y0.wgs) := by
  unfold runScalar; exact canon_runLane (by assumption)

theorem canon_runScalarInto {x0 : State} {x1 : Instr} {x2 : BitVec 7} {x3 : BitVec 7} {x4 : BitVec 7} {x5 : BitVec 3}
    {x6 : TagClass} {x7 : BitVec 5 → Reg → Reg → Reg → LaneRes} (h0 : Canon x0.mem x0.wgs) : ∀ y0, (runScalarInto x0
    x1 x2 x3 x4 x5 x6 x7) = .next y0 → (Canon y0.mem y0.wgs) := by
  unfold runScalarInto; exact canon_runLane (by assumption)

/-! ### Flags -/

theorem canon_retireLong {x0 : State} {x1 : WRef} {x2 : Workgroup} {x3 : Warp} {x4 : Warp} {x5 : Nat} {x6 : List Nat}
    {x7 : List Nat} {x8 : List FaultRec} {x9 : List FaultRec} {x10 : List FaultRec} {x11 : Bool} (h0 : Canon x0.mem
    x0.wgs) (h2 : x2.sp.wf = true) : Canon (retireLong x0 x1 x2 x3 x4 x5 x6 x7 x8 x9 x10 x11).mem (retireLong x0 x1 x2
    x3 x4 x5 x6 x7 x8 x9 x10 x11).wgs := by
  unfold retireLong; exact canon_retireWithRecords (by assumption) (by assumption)

theorem canon_waitAt {x0 : State} {x1 : WRef} {x2 : Warp} {x3 : Wait} (h0 : Canon x0.mem x0.wgs) : Canon (waitAt x0 x1
    x2 x3).mem (waitAt x0 x1 x2 x3).wgs := by
  unfold waitAt; exact canon_State_setWarp (by assumption)

theorem canon_countLoad {x0 : State} {x1 : WRef} {x2 : Outst} (h0 : Canon x0.mem x0.wgs) : Canon (countLoad x0 x1
    x2).mem (countLoad x0 x1 x2).wgs := by
  unfold countLoad; grind -ring -linarith -lia [canon_State_wg, canon_State_countEvent]

theorem canon_knowErrors {x0 : State} {x1 : WRef} {x2 : Warp} {x3 : Bool} {x4 : List FaultRec} (h0 : Canon x0.mem
    x0.wgs) : Canon (knowErrors x0 x1 x2 x3 x4).mem (knowErrors x0 x1 x2 x3 x4).wgs := by
  unfold knowErrors; grind -ring -linarith -lia [canon_State_setWarp, canon_State_wg, canon_takeException]

theorem canon_completeOp {x0 : State} {x1 : WRef} {x2 : Nat} (h0 : Canon x0.mem x0.wgs) : Canon (completeOp x0 x1
    x2).mem (completeOp x0 x1 x2).wgs := by
  unfold completeOp; grind -ring -linarith -lia [canon_countLoad, canon_knowErrors]

/-! ### MemAccess -/

theorem canon_runMem {x0 : State} {x1 : Instr} {x2 : List (BitVec 7)} {x3 : BitVec 7} {x4 : Nat} {x5 : Int} {x6 : Warp
    → Mask → Bool} {x7 : State → WRef → Workgroup → Warp → Warp → Mask → LaneAddrs → State} (h0 : Canon x0.mem x0.wgs)
    (h7 : ∀ (y0_0 : State) (y0_1 : WRef) (y0_2 : Workgroup) (y0_3 : Warp) (y0_4 : Warp) (y0_5 : Mask) (y0_6 :
    LaneAddrs), (Canon y0_0.mem y0_0.wgs) → (y0_2.sp.wf = true) → Canon (x7 y0_0 y0_1 y0_2 y0_3 y0_4 y0_5 y0_6).mem
    (x7 y0_0 y0_1 y0_2 y0_3 y0_4 y0_5 y0_6).wgs) : ∀ y0, (runMem x0 x1 x2 x3 x4 x5 x6 x7) = .next y0 → (Canon y0.mem
    y0.wgs) := by
  unfold runMem; grind -ring -linarith -lia [canon_runNamed, canon_preciseTrap, canon_State_setWarp]

theorem canon_eachLane {α : Type} {x1 : State → Nat → Xlated → State × α × Bool} {x2 : State} {x3 : List (Nat × Int ×
    LaneAcc)} (h1 : ∀ (y0_0 : State) (y0_1 : Nat) (y0_2 : Xlated), (Canon y0_0.mem y0_0.wgs) → Canon ((x1 y0_0 y0_1
    y0_2).1).mem ((x1 y0_0 y0_1 y0_2).1).wgs) (h2 : Canon x2.mem x2.wgs) : Canon ((eachLane x1 x2 x3).1).mem
    ((eachLane x1 x2 x3).1).wgs := by
  fun_induction eachLane x1 x2 x3 <;> grind -ring -linarith -lia

theorem canon_globalLanes {α : Type} {x1 : State} {x2 : WRef} {x3 : Workgroup} {x4 : Warp} {x5 : Warp} {x6 : Acc} {x7
    : Nat} {x8 : Nat} {x9 : Nat} {x10 : List Nat} {x11 : LaneAddrs} {x12 : State → Nat → Xlated → State × α × Bool}
    {x13 : List (Nat × Int × LaneAcc) → List (Nat × α × Bool) → Warp} (h1 : Canon x1.mem x1.wgs) (h3 : x3.sp.wf =
    true) (h12 : ∀ (y0_0 : State) (y0_1 : Nat) (y0_2 : Xlated), (Canon y0_0.mem y0_0.wgs) → Canon ((x12 y0_0 y0_1
    y0_2).1).mem ((x12 y0_0 y0_1 y0_2).1).wgs) : Canon (globalLanes x1 x2 x3 x4 x5 x6 x7 x8 x9 x10 x11 x12 x13).mem
    (globalLanes x1 x2 x3 x4 x5 x6 x7 x8 x9 x10 x11 x12 x13).wgs := by
  unfold globalLanes; grind -ring -linarith -lia [canon_checkAll, canon_parkOn, canon_eachLane, canon_retireLong]

theorem canon_execVld {x0 : BitVec 7} {x1 : BitVec 7} {x2 : BitVec 5} {x3 : BitVec 1} {x4 : BitVec 4} {x5 : State} (h5
    : Canon x5.mem x5.wgs) : ∀ y0, (execVld x0 x1 x2 x3 x4 x5) = .next y0 → (Canon y0.mem y0.wgs) := by
  unfold execVld; grind -ring -linarith -lia [canon_runMem, canon_globalLanes, canon_tileLoad]

theorem canon_execVst {x0 : BitVec 7} {x1 : BitVec 7} {x2 : BitVec 5} {x3 : BitVec 1} {x4 : BitVec 4} {x5 : State} (h5
    : Canon x5.mem x5.wgs) : ∀ y0, (execVst x0 x1 x2 x3 x4 x5) = .next y0 → (Canon y0.mem y0.wgs) := by
  unfold execVst; grind -ring -linarith -lia [canon_runMem, canon_globalLanes, canon_tileStore]

theorem canon_execVatom {x0 : BitVec 7} {x1 : BitVec 7} {x2 : BitVec 5} {x3 : BitVec 1} {x4 : BitVec 4} {x5 : State}
    (h5 : Canon x5.mem x5.wgs) : ∀ y0, (execVatom x0 x1 x2 x3 x4 x5) = .next y0 → (Canon y0.mem y0.wgs) := by
  unfold execVatom; grind -ring -linarith -lia [canon_runMem, canon_globalLanes, canon_chanAtomic]

theorem canon_execVcas {x0 : BitVec 7} {x1 : BitVec 7} {x2 : BitVec 5} {x3 : BitVec 1} {x4 : BitVec 4} {x5 : State}
    (h5 : Canon x5.mem x5.wgs) : ∀ y0, (execVcas x0 x1 x2 x3 x4 x5) = .next y0 → (Canon y0.mem y0.wgs) := by
  unfold execVcas; grind -ring -linarith -lia [canon_runMem, canon_globalLanes, canon_chanAtomic]

theorem canon_prefetchLine {x0 : State} {x1 : Workgroup} {x2 : LaneAcc} (h0 : Canon x0.mem x0.wgs) (h1 : x1.sp.wf =
    true) : Canon (prefetchLine x0 x1 x2).mem (prefetchLine x0 x1 x2).wgs := by
  unfold prefetchLine; grind -ring -linarith -lia [canon_takeLine, canon_mergeRead, canon_fetchLine]

theorem canon_execVprf {x0 : BitVec 7} {x1 : BitVec 1} {x2 : BitVec 4} {x3 : State} (h3 : Canon x3.mem x3.wgs) : ∀ y0,
    (execVprf x0 x1 x2 x3) = .next y0 → (Canon y0.mem y0.wgs) := by
  unfold execVprf; grind -ring -linarith -lia [canon_runMem, canon_checkAll, canon_prefetchLine, canon_retireLong,
      foldl_canon]

/-- Accesses of a scratchpad lane by lane keep its form where each of them does. -/
theorem canon_spEach {f : Memory → Nat → Nat → Memory × Nat} (hf : ∀ m l a, Memory.wf m = true → Memory.wf (f m l a).1
    = true) {m : Memory}
    {l : LaneAddrs} (h : Memory.wf m = true) : Memory.wf (spEach f m l).1 = true := by
  fun_induction spEach f m l <;> grind

theorem canon_scratchLanes {x0 : State} {x1 : WRef} {x2 : Workgroup} {x3 : Warp} {x4 : Warp} {x5 : Mask} {x6 : Nat}
    {x7 : Nat} {x8 : Warp → Mask → List Nat} {x9 : LaneAddrs} {x10 : Memory → Nat → Nat → Memory × Nat} {x11 : Warp →
    Mask → List (Nat × Nat × Bool) → Warp} (h0 : Canon x0.mem x0.wgs) (h2 : x2.sp.wf = true) (h10 : ∀ m l a, Memory.wf
    m = true → Memory.wf (x10 m l a).1 = true) : Canon (scratchLanes x0 x1 x2 x3 x4 x5 x6 x7 x8 x9 x10 x11).mem
    (scratchLanes x0 x1 x2 x3 x4 x5 x6 x7 x8 x9 x10 x11).wgs := by
  unfold scratchLanes; exact canon_retireLong (canon_State_updWg h0 (fun g _ => canon_spEach h10 h2)) h2

theorem canon_execVlds {x0 : BitVec 7} {x1 : BitVec 7} {x2 : BitVec 5} {x3 : BitVec 1} {x4 : BitVec 4} {x5 : State}
    (h5 : Canon x5.mem x5.wgs) : ∀ y0, (execVlds x0 x1 x2 x3 x4 x5) = .next y0 → (Canon y0.mem y0.wgs) := by
  unfold execVlds; grind -ring -linarith -lia [canon_runMem, canon_scratchLanes]

theorem canon_execVsts {x0 : BitVec 7} {x1 : BitVec 7} {x2 : BitVec 5} {x3 : BitVec 1} {x4 : BitVec 4} {x5 : State}
    (h5 : Canon x5.mem x5.wgs) : ∀ y0, (execVsts x0 x1 x2 x3 x4 x5) = .next y0 → (Canon y0.mem y0.wgs) := by
  unfold execVsts; grind -ring -linarith -lia [wg_canon, Canon.set, wf_nil, writeN_wf, writeMasked_wf, canon_runMem,
      canon_scratchLanes]

theorem canon_execVatoms {x0 : BitVec 7} {x1 : BitVec 7} {x2 : BitVec 5} {x3 : BitVec 1} {x4 : BitVec 4} {x5 : State}
    (h5 : Canon x5.mem x5.wgs) : ∀ y0, (execVatoms x0 x1 x2 x3 x4 x5) = .next y0 → (Canon y0.mem y0.wgs) := by
  unfold execVatoms; grind -ring -linarith -lia [wg_canon, Canon.set, wf_nil, writeN_wf, writeMasked_wf, canon_runMem,
      canon_scratchLanes]

theorem canon_uniformAccess {x0 : State} {x1 : WRef} {x2 : Workgroup} {x3 : Warp} {x4 : Acc} {x5 : Int} {x6 : Nat} {x7
    : State → Xlated → State} {x8 : State → Nat → State} (h0 : Canon x0.mem x0.wgs) (h2 : x2.sp.wf = true) (h7 : ∀
    (y0_0 : State) (y0_1 : Xlated), (Canon y0_0.mem y0_0.wgs) → Canon (x7 y0_0 y0_1).mem (x7 y0_0 y0_1).wgs) (h8 : ∀
    (y0_0 : State) (y0_1 : Nat), (Canon y0_0.mem y0_0.wgs) → Canon (x8 y0_0 y0_1).mem (x8 y0_0 y0_1).wgs) : Canon
    (uniformAccess x0 x1 x2 x3 x4 x5 x6 x7 x8).mem (uniformAccess x0 x1 x2 x3 x4 x5 x6 x7 x8).wgs := by
  unfold uniformAccess; grind -ring -linarith -lia [canon_checkAccess, canon_parkOn]

theorem canon_runUniMem {x0 : State} {x1 : Instr} {x2 : BitVec 1} {x3 : Acc} {x4 : Nat} {x5 : Nat} {x6 : List Nat} {x7
    : Warp → Int} {x8 : State → Workgroup → Warp → Xlated → State × Nat × Bool} {x9 : Warp → Nat → Warp} {x10 : Bool}
    (h0 : Canon x0.mem x0.wgs) (h8 : ∀ (y0_0 : State) (y0_1 : Workgroup) (y0_2 : Warp) (y0_3 : Xlated), (Canon
    y0_0.mem y0_0.wgs) → (y0_1.sp.wf = true) → Canon ((x8 y0_0 y0_1 y0_2 y0_3).1).mem ((x8 y0_0 y0_1 y0_2
    y0_3).1).wgs) : ∀ y0, (runUniMem x0 x1 x2 x3 x4 x5 x6 x7 x8 x9 x10) = .next y0 → (Canon y0.mem y0.wgs) := by
  unfold runUniMem; grind -ring -linarith -lia [canon_runNamed, canon_uniformAccess, canon_retireLong]

theorem canon_execSld {x0 : BitVec 6} {x1 : BitVec 6} {x2 : BitVec 1} {x3 : BitVec 2} {x4 : BitVec 1} {x5 : BitVec 8}
    {x6 : State} (h6 : Canon x6.mem x6.wgs) : ∀ y0, (execSld x0 x1 x2 x3 x4 x5 x6) = .next y0 → (Canon y0.mem y0.wgs)
    := by
  unfold execSld; grind -ring -linarith -lia [canon_runUniMem, canon_tileLoad]

theorem canon_execSst {x0 : BitVec 6} {x1 : BitVec 6} {x2 : BitVec 1} {x3 : BitVec 2} {x4 : BitVec 8} {x5 : State} (h5
    : Canon x5.mem x5.wgs) : ∀ y0, (execSst x0 x1 x2 x3 x4 x5) = .next y0 → (Canon y0.mem y0.wgs) := by
  unfold execSst; grind -ring -linarith -lia [canon_runUniMem, canon_tileStore]

theorem canon_execSatom {x0 : BitVec 6} {x1 : BitVec 6} {x2 : BitVec 6} {x3 : BitVec 1} {x4 : BitVec 4} {x5 : State}
    (h5 : Canon x5.mem x5.wgs) : ∀ y0, (execSatom x0 x1 x2 x3 x4 x5) = .next y0 → (Canon y0.mem y0.wgs) := by
  unfold execSatom; grind -ring -linarith -lia [canon_runUniMem, canon_chanAtomic]

theorem canon_execScas {x0 : BitVec 6} {x1 : BitVec 6} {x2 : BitVec 6} {x3 : BitVec 1} {x4 : State} (h4 : Canon x4.mem
    x4.wgs) : ∀ y0, (execScas x0 x1 x2 x3 x4) = .next y0 → (Canon y0.mem y0.wgs) := by
  unfold execScas; grind -ring -linarith -lia [canon_runUniMem, canon_chanAtomic]

/-! ### Order -/

theorem canon_fenceEffect {x0 : State} {x1 : Workgroup} {x2 : Warp} {x3 : Bool} {x4 : Bool} {x5 : Nat} (h0 : Canon
    x0.mem x0.wgs) (h1 : x1.sp.wf = true) : Canon ((fenceEffect x0 x1 x2 x3 x4 x5).1).mem ((fenceEffect x0 x1 x2 x3 x4
    x5).1).wgs := by
  unfold fenceEffect; grind -ring -linarith -lia [canon_invalidateWhere, canon_writeBackWhere]

theorem canon_sendReleases {x0 : State} {x1 : Workgroup} {x2 : Bool} {x3 : Nat} (h0 : Canon x0.mem x0.wgs) (h1 :
    x1.sp.wf = true) : Canon (sendReleases x0 x1 x2 x3).mem (sendReleases x0 x1 x2 x3).wgs := by
  unfold sendReleases; grind -ring -linarith -lia [canon_writeBackWhere]

theorem canon_execFence {x0 : BitVec 2} {x1 : BitVec 3} {x2 : State} (h2 : Canon x2.mem x2.wgs) : ∀ y0, (execFence x0
    x1 x2) = .next y0 → (Canon y0.mem y0.wgs) := by
  unfold execFence; grind -ring -linarith -lia [canon_runNamed, canon_sendReleases, canon_waitAt, canon_fenceEffect,
      canon_retire]

theorem canon_objectAccess {x0 : State} {x1 : WRef} {x2 : Workgroup} {x3 : Warp} {x4 : Acc} {x5 : Int} {x6 : State →
    Xlated → State} {x7 : State → Nat → State} (h0 : Canon x0.mem x0.wgs) (h2 : x2.sp.wf = true) (h6 : ∀ (y0_0 :
    State) (y0_1 : Xlated), (Canon y0_0.mem y0_0.wgs) → Canon (x6 y0_0 y0_1).mem (x6 y0_0 y0_1).wgs) (h7 : ∀ (y0_0 :
    State) (y0_1 : Nat), (Canon y0_0.mem y0_0.wgs) → Canon (x7 y0_0 y0_1).mem (x7 y0_0 y0_1).wgs) : Canon
    (objectAccess x0 x1 x2 x3 x4 x5 x6 x7).mem (objectAccess x0 x1 x2 x3 x4 x5 x6 x7).wgs := by
  unfold objectAccess; grind -ring -linarith -lia [canon_uniformAccess]

theorem canon_execAcq {x0 : BitVec 6} {x1 : BitVec 6} {x2 : BitVec 3} {x3 : State} (h3 : Canon x3.mem x3.wgs) : ∀ y0,
    (execAcq x0 x1 x2 x3) = .next y0 → (Canon y0.mem y0.wgs) := by
  unfold execAcq; grind -ring -linarith -lia [canon_runNamed, canon_objectAccess, canon_chanObject,
      canon_retireWithRecords, canon_invalidateWhere, canon_retire]

theorem canon_execRel {x0 : BitVec 6} {x1 : BitVec 6} {x2 : BitVec 3} {x3 : State} (h3 : Canon x3.mem x3.wgs) : ∀ y0,
    (execRel x0 x1 x2 x3) = .next y0 → (Canon y0.mem y0.wgs) := by
  unfold execRel; grind -ring -linarith -lia [canon_runNamed, canon_objectAccess, canon_writeBackWhere, canon_waitAt,
      canon_invalidateLine, canon_chanWrite, canon_retire, canon_retireWithRecords]

theorem canon_execPublish {x0 : BitVec 6} {x1 : BitVec 6} {x2 : BitVec 3} {x3 : State} (h3 : Canon x3.mem x3.wgs) : ∀
    y0, (execPublish x0 x1 x2 x3) = .next y0 → (Canon y0.mem y0.wgs) := by
  unfold execPublish; grind -ring -linarith -lia [canon_runNamed, canon_sendReleases, canon_waitAt, canon_fenceEffect,
      canon_retire]

theorem canon_writeRange {x0 : State} {x1 : Nat} {x2 : Nat} {x3 : BitVec 256} (h0 : Canon x0.mem x0.wgs) : Canon
    (writeRange x0 x1 x2 x3).mem (writeRange x0 x1 x2 x3).wgs := by
  unfold writeRange; exact canon_chanWrite (by assumption)

theorem canon_execPublishExchange {x0 : WRef} {x1 : State} (h1 : Canon x1.mem x1.wgs) : ∀ y0, (execPublishExchange x0
    x1) = .next y0 → (Canon y0.mem y0.wgs) := by
  unfold execPublishExchange; grind -ring -linarith -lia [canon_State_wg, canon_retire, canon_writeRange]

theorem canon_waitcDone {x0 : State} {x1 : WRef} {x2 : Workgroup} {x3 : Warp} (h0 : Canon x0.mem x0.wgs) (h2 :
    x2.sp.wf = true) : Canon (waitcDone x0 x1 x2 x3).mem (waitcDone x0 x1 x2 x3).wgs := by
  exact canon_retire (canon_fenceEffect h0 h2) h2

theorem canon_execWaitc {x0 : BitVec 6} {x1 : BitVec 6} {x2 : State} (h2 : Canon x2.mem x2.wgs) : ∀ y0, (execWaitc x0
    x1 x2) = .next y0 → (Canon y0.mem y0.wgs) := by
  unfold execWaitc; grind -ring -linarith -lia [canon_runNamed, canon_objectAccess, canon_chanObject,
      canon_retireWithRecords, canon_waitAt, canon_waitcDone]

theorem canon_testCounter {x0 : State} {x1 : WRef} {x2 : Bool} (h0 : Canon x0.mem x0.wgs) : Canon (testCounter x0 x1
    x2).mem (testCounter x0 x1 x2).wgs := by
  unfold testCounter; grind -ring -linarith -lia [canon_State_wg, canon_translate, canon_chanObject, canon_waitAt,
      canon_waitcDone]

theorem canon_execWaitcWake {x0 : WRef} {x1 : State} (h1 : Canon x1.mem x1.wgs) : ∀ y0, (execWaitcWake x0 x1) = .next
    y0 → (Canon y0.mem y0.wgs) := by
  unfold execWaitcWake; grind -ring -linarith -lia [canon_testCounter]

theorem canon_execRemoteCounterPoll {x0 : WRef} {x1 : State} (h1 : Canon x1.mem x1.wgs) : ∀ y0, (execRemoteCounterPoll
    x0 x1) = .next y0 → (Canon y0.mem y0.wgs) := by
  unfold execRemoteCounterPoll; grind -ring -linarith -lia [canon_testCounter]

theorem canon_testCounters {x0 : State} {x1 : Nat → Bool} {x2 : Bool} (h0 : Canon x0.mem x0.wgs) : Canon (testCounters
    x0 x1 x2).mem (testCounters x0 x1 x2).wgs := by
  unfold testCounters; exact foldl_canon (fun _ _ h => canon_testCounter h) _ h0

theorem canon_execRemoteWriteAck {x0 : WRef} {x1 : State} (h1 : Canon x1.mem x1.wgs) : ∀ y0, (execRemoteWriteAck x0
    x1) = .next y0 → (Canon y0.mem y0.wgs) := by
  unfold execRemoteWriteAck; grind -ring -linarith -lia [canon_testCounters, canon_State_setWarp]

theorem canon_execLongLatencyComplete {x0 : WRef} {x1 : Nat} {x2 : State} (h2 : Canon x2.mem x2.wgs) : ∀ y0,
    (execLongLatencyComplete x0 x1 x2) = .next y0 → (Canon y0.mem y0.wgs) := by
  unfold execLongLatencyComplete; grind -ring -linarith -lia [canon_completeOp, canon_testCounters]

theorem canon_execWriteAcknowledgement {x0 : Nat} {x1 : Nat} {x2 : State} (h2 : Canon x2.mem x2.wgs) : ∀ y0,
    (execWriteAcknowledgement x0 x1 x2) = .next y0 → (Canon y0.mem y0.wgs) := by
  unfold execWriteAcknowledgement; grind -ring -linarith -lia [canon_State_setTile, Canon.map, foldl_canon]

/-! ### Barriers -/

theorem canon_tbarPut {x0 : Workgroup} {x1 : Nat} {x2 : TBar} (h0 : x0.sp.wf = true) : (tbarPut x0 x1 x2).sp.wf = true
    := by
  unfold tbarPut; grind -ring -linarith -lia [wg_canon, Canon.set, wf_nil, writeN_wf, writeMasked_wf]

theorem canon_sectorArrives {x0 : State} {x1 : Nat} {x2 : Nat} (h0 : Canon x0.mem x0.wgs) : Canon (sectorArrives x0 x1
    x2).mem (sectorArrives x0 x1 x2).wgs := by
  unfold sectorArrives; grind -ring -linarith -lia [canon_State_updWg, canon_tbarPut]

theorem canon_barrierHolder {x0 : State} {x1 : WRef} {x2 : Workgroup} {x3 : Bool} {x4 : Nat} (h0 : Canon x0.mem
    x0.wgs) (h2 : x2.sp.wf = true) : ∀ y0, (barrierHolder x0 x1 x2 x3 x4) = some y0 → ((y0.2).sp.wf = true) := by
  unfold barrierHolder; grind -ring -linarith -lia [Option.map_eq_some_iff, wg_canon]

theorem canon_runBarrier {x0 : State} {x1 : Instr} {x2 : BitVec 6} {x3 : Bool} {x4 : Nat} {x5 : Warp → TBar → Bool}
    {x6 : Warp → TBar → TBar × Warp} (h0 : Canon x0.mem x0.wgs) : ∀ y0, (runBarrier x0 x1 x2 x3 x4 x5 x6) = .next y0 →
    (Canon y0.mem y0.wgs) := by
  unfold runBarrier; grind -ring -linarith -lia [canon_runNamed, canon_barrierHolder, canon_sendReleases,
      canon_waitAt, canon_fenceEffect, canon_retire, canon_State_updWg, canon_tbarPut, canon_preciseTrap]

theorem canon_execTbinit {x0 : BitVec 6} {x1 : BitVec 6} {x2 : State} (h2 : Canon x2.mem x2.wgs) : ∀ y0, (execTbinit
    x0 x1 x2) = .next y0 → (Canon y0.mem y0.wgs) := by
  unfold execTbinit; exact canon_runBarrier (by assumption)

theorem canon_execTbexp {x0 : BitVec 6} {x1 : BitVec 6} {x2 : BitVec 1} {x3 : BitVec 1} {x4 : BitVec 3} {x5 : State}
    (h5 : Canon x5.mem x5.wgs) : ∀ y0, (execTbexp x0 x1 x2 x3 x4 x5) = .next y0 → (Canon y0.mem y0.wgs) := by
  unfold execTbexp; exact canon_runBarrier (by assumption)

theorem canon_execTbarr {x0 : BitVec 6} {x1 : BitVec 6} {x2 : BitVec 1} {x3 : BitVec 3} {x4 : State} (h4 : Canon
    x4.mem x4.wgs) : ∀ y0, (execTbarr x0 x1 x2 x3 x4) = .next y0 → (Canon y0.mem y0.wgs) := by
  unfold execTbarr; exact canon_runBarrier (by assumption)

theorem canon_tbwaitDone {x0 : State} {x1 : WRef} {x2 : Workgroup} {x3 : Warp} (h0 : Canon x0.mem x0.wgs) (h2 :
    x2.sp.wf = true) : Canon (tbwaitDone x0 x1 x2 x3).mem (tbwaitDone x0 x1 x2 x3).wgs := by
  exact canon_retire (canon_fenceEffect h0 h2) h2

theorem canon_execTbwait {x0 : BitVec 6} {x1 : BitVec 6} {x2 : State} (h2 : Canon x2.mem x2.wgs) : ∀ y0, (execTbwait
    x0 x1 x2) = .next y0 → (Canon y0.mem y0.wgs) := by
  unfold execTbwait; grind -ring -linarith -lia [canon_runNamed, canon_tbwaitDone, canon_State_updWg, canon_tbarPut,
      canon_waitAt, canon_preciseTrap]

theorem canon_execTbwaitWake {x0 : Nat} {x1 : Nat} {x2 : State} (h2 : Canon x2.mem x2.wgs) : ∀ y0, (execTbwaitWake x0
    x1 x2) = .next y0 → (Canon y0.mem y0.wgs) := by
  unfold execTbwaitWake; grind -ring -linarith -lia [canon_State_wg, canon_tbwaitDone, foldl_canon]

theorem canon_releaseParty {x0 : State} {x1 : WRef} {x2 : Bool} (h0 : Canon x0.mem x0.wgs) : Canon (releaseParty x0 x1
    x2).mem (releaseParty x0 x1 x2).wgs := by
  unfold releaseParty; grind -ring -linarith -lia [canon_State_wg, canon_fenceEffect, canon_retire]

theorem canon_meetingSends {x0 : State} {x1 : List Nat} {x2 : Bool} (h0 : Canon x0.mem x0.wgs) : Canon ((meetingSends
    x0 x1 x2).1).mem ((meetingSends x0 x1 x2).1).wgs := by
  unfold meetingSends; refine foldlCanon_fst (fun q u h => ?_) _ h0; grind -ring -linarith -lia [canon_State_wg,
      canon_sendReleases]

theorem canon_releaseMeeting {x0 : State} {x1 : List Nat} {x2 : Bool} {x3 : Nat} (h0 : Canon x0.mem x0.wgs) : Canon
    (releaseMeeting x0 x1 x2 x3).mem (releaseMeeting x0 x1 x2 x3).wgs := by
  unfold releaseMeeting; grind -ring -linarith -lia [canon_meetingSends, canon_releaseParty, foldl_canon]

theorem canon_runMeeting {x0 : State} {x1 : Instr} {x2 : Bool} (h0 : Canon x0.mem x0.wgs) : ∀ y0, (runMeeting x0 x1
    x2) = .next y0 → (Canon y0.mem y0.wgs) := by
  unfold runMeeting; grind -ring -linarith -lia [canon_runNamed, canon_releaseMeeting, canon_waitAt]

theorem canon_execBar {x0 : State} (h0 : Canon x0.mem x0.wgs) : ∀ y0, (execBar x0) = .next y0 → (Canon y0.mem y0.wgs)
    := by
  unfold execBar; exact canon_runMeeting (by assumption)

theorem canon_execGbar {x0 : State} (h0 : Canon x0.mem x0.wgs) : ∀ y0, (execGbar x0) = .next y0 → (Canon y0.mem
    y0.wgs) := by
  unfold execGbar; exact canon_runMeeting (by assumption)

theorem canon_execBarRelease {x0 : Nat} {x1 : Bool} {x2 : State} (h2 : Canon x2.mem x2.wgs) : ∀ y0, (execBarRelease x0
    x1 x2) = .next y0 → (Canon y0.mem y0.wgs) := by
  unfold execBarRelease; grind -ring -linarith -lia [canon_State_wg, canon_releaseMeeting, foldl_canon]

end Sys2Proof.Laws
end

