-- ==== Sys2Proof/Laws/CanonicalWork.lean ====
section
/-! SUPPORT. What copies, collective calls, convoys, pipes, the matrix unit and power do keeps the canonical form of memory and
of the workgroups' scratchpads. -/

set_option Elab.async false
set_option maxRecDepth 4096

namespace Sys2Proof.Laws

open Sys2Proof.Machine

/-! ### Boot -/

theorem canon_execPowerOn {x0 : BitVec 64} {x1 : State} (h1 : Canon x1.mem x1.wgs) : ∀ y0, (execPowerOn x0 x1) = .next
    y0 → (Canon y0.mem y0.wgs) := by
  unfold execPowerOn; grind -ring -linarith -lia [canon_State_reset]

theorem canon_execBootStage1 {x0 : State} (h0 : Canon x0.mem x0.wgs) : ∀ y0, (execBootStage1 x0) = .next y0 → (Canon
    y0.mem y0.wgs) := by
  unfold execBootStage1; grind -ring -linarith -lia [wg_canon, filter_wf, Canon]

theorem canon_setBar2 {x0 : State} (h0 : Canon x0.mem x0.wgs) : Canon (setBar2 x0).mem (setBar2 x0).wgs := by
  unfold setBar2; grind -ring -linarith -lia [canon_State_draw]

theorem canon_execBootStage2 {x0 : State} (h0 : Canon x0.mem x0.wgs) : ∀ y0, (execBootStage2 x0) = .next y0 → (Canon
    y0.mem y0.wgs) := by
  unfold execBootStage2; grind -ring -linarith -lia [canon_setBar2, canon_State_setDie]

theorem canon_execAttestationReport {x0 : BitVec 256} {x1 : State} (h1 : Canon x1.mem x1.wgs) : ∀ y0,
    (execAttestationReport x0 x1) = .next y0 → (Canon y0.mem y0.wgs) := by
  unfold execAttestationReport; grind -ring -linarith -lia

theorem canon_execMctpRequest {x0 : State} (h0 : Canon x0.mem x0.wgs) : ∀ y0, (execMctpRequest x0) = .next y0 → (Canon
    y0.mem y0.wgs) := by
  unfold execMctpRequest; grind -ring -linarith -lia [canon_State_draw]

/-! ### Clocks -/

theorem canon_State_updClk {x0 : State} {x1 : Nat} {x2 : Clock → Clock} (h0 : Canon x0.mem x0.wgs) : Canon
    (State.updClk x0 x1 x2).mem (State.updClk x0 x1 x2).wgs := by
  exact h0

theorem canon_refreshClock {x0 : State} {x1 : Nat} (h0 : Canon x0.mem x0.wgs) : Canon (refreshClock x0 x1).mem
    (refreshClock x0 x1).wgs := by
  unfold refreshClock; grind -ring -linarith -lia [canon_State_updClk]

theorem canon_switchClock {x0 : State} {x1 : Nat} (h0 : Canon x0.mem x0.wgs) : Canon (switchClock x0 x1).mem
    (switchClock x0 x1).wgs := by
  exact h0

theorem canon_trySwitch {x0 : State} {x1 : Nat} (h0 : Canon x0.mem x0.wgs) : Canon (trySwitch x0 x1).mem (trySwitch x0
    x1).wgs := by
  unfold trySwitch; grind -ring -linarith -lia [canon_refreshClock, canon_switchClock]

theorem canon_slewVoltage {x0 : State} {x1 : Nat} {x2 : Nat} (h0 : Canon x0.mem x0.wgs) : Canon (slewVoltage x0 x1
    x2).mem (slewVoltage x0 x1 x2).wgs := by
  unfold slewVoltage; grind -ring -linarith -lia [canon_State_setPair]

theorem canon_idleCheck {x0 : State} {x1 : Nat} (h0 : Canon x0.mem x0.wgs) : Canon (idleCheck x0 x1).mem (idleCheck x0
    x1).wgs := by
  unfold idleCheck; grind -ring -linarith -lia [canon_State_setPair]

theorem canon_tickPairs {x0 : State} {x1 : Nat} {x2 : Nat} (h0 : Canon x0.mem x0.wgs) : Canon (tickPairs x0 x1 x2).mem
    (tickPairs x0 x1 x2).wgs := by
  unfold tickPairs; grind -ring -linarith -lia [canon_slewVoltage, canon_idleCheck, foldl_canon]

/-! ### Copies -/

theorem canon_loadWords {x0 : State} {x1 : Workgroup} {x2 : Warp} {x3 : List (Nat × Int × LaneAcc)} (h0 : Canon x0.mem
    x0.wgs) (h1 : x1.sp.wf = true) : Canon ((loadWords x0 x1 x2 x3).1).mem ((loadWords x0 x1 x2 x3).1).wgs := by
  fun_induction loadWords x0 x1 x2 x3 <;> grind -ring -linarith -lia [canon_tileLoad]

theorem canon_readWords {x0 : State} {x1 : WRef} {x2 : Workgroup} {x3 : Warp} {x4 : Nat} {x5 : Nat} (h0 : Canon x0.mem
    x0.wgs) (h2 : x2.sp.wf = true) : (∀ z0_0 z0_1, (readWords x0 x1 x2 x3 x4 x5) = .ok z0_0 z0_1 → (Canon z0_0.mem
    z0_0.wgs)) ∧ (∀ z0_0, (readWords x0 x1 x2 x3 x4 x5) = .park z0_0 → (Canon z0_0.mem z0_0.wgs)) ∧ (∀ z0_0 z0_1 z0_2,
    (readWords x0 x1 x2 x3 x4 x5) = .bad z0_0 z0_1 z0_2 → (Canon z0_0.mem z0_0.wgs)) := by
  unfold readWords; grind -ring -linarith -lia [canon_checkAll, canon_parkOn, canon_loadWords]

theorem canon_readWords_1 {x0 : State} {x1 : WRef} {x2 : Workgroup} {x3 : Warp} {x4 : Nat} {x5 : Nat} (h0 : Canon
    x0.mem x0.wgs) (h2 : x2.sp.wf = true) : (∀ z0_0 z0_1, (readWords x0 x1 x2 x3 x4 x5) = .ok z0_0 z0_1 → (Canon
    z0_0.mem z0_0.wgs)) := (canon_readWords (h0 := h0) (h2 := h2)).1

theorem canon_readWords_2 {x0 : State} {x1 : WRef} {x2 : Workgroup} {x3 : Warp} {x4 : Nat} {x5 : Nat} (h0 : Canon
    x0.mem x0.wgs) (h2 : x2.sp.wf = true) : (∀ z0_0, (readWords x0 x1 x2 x3 x4 x5) = .park z0_0 → (Canon z0_0.mem
    z0_0.wgs)) := (canon_readWords (h0 := h0) (h2 := h2)).2.1

theorem canon_readWords_3 {x0 : State} {x1 : WRef} {x2 : Workgroup} {x3 : Warp} {x4 : Nat} {x5 : Nat} (h0 : Canon
    x0.mem x0.wgs) (h2 : x2.sp.wf = true) : (∀ z0_0 z0_1 z0_2, (readWords x0 x1 x2 x3 x4 x5) = .bad z0_0 z0_1 z0_2 →
    (Canon z0_0.mem z0_0.wgs)) := (canon_readWords (h0 := h0) (h2 := h2)).2.2

theorem canon_enqueueCopy {x0 : State} {x1 : WRef} {x2 : Workgroup} {x3 : Warp} {x4 : Copy} (h0 : Canon x0.mem x0.wgs)
    (h2 : x2.sp.wf = true) : Canon (enqueueCopy x0 x1 x2 x3 x4).mem (enqueueCopy x0 x1 x2 x3 x4).wgs := by
  unfold enqueueCopy; grind -ring -linarith -lia [canon_retire, canon_State_countEvent, canon_State_setTile]

theorem canon_issueCopy {x0 : State} {x1 : WRef} {x2 : Workgroup} {x3 : Warp} {x4 : CopyKind} {x5 : BitVec 6} {x6 :
    List Reg} {x7 : List Reg} {x8 : BitVec 6} {x9 : Bool} {x10 : Copy → Bool} (h0 : Canon x0.mem x0.wgs) (h2 :
    x2.sp.wf = true) : Canon (issueCopy x0 x1 x2 x3 x4 x5 x6 x7 x8 x9 x10).mem (issueCopy x0 x1 x2 x3 x4 x5 x6 x7 x8
    x9 x10).wgs := by
  unfold issueCopy; grind -ring -linarith -lia [canon_preciseTrap, canon_enqueueCopy]

theorem canon_runCopy {x0 : State} {x1 : Instr} {x2 : CopyKind} {x3 : Nat} {x4 : BitVec 6} {x5 : BitVec 6} {x6 :
    BitVec 6} {x7 : BitVec 1} (h0 : Canon x0.mem x0.wgs) : ∀ y0, (runCopy x0 x1 x2 x3 x4 x5 x6 x7) = .next y0 → (Canon
    y0.mem y0.wgs) := by
  unfold runCopy; grind -ring -linarith -lia [canon_runNamed, canon_preciseTrap, canon_issueCopy]

theorem canon_runShaped {x0 : State} {x1 : Instr} {x2 : CopyKind} {x3 : Nat} {x4 : BitVec 6} {x5 : State → WRef →
    Workgroup → Warp → List Reg → List Reg → State} (h0 : Canon x0.mem x0.wgs) (h5 : ∀ (y0_0 : State) (y0_1 : WRef)
    (y0_2 : Workgroup) (y0_3 : Warp) (y0_4 : List Reg) (y0_5 : List Reg), (Canon y0_0.mem y0_0.wgs) → (y0_2.sp.wf =
    true) → Canon (x5 y0_0 y0_1 y0_2 y0_3 y0_4 y0_5).mem (x5 y0_0 y0_1 y0_2 y0_3 y0_4 y0_5).wgs) : ∀ y0, (runShaped x0
    x1 x2 x3 x4 x5) = .next y0 → (Canon y0.mem y0.wgs) := by
  unfold runShaped; grind -ring -linarith -lia [canon_runNamed, canon_preciseTrap, canon_readWords_1,
      canon_readWords_2, canon_readWords_3, canon_retireWithRecords]

theorem canon_execCpy {x0 : BitVec 6} {x1 : BitVec 6} {x2 : BitVec 6} {x3 : BitVec 1} {x4 : State} (h4 : Canon x4.mem
    x4.wgs) : ∀ y0, (execCpy x0 x1 x2 x3 x4) = .next y0 → (Canon y0.mem y0.wgs) := by
  unfold execCpy; exact canon_runCopy (by assumption)

theorem canon_execCpr {x0 : BitVec 6} {x1 : BitVec 6} {x2 : BitVec 6} {x3 : BitVec 1} {x4 : State} (h4 : Canon x4.mem
    x4.wgs) : ∀ y0, (execCpr x0 x1 x2 x3 x4) = .next y0 → (Canon y0.mem y0.wgs) := by
  unfold execCpr; exact canon_runCopy (by assumption)

theorem canon_execCpx {x0 : BitVec 6} {x1 : BitVec 6} {x2 : BitVec 6} {x3 : BitVec 1} {x4 : State} (h4 : Canon x4.mem
    x4.wgs) : ∀ y0, (execCpx x0 x1 x2 x3 x4) = .next y0 → (Canon y0.mem y0.wgs) := by
  unfold execCpx; exact canon_runCopy (by assumption)

theorem canon_execCpt {x0 : BitVec 6} {x1 : BitVec 6} {x2 : BitVec 6} {x3 : BitVec 1} {x4 : State} (h4 : Canon x4.mem
    x4.wgs) : ∀ y0, (execCpt x0 x1 x2 x3 x4) = .next y0 → (Canon y0.mem y0.wgs) := by
  unfold execCpt; grind -ring -linarith -lia [canon_runShaped, canon_issueCopy]

theorem canon_execCpclose {x0 : State} (h0 : Canon x0.mem x0.wgs) : ∀ y0, (execCpclose x0) = .next y0 → (Canon y0.mem
    y0.wgs) := by
  unfold execCpclose; exact canon_runUniform (by assumption)

theorem canon_execCpwait {x0 : BitVec 4} {x1 : State} (h1 : Canon x1.mem x1.wgs) : ∀ y0, (execCpwait x0 x1) = .next y0
    → (Canon y0.mem y0.wgs) := by
  unfold execCpwait; grind -ring -linarith -lia [canon_runNamed, canon_retire, canon_waitAt]

theorem canon_State_setCopy {x0 : State} {x1 : Copy} (h0 : Canon x0.mem x0.wgs) : Canon (State.setCopy x0 x1).mem
    (State.setCopy x0 x1).wgs := by
  exact h0

theorem canon_copyTranslate {x0 : State} {x1 : Workgroup} {x2 : Copy} {x3 : Nat} {x4 : Acc} (h0 : Canon x0.mem x0.wgs)
    (h1 : x1.sp.wf = true) : Canon ((copyTranslate x0 x1 x2 x3 x4).1).mem ((copyTranslate x0 x1 x2 x3 x4).1).wgs := by
  unfold copyTranslate; grind -ring -linarith -lia [canon_translate]

theorem canon_copyXlate {x0 : State} {x1 : Workgroup} {x2 : Copy} {x3 : Acc} {x4 : Nat} (h0 : Canon x0.mem x0.wgs) (h1
    : x1.sp.wf = true) : Canon ((copyXlate x0 x1 x2 x3 x4).1).mem ((copyXlate x0 x1 x2 x3 x4).1).wgs := by
  unfold copyXlate; grind -ring -linarith -lia [canon_copyTranslate]

theorem canon_engineRead {x0 : State} {x1 : Workgroup} {x2 : Copy} {x3 : Nat} {x4 : Nat} (h0 : Canon x0.mem x0.wgs)
    (h1 : x1.sp.wf = true) : (∀ z0_0 z0_1, (engineRead x0 x1 x2 x3 x4) = .ok z0_0 z0_1 → (Canon z0_0.mem z0_0.wgs)) ∧
    (∀ z0_0 z0_1 z0_2, (engineRead x0 x1 x2 x3 x4) = .miss z0_0 z0_1 z0_2 → (Canon z0_0.mem z0_0.wgs)) ∧ (∀ z0_0 z0_1,
    (engineRead x0 x1 x2 x3 x4) = .err z0_0 z0_1 → (Canon z0_0.mem z0_0.wgs)) := by
  unfold engineRead; grind -ring -linarith -lia [canon_copyXlate, canon_mergeRead]

theorem canon_engineRead_1 {x0 : State} {x1 : Workgroup} {x2 : Copy} {x3 : Nat} {x4 : Nat} (h0 : Canon x0.mem x0.wgs)
    (h1 : x1.sp.wf = true) : (∀ z0_0 z0_1, (engineRead x0 x1 x2 x3 x4) = .ok z0_0 z0_1 → (Canon z0_0.mem z0_0.wgs)) :=
    (canon_engineRead (h0 := h0) (h1 := h1)).1

theorem canon_engineRead_2 {x0 : State} {x1 : Workgroup} {x2 : Copy} {x3 : Nat} {x4 : Nat} (h0 : Canon x0.mem x0.wgs)
    (h1 : x1.sp.wf = true) : (∀ z0_0 z0_1 z0_2, (engineRead x0 x1 x2 x3 x4) = .miss z0_0 z0_1 z0_2 → (Canon z0_0.mem
    z0_0.wgs)) := (canon_engineRead (h0 := h0) (h1 := h1)).2.1

theorem canon_engineRead_3 {x0 : State} {x1 : Workgroup} {x2 : Copy} {x3 : Nat} {x4 : Nat} (h0 : Canon x0.mem x0.wgs)
    (h1 : x1.sp.wf = true) : (∀ z0_0 z0_1, (engineRead x0 x1 x2 x3 x4) = .err z0_0 z0_1 → (Canon z0_0.mem z0_0.wgs))
    := (canon_engineRead (h0 := h0) (h1 := h1)).2.2

theorem canon_engineReadSpan {x0 : State} {x1 : Workgroup} {x2 : Copy} {x3 : Nat} {x4 : Nat} (h0 : Canon x0.mem
    x0.wgs) (h1 : x1.sp.wf = true) : (∀ z0_0 z0_1, (engineReadSpan x0 x1 x2 x3 x4) = .ok z0_0 z0_1 → (Canon z0_0.mem
    z0_0.wgs)) ∧ (∀ z0_0 z0_1 z0_2, (engineReadSpan x0 x1 x2 x3 x4) = .miss z0_0 z0_1 z0_2 → (Canon z0_0.mem
    z0_0.wgs)) ∧ (∀ z0_0 z0_1, (engineReadSpan x0 x1 x2 x3 x4) = .err z0_0 z0_1 → (Canon z0_0.mem z0_0.wgs)) := by
  unfold engineReadSpan; grind -ring -linarith -lia [→ canon_engineRead_1, → canon_engineRead_2, → canon_engineRead_3]

theorem canon_engineReadSpan_1 {x0 : State} {x1 : Workgroup} {x2 : Copy} {x3 : Nat} {x4 : Nat} (h0 : Canon x0.mem
    x0.wgs) (h1 : x1.sp.wf = true) : (∀ z0_0 z0_1, (engineReadSpan x0 x1 x2 x3 x4) = .ok z0_0 z0_1 → (Canon z0_0.mem
    z0_0.wgs)) := (canon_engineReadSpan (h0 := h0) (h1 := h1)).1

theorem canon_engineReadSpan_2 {x0 : State} {x1 : Workgroup} {x2 : Copy} {x3 : Nat} {x4 : Nat} (h0 : Canon x0.mem
    x0.wgs) (h1 : x1.sp.wf = true) : (∀ z0_0 z0_1 z0_2, (engineReadSpan x0 x1 x2 x3 x4) = .miss z0_0 z0_1 z0_2 →
    (Canon z0_0.mem z0_0.wgs)) := (canon_engineReadSpan (h0 := h0) (h1 := h1)).2.1

theorem canon_engineReadSpan_3 {x0 : State} {x1 : Workgroup} {x2 : Copy} {x3 : Nat} {x4 : Nat} (h0 : Canon x0.mem
    x0.wgs) (h1 : x1.sp.wf = true) : (∀ z0_0 z0_1, (engineReadSpan x0 x1 x2 x3 x4) = .err z0_0 z0_1 → (Canon z0_0.mem
    z0_0.wgs)) := (canon_engineReadSpan (h0 := h0) (h1 := h1)).2.2

theorem canon_sourceBytes {x0 : State} {x1 : Workgroup} {x2 : Copy} {x3 : Nat} {x4 : Nat} (h0 : Canon x0.mem x0.wgs)
    (h1 : x1.sp.wf = true) : (∀ z0_0 z0_1, (sourceBytes x0 x1 x2 x3 x4) = .ok z0_0 z0_1 → (Canon z0_0.mem z0_0.wgs)) ∧
    (∀ z0_0 z0_1 z0_2, (sourceBytes x0 x1 x2 x3 x4) = .miss z0_0 z0_1 z0_2 → (Canon z0_0.mem z0_0.wgs)) ∧ (∀ z0_0
    z0_1, (sourceBytes x0 x1 x2 x3 x4) = .err z0_0 z0_1 → (Canon z0_0.mem z0_0.wgs)) := by
  unfold sourceBytes; grind -ring -linarith -lia [canon_engineReadSpan_1, canon_engineReadSpan_2,
      canon_engineReadSpan_3, canon_State_wg]

theorem canon_sourceBytes_1 {x0 : State} {x1 : Workgroup} {x2 : Copy} {x3 : Nat} {x4 : Nat} (h0 : Canon x0.mem x0.wgs)
    (h1 : x1.sp.wf = true) : (∀ z0_0 z0_1, (sourceBytes x0 x1 x2 x3 x4) = .ok z0_0 z0_1 → (Canon z0_0.mem z0_0.wgs))
    := (canon_sourceBytes (h0 := h0) (h1 := h1)).1

theorem canon_sourceBytes_2 {x0 : State} {x1 : Workgroup} {x2 : Copy} {x3 : Nat} {x4 : Nat} (h0 : Canon x0.mem x0.wgs)
    (h1 : x1.sp.wf = true) : (∀ z0_0 z0_1 z0_2, (sourceBytes x0 x1 x2 x3 x4) = .miss z0_0 z0_1 z0_2 → (Canon z0_0.mem
    z0_0.wgs)) := (canon_sourceBytes (h0 := h0) (h1 := h1)).2.1

theorem canon_sourceBytes_3 {x0 : State} {x1 : Workgroup} {x2 : Copy} {x3 : Nat} {x4 : Nat} (h0 : Canon x0.mem x0.wgs)
    (h1 : x1.sp.wf = true) : (∀ z0_0 z0_1, (sourceBytes x0 x1 x2 x3 x4) = .err z0_0 z0_1 → (Canon z0_0.mem z0_0.wgs))
    := (canon_sourceBytes (h0 := h0) (h1 := h1)).2.2

theorem canon_tensorElement {x0 : State} {x1 : Workgroup} {x2 : Copy} {x3 : Nat} (h0 : Canon x0.mem x0.wgs) (h1 :
    x1.sp.wf = true) : (∀ z0_0 z0_1, (tensorElement x0 x1 x2 x3) = .ok z0_0 z0_1 → (Canon z0_0.mem z0_0.wgs)) ∧ (∀
    z0_0 z0_1 z0_2, (tensorElement x0 x1 x2 x3) = .miss z0_0 z0_1 z0_2 → (Canon z0_0.mem z0_0.wgs)) ∧ (∀ z0_0 z0_1,
    (tensorElement x0 x1 x2 x3) = .err z0_0 z0_1 → (Canon z0_0.mem z0_0.wgs)) := by
  unfold tensorElement; grind -ring -linarith -lia [canon_engineReadSpan_1, canon_engineReadSpan_2,
      canon_engineReadSpan_3]

theorem canon_tensorElement_1 {x0 : State} {x1 : Workgroup} {x2 : Copy} {x3 : Nat} (h0 : Canon x0.mem x0.wgs) (h1 :
    x1.sp.wf = true) : (∀ z0_0 z0_1, (tensorElement x0 x1 x2 x3) = .ok z0_0 z0_1 → (Canon z0_0.mem z0_0.wgs)) :=
    (canon_tensorElement (h0 := h0) (h1 := h1)).1

theorem canon_tensorElement_2 {x0 : State} {x1 : Workgroup} {x2 : Copy} {x3 : Nat} (h0 : Canon x0.mem x0.wgs) (h1 :
    x1.sp.wf = true) : (∀ z0_0 z0_1 z0_2, (tensorElement x0 x1 x2 x3) = .miss z0_0 z0_1 z0_2 → (Canon z0_0.mem
    z0_0.wgs)) := (canon_tensorElement (h0 := h0) (h1 := h1)).2.1

theorem canon_tensorElement_3 {x0 : State} {x1 : Workgroup} {x2 : Copy} {x3 : Nat} (h0 : Canon x0.mem x0.wgs) (h1 :
    x1.sp.wf = true) : (∀ z0_0 z0_1, (tensorElement x0 x1 x2 x3) = .err z0_0 z0_1 → (Canon z0_0.mem z0_0.wgs)) :=
    (canon_tensorElement (h0 := h0) (h1 := h1)).2.2

theorem canon_tensorElements {x0 : State} {x1 : Workgroup} {x2 : Copy} {x3 : Nat} {x4 : Nat} (h0 : Canon x0.mem
    x0.wgs) (h1 : x1.sp.wf = true) : (∀ z0_0 z0_1, (tensorElements x0 x1 x2 x3 x4) = .ok z0_0 z0_1 → (Canon z0_0.mem
    z0_0.wgs)) ∧ (∀ z0_0 z0_1 z0_2, (tensorElements x0 x1 x2 x3 x4) = .miss z0_0 z0_1 z0_2 → (Canon z0_0.mem
    z0_0.wgs)) ∧ (∀ z0_0 z0_1, (tensorElements x0 x1 x2 x3 x4) = .err z0_0 z0_1 → (Canon z0_0.mem z0_0.wgs)) := by
  fun_induction tensorElements x0 x1 x2 x3 x4 <;> grind -ring -linarith -lia [canon_tensorElement_1,
      canon_tensorElement_2, canon_tensorElement_3]

theorem canon_tensorElements_1 {x0 : State} {x1 : Workgroup} {x2 : Copy} {x3 : Nat} {x4 : Nat} (h0 : Canon x0.mem
    x0.wgs) (h1 : x1.sp.wf = true) : (∀ z0_0 z0_1, (tensorElements x0 x1 x2 x3 x4) = .ok z0_0 z0_1 → (Canon z0_0.mem
    z0_0.wgs)) := (canon_tensorElements (h0 := h0) (h1 := h1)).1

theorem canon_tensorElements_2 {x0 : State} {x1 : Workgroup} {x2 : Copy} {x3 : Nat} {x4 : Nat} (h0 : Canon x0.mem
    x0.wgs) (h1 : x1.sp.wf = true) : (∀ z0_0 z0_1 z0_2, (tensorElements x0 x1 x2 x3 x4) = .miss z0_0 z0_1 z0_2 →
    (Canon z0_0.mem z0_0.wgs)) := (canon_tensorElements (h0 := h0) (h1 := h1)).2.1

theorem canon_tensorElements_3 {x0 : State} {x1 : Workgroup} {x2 : Copy} {x3 : Nat} {x4 : Nat} (h0 : Canon x0.mem
    x0.wgs) (h1 : x1.sp.wf = true) : (∀ z0_0 z0_1, (tensorElements x0 x1 x2 x3 x4) = .err z0_0 z0_1 → (Canon z0_0.mem
    z0_0.wgs)) := (canon_tensorElements (h0 := h0) (h1 := h1)).2.2

theorem canon_sectorData {x0 : State} {x1 : Workgroup} {x2 : Copy} {x3 : Nat} (h0 : Canon x0.mem x0.wgs) (h1 :
    x1.sp.wf = true) : (∀ z0_0 z0_1, (sectorData x0 x1 x2 x3) = .ok z0_0 z0_1 → (Canon z0_0.mem z0_0.wgs)) ∧ (∀ z0_0
    z0_1 z0_2, (sectorData x0 x1 x2 x3) = .miss z0_0 z0_1 z0_2 → (Canon z0_0.mem z0_0.wgs)) ∧ (∀ z0_0 z0_1,
    (sectorData x0 x1 x2 x3) = .err z0_0 z0_1 → (Canon z0_0.mem z0_0.wgs)) := by
  unfold sectorData; grind -ring -linarith -lia [canon_State_draw, canon_tensorElements_1, canon_tensorElements_2,
      canon_tensorElements_3, canon_sourceBytes_1, canon_sourceBytes_2, canon_sourceBytes_3]

theorem canon_sectorData_1 {x0 : State} {x1 : Workgroup} {x2 : Copy} {x3 : Nat} (h0 : Canon x0.mem x0.wgs) (h1 :
    x1.sp.wf = true) : (∀ z0_0 z0_1, (sectorData x0 x1 x2 x3) = .ok z0_0 z0_1 → (Canon z0_0.mem z0_0.wgs)) :=
    (canon_sectorData (h0 := h0) (h1 := h1)).1

theorem canon_sectorData_2 {x0 : State} {x1 : Workgroup} {x2 : Copy} {x3 : Nat} (h0 : Canon x0.mem x0.wgs) (h1 :
    x1.sp.wf = true) : (∀ z0_0 z0_1 z0_2, (sectorData x0 x1 x2 x3) = .miss z0_0 z0_1 z0_2 → (Canon z0_0.mem z0_0.wgs))
    := (canon_sectorData (h0 := h0) (h1 := h1)).2.1

theorem canon_sectorData_3 {x0 : State} {x1 : Workgroup} {x2 : Copy} {x3 : Nat} (h0 : Canon x0.mem x0.wgs) (h1 :
    x1.sp.wf = true) : (∀ z0_0 z0_1, (sectorData x0 x1 x2 x3) = .err z0_0 z0_1 → (Canon z0_0.mem z0_0.wgs)) :=
    (canon_sectorData (h0 := h0) (h1 := h1)).2.2

theorem canon_writeUnit {x0 : State} {x1 : Nat} {x2 : SectorData} (h0 : Canon x0.mem x0.wgs) : Canon (writeUnit x0 x1
    x2).mem (writeUnit x0 x1 x2).wgs := by
  unfold writeUnit; exact canon_chanWriteLine (by assumption)

theorem canon_countSector {x0 : State} {x1 : Copy} (h0 : Canon x0.mem x0.wgs) : Canon (countSector x0 x1).mem
    (countSector x0 x1).wgs := by
  unfold countSector; grind -ring -linarith -lia [canon_sectorArrives]

theorem canon_putRecord {x0 : State} {x1 : Copy} {x2 : Nat} (h0 : Canon x0.mem x0.wgs) : Canon (putRecord x0 x1
    x2).mem (putRecord x0 x1 x2).wgs := by
  unfold putRecord; grind -ring -linarith -lia [canon_State_setDie]

theorem canon_parkCopy {x0 : State} {x1 : Workgroup} {x2 : Copy} {x3 : Nat} {x4 : Nat} (h0 : Canon x0.mem x0.wgs) (h1
    : x1.sp.wf = true) : Canon (parkCopy x0 x1 x2 x3 x4).mem (parkCopy x0 x1 x2 x3 x4).wgs := by
  unfold parkCopy; grind -ring -linarith -lia [canon_sendPages, canon_putRecord, canon_State_setCopy]

theorem canon_failCopy {x0 : State} {x1 : Copy} {x2 : Nat} {x3 : Nat} (h0 : Canon x0.mem x0.wgs) : Canon (failCopy x0
    x1 x2 x3).mem (failCopy x0 x1 x2 x3).wgs := by
  exact h0

theorem canon_takeHanded {x0 : State} {x1 : Nat} (h0 : Canon x0.mem x0.wgs) : Canon (takeHanded x0 x1).mem (takeHanded
    x0 x1).wgs := by
  unfold takeHanded; grind -ring -linarith -lia [canon_State_draw, canon_putRecord, canon_State_setCopy]

theorem canon_handedSector {x0 : State} {x1 : Copy} (h0 : Canon x0.mem x0.wgs) : Canon (handedSector x0 x1).mem
    (handedSector x0 x1).wgs := by
  unfold handedSector; grind -ring -linarith -lia [canon_State_draw, canon_failCopy, canon_State_setCopy]

theorem canon_startMiss {x0 : State} {x1 : Workgroup} {x2 : Copy} (h0 : Canon x0.mem x0.wgs) (h1 : x1.sp.wf = true) :
    ∀ y0, (startMiss x0 x1 x2) = some y0 → (Canon (y0.1).mem (y0.1).wgs) := by
  unfold startMiss; grind -ring -linarith -lia [canon_copyXlate]

theorem canon_execCopyStart {x0 : Nat} {x1 : State} (h1 : Canon x1.mem x1.wgs) : ∀ y0, (execCopyStart x0 x1) = .next
    y0 → (Canon y0.mem y0.wgs) := by
  unfold execCopyStart
  intro y hy
  cases hy
  split
  · exact canon_takeHanded h1
  · split
    · exact h1
    · split
      · split
        · rename_i g e
          have hg := wg_canon h1 e
          simp only
          split
          · split
            · rename_i s' p e'
              exact canon_parkCopy (canon_startMiss h1 hg _ e') hg
            · split
              · exact canon_putRecord (canon_State_setCopy h1)
              · exact h1
          · exact canon_State_setCopy h1
        · exact h1
      · exact h1

theorem canon_remoteAcked {x0 : State} {x1 : Nat} (h0 : Canon x0.mem x0.wgs) : Canon (remoteAcked x0 x1).mem
    (remoteAcked x0 x1).wgs := by
  unfold remoteAcked; grind -ring -linarith -lia [canon_testCounters]

theorem canon_performSector {x0 : State} {x1 : Workgroup} {x2 : Copy} (h0 : Canon x0.mem x0.wgs) (h1 : x1.sp.wf =
    true) : Canon (performSector x0 x1 x2).mem (performSector x0 x1 x2).wgs := by
  unfold performSector; grind -ring -linarith -lia [wg_canon, Canon.set, wf_nil, writeN_wf, writeMasked_wf,
      canon_sectorData_1, canon_sectorData_2, canon_sectorData_3, canon_parkCopy, canon_failCopy, canon_State_updWg,
      canon_countSector, canon_State_setCopy, canon_copyXlate, canon_remoteAcked, canon_writeUnit]

theorem canon_sendSector {x0 : State} {x1 : Workgroup} {x2 : Copy} (h0 : Canon x0.mem x0.wgs) (h1 : x1.sp.wf = true) :
    Canon (sendSector x0 x1 x2).mem (sendSector x0 x1 x2).wgs := by
  unfold sendSector; grind -ring -linarith -lia [canon_sectorData_1, canon_sectorData_2, canon_sectorData_3,
      canon_parkCopy, canon_failCopy, canon_State_setCopy, canon_copyXlate]

theorem canon_execCopySectorPerformed {x0 : Nat} {x1 : State} (h1 : Canon x1.mem x1.wgs) : ∀ y0,
    (execCopySectorPerformed x0 x1) = .next y0 → (Canon y0.mem y0.wgs) := by
  unfold execCopySectorPerformed; grind -ring -linarith -lia [canon_handedSector, canon_State_wg, canon_failCopy,
      canon_State_onBehalf, canon_sendSector, canon_performSector]

theorem canon_execApplyRequest {x0 : Nat} {x1 : Nat} {x2 : State} (h2 : Canon x2.mem x2.wgs) : ∀ y0, (execApplyRequest
    x0 x1 x2) = .next y0 → (Canon y0.mem y0.wgs) := by
  unfold execApplyRequest; grind -ring -linarith -lia [wg_canon, Canon.set, wf_nil, writeN_wf, writeMasked_wf,
      canon_State_updWg, canon_chanWrite]

theorem canon_execApplyAck {x0 : Nat} {x1 : Nat} {x2 : State} (h2 : Canon x2.mem x2.wgs) : ∀ y0, (execApplyAck x0 x1
    x2) = .next y0 → (Canon y0.mem y0.wgs) := by
  unfold execApplyAck; grind -ring -linarith -lia [canon_countSector, canon_remoteAcked, canon_putRecord,
      canon_State_setCopy]

theorem canon_execApplyAckTimeout {x0 : Nat} {x1 : Nat} {x2 : State} (h2 : Canon x2.mem x2.wgs) : ∀ y0,
    (execApplyAckTimeout x0 x1 x2) = .next y0 → (Canon y0.mem y0.wgs) := by
  unfold execApplyAckTimeout; grind -ring -linarith -lia [canon_State_setCopy]

theorem canon_wakeBatch {x0 : State} {x1 : WRef} (h0 : Canon x0.mem x0.wgs) : Canon (wakeBatch x0 x1).mem (wakeBatch
    x0 x1).wgs := by
  unfold wakeBatch; grind -ring -linarith -lia [canon_State_wg, canon_retire]

theorem canon_writeToken {x0 : State} {x1 : Copy} (h0 : Canon x0.mem x0.wgs) : Canon (writeToken x0 x1).mem
    (writeToken x0 x1).wgs := by
  unfold writeToken; grind -ring -linarith -lia [canon_State_wg, canon_invalidateLine, canon_putRecord,
      canon_State_countEvent, canon_State_setTile, canon_State_updWarp, canon_wakeBatch, foldl_canon]

theorem canon_endHanded {x0 : State} {x1 : Copy} (h0 : Canon x0.mem x0.wgs) : Canon (endHanded x0 x1).mem (endHanded
    x0 x1).wgs := by
  unfold endHanded; grind -ring -linarith -lia [canon_putRecord]

theorem canon_execCopyTokenWrite {x0 : Nat} {x1 : State} (h1 : Canon x1.mem x1.wgs) : ∀ y0, (execCopyTokenWrite x0 x1)
    = .next y0 → (Canon y0.mem y0.wgs) := by
  unfold execCopyTokenWrite; grind -ring -linarith -lia [canon_endHanded, canon_writeToken]

/-! ### Collective -/

theorem canon_execCpc {x0 : BitVec 6} {x1 : BitVec 6} {x2 : BitVec 6} {x3 : BitVec 1} {x4 : State} (h4 : Canon x4.mem
    x4.wgs) : ∀ y0, (execCpc x0 x1 x2 x3 x4) = .next y0 → (Canon y0.mem y0.wgs) := by
  unfold execCpc; grind -ring -linarith -lia [canon_runShaped, canon_retireWithRecords, canon_preciseTrap, →
      canon_readWords_1, → canon_readWords_2, → canon_readWords_3, canon_issueCopy]

theorem canon_xlateWrites {x0 : State} {x1 : Workgroup} {x2 : Copy} {x3 : EngWrites} (h0 : Canon x0.mem x0.wgs) (h1 :
    x1.sp.wf = true) : (∀ z0_0 z0_1, (xlateWrites x0 x1 x2 x3) = .ok z0_0 z0_1 → (Canon z0_0.mem z0_0.wgs)) ∧ (∀ z0_0
    z0_1 z0_2, (xlateWrites x0 x1 x2 x3) = .miss z0_0 z0_1 z0_2 → (Canon z0_0.mem z0_0.wgs)) ∧ (∀ z0_0 z0_1,
    (xlateWrites x0 x1 x2 x3) = .err z0_0 z0_1 → (Canon z0_0.mem z0_0.wgs)) := by
  fun_induction xlateWrites x0 x1 x2 x3 <;> grind -ring -linarith -lia [canon_copyXlate]

theorem canon_xlateWrites_1 {x0 : State} {x1 : Workgroup} {x2 : Copy} {x3 : EngWrites} (h0 : Canon x0.mem x0.wgs) (h1
    : x1.sp.wf = true) : (∀ z0_0 z0_1, (xlateWrites x0 x1 x2 x3) = .ok z0_0 z0_1 → (Canon z0_0.mem z0_0.wgs)) :=
    (canon_xlateWrites (h0 := h0) (h1 := h1)).1

theorem canon_xlateWrites_2 {x0 : State} {x1 : Workgroup} {x2 : Copy} {x3 : EngWrites} (h0 : Canon x0.mem x0.wgs) (h1
    : x1.sp.wf = true) : (∀ z0_0 z0_1 z0_2, (xlateWrites x0 x1 x2 x3) = .miss z0_0 z0_1 z0_2 → (Canon z0_0.mem
    z0_0.wgs)) := (canon_xlateWrites (h0 := h0) (h1 := h1)).2.1

theorem canon_xlateWrites_3 {x0 : State} {x1 : Workgroup} {x2 : Copy} {x3 : EngWrites} (h0 : Canon x0.mem x0.wgs) (h1
    : x1.sp.wf = true) : (∀ z0_0 z0_1, (xlateWrites x0 x1 x2 x3) = .err z0_0 z0_1 → (Canon z0_0.mem z0_0.wgs)) :=
    (canon_xlateWrites (h0 := h0) (h1 := h1)).2.2

theorem canon_engineWrites {x0 : State} {x1 : Workgroup} {x2 : Copy} {x3 : EngWrites} (h0 : Canon x0.mem x0.wgs) (h1 :
    x1.sp.wf = true) : (∀ z0_0 z0_1, (engineWrites x0 x1 x2 x3) = .ok z0_0 z0_1 → (Canon z0_0.mem z0_0.wgs)) ∧ (∀ z0_0
    z0_1 z0_2, (engineWrites x0 x1 x2 x3) = .miss z0_0 z0_1 z0_2 → (Canon z0_0.mem z0_0.wgs)) ∧ (∀ z0_0 z0_1,
    (engineWrites x0 x1 x2 x3) = .err z0_0 z0_1 → (Canon z0_0.mem z0_0.wgs)) := by
  unfold engineWrites; grind -ring -linarith -lia [canon_xlateWrites_1, canon_xlateWrites_2, canon_xlateWrites_3,
      canon_remoteAcked, canon_chanWrite, foldl_canon]

theorem canon_engineWrites_1 {x0 : State} {x1 : Workgroup} {x2 : Copy} {x3 : EngWrites} (h0 : Canon x0.mem x0.wgs) (h1
    : x1.sp.wf = true) : (∀ z0_0 z0_1, (engineWrites x0 x1 x2 x3) = .ok z0_0 z0_1 → (Canon z0_0.mem z0_0.wgs)) :=
    (canon_engineWrites (h0 := h0) (h1 := h1)).1

theorem canon_engineWrites_2 {x0 : State} {x1 : Workgroup} {x2 : Copy} {x3 : EngWrites} (h0 : Canon x0.mem x0.wgs) (h1
    : x1.sp.wf = true) : (∀ z0_0 z0_1 z0_2, (engineWrites x0 x1 x2 x3) = .miss z0_0 z0_1 z0_2 → (Canon z0_0.mem
    z0_0.wgs)) := (canon_engineWrites (h0 := h0) (h1 := h1)).2.1

theorem canon_engineWrites_3 {x0 : State} {x1 : Workgroup} {x2 : Copy} {x3 : EngWrites} (h0 : Canon x0.mem x0.wgs) (h1
    : x1.sp.wf = true) : (∀ z0_0 z0_1, (engineWrites x0 x1 x2 x3) = .err z0_0 z0_1 → (Canon z0_0.mem z0_0.wgs)) :=
    (canon_engineWrites (h0 := h0) (h1 := h1)).2.2

theorem canon_engineReads {x0 : State} {x1 : Workgroup} {x2 : Copy} {x3 : Nat} {x4 : Nat → Nat} {x5 : Nat} {x6 : Nat}
    (h0 : Canon x0.mem x0.wgs) (h1 : x1.sp.wf = true) : (∀ z0_0 z0_1, (engineReads x0 x1 x2 x3 x4 x5 x6) = .ok z0_0
    z0_1 → (Canon z0_0.mem z0_0.wgs)) ∧ (∀ z0_0 z0_1 z0_2, (engineReads x0 x1 x2 x3 x4 x5 x6) = .miss z0_0 z0_1 z0_2 →
    (Canon z0_0.mem z0_0.wgs)) ∧ (∀ z0_0 z0_1, (engineReads x0 x1 x2 x3 x4 x5 x6) = .err z0_0 z0_1 → (Canon z0_0.mem
    z0_0.wgs)) := by
  fun_induction engineReads x0 x1 x2 x3 x4 x5 x6 <;> grind -ring -linarith -lia [canon_engineReadSpan_1,
      canon_engineReadSpan_2, canon_engineReadSpan_3]

theorem canon_engineReads_1 {x0 : State} {x1 : Workgroup} {x2 : Copy} {x3 : Nat} {x4 : Nat → Nat} {x5 : Nat} {x6 :
    Nat} (h0 : Canon x0.mem x0.wgs) (h1 : x1.sp.wf = true) : (∀ z0_0 z0_1, (engineReads x0 x1 x2 x3 x4 x5 x6) = .ok
    z0_0 z0_1 → (Canon z0_0.mem z0_0.wgs)) := (canon_engineReads (h0 := h0) (h1 := h1)).1

theorem canon_engineReads_2 {x0 : State} {x1 : Workgroup} {x2 : Copy} {x3 : Nat} {x4 : Nat → Nat} {x5 : Nat} {x6 :
    Nat} (h0 : Canon x0.mem x0.wgs) (h1 : x1.sp.wf = true) : (∀ z0_0 z0_1 z0_2, (engineReads x0 x1 x2 x3 x4 x5 x6) =
    .miss z0_0 z0_1 z0_2 → (Canon z0_0.mem z0_0.wgs)) := (canon_engineReads (h0 := h0) (h1 := h1)).2.1

theorem canon_engineReads_3 {x0 : State} {x1 : Workgroup} {x2 : Copy} {x3 : Nat} {x4 : Nat → Nat} {x5 : Nat} {x6 :
    Nat} (h0 : Canon x0.mem x0.wgs) (h1 : x1.sp.wf = true) : (∀ z0_0 z0_1, (engineReads x0 x1 x2 x3 x4 x5 x6) = .err
    z0_0 z0_1 → (Canon z0_0.mem z0_0.wgs)) := (canon_engineReads (h0 := h0) (h1 := h1)).2.2

theorem canon_State_setCall {x0 : State} {x1 : Call} (h0 : Canon x0.mem x0.wgs) : Canon (State.setCall x0 x1).mem
    (State.setCall x0 x1).wgs := by
  exact h0

theorem canon_endMember {x0 : State} {x1 : Call} {x2 : Nat} {x3 : Nat} (h0 : Canon x0.mem x0.wgs) : Canon (endMember
    x0 x1 x2 x3).mem (endMember x0 x1 x2 x3).wgs := by
  unfold endMember
  split
  · split
    · exact h0
    · simp only
      split
      · rename_i g e
        have h1 := canon_State_setCall (x1 := { x1 with failed := true, failWord := x3 }) h0
        have hg := wg_canon h1 e
        split
        · split <;> rename_i e <;> refine canon_State_setCopy ?_
          · exact canon_engineWrites_1 h1 hg _ _ e
          · exact canon_engineWrites_2 h1 hg _ _ _ e
          · exact canon_engineWrites_3 h1 hg _ _ e
        · exact canon_State_setCopy h1
      · exact canon_State_setCopy (canon_State_setCall h0)
  · exact h0

theorem canon_failMember {x0 : State} {x1 : Call} {x2 : Nat} {x3 : Nat} (h0 : Canon x0.mem x0.wgs) : Canon (failMember
    x0 x1 x2 x3).mem (failMember x0 x1 x2 x3).wgs := by
  unfold failMember; grind [canon_endMember]

theorem canon_abortGroup {x0 : State} {x1 : Call} (h0 : Canon x0.mem x0.wgs) : Canon (abortGroup x0 x1).mem
    (abortGroup x0 x1).wgs := by
  unfold abortGroup; exact foldl_canon (fun s j h => canon_endMember h) _ h0

theorem canon_failGroup {x0 : State} {x1 : Call} {x2 : Nat} {x3 : Nat} (h0 : Canon x0.mem x0.wgs) : Canon (failGroup
    x0 x1 x2 x3).mem (failGroup x0 x1 x2 x3).wgs := by
  unfold failGroup; grind -ring -linarith -lia [canon_failMember, foldl_canon]

theorem canon_memberRes {α : Type} {x1 : Workgroup} {x2 : Copy} {x3 : Call} {x4 : CopyRes α} {x5 : State → α → State}
    (h1 : x1.sp.wf = true) (h4a : ∀ z0_0 z0_1, x4 = .ok z0_0 z0_1 → (Canon z0_0.mem z0_0.wgs)) (h4b : ∀ z0_0 z0_1
    z0_2, x4 = .miss z0_0 z0_1 z0_2 → (Canon z0_0.mem z0_0.wgs)) (h4c : ∀ z0_0 z0_1, x4 = .err z0_0 z0_1 → (Canon
    z0_0.mem z0_0.wgs)) (h5 : ∀ (y0_0 : State) (y0_1 : α), (Canon y0_0.mem y0_0.wgs) → Canon (x5 y0_0 y0_1).mem (x5
    y0_0 y0_1).wgs) : Canon (memberRes x1 x2 x3 x4 x5).mem (memberRes x1 x2 x3 x4 x5).wgs := by
  unfold memberRes; grind -ring -linarith -lia [canon_parkCopy, canon_failGroup]

theorem canon_activeCall {x0 : State} {x1 : Nat} (h0 : Canon x0.mem x0.wgs) : ∀ y0, (activeCall x0 x1) = some y0 →
    ((y0.1).sp.wf = true) := by
  unfold activeCall; grind -ring -linarith -lia [canon_State_wg]

theorem canon_ensureRemotes {x0 : State} {x1 : Call} (h0 : Canon x0.mem x0.wgs) : Canon (ensureRemotes x0 x1).mem
    (ensureRemotes x0 x1).wgs := by
  unfold ensureRemotes
  refine foldl_canon (fun s r h => ?_) _ h0
  split <;> exact h

theorem canon_execRendezvousPost {x0 : Nat} {x1 : State} (h1 : Canon x1.mem x1.wgs) : ∀ y0, (execRendezvousPost x0 x1)
    = .next y0 → (Canon y0.mem y0.wgs) := by
  unfold execRendezvousPost
  intro y hy
  cases hy
  split
  · rename_i g c k e
    have hg := canon_activeCall h1 _ e
    refine canon_State_onBehalf h1 (fun s hs => ?_)
    simp only
    split
    · exact hs
    · split
      · exact canon_failMember hs
      · refine canon_memberRes hg (canon_engineReads_1 hs hg) (canon_engineReads_2 hs hg) (canon_engineReads_3 hs hg)
          (fun s xs hs => ?_)
        refine canon_memberRes hg (canon_engineReads_1 hs hg) (canon_engineReads_2 hs hg) (canon_engineReads_3 hs hg)
            (fun t rs ht => ?_)
        exact canon_memberRes hg (canon_engineWrites_1 ht hg) (canon_engineWrites_2 ht hg) (canon_engineWrites_3 ht hg)
          (fun s l h => canon_ensureRemotes (canon_State_setCall (canon_State_setCopy h)))
  · exact h1

theorem canon_failPair {x0 : State} {x1 : Call} {x2 : Nat} (h0 : Canon x0.mem x0.wgs) : Canon (failPair x0 x1 x2).mem
    (failPair x0 x1 x2).wgs := by
  unfold failPair; grind -ring -linarith -lia [canon_failMember, canon_failGroup]

theorem canon_execPullRequest {x0 : Nat} {x1 : Bool} {x2 : Nat} {x3 : State} (h3 : Canon x3.mem x3.wgs) : ∀ y0,
    (execPullRequest x0 x1 x2 x3) = .next y0 → (Canon y0.mem y0.wgs) := by
  unfold execPullRequest; grind -ring -linarith -lia [canon_activeCall, canon_failPair, canon_failGroup,
      canon_State_setCall]

theorem canon_execPullData {x0 : Nat} {x1 : Bool} {x2 : Nat} {x3 : State} (h3 : Canon x3.mem x3.wgs) : ∀ y0,
    (execPullData x0 x1 x2 x3) = .next y0 → (Canon y0.mem y0.wgs) := by
  unfold execPullData
  intro y hy
  cases hy
  split
  · rename_i g c k e
    have hg := canon_activeCall h3 _ e
    repeat' split
    all_goals first
      | exact h3
      | exact canon_State_onBehalf h3 (fun s hs => canon_memberRes hg (canon_engineWrites_1 hs hg)
          (canon_engineWrites_2 hs hg)
          (canon_engineWrites_3 hs hg) (fun s l h => canon_State_setCall (canon_State_setCopy h)))
  · exact h3

theorem canon_failCut {x0 : State} {x1 : Call} (h0 : Canon x0.mem x0.wgs) : Canon (failCut x0 x1).mem (failCut x0
    x1).wgs := by
  unfold failCut; exact canon_failGroup (foldl_canon (fun s j h => canon_failMember h) _ h0)

theorem canon_execFlagUnion {x0 : Nat} {x1 : State} (h1 : Canon x1.mem x1.wgs) : ∀ y0, (execFlagUnion x0 x1) = .next
    y0 → (Canon y0.mem y0.wgs) := by
  unfold execFlagUnion; grind -ring -linarith -lia [→ canon_activeCall, canon_failGroup, canon_failCut,
      canon_State_onBehalf, canon_memberRes, → canon_engineWrites_1, → canon_engineWrites_2, → canon_engineWrites_3,
      canon_State_setCall, canon_State_setCopy]

/-! ### Convoys -/

theorem canon_runJoin {x0 : State} {x1 : Instr} {x2 : BitVec 6} {x3 : BitVec 6} {x4 : BitVec 3} {x5 : Bool} (h0 :
    Canon x0.mem x0.wgs) : ∀ y0, (runJoin x0 x1 x2 x3 x4 x5) = .next y0 → (Canon y0.mem y0.wgs) := by
  unfold runJoin; grind -ring -linarith -lia [canon_runNamed, canon_State_noteConvoy, canon_State_setConvoy, canon_retire]

theorem canon_execCvjoin {x0 : BitVec 6} {x1 : BitVec 6} {x2 : BitVec 3} {x3 : State} (h3 : Canon x3.mem x3.wgs) : ∀
    y0, (execCvjoin x0 x1 x2 x3) = .next y0 → (Canon y0.mem y0.wgs) := by
  unfold execCvjoin; exact canon_runJoin (by assumption)

theorem canon_execCvrejoin {x0 : BitVec 6} {x1 : BitVec 6} {x2 : BitVec 3} {x3 : State} (h3 : Canon x3.mem x3.wgs) : ∀
    y0, (execCvrejoin x0 x1 x2 x3) = .next y0 → (Canon y0.mem y0.wgs) := by
  unfold execCvrejoin; exact canon_runJoin (by assumption)

theorem canon_execCvleave {x0 : BitVec 6} {x1 : BitVec 3} {x2 : State} (h2 : Canon x2.mem x2.wgs) : ∀ y0, (execCvleave
    x0 x1 x2) = .next y0 → (Canon y0.mem y0.wgs) := by
  unfold execCvleave; grind -ring -linarith -lia [canon_runNamed, canon_leaveConvoy, canon_retire]

theorem canon_execCvslip {x0 : BitVec 6} {x1 : BitVec 6} {x2 : State} (h2 : Canon x2.mem x2.wgs) : ∀ y0, (execCvslip
    x0 x1 x2) = .next y0 → (Canon y0.mem y0.wgs) := by
  unfold execCvslip; grind -ring -linarith -lia [canon_runNamed, canon_retire]

theorem canon_reevaluate {x0 : State} {x1 : Nat} {x2 : Nat} {x3 : Member} (h0 : Canon x0.mem x0.wgs) : Canon
    (reevaluate x0 x1 x2 x3).mem (reevaluate x0 x1 x2 x3).wgs := by
  unfold reevaluate; grind -ring -linarith -lia [canon_State_noteConvoy, canon_endHold, canon_endStreamHold]

theorem canon_detachStalled {x0 : State} {x1 : Nat} {x2 : Nat} {x3 : Convoy} {x4 : Member} (h0 : Canon x0.mem x0.wgs)
    : Canon (detachStalled x0 x1 x2 x3 x4).mem (detachStalled x0 x1 x2 x3 x4).wgs := by
  unfold detachStalled
  refine canon_State_updMember (foldl_canon (fun s x h => ?_) _ h0)
  split
  · exact canon_State_updMember h
  · exact canon_detachMember h

theorem canon_expire {x0 : State} {x1 : Nat} {x2 : WRef} {x3 : Nat} {x4 : Nat} (h0 : Canon x0.mem x0.wgs) : Canon
    (expire x0 x1 x2 x3 x4).mem (expire x0 x1 x2 x3 x4).wgs := by
  unfold expire; grind -ring -linarith -lia [canon_detachStalled, canon_endHold, canon_State_updMember,
      canon_endStreamHold, foldl_canon]

theorem canon_expireHolds {x0 : State} {x1 : WRef} {x2 : Nat} (h0 : Canon x0.mem x0.wgs) : Canon (expireHolds x0 x1
    x2).mem (expireHolds x0 x1 x2).wgs := by
  unfold expireHolds
  repeat' split
  all_goals first | exact h0 | exact foldl_canon (fun _ _ h => canon_expire h) _ h0

theorem canon_execPatienceExpiry {x0 : WRef} {x1 : State} (h1 : Canon x1.mem x1.wgs) : ∀ y0, (execPatienceExpiry x0
    x1) = .next y0 → (Canon y0.mem y0.wgs) := by
  unfold execPatienceExpiry; grind -ring -linarith -lia [canon_State_wg, canon_expireHolds, foldl_canon]

theorem canon_execConvoyReevaluate {x0 : Nat} {x1 : Nat} {x2 : State} (h2 : Canon x2.mem x2.wgs) : ∀ y0,
    (execConvoyReevaluate x0 x1 x2) = .next y0 → (Canon y0.mem y0.wgs) := by
  unfold execConvoyReevaluate; grind -ring -linarith -lia [canon_expire, canon_reevaluate, foldl_canon]

theorem canon_endConvoyTick {x0 : State} {x1 : Nat} (h0 : Canon x0.mem x0.wgs) : Canon (endConvoyTick x0 x1).mem
    (endConvoyTick x0 x1).wgs := by
  unfold endConvoyTick
  have h1 := foldl_canon (f := fun s (m : Member) => expireHolds s m.w (x0.die x1).tick) (fun _ _ h =>
      canon_expireHolds h)
    (((((x0.die x1).slots.flatMap (fun c => c.2.members.filter (·.held))).filter
      (fun m => decide (m.hstart + m.limit ≤ (x0.die x1).tick))).foldr byLimit [])) h0
  simp only
  split
  · exact h1
  · exact foldl_canon (fun _ _ h => foldl_canon (fun _ _ h => canon_reevaluate h) _ h) _ h1

theorem canon_execConvoySlotWrite {x0 : Nat} {x1 : Nat} {x2 : BitVec 64} {x3 : State} (h3 : Canon x3.mem x3.wgs) : ∀
    y0, (execConvoySlotWrite x0 x1 x2 x3) = .next y0 → (Canon y0.mem y0.wgs) := by
  unfold execConvoySlotWrite; grind -ring -linarith -lia [canon_State_setConvoy, canon_detachMember, foldl_canon]

/-! ### Cross -/

theorem canon_runMove {x0 : State} {x1 : Instr} {x2 : BitVec 7} {x3 : BitVec 7} {x4 : BitVec 1} {x5 : LaneCtx → Nat →
    LaneSrc} (h0 : Canon x0.mem x0.wgs) : ∀ y0, (runMove x0 x1 x2 x3 x4 x5) = .next y0 → (Canon y0.mem y0.wgs) := by
  unfold runMove; exact canon_runLane (by assumption)

theorem canon_execVshuf {x0 : BitVec 7} {x1 : BitVec 7} {x2 : BitVec 1} {x3 : BitVec 3} {x4 : BitVec 2} {x5 : State}
    (h5 : Canon x5.mem x5.wgs) : ∀ y0, (execVshuf x0 x1 x2 x3 x4 x5) = .next y0 → (Canon y0.mem y0.wgs) := by
  unfold execVshuf; exact canon_runMove (by assumption)

theorem canon_execVshufi {x0 : BitVec 7} {x1 : BitVec 7} {x2 : BitVec 1} {x3 : BitVec 3} {x4 : BitVec 5} {x5 : State}
    (h5 : Canon x5.mem x5.wgs) : ∀ y0, (execVshufi x0 x1 x2 x3 x4 x5) = .next y0 → (Canon y0.mem y0.wgs) := by
  unfold execVshufi; exact canon_runMove (by assumption)

theorem canon_execVlsh {x0 : BitVec 7} {x1 : BitVec 7} {x2 : BitVec 1} {x3 : BitVec 3} {x4 : BitVec 1} {x5 : BitVec 5}
    {x6 : State} (h6 : Canon x6.mem x6.wgs) : ∀ y0, (execVlsh x0 x1 x2 x3 x4 x5 x6) = .next y0 → (Canon y0.mem y0.wgs)
    := by
  unfold execVlsh; exact canon_runMove (by assumption)

theorem canon_execVbcst {x0 : BitVec 7} {x1 : BitVec 7} {x2 : BitVec 1} {x3 : BitVec 3} {x4 : BitVec 5} {x5 : State}
    (h5 : Canon x5.mem x5.wgs) : ∀ y0, (execVbcst x0 x1 x2 x3 x4 x5) = .next y0 → (Canon y0.mem y0.wgs) := by
  unfold execVbcst; exact canon_runMove (by assumption)

theorem canon_execVsubel {x0 : BitVec 7} {x1 : BitVec 7} {x2 : BitVec 5} {x3 : State} (h3 : Canon x3.mem x3.wgs) : ∀
    y0, (execVsubel x0 x1 x2 x3) = .next y0 → (Canon y0.mem y0.wgs) := by
  unfold execVsubel; exact canon_runLane (by assumption)

theorem canon_execVballot {x0 : BitVec 7} {x1 : BitVec 3} {x2 : BitVec 3} {x3 : State} (h3 : Canon x3.mem x3.wgs) : ∀
    y0, (execVballot x0 x1 x2 x3) = .next y0 → (Canon y0.mem y0.wgs) := by
  unfold execVballot; exact canon_runLane (by assumption)

theorem canon_execVred {x0 : BitVec 7} {x1 : BitVec 7} {x2 : BitVec 3} {x3 : BitVec 3} {x4 : State} (h4 : Canon x4.mem
    x4.wgs) : ∀ y0, (execVred x0 x1 x2 x3 x4) = .next y0 → (Canon y0.mem y0.wgs) := by
  unfold execVred; exact canon_runLane (by assumption)

theorem canon_execVscan {x0 : BitVec 7} {x1 : BitVec 7} {x2 : BitVec 3} {x3 : BitVec 1} {x4 : BitVec 3} {x5 : State}
    (h5 : Canon x5.mem x5.wgs) : ∀ y0, (execVscan x0 x1 x2 x3 x4 x5) = .next y0 → (Canon y0.mem y0.wgs) := by
  unfold execVscan; exact canon_runLane (by assumption)

theorem canon_execVcav {x0 : BitVec 7} {x1 : BitVec 7} {x2 : BitVec 3} {x3 : BitVec 3} {x4 : State} (h4 : Canon x4.mem
    x4.wgs) : ∀ y0, (execVcav x0 x1 x2 x3 x4) = .next y0 → (Canon y0.mem y0.wgs) := by
  unfold execVcav; exact canon_runLane (by assumption)

theorem canon_findPartner {x0 : State} {x1 : Workgroup} {x2 : Nat} (h0 : Canon x0.mem x0.wgs) (h1 : x1.sp.wf = true) :
    ∀ y0, (findPartner x0 x1 x2) = some y0 → ((y0.2).sp.wf = true) := by
  unfold findPartner; exact fun y hy => h0.find hy

theorem canon_finishSwap {x0 : State} {x1 : WRef} {x2 : Mask × BitVec 7 × Bool × Option (Nat × Bool)} {x3 : Mask} {x4
    : BitVec 5} {x5 : List Reg} (h0 : Canon x0.mem x0.wgs) : Canon (finishSwap x0 x1 x2 x3 x4 x5).mem (finishSwap x0
    x1 x2 x3 x4 x5).wgs := by
  unfold finishSwap; grind -ring -linarith -lia [canon_State_wg, canon_prefetch, canon_advanceMember, canon_retire]

theorem canon_holdSwap {x0 : State} {x1 : Nat} {x2 : WRef} {x3 : Warp} {x4 : Mask} {x5 : Nat} (h0 : Canon x0.mem
    x0.wgs) : Canon (holdSwap x0 x1 x2 x3 x4 x5).mem (holdSwap x0 x1 x2 x3 x4 x5).wgs := by
  unfold holdSwap; grind -ring -linarith -lia [canon_holdStream, canon_State_setWarp, canon_State_updWarp]

theorem canon_pairSwap {x0 : State} {x1 : WRef} (h0 : Canon x0.mem x0.wgs) : Canon (pairSwap x0 x1).mem (pairSwap x0
    x1).wgs := by
  unfold pairSwap
  repeat' (split; try exact h0)
  all_goals (try simp only)
  all_goals (try split)
  all_goals first
    | exact h0
    | exact canon_finishSwap (canon_finishSwap h0)
    | exact canon_holdSwap h0
    | exact canon_holdSwap (canon_holdSwap h0)
    | (split <;> first
      | exact canon_finishSwap (canon_finishSwap h0)
      | exact canon_holdSwap h0
      | exact canon_holdSwap (canon_holdSwap h0))

theorem canon_retrySwaps {x0 : State} {x1 : Nat} (h0 : Canon x0.mem x0.wgs) : Canon (retrySwaps x0 x1).mem (retrySwaps
    x0 x1).wgs := by
  unfold retrySwaps; exact foldl_canon (fun s r h => canon_pairSwap h) _ h0

theorem canon_postSwap {x0 : State} {x1 : WRef} {x2 : Warp} {x3 : Nat} {x4 : Nat} {x5 : Mask} {x6 : BitVec 5} {x7 :
    List Reg} {x8 : BitVec 7} {x9 : Bool} {x10 : Option (Nat × Bool)} (h0 : Canon x0.mem x0.wgs) : Canon (postSwap x0
    x1 x2 x3 x4 x5 x6 x7 x8 x9 x10).mem (postSwap x0 x1 x2 x3 x4 x5 x6 x7 x8 x9 x10).wgs := by
  unfold postSwap; grind -ring -linarith -lia [canon_pairSwap, canon_State_setWarp]

theorem canon_execVxswap {x0 : BitVec 7} {x1 : BitVec 7} {x2 : BitVec 1} {x3 : BitVec 5} {x4 : State} (h4 : Canon
    x4.mem x4.wgs) : ∀ y0, (execVxswap x0 x1 x2 x3 x4) = .next y0 → (Canon y0.mem y0.wgs) := by
  unfold execVxswap; grind -ring -linarith -lia [canon_runNamed, canon_preciseTrap, canon_State_setWarp,
      canon_postSwap, canon_consumeStop, canon_consumeEach, canon_prefetch, canon_advanceMember,
      canon_retireWithRecords]

theorem canon_swapPartnerGone {x0 : State} {x1 : Workgroup} {x2 : Nat → Bool} (h0 : Canon x0.mem x0.wgs) (h1 :
    x1.sp.wf = true) : Canon (swapPartnerGone x0 x1 x2).mem (swapPartnerGone x0 x1 x2).wgs := by
  unfold swapPartnerGone; grind -ring -linarith -lia [canon_State_setWarp, canon_preciseTrap, foldl_canon]

/-! ### Pipes -/

theorem canon_State_setPipe {x0 : State} {x1 : Nat} {x2 : Nat} {x3 : Pipe} (h0 : Canon x0.mem x0.wgs) : Canon
    (State.setPipe x0 x1 x2 x3).mem (State.setPipe x0 x1 x2 x3).wgs := by
  exact h0

theorem canon_ringFailed {x0 : State} {x1 : Nat} {x2 : Nat} {x3 : Nat} (h0 : Canon x0.mem x0.wgs) : Canon (ringFailed
    x0 x1 x2 x3).mem (ringFailed x0 x1 x2 x3).wgs := by
  exact h0

theorem canon_refill {x0 : State} {x1 : Nat} {x2 : Nat} {x3 : Nat} (h0 : Canon x0.mem x0.wgs) : Canon (refill x0 x1 x2
    x3).mem (refill x0 x1 x2 x3).wgs := by
  fun_induction refill x0 x1 x2 x3 <;> grind -ring -linarith -lia [canon_State_setPipe, canon_ringFailed, canon_mergeRead]

theorem canon_pushEntries {x0 : State} {x1 : Nat} {x2 : Nat} {x3 : List Reg} (h0 : Canon x0.mem x0.wgs) : Canon
    (pushEntries x0 x1 x2 x3).mem (pushEntries x0 x1 x2 x3).wgs := by
  unfold pushEntries
  simp only
  split
  · exact canon_ringFailed h0
  · exact canon_State_setPipe (foldl_canon (fun _ _ h => canon_chanWrite h) _ h0)

theorem canon_popOne {x0 : State} {x1 : Nat} {x2 : Nat} (h0 : Canon x0.mem x0.wgs) : ∀ y0, (popOne x0 x1 x2) = some y0
    → (Canon (y0.2).mem (y0.2).wgs) := by
  unfold popOne
  intro y e
  obtain ⟨x, _, rfl⟩ := Option.map_eq_some_iff.1 e
  exact canon_refill (canon_State_setPipe h0)

theorem canon_holdOne {x0 : State} {x1 : Nat} {x2 : Nat} {x3 : WRef} (h0 : Canon x0.mem x0.wgs) : ∀ y0, (holdOne x0 x1
    x2 x3) = some y0 → (Canon y0.mem y0.wgs) := by
  unfold holdOne
  intro y e
  obtain ⟨x, _, rfl⟩ := Option.map_eq_some_iff.1 e
  exact canon_State_setPipe h0

theorem canon_servePopper {x0 : State} {x1 : Popper} {x2 : Reg} (h0 : Canon x0.mem x0.wgs) : Canon (servePopper x0 x1
    x2).mem (servePopper x0 x1 x2).wgs := by
  unfold servePopper; grind -ring -linarith -lia [canon_State_wg, canon_retire]

theorem canon_serveHeld {x0 : State} {x1 : Nat} {x2 : Nat} {x3 : Popper} (h0 : Canon x0.mem x0.wgs) : Canon (serveHeld
    x0 x1 x2 x3).mem (serveHeld x0 x1 x2 x3).wgs := by
  unfold serveHeld; grind -ring -linarith -lia [canon_servePopper, canon_refill, canon_State_setPipe]

theorem canon_deliver {x0 : State} {x1 : Nat} {x2 : Nat} {x3 : Nat} (h0 : Canon x0.mem x0.wgs) : Canon (deliver x0 x1
    x2 x3).mem (deliver x0 x1 x2 x3).wgs := by
  fun_induction deliver x0 x1 x2 x3 <;> grind -ring -linarith -lia [canon_holdOne, canon_serveHeld, → canon_popOne,
      canon_servePopper]

theorem canon_failPoppers {x0 : State} {x1 : Nat} {x2 : Nat} (h0 : Canon x0.mem x0.wgs) : Canon (failPoppers x0 x1
    x2).mem (failPoppers x0 x1 x2).wgs := by
  unfold failPoppers; grind -ring -linarith -lia [canon_State_wg, canon_preciseTrap, foldl_canon]

theorem canon_settlePipe {x0 : State} {x1 : Nat} {x2 : Nat} (h0 : Canon x0.mem x0.wgs) : Canon (settlePipe x0 x1
    x2).mem (settlePipe x0 x1 x2).wgs := by
  unfold settlePipe; grind -ring -linarith -lia [canon_failPoppers, canon_deliver]

theorem canon_onQueue {x0 : State} {x1 : Instr} {x2 : BitVec 3} {x3 : State → WRef → Workgroup → Warp → Nat → State}
    (h0 : Canon x0.mem x0.wgs) (h3 : ∀ (y0_0 : State) (y0_1 : WRef) (y0_2 : Workgroup) (y0_3 : Warp) (y0_4 : Nat),
    (Canon y0_0.mem y0_0.wgs) → (y0_2.sp.wf = true) → Canon (x3 y0_0 y0_1 y0_2 y0_3 y0_4).mem (x3 y0_0 y0_1 y0_2 y0_3
    y0_4).wgs) : ∀ y0, (onQueue x0 x1 x2 x3) = .next y0 → (Canon y0.mem y0.wgs) := by
  unfold onQueue; grind -ring -linarith -lia [canon_runNamed, canon_preciseTrap]

theorem canon_execQbind {x0 : BitVec 6} {x1 : BitVec 3} {x2 : State} (h2 : Canon x2.mem x2.wgs) : ∀ y0, (execQbind x0
    x1 x2) = .next y0 → (Canon y0.mem y0.wgs) := by
  unfold execQbind; grind -ring -linarith -lia [canon_runNamed, canon_retire, canon_preciseTrap]

theorem canon_pushAll {x0 : State} {x1 : WRef} {x2 : Workgroup} {x3 : Warp} {x4 : Nat} {x5 : List Reg} (h0 : Canon
    x0.mem x0.wgs) (h2 : x2.sp.wf = true) : Canon (pushAll x0 x1 x2 x3 x4 x5).mem (pushAll x0 x1 x2 x3 x4 x5).wgs :=
    by
  unfold pushAll; grind -ring -linarith -lia [canon_preciseTrap, canon_failPoppers, canon_pushEntries, canon_retire,
      foldl_canon]

theorem canon_execQpush {x0 : BitVec 6} {x1 : BitVec 3} {x2 : State} (h2 : Canon x2.mem x2.wgs) : ∀ y0, (execQpush x0
    x1 x2) = .next y0 → (Canon y0.mem y0.wgs) := by
  unfold execQpush; grind -ring -linarith -lia [canon_onQueue, canon_pushAll]

theorem canon_execQpushv {x0 : BitVec 6} {x1 : BitVec 5} {x2 : BitVec 3} {x3 : State} (h3 : Canon x3.mem x3.wgs) : ∀
    y0, (execQpushv x0 x1 x2 x3) = .next y0 → (Canon y0.mem y0.wgs) := by
  unfold execQpushv; grind -ring -linarith -lia [canon_onQueue, canon_pushAll]

theorem canon_execQpop {x0 : BitVec 6} {x1 : BitVec 3} {x2 : State} (h2 : Canon x2.mem x2.wgs) : ∀ y0, (execQpop x0 x1
    x2) = .next y0 → (Canon y0.mem y0.wgs) := by
  unfold execQpop; grind -ring -linarith -lia [canon_onQueue, → canon_popOne, canon_failPoppers, canon_retire,
      canon_waitAt]

theorem canon_tryPop {x0 : State} {x1 : WRef} {x2 : Workgroup} {x3 : Warp} {x4 : Nat} {x5 : Nat} (h0 : Canon x0.mem
    x0.wgs) (h2 : x2.sp.wf = true) : Canon (tryPop x0 x1 x2 x3 x4 x5).mem (tryPop x0 x1 x2 x3 x4 x5).wgs := by
  unfold tryPop; grind -ring -linarith -lia [→ canon_popOne, canon_failPoppers, canon_retire]

theorem canon_execQtry {x0 : BitVec 6} {x1 : BitVec 3} {x2 : State} (h2 : Canon x2.mem x2.wgs) : ∀ y0, (execQtry x0 x1
    x2) = .next y0 → (Canon y0.mem y0.wgs) := by
  unfold execQtry; grind -ring -linarith -lia [canon_onQueue, canon_tryPop]

theorem canon_execQsteal {x0 : BitVec 6} {x1 : BitVec 6} {x2 : State} (h2 : Canon x2.mem x2.wgs) : ∀ y0, (execQsteal
    x0 x1 x2) = .next y0 → (Canon y0.mem y0.wgs) := by
  unfold execQsteal; grind -ring -linarith -lia [canon_runNamed, canon_tryPop, canon_preciseTrap]

theorem canon_execQlen {x0 : BitVec 6} {x1 : BitVec 3} {x2 : State} (h2 : Canon x2.mem x2.wgs) : ∀ y0, (execQlen x0 x1
    x2) = .next y0 → (Canon y0.mem y0.wgs) := by
  unfold execQlen; grind -ring -linarith -lia [canon_onQueue, canon_retire]

theorem canon_execPipeEntryAvailable {x0 : Nat} {x1 : Nat} {x2 : State} (h2 : Canon x2.mem x2.wgs) : ∀ y0,
    (execPipeEntryAvailable x0 x1 x2) = .next y0 → (Canon y0.mem y0.wgs) := by
  unfold execPipeEntryAvailable; grind -ring -linarith -lia [canon_settlePipe, canon_State_setPipe]

theorem canon_execPipeDescriptorWrite {x0 : Nat} {x1 : Nat} {x2 : Nat} {x3 : BitVec 64} {x4 : State} (h4 : Canon
    x4.mem x4.wgs) : ∀ y0, (execPipeDescriptorWrite x0 x1 x2 x3 x4) = .next y0 → (Canon y0.mem y0.wgs) := by
  unfold execPipeDescriptorWrite; grind -ring -linarith -lia [canon_failPoppers, canon_State_setPipe]

/-! ### Matrix -/

theorem canon_State_updEngine {x0 : State} {x1 : Nat} {x2 : List EngineJob → List EngineJob} (h0 : Canon x0.mem
    x0.wgs) : Canon (State.updEngine x0 x1 x2).mem (State.updEngine x0 x1 x2).wgs := by
  exact h0

theorem canon_State_updTeams {x0 : State} {x1 : Nat} {x2 : List Team → List Team} (h0 : Canon x0.mem x0.wgs) : Canon
    (State.updTeams x0 x1 x2).mem (State.updTeams x0 x1 x2).wgs := by
  exact h0

theorem canon_leaveEngine {x0 : State} {x1 : WRef} {x2 : MatrixRun} (h0 : Canon x0.mem x0.wgs) : Canon (leaveEngine x0
    x1 x2).mem (leaveEngine x0 x1 x2).wgs := by
  unfold leaveEngine; grind -ring -linarith -lia [canon_State_updEngine, canon_State_updTeams]

theorem canon_releaseParked {x0 : State} {x1 : WRef} (h0 : Canon x0.mem x0.wgs) : Canon (releaseParked x0 x1).mem
    (releaseParked x0 x1).wgs := by
  unfold releaseParked; grind -ring -linarith -lia [canon_State_wg, canon_State_setWarp, canon_pairSwap, canon_settlePipe]

theorem canon_endMatrix {x0 : State} {x1 : WRef} {x2 : MatrixRun} {x3 : Reg} {x4 : List FaultRec} (h0 : Canon x0.mem
    x0.wgs) : Canon (endMatrix x0 x1 x2 x3 x4).mem (endMatrix x0 x1 x2 x3 x4).wgs := by
  unfold endMatrix; grind -ring -linarith -lia [canon_leaveEngine, canon_State_updWarp, canon_completeOp,
      canon_releaseParked]

theorem canon_stopTeam {x0 : State} {x1 : WRef} {x2 : MatrixRun} (h0 : Canon x0.mem x0.wgs) : Canon (stopTeam x0 x1
    x2).mem (stopTeam x0 x1 x2).wgs := by
  unfold stopTeam
  split
  · exact h0
  · exact foldl_canon (fun _ _ h => canon_State_updEngine h) _ (canon_State_updTeams h0)

theorem canon_stopMatrix {x0 : State} {x1 : WRef} (h0 : Canon x0.mem x0.wgs) : Canon (stopMatrix x0 x1).mem
    (stopMatrix x0 x1).wgs := by
  unfold stopMatrix; grind -ring -linarith -lia [canon_endMatrix, canon_stopTeam]

theorem canon_faultMatrix {x0 : State} {x1 : WRef} {x2 : Reg} {x3 : Nat} {x4 : Nat} (h0 : Canon x0.mem x0.wgs) : Canon
    (faultMatrix x0 x1 x2 x3 x4).mem (faultMatrix x0 x1 x2 x3 x4).wgs := by
  unfold faultMatrix; grind -ring -linarith -lia [canon_endMatrix]

theorem canon_loseTeam {x0 : State} {x1 : Nat} {x2 : Nat} (h0 : Canon x0.mem x0.wgs) : Canon (loseTeam x0 x1 x2).mem
    (loseTeam x0 x1 x2).wgs := by
  unfold loseTeam; grind -ring -linarith -lia [canon_State_draw, canon_faultMatrix, canon_State_updTeams, foldl_canon]

theorem canon_joinTeam {x0 : State} {x1 : Nat} {x2 : Nat} {x3 : List Nat} {x4 : Nat} {x5 : WRef} {x6 : List Reg} (h0 :
    Canon x0.mem x0.wgs) : Canon (joinTeam x0 x1 x2 x3 x4 x5 x6).mem (joinTeam x0 x1 x2 x3 x4 x5 x6).wgs := by
  unfold joinTeam; grind -ring -linarith -lia [canon_State_updTeams, canon_State_updEngine, foldl_canon]

theorem canon_startMatrix {x0 : State} {x1 : WRef} {x2 : Workgroup} {x3 : Warp} {x4 : Option Nat} {x5 : Nat} {x6 :
    Nat} {x7 : Nat} {x8 : Nat} {x9 : Nat} {x10 : Mask} {x11 : Reg} {x12 : Nat} {x13 : Nat} {x14 : Nat} (h0 : Canon
    x0.mem x0.wgs) (h2 : x2.sp.wf = true) : Canon (startMatrix x0 x1 x2 x3 x4 x5 x6 x7 x8 x9 x10 x11 x12 x13 x14).mem
    (startMatrix x0 x1 x2 x3 x4 x5 x6 x7 x8 x9 x10 x11 x12 x13 x14).wgs := by
  unfold startMatrix; grind -ring -linarith -lia [canon_State_updEngine, canon_State_setWarp, canon_joinTeam]

theorem canon_runMatrix {x0 : State} {x1 : Instr} {x2 : BitVec 3} {x3 : BitVec 6} {x4 : BitVec 1} {x5 : BitVec 7} {x6
    : BitVec 2} {x7 : Option Nat} (h0 : Canon x0.mem x0.wgs) : ∀ y0, (runMatrix x0 x1 x2 x3 x4 x5 x6 x7) = .next y0 →
    (Canon y0.mem y0.wgs) := by
  unfold runMatrix; grind -ring -linarith -lia [canon_runNamed, canon_preciseTrap, canon_retire, canon_startMatrix]

theorem canon_execMma {x0 : BitVec 3} {x1 : BitVec 6} {x2 : BitVec 1} {x3 : BitVec 7} {x4 : BitVec 2} {x5 : State} (h5
    : Canon x5.mem x5.wgs) : ∀ y0, (execMma x0 x1 x2 x3 x4 x5) = .next y0 → (Canon y0.mem y0.wgs) := by
  unfold execMma; exact canon_runMatrix (by assumption)

theorem canon_execMmt {x0 : BitVec 3} {x1 : BitVec 6} {x2 : BitVec 1} {x3 : BitVec 7} {x4 : BitVec 2} {x5 : State} (h5
    : Canon x5.mem x5.wgs) : ∀ y0, (execMmt x0 x1 x2 x3 x4 x5) = .next y0 → (Canon y0.mem y0.wgs) := by
  unfold execMmt; exact canon_runMatrix (by assumption)

theorem canon_execMzero {x0 : BitVec 7} {x1 : BitVec 2} {x2 : BitVec 1} {x3 : State} (h3 : Canon x3.mem x3.wgs) : ∀
    y0, (execMzero x0 x1 x2 x3) = .next y0 → (Canon y0.mem y0.wgs) := by
  unfold execMzero; grind -ring -linarith -lia [canon_runNamed, canon_retire]

theorem canon_execMscale {x0 : BitVec 6} {x1 : BitVec 6} {x2 : BitVec 3} {x3 : State} (h3 : Canon x3.mem x3.wgs) : ∀
    y0, (execMscale x0 x1 x2 x3) = .next y0 → (Canon y0.mem y0.wgs) := by
  unfold execMscale; exact canon_runUniform (by assumption)

theorem canon_resumeMatrix {x0 : State} {x1 : WRef} {x2 : Nat} {x3 : Nat} {x4 : Nat} (h0 : Canon x0.mem x0.wgs) :
    Canon (resumeMatrix x0 x1 x2 x3 x4).mem (resumeMatrix x0 x1 x2 x3 x4).wgs := by
  unfold resumeMatrix; grind -ring -linarith -lia [canon_State_wg, canon_fetchAreas, canon_endWithError,
      canon_preciseTrap, canon_startMatrix]

theorem canon_fetchBlocks {x0 : State} {x1 : Workgroup} {x2 : Warp} {x3 : List EngFetch} (h0 : Canon x0.mem x0.wgs)
    (h1 : x1.sp.wf = true) : (∀ z0_0 z0_1, (fetchBlocks x0 x1 x2 x3) = .ok z0_0 z0_1 → (Canon z0_0.mem z0_0.wgs)) ∧ (∀
    z0_0 z0_1, (fetchBlocks x0 x1 x2 x3) = .miss z0_0 z0_1 → (Canon z0_0.mem z0_0.wgs)) ∧ (∀ z0_0 z0_1 z0_2 z0_3,
    (fetchBlocks x0 x1 x2 x3) = .bad z0_0 z0_1 z0_2 z0_3 → (Canon z0_0.mem z0_0.wgs)) := by
  unfold fetchBlocks; grind -ring -linarith -lia [canon_checkAll, canon_readLines, foldl_canon]

theorem canon_fetchBlocks_1 {x0 : State} {x1 : Workgroup} {x2 : Warp} {x3 : List EngFetch} (h0 : Canon x0.mem x0.wgs)
    (h1 : x1.sp.wf = true) : (∀ z0_0 z0_1, (fetchBlocks x0 x1 x2 x3) = .ok z0_0 z0_1 → (Canon z0_0.mem z0_0.wgs)) :=
    (canon_fetchBlocks (h0 := h0) (h1 := h1)).1

theorem canon_fetchBlocks_2 {x0 : State} {x1 : Workgroup} {x2 : Warp} {x3 : List EngFetch} (h0 : Canon x0.mem x0.wgs)
    (h1 : x1.sp.wf = true) : (∀ z0_0 z0_1, (fetchBlocks x0 x1 x2 x3) = .miss z0_0 z0_1 → (Canon z0_0.mem z0_0.wgs)) :=
    (canon_fetchBlocks (h0 := h0) (h1 := h1)).2.1

theorem canon_fetchBlocks_3 {x0 : State} {x1 : Workgroup} {x2 : Warp} {x3 : List EngFetch} (h0 : Canon x0.mem x0.wgs)
    (h1 : x1.sp.wf = true) : (∀ z0_0 z0_1 z0_2 z0_3, (fetchBlocks x0 x1 x2 x3) = .bad z0_0 z0_1 z0_2 z0_3 → (Canon
    z0_0.mem z0_0.wgs)) := (canon_fetchBlocks (h0 := h0) (h1 := h1)).2.2

theorem canon_parkMatrix {x0 : State} {x1 : WRef} {x2 : Workgroup} {x3 : Warp} {x4 : MatrixRun} {x5 : List Nat} (h0 :
    Canon x0.mem x0.wgs) (h2 : x2.sp.wf = true) : Canon (parkMatrix x0 x1 x2 x3 x4 x5).mem (parkMatrix x0 x1 x2 x3 x4
    x5).wgs := by
  exact canon_State_setWarp (canon_sendPages h0 h2)

theorem canon_faultAll {x0 : State} {x1 : WRef} {x2 : MatrixRun} {x3 : Reg} {x4 : Nat} {x5 : Nat} (h0 : Canon x0.mem
    x0.wgs) : Canon (faultAll x0 x1 x2 x3 x4 x5).mem (faultAll x0 x1 x2 x3 x4 x5).wgs := by
  unfold faultAll; grind -ring -linarith -lia [canon_faultMatrix, foldl_canon]

theorem canon_completeTeam {x0 : State} {x1 : Team} (h0 : Canon x0.mem x0.wgs) : Canon (completeTeam x0 x1).mem
    (completeTeam x0 x1).wgs := by
  unfold completeTeam; exact foldl_canon (fun s q h => by grind [canon_endMatrix]) _ h0

theorem canon_blockDone {x0 : State} {x1 : WRef} {x2 : Warp} {x3 : MatrixRun} {x4 : Option Nat} {x5 : Bool} (h0 :
    Canon x0.mem x0.wgs) : Canon (blockDone x0 x1 x2 x3 x4 x5).mem (blockDone x0 x1 x2 x3 x4 x5).wgs := by
  unfold blockDone; grind -ring -linarith -lia [canon_State_setWarp, canon_endMatrix, canon_completeTeam]

theorem canon_keepPanel {x0 : State} {x1 : WRef} {x2 : MatrixRun} {x3 : Nat} {x4 : Table Nat} (h0 : Canon x0.mem
    x0.wgs) : Canon (keepPanel x0 x1 x2 x3 x4).mem (keepPanel x0 x1 x2 x3 x4).wgs := by
  unfold keepPanel; grind -ring -linarith -lia [canon_State_updTeams]

theorem canon_rowBlock {x0 : State} {x1 : WRef} {x2 : Workgroup} {x3 : Warp} {x4 : MatrixRun} (h0 : Canon x0.mem
    x0.wgs) (h2 : x2.sp.wf = true) : Canon (rowBlock x0 x1 x2 x3 x4).mem (rowBlock x0 x1 x2 x3 x4).wgs := by
  unfold rowBlock; grind -ring -linarith -lia [canon_blockDone, canon_fetchBlocks_1, canon_fetchBlocks_2,
      canon_fetchBlocks_3, canon_faultAll, canon_parkMatrix, canon_keepPanel]

theorem canon_execMatrixRowBlock {x0 : WRef} {x1 : State} (h1 : Canon x1.mem x1.wgs) : ∀ y0, (execMatrixRowBlock x0
    x1) = .next y0 → (Canon y0.mem y0.wgs) := by
  unfold execMatrixRowBlock; grind -ring -linarith -lia [canon_loseTeam, canon_State_wg, canon_rowBlock]

/-! ### Power -/

theorem canon_execClockLockDone {x0 : Nat} {x1 : State} (h1 : Canon x1.mem x1.wgs) : ∀ y0, (execClockLockDone x0 x1) =
    .next y0 → (Canon y0.mem y0.wgs) := by
  unfold execClockLockDone; grind -ring -linarith -lia [canon_trySwitch, canon_State_updClk]

theorem canon_endLowering {x0 : State} {x1 : Nat} (h0 : Canon x0.mem x0.wgs) : Canon (endLowering x0 x1).mem
    (endLowering x0 x1).wgs := by
  unfold endLowering; grind -ring -linarith -lia [canon_refreshClock, canon_State_updClk]

theorem canon_execVoltageTargetReached {x0 : Nat} {x1 : State} (h1 : Canon x1.mem x1.wgs) : ∀ y0,
    (execVoltageTargetReached x0 x1) = .next y0 → (Canon y0.mem y0.wgs) := by
  unfold execVoltageTargetReached; grind -ring -linarith -lia [canon_trySwitch, canon_endLowering, foldl_canon]

theorem canon_lowerCap {x0 : State} {x1 : Nat} (h0 : Canon x0.mem x0.wgs) : Canon (lowerCap x0 x1).mem (lowerCap x0
    x1).wgs := by
  exact canon_refreshClock (canon_State_updClk h0)

theorem canon_raiseCap {x0 : State} {x1 : Nat} (h0 : Canon x0.mem x0.wgs) : Canon (raiseCap x0 x1).mem (raiseCap x0
    x1).wgs := by
  exact canon_refreshClock (canon_State_updClk h0)

theorem canon_capRuns {x0 : State} {x1 : Nat} {x2 : Nat} {x3 : Nat} (h0 : Canon x0.mem x0.wgs) : Canon (capRuns x0 x1
    x2 x3).mem (capRuns x0 x1 x2 x3).wgs := by
  unfold capRuns; grind -ring -linarith -lia [canon_lowerCap, canon_State_setPair, canon_raiseCap, foldl_canon]

theorem canon_execBalanceSample {x0 : Nat} {x1 : Nat} {x2 : Nat} {x3 : State} (h3 : Canon x3.mem x3.wgs) : ∀ y0,
    (execBalanceSample x0 x1 x2 x3) = .next y0 → (Canon y0.mem y0.wgs) := by
  unfold execBalanceSample; grind -ring -linarith -lia [canon_capRuns, canon_State_setPair]

theorem canon_relaxClamp {x0 : State} {x1 : Nat} (h0 : Canon x0.mem x0.wgs) : Canon (relaxClamp x0 x1).mem (relaxClamp
    x0 x1).wgs := by
  unfold relaxClamp; grind -ring -linarith -lia [canon_raiseCap, canon_State_updClk]

theorem canon_execPowerSample {x0 : Nat} {x1 : Nat} {x2 : List Nat} {x3 : State} (h3 : Canon x3.mem x3.wgs) : ∀ y0,
    (execPowerSample x0 x1 x2 x3) = .next y0 → (Canon y0.mem y0.wgs) := by
  unfold execPowerSample; grind -ring -linarith -lia [canon_State_setDie, canon_State_updClk, canon_relaxClamp,
      foldl_canon]

theorem canon_clampCluster {x0 : State} {x1 : Nat} (h0 : Canon x0.mem x0.wgs) : Canon (clampCluster x0 x1).mem
    (clampCluster x0 x1).wgs := by
  unfold clampCluster; grind -ring -linarith -lia [canon_State_updClk, canon_refreshClock, canon_trySwitch]

theorem canon_execHardClamp {x0 : Nat} {x1 : Nat} {x2 : State} (h2 : Canon x2.mem x2.wgs) : ∀ y0, (execHardClamp x0 x1
    x2) = .next y0 → (Canon y0.mem y0.wgs) := by
  unfold execHardClamp; grind -ring -linarith -lia [canon_clampCluster, canon_State_setDie, foldl_canon]

theorem canon_execStallWindow {x0 : Nat} {x1 : Nat} {x2 : Nat} {x3 : State} (h3 : Canon x3.mem x3.wgs) : ∀ y0,
    (execStallWindow x0 x1 x2 x3) = .next y0 → (Canon y0.mem y0.wgs) := by
  unfold execStallWindow; grind -ring -linarith -lia [canon_writeRatio]

theorem canon_execGatingIdleExpiry {x0 : Nat} {x1 : State} (h1 : Canon x1.mem x1.wgs) : ∀ y0, (execGatingIdleExpiry x0
    x1) = .next y0 → (Canon y0.mem y0.wgs) := by
  unfold execGatingIdleExpiry; grind -ring -linarith -lia [canon_State_setPair]

theorem canon_gateTile {x0 : State} {x1 : Nat} (h0 : Canon x0.mem x0.wgs) : Canon (gateTile x0 x1).mem (gateTile x0
    x1).wgs := by
  exact canon_State_setTile (canon_invalidateWhere h0)

theorem canon_gateCluster {x0 : State} {x1 : Nat} (h0 : Canon x0.mem x0.wgs) : Canon (gateCluster x0 x1).mem
    (gateCluster x0 x1).wgs := by
  unfold gateCluster; grind -ring -linarith -lia [canon_State_updClk, canon_State_setCluster]

theorem canon_execGatingDone {x0 : Nat} {x1 : State} (h1 : Canon x1.mem x1.wgs) : ∀ y0, (execGatingDone x0 x1) = .next
    y0 → (Canon y0.mem y0.wgs) := by
  unfold execGatingDone; grind -ring -linarith -lia [canon_gateTile, canon_gateCluster, canon_State_setPair, foldl_canon]

theorem canon_wakeClock {x0 : State} {x1 : Nat} (h0 : Canon x0.mem x0.wgs) : Canon (wakeClock x0 x1).mem (wakeClock x0
    x1).wgs := by
  unfold wakeClock; grind -ring -linarith -lia [canon_State_updClk, canon_refreshClock, canon_State_setCluster]

theorem canon_execPairWakeDone {x0 : Nat} {x1 : State} (h1 : Canon x1.mem x1.wgs) : ∀ y0, (execPairWakeDone x0 x1) =
    .next y0 → (Canon y0.mem y0.wgs) := by
  unfold execPairWakeDone; grind -ring -linarith -lia [canon_State_setPair, canon_wakeClock, foldl_canon]

theorem canon_execPairpwrWrite {x0 : Nat} {x1 : BitVec 64} {x2 : State} (h2 : Canon x2.mem x2.wgs) : ∀ y0,
    (execPairpwrWrite x0 x1 x2) = .next y0 → (Canon y0.mem y0.wgs) := by
  unfold execPairpwrWrite; grind -ring -linarith -lia [canon_State_setPair]

theorem canon_execDiepwrWrite {x0 : Nat} {x1 : BitVec 64} {x2 : State} (h2 : Canon x2.mem x2.wgs) : ∀ y0,
    (execDiepwrWrite x0 x1 x2) = .next y0 → (Canon y0.mem y0.wgs) := by
  unfold execDiepwrWrite; grind -ring -linarith -lia [canon_State_setDie]

theorem canon_clkstatWrite {x0 : State} {x1 : Nat} {x2 : BitVec 64} (h0 : Canon x0.mem x0.wgs) : Canon (clkstatWrite
    x0 x1 x2).mem (clkstatWrite x0 x1 x2).wgs := by
  exact canon_refreshClock (canon_State_updClk h0)

/-! ### Launch -/

theorem canon_onPlacement {x0 : State} {x1 : Nat} {x2 : Nat} (h0 : Canon x0.mem x0.wgs) : Canon (onPlacement x0 x1
    x2).mem (onPlacement x0 x1 x2).wgs := by
  unfold onPlacement; grind -ring -linarith -lia [canon_State_setPair, canon_State_setTile, canon_State_setCluster,
      canon_refreshClock]

theorem canon_afterLeaving {x0 : State} {x1 : Nat} {x2 : Nat} {x3 : Nat} (h0 : Canon x0.mem x0.wgs) : Canon
    (afterLeaving x0 x1 x2 x3).mem (afterLeaving x0 x1 x2 x3).wgs := by
  unfold afterLeaving; grind -ring -linarith -lia [canon_writeBackWhere, canon_invalidateWhere, canon_refreshClock,
      canon_State_setCluster]

end Sys2Proof.Laws
end

