-- ==== Sys2Proof/Laws/CanonicalDevice.lean ====
section
/-! SUPPORT. What queues, levels, fetch, control, the dispatcher, rotation, preemption and the memory's events do keeps the canonical form of
memory and of the workgroups' scratchpads. -/

set_option Elab.async false
set_option maxRecDepth 4096

namespace Sys2Proof.Laws

open Sys2Proof.Machine

/-! ### Levels -/

/-- A continued access keeps it where what follows does. -/
theorem canon_andThen {α : Type} {r : IoRes α} {f : α → IoRes State} (hf : ∀ x, r = .ok x → ∀ y, f x = .ok y → Canon
    y.mem y.wgs) :
    ∀ y, r.andThen f = .ok y → Canon y.mem y.wgs := by
  unfold IoRes.andThen; grind

theorem canon_State_setQueue {x0 : State} {x1 : Nat} {x2 : Queue} (h0 : Canon x0.mem x0.wgs) : Canon (State.setQueue
    x0 x1 x2).mem (State.setQueue x0 x1 x2).wgs := by
  exact h0

theorem canon_State_stopQueue {x0 : State} {x1 : Nat} {x2 : Nat} (h0 : Canon x0.mem x0.wgs) : Canon (State.stopQueue
    x0 x1 x2).mem (State.stopQueue x0 x1 x2).wgs := by
  exact h0

theorem canon_queueMiss {x0 : State} {x1 : Nat} {x2 : Nat} {x3 : Nat} {x4 : Nat} {x5 : Nat} (h0 : Canon x0.mem x0.wgs)
    : Canon (queueMiss x0 x1 x2 x3 x4 x5).mem (queueMiss x0 x1 x2 x3 x4 x5).wgs := by
  unfold queueMiss; grind -ring -linarith -lia [canon_State_setQueue, canon_sendMessage]

theorem canon_afterIo {x0 : State} {x1 : Nat} {x2 : Nat} {x3 : Nat} {x4 : IoRes State} (h0 : Canon x0.mem x0.wgs) (h4
    : ∀ y0, x4 = .ok y0 → (Canon y0.mem y0.wgs)) : Canon (afterIo x0 x1 x2 x3 x4).mem (afterIo x0 x1 x2 x3 x4).wgs :=
    by
  unfold afterIo; grind -ring -linarith -lia [canon_State_setQueue, canon_queueMiss, canon_State_stopQueue]

theorem canon_queueWrite {x0 : State} {x1 : Nat} {x2 : Nat} {x3 : Nat} (h0 : Canon x0.mem x0.wgs) : Canon (queueWrite
    x0 x1 x2 x3).mem (queueWrite x0 x1 x2 x3).wgs := by
  unfold queueWrite; grind -ring -linarith -lia [canon_testCounters, canon_chanWrite]

theorem canon_State_setLevel {x0 : State} {x1 : Nat} {x2 : Level} (h0 : Canon x0.mem x0.wgs) : Canon (State.setLevel
    x0 x1 x2).mem (State.setLevel x0 x1 x2).wgs := by
  exact h0

theorem canon_updCounter {x0 : State} {x1 : Level} {x2 : IoRes Nat} {x3 : Nat → IoRes State} (h0 : Canon x0.mem
    x0.wgs) (h3 : ∀ (y0_0 : Nat), ∀ y1, (x3 y0_0) = .ok y1 → (Canon y1.mem y1.wgs)) : ∀ y0, (updCounter x0 x1 x2 x3) =
    .ok y0 → (Canon y0.mem y0.wgs) := by
  unfold updCounter; grind -ring -linarith -lia [canon_State_stopQueue]

theorem canon_countUp {x0 : State} {x1 : Nat} {x2 : Nat} {x3 : Nat} {x4 : Nat} {x5 : Nat} (h0 : Canon x0.mem x0.wgs) :
    ∀ y0, (countUp x0 x1 x2 x3 x4 x5) = .ok y0 → (Canon y0.mem y0.wgs) := by
  induction x5 generalizing x0 x2 x3 x4 with
  | zero => intro y hy; cases hy; exact h0
  | succ n ih =>
    unfold countUp
    split
    · intro y hy; cases hy; exact h0
    · rename_i l _
      refine canon_updCounter h0 (fun pa => ?_)
      simp only
      have hs := fun (a b : Nat) => canon_queueWrite (x1 := pa + 8) (x2 := 8) (x3 := b) (canon_queueWrite (x1 := pa)
          (x2 := 8) (x3 := a) h0)
      split
      · split
        · exact ih (canon_State_setLevel (canon_queueWrite (hs _ _)))
        · intro y hy; cases hy; exact canon_State_setLevel (canon_queueWrite (hs _ _))
      · intro y hy; cases hy; exact hs _ _

theorem canon_count {x0 : State} {x1 : Nat} {x2 : Nat} {x3 : Nat} {x4 : Nat} (h0 : Canon x0.mem x0.wgs) : ∀ y0, (count
    x0 x1 x2 x3 x4) = .ok y0 → (Canon y0.mem y0.wgs) := by
  unfold count; exact canon_countUp (by assumption)

theorem canon_openLevel {x0 : State} {x1 : Level} {x2 : Nat} (h0 : Canon x0.mem x0.wgs) : ∀ y0, (openLevel x0 x1 x2) =
    .ok y0 → (Canon y0.mem y0.wgs) := by
  unfold openLevel; grind -ring -linarith -lia [canon_queueWrite, canon_count, canon_State_setLevel, canon_andThen]

theorem canon_closeLevel {x0 : State} {x1 : Nat} (h0 : Canon x0.mem x0.wgs) : ∀ y0, (closeLevel x0 x1) = .ok y0 →
    (Canon y0.mem y0.wgs) := by
  unfold closeLevel; grind -ring -linarith -lia [canon_count, canon_State_setLevel, canon_queueWrite, canon_andThen]

theorem canon_markCancelled {x0 : Nat} {x1 : IoRes State} {x2 : Nat} (h1 : ∀ y0, x1 = .ok y0 → (Canon y0.mem y0.wgs))
    : ∀ y0, (markCancelled x0 x1 x2) = .ok y0 → (Canon y0.mem y0.wgs) := by
  unfold markCancelled; grind -ring -linarith -lia [canon_State_setLevel, canon_updCounter, canon_queueWrite,
      canon_andThen]

theorem canon_dropUndispatched {x0 : Nat} {x1 : IoRes State} {x2 : Nat} (h1 : ∀ y0, x1 = .ok y0 → (Canon y0.mem
    y0.wgs)) : ∀ y0, (dropUndispatched x0 x1 x2) = .ok y0 → (Canon y0.mem y0.wgs) := by
  unfold dropUndispatched; grind -ring -linarith -lia [canon_count, canon_State_setLevel, canon_andThen]

theorem canon_requestCancel {x0 : State} {x1 : List Nat} (h0 : Canon x0.mem x0.wgs) : Canon (requestCancel x0 x1).mem
    (requestCancel x0 x1).wgs := by
  unfold requestCancel; grind -ring -linarith -lia [wg_canon, Canon.map, foldl_canon]

theorem canon_clearReservations {x0 : State} {x1 : Nat → Nat → Bool} (h0 : Canon x0.mem x0.wgs) : Canon
    (clearReservations x0 x1).mem (clearReservations x0 x1).wgs := by
  unfold clearReservations; grind -ring -linarith -lia [wg_canon, Canon.set, wf_nil, writeN_wf, writeMasked_wf]

theorem canon_settleQueue {x0 : State} {x1 : Nat} (h0 : Canon x0.mem x0.wgs) : Canon (settleQueue x0 x1).mem
    (settleQueue x0 x1).wgs := by
  unfold settleQueue; grind -ring -linarith -lia [canon_State_setQueue]

/-- A fold of accesses keeps what each of its steps keeps. -/
theorem foldlIo_canon {f : IoRes State → Nat → IoRes State} (hf : ∀ r k, (∀ y, r = .ok y → Canon y.mem y.wgs) → ∀ y, f
    r k = .ok y → Canon y.mem y.wgs)
    (l : List Nat) {r : IoRes State} (h : ∀ y, r = .ok y → Canon y.mem y.wgs) : ∀ y, l.foldl f r = .ok y → Canon y.mem
        y.wgs := by
  induction l generalizing r with
  | nil => exact h
  | cons k t ih => exact ih (hf _ _ h)

theorem canon_cancelLevel {x0 : State} {x1 : Nat} {x2 : Nat} (h0 : Canon x0.mem x0.wgs) : ∀ y0, (cancelLevel x0 x1 x2)
    = .ok y0 → (Canon y0.mem y0.wgs) := by
  unfold cancelLevel
  refine canon_andThen (fun s hs y hy => ?_)
  cases hy
  refine canon_settleQueue (canon_clearReservations (canon_requestCancel ?_))
  exact foldlIo_canon (fun _ _ h => canon_dropUndispatched h) _ (foldlIo_canon (fun _ _ h => canon_markCancelled h) _
      (by intro y hy; cases hy; exact h0)) _ hs

theorem canon_cancelByHandle {x0 : State} {x1 : Nat} {x2 : Nat} {x3 : Nat} {x4 : Nat} (h0 : Canon x0.mem x0.wgs) : ∀
    y0, (cancelByHandle x0 x1 x2 x3 x4) = .ok y0 → (Canon (y0.1).mem (y0.1).wgs) := by
  unfold cancelByHandle; (unfold IoRes.andThen; grind -ring -linarith -lia [canon_cancelLevel])

theorem canon_appendExit {x0 : State} {x1 : Nat} {x2 : Nat} {x3 : ExitInfo} (h0 : Canon x0.mem x0.wgs) : ∀ y0,
    (appendExit x0 x1 x2 x3) = .ok y0 → (Canon y0.mem y0.wgs) := by
  unfold appendExit; grind -ring -linarith -lia [canon_queueWrite, foldl_canon]

theorem canon_exitRecord {x0 : State} {x1 : Workgroup} {x2 : ExitInfo} (h0 : Canon x0.mem x0.wgs) (h1 : x1.sp.wf =
    true) : ∀ y0, (exitRecord x0 x1 x2) = .ok y0 → (Canon y0.mem y0.wgs) := by
  unfold exitRecord; grind -ring -linarith -lia [canon_appendExit]

/-! ### Queues -/

theorem canon_nextPacket {x0 : State} {x1 : Nat} (h0 : Canon x0.mem x0.wgs) : Canon (nextPacket x0 x1).mem (nextPacket
    x0 x1).wgs := by
  unfold nextPacket; grind -ring -linarith -lia [canon_settleQueue, canon_State_setQueue]

theorem canon_takePacket {x0 : State} {x1 : Nat} {x2 : Nat} {x3 : State → List Reg → State} (h0 : Canon x0.mem x0.wgs)
    (h3 : ∀ (y0_0 : State) (y0_1 : List Reg), (Canon y0_0.mem y0_0.wgs) → Canon (x3 y0_0 y0_1).mem (x3 y0_0 y0_1).wgs)
    : Canon (takePacket x0 x1 x2 x3).mem (takePacket x0 x1 x2 x3).wgs := by
  unfold takePacket; grind -ring -linarith -lia [canon_State_stopQueue, canon_State_setQueue]

theorem canon_finishPacket {x0 : State} {x1 : Nat} {x2 : Nat} {x3 : IoRes State} (h0 : Canon x0.mem x0.wgs) (h3 : ∀
    y0, x3 = .ok y0 → (Canon y0.mem y0.wgs)) : Canon (finishPacket x0 x1 x2 x3).mem (finishPacket x0 x1 x2 x3).wgs :=
    by
  unfold finishPacket; grind -ring -linarith -lia [canon_afterIo, canon_nextPacket, canon_andThen]

theorem canon_parseLaunch {x0 : Nat} {x1 : Nat} {x2 : State} {x3 : List Reg} (h2 : Canon x2.mem x2.wgs) : Canon
    (parseLaunch x0 x1 x2 x3).mem (parseLaunch x0 x1 x2 x3).wgs := by
  unfold parseLaunch; grind -ring -linarith -lia [canon_State_stopQueue, canon_finishPacket, canon_openLevel,
      canon_andThen]

theorem canon_execLaunchPacket {x0 : Nat} {x1 : Nat} {x2 : State} (h2 : Canon x2.mem x2.wgs) : ∀ y0, (execLaunchPacket
    x0 x1 x2) = .next y0 → (Canon y0.mem y0.wgs) := by
  unfold execLaunchPacket; grind -ring -linarith -lia [canon_takePacket, canon_parseLaunch]

theorem canon_testCond {x0 : State} {x1 : Nat} {x2 : Nat} (h0 : Canon x0.mem x0.wgs) : Canon (testCond x0 x1 x2).mem
    (testCond x0 x1 x2).wgs := by
  unfold testCond; grind -ring -linarith -lia [canon_State_setQueue, canon_queueMiss, canon_State_stopQueue]

theorem canon_endFence {x0 : State} {x1 : Nat} (h0 : Canon x0.mem x0.wgs) : Canon (endFence x0 x1).mem (endFence x0
    x1).wgs := by
  unfold endFence; grind -ring -linarith -lia [canon_State_setQueue, canon_invalidateWhere, canon_nextPacket, foldl_canon]

theorem canon_parseFence {x0 : Nat} {x1 : State} {x2 : List Reg} (h1 : Canon x1.mem x1.wgs) : Canon (parseFence x0 x1
    x2).mem (parseFence x0 x1 x2).wgs := by
  unfold parseFence; grind -ring -linarith -lia [canon_State_stopQueue, canon_State_setQueue, canon_endFence,
      canon_testCond, canon_queueMiss, canon_afterIo, foldl_canon]

theorem canon_execFencePacket {x0 : Nat} {x1 : Nat} {x2 : State} (h2 : Canon x2.mem x2.wgs) : ∀ y0, (execFencePacket
    x0 x1 x2) = .next y0 → (Canon y0.mem y0.wgs) := by
  unfold execFencePacket; grind -ring -linarith -lia [canon_takePacket, canon_parseFence]

theorem canon_testFence {x0 : State} {x1 : Nat} {x2 : Nat} (h0 : Canon x0.mem x0.wgs) : Canon (testFence x0 x1 x2).mem
    (testFence x0 x1 x2).wgs := by
  unfold testFence; grind -ring -linarith -lia [canon_endFence, canon_testCond]

theorem canon_execFenceConditionTest {x0 : Nat} {x1 : Nat} {x2 : Nat} {x3 : State} (h3 : Canon x3.mem x3.wgs) : ∀ y0,
    (execFenceConditionTest x0 x1 x2 x3) = .next y0 → (Canon y0.mem y0.wgs) := by
  unfold execFenceConditionTest; grind -ring -linarith -lia [canon_testFence]

theorem canon_testWaiting {x0 : State} (h0 : Canon x0.mem x0.wgs) : Canon (testWaiting x0).mem (testWaiting x0).wgs := by
  unfold testWaiting
  exact foldl_canon (fun _ _ h => foldl_canon (fun _ _ h => canon_testFence h) _ h) _ h0

theorem canon_parseSignal {x0 : Nat} {x1 : State} {x2 : List Reg} (h1 : Canon x1.mem x1.wgs) : Canon (parseSignal x0
    x1 x2).mem (parseSignal x0 x1 x2).wgs := by
  unfold parseSignal; grind -ring -linarith -lia [canon_State_stopQueue, canon_finishPacket, canon_queueWrite,
      canon_andThen]

theorem canon_execSignalPacket {x0 : Nat} {x1 : Nat} {x2 : State} (h2 : Canon x2.mem x2.wgs) : ∀ y0, (execSignalPacket
    x0 x1 x2) = .next y0 → (Canon y0.mem y0.wgs) := by
  unfold execSignalPacket; grind -ring -linarith -lia [canon_takePacket, canon_parseSignal]

theorem canon_parseCancel {x0 : Nat} {x1 : Nat} {x2 : State} {x3 : List Reg} (h2 : Canon x2.mem x2.wgs) : Canon
    (parseCancel x0 x1 x2 x3).mem (parseCancel x0 x1 x2 x3).wgs := by
  unfold parseCancel; (simp only [IoRes.andThen]; (repeat' split) <;> grind -ring -linarith -lia
      [canon_State_stopQueue, → canon_cancelByHandle, canon_finishPacket, canon_queueWrite, canon_queueMiss,
      canon_afterIo])

theorem canon_execCancelPacket {x0 : Nat} {x1 : Nat} {x2 : State} (h2 : Canon x2.mem x2.wgs) : ∀ y0, (execCancelPacket
    x0 x1 x2) = .next y0 → (Canon y0.mem y0.wgs) := by
  unfold execCancelPacket; grind -ring -linarith -lia [canon_takePacket, canon_parseCancel]

theorem canon_execCancel {x0 : BitVec 6} {x1 : BitVec 6} {x2 : BitVec 2} {x3 : State} (h3 : Canon x3.mem x3.wgs) : ∀
    y0, (execCancel x0 x1 x2 x3) = .next y0 → (Canon y0.mem y0.wgs) := by
  unfold execCancel; grind -ring -linarith -lia [canon_runNamed, canon_retire, canon_cancelByHandle, canon_afterIo,
      canon_cancelLevel, canon_queueMiss]

theorem canon_parseOpen {x0 : Nat} {x1 : Nat} {x2 : Nat} {x3 : State} {x4 : List Reg} (h3 : Canon x3.mem x3.wgs) :
    Canon (parseOpen x0 x1 x2 x3 x4).mem (parseOpen x0 x1 x2 x3 x4).wgs := by
  unfold parseOpen; grind -ring -linarith -lia [canon_State_stopQueue, canon_finishPacket, canon_openLevel]

theorem canon_parseClose {x0 : Nat} {x1 : Nat} {x2 : Nat} {x3 : State} {x4 : List Reg} (h3 : Canon x3.mem x3.wgs) :
    Canon (parseClose x0 x1 x2 x3 x4).mem (parseClose x0 x1 x2 x3 x4).wgs := by
  unfold parseClose; grind -ring -linarith -lia [canon_State_stopQueue, canon_finishPacket, canon_closeLevel]

theorem canon_execGraphOpen {x0 : Nat} {x1 : Nat} {x2 : State} (h2 : Canon x2.mem x2.wgs) : ∀ y0, (execGraphOpen x0 x1
    x2) = .next y0 → (Canon y0.mem y0.wgs) := by
  unfold execGraphOpen; grind -ring -linarith -lia [canon_takePacket, canon_parseOpen]

theorem canon_execGraphClose {x0 : Nat} {x1 : Nat} {x2 : State} (h2 : Canon x2.mem x2.wgs) : ∀ y0, (execGraphClose x0
    x1 x2) = .next y0 → (Canon y0.mem y0.wgs) := by
  unfold execGraphClose; grind -ring -linarith -lia [canon_takePacket, canon_parseClose]

theorem canon_execPhaseOpen {x0 : Nat} {x1 : Nat} {x2 : State} (h2 : Canon x2.mem x2.wgs) : ∀ y0, (execPhaseOpen x0 x1
    x2) = .next y0 → (Canon y0.mem y0.wgs) := by
  unfold execPhaseOpen; grind -ring -linarith -lia [canon_takePacket, canon_parseOpen]

theorem canon_execPhaseClose {x0 : Nat} {x1 : Nat} {x2 : State} (h2 : Canon x2.mem x2.wgs) : ∀ y0, (execPhaseClose x0
    x1 x2) = .next y0 → (Canon y0.mem y0.wgs) := by
  unfold execPhaseClose; grind -ring -linarith -lia [canon_takePacket, canon_parseClose]

theorem canon_execJobOpen {x0 : Nat} {x1 : Nat} {x2 : State} (h2 : Canon x2.mem x2.wgs) : ∀ y0, (execJobOpen x0 x1 x2)
    = .next y0 → (Canon y0.mem y0.wgs) := by
  unfold execJobOpen; grind -ring -linarith -lia [canon_takePacket, canon_parseOpen]

theorem canon_execJobClose {x0 : Nat} {x1 : Nat} {x2 : State} (h2 : Canon x2.mem x2.wgs) : ∀ y0, (execJobClose x0 x1
    x2) = .next y0 → (Canon y0.mem y0.wgs) := by
  unfold execJobClose; grind -ring -linarith -lia [canon_takePacket, canon_parseClose]

theorem canon_ringDoorbell {x0 : State} {x1 : Nat} {x2 : Nat} (h0 : Canon x0.mem x0.wgs) : Canon (ringDoorbell x0 x1
    x2).mem (ringDoorbell x0 x1 x2).wgs := by
  unfold ringDoorbell; grind -ring -linarith -lia [canon_State_stopQueue, canon_settleQueue, canon_State_setQueue]

theorem canon_execDoorbell {x0 : Nat} {x1 : Nat} {x2 : BitVec 64} {x3 : State} (h3 : Canon x3.mem x3.wgs) : ∀ y0,
    (execDoorbell x0 x1 x2 x3) = .next y0 → (Canon y0.mem y0.wgs) := by
  unfold execDoorbell; grind -ring -linarith -lia [canon_ringDoorbell]

theorem canon_updateEprio {x0 : State} {x1 : Nat} (h0 : Canon x0.mem x0.wgs) : Canon (updateEprio x0 x1).mem
    (updateEprio x0 x1).wgs := by
  unfold updateEprio; grind -ring -linarith -lia [wg_canon, Canon.map, foldl_canon]

theorem canon_execEprioUpdate {x0 : Nat} {x1 : State} (h1 : Canon x1.mem x1.wgs) : ∀ y0, (execEprioUpdate x0 x1) =
    .next y0 → (Canon y0.mem y0.wgs) := by
  unfold execEprioUpdate; grind -ring -linarith -lia [canon_updateEprio]

theorem canon_writeRing {x0 : State} {x1 : Nat} {x2 : Reg} (h0 : Canon x0.mem x0.wgs) : Canon (writeRing x0 x1 x2).mem
    (writeRing x0 x1 x2).wgs := by
  unfold writeRing; grind -ring -linarith -lia [canon_ringDoorbell, canon_State_setQueue]

theorem canon_writeQueue {x0 : State} {x1 : Nat} {x2 : Reg} (h0 : Canon x0.mem x0.wgs) : Canon (writeQueue x0 x1
    x2).mem (writeQueue x0 x1 x2).wgs := by
  unfold writeQueue; grind -ring -linarith -lia [canon_State_draw, canon_settleQueue, canon_updateEprio,
      canon_State_setQueue]

theorem canon_execQueueDescriptorWrite {x0 : Nat} {x1 : Nat} {x2 : Nat} {x3 : BitVec 64} {x4 : State} (h4 : Canon
    x4.mem x4.wgs) : ∀ y0, (execQueueDescriptorWrite x0 x1 x2 x3 x4) = .next y0 → (Canon y0.mem y0.wgs) := by
  unfold execQueueDescriptorWrite; grind -ring -linarith -lia [canon_writeRing, canon_writeQueue]

/-! ### Fetch -/

theorem canon_nextWord {x0 : State} {x1 : WRef} {x2 : Workgroup} {x3 : Warp} (h0 : Canon x0.mem x0.wgs) (h2 : x2.sp.wf
    = true) : (∀ z0_0 z0_1, (nextWord x0 x1 x2 x3) = .word z0_0 z0_1 → (Canon z0_1.mem z0_1.wgs)) ∧ (∀ z0_0, (nextWord
    x0 x1 x2 x3) = .miss z0_0 → (Canon z0_0.mem z0_0.wgs)) ∧ (∀ z0_0 z0_1, (nextWord x0 x1 x2 x3) = .fail z0_0 z0_1 →
    (Canon z0_1.mem z0_1.wgs)) := by
  unfold nextWord; grind -ring -linarith -lia [canon_fetchWord_1, canon_fetchWord_2, canon_fetchWord_3,
      canon_State_updWarp]

theorem canon_nextWord_1 {x0 : State} {x1 : WRef} {x2 : Workgroup} {x3 : Warp} (h0 : Canon x0.mem x0.wgs) (h2 :
    x2.sp.wf = true) : (∀ z0_0 z0_1, (nextWord x0 x1 x2 x3) = .word z0_0 z0_1 → (Canon z0_1.mem z0_1.wgs)) :=
    (canon_nextWord (h0 := h0) (h2 := h2)).1

theorem canon_nextWord_2 {x0 : State} {x1 : WRef} {x2 : Workgroup} {x3 : Warp} (h0 : Canon x0.mem x0.wgs) (h2 :
    x2.sp.wf = true) : (∀ z0_0, (nextWord x0 x1 x2 x3) = .miss z0_0 → (Canon z0_0.mem z0_0.wgs)) := (canon_nextWord
    (h0 := h0) (h2 := h2)).2.1

theorem canon_nextWord_3 {x0 : State} {x1 : WRef} {x2 : Workgroup} {x3 : Warp} (h0 : Canon x0.mem x0.wgs) (h2 :
    x2.sp.wf = true) : (∀ z0_0 z0_1, (nextWord x0 x1 x2 x3) = .fail z0_0 z0_1 → (Canon z0_1.mem z0_1.wgs)) :=
    (canon_nextWord (h0 := h0) (h2 := h2)).2.2

theorem canon_nextInstr {x0 : State} {x1 : WRef} {x2 : Workgroup} {x3 : Warp} (h0 : Canon x0.mem x0.wgs) (h2 :
    x2.sp.wf = true) : Canon (((nextInstr x0 x1 x2 x3).2).2).mem (((nextInstr x0 x1 x2 x3).2).2).wgs := by
  unfold nextInstr; grind -ring -linarith -lia [canon_nextWord_1, canon_nextWord_2, canon_nextWord_3]

theorem canon_readyInstr {x0 : State} {x1 : WRef} {x2 : Workgroup} {x3 : Warp} (h0 : Canon x0.mem x0.wgs) (h2 :
    x2.sp.wf = true) : ∀ y0, (readyInstr x0 x1 x2 x3) = some y0 → (Canon ((y0.2).2).mem ((y0.2).2).wgs) := by
  unfold readyInstr; grind -ring -linarith -lia [canon_nextInstr]

theorem canon_tileWarps {x0 : State} {x1 : Nat} (h0 : Canon x0.mem x0.wgs) : ∀ y0 ∈ (tileWarps x0 x1),
    ((y0.2).1).sp.wf = true := by
  unfold tileWarps; intro y hy; simp only [List.mem_flatMap, List.mem_map, List.mem_filter] at hy; obtain ⟨z, ⟨hz, _⟩,
      _, _, rfl⟩ := hy; exact h0.2 _ hz

theorem canon_candidates {x0 : State} {x1 : Nat} {x2 : Option Bool → Bool} (h0 : Canon x0.mem x0.wgs) : ∀ y0 ∈
    (candidates x0 x1 x2), (Canon (y0.s).mem (y0.s).wgs) := by
  unfold candidates; intro y hy; simp only [List.mem_filterMap] at hy; obtain ⟨z, hz, e⟩ := hy; grind -ring -linarith
      -lia [canon_tileWarps, → canon_readyInstr]

theorem canon_choose {x0 : List Candidate} (h0 : ∀ y0 ∈ x0, (Canon (y0.s).mem (y0.s).wgs)) : ∀ y0, (choose x0) = some
    y0 → ((Canon (y0.s).mem (y0.s).wgs)) := by
  fun_induction choose x0 <;> grind -ring -linarith -lia

theorem canon_Candidate_plan {x0 : Candidate} (h0 : (Canon (x0.s).mem (x0.s).wgs)) : (∀ z0_0 z0_1, (Candidate.plan x0)
    = .run z0_0 z0_1 → (Canon z0_1.mem z0_1.wgs)) ∧ (∀ z0_0, (Candidate.plan x0) = .done z0_0 → (Canon z0_0.mem
    z0_0.wgs)) := by
  unfold Candidate.plan; grind -ring -linarith -lia

theorem canon_Candidate_plan_1 {x0 : Candidate} (h0 : (Canon (x0.s).mem (x0.s).wgs)) : (∀ z0_0 z0_1, (Candidate.plan
    x0) = .run z0_0 z0_1 → (Canon z0_1.mem z0_1.wgs)) := (canon_Candidate_plan (h0 := h0)).1

theorem canon_Candidate_plan_2 {x0 : Candidate} (h0 : (Canon (x0.s).mem (x0.s).wgs)) : (∀ z0_0, (Candidate.plan x0) =
    .done z0_0 → (Canon z0_0.mem z0_0.wgs)) := (canon_Candidate_plan (h0 := h0)).2

theorem canon_pick {x0 : State} {x1 : Nat} {x2 : Nat} (h0 : Canon x0.mem x0.wgs) : ∀ y0, (pick x0 x1 x2) = some y0 →
    ((Canon (y0.s).mem (y0.s).wgs)) := by
  unfold pick
  intro y e
  obtain ⟨c, hc, rfl⟩ := Option.map_eq_some_iff.1 e
  have h := canon_choose (fun d hd => canon_candidates h0 d (List.mem_filter.1 hd).1) c hc
  split
  · exact canon_State_setTile h
  · exact h

theorem canon_selectPlan {x0 : State} {x1 : Nat} {x2 : Nat} (h0 : Canon x0.mem x0.wgs) : (∀ z0_0 z0_1, (selectPlan x0
    x1 x2) = .run z0_0 z0_1 → (Canon z0_1.mem z0_1.wgs)) ∧ (∀ z0_0, (selectPlan x0 x1 x2) = .done z0_0 → (Canon
    z0_0.mem z0_0.wgs)) := by
  unfold selectPlan; grind -ring -linarith -lia [→ canon_pick, → canon_Candidate_plan_1, → canon_Candidate_plan_2]

theorem canon_selectPlan_1 {x0 : State} {x1 : Nat} {x2 : Nat} (h0 : Canon x0.mem x0.wgs) : (∀ z0_0 z0_1, (selectPlan
    x0 x1 x2) = .run z0_0 z0_1 → (Canon z0_1.mem z0_1.wgs)) := (canon_selectPlan (h0 := h0)).1

theorem canon_selectPlan_2 {x0 : State} {x1 : Nat} {x2 : Nat} (h0 : Canon x0.mem x0.wgs) : (∀ z0_0, (selectPlan x0 x1
    x2) = .done z0_0 → (Canon z0_0.mem z0_0.wgs)) := (canon_selectPlan (h0 := h0)).2

theorem canon_countClock {x0 : State} {x1 : Nat} {x2 : Nat} (h0 : Canon x0.mem x0.wgs) : Canon (countClock x0 x1
    x2).mem (countClock x0 x1 x2).wgs := by
  unfold countClock; grind -ring -linarith -lia [canon_lookFifos, canon_State_countEvent]

theorem canon_tickSample {x0 : State} {x1 : Nat} {x2 : Nat} {x3 : Nat} (h0 : Canon x0.mem x0.wgs) : Canon (tickSample
    x0 x1 x2 x3).mem (tickSample x0 x1 x2 x3).wgs := by
  unfold tickSample; grind -ring -linarith -lia [canon_writeRatio, canon_State_setCluster]

theorem canon_convoyTicks {x0 : State} {x1 : Nat} {x2 : Nat} (h0 : Canon x0.mem x0.wgs) : Canon (convoyTicks x0 x1
    x2).mem (convoyTicks x0 x1 x2).wgs := by
  fun_induction convoyTicks x0 x1 x2 <;> grind -ring -linarith -lia [canon_State_setDie, canon_endConvoyTick]

theorem canon_wakeSleepers {x0 : State} {x1 : Nat} (h0 : Canon x0.mem x0.wgs) : Canon (wakeSleepers x0 x1).mem
    (wakeSleepers x0 x1).wgs := by
  unfold wakeSleepers; exact Canon.map _ h0 (fun g hg => by grind)

theorem canon_passTicks {x0 : State} {x1 : Nat} {x2 : Nat} (h0 : Canon x0.mem x0.wgs) : Canon (passTicks x0 x1 x2).mem
    (passTicks x0 x1 x2).wgs := by
  unfold passTicks; grind -ring -linarith -lia [canon_testWaiting, canon_tickPairs, canon_wakeSleepers,
      canon_retrySwaps, canon_convoyTicks, canon_tickSample, canon_countClock, canon_testCounters, foldl_canon]

theorem canon_countStalls {x0 : State} {x1 : Nat} {x2 : Nat} (h0 : Canon x0.mem x0.wgs) : Canon (countStalls x0 x1
    x2).mem (countStalls x0 x1 x2).wgs := by
  unfold countStalls; grind -ring -linarith -lia [canon_tileWarps, canon_candidates, canon_State_setCluster]

theorem canon_passCycles {x0 : State} {x1 : Nat} {x2 : Nat} (h0 : Canon x0.mem x0.wgs) : Canon (passCycles x0 x1
    x2).mem (passCycles x0 x1 x2).wgs := by
  unfold passCycles; grind -ring -linarith -lia [canon_countStalls, canon_State_setTile]

theorem canon_turnPlan {x0 : State} {x1 : Turn} (h0 : Canon x0.mem x0.wgs) : (∀ z0_0 z0_1, (turnPlan x0 x1) = .run
    z0_0 z0_1 → (Canon z0_1.mem z0_1.wgs)) ∧ (∀ z0_0, (turnPlan x0 x1) = .done z0_0 → (Canon z0_0.mem z0_0.wgs)) := by
  unfold turnPlan; grind -ring -linarith -lia [canon_selectPlan_1, canon_selectPlan_2, canon_passTicks, canon_passCycles]

theorem canon_turnPlan_1 {x0 : State} {x1 : Turn} (h0 : Canon x0.mem x0.wgs) : (∀ z0_0 z0_1, (turnPlan x0 x1) = .run
    z0_0 z0_1 → (Canon z0_1.mem z0_1.wgs)) := (canon_turnPlan (h0 := h0)).1

theorem canon_turnPlan_2 {x0 : State} {x1 : Turn} (h0 : Canon x0.mem x0.wgs) : (∀ z0_0, (turnPlan x0 x1) = .done z0_0
    → (Canon z0_0.mem z0_0.wgs)) := (canon_turnPlan (h0 := h0)).2

/-! ### Control -/

theorem canon_transferring {x0 : State} {x1 : Instr} {x2 : Warp → WRes} (h0 : Canon x0.mem x0.wgs) : ∀ y0,
    (transferring x0 x1 x2) = .next y0 → (Canon y0.mem y0.wgs) := by
  unfold transferring; grind -ring -linarith -lia [canon_lastOnly, canon_runUniform]

theorem canon_execBra {x0 : BitVec 24} {x1 : State} (h1 : Canon x1.mem x1.wgs) : ∀ y0, (execBra x0 x1) = .next y0 →
    (Canon y0.mem y0.wgs) := by
  unfold execBra; grind -ring -linarith -lia [canon_transferring]

theorem canon_execBrasNz {x0 : BitVec 6} {x1 : BitVec 17} {x2 : State} (h2 : Canon x2.mem x2.wgs) : ∀ y0, (execBrasNz
    x0 x1 x2) = .next y0 → (Canon y0.mem y0.wgs) := by
  unfold execBrasNz; grind -ring -linarith -lia [canon_transferring]

theorem canon_execBrasZ {x0 : BitVec 6} {x1 : BitVec 17} {x2 : State} (h2 : Canon x2.mem x2.wgs) : ∀ y0, (execBrasZ x0
    x1 x2) = .next y0 → (Canon y0.mem y0.wgs) := by
  unfold execBrasZ; grind -ring -linarith -lia [canon_transferring]

theorem canon_execCall {x0 : BitVec 6} {x1 : BitVec 18} {x2 : State} (h2 : Canon x2.mem x2.wgs) : ∀ y0, (execCall x0
    x1 x2) = .next y0 → (Canon y0.mem y0.wgs) := by
  unfold execCall; grind -ring -linarith -lia [canon_transferring]

theorem canon_execRet {x0 : BitVec 6} {x1 : State} (h1 : Canon x1.mem x1.wgs) : ∀ y0, (execRet x0 x1) = .next y0 →
    (Canon y0.mem y0.wgs) := by
  unfold execRet; grind -ring -linarith -lia [canon_transferring]

theorem canon_execNop {x0 : State} (h0 : Canon x0.mem x0.wgs) : ∀ y0, (execNop x0) = .next y0 → (Canon y0.mem y0.wgs)
    := by
  unfold execNop; exact canon_runUniform (by assumption)

theorem canon_execMark {x0 : BitVec 24} {x1 : State} (h1 : Canon x1.mem x1.wgs) : ∀ y0, (execMark x0 x1) = .next y0 →
    (Canon y0.mem y0.wgs) := by
  unfold execMark; exact canon_runUniform (by assumption)

theorem canon_execBr {x0 : BitVec 3} {x1 : BitVec 1} {x2 : BitVec 20} {x3 : State} (h3 : Canon x3.mem x3.wgs) : ∀ y0,
    (execBr x0 x1 x2 x3) = .next y0 → (Canon y0.mem y0.wgs) := by
  unfold execBr; grind -ring -linarith -lia [canon_transferring]

theorem canon_execJoin {x0 : State} (h0 : Canon x0.mem x0.wgs) : ∀ y0, (execJoin x0) = .next y0 → (Canon y0.mem
    y0.wgs) := by
  unfold execJoin; exact canon_runUniform (by assumption)

theorem canon_execLoop {x0 : BitVec 6} {x1 : BitVec 2} {x2 : BitVec 9} {x3 : State} (h3 : Canon x3.mem x3.wgs) : ∀ y0,
    (execLoop x0 x1 x2 x3) = .next y0 → (Canon y0.mem y0.wgs) := by
  unfold execLoop; grind -ring -linarith -lia [canon_transferring]

theorem canon_execLoopFallThrough {x0 : WRef} {x1 : State} (h1 : Canon x1.mem x1.wgs) : ∀ y0, (execLoopFallThrough x0
    x1) = .next y0 → (Canon y0.mem y0.wgs) := by
  unfold execLoopFallThrough; grind -ring -linarith -lia [canon_State_updWarp]

theorem canon_execExit {x0 : State} (h0 : Canon x0.mem x0.wgs) : ∀ y0, (execExit x0) = .next y0 → (Canon y0.mem
    y0.wgs) := by
  unfold execExit; grind -ring -linarith -lia [canon_transferring]

theorem canon_literalWords {x0 : State} {x1 : Workgroup} {x2 : Warp} {x3 : Nat} {x4 : Nat} (h0 : Canon x0.mem x0.wgs)
    (h1 : x1.sp.wf = true) : (∀ z0_0 z0_1, (literalWords x0 x1 x2 x3 x4).1 = .word z0_0 z0_1 → (Canon z0_1.mem
    z0_1.wgs)) ∧ (∀ z0_0, (literalWords x0 x1 x2 x3 x4).1 = .miss z0_0 → (Canon z0_0.mem z0_0.wgs)) ∧ (∀ z0_0 z0_1,
    (literalWords x0 x1 x2 x3 x4).1 = .fail z0_0 z0_1 → (Canon z0_1.mem z0_1.wgs)) := by
  fun_induction literalWords x0 x1 x2 x3 x4 <;> grind -ring -linarith -lia [canon_fetchWord_1, canon_fetchWord_2,
      canon_fetchWord_3]

theorem canon_literalWords_1 {x0 : State} {x1 : Workgroup} {x2 : Warp} {x3 : Nat} {x4 : Nat} (h0 : Canon x0.mem
    x0.wgs) (h1 : x1.sp.wf = true) : (∀ z0_0 z0_1, (literalWords x0 x1 x2 x3 x4).1 = .word z0_0 z0_1 → (Canon z0_1.mem
    z0_1.wgs)) := (canon_literalWords (h0 := h0) (h1 := h1)).1

theorem canon_literalWords_2 {x0 : State} {x1 : Workgroup} {x2 : Warp} {x3 : Nat} {x4 : Nat} (h0 : Canon x0.mem
    x0.wgs) (h1 : x1.sp.wf = true) : (∀ z0_0, (literalWords x0 x1 x2 x3 x4).1 = .miss z0_0 → (Canon z0_0.mem
    z0_0.wgs)) := (canon_literalWords (h0 := h0) (h1 := h1)).2.1

theorem canon_literalWords_3 {x0 : State} {x1 : Workgroup} {x2 : Warp} {x3 : Nat} {x4 : Nat} (h0 : Canon x0.mem
    x0.wgs) (h1 : x1.sp.wf = true) : (∀ z0_0 z0_1, (literalWords x0 x1 x2 x3 x4).1 = .fail z0_0 z0_1 → (Canon z0_1.mem
    z0_1.wgs)) := (canon_literalWords (h0 := h0) (h1 := h1)).2.2

theorem canon_runLiteral {x0 : State} {x1 : Instr} {x2 : BitVec 6} {x3 : BitVec 17} {x4 : Nat} (h0 : Canon x0.mem
    x0.wgs) : ∀ y0, (runLiteral x0 x1 x2 x3 x4) = .next y0 → (Canon y0.mem y0.wgs) := by
  unfold runLiteral; grind -ring -linarith -lia [canon_runNamed, canon_preciseTrap, canon_literalWords_1,
      canon_literalWords_2, canon_literalWords_3, canon_retire, canon_parkOn, canon_retireWithRecords]

theorem canon_execLdlW {x0 : BitVec 6} {x1 : BitVec 17} {x2 : State} (h2 : Canon x2.mem x2.wgs) : ∀ y0, (execLdlW x0
    x1 x2) = .next y0 → (Canon y0.mem y0.wgs) := by
  unfold execLdlW; exact canon_runLiteral (by assumption)

theorem canon_execLdlD {x0 : BitVec 6} {x1 : BitVec 17} {x2 : State} (h2 : Canon x2.mem x2.wgs) : ∀ y0, (execLdlD x0
    x1 x2) = .next y0 → (Canon y0.mem y0.wgs) := by
  unfold execLdlD; exact canon_runLiteral (by assumption)

theorem canon_execClause {x0 : BitVec 12} {x1 : BitVec 4} {x2 : BitVec 4} {x3 : BitVec 3} {x4 : State} (h4 : Canon
    x4.mem x4.wgs) : ∀ y0, (execClause x0 x1 x2 x3 x4) = .next y0 → (Canon y0.mem y0.wgs) := by
  unfold execClause; grind -ring -linarith -lia [canon_withCurrent, canon_preciseTrap, canon_State_setWarp]

theorem canon_execPool {x0 : BitVec 16} {x1 : State} (h1 : Canon x1.mem x1.wgs) : ∀ y0, (execPool x0 x1) = .next y0 →
    (Canon y0.mem y0.wgs) := by
  unfold execPool; grind -ring -linarith -lia [canon_withCurrent, canon_preciseTrap, canon_targetTrap,
      canon_State_setWarp]

theorem canon_execIllegalInstruction {x0 : Word} {x1 : State} (h1 : Canon x1.mem x1.wgs) : ∀ y0,
    (execIllegalInstruction x0 x1) = .next y0 → (Canon y0.mem y0.wgs) := by
  unfold execIllegalInstruction; grind -ring -linarith -lia [canon_withCurrent, canon_preciseTrap, canon_targetTrap]

theorem canon_execInstructionFetchFault {x0 : Nat} {x1 : State} (h1 : Canon x1.mem x1.wgs) : ∀ y0,
    (execInstructionFetchFault x0 x1) = .next y0 → (Canon y0.mem y0.wgs) := by
  unfold execInstructionFetchFault; grind -ring -linarith -lia [canon_withCurrent, canon_nextWord_1, canon_nextWord_2,
      canon_nextWord_3, canon_parkOn, canon_takeException]

/-! ### Dispatcher -/

theorem canon_onTileOf {x0 : State} {x1 : Nat} (h0 : Canon x0.mem x0.wgs) : ∀ y0 ∈ (onTileOf x0 x1), y0.sp.wf = true := by
  unfold onTileOf; intro y hy; simp only [List.mem_map, List.mem_filter] at hy; obtain ⟨z, ⟨hz, _⟩, rfl⟩ := hy; exact
      h0.2 _ hz

theorem canon_Workgroup_seated {x0 : Workgroup} {x1 : State} {x2 : Nat} (h0 : x0.sp.wf = true) (h1 : Canon x1.mem
    x1.wgs) : (Workgroup.seated x0 x1 x2).sp.wf = true := by
  unfold Workgroup.seated; grind -ring -linarith -lia [wg_canon, Canon.set, wf_nil, writeN_wf, writeMasked_wf]

theorem canon_launchGroup {x0 : Level} {x1 : Nat} {x2 : Nat} {x3 : Nat} {x4 : Nat} {x5 : Nat} {x6 : List Nat} {x7 :
    Option (Table (Nat × Reg) × List Nat)} : (launchGroup x0 x1 x2 x3 x4 x5 x6 x7).sp.wf = true := by
  unfold launchGroup; grind -ring -linarith -lia [wg_canon, Canon.set, wf_nil, writeN_wf, writeMasked_wf]

theorem canon_dispatchGroups {x0 : State} {x1 : Level} {x2 : Nat} {x3 : Nat} {x4 : List Nat} {x5 : List (Nat × Nat ×
    Nat × Nat)} (h0 : Canon x0.mem x0.wgs) : Canon (dispatchGroups x0 x1 x2 x3 x4 x5).mem (dispatchGroups x0 x1 x2 x3
    x4 x5).wgs := by
  fun_induction dispatchGroups x0 x1 x2 x3 x4 x5 <;> grind -ring -linarith -lia [canon_swapPartnerGone,
      canon_State_setWg, canon_State_setSlot, canon_Workgroup_seated, canon_onPlacement, canon_launchGroup]

theorem canon_placeLaunch {x0 : State} {x1 : Nat} {x2 : Item} (h0 : Canon x0.mem x0.wgs) : ∀ y0, (placeLaunch x0 x1
    x2) = some y0 → (Canon y0.mem y0.wgs) := by
  unfold placeLaunch; grind -ring -linarith -lia [canon_dispatchGroups, canon_settleQueue, canon_clearReservations,
      canon_State_setLevel]

theorem canon_wcbDone {x0 : State} (h0 : Canon x0.mem x0.wgs) : Canon (wcbDone x0).mem (wcbDone x0).wgs := by
  unfold wcbDone; grind -ring -linarith -lia [wg_canon, Canon.set, wf_nil, writeN_wf, writeMasked_wf]

theorem canon_placeSaved {x0 : State} {x1 : Nat} {x2 : Item} (h0 : Canon x0.mem x0.wgs) : ∀ y0, (placeSaved x0 x1 x2)
    = some y0 → (Canon y0.mem y0.wgs) := by
  unfold placeSaved; grind -ring -linarith -lia [canon_State_wg, canon_onPlacement, canon_State_updWg,
      canon_Workgroup_seated, canon_wcbDone, foldl_canon]

theorem canon_placeItem {x0 : State} {x1 : Nat} {x2 : Item} (h0 : Canon x0.mem x0.wgs) : ∀ y0, (placeItem x0 x1 x2) =
    some y0 → (Canon y0.mem y0.wgs) := by
  unfold placeItem; grind -ring -linarith -lia [canon_placeLaunch, canon_placeSaved]

theorem canon_countGangs {x0 : State} {x1 : Nat} (h0 : Canon x0.mem x0.wgs) : Canon (countGangs x0 x1).mem (countGangs
    x0 x1).wgs := by
  exact h0

theorem canon_execDispatchRound {x0 : Nat} {x1 : State} (h1 : Canon x1.mem x1.wgs) : ∀ y0, (execDispatchRound x0 x1) =
    .next y0 → (Canon y0.mem y0.wgs) := by
  unfold execDispatchRound
  intro y hy
  split at hy
  · cases hy; exact h1
  · cases hy
    refine canon_countGangs ?_
    split
    · rename_i k t e
      obtain ⟨a, _, ha⟩ := findSome_exists e
      have := canon_placeItem (x1 := x0) (x2 := a) h1
      grind -ring -linarith -lia [canon_countGangs, canon_placeItem, canon_State_setDie, Option.map_eq_some_iff]
    · exact h1

theorem canon_execGangReservation {x0 : Nat} {x1 : State} (h1 : Canon x1.mem x1.wgs) : ∀ y0, (execGangReservation x0
    x1) = .next y0 → (Canon y0.mem y0.wgs) := by
  unfold execGangReservation; grind -ring -linarith -lia [canon_State_setDie, canon_State_setCluster]

theorem canon_execBandwidthWindow {x0 : Nat} {x1 : State} (h1 : Canon x1.mem x1.wgs) : ∀ y0, (execBandwidthWindow x0
    x1) = .next y0 → (Canon y0.mem y0.wgs) := by
  unfold execBandwidthWindow; grind -ring -linarith -lia

theorem canon_stopMatrices {x0 : State} {x1 : Nat} {x2 : Workgroup} (h0 : Canon x0.mem x0.wgs) (h2 : x2.sp.wf = true)
    : Canon (stopMatrices x0 x1 x2).mem (stopMatrices x0 x1 x2).wgs := by
  unfold stopMatrices; grind -ring -linarith -lia [canon_stopMatrix, canon_loseTeam, foldl_canon]

theorem canon_freeArea {x0 : State} {x1 : Workgroup} (h0 : Canon x0.mem x0.wgs) (h1 : x1.sp.wf = true) : Canon
    (freeArea x0 x1).mem (freeArea x0 x1).wgs := by
  exact h0

theorem canon_removeGroup {x0 : State} {x1 : Nat} {x2 : Workgroup} {x3 : Bool} (h0 : Canon x0.mem x0.wgs) (h2 :
    x2.sp.wf = true) : Canon (removeGroup x0 x1 x2 x3).mem (removeGroup x0 x1 x2 x3).wgs := by
  unfold removeGroup; grind -ring -linarith -lia [wg_canon, Canon.set, wf_nil, writeN_wf, writeMasked_wf,
      canon_freeArea, canon_State_setWg, canon_afterLeaving]

theorem canon_endGroup {x0 : State} {x1 : Nat} {x2 : Workgroup} {x3 : Bool} (h0 : Canon x0.mem x0.wgs) (h2 : x2.sp.wf
    = true) : Canon (endGroup x0 x1 x2 x3).mem (endGroup x0 x1 x2 x3).wgs := by
  unfold endGroup; grind -ring -linarith -lia [canon_swapPartnerGone, canon_removeGroup]

theorem canon_countGroup {x0 : State} {x1 : Workgroup} {x2 : Bool} (h0 : Canon x0.mem x0.wgs) (h1 : x1.sp.wf = true) :
    ∀ y0, (countGroup x0 x1 x2) = .ok y0 → (Canon y0.mem y0.wgs) := by
  unfold countGroup; exact canon_count (by assumption)

theorem canon_wcbSettle {x0 : State} {x1 : Workgroup} (h0 : Canon x0.mem x0.wgs) (h1 : x1.sp.wf = true) : Canon
    (wcbSettle x0 x1).mem (wcbSettle x0 x1).wgs := by
  unfold wcbSettle; grind -ring -linarith -lia [canon_wcbDone]

theorem canon_wcbWrite {x0 : State} {x1 : Nat} {x2 : Nat} {x3 : Nat} {x4 : Nat} {x5 : Nat} {x6 : Nat} (h0 : Canon
    x0.mem x0.wgs) : Canon (wcbWrite x0 x1 x2 x3 x4 x5 x6).mem (wcbWrite x0 x1 x2 x3 x4 x5 x6).wgs := by
  exact h0

theorem canon_wcbAnswer {x0 : State} {x1 : Nat × Nat × Nat × Nat} {x2 : Nat} {x3 : Nat} (h0 : Canon x0.mem x0.wgs) :
    Canon (wcbAnswer x0 x1 x2 x3).mem (wcbAnswer x0 x1 x2 x3).wgs := by
  unfold wcbAnswer; grind -ring -linarith -lia [wg_canon, Canon.set, wf_nil, writeN_wf, writeMasked_wf]

theorem canon_wcbTarget {x0 : State} {x1 : Nat} {x2 : Nat} {x3 : Nat} (h0 : Canon x0.mem x0.wgs) : ∀ y0, (wcbTarget x0
    x1 x2 x3) = some y0 → ((y0.2).sp.wf = true) := by
  unfold wcbTarget
  suffices hh : ∀ (p : Nat × Workgroup → Prop) [DecidablePred p] (l : Table Workgroup) (a : Option (Nat × Workgroup)),
      (∀ y ∈ l, y.2.sp.wf = true) → (∀ y, a = some y → y.2.sp.wf = true) →
      ∀ y, l.foldl (fun a g => if p g then some g else a) a = some y → y.2.sp.wf = true from hh _ _ _ h0.2 (by simp)
  intro p _ l
  induction l with
  | nil => intro a _ ha y hy; exact ha y hy
  | cons g r ih =>
    intro a hl ha
    refine ih _ (fun y hy => hl y (List.mem_cons_of_mem _ hy)) (fun y hy => ?_)
    by_cases hc : p g
    · simp only [if_pos hc] at hy; cases hy; exact hl _ List.mem_cons_self
    · simp only [if_neg hc] at hy; exact ha y hy

theorem canon_endSaved {x0 : State} {x1 : Nat × Nat × Nat × Nat} {x2 : Nat} {x3 : Workgroup} (h0 : Canon x0.mem
    x0.wgs) (h3 : x3.sp.wf = true) : Canon (endSaved x0 x1 x2 x3).mem (endSaved x0 x1 x2 x3).wgs := by
  unfold endSaved
  simp only
  split
  · rename_i s e
    have hs := canon_andThen (fun s hs => canon_countGroup (canon_exitRecord h0 h3 _ hs) h3) _ e
    exact canon_endGroup (canon_wcbAnswer (canon_afterIo hs (fun y hy => by cases hy; exact hs))) h3
  · exact canon_queueMiss (canon_wcbAnswer h0)
  · exact canon_endGroup (canon_wcbAnswer (canon_State_stopQueue h0)) h3

theorem canon_wcbResume {x0 : State} (h0 : Canon x0.mem x0.wgs) : Canon (wcbResume x0).mem (wcbResume x0).wgs := by
  unfold wcbResume
  split
  · simp only
    split
    · exact canon_wcbAnswer h0
    · rename_i u g e
      have hg := canon_wcbTarget h0 _ e
      grind [canon_wcbAnswer, canon_endSaved]
  · exact h0

theorem canon_leaveConvoys {x0 : State} {x1 : Nat} {x2 : Workgroup} (h0 : Canon x0.mem x0.wgs) (h2 : x2.sp.wf = true)
    : Canon (leaveConvoys x0 x1 x2).mem (leaveConvoys x0 x1 x2).wgs := by
  unfold leaveConvoys; grind -ring -linarith -lia [canon_leaveAll, foldl_canon]

theorem canon_writeBackGroup {x0 : State} {x1 : Nat} {x2 : Workgroup} (h0 : Canon x0.mem x0.wgs) (h2 : x2.sp.wf =
    true) : Canon (writeBackGroup x0 x1 x2).mem (writeBackGroup x0 x1 x2).wgs := by
  unfold writeBackGroup; grind -ring -linarith -lia [canon_State_onBehalf, canon_writeBackWhere]

theorem canon_execWorkgroupEnd {x0 : Nat} {x1 : State} (h1 : Canon x1.mem x1.wgs) : ∀ y0, (execWorkgroupEnd x0 x1) =
    .next y0 → (Canon y0.mem y0.wgs) := by
  unfold execWorkgroupEnd
  intro y hy
  cases hy
  split
  · exact h1
  · rename_i g0 e0
    have hg0 := wg_canon h1 e0
    extract_lets err s1
    have h1' : Canon s1.mem s1.wgs := by
      unfold s1; split
      · exact canon_stopMatrices h1 hg0
      · exact h1
    split
    · exact h1
    · rename_i g e
      have hg := wg_canon h1' e
      simp only
      split
      · split
        · exact canon_leaveConvoys (canon_writeBackGroup h1' hg) hg
        · have h2 := canon_leaveConvoys (x1 := x0) (canon_writeBackGroup (x1 := x0) h1' hg) hg
          split
          · exact canon_queueMiss h1
          · exact h1
          · rename_i s3 e3
            have h3 := canon_exitRecord h2 hg _ e3
            split
            · exact canon_queueMiss h1
            · exact canon_wcbSettle (canon_endGroup (canon_afterIo h3 (fun y hy => by cases hy)) hg) hg
            · rename_i s4 e4
              have h4 := canon_countGroup h3 hg _ e4
              exact canon_wcbSettle (canon_endGroup (canon_afterIo h4 (fun y hy => by cases hy; exact h4)) hg) hg
      · exact h1

/-! ### Rotation -/

theorem canon_State_updCluster {x0 : State} {x1 : Nat} {x2 : Cluster → Cluster} (h0 : Canon x0.mem x0.wgs) : Canon
    (State.updCluster x0 x1 x2).mem (State.updCluster x0 x1 x2).wgs := by
  exact h0

theorem canon_updMovedMembers {x0 : State} {x1 : Nat} {x2 : Nat} {x3 : Member → Member} (h0 : Canon x0.mem x0.wgs) :
    Canon (updMovedMembers x0 x1 x2 x3).mem (updMovedMembers x0 x1 x2 x3).wgs := by
  exact h0

theorem canon_startSwap {x0 : State} {x1 : Nat} {x2 : Nat} {x3 : List Nat} {x4 : List Nat} (h0 : Canon x0.mem x0.wgs)
    : Canon (startSwap x0 x1 x2 x3 x4).mem (startSwap x0 x1 x2 x3 x4).wgs := by
  unfold startSwap; grind -ring -linarith -lia [canon_trySwitch, canon_refreshClock, canon_State_setCluster,
      canon_updMovedMembers]

theorem canon_execRotationInterval {x0 : Nat} {x1 : List Nat} {x2 : State} (h2 : Canon x2.mem x2.wgs) : ∀ y0,
    (execRotationInterval x0 x1 x2) = .next y0 → (Canon y0.mem y0.wgs) := by
  unfold execRotationInterval; grind -ring -linarith -lia [canon_State_setCluster, canon_startSwap]

theorem canon_detachPending {x0 : State} {x1 : Nat} (h0 : Canon x0.mem x0.wgs) : Canon (detachPending x0 x1).mem
    (detachPending x0 x1).wgs := by
  unfold detachPending; grind -ring -linarith -lia [canon_detachMember, foldl_canon]

theorem canon_restartPrefetch {x0 : State} {x1 : WRef} (h0 : Canon x0.mem x0.wgs) : Canon (restartPrefetch x0 x1).mem
    (restartPrefetch x0 x1).wgs := by
  unfold restartPrefetch
  refine foldl_canon (fun s n h => ?_) _ h0
  split
  · rename_i g w e _
    exact canon_State_updWarp (canon_prefetch h (wg_canon h e))
  · exact h

theorem canon_afterMove {x0 : State} {x1 : Nat} {x2 : List WRef} (h0 : Canon x0.mem x0.wgs) : Canon (afterMove x0 x1
    x2).mem (afterMove x0 x1 x2).wgs := by
  unfold afterMove
  exact foldl_canon (fun s k h => canon_settlePipe h) _ (foldl_canon (fun s r h => canon_pairSwap
      (canon_restartPrefetch h)) _ h0)

theorem canon_endRotation {x0 : State} {x1 : Nat} {x2 : Swap} (h0 : Canon x0.mem x0.wgs) : Canon (endRotation x0 x1
    x2).mem (endRotation x0 x1 x2).wgs := by
  unfold endRotation; grind -ring -linarith -lia [canon_updMovedMembers, canon_State_setCluster, canon_afterMove,
      canon_startSwap, canon_detachPending, Canon.map, foldl_canon]

theorem canon_abandonSwap {x0 : State} {x1 : Nat} {x2 : Swap} (h0 : Canon x0.mem x0.wgs) : Canon (abandonSwap x0 x1
    x2).mem (abandonSwap x0 x1 x2).wgs := by
  exact canon_endRotation (canon_State_updCluster h0)

theorem canon_sendMoved {x0 : State} {x1 : Swap} (h0 : Canon x0.mem x0.wgs) : Canon (sendMoved x0 x1).mem (sendMoved
    x0 x1).wgs := by
  unfold sendMoved; grind -ring -linarith -lia [canon_onTileOf, canon_invalidateWhere, Canon.map, foldl_canon]

theorem canon_execSwapQuiesceEnd {x0 : Nat} {x1 : State} (h1 : Canon x1.mem x1.wgs) : ∀ y0, (execSwapQuiesceEnd x0 x1)
    = .next y0 → (Canon y0.mem y0.wgs) := by
  unfold execSwapQuiesceEnd; grind -ring -linarith -lia [canon_onTileOf, canon_State_updCluster, canon_sendMoved]

theorem canon_execSwapQuiesceTimeout {x0 : Nat} {x1 : State} (h1 : Canon x1.mem x1.wgs) : ∀ y0,
    (execSwapQuiesceTimeout x0 x1) = .next y0 → (Canon y0.mem y0.wgs) := by
  unfold execSwapQuiesceTimeout; grind -ring -linarith -lia [canon_abandonSwap]

theorem canon_moveCopies {x0 : State} {x1 : Nat} {x2 : List Nat} (h0 : Canon x0.mem x0.wgs) : Canon (moveCopies x0 x1
    x2).mem (moveCopies x0 x1 x2).wgs := by
  unfold moveCopies; grind -ring -linarith -lia [canon_State_setCopy, foldl_canon]

theorem canon_exchangeTiles {x0 : State} {x1 : Nat} {x2 : Nat} (h0 : Canon x0.mem x0.wgs) : Canon (exchangeTiles x0 x1
    x2).mem (exchangeTiles x0 x1 x2).wgs := by
  unfold exchangeTiles; grind -ring -linarith -lia [canon_State_setTile, canon_moveCopies, Canon.map, foldl_canon]

theorem canon_execSwapTransferEnd {x0 : Nat} {x1 : State} (h1 : Canon x1.mem x1.wgs) : ∀ y0, (execSwapTransferEnd x0
    x1) = .next y0 → (Canon y0.mem y0.wgs) := by
  unfold execSwapTransferEnd; grind -ring -linarith -lia [canon_State_updCluster, canon_exchangeTiles]

theorem canon_execSwapWritebackEnd {x0 : Nat} {x1 : State} (h1 : Canon x1.mem x1.wgs) : ∀ y0, (execSwapWritebackEnd x0
    x1) = .next y0 → (Canon y0.mem y0.wgs) := by
  unfold execSwapWritebackEnd; grind -ring -linarith -lia [canon_onTileOf, canon_State_updCluster]

theorem canon_execSwapEnd {x0 : Nat} {x1 : State} (h1 : Canon x1.mem x1.wgs) : ∀ y0, (execSwapEnd x0 x1) = .next y0 →
    (Canon y0.mem y0.wgs) := by
  unfold execSwapEnd; grind -ring -linarith -lia [canon_endRotation, canon_State_updCluster]

theorem canon_execRotctlWrite {x0 : Nat} {x1 : BitVec 64} {x2 : State} (h2 : Canon x2.mem x2.wgs) : ∀ y0,
    (execRotctlWrite x0 x1 x2) = .next y0 → (Canon y0.mem y0.wgs) := by
  unfold execRotctlWrite; grind -ring -linarith -lia [canon_State_updCluster]

/-! ### Preempt -/

theorem canon_writeImage {x0 : State} {x1 : Workgroup} {x2 : Nat} {x3 : List (Nat × Nat × Nat)} (h0 : Canon x0.mem
    x0.wgs) (h1 : x1.sp.wf = true) : ∀ y0, (writeImage x0 x1 x2 x3) = .ok y0 → (Canon y0.mem y0.wgs) := by
  fun_induction writeImage x0 x1 x2 x3
  · intro y hy; cases hy; exact h0
  · rename_i ih
    refine canon_andThen (fun x _ y hy => ?_)
    split at hy
    · cases hy
    · exact ih _ (canon_chanWrite h0) _ hy

theorem canon_writeRecords {x0 : State} {x1 : Workgroup} {x2 : List (Nat × Warp)} (h0 : Canon x0.mem x0.wgs) (h1 :
    x1.sp.wf = true) : ∀ y0, (writeRecords x0 x1 x2) = .ok y0 → (Canon y0.mem y0.wgs) := by
  induction x2 generalizing x0 with
  | nil => intro y hy; cases hy; exact h0
  | cons p r ih =>
    unfold writeRecords
    have hf : Canon (if p.2.c.handler = some 3 then fetchImage x0 x1 (faultArea x1 p.1) 768 else x0).mem
        (if p.2.c.handler = some 3 then fetchImage x0 x1 (faultArea x1 p.1) 768 else x0).wgs := by
      split
      · exact canon_fetchImage h0 h1
      · exact h0
    exact canon_andThen (fun x _ => canon_andThen (fun s hs => ih (canon_writeImage (canon_warmImage hf h1) h1 _ hs)))

theorem canon_saveImage {x0 : State} {x1 : Workgroup} (h0 : Canon x0.mem x0.wgs) (h1 : x1.sp.wf = true) : ∀ y0,
    (saveImage x0 x1) = .ok y0 → (Canon y0.mem y0.wgs) := by
  unfold saveImage; exact canon_andThen (fun x hx => canon_writeRecords (canon_writeImage (canon_warmImage h0 h1) h1 _
      hx) h1)

theorem canon_storeGroup {x0 : State} {x1 : Nat} {x2 : Workgroup} (h0 : Canon x0.mem x0.wgs) (h2 : x2.sp.wf = true) :
    Canon (storeGroup x0 x1 x2).mem (storeGroup x0 x1 x2).wgs := by
  unfold storeGroup; grind -ring -linarith -lia [canon_wcbSettle, canon_afterLeaving, canon_State_setWg]

theorem canon_saveReads {x0 : State} {x1 : Workgroup} (h0 : Canon x0.mem x0.wgs) (h1 : x1.sp.wf = true) : Canon
    (saveReads x0 x1).mem (saveReads x0 x1).wgs := by
  unfold saveReads; grind -ring -linarith -lia [canon_warmImage, canon_fetchAreas]

theorem canon_switchOut {x0 : State} {x1 : Nat} {x2 : Workgroup} (h0 : Canon x0.mem x0.wgs) (h2 : x2.sp.wf = true) :
    Canon (switchOut x0 x1 x2).mem (switchOut x0 x1 x2).wgs := by
  unfold switchOut
  simp only
  have h1 := foldl_canon (f := fun s (x : Nat × Warp) => stopMatrix s ⟨x1, x.1⟩) (fun _ _ h => canon_stopMatrix h)
      x2.warps h0
  split
  · exact h0
  · rename_i g e
    have hg := wg_canon h1 e
    split
    · split
      · exact canon_writeBackGroup h1 hg
      · have h2 := foldl_canon (f := fun s (x : Nat × Warp) => detachAll s (dieOf g.tile) ⟨x1, x.1⟩) (fun _ _ h =>
          canon_detachAll h) g.warps
          (canon_writeBackGroup (x1 := x1) h1 hg)
        revert h2
        generalize List.foldl (fun s (x : Nat × Warp) => detachAll s (dieOf g.tile) ⟨x1, x.1⟩) _ g.warps = s2
        intro h2
        have hg' : ((s2.wg x1).getD g).sp.wf = true := by
          cases e2 : s2.wg x1 with
          | none => exact hg
          | some g2 => exact wg_canon h2 e2
        split
        · rename_i s3 e3
          have h3 := canon_saveImage h2 hg' _ e3
          exact canon_storeGroup (canon_afterIo h3 (fun y hy => by cases hy; exact h3)) hg'
        · exact canon_queueMiss (canon_saveReads h0 hg')
        · exact canon_endWithError (canon_saveReads h0 hg')
    · exact h0

theorem canon_discardGroup {x0 : State} {x1 : Nat} {x2 : Workgroup} (h0 : Canon x0.mem x0.wgs) (h2 : x2.sp.wf = true)
    : Canon (discardGroup x0 x1 x2).mem (discardGroup x0 x1 x2).wgs := by
  unfold discardGroup; grind -ring -linarith -lia [canon_stopMatrices, canon_State_wg, canon_leaveConvoys,
      canon_writeBackGroup, canon_wcbSettle, canon_removeGroup, canon_endGroup, canon_countGroup, canon_queueMiss,
      canon_State_stopQueue, canon_State_setLevel]

theorem canon_execWorkgroupSwitchOut {x0 : Nat} {x1 : State} (h1 : Canon x1.mem x1.wgs) : ∀ y0,
    (execWorkgroupSwitchOut x0 x1) = .next y0 → (Canon y0.mem y0.wgs) := by
  unfold execWorkgroupSwitchOut; grind -ring -linarith -lia [canon_State_wg, canon_discardGroup, canon_switchOut]

theorem canon_savedWord {x0 : State} {x1 : Workgroup} {x2 : Pos} (h0 : Canon x0.mem x0.wgs) (h1 : x1.sp.wf = true) :
    Canon ((savedWord x0 x1 x2).1).mem ((savedWord x0 x1 x2).1).wgs := by
  unfold savedWord; grind -ring -linarith -lia [canon_mergeRead]

theorem canon_resumeAll {x0 : State} {x1 : Nat} {x2 : Workgroup} (h0 : Canon x0.mem x0.wgs) (h2 : x2.sp.wf = true) :
    Canon (resumeAll x0 x1 x2).mem (resumeAll x0 x1 x2).wgs := by
  unfold resumeAll; grind -ring -linarith -lia [canon_savedWord, canon_resumeMatrix, foldl_canon]

theorem canon_headerGroup {x0 : Workgroup} {x1 : List Reg} (h0 : x0.sp.wf = true) : ∀ y0, (headerGroup x0 x1) = some
    y0 → (y0.sp.wf = true) := by
  unfold headerGroup; grind -ring -linarith -lia [wg_canon, Canon.set, wf_nil, writeN_wf, writeMasked_wf]

theorem canon_restoreImage {x0 : State} {x1 : Workgroup} (h0 : Canon x0.mem x0.wgs) (h1 : x1.sp.wf = true) : ∀ y0,
    (restoreImage x0 x1) = .ok y0 → ((y0.1).sp.wf = true) := by
  unfold restoreImage IoRes.andThen
  intro y hy
  grind [canon_headerGroup]

theorem canon_restoreGroup {x0 : State} {x1 : Nat} {x2 : Workgroup} (h0 : Canon x0.mem x0.wgs) (h2 : x2.sp.wf = true)
    : Canon (restoreGroup x0 x1 x2).mem (restoreGroup x0 x1 x2).wgs := by
  unfold restoreGroup; grind -ring -linarith -lia [wg_canon, Canon.set, wf_nil, writeN_wf, writeMasked_wf,
      canon_restoreImage, canon_queueMiss, canon_State_updWg, canon_State_setWg, canon_afterIo, canon_invalidateWhere,
      canon_fetchAreas, canon_swapPartnerGone, canon_resumeAll, IoRes.andThen, wf_writes]

theorem canon_execWorkgroupRestore {x0 : Nat} {x1 : State} (h1 : Canon x1.mem x1.wgs) : ∀ y0, (execWorkgroupRestore x0
    x1) = .next y0 → (Canon y0.mem y0.wgs) := by
  unfold execWorkgroupRestore; grind -ring -linarith -lia [canon_State_wg, canon_restoreGroup]

theorem canon_expireGroup {x0 : State} {x1 : Nat} (h0 : Canon x0.mem x0.wgs) : Canon (expireGroup x0 x1).mem
    (expireGroup x0 x1).wgs := by
  unfold expireGroup
  split
  · rename_i g e
    have hg := wg_canon h0 e
    split
    · exact h0
    · split
      · exact canon_endWithError (canon_reportExpiry h0 hg)
      · exact foldl_canon (fun s w h => canon_reportExpiry h hg) _ (canon_State_setWg h0 hg)
  · exact h0

theorem canon_endCalls {x0 : State} {x1 : List Nat} (h0 : Canon x0.mem x0.wgs) : Canon (endCalls x0 x1).mem (endCalls
    x0 x1).wgs := by
  unfold endCalls; grind -ring -linarith -lia [canon_abortGroup, foldl_canon]

theorem canon_execPreemptTimeout {x0 : Nat} {x1 : State} (h1 : Canon x1.mem x1.wgs) : ∀ y0, (execPreemptTimeout x0 x1)
    = .next y0 → (Canon y0.mem y0.wgs) := by
  unfold execPreemptTimeout; grind -ring -linarith -lia [canon_State_wg, canon_endCalls, canon_expireGroup, foldl_canon]

theorem canon_execCancelTimeout {x0 : Nat} {x1 : State} (h1 : Canon x1.mem x1.wgs) : ∀ y0, (execCancelTimeout x0 x1) =
    .next y0 → (Canon y0.mem y0.wgs) := by
  unfold execCancelTimeout; grind -ring -linarith -lia [canon_State_wg, canon_State_updWg, canon_endWithError]

theorem canon_wcbRequest {x0 : State} {x1 : Nat} {x2 : Nat} {x3 : Nat} {x4 : Nat} {x5 : Nat → Workgroup → State} (h0 :
    Canon x0.mem x0.wgs) (h5 : ∀ (y0_0 : Nat) (y0_1 : Workgroup), (y0_1.sp.wf = true) → Canon (x5 y0_0 y0_1).mem (x5
    y0_0 y0_1).wgs) : Canon (wcbRequest x0 x1 x2 x3 x4 x5).mem (wcbRequest x0 x1 x2 x3 x4 x5).wgs := by
  unfold wcbRequest; grind -ring -linarith -lia [→ canon_wcbTarget, canon_wcbWrite]

theorem canon_preemptGroup {x0 : State} {x1 : Nat} (h0 : Canon x0.mem x0.wgs) : Canon (preemptGroup x0 x1).mem
    (preemptGroup x0 x1).wgs := by
  unfold preemptGroup; grind -ring -linarith -lia [canon_State_updWg]

theorem canon_preemptRequest {x0 : State} {x1 : Nat} {x2 : Nat} {x3 : Nat} {x4 : Nat} {x5 : Nat} {x6 : Workgroup} (h0
    : Canon x0.mem x0.wgs) (h6 : x6.sp.wf = true) : Canon (preemptRequest x0 x1 x2 x3 x4 x5 x6).mem (preemptRequest x0
    x1 x2 x3 x4 x5 x6).wgs := by
  unfold preemptRequest; grind -ring -linarith -lia [canon_preemptGroup, canon_wcbWrite, foldl_canon]

theorem canon_execWcbPreempt {x0 : Nat} {x1 : Nat} {x2 : Nat} {x3 : State} (h3 : Canon x3.mem x3.wgs) : ∀ y0,
    (execWcbPreempt x0 x1 x2 x3) = .next y0 → (Canon y0.mem y0.wgs) := by
  unfold execWcbPreempt; grind -ring -linarith -lia [canon_wcbRequest, canon_preemptRequest]

theorem canon_execWcbPreemptGang {x0 : Nat} {x1 : Nat} {x2 : Nat} {x3 : State} (h3 : Canon x3.mem x3.wgs) : ∀ y0,
    (execWcbPreemptGang x0 x1 x2 x3) = .next y0 → (Canon y0.mem y0.wgs) := by
  unfold execWcbPreemptGang; grind -ring -linarith -lia [canon_wcbRequest, canon_preemptRequest, canon_wcbWrite]

theorem canon_execWcbRestore {x0 : Nat} {x1 : Nat} {x2 : Nat} {x3 : State} (h3 : Canon x3.mem x3.wgs) : ∀ y0,
    (execWcbRestore x0 x1 x2 x3) = .next y0 → (Canon y0.mem y0.wgs) := by
  unfold execWcbRestore; grind -ring -linarith -lia [canon_wcbRequest, canon_State_wg, canon_wcbWrite]

theorem canon_execWcbEnd {x0 : Nat} {x1 : Nat} {x2 : Nat} {x3 : State} (h3 : Canon x3.mem x3.wgs) : ∀ y0, (execWcbEnd
    x0 x1 x2 x3) = .next y0 → (Canon y0.mem y0.wgs) := by
  unfold execWcbEnd
  intro y hy
  cases hy
  refine canon_wcbRequest h3 (fun u g hg => ?_)
  split
  · exact canon_endSaved (canon_wcbWrite h3) hg
  · exact canon_wcbWrite h3

/-! ### FaultService -/

theorem canon_advanceRing {x0 : State} {x1 : Nat} (h0 : Canon x0.mem x0.wgs) : Canon (advanceRing x0 x1).mem
    (advanceRing x0 x1).wgs := by
  unfold advanceRing; grind -ring -linarith -lia [wg_canon, Canon.set, wf_nil, writeN_wf, writeMasked_wf]

theorem canon_execFaultRingHeadWrite {x0 : BitVec 64} {x1 : State} (h1 : Canon x1.mem x1.wgs) : ∀ y0,
    (execFaultRingHeadWrite x0 x1) = .next y0 → (Canon y0.mem y0.wgs) := by
  unfold execFaultRingHeadWrite; grind -ring -linarith -lia [canon_advanceRing]

theorem canon_replyWarp {x0 : State} {x1 : WRef} {x2 : FaultMsg} {x3 : Bool} (h0 : Canon x0.mem x0.wgs) : Canon
    (replyWarp x0 x1 x2 x3).mem (replyWarp x0 x1 x2 x3).wgs := by
  unfold replyWarp; exact canon_State_updWarp (by assumption)

theorem canon_replyMatrix {x0 : State} {x1 : WRef} {x2 : FaultMsg} {x3 : Bool} (h0 : Canon x0.mem x0.wgs) : Canon
    (replyMatrix x0 x1 x2 x3).mem (replyMatrix x0 x1 x2 x3).wgs := by
  unfold replyMatrix; grind -ring -linarith -lia [canon_State_setWarp, canon_releaseParked]

theorem canon_replyCopy {x0 : State} {x1 : Copy} {x2 : FaultMsg} {x3 : Bool} (h0 : Canon x0.mem x0.wgs) : Canon
    (replyCopy x0 x1 x2 x3).mem (replyCopy x0 x1 x2 x3).wgs := by
  exact canon_putRecord (canon_State_setCopy h0)

theorem canon_replyMiss {x0 : State} {x1 : FaultMsg} {x2 : Bool} (h0 : Canon x0.mem x0.wgs) : Canon (replyMiss x0 x1
    x2).mem (replyMiss x0 x1 x2).wgs := by
  unfold replyMiss; grind -ring -linarith -lia [canon_replyMatrix, canon_replyWarp, canon_replyCopy, foldl_canon]

theorem canon_replyBreak {x0 : State} {x1 : FaultMsg} {x2 : Bool} (h0 : Canon x0.mem x0.wgs) : Canon (replyBreak x0 x1
    x2).mem (replyBreak x0 x1 x2).wgs := by
  unfold replyBreak; grind -ring -linarith -lia [canon_State_wg, canon_State_setWarp, canon_retire]

theorem canon_replyQueue {x0 : State} {x1 : FaultMsg} {x2 : Bool} (h0 : Canon x0.mem x0.wgs) : Canon (replyQueue x0 x1
    x2).mem (replyQueue x0 x1 x2).wgs := by
  exact h0

theorem canon_releaseReply {x0 : State} {x1 : FaultMsg} {x2 : Bool} (h0 : Canon x0.mem x0.wgs) : Canon (releaseReply
    x0 x1 x2).mem (releaseReply x0 x1 x2).wgs := by
  unfold releaseReply; grind -ring -linarith -lia [canon_replyBreak, canon_wcbResume, canon_replyQueue, canon_replyMiss]

theorem canon_execFaultRingReply {x0 : BitVec 64} {x1 : State} (h1 : Canon x1.mem x1.wgs) : ∀ y0, (execFaultRingReply
    x0 x1) = .next y0 → (Canon y0.mem y0.wgs) := by
  unfold execFaultRingReply; grind -ring -linarith -lia [canon_State_countEvent, canon_releaseReply]

theorem canon_bindSlot {x0 : State} {x1 : Nat} {x2 : Slot} (h0 : Canon x0.mem x0.wgs) : Canon (bindSlot x0 x1 x2).mem
    (bindSlot x0 x1 x2).wgs := by
  unfold bindSlot
  exact canon_State_setSlot (Canon.map _ h0 (fun _ h => h))

theorem canon_execContextSlotWrite {x0 : Nat} {x1 : Nat} {x2 : BitVec 64} {x3 : State} (h3 : Canon x3.mem x3.wgs) : ∀
    y0, (execContextSlotWrite x0 x1 x2 x3) = .next y0 → (Canon y0.mem y0.wgs) := by
  unfold execContextSlotWrite; grind -ring -linarith -lia [canon_bindSlot, canon_State_setSlot]

/-! ### MemEvents -/

theorem canon_execMergePointRead {x0 : Nat} {x1 : Nat} {x2 : State} (h2 : Canon x2.mem x2.wgs) : ∀ y0,
    (execMergePointRead x0 x1 x2) = .next y0 → (Canon y0.mem y0.wgs) := by
  unfold execMergePointRead; grind -ring -linarith -lia [canon_mergeRead]

theorem canon_execMergePointWrite {x0 : Nat} {x1 : BitVec 128} {x2 : BitVec 1024} {x3 : State} (h3 : Canon x3.mem
    x3.wgs) : ∀ y0, (execMergePointWrite x0 x1 x2 x3) = .next y0 → (Canon y0.mem y0.wgs) := by
  unfold execMergePointWrite; grind -ring -linarith -lia [canon_chanWriteLine]

theorem canon_countAdmitted {x0 : State} {x1 : Nat} {x2 : MergeWait} {x3 : Bool} (h0 : Canon x0.mem x0.wgs) : Canon
    (countAdmitted x0 x1 x2 x3).mem (countAdmitted x0 x1 x2 x3).wgs := by
  unfold countAdmitted; grind -ring -linarith -lia [canon_State_countEvent, canon_State_updWarp]

theorem canon_admitReads {x0 : State} {x1 : Nat} {x2 : Nat} (h0 : Canon x0.mem x0.wgs) : Canon (admitReads x0 x1
    x2).mem (admitReads x0 x1 x2).wgs := by
  fun_induction admitReads x0 x1 x2 <;> grind -ring -linarith -lia [canon_State_reset, canon_countAdmitted]

theorem canon_execDramReturn {x0 : Nat} {x1 : State} (h1 : Canon x1.mem x1.wgs) : ∀ y0, (execDramReturn x0 x1) = .next
    y0 → (Canon y0.mem y0.wgs) := by
  unfold execDramReturn; grind -ring -linarith -lia [canon_admitReads]

theorem canon_unitAtomic {x0 : State} {x1 : Nat} {x2 : Nat} {x3 : BitVec 4} {x4 : Nat} (h0 : Canon x0.mem x0.wgs) :
    Canon (unitAtomic x0 x1 x2 x3 x4).mem (unitAtomic x0 x1 x2 x3 x4).wgs := by
  unfold unitAtomic; exact canon_chanWrite (by assumption)

theorem canon_execAtomicUnitRequest {x0 : Nat} {x1 : BitVec 4} {x2 : Nat} {x3 : BitVec 64} {x4 : State} (h4 : Canon
    x4.mem x4.wgs) : ∀ y0, (execAtomicUnitRequest x0 x1 x2 x3 x4) = .next y0 → (Canon y0.mem y0.wgs) := by
  unfold execAtomicUnitRequest; grind -ring -linarith -lia [canon_unitAtomic]

theorem canon_execManagementCoreStore {x0 : Nat} {x1 : Nat} {x2 : BitVec 64} {x3 : State} (h3 : Canon x3.mem x3.wgs) :
    ∀ y0, (execManagementCoreStore x0 x1 x2 x3) = .next y0 → (Canon y0.mem y0.wgs) := by
  unfold execManagementCoreStore; grind -ring -linarith -lia [canon_chanWrite]

theorem canon_execPageWalkStart {x0 : Nat} {x1 : Nat} {x2 : Nat} {x3 : Nat} {x4 : State} (h4 : Canon x4.mem x4.wgs) :
    ∀ y0, (execPageWalkStart x0 x1 x2 x3 x4) = .next y0 → (Canon y0.mem y0.wgs) := by
  unfold execPageWalkStart; grind -ring -linarith -lia [canon_listWalk]

theorem canon_walkUpper {x0 : State} {x1 : Nat} {x2 : Nat} {x3 : Nat} {x4 : Nat} (h0 : Canon x0.mem x0.wgs) : Canon
    (walkUpper x0 x1 x2 x3 x4).mem (walkUpper x0 x1 x2 x3 x4).wgs := by
  unfold walkUpper; grind -ring -linarith -lia [canon_readLines, canon_State_updCluster]

theorem canon_execPageWalkEnd {x0 : Nat} {x1 : Nat} {x2 : Nat} {x3 : State} (h3 : Canon x3.mem x3.wgs) : ∀ y0,
    (execPageWalkEnd x0 x1 x2 x3) = .next y0 → (Canon y0.mem y0.wgs) := by
  unfold execPageWalkEnd; grind -ring -linarith -lia [canon_State_updCluster, canon_State_countEvent, canon_walkUpper]

theorem canon_logRetired {x0 : State} {x1 : Nat} {x2 : Nat} {x3 : Nat} {x4 : Nat} (h0 : Canon x0.mem x0.wgs) : Canon
    (logRetired x0 x1 x2 x3 x4).mem (logRetired x0 x1 x2 x3 x4).wgs := by
  exact h0

theorem canon_settleRetired {x0 : State} (h0 : Canon x0.mem x0.wgs) : Canon (settleRetired x0).mem (settleRetired
    x0).wgs := by
  unfold settleRetired; exact foldl_canon (fun s p h => canon_State_logError (x0 := { s with dev := { s.dev with
      retiring := s.dev.retiring.erase p } }) h) _ h0

theorem canon_execTranslationInvalidate {x0 : Nat} {x1 : State} (h1 : Canon x1.mem x1.wgs) : ∀ y0,
    (execTranslationInvalidate x0 x1) = .next y0 → (Canon y0.mem y0.wgs) := by
  unfold execTranslationInvalidate; grind -ring -linarith -lia [canon_settleRetired]

theorem canon_execEccError {x0 : Nat} {x1 : Bool} {x2 : Bool} {x3 : State} (h3 : Canon x3.mem x3.wgs) : ∀ y0,
    (execEccError x0 x1 x2 x3) = .next y0 → (Canon y0.mem y0.wgs) := by
  unfold execEccError; grind -ring -linarith -lia [canon_State_logError, canon_settleRetired]

theorem canon_retireWay {x0 : State} {x1 : Nat} {x2 : Nat} (h0 : Canon x0.mem x0.wgs) : Canon (retireWay x0 x1 x2).mem
    (retireWay x0 x1 x2).wgs := by
  unfold retireWay; grind -ring -linarith -lia [canon_State_setTile, canon_invalidateLine, foldl_canon]

theorem canon_endByTile {x0 : State} {x1 : Nat} {x2 : Nat} (h0 : Canon x0.mem x0.wgs) : Canon (endByTile x0 x1 x2).mem
    (endByTile x0 x1 x2).wgs := by
  unfold endByTile; grind -ring -linarith -lia [canon_State_wg, canon_State_draw, canon_endWithError]

theorem canon_sramError {x0 : State} {x1 : Nat} {x2 : Nat} {x3 : Bool} (h0 : Canon x0.mem x0.wgs) : Canon (sramError
    x0 x1 x2 x3).mem (sramError x0 x1 x2 x3).wgs := by
  unfold sramError; grind -ring -linarith -lia [canon_State_logError, canon_endByTile, canon_State_setTile,
      canon_abandonSwap, canon_logRetired]

theorem canon_cleanError {x0 : State} {x1 : Nat} {x2 : Nat} {x3 : Bool} (h0 : Canon x0.mem x0.wgs) : Canon (cleanError
    x0 x1 x2 x3).mem (cleanError x0 x1 x2 x3).wgs := by
  unfold cleanError; grind -ring -linarith -lia [canon_State_setTile, canon_logRetired, canon_retireWay,
      canon_State_logError]

theorem canon_dirtyError {x0 : State} {x1 : Nat} {x2 : Nat} {x3 : Bool} (h0 : Canon x0.mem x0.wgs) : Canon (dirtyError
    x0 x1 x2 x3).mem (dirtyError x0 x1 x2 x3).wgs := by
  unfold dirtyError; grind -ring -linarith -lia [canon_State_logError, canon_State_setTile, canon_endByTile,
      canon_logRetired, canon_retireWay, foldl_canon]

theorem canon_codeError {x0 : State} {x1 : Nat} {x2 : Nat} {x3 : Bool} (h0 : Canon x0.mem x0.wgs) : Canon (codeError
    x0 x1 x2 x3).mem (codeError x0 x1 x2 x3).wgs := by
  unfold codeError; grind -ring -linarith -lia [canon_logRetired, canon_State_setTile, canon_State_logError]

theorem canon_cacheError {x0 : State} {x1 : Nat} {x2 : Nat} {x3 : Bool} (h0 : Canon x0.mem x0.wgs) : Canon (cacheError
    x0 x1 x2 x3).mem (cacheError x0 x1 x2 x3).wgs := by
  unfold cacheError; grind -ring -linarith -lia [canon_State_setTile, canon_logRetired, canon_State_logError]

theorem canon_execSramParityError {x0 : Nat} {x1 : Nat} {x2 : Nat} {x3 : Bool} {x4 : State} (h4 : Canon x4.mem x4.wgs)
    : ∀ y0, (execSramParityError x0 x1 x2 x3 x4) = .next y0 → (Canon y0.mem y0.wgs) := by
  unfold execSramParityError; grind -ring -linarith -lia [canon_sramError, canon_cleanError, canon_codeError,
      canon_cacheError, canon_dirtyError]

theorem canon_cutOff {x0 : State} (h0 : Canon x0.mem x0.wgs) : Canon (cutOff x0).mem (cutOff x0).wgs := by
  exact h0

theorem canon_dropPort {x0 : State} {x1 : Nat} (h0 : Canon x0.mem x0.wgs) : Canon (dropPort x0 x1).mem (dropPort x0
    x1).wgs := by
  exact h0

theorem canon_execLinkCrcError {x0 : Bool} {x1 : Nat} {x2 : Bool} {x3 : State} (h3 : Canon x3.mem x3.wgs) : ∀ y0,
    (execLinkCrcError x0 x1 x2 x3) = .next y0 → (Canon y0.mem y0.wgs) := by
  unfold execLinkCrcError; grind -ring -linarith -lia [canon_State_logError, canon_dropPort, canon_cutOff,
      canon_State_updCluster, canon_logRetired]

theorem canon_execPortTrainingLoss {x0 : Nat} {x1 : State} (h1 : Canon x1.mem x1.wgs) : ∀ y0, (execPortTrainingLoss x0
    x1) = .next y0 → (Canon y0.mem y0.wgs) := by
  unfold execPortTrainingLoss; grind -ring -linarith -lia [canon_dropPort]

theorem canon_execLinkOccupancyWindow {x0 : Nat} {x1 : Nat} {x2 : State} (h2 : Canon x2.mem x2.wgs) : ∀ y0,
    (execLinkOccupancyWindow x0 x1 x2) = .next y0 → (Canon y0.mem y0.wgs) := by
  unfold execLinkOccupancyWindow; grind -ring -linarith -lia [canon_State_updCluster]

theorem canon_execLinkCongestion {x0 : Nat} {x1 : State} (h1 : Canon x1.mem x1.wgs) : ∀ y0, (execLinkCongestion x0 x1)
    = .next y0 → (Canon y0.mem y0.wgs) := by
  unfold execLinkCongestion; grind -ring -linarith -lia [canon_State_updCluster]

theorem canon_execLinkWidthHandshakeEnd {x0 : Nat} {x1 : State} (h1 : Canon x1.mem x1.wgs) : ∀ y0,
    (execLinkWidthHandshakeEnd x0 x1) = .next y0 → (Canon y0.mem y0.wgs) := by
  unfold execLinkWidthHandshakeEnd; grind -ring -linarith -lia [canon_State_updCluster]

/-! ### Registers -/

theorem canon_clusterRead {x0 : State} {x1 : Nat} {x2 : Nat} (h0 : Canon x0.mem x0.wgs) : Canon ((clusterRead x0 x1
    x2).1).mem ((clusterRead x0 x1 x2).1).wgs := by
  unfold clusterRead; grind -ring -linarith -lia [canon_lookFifos]

theorem canon_dieRead {x0 : State} {x1 : Nat} {x2 : Nat} (h0 : Canon x0.mem x0.wgs) : Canon ((dieRead x0 x1 x2).1).mem
    ((dieRead x0 x1 x2).1).wgs := by
  unfold dieRead; grind -ring -linarith -lia [canon_clusterRead]

theorem canon_monitorRead {x0 : State} {x1 : Nat} (h0 : Canon x0.mem x0.wgs) : Canon ((monitorRead x0 x1).1).mem
    ((monitorRead x0 x1).1).wgs := by
  unfold monitorRead; grind -ring -linarith -lia [canon_dieRead]

/-! ### Fabric -/

theorem canon_execInboundWindowWrite {x0 : Nat} {x1 : Nat} {x2 : BitVec 64} {x3 : State} (h3 : Canon x3.mem x3.wgs) :
    ∀ y0, (execInboundWindowWrite x0 x1 x2 x3) = .next y0 → (Canon y0.mem y0.wgs) := by
  unfold execInboundWindowWrite; grind -ring -linarith -lia

theorem canon_outerRead {x0 : State} {x1 : Nat} (h0 : Canon x0.mem x0.wgs) : Canon (outerRead x0 x1).mem (outerRead x0
    x1).wgs := by
  unfold outerRead; exact canon_mergeRead (by assumption)

theorem canon_execFabricInboundRequest {x0 : Nat} {x1 : Nat} {x2 : Nat} {x3 : Nat} {x4 : BitVec 4} {x5 : LineBytes}
    {x6 : State} (h6 : Canon x6.mem x6.wgs) : ∀ y0, (execFabricInboundRequest x0 x1 x2 x3 x4 x5 x6) = .next y0 →
    (Canon y0.mem y0.wgs) := by
  unfold execFabricInboundRequest; grind -ring -linarith -lia [canon_outerRead, canon_chanWriteLine, canon_unitAtomic]

theorem canon_execFabricCompletion {x0 : WRef} {x1 : Nat} {x2 : Nat} {x3 : Nat} {x4 : State} (h4 : Canon x4.mem
    x4.wgs) : ∀ y0, (execFabricCompletion x0 x1 x2 x3 x4) = .next y0 → (Canon y0.mem y0.wgs) := by
  unfold execFabricCompletion; grind -ring -linarith -lia [canon_State_setWarp, canon_knowErrors, canon_failCopy,
      canon_failGroup]

theorem canon_State_updMonitor {x0 : State} {x1 : Nat} {x2 : Nat} {x3 : Monitor → Monitor} (h0 : Canon x0.mem x0.wgs)
    : Canon (State.updMonitor x0 x1 x2 x3).mem (State.updMonitor x0 x1 x2 x3).wgs := by
  exact h0

theorem canon_execPerfMonitorClear {x0 : Nat} {x1 : Nat} {x2 : State} (h2 : Canon x2.mem x2.wgs) : ∀ y0,
    (execPerfMonitorClear x0 x1 x2) = .next y0 → (Canon y0.mem y0.wgs) := by
  unfold execPerfMonitorClear; grind -ring -linarith -lia [canon_State_updMonitor]

theorem canon_stateAfter {x0 : State} {x1 : Host.Outcome State Fault Refusal} (h0 : Canon x0.mem x0.wgs) (h1 : ∀ y0,
    x1 = .next y0 → (Canon y0.mem y0.wgs)) : Canon (stateAfter x0 x1).mem (stateAfter x0 x1).wgs := by
  unfold stateAfter; grind -ring -linarith -lia

theorem canon_syslimWrite {x0 : State} {x1 : Nat} {x2 : Nat} (h0 : Canon x0.mem x0.wgs) : Canon (syslimWrite x0 x1
    x2).mem (syslimWrite x0 x1 x2).wgs := by
  unfold syslimWrite; grind -ring -linarith -lia [canon_State_updCluster, canon_State_draw]

theorem canon_clusterWrite {x0 : State} {x1 : Nat} {x2 : Nat} {x3 : Reg} (h0 : Canon x0.mem x0.wgs) : Canon
    (clusterWrite x0 x1 x2 x3).mem (clusterWrite x0 x1 x2 x3).wgs := by
  unfold clusterWrite; grind -ring -linarith -lia [canon_syslimWrite, canon_stateAfter, canon_execRotctlWrite,
      canon_clkstatWrite, canon_State_updMonitor, canon_execPipeDescriptorWrite]

theorem canon_dieWrite {x0 : State} {x1 : Nat} {x2 : Nat} {x3 : Reg} (h0 : Canon x0.mem x0.wgs) : Canon (dieWrite x0
    x1 x2 x3).mem (dieWrite x0 x1 x2 x3).wgs := by
  unfold dieWrite; grind -ring -linarith -lia [canon_clusterWrite, canon_stateAfter, canon_execPairpwrWrite,
      canon_execDiepwrWrite, canon_execConvoySlotWrite]

theorem canon_wcbRegister {x0 : State} {x1 : Nat} {x2 : Reg} (h0 : Canon x0.mem x0.wgs) : Canon (wcbRegister x0 x1
    x2).mem (wcbRegister x0 x1 x2).wgs := by
  unfold wcbRegister; grind -ring -linarith -lia [canon_stateAfter, canon_execWcbPreempt, canon_execWcbPreemptGang,
      canon_execWcbRestore, canon_execWcbEnd, canon_wcbWrite]

theorem canon_ioWrite {x0 : State} {x1 : Nat} {x2 : Reg} (h0 : Canon x0.mem x0.wgs) : Canon (ioWrite x0 x1 x2).mem
    (ioWrite x0 x1 x2).wgs := by
  unfold ioWrite; grind -ring -linarith -lia [canon_stateAfter, canon_execQueueDescriptorWrite, canon_execDoorbell,
      canon_execFaultRingHeadWrite, canon_execFaultRingReply, canon_execInboundWindowWrite,
      canon_execContextSlotWrite, canon_wcbRegister]

theorem canon_monitorWrite {x0 : State} {x1 : Nat} {x2 : Reg} (h0 : Canon x0.mem x0.wgs) : Canon (monitorWrite x0 x1
    x2).mem (monitorWrite x0 x1 x2).wgs := by
  unfold monitorWrite; grind -ring -linarith -lia [canon_dieWrite, canon_ioWrite]

theorem canon_execMonitorRegisterWrite {x0 : Nat} {x1 : BitVec 64} {x2 : State} (h2 : Canon x2.mem x2.wgs) : ∀ y0,
    (execMonitorRegisterWrite x0 x1 x2) = .next y0 → (Canon y0.mem y0.wgs) := by
  unfold execMonitorRegisterWrite; grind -ring -linarith -lia [canon_monitorWrite]

theorem canon_State_hostGets {x0 : State} {x1 : Reg} (h0 : Canon x0.mem x0.wgs) : Canon (State.hostGets x0 x1).mem
    (State.hostGets x0 x1).wgs := by
  unfold State.hostGets; grind -ring -linarith -lia [wg_canon, Canon.set, wf_nil, writeN_wf, writeMasked_wf]

theorem canon_bar0Access {x0 : State} {x1 : Nat} {x2 : Bool} {x3 : Reg} (h0 : Canon x0.mem x0.wgs) : Canon (bar0Access
    x0 x1 x2 x3).mem (bar0Access x0 x1 x2 x3).wgs := by
  unfold bar0Access; grind -ring -linarith -lia [canon_monitorWrite, canon_monitorRead, canon_State_hostGets]

theorem canon_bar2Access {x0 : State} {x1 : Nat} {x2 : Nat} {x3 : Bool} {x4 : Reg} (h0 : Canon x0.mem x0.wgs) : Canon
    (bar2Access x0 x1 x2 x3 x4).mem (bar2Access x0 x1 x2 x3 x4).wgs := by
  unfold bar2Access
  simp only
  split
  · split
    · exact foldl_canon (fun s p h => canon_chanWrite h) _ h0
    · exact canon_State_hostGets (foldl_canon (fun s p h => canon_outerRead h) _ h0)
  · exact h0

theorem canon_execHostAccess {x0 : Nat} {x1 : Nat} {x2 : Bool} {x3 : BitVec 64} {x4 : State} (h4 : Canon x4.mem
    x4.wgs) : ∀ y0, (execHostAccess x0 x1 x2 x3 x4) = .next y0 → (Canon y0.mem y0.wgs) := by
  unfold execHostAccess; grind -ring -linarith -lia [canon_bar0Access, canon_State_hostGets, canon_bar2Access]

end Sys2Proof.Laws
end

