-- ==== Sys2Proof/Laws/CanonicalInstr.lean ====
section
/-! SUPPORT. Every instruction, every event and the choice of the next one keep the canonical form of memory and of the workgroups'
scratchpads: what a proof about `step` cites. -/

set_option Elab.async false
set_option maxRecDepth 4096

namespace Sys2Proof.Laws

open Sys2Proof.Machine

/-! ### LaneFloat -/

theorem canon_execVmov {x0 : BitVec 7} {x1 : BitVec 7} {x2 : BitVec 3} {x3 : State} (h3 : Canon x3.mem x3.wgs) : ∀ y0,
    (execVmov x0 x1 x2 x3) = .next y0 → (Canon y0.mem y0.wgs) := by
  unfold execVmov; exact canon_runUnary (by assumption)

theorem canon_execVmovs {x0 : BitVec 7} {x1 : BitVec 5} {x2 : BitVec 7} {x3 : BitVec 3} {x4 : State} (h4 : Canon
    x4.mem x4.wgs) : ∀ y0, (execVmovs x0 x1 x2 x3 x4) = .next y0 → (Canon y0.mem y0.wgs) := by
  unfold execVmovs; exact canon_runLane (by assumption)

theorem canon_execVtag {x0 : BitVec 7} {x1 : BitVec 7} {x2 : BitVec 5} {x3 : BitVec 3} {x4 : State} (h4 : Canon x4.mem
    x4.wgs) : ∀ y0, (execVtag x0 x1 x2 x3 x4) = .next y0 → (Canon y0.mem y0.wgs) := by
  unfold execVtag; exact canon_runLane (by assumption)

theorem canon_execVfaddRrr {x0 : BitVec 7} {x1 : BitVec 7} {x2 : BitVec 7} {x3 : BitVec 3} {x4 : State} (h4 : Canon
    x4.mem x4.wgs) : ∀ y0, (execVfaddRrr x0 x1 x2 x3 x4) = .next y0 → (Canon y0.mem y0.wgs) := by
  unfold execVfaddRrr; exact canon_runBinary (by assumption)

theorem canon_execVfsub {x0 : BitVec 7} {x1 : BitVec 7} {x2 : BitVec 7} {x3 : BitVec 3} {x4 : State} (h4 : Canon
    x4.mem x4.wgs) : ∀ y0, (execVfsub x0 x1 x2 x3 x4) = .next y0 → (Canon y0.mem y0.wgs) := by
  unfold execVfsub; exact canon_runBinary (by assumption)

theorem canon_execVfmulRrr {x0 : BitVec 7} {x1 : BitVec 7} {x2 : BitVec 7} {x3 : BitVec 3} {x4 : State} (h4 : Canon
    x4.mem x4.wgs) : ∀ y0, (execVfmulRrr x0 x1 x2 x3 x4) = .next y0 → (Canon y0.mem y0.wgs) := by
  unfold execVfmulRrr; exact canon_runBinary (by assumption)

theorem canon_execVfma {x0 : BitVec 7} {x1 : BitVec 7} {x2 : BitVec 7} {x3 : BitVec 3} {x4 : State} (h4 : Canon x4.mem
    x4.wgs) : ∀ y0, (execVfma x0 x1 x2 x3 x4) = .next y0 → (Canon y0.mem y0.wgs) := by
  unfold execVfma; exact canon_runTernary (by assumption)

theorem canon_execVfmin {x0 : BitVec 7} {x1 : BitVec 7} {x2 : BitVec 7} {x3 : BitVec 3} {x4 : State} (h4 : Canon
    x4.mem x4.wgs) : ∀ y0, (execVfmin x0 x1 x2 x3 x4) = .next y0 → (Canon y0.mem y0.wgs) := by
  unfold execVfmin; exact canon_runBinary (by assumption)

theorem canon_execVfmax {x0 : BitVec 7} {x1 : BitVec 7} {x2 : BitVec 7} {x3 : BitVec 3} {x4 : State} (h4 : Canon
    x4.mem x4.wgs) : ∀ y0, (execVfmax x0 x1 x2 x3 x4) = .next y0 → (Canon y0.mem y0.wgs) := by
  unfold execVfmax; exact canon_runBinary (by assumption)

theorem canon_execVfabs {x0 : BitVec 7} {x1 : BitVec 7} {x2 : BitVec 3} {x3 : State} (h3 : Canon x3.mem x3.wgs) : ∀
    y0, (execVfabs x0 x1 x2 x3) = .next y0 → (Canon y0.mem y0.wgs) := by
  unfold execVfabs; exact canon_runUnary (by assumption)

theorem canon_execVfneg {x0 : BitVec 7} {x1 : BitVec 7} {x2 : BitVec 3} {x3 : State} (h3 : Canon x3.mem x3.wgs) : ∀
    y0, (execVfneg x0 x1 x2 x3) = .next y0 → (Canon y0.mem y0.wgs) := by
  unfold execVfneg; exact canon_runUnary (by assumption)

theorem canon_execVfrcp {x0 : BitVec 7} {x1 : BitVec 7} {x2 : BitVec 3} {x3 : State} (h3 : Canon x3.mem x3.wgs) : ∀
    y0, (execVfrcp x0 x1 x2 x3) = .next y0 → (Canon y0.mem y0.wgs) := by
  unfold execVfrcp; exact canon_runUnary (by assumption)

theorem canon_execVfrsq {x0 : BitVec 7} {x1 : BitVec 7} {x2 : BitVec 3} {x3 : State} (h3 : Canon x3.mem x3.wgs) : ∀
    y0, (execVfrsq x0 x1 x2 x3) = .next y0 → (Canon y0.mem y0.wgs) := by
  unfold execVfrsq; exact canon_runUnary (by assumption)

theorem canon_execVfsqrt {x0 : BitVec 7} {x1 : BitVec 7} {x2 : BitVec 3} {x3 : State} (h3 : Canon x3.mem x3.wgs) : ∀
    y0, (execVfsqrt x0 x1 x2 x3) = .next y0 → (Canon y0.mem y0.wgs) := by
  unfold execVfsqrt; exact canon_runUnary (by assumption)

theorem canon_execVfex2 {x0 : BitVec 7} {x1 : BitVec 7} {x2 : BitVec 3} {x3 : State} (h3 : Canon x3.mem x3.wgs) : ∀
    y0, (execVfex2 x0 x1 x2 x3) = .next y0 → (Canon y0.mem y0.wgs) := by
  unfold execVfex2; exact canon_runUnary (by assumption)

theorem canon_execVflg2 {x0 : BitVec 7} {x1 : BitVec 7} {x2 : BitVec 3} {x3 : State} (h3 : Canon x3.mem x3.wgs) : ∀
    y0, (execVflg2 x0 x1 x2 x3) = .next y0 → (Canon y0.mem y0.wgs) := by
  unfold execVflg2; exact canon_runUnary (by assumption)

theorem canon_execVfsin {x0 : BitVec 7} {x1 : BitVec 7} {x2 : BitVec 3} {x3 : State} (h3 : Canon x3.mem x3.wgs) : ∀
    y0, (execVfsin x0 x1 x2 x3) = .next y0 → (Canon y0.mem y0.wgs) := by
  unfold execVfsin; exact canon_runUnary (by assumption)

theorem canon_execVfcos {x0 : BitVec 7} {x1 : BitVec 7} {x2 : BitVec 3} {x3 : State} (h3 : Canon x3.mem x3.wgs) : ∀
    y0, (execVfcos x0 x1 x2 x3) = .next y0 → (Canon y0.mem y0.wgs) := by
  unfold execVfcos; exact canon_runUnary (by assumption)

theorem canon_execVfclass {x0 : BitVec 7} {x1 : BitVec 7} {x2 : BitVec 3} {x3 : State} (h3 : Canon x3.mem x3.wgs) : ∀
    y0, (execVfclass x0 x1 x2 x3) = .next y0 → (Canon y0.mem y0.wgs) := by
  unfold execVfclass; exact canon_runLane (by assumption)

theorem canon_execVcvt {x0 : BitVec 7} {x1 : BitVec 7} {x2 : BitVec 5} {x3 : BitVec 2} {x4 : BitVec 3} {x5 : State}
    (h5 : Canon x5.mem x5.wgs) : ∀ y0, (execVcvt x0 x1 x2 x3 x4 x5) = .next y0 → (Canon y0.mem y0.wgs) := by
  unfold execVcvt; exact canon_runLane (by assumption)

theorem canon_execVcvts {x0 : BitVec 7} {x1 : BitVec 7} {x2 : BitVec 5} {x3 : BitVec 3} {x4 : State} (h4 : Canon
    x4.mem x4.wgs) : ∀ y0, (execVcvts x0 x1 x2 x3 x4) = .next y0 → (Canon y0.mem y0.wgs) := by
  unfold execVcvts; exact canon_runLane (by assumption)

theorem canon_execVpack {x0 : BitVec 7} {x1 : BitVec 7} {x2 : BitVec 4} {x3 : BitVec 3} {x4 : BitVec 3} {x5 : State}
    (h5 : Canon x5.mem x5.wgs) : ∀ y0, (execVpack x0 x1 x2 x3 x4 x5) = .next y0 → (Canon y0.mem y0.wgs) := by
  unfold execVpack; exact canon_runLane (by assumption)

theorem canon_execVunpk {x0 : BitVec 7} {x1 : BitVec 7} {x2 : BitVec 4} {x3 : BitVec 3} {x4 : BitVec 3} {x5 : State}
    (h5 : Canon x5.mem x5.wgs) : ∀ y0, (execVunpk x0 x1 x2 x3 x4 x5) = .next y0 → (Canon y0.mem y0.wgs) := by
  unfold execVunpk; exact canon_runLane (by assumption)

theorem canon_execVfaddRrs {x0 : BitVec 7} {x1 : BitVec 7} {x2 : BitVec 7} {x3 : BitVec 3} {x4 : State} (h4 : Canon
    x4.mem x4.wgs) : ∀ y0, (execVfaddRrs x0 x1 x2 x3 x4) = .next y0 → (Canon y0.mem y0.wgs) := by
  unfold execVfaddRrs; exact canon_runScalar (by assumption)

theorem canon_execVfmulRrs {x0 : BitVec 7} {x1 : BitVec 7} {x2 : BitVec 7} {x3 : BitVec 3} {x4 : State} (h4 : Canon
    x4.mem x4.wgs) : ∀ y0, (execVfmulRrs x0 x1 x2 x3 x4) = .next y0 → (Canon y0.mem y0.wgs) := by
  unfold execVfmulRrs; exact canon_runScalar (by assumption)

/-! ### LaneInt -/

theorem canon_execVaddRrr {x0 : BitVec 7} {x1 : BitVec 7} {x2 : BitVec 7} {x3 : BitVec 3} {x4 : State} (h4 : Canon
    x4.mem x4.wgs) : ∀ y0, (execVaddRrr x0 x1 x2 x3 x4) = .next y0 → (Canon y0.mem y0.wgs) := by
  unfold execVaddRrr; exact canon_runBinary (by assumption)

theorem canon_execVsubRrr {x0 : BitVec 7} {x1 : BitVec 7} {x2 : BitVec 7} {x3 : BitVec 3} {x4 : State} (h4 : Canon
    x4.mem x4.wgs) : ∀ y0, (execVsubRrr x0 x1 x2 x3 x4) = .next y0 → (Canon y0.mem y0.wgs) := by
  unfold execVsubRrr; exact canon_runBinary (by assumption)

theorem canon_execVmulRrr {x0 : BitVec 7} {x1 : BitVec 7} {x2 : BitVec 7} {x3 : BitVec 3} {x4 : State} (h4 : Canon
    x4.mem x4.wgs) : ∀ y0, (execVmulRrr x0 x1 x2 x3 x4) = .next y0 → (Canon y0.mem y0.wgs) := by
  unfold execVmulRrr; exact canon_runBinary (by assumption)

theorem canon_execVmulh {x0 : BitVec 7} {x1 : BitVec 7} {x2 : BitVec 7} {x3 : BitVec 3} {x4 : State} (h4 : Canon
    x4.mem x4.wgs) : ∀ y0, (execVmulh x0 x1 x2 x3 x4) = .next y0 → (Canon y0.mem y0.wgs) := by
  unfold execVmulh; exact canon_runBinary (by assumption)

theorem canon_execVmad {x0 : BitVec 7} {x1 : BitVec 7} {x2 : BitVec 7} {x3 : BitVec 3} {x4 : State} (h4 : Canon x4.mem
    x4.wgs) : ∀ y0, (execVmad x0 x1 x2 x3 x4) = .next y0 → (Canon y0.mem y0.wgs) := by
  unfold execVmad; exact canon_runTernary (by assumption)

theorem canon_execVaddsat {x0 : BitVec 7} {x1 : BitVec 7} {x2 : BitVec 7} {x3 : BitVec 3} {x4 : State} (h4 : Canon
    x4.mem x4.wgs) : ∀ y0, (execVaddsat x0 x1 x2 x3 x4) = .next y0 → (Canon y0.mem y0.wgs) := by
  unfold execVaddsat; exact canon_runBinary (by assumption)

theorem canon_execVsubsat {x0 : BitVec 7} {x1 : BitVec 7} {x2 : BitVec 7} {x3 : BitVec 3} {x4 : State} (h4 : Canon
    x4.mem x4.wgs) : ∀ y0, (execVsubsat x0 x1 x2 x3 x4) = .next y0 → (Canon y0.mem y0.wgs) := by
  unfold execVsubsat; exact canon_runBinary (by assumption)

theorem canon_execVmin {x0 : BitVec 7} {x1 : BitVec 7} {x2 : BitVec 7} {x3 : BitVec 3} {x4 : State} (h4 : Canon x4.mem
    x4.wgs) : ∀ y0, (execVmin x0 x1 x2 x3 x4) = .next y0 → (Canon y0.mem y0.wgs) := by
  unfold execVmin; exact canon_runBinary (by assumption)

theorem canon_execVmax {x0 : BitVec 7} {x1 : BitVec 7} {x2 : BitVec 7} {x3 : BitVec 3} {x4 : State} (h4 : Canon x4.mem
    x4.wgs) : ∀ y0, (execVmax x0 x1 x2 x3 x4) = .next y0 → (Canon y0.mem y0.wgs) := by
  unfold execVmax; exact canon_runBinary (by assumption)

theorem canon_execVabs {x0 : BitVec 7} {x1 : BitVec 7} {x2 : BitVec 3} {x3 : State} (h3 : Canon x3.mem x3.wgs) : ∀ y0,
    (execVabs x0 x1 x2 x3) = .next y0 → (Canon y0.mem y0.wgs) := by
  unfold execVabs; exact canon_runUnary (by assumption)

theorem canon_execVneg {x0 : BitVec 7} {x1 : BitVec 7} {x2 : BitVec 3} {x3 : State} (h3 : Canon x3.mem x3.wgs) : ∀ y0,
    (execVneg x0 x1 x2 x3) = .next y0 → (Canon y0.mem y0.wgs) := by
  unfold execVneg; exact canon_runUnary (by assumption)

theorem canon_execVandRrr {x0 : BitVec 7} {x1 : BitVec 7} {x2 : BitVec 7} {x3 : BitVec 3} {x4 : State} (h4 : Canon
    x4.mem x4.wgs) : ∀ y0, (execVandRrr x0 x1 x2 x3 x4) = .next y0 → (Canon y0.mem y0.wgs) := by
  unfold execVandRrr; exact canon_runBinary (by assumption)

theorem canon_execVorRrr {x0 : BitVec 7} {x1 : BitVec 7} {x2 : BitVec 7} {x3 : BitVec 3} {x4 : State} (h4 : Canon
    x4.mem x4.wgs) : ∀ y0, (execVorRrr x0 x1 x2 x3 x4) = .next y0 → (Canon y0.mem y0.wgs) := by
  unfold execVorRrr; exact canon_runBinary (by assumption)

theorem canon_execVxor {x0 : BitVec 7} {x1 : BitVec 7} {x2 : BitVec 7} {x3 : BitVec 3} {x4 : State} (h4 : Canon x4.mem
    x4.wgs) : ∀ y0, (execVxor x0 x1 x2 x3 x4) = .next y0 → (Canon y0.mem y0.wgs) := by
  unfold execVxor; exact canon_runBinary (by assumption)

theorem canon_execVandn {x0 : BitVec 7} {x1 : BitVec 7} {x2 : BitVec 7} {x3 : BitVec 3} {x4 : State} (h4 : Canon
    x4.mem x4.wgs) : ∀ y0, (execVandn x0 x1 x2 x3 x4) = .next y0 → (Canon y0.mem y0.wgs) := by
  unfold execVandn; exact canon_runBinary (by assumption)

theorem canon_execVnot {x0 : BitVec 7} {x1 : BitVec 7} {x2 : BitVec 3} {x3 : State} (h3 : Canon x3.mem x3.wgs) : ∀ y0,
    (execVnot x0 x1 x2 x3) = .next y0 → (Canon y0.mem y0.wgs) := by
  unfold execVnot; exact canon_runUnary (by assumption)

theorem canon_execVshlRrr {x0 : BitVec 7} {x1 : BitVec 7} {x2 : BitVec 7} {x3 : BitVec 3} {x4 : State} (h4 : Canon
    x4.mem x4.wgs) : ∀ y0, (execVshlRrr x0 x1 x2 x3 x4) = .next y0 → (Canon y0.mem y0.wgs) := by
  unfold execVshlRrr; exact canon_runBinary (by assumption)

theorem canon_execVshrRrr {x0 : BitVec 7} {x1 : BitVec 7} {x2 : BitVec 7} {x3 : BitVec 3} {x4 : State} (h4 : Canon
    x4.mem x4.wgs) : ∀ y0, (execVshrRrr x0 x1 x2 x3 x4) = .next y0 → (Canon y0.mem y0.wgs) := by
  unfold execVshrRrr; exact canon_runBinary (by assumption)

theorem canon_execVsarRrr {x0 : BitVec 7} {x1 : BitVec 7} {x2 : BitVec 7} {x3 : BitVec 3} {x4 : State} (h4 : Canon
    x4.mem x4.wgs) : ∀ y0, (execVsarRrr x0 x1 x2 x3 x4) = .next y0 → (Canon y0.mem y0.wgs) := by
  unfold execVsarRrr; exact canon_runBinary (by assumption)

theorem canon_execVrol {x0 : BitVec 7} {x1 : BitVec 7} {x2 : BitVec 7} {x3 : BitVec 3} {x4 : State} (h4 : Canon x4.mem
    x4.wgs) : ∀ y0, (execVrol x0 x1 x2 x3 x4) = .next y0 → (Canon y0.mem y0.wgs) := by
  unfold execVrol; exact canon_runBinary (by assumption)

theorem canon_execVclz {x0 : BitVec 7} {x1 : BitVec 7} {x2 : BitVec 3} {x3 : State} (h3 : Canon x3.mem x3.wgs) : ∀ y0,
    (execVclz x0 x1 x2 x3) = .next y0 → (Canon y0.mem y0.wgs) := by
  unfold execVclz; exact canon_runUnary (by assumption)

theorem canon_execVpopc {x0 : BitVec 7} {x1 : BitVec 7} {x2 : BitVec 3} {x3 : State} (h3 : Canon x3.mem x3.wgs) : ∀
    y0, (execVpopc x0 x1 x2 x3) = .next y0 → (Canon y0.mem y0.wgs) := by
  unfold execVpopc; exact canon_runUnary (by assumption)

theorem canon_execVbrev {x0 : BitVec 7} {x1 : BitVec 7} {x2 : BitVec 3} {x3 : State} (h3 : Canon x3.mem x3.wgs) : ∀
    y0, (execVbrev x0 x1 x2 x3) = .next y0 → (Canon y0.mem y0.wgs) := by
  unfold execVbrev; exact canon_runUnary (by assumption)

theorem canon_execVbfx {x0 : BitVec 7} {x1 : BitVec 7} {x2 : BitVec 7} {x3 : BitVec 3} {x4 : State} (h4 : Canon x4.mem
    x4.wgs) : ∀ y0, (execVbfx x0 x1 x2 x3 x4) = .next y0 → (Canon y0.mem y0.wgs) := by
  unfold execVbfx; exact canon_runScalar (by assumption)

theorem canon_execVbfi {x0 : BitVec 7} {x1 : BitVec 7} {x2 : BitVec 7} {x3 : BitVec 3} {x4 : State} (h4 : Canon x4.mem
    x4.wgs) : ∀ y0, (execVbfi x0 x1 x2 x3 x4) = .next y0 → (Canon y0.mem y0.wgs) := by
  unfold execVbfi; exact canon_runScalarInto (by assumption)

theorem canon_execVamin {x0 : BitVec 7} {x1 : BitVec 7} {x2 : BitVec 7} {x3 : BitVec 3} {x4 : State} (h4 : Canon
    x4.mem x4.wgs) : ∀ y0, (execVamin x0 x1 x2 x3 x4) = .next y0 → (Canon y0.mem y0.wgs) := by
  unfold execVamin; exact canon_runTernary (by assumption)

theorem canon_execVamax {x0 : BitVec 7} {x1 : BitVec 7} {x2 : BitVec 7} {x3 : BitVec 3} {x4 : State} (h4 : Canon
    x4.mem x4.wgs) : ∀ y0, (execVamax x0 x1 x2 x3 x4) = .next y0 → (Canon y0.mem y0.wgs) := by
  unfold execVamax; exact canon_runTernary (by assumption)

theorem canon_execVaddRrs {x0 : BitVec 7} {x1 : BitVec 7} {x2 : BitVec 7} {x3 : BitVec 3} {x4 : State} (h4 : Canon
    x4.mem x4.wgs) : ∀ y0, (execVaddRrs x0 x1 x2 x3 x4) = .next y0 → (Canon y0.mem y0.wgs) := by
  unfold execVaddRrs; exact canon_runScalar (by assumption)

theorem canon_execVsubRrs {x0 : BitVec 7} {x1 : BitVec 7} {x2 : BitVec 7} {x3 : BitVec 3} {x4 : State} (h4 : Canon
    x4.mem x4.wgs) : ∀ y0, (execVsubRrs x0 x1 x2 x3 x4) = .next y0 → (Canon y0.mem y0.wgs) := by
  unfold execVsubRrs; exact canon_runScalar (by assumption)

theorem canon_execVmulRrs {x0 : BitVec 7} {x1 : BitVec 7} {x2 : BitVec 7} {x3 : BitVec 3} {x4 : State} (h4 : Canon
    x4.mem x4.wgs) : ∀ y0, (execVmulRrs x0 x1 x2 x3 x4) = .next y0 → (Canon y0.mem y0.wgs) := by
  unfold execVmulRrs; exact canon_runScalar (by assumption)

theorem canon_execVandRrs {x0 : BitVec 7} {x1 : BitVec 7} {x2 : BitVec 7} {x3 : BitVec 3} {x4 : State} (h4 : Canon
    x4.mem x4.wgs) : ∀ y0, (execVandRrs x0 x1 x2 x3 x4) = .next y0 → (Canon y0.mem y0.wgs) := by
  unfold execVandRrs; exact canon_runScalar (by assumption)

theorem canon_execVorRrs {x0 : BitVec 7} {x1 : BitVec 7} {x2 : BitVec 7} {x3 : BitVec 3} {x4 : State} (h4 : Canon
    x4.mem x4.wgs) : ∀ y0, (execVorRrs x0 x1 x2 x3 x4) = .next y0 → (Canon y0.mem y0.wgs) := by
  unfold execVorRrs; exact canon_runScalar (by assumption)

theorem canon_execVshlRrs {x0 : BitVec 7} {x1 : BitVec 7} {x2 : BitVec 7} {x3 : BitVec 3} {x4 : State} (h4 : Canon
    x4.mem x4.wgs) : ∀ y0, (execVshlRrs x0 x1 x2 x3 x4) = .next y0 → (Canon y0.mem y0.wgs) := by
  unfold execVshlRrs; exact canon_runScalar (by assumption)

theorem canon_execVshrRrs {x0 : BitVec 7} {x1 : BitVec 7} {x2 : BitVec 7} {x3 : BitVec 3} {x4 : State} (h4 : Canon
    x4.mem x4.wgs) : ∀ y0, (execVshrRrs x0 x1 x2 x3 x4) = .next y0 → (Canon y0.mem y0.wgs) := by
  unfold execVshrRrs; exact canon_runScalar (by assumption)

theorem canon_execVsarRrs {x0 : BitVec 7} {x1 : BitVec 7} {x2 : BitVec 7} {x3 : BitVec 3} {x4 : State} (h4 : Canon
    x4.mem x4.wgs) : ∀ y0, (execVsarRrs x0 x1 x2 x3 x4) = .next y0 → (Canon y0.mem y0.wgs) := by
  unfold execVsarRrs; exact canon_runScalar (by assumption)

theorem canon_execVcmp {x0 : BitVec 3} {x1 : BitVec 1} {x2 : BitVec 3} {x3 : BitVec 7} {x4 : BitVec 7} {x5 : BitVec 3}
    {x6 : State} (h6 : Canon x6.mem x6.wgs) : ∀ y0, (execVcmp x0 x1 x2 x3 x4 x5 x6) = .next y0 → (Canon y0.mem y0.wgs)
    := by
  unfold execVcmp; exact canon_runLane (by assumption)

theorem canon_execVfcmp {x0 : BitVec 3} {x1 : BitVec 1} {x2 : BitVec 3} {x3 : BitVec 7} {x4 : BitVec 7} {x5 : BitVec
    3} {x6 : State} (h6 : Canon x6.mem x6.wgs) : ∀ y0, (execVfcmp x0 x1 x2 x3 x4 x5 x6) = .next y0 → (Canon y0.mem
    y0.wgs) := by
  unfold execVfcmp; exact canon_runLane (by assumption)

theorem canon_execVsel {x0 : BitVec 7} {x1 : BitVec 7} {x2 : BitVec 7} {x3 : BitVec 3} {x4 : State} (h4 : Canon x4.mem
    x4.wgs) : ∀ y0, (execVsel x0 x1 x2 x3 x4) = .next y0 → (Canon y0.mem y0.wgs) := by
  unfold execVsel; exact canon_runLane (by assumption)

theorem canon_execXset {x0 : BitVec 2} {x1 : BitVec 7} {x2 : BitVec 3} {x3 : State} (h3 : Canon x3.mem x3.wgs) : ∀ y0,
    (execXset x0 x1 x2 x3) = .next y0 → (Canon y0.mem y0.wgs) := by
  unfold execXset; exact canon_runLane (by assumption)

theorem canon_execXadd {x0 : BitVec 2} {x1 : BitVec 2} {x2 : BitVec 7} {x3 : BitVec 3} {x4 : State} (h4 : Canon x4.mem
    x4.wgs) : ∀ y0, (execXadd x0 x1 x2 x3 x4) = .next y0 → (Canon y0.mem y0.wgs) := by
  unfold execXadd; exact canon_runLane (by assumption)

/-! ### Streams -/

theorem canon_outOfConvoy {x0 : State} {x1 : WRef} {x2 : Workgroup} {x3 : Warp} {x4 : Nat} (h0 : Canon x0.mem x0.wgs)
    (h2 : x2.sp.wf = true) : Canon ((outOfConvoy x0 x1 x2 x3 x4).1).mem ((outOfConvoy x0 x1 x2 x3 x4).1).wgs := by
  unfold outOfConvoy; grind -ring -linarith -lia [canon_leaveConvoy]

theorem canon_restream {x0 : State} {x1 : WRef} {x2 : Workgroup} {x3 : Warp} {x4 : Nat} {x5 : Stream → Stream} (h0 :
    Canon x0.mem x0.wgs) (h2 : x2.sp.wf = true) : Canon (restream x0 x1 x2 x3 x4 x5).mem (restream x0 x1 x2 x3 x4
    x5).wgs := by
  unfold restream; grind -ring -linarith -lia [canon_outOfConvoy, canon_prefetch, canon_retire]

theorem canon_execStset {x0 : BitVec 6} {x1 : BitVec 3} {x2 : State} (h2 : Canon x2.mem x2.wgs) : ∀ y0, (execStset x0
    x1 x2) = .next y0 → (Canon y0.mem y0.wgs) := by
  unfold execStset; grind -ring -linarith -lia [canon_runNamed, canon_preciseTrap, canon_restream]

theorem canon_execStsave {x0 : BitVec 6} {x1 : BitVec 3} {x2 : BitVec 3} {x3 : State} (h3 : Canon x3.mem x3.wgs) : ∀
    y0, (execStsave x0 x1 x2 x3) = .next y0 → (Canon y0.mem y0.wgs) := by
  unfold execStsave; exact canon_runUniform (by assumption)

theorem canon_execStpos {x0 : BitVec 6} {x1 : BitVec 3} {x2 : State} (h2 : Canon x2.mem x2.wgs) : ∀ y0, (execStpos x0
    x1 x2) = .next y0 → (Canon y0.mem y0.wgs) := by
  unfold execStpos; grind -ring -linarith -lia [canon_runNamed, canon_restream]

theorem canon_execStskip {x0 : BitVec 6} {x1 : BitVec 3} {x2 : State} (h2 : Canon x2.mem x2.wgs) : ∀ y0, (execStskip
    x0 x1 x2) = .next y0 → (Canon y0.mem y0.wgs) := by
  unfold execStskip; grind -ring -linarith -lia [canon_runNamed, canon_restream]

theorem canon_Workgroup_gset {x0 : Workgroup} {x1 : Nat} {x2 : Reg} (h0 : x0.sp.wf = true) : (Workgroup.gset x0 x1
    x2).sp.wf = true := by
  unfold Workgroup.gset; grind -ring -linarith -lia

theorem canon_Workgroup_gwrite {x0 : Workgroup} {x1 : Reg} {x2 : Nat} {x3 : Nat} {x4 : Reg} (h0 : x0.sp.wf = true) :
    (Workgroup.gwrite x0 x1 x2 x3 x4).sp.wf = true := by
  unfold Workgroup.gwrite; grind -ring -linarith -lia [canon_Workgroup_gset]

theorem canon_execGrd {x0 : BitVec 6} {x1 : BitVec 4} {x2 : State} (h2 : Canon x2.mem x2.wgs) : ∀ y0, (execGrd x0 x1
    x2) = .next y0 → (Canon y0.mem y0.wgs) := by
  unfold execGrd; grind -ring -linarith -lia [canon_runNamed, canon_retire]

theorem canon_execGwr {x0 : BitVec 6} {x1 : BitVec 4} {x2 : State} (h2 : Canon x2.mem x2.wgs) : ∀ y0, (execGwr x0 x1
    x2) = .next y0 → (Canon y0.mem y0.wgs) := by
  unfold execGwr; grind -ring -linarith -lia [canon_runNamed, canon_retire, canon_State_updWg, canon_Workgroup_gwrite]

theorem canon_execGatom {x0 : BitVec 6} {x1 : BitVec 4} {x2 : BitVec 6} {x3 : BitVec 4} {x4 : State} (h4 : Canon
    x4.mem x4.wgs) : ∀ y0, (execGatom x0 x1 x2 x3 x4) = .next y0 → (Canon y0.mem y0.wgs) := by
  unfold execGatom; grind -ring -linarith -lia [canon_runNamed, canon_retire, canon_State_updWg, canon_Workgroup_gwrite]

/-! ### System -/

theorem canon_execSrd {x0 : BitVec 6} {x1 : BitVec 6} {x2 : State} (h2 : Canon x2.mem x2.wgs) : ∀ y0, (execSrd x0 x1
    x2) = .next y0 → (Canon y0.mem y0.wgs) := by
  unfold execSrd; grind -ring -linarith -lia [canon_runNamed, canon_retire]

theorem canon_execSrdV {x0 : BitVec 6} {x1 : BitVec 1} {x2 : BitVec 6} {x3 : State} (h3 : Canon x3.mem x3.wgs) : ∀ y0,
    (execSrdV x0 x1 x2 x3) = .next y0 → (Canon y0.mem y0.wgs) := by
  unfold execSrdV; grind -ring -linarith -lia [canon_runNamed, canon_retire]

theorem canon_execSwr {x0 : BitVec 6} {x1 : BitVec 6} {x2 : State} (h2 : Canon x2.mem x2.wgs) : ∀ y0, (execSwr x0 x1
    x2) = .next y0 → (Canon y0.mem y0.wgs) := by
  unfold execSwr; grind -ring -linarith -lia [canon_runNamed, canon_retire, canon_resumeMatrix, canon_preciseTrap]

theorem canon_execRegion {x0 : BitVec 6} {x1 : BitVec 12} {x2 : State} (h2 : Canon x2.mem x2.wgs) : ∀ y0, (execRegion
    x0 x1 x2) = .next y0 → (Canon y0.mem y0.wgs) := by
  unfold execRegion; grind -ring -linarith -lia [canon_runNamed, canon_retire]

theorem canon_execSleep {x0 : BitVec 6} {x1 : State} (h1 : Canon x1.mem x1.wgs) : ∀ y0, (execSleep x0 x1) = .next y0 →
    (Canon y0.mem y0.wgs) := by
  unfold execSleep; grind -ring -linarith -lia [canon_runNamed, canon_retire, canon_State_updWarp]

theorem canon_execSleepExpire {x0 : WRef} {x1 : State} (h1 : Canon x1.mem x1.wgs) : ∀ y0, (execSleepExpire x0 x1) =
    .next y0 → (Canon y0.mem y0.wgs) := by
  unfold execSleepExpire; grind -ring -linarith -lia [canon_State_wg, canon_State_setWarp]

theorem canon_execSetperf {x0 : BitVec 6} {x1 : BitVec 6} {x2 : State} (h2 : Canon x2.mem x2.wgs) : ∀ y0, (execSetperf
    x0 x1 x2) = .next y0 → (Canon y0.mem y0.wgs) := by
  unfold execSetperf; grind -ring -linarith -lia [canon_runNamed, canon_refreshClock, canon_State_setCluster,
      canon_retire]

/-! ### Traps -/

theorem canon_enterPending {x0 : State} {x1 : WRef} (h0 : Canon x0.mem x0.wgs) : Canon (enterPending x0 x1).mem
    (enterPending x0 x1).wgs := by
  unfold enterPending; grind -ring -linarith -lia [canon_State_wg, canon_enterException, canon_takeException,
      canon_State_updWg, canon_stopMatrix]

theorem canon_execHandlerEntry {x0 : WRef} {x1 : State} (h1 : Canon x1.mem x1.wgs) : ∀ y0, (execHandlerEntry x0 x1) =
    .next y0 → (Canon y0.mem y0.wgs) := by
  unfold execHandlerEntry; grind -ring -linarith -lia [canon_enterPending]

theorem canon_execWarpReplay {x0 : WRef} {x1 : State} (h1 : Canon x1.mem x1.wgs) : ∀ y0, (execWarpReplay x0 x1) =
    .next y0 → (Canon y0.mem y0.wgs) := by
  unfold execWarpReplay; grind -ring -linarith -lia [canon_State_updWarp]

theorem canon_execTrap {x0 : BitVec 8} {x1 : State} (h1 : Canon x1.mem x1.wgs) : ∀ y0, (execTrap x0 x1) = .next y0 →
    (Canon y0.mem y0.wgs) := by
  unfold execTrap; grind -ring -linarith -lia [canon_runNamed, canon_retire, canon_takeException, canon_enterPending]

theorem canon_execTret {x0 : State} (h0 : Canon x0.mem x0.wgs) : ∀ y0, (execTret x0) = .next y0 → (Canon y0.mem
    y0.wgs) := by
  unfold execTret; grind -ring -linarith -lia [canon_lastOnly, canon_runNamed, canon_returnFromException,
      canon_preciseTrap]

theorem canon_execSigdone {x0 : State} (h0 : Canon x0.mem x0.wgs) : ∀ y0, (execSigdone x0) = .next y0 → (Canon y0.mem
    y0.wgs) := by
  unfold execSigdone; grind -ring -linarith -lia [canon_runNamed, canon_State_setWarp, canon_preciseTrap]

theorem canon_execBkpt {x0 : BitVec 8} {x1 : State} (h1 : Canon x1.mem x1.wgs) : ∀ y0, (execBkpt x0 x1) = .next y0 →
    (Canon y0.mem y0.wgs) := by
  unfold execBkpt; grind -ring -linarith -lia [canon_runNamed, canon_State_setWarp, canon_sendMessage, canon_retire]

/-! ### Uniform -/

theorem canon_runSet {x0 : State} {x1 : Instr} {x2 : BitVec 6} {x3 : Warp → Reg} (h0 : Canon x0.mem x0.wgs) : ∀ y0,
    (runSet x0 x1 x2 x3) = .next y0 → (Canon y0.mem y0.wgs) := by
  unfold runSet; exact canon_runUniform (by assumption)

theorem canon_runAlu {x0 : State} {x1 : Instr} {x2 : BitVec 6} {x3 : BitVec 6} {x4 : BitVec 6} {x5 : Reg → Reg → Reg}
    (h0 : Canon x0.mem x0.wgs) : ∀ y0, (runAlu x0 x1 x2 x3 x4 x5) = .next y0 → (Canon y0.mem y0.wgs) := by
  unfold runAlu; exact canon_runSet (by assumption)

theorem canon_runAlu1 {x0 : State} {x1 : Instr} {x2 : BitVec 6} {x3 : BitVec 6} {x4 : Reg → Reg} (h0 : Canon x0.mem
    x0.wgs) : ∀ y0, (runAlu1 x0 x1 x2 x3 x4) = .next y0 → (Canon y0.mem y0.wgs) := by
  unfold runAlu1; exact canon_runSet (by assumption)

theorem canon_execSadd {x0 : BitVec 6} {x1 : BitVec 6} {x2 : BitVec 6} {x3 : State} (h3 : Canon x3.mem x3.wgs) : ∀ y0,
    (execSadd x0 x1 x2 x3) = .next y0 → (Canon y0.mem y0.wgs) := by
  unfold execSadd; exact canon_runAlu (by assumption)

theorem canon_execSsub {x0 : BitVec 6} {x1 : BitVec 6} {x2 : BitVec 6} {x3 : State} (h3 : Canon x3.mem x3.wgs) : ∀ y0,
    (execSsub x0 x1 x2 x3) = .next y0 → (Canon y0.mem y0.wgs) := by
  unfold execSsub; exact canon_runAlu (by assumption)

theorem canon_execSmul {x0 : BitVec 6} {x1 : BitVec 6} {x2 : BitVec 6} {x3 : State} (h3 : Canon x3.mem x3.wgs) : ∀ y0,
    (execSmul x0 x1 x2 x3) = .next y0 → (Canon y0.mem y0.wgs) := by
  unfold execSmul; exact canon_runAlu (by assumption)

theorem canon_execSmulh {x0 : BitVec 6} {x1 : BitVec 6} {x2 : BitVec 6} {x3 : State} (h3 : Canon x3.mem x3.wgs) : ∀
    y0, (execSmulh x0 x1 x2 x3) = .next y0 → (Canon y0.mem y0.wgs) := by
  unfold execSmulh; exact canon_runAlu (by assumption)

theorem canon_execSmulhU {x0 : BitVec 6} {x1 : BitVec 6} {x2 : BitVec 6} {x3 : State} (h3 : Canon x3.mem x3.wgs) : ∀
    y0, (execSmulhU x0 x1 x2 x3) = .next y0 → (Canon y0.mem y0.wgs) := by
  unfold execSmulhU; exact canon_runAlu (by assumption)

theorem canon_execSdiv {x0 : BitVec 6} {x1 : BitVec 6} {x2 : BitVec 6} {x3 : State} (h3 : Canon x3.mem x3.wgs) : ∀ y0,
    (execSdiv x0 x1 x2 x3) = .next y0 → (Canon y0.mem y0.wgs) := by
  unfold execSdiv; exact canon_runAlu (by assumption)

theorem canon_execSdivU {x0 : BitVec 6} {x1 : BitVec 6} {x2 : BitVec 6} {x3 : State} (h3 : Canon x3.mem x3.wgs) : ∀
    y0, (execSdivU x0 x1 x2 x3) = .next y0 → (Canon y0.mem y0.wgs) := by
  unfold execSdivU; exact canon_runAlu (by assumption)

theorem canon_execSrem {x0 : BitVec 6} {x1 : BitVec 6} {x2 : BitVec 6} {x3 : State} (h3 : Canon x3.mem x3.wgs) : ∀ y0,
    (execSrem x0 x1 x2 x3) = .next y0 → (Canon y0.mem y0.wgs) := by
  unfold execSrem; exact canon_runAlu (by assumption)

theorem canon_execSremU {x0 : BitVec 6} {x1 : BitVec 6} {x2 : BitVec 6} {x3 : State} (h3 : Canon x3.mem x3.wgs) : ∀
    y0, (execSremU x0 x1 x2 x3) = .next y0 → (Canon y0.mem y0.wgs) := by
  unfold execSremU; exact canon_runAlu (by assumption)

theorem canon_execSand {x0 : BitVec 6} {x1 : BitVec 6} {x2 : BitVec 6} {x3 : State} (h3 : Canon x3.mem x3.wgs) : ∀ y0,
    (execSand x0 x1 x2 x3) = .next y0 → (Canon y0.mem y0.wgs) := by
  unfold execSand; exact canon_runAlu (by assumption)

theorem canon_execSor {x0 : BitVec 6} {x1 : BitVec 6} {x2 : BitVec 6} {x3 : State} (h3 : Canon x3.mem x3.wgs) : ∀ y0,
    (execSor x0 x1 x2 x3) = .next y0 → (Canon y0.mem y0.wgs) := by
  unfold execSor; exact canon_runAlu (by assumption)

theorem canon_execSxor {x0 : BitVec 6} {x1 : BitVec 6} {x2 : BitVec 6} {x3 : State} (h3 : Canon x3.mem x3.wgs) : ∀ y0,
    (execSxor x0 x1 x2 x3) = .next y0 → (Canon y0.mem y0.wgs) := by
  unfold execSxor; exact canon_runAlu (by assumption)

theorem canon_execSnot {x0 : BitVec 6} {x1 : BitVec 6} {x2 : State} (h2 : Canon x2.mem x2.wgs) : ∀ y0, (execSnot x0 x1
    x2) = .next y0 → (Canon y0.mem y0.wgs) := by
  unfold execSnot; exact canon_runAlu1 (by assumption)

theorem canon_execSshl {x0 : BitVec 6} {x1 : BitVec 6} {x2 : BitVec 6} {x3 : State} (h3 : Canon x3.mem x3.wgs) : ∀ y0,
    (execSshl x0 x1 x2 x3) = .next y0 → (Canon y0.mem y0.wgs) := by
  unfold execSshl; exact canon_runAlu (by assumption)

theorem canon_execSshr {x0 : BitVec 6} {x1 : BitVec 6} {x2 : BitVec 6} {x3 : State} (h3 : Canon x3.mem x3.wgs) : ∀ y0,
    (execSshr x0 x1 x2 x3) = .next y0 → (Canon y0.mem y0.wgs) := by
  unfold execSshr; exact canon_runAlu (by assumption)

theorem canon_execSsar {x0 : BitVec 6} {x1 : BitVec 6} {x2 : BitVec 6} {x3 : State} (h3 : Canon x3.mem x3.wgs) : ∀ y0,
    (execSsar x0 x1 x2 x3) = .next y0 → (Canon y0.mem y0.wgs) := by
  unfold execSsar; exact canon_runAlu (by assumption)

theorem canon_execSmin {x0 : BitVec 6} {x1 : BitVec 6} {x2 : BitVec 6} {x3 : State} (h3 : Canon x3.mem x3.wgs) : ∀ y0,
    (execSmin x0 x1 x2 x3) = .next y0 → (Canon y0.mem y0.wgs) := by
  unfold execSmin; exact canon_runAlu (by assumption)

theorem canon_execSminU {x0 : BitVec 6} {x1 : BitVec 6} {x2 : BitVec 6} {x3 : State} (h3 : Canon x3.mem x3.wgs) : ∀
    y0, (execSminU x0 x1 x2 x3) = .next y0 → (Canon y0.mem y0.wgs) := by
  unfold execSminU; exact canon_runAlu (by assumption)

theorem canon_execSmax {x0 : BitVec 6} {x1 : BitVec 6} {x2 : BitVec 6} {x3 : State} (h3 : Canon x3.mem x3.wgs) : ∀ y0,
    (execSmax x0 x1 x2 x3) = .next y0 → (Canon y0.mem y0.wgs) := by
  unfold execSmax; exact canon_runAlu (by assumption)

theorem canon_execSmaxU {x0 : BitVec 6} {x1 : BitVec 6} {x2 : BitVec 6} {x3 : State} (h3 : Canon x3.mem x3.wgs) : ∀
    y0, (execSmaxU x0 x1 x2 x3) = .next y0 → (Canon y0.mem y0.wgs) := by
  unfold execSmaxU; exact canon_runAlu (by assumption)

theorem canon_execSsel {x0 : BitVec 6} {x1 : BitVec 6} {x2 : BitVec 6} {x3 : State} (h3 : Canon x3.mem x3.wgs) : ∀ y0,
    (execSsel x0 x1 x2 x3) = .next y0 → (Canon y0.mem y0.wgs) := by
  unfold execSsel; exact canon_runSet (by assumption)

theorem canon_execSmov {x0 : BitVec 6} {x1 : BitVec 6} {x2 : State} (h2 : Canon x2.mem x2.wgs) : ∀ y0, (execSmov x0 x1
    x2) = .next y0 → (Canon y0.mem y0.wgs) := by
  unfold execSmov; exact canon_runAlu1 (by assumption)

theorem canon_execScmp {x0 : BitVec 6} {x1 : BitVec 6} {x2 : BitVec 6} {x3 : BitVec 4} {x4 : State} (h4 : Canon x4.mem
    x4.wgs) : ∀ y0, (execScmp x0 x1 x2 x3 x4) = .next y0 → (Canon y0.mem y0.wgs) := by
  unfold execScmp; exact canon_runAlu (by assumption)

theorem canon_execSmovi {x0 : BitVec 6} {x1 : BitVec 18} {x2 : State} (h2 : Canon x2.mem x2.wgs) : ∀ y0, (execSmovi x0
    x1 x2) = .next y0 → (Canon y0.mem y0.wgs) := by
  unfold execSmovi; exact canon_runSet (by assumption)

theorem canon_execSaddImm {x0 : BitVec 6} {x1 : BitVec 6} {x2 : BitVec 12} {x3 : State} (h3 : Canon x3.mem x3.wgs) : ∀
    y0, (execSaddImm x0 x1 x2 x3) = .next y0 → (Canon y0.mem y0.wgs) := by
  unfold execSaddImm; exact canon_runAlu1 (by assumption)

theorem canon_execSandImm {x0 : BitVec 6} {x1 : BitVec 6} {x2 : BitVec 12} {x3 : State} (h3 : Canon x3.mem x3.wgs) : ∀
    y0, (execSandImm x0 x1 x2 x3) = .next y0 → (Canon y0.mem y0.wgs) := by
  unfold execSandImm; exact canon_runAlu1 (by assumption)

theorem canon_execSorImm {x0 : BitVec 6} {x1 : BitVec 6} {x2 : BitVec 12} {x3 : State} (h3 : Canon x3.mem x3.wgs) : ∀
    y0, (execSorImm x0 x1 x2 x3) = .next y0 → (Canon y0.mem y0.wgs) := by
  unfold execSorImm; exact canon_runAlu1 (by assumption)

theorem canon_execSxorImm {x0 : BitVec 6} {x1 : BitVec 6} {x2 : BitVec 12} {x3 : State} (h3 : Canon x3.mem x3.wgs) : ∀
    y0, (execSxorImm x0 x1 x2 x3) = .next y0 → (Canon y0.mem y0.wgs) := by
  unfold execSxorImm; exact canon_runAlu1 (by assumption)

theorem canon_execSshlImm {x0 : BitVec 6} {x1 : BitVec 6} {x2 : BitVec 12} {x3 : State} (h3 : Canon x3.mem x3.wgs) : ∀
    y0, (execSshlImm x0 x1 x2 x3) = .next y0 → (Canon y0.mem y0.wgs) := by
  unfold execSshlImm; exact canon_runAlu1 (by assumption)

theorem canon_execSshrImm {x0 : BitVec 6} {x1 : BitVec 6} {x2 : BitVec 12} {x3 : State} (h3 : Canon x3.mem x3.wgs) : ∀
    y0, (execSshrImm x0 x1 x2 x3) = .next y0 → (Canon y0.mem y0.wgs) := by
  unfold execSshrImm; exact canon_runAlu1 (by assumption)

theorem canon_execSsarImm {x0 : BitVec 6} {x1 : BitVec 6} {x2 : BitVec 12} {x3 : State} (h3 : Canon x3.mem x3.wgs) : ∀
    y0, (execSsarImm x0 x1 x2 x3) = .next y0 → (Canon y0.mem y0.wgs) := by
  unfold execSsarImm; exact canon_runAlu1 (by assumption)

theorem canon_execSlane {x0 : BitVec 6} {x1 : BitVec 7} {x2 : BitVec 5} {x3 : State} (h3 : Canon x3.mem x3.wgs) : ∀
    y0, (execSlane x0 x1 x2 x3) = .next y0 → (Canon y0.mem y0.wgs) := by
  unfold execSlane; grind -ring -linarith -lia [canon_runNamed, canon_retire]

theorem canon_execSpredGet {x0 : BitVec 6} {x1 : BitVec 3} {x2 : State} (h2 : Canon x2.mem x2.wgs) : ∀ y0,
    (execSpredGet x0 x1 x2) = .next y0 → (Canon y0.mem y0.wgs) := by
  unfold execSpredGet; exact canon_runSet (by assumption)

theorem canon_execSpredSet {x0 : BitVec 6} {x1 : BitVec 3} {x2 : State} (h2 : Canon x2.mem x2.wgs) : ∀ y0,
    (execSpredSet x0 x1 x2) = .next y0 → (Canon y0.mem y0.wgs) := by
  unfold execSpredSet; exact canon_runUniform (by assumption)

theorem canon_execSpredAct {x0 : BitVec 6} {x1 : State} (h1 : Canon x1.mem x1.wgs) : ∀ y0, (execSpredAct x0 x1) =
    .next y0 → (Canon y0.mem y0.wgs) := by
  unfold execSpredAct; exact canon_runSet (by assumption)

theorem canon_execXwin {x0 : BitVec 6} {x1 : State} (h1 : Canon x1.mem x1.wgs) : ∀ y0, (execXwin x0 x1) = .next y0 →
    (Canon y0.mem y0.wgs) := by
  unfold execXwin; exact canon_runUniform (by assumption)

/-! ### Dispatch -/

/-- Every instruction keeps the canonical form. -/
theorem canon_exec {x0 : Instr} {x1 : State} (h1 : Canon x1.mem x1.wgs) : ∀ y0, (exec x0 x1) = .next y0 → (Canon
    y0.mem y0.wgs) := by
  cases x0 with
  | vaddRrr => exact canon_execVaddRrr h1
  | vsubRrr => exact canon_execVsubRrr h1
  | vmulRrr => exact canon_execVmulRrr h1
  | vmulh => exact canon_execVmulh h1
  | vmad => exact canon_execVmad h1
  | vaddsat => exact canon_execVaddsat h1
  | vsubsat => exact canon_execVsubsat h1
  | vmin => exact canon_execVmin h1
  | vmax => exact canon_execVmax h1
  | vabs => exact canon_execVabs h1
  | vneg => exact canon_execVneg h1
  | vandRrr => exact canon_execVandRrr h1
  | vorRrr => exact canon_execVorRrr h1
  | vxor => exact canon_execVxor h1
  | vandn => exact canon_execVandn h1
  | vnot => exact canon_execVnot h1
  | vshlRrr => exact canon_execVshlRrr h1
  | vshrRrr => exact canon_execVshrRrr h1
  | vsarRrr => exact canon_execVsarRrr h1
  | vrol => exact canon_execVrol h1
  | vclz => exact canon_execVclz h1
  | vpopc => exact canon_execVpopc h1
  | vbrev => exact canon_execVbrev h1
  | vbfx => exact canon_execVbfx h1
  | vbfi => exact canon_execVbfi h1
  | vcmp => exact canon_execVcmp h1
  | vsel => exact canon_execVsel h1
  | vmov => exact canon_execVmov h1
  | vmovs => exact canon_execVmovs h1
  | vamin => exact canon_execVamin h1
  | vamax => exact canon_execVamax h1
  | vfaddRrr => exact canon_execVfaddRrr h1
  | vfsub => exact canon_execVfsub h1
  | vfmulRrr => exact canon_execVfmulRrr h1
  | vfma => exact canon_execVfma h1
  | vfmin => exact canon_execVfmin h1
  | vfmax => exact canon_execVfmax h1
  | vfabs => exact canon_execVfabs h1
  | vfneg => exact canon_execVfneg h1
  | vfcmp => exact canon_execVfcmp h1
  | vfrcp => exact canon_execVfrcp h1
  | vfrsq => exact canon_execVfrsq h1
  | vfsqrt => exact canon_execVfsqrt h1
  | vfex2 => exact canon_execVfex2 h1
  | vflg2 => exact canon_execVflg2 h1
  | vfsin => exact canon_execVfsin h1
  | vfcos => exact canon_execVfcos h1
  | vfclass => exact canon_execVfclass h1
  | vcvt => exact canon_execVcvt h1
  | vcvts => exact canon_execVcvts h1
  | vtag => exact canon_execVtag h1
  | vpack => exact canon_execVpack h1
  | vunpk => exact canon_execVunpk h1
  | vaddRrs => exact canon_execVaddRrs h1
  | vsubRrs => exact canon_execVsubRrs h1
  | vmulRrs => exact canon_execVmulRrs h1
  | vandRrs => exact canon_execVandRrs h1
  | vorRrs => exact canon_execVorRrs h1
  | vshlRrs => exact canon_execVshlRrs h1
  | vshrRrs => exact canon_execVshrRrs h1
  | vsarRrs => exact canon_execVsarRrs h1
  | vfaddRrs => exact canon_execVfaddRrs h1
  | vfmulRrs => exact canon_execVfmulRrs h1
  | vshuf => exact canon_execVshuf h1
  | vshufi => exact canon_execVshufi h1
  | vlsh => exact canon_execVlsh h1
  | vbcst => exact canon_execVbcst h1
  | vred => exact canon_execVred h1
  | vscan => exact canon_execVscan h1
  | vcav => exact canon_execVcav h1
  | vballot => exact canon_execVballot h1
  | vsubel => exact canon_execVsubel h1
  | vxswap => exact canon_execVxswap h1
  | vld => exact canon_execVld h1
  | vst => exact canon_execVst h1
  | vatom => exact canon_execVatom h1
  | vcas => exact canon_execVcas h1
  | vprf => exact canon_execVprf h1
  | vlds => exact canon_execVlds h1
  | vsts => exact canon_execVsts h1
  | vatoms => exact canon_execVatoms h1
  | br => exact canon_execBr h1
  | xset => exact canon_execXset h1
  | xadd => exact canon_execXadd h1
  | sadd => exact canon_execSadd h1
  | ssub => exact canon_execSsub h1
  | smul => exact canon_execSmul h1
  | smulh => exact canon_execSmulh h1
  | smulhU => exact canon_execSmulhU h1
  | sdiv => exact canon_execSdiv h1
  | sdivU => exact canon_execSdivU h1
  | srem => exact canon_execSrem h1
  | sremU => exact canon_execSremU h1
  | sand => exact canon_execSand h1
  | sor => exact canon_execSor h1
  | sxor => exact canon_execSxor h1
  | snot => exact canon_execSnot h1
  | sshl => exact canon_execSshl h1
  | sshr => exact canon_execSshr h1
  | ssar => exact canon_execSsar h1
  | smin => exact canon_execSmin h1
  | sminU => exact canon_execSminU h1
  | smax => exact canon_execSmax h1
  | smaxU => exact canon_execSmaxU h1
  | ssel => exact canon_execSsel h1
  | smov => exact canon_execSmov h1
  | scmp => exact canon_execScmp h1
  | smovi => exact canon_execSmovi h1
  | saddImm => exact canon_execSaddImm h1
  | sandImm => exact canon_execSandImm h1
  | sorImm => exact canon_execSorImm h1
  | sxorImm => exact canon_execSxorImm h1
  | sshlImm => exact canon_execSshlImm h1
  | sshrImm => exact canon_execSshrImm h1
  | ssarImm => exact canon_execSsarImm h1
  | slane => exact canon_execSlane h1
  | spredGet => exact canon_execSpredGet h1
  | spredSet => exact canon_execSpredSet h1
  | spredAct => exact canon_execSpredAct h1
  | bra => exact canon_execBra h1
  | brasNz => exact canon_execBrasNz h1
  | brasZ => exact canon_execBrasZ h1
  | call => exact canon_execCall h1
  | ret => exact canon_execRet h1
  | mark => exact canon_execMark h1
  | join => exact canon_execJoin h1
  | loop => exact canon_execLoop h1
  | exit => exact canon_execExit h1
  | nop => exact canon_execNop h1
  | xwin => exact canon_execXwin h1
  | sld => exact canon_execSld h1
  | sst => exact canon_execSst h1
  | satom => exact canon_execSatom h1
  | scas => exact canon_execScas h1
  | ldlW => exact canon_execLdlW h1
  | ldlD => exact canon_execLdlD h1
  | acq => exact canon_execAcq h1
  | rel => exact canon_execRel h1
  | fence => exact canon_execFence h1
  | publish => exact canon_execPublish h1
  | stset => exact canon_execStset h1
  | stsave => exact canon_execStsave h1
  | stpos => exact canon_execStpos h1
  | stskip => exact canon_execStskip h1
  | grd => exact canon_execGrd h1
  | gwr => exact canon_execGwr h1
  | gatom => exact canon_execGatom h1
  | qbind => exact canon_execQbind h1
  | qpush => exact canon_execQpush h1
  | qpushv => exact canon_execQpushv h1
  | qpop => exact canon_execQpop h1
  | qtry => exact canon_execQtry h1
  | qsteal => exact canon_execQsteal h1
  | qlen => exact canon_execQlen h1
  | mma => exact canon_execMma h1
  | mmt => exact canon_execMmt h1
  | mzero => exact canon_execMzero h1
  | mscale => exact canon_execMscale h1
  | cpy => exact canon_execCpy h1
  | cpt => exact canon_execCpt h1
  | cpr => exact canon_execCpr h1
  | cpx => exact canon_execCpx h1
  | cpc => exact canon_execCpc h1
  | cpclose => exact canon_execCpclose h1
  | cpwait => exact canon_execCpwait h1
  | tbinit => exact canon_execTbinit h1
  | tbexp => exact canon_execTbexp h1
  | tbarr => exact canon_execTbarr h1
  | tbwait => exact canon_execTbwait h1
  | bar => exact canon_execBar h1
  | gbar => exact canon_execGbar h1
  | cvjoin => exact canon_execCvjoin h1
  | cvleave => exact canon_execCvleave h1
  | cvslip => exact canon_execCvslip h1
  | cvrejoin => exact canon_execCvrejoin h1
  | srd => exact canon_execSrd h1
  | srdV => exact canon_execSrdV h1
  | swr => exact canon_execSwr h1
  | trap => exact canon_execTrap h1
  | tret => exact canon_execTret h1
  | sigdone => exact canon_execSigdone h1
  | region => exact canon_execRegion h1
  | setperf => exact canon_execSetperf h1
  | waitc => exact canon_execWaitc h1
  | cancel => exact canon_execCancel h1
  | sleep => exact canon_execSleep h1
  | bkpt => exact canon_execBkpt h1
  | pool => exact canon_execPool h1
  | clause => exact canon_execClause h1
  | illegalInstruction => exact canon_execIllegalInstruction h1
  | instructionFetchFault => exact canon_execInstructionFetchFault h1
  | loopFallThrough => exact canon_execLoopFallThrough h1
  | longLatencyComplete => exact canon_execLongLatencyComplete h1
  | handlerEntry => exact canon_execHandlerEntry h1
  | warpReplay => exact canon_execWarpReplay h1
  | matrixRowBlock => exact canon_execMatrixRowBlock h1
  | copyStart => exact canon_execCopyStart h1
  | copySectorPerformed => exact canon_execCopySectorPerformed h1
  | copyTokenWrite => exact canon_execCopyTokenWrite h1
  | applyRequest => exact canon_execApplyRequest h1
  | applyAck => exact canon_execApplyAck h1
  | applyAckTimeout => exact canon_execApplyAckTimeout h1
  | tbwaitWake => exact canon_execTbwaitWake h1
  | barRelease => exact canon_execBarRelease h1
  | pipeEntryAvailable => exact canon_execPipeEntryAvailable h1
  | waitcWake => exact canon_execWaitcWake h1
  | remoteCounterPoll => exact canon_execRemoteCounterPoll h1
  | sleepExpire => exact canon_execSleepExpire h1
  | convoyReevaluate => exact canon_execConvoyReevaluate h1
  | patienceExpiry => exact canon_execPatienceExpiry h1
  | mergePointRead => exact canon_execMergePointRead h1
  | mergePointWrite => exact canon_execMergePointWrite h1
  | dramReturn => exact canon_execDramReturn h1
  | atomicUnitRequest => exact canon_execAtomicUnitRequest h1
  | remoteWriteAck => exact canon_execRemoteWriteAck h1
  | pageWalkStart => exact canon_execPageWalkStart h1
  | pageWalkEnd => exact canon_execPageWalkEnd h1
  | translationInvalidate => exact canon_execTranslationInvalidate h1
  | publishExchange => exact canon_execPublishExchange h1
  | fabricInboundRequest => exact canon_execFabricInboundRequest h1
  | fabricCompletion => exact canon_execFabricCompletion h1
  | hostAccess => exact canon_execHostAccess h1
  | linkCrcError => exact canon_execLinkCrcError h1
  | portTrainingLoss => exact canon_execPortTrainingLoss h1
  | sramParityError => exact canon_execSramParityError h1
  | eccError => exact canon_execEccError h1
  | linkOccupancyWindow => exact canon_execLinkOccupancyWindow h1
  | linkWidthHandshakeEnd => exact canon_execLinkWidthHandshakeEnd h1
  | doorbell => exact canon_execDoorbell h1
  | launchPacket => exact canon_execLaunchPacket h1
  | fencePacket => exact canon_execFencePacket h1
  | fenceConditionTest => exact canon_execFenceConditionTest h1
  | signalPacket => exact canon_execSignalPacket h1
  | cancelPacket => exact canon_execCancelPacket h1
  | graphOpen => exact canon_execGraphOpen h1
  | graphClose => exact canon_execGraphClose h1
  | phaseOpen => exact canon_execPhaseOpen h1
  | phaseClose => exact canon_execPhaseClose h1
  | jobOpen => exact canon_execJobOpen h1
  | jobClose => exact canon_execJobClose h1
  | dispatchRound => exact canon_execDispatchRound h1
  | gangReservation => exact canon_execGangReservation h1
  | eprioUpdate => exact canon_execEprioUpdate h1
  | bandwidthWindow => exact canon_execBandwidthWindow h1
  | workgroupEnd => exact canon_execWorkgroupEnd h1
  | workgroupSwitchOut => exact canon_execWorkgroupSwitchOut h1
  | workgroupRestore => exact canon_execWorkgroupRestore h1
  | preemptTimeout => exact canon_execPreemptTimeout h1
  | cancelTimeout => exact canon_execCancelTimeout h1
  | rotationInterval => exact canon_execRotationInterval h1
  | swapQuiesceEnd => exact canon_execSwapQuiesceEnd h1
  | swapQuiesceTimeout => exact canon_execSwapQuiesceTimeout h1
  | swapTransferEnd => exact canon_execSwapTransferEnd h1
  | swapWritebackEnd => exact canon_execSwapWritebackEnd h1
  | swapEnd => exact canon_execSwapEnd h1
  | clockLockDone => exact canon_execClockLockDone h1
  | voltageTargetReached => exact canon_execVoltageTargetReached h1
  | balanceSample => exact canon_execBalanceSample h1
  | powerSample => exact canon_execPowerSample h1
  | hardClamp => exact canon_execHardClamp h1
  | stallWindow => exact canon_execStallWindow h1
  | gatingIdleExpiry => exact canon_execGatingIdleExpiry h1
  | gatingDone => exact canon_execGatingDone h1
  | pairWakeDone => exact canon_execPairWakeDone h1
  | rendezvousPost => exact canon_execRendezvousPost h1
  | pullRequest => exact canon_execPullRequest h1
  | pullData => exact canon_execPullData h1
  | flagUnion => exact canon_execFlagUnion h1
  | powerOn => exact canon_execPowerOn h1
  | bootStage1 => exact canon_execBootStage1 h1
  | bootStage2 => exact canon_execBootStage2 h1
  | attestationReport => exact canon_execAttestationReport h1
  | mctpRequest => exact canon_execMctpRequest h1
  | faultRingHeadWrite => exact canon_execFaultRingHeadWrite h1
  | faultRingReply => exact canon_execFaultRingReply h1
  | contextSlotWrite => exact canon_execContextSlotWrite h1
  | wcbPreempt => exact canon_execWcbPreempt h1
  | wcbPreemptGang => exact canon_execWcbPreemptGang h1
  | wcbRestore => exact canon_execWcbRestore h1
  | wcbEnd => exact canon_execWcbEnd h1
  | queueDescriptorWrite => exact canon_execQueueDescriptorWrite h1
  | pipeDescriptorWrite => exact canon_execPipeDescriptorWrite h1
  | convoySlotWrite => exact canon_execConvoySlotWrite h1
  | rotctlWrite => exact canon_execRotctlWrite h1
  | pairpwrWrite => exact canon_execPairpwrWrite h1
  | diepwrWrite => exact canon_execDiepwrWrite h1
  | perfMonitorClear => exact canon_execPerfMonitorClear h1
  | inboundWindowWrite => exact canon_execInboundWindowWrite h1
  | monitorRegisterWrite => exact canon_execMonitorRegisterWrite h1
  | writeAcknowledgement => exact canon_execWriteAcknowledgement h1
  | linkCongestion => exact canon_execLinkCongestion h1
  | managementCoreStore => exact canon_execManagementCoreStore h1

/-! ### Load -/

theorem canon_placedGroup {x0 : Nat} {x1 : Bool} : (placedGroup x0 x1).sp.wf = true := by
  unfold placedGroup; grind -ring -linarith -lia [wg_canon, Canon.set, wf_nil, writeN_wf, writeMasked_wf]

theorem canon_placeWord {x0 : State} {x1 : Nat} (h0 : Canon x0.mem x0.wgs) : Canon (placeWord x0 x1).mem (placeWord x0
    x1).wgs := by
  unfold placeWord; grind -ring -linarith -lia [wg_canon, Canon.set, wf_nil, writeN_wf, writeMasked_wf,
      canon_placedGroup, Canon]

/-! ### Relaxed -/

theorem canon_ran {x0 : Instr} {x1 : State} (h1 : Canon x1.mem x1.wgs) : Canon (ran x0 x1).mem (ran x0 x1).wgs := by
  unfold ran; grind -ring -linarith -lia [canon_exec]

theorem canon_takeWarp {x0 : State} {x1 : State} {x2 : WRef} (h0 : Canon x0.mem x0.wgs) : Canon (takeWarp x0 x1
    x2).mem (takeWarp x0 x1 x2).wgs := by
  unfold takeWarp; grind -ring -linarith -lia [canon_State_setWarp]

theorem canon_keepWarp {x0 : State} {x1 : State} {x2 : WRef} {x3 : List Nat} {x4 : List Nat} (h0 : Canon x0.mem
    x0.wgs) (h1 : Canon x1.mem x1.wgs) : Canon (keepWarp x0 x1 x2 x3 x4).mem (keepWarp x0 x1 x2 x3 x4).wgs := by
  unfold keepWarp; grind -ring -linarith -lia [canon_State_setWarp]

theorem canon_LateAccess_perform {x0 : LateAccess} {x1 : State} (h1 : Canon x1.mem x1.wgs) : ∀ y0, (LateAccess.perform
    x0 x1) = some y0 → (Canon y0.mem y0.wgs) := by
  unfold LateAccess.perform; grind -ring -linarith -lia [canon_ran, canon_State_setWarp, canon_keepWarp]

theorem canon_performFirst {x0 : State} {x1 : List LateAccess} (h0 : Canon x0.mem x0.wgs) : Canon (performFirst x0
    x1).mem (performFirst x0 x1).wgs := by
  unfold performFirst
  split
  · rename_i l _
    cases e : l.perform x0 with
    | none => exact h0
    | some y => exact canon_LateAccess_perform h0 y e
  · exact h0

theorem canon_overtake {x0 : State} {x1 : Candidate} {x2 : Workgroup} {x3 : Warp} (h0 : Canon x0.mem x0.wgs) (h1 :
    (Canon (x1.s).mem (x1.s).wgs)) (h2 : x2.sp.wf = true) : Canon (overtake x0 x1 x2 x3).mem (overtake x0 x1 x2
    x3).wgs := by
  unfold overtake; grind -ring -linarith -lia [canon_ran, canon_performFirst, canon_LateAccess_perform]

theorem canon_issueLate {x0 : State} {x1 : Candidate} {x2 : Workgroup} {x3 : Warp} (h0 : Canon x0.mem x0.wgs) (h1 :
    (Canon (x1.s).mem (x1.s).wgs)) (h2 : x2.sp.wf = true) : Canon (issueLate x0 x1 x2 x3).mem (issueLate x0 x1 x2
    x3).wgs := by
  unfold issueLate; grind -ring -linarith -lia [canon_ran, canon_fillReads, canon_takeWarp]

theorem canon_issueEarly {x0 : State} {x1 : Candidate} {x2 : Workgroup} {x3 : Warp} (h0 : Canon x0.mem x0.wgs) (h1 :
    (Canon (x1.s).mem (x1.s).wgs)) (h2 : x2.sp.wf = true) : Canon (issueEarly x0 x1 x2 x3).mem (issueEarly x0 x1 x2
    x3).wgs := by
  unfold issueEarly; grind -ring -linarith -lia [canon_takeWarp]

theorem canon_keepView {x0 : State} {x1 : WRef} (h0 : Canon x0.mem x0.wgs) : Canon (keepView x0 x1).mem (keepView x0
    x1).wgs := by
  unfold keepView; grind -ring -linarith -lia [canon_State_wg]

theorem canon_selected {x0 : State} {x1 : Nat} {x2 : Nat} {x3 : Candidate → Workgroup → Warp → State} (h0 : Canon
    x0.mem x0.wgs) (h3 : ∀ (y0_0 : Candidate) (y0_1 : Workgroup) (y0_2 : Warp), ((Canon (y0_0.s).mem (y0_0.s).wgs)) →
    (y0_1.sp.wf = true) → Canon (x3 y0_0 y0_1 y0_2).mem (x3 y0_0 y0_1 y0_2).wgs) : Canon (selected x0 x1 x2 x3).mem
    (selected x0 x1 x2 x3).wgs := by
  unfold selected; grind -ring -linarith -lia [canon_pick, canon_State_wg]

theorem canon_relaxedPlan {x0 : State} {x1 : State} {x2 : Turn} (h0 : Canon x0.mem x0.wgs) (h1 : Canon x1.mem x1.wgs)
    : (∀ z0_0 z0_1, (relaxedPlan x0 x1 x2) = .run z0_0 z0_1 → (Canon z0_1.mem z0_1.wgs)) ∧ (∀ z0_0, (relaxedPlan x0 x1
    x2) = .done z0_0 → (Canon z0_0.mem z0_0.wgs)) := by
  unfold relaxedPlan
  have hd : ∀ t : State, Canon t.mem t.wgs → (∀ z0_0 z0_1, Plan.done t = .run z0_0 z0_1 → (Canon z0_1.mem z0_1.wgs)) ∧
      (∀ z0_0, Plan.done t = .done z0_0 → (Canon z0_0.mem z0_0.wgs)) :=
    fun t ht => ⟨fun _ _ h => (by cases h), fun _ h => by cases h; exact ht⟩
  split
  · exact hd _ (canon_selected h1 (fun c g w hc hg => canon_overtake h0 hc hg))
  · exact hd _ (canon_selected h1 (fun c g w hc hg => canon_issueLate h1 hc hg))
  · exact hd _ (canon_selected h1 (fun c g w hc hg => canon_issueEarly h1 hc hg))
  · exact hd _ (canon_performFirst h1)
  · exact hd _ (canon_keepView h1)
  · split
    · exact hd _ (canon_performFirst h0)
    split
    · exact canon_turnPlan (x0 := { x1 with early := _ }) h1
    · exact hd _ (canon_performFirst h0)
  · exact canon_turnPlan h1
  · exact canon_turnPlan h1

theorem canon_relaxedPlan_1 {x0 : State} {x1 : State} {x2 : Turn} (h0 : Canon x0.mem x0.wgs) (h1 : Canon x1.mem
    x1.wgs) : (∀ z0_0 z0_1, (relaxedPlan x0 x1 x2) = .run z0_0 z0_1 → (Canon z0_1.mem z0_1.wgs)) := (canon_relaxedPlan
    (h0 := h0) (h1 := h1)).1

theorem canon_relaxedPlan_2 {x0 : State} {x1 : State} {x2 : Turn} (h0 : Canon x0.mem x0.wgs) (h1 : Canon x1.mem
    x1.wgs) : (∀ z0_0, (relaxedPlan x0 x1 x2) = .done z0_0 → (Canon z0_0.mem z0_0.wgs)) := (canon_relaxedPlan (h0 :=
    h0) (h1 := h1)).2

/-! ### Plan -/

theorem canon_firstEffect {x0 : State} {x1 : List Act} (h0 : Canon x0.mem x0.wgs) (h1 : ∀ y0 ∈ x1, ∀ (y1_0 : State),
    (Canon y1_0.mem y1_0.wgs) → ∀ y2, (y0 y1_0) = .next y2 → (Canon y2.mem y2.wgs)) : ∀ y0, (firstEffect x0 x1) = some
    y0 → (Canon y0.mem y0.wgs) := by
  fun_induction firstEffect x0 x1
  case case1 => simp
  case case2 ih => exact ih (fun y hy => h1 y (List.mem_cons_of_mem _ hy))
  case case3 => intro y hy; cases hy; exact h1 _ List.mem_cons_self _ h0 _ ‹_›
  case case4 ih => exact ih (fun y hy => h1 y (List.mem_cons_of_mem _ hy))

theorem canon_warpActs {x0 : WRef} {x1 : Workgroup} {x2 : Warp} (h1 : x1.sp.wf = true) : ∀ y0 ∈ (warpActs x0 x1 x2), ∀
    (y1_0 : State), (Canon y1_0.mem y1_0.wgs) → ∀ y2, (y0 y1_0) = .next y2 → (Canon y2.mem y2.wgs) := by
  unfold warpActs; intro y hy; simp only [List.mem_append, List.mem_map, List.mem_flatMap, List.mem_cons,
      List.not_mem_nil, or_false] at hy; (repeat' rcases (hy : _ ∨ _) with hy | hy) <;> (try split at hy) <;> (try
      simp only [List.mem_append, List.mem_map, List.mem_flatMap, List.mem_cons, List.not_mem_nil, or_false] at hy)
      <;> (repeat' (first | (obtain ⟨_, hx, hy⟩ := (hy : ∃ _, _)) | (rcases (hy : _ ∨ _) with hy | hy))) <;> (try
      (subst hy)) <;> grind -ring -linarith -lia [canon_execLongLatencyComplete, canon_execRemoteWriteAck,
      canon_execMatrixRowBlock, canon_execBarRelease, canon_execWaitcWake, canon_execRemoteCounterPoll,
      canon_execPipeEntryAvailable, canon_execSleepExpire, canon_execTbwaitWake, canon_execPublishExchange,
      canon_execWarpReplay, canon_execConvoyReevaluate, canon_execPatienceExpiry]

theorem canon_copyActs {x0 : State} {x1 : Nat} (h0 : Canon x0.mem x0.wgs) : ∀ y0 ∈ (copyActs x0 x1), ∀ (y1_0 : State),
    (Canon y1_0.mem y1_0.wgs) → ∀ y2, (y0 y1_0) = .next y2 → (Canon y2.mem y2.wgs) := by
  unfold copyActs; intro y hy; simp only [List.mem_append, List.mem_map, List.mem_flatMap, List.mem_cons,
      List.not_mem_nil, or_false] at hy; (repeat' rcases (hy : _ ∨ _) with hy | hy) <;> (try split at hy) <;> (try
      simp only [List.mem_append, List.mem_map, List.mem_flatMap, List.mem_cons, List.not_mem_nil, or_false] at hy)
      <;> (repeat' (first | (obtain ⟨_, hx, hy⟩ := (hy : ∃ _, _)) | (rcases (hy : _ ∨ _) with hy | hy))) <;> (try
      (subst hy)) <;> grind -ring -linarith -lia [canon_execPullRequest, canon_execPullData, canon_execApplyRequest,
      canon_execApplyAck, canon_execApplyAckTimeout, canon_execRendezvousPost, canon_execFlagUnion,
      canon_execCopySectorPerformed, canon_execCopyTokenWrite]

theorem canon_tileActs {x0 : State} {x1 : Nat} (h0 : Canon x0.mem x0.wgs) : ∀ y0 ∈ (tileActs x0 x1), ∀ (y1_0 : State),
    (Canon y1_0.mem y1_0.wgs) → ∀ y2, (y0 y1_0) = .next y2 → (Canon y2.mem y2.wgs) := by
  unfold tileActs; simp only [List.mem_append, List.mem_map, List.mem_flatMap, List.mem_cons, List.not_mem_nil,
      or_false, or_imp, forall_and, forall_eq, forall_exists_index, and_imp, forall_apply_eq_imp_iff₂]; (repeat' apply
      And.intro) <;> intros <;> (try subst_vars) <;> grind -ring -linarith -lia [canon_execWriteAcknowledgement,
      canon_warpActs, canon_tileWarps, canon_copyActs, canon_execWorkgroupEnd, canon_execWorkgroupSwitchOut,
      canon_execWorkgroupRestore, canon_execPreemptTimeout, canon_execCancelTimeout, canon_execCopyStart]

theorem canon_queueActs {x0 : Nat} {x1 : Queue} : ∀ y0 ∈ (queueActs x0 x1), ∀ (y1_0 : State), (Canon y1_0.mem
    y1_0.wgs) → ∀ y2, (y0 y1_0) = .next y2 → (Canon y2.mem y2.wgs) := by
  unfold queueActs; simp only [List.mem_append, List.mem_map, List.mem_flatMap, List.mem_cons, List.not_mem_nil,
      or_false, or_imp, forall_and, forall_eq, forall_exists_index, and_imp, forall_apply_eq_imp_iff₂]; (repeat' apply
      And.intro) <;> intros <;> (try subst_vars) <;> grind -ring -linarith -lia [canon_execLaunchPacket,
      canon_execFencePacket, canon_execSignalPacket, canon_execCancelPacket, canon_execGraphOpen,
      canon_execGraphClose, canon_execPhaseOpen, canon_execPhaseClose, canon_execJobOpen, canon_execJobClose,
      canon_execFenceConditionTest]

theorem canon_clusterActs {x0 : Nat} {x1 : Cluster} : ∀ y0 ∈ (clusterActs x0 x1), ∀ (y1_0 : State), (Canon y1_0.mem
    y1_0.wgs) → ∀ y2, (y0 y1_0) = .next y2 → (Canon y2.mem y2.wgs) := by
  unfold clusterActs; simp only [List.mem_append, List.mem_map, List.mem_flatMap, List.mem_cons, List.not_mem_nil,
      or_false, or_imp, forall_and, forall_eq, forall_exists_index, and_imp, forall_apply_eq_imp_iff₂]; (repeat' apply
      And.intro) <;> intros <;> (try subst_vars) <;> grind -ring -linarith -lia [canon_execPipeEntryAvailable,
      canon_execPageWalkEnd, canon_execSwapQuiesceEnd, canon_execSwapTransferEnd, canon_execSwapWritebackEnd,
      canon_execSwapEnd, canon_execSwapQuiesceTimeout, canon_execClockLockDone, canon_execLinkWidthHandshakeEnd]

theorem canon_pairActs {x0 : Nat} : ∀ y0 ∈ (pairActs x0), ∀ (y1_0 : State), (Canon y1_0.mem y1_0.wgs) → ∀ y2, (y0
    y1_0) = .next y2 → (Canon y2.mem y2.wgs) := by
  unfold pairActs; simp only [List.mem_append, List.mem_map, List.mem_flatMap, List.mem_cons, List.not_mem_nil,
      or_false, or_imp, forall_and, forall_eq, forall_exists_index, and_imp, forall_apply_eq_imp_iff₂]; (repeat' apply
      And.intro) <;> intros <;> (try subst_vars) <;> grind -ring -linarith -lia [canon_execVoltageTargetReached,
      canon_execGatingIdleExpiry, canon_execGatingDone, canon_execPairWakeDone]

theorem canon_mergeActs {x0 : State} {x1 : Nat} {x2 : MergePoint} (h0 : Canon x0.mem x0.wgs) : ∀ y0 ∈ (mergeActs x0 x1
    x2), ∀ (y1_0 : State), (Canon y1_0.mem y1_0.wgs) → ∀ y2, (y0 y1_0) = .next y2 → (Canon y2.mem y2.wgs) := by
  unfold mergeActs
  intro f hf s hs t ht
  simp only [Option.mem_toList, Option.map_eq_some_iff] at hf
  obtain ⟨e, _, rfl⟩ := hf
  exact canon_execDramReturn hs _ ht

theorem canon_deviceActs {x0 : State} (h0 : Canon x0.mem x0.wgs) : ∀ y0 ∈ (deviceActs x0), ∀ (y1_0 : State), (Canon
    y1_0.mem y1_0.wgs) → ∀ y2, (y0 y1_0) = .next y2 → (Canon y2.mem y2.wgs) := by
  unfold deviceActs; simp only [List.mem_append, List.mem_map, List.mem_flatMap, List.mem_cons, List.not_mem_nil,
      or_false, or_imp, forall_and, forall_eq, forall_exists_index, and_imp, forall_apply_eq_imp_iff₂]; (repeat' apply
      And.intro) <;> intros <;> (try subst_vars) <;> grind -ring -linarith -lia [canon_queueActs,
      canon_execGangReservation, canon_execDispatchRound, canon_execEprioUpdate, canon_clusterActs, canon_pairActs,
      canon_mergeActs, canon_copyActs]

theorem canon_passTime {x0 : State} (h0 : Canon x0.mem x0.wgs) : Canon (passTime x0).mem (passTime x0).wgs := by
  unfold passTime; grind -ring -linarith -lia [canon_passTicks, canon_passCycles, foldl_canon]

theorem canon_issueCycle {x0 : State} {x1 : Nat} (h0 : Canon x0.mem x0.wgs) : Canon (issueCycle x0 x1).mem (issueCycle
    x0 x1).wgs := by
  unfold issueCycle; grind -ring -linarith -lia [canon_State_setTile, canon_State_updCluster]

theorem canon_idlePlan {x0 : State} (h0 : Canon x0.mem x0.wgs) : Canon (idlePlan x0).mem (idlePlan x0).wgs := by
  unfold idlePlan
  have h1 : Canon { x0 with cur := none }.mem { x0 with cur := none }.wgs := h0
  simp only
  split
  · rename_i t e
    exact canon_firstEffect h1 (canon_tileActs h1) _ e
  · split
    · exact h0
    · split
      · rename_i t e
        have h2 := canon_firstEffect h1 (canon_deviceActs h1) t e
        exact h2
      · exact canon_passTime h1

theorem canon_freePlan {x0 : State} (h0 : Canon x0.mem x0.wgs) : (∀ z0_0 z0_1, (freePlan x0) = .run z0_0 z0_1 → (Canon
    z0_1.mem z0_1.wgs)) ∧ (∀ z0_0, (freePlan x0) = .done z0_0 → (Canon z0_0.mem z0_0.wgs)) := by
  unfold freePlan; split
  · split
    · rename_i c hc
      have := canon_choose (canon_candidates h0) _ hc
      exact canon_Candidate_plan (x0 := { c with s := issueCycle c.s x0.here }) (canon_issueCycle this)
    · exact ⟨fun _ _ h => (by cases h), fun _ h => by cases h; exact canon_idlePlan h0⟩
  · exact ⟨fun _ _ h => (by cases h), fun _ h => by cases h; exact canon_idlePlan h0⟩

theorem canon_freePlan_1 {x0 : State} (h0 : Canon x0.mem x0.wgs) : (∀ z0_0 z0_1, (freePlan x0) = .run z0_0 z0_1 →
    (Canon z0_1.mem z0_1.wgs)) := (canon_freePlan (h0 := h0)).1

theorem canon_freePlan_2 {x0 : State} (h0 : Canon x0.mem x0.wgs) : (∀ z0_0, (freePlan x0) = .done z0_0 → (Canon
    z0_0.mem z0_0.wgs)) := (canon_freePlan (h0 := h0)).2

/-- The choice of what runs next keeps the canonical form. -/
theorem canon_plan {x0 : State} (h0 : Canon x0.mem x0.wgs) : (∀ z0_0 z0_1, (plan x0) = .run z0_0 z0_1 → (Canon
    z0_1.mem z0_1.wgs)) ∧ (∀ z0_0, (plan x0) = .done z0_0 → (Canon z0_0.mem z0_0.wgs)) := by
  unfold plan; split
  · split
    · exact canon_freePlan (x0 := { x0 with early := [] }) h0
    · exact ⟨fun _ _ h => (by cases h), fun _ h => by cases h; exact canon_performFirst h0⟩
  · split
    · exact canon_turnPlan (x0 := { x0 with turns := _ }) h0
    · exact canon_relaxedPlan (x1 := { x0 with turns := _ }) h0 h0

theorem canon_plan_1 {x0 : State} (h0 : Canon x0.mem x0.wgs) : (∀ z0_0 z0_1, (plan x0) = .run z0_0 z0_1 → (Canon
    z0_1.mem z0_1.wgs)) := (canon_plan (h0 := h0)).1

theorem canon_plan_2 {x0 : State} (h0 : Canon x0.mem x0.wgs) : (∀ z0_0, (plan x0) = .done z0_0 → (Canon z0_0.mem
    z0_0.wgs)) := (canon_plan (h0 := h0)).2

end Sys2Proof.Laws
end

