-- ==== Sys2Proof/Laws/Lanes.lean ====
section
/-! SUPPORT. Laws of lanes: sub-elements of a built lane, masks built from a test, and what writing a destination does. -/

set_option Elab.async false

namespace Sys2Proof.Laws

open Sys2Proof.Machine

/-! ### Sub-elements -/

/-- Packed elements fit their width. -/
theorem packEls_lt (w : Nat) (es : List Nat) : packEls w es < 2 ^ (w * es.length) := by
  induction es with
  | nil => simp [packEls]
  | cons e r ih =>
    have h1 : e % 2 ^ w < 2 ^ w := Nat.mod_lt _ (by positivity)
    simp only [packEls, List.length_cons, Nat.mul_add, Nat.mul_one, Nat.pow_add]
    calc e % 2 ^ w + 2 ^ w * packEls w r < 2 ^ w + 2 ^ w * packEls w r := by omega
      _ = 2 ^ w * (packEls w r + 1) := by rw [Nat.mul_add]; omega
      _ ≤ 2 ^ w * 2 ^ (w * r.length) := Nat.mul_le_mul_left _ ih
      _ = _ := Nat.mul_comm _ _

/-- An element comes out of the packed number. -/
theorem packEls_div (w : Nat) (es : List Nat) (j : Nat) (h : j < es.length) :
    packEls w es / 2 ^ (w * j) % 2 ^ w = es.getD j 0 % 2 ^ w := by
  induction es generalizing j with
  | nil => cases h
  | cons e r ih =>
    have hp : 0 < 2 ^ w := by positivity
    cases j with
    | zero => simp [packEls, Nat.add_mul_mod_self_left]
    | succ j =>
      have hj : j < r.length := by simpa using h
      simp only [packEls, Nat.mul_add, Nat.mul_one, List.getD_cons_succ]
      rw [Nat.pow_add, Nat.mul_comm (2 ^ (w * j)), ← Nat.div_div_eq_div_mul, Nat.add_mul_div_left _ _ hp,
        Nat.div_eq_of_lt (Nat.mod_lt _ hp), Nat.zero_add, ih j hj]

/-- Sub-element j of a lane that was built from its sub-elements (R15). -/
theorem subEl_laneFrom (w : Nat) (f : Nat → Nat) (j : Nat) (h : j < 64 / w) :
    subEl w (laneFrom w f) j = f j % 2 ^ w := by
  have hl : packEls w ((List.range (64 / w)).map f) < 2 ^ 64 :=
    Nat.lt_of_lt_of_le (packEls_lt _ _) (Nat.pow_le_pow_right (by omega) (by simpa using Nat.mul_div_le 64 w))
  rw [subEl, laneFrom, BitVec.toNat_ofNat, Nat.mod_eq_of_lt hl, packEls_div _ _ _ (by simpa using h)]
  simp [List.getD, List.getElem?_map, List.getElem?_range h]

/-! ### Masks -/

/-- Bit n of a sum of distinct powers. -/
theorem foldl_bits (t : Nat → Bool) (n k : Nat) :
    ((List.range n).foldl (fun a l => if t l then a + 2 ^ l else a) 0 < 2 ^ n) ∧
    (((List.range n).foldl (fun a l => if t l then a + 2 ^ l else a) 0).testBit k = (decide (k < n) && t k)) := by
  induction n with
  | zero => simp
  | succ n ih =>
    simp only [List.range_succ, List.foldl_append, List.foldl_cons, List.foldl_nil]
    obtain ⟨hlt, hbit⟩ := ih
    set a := (List.range n).foldl (fun a l => if t l then a + 2 ^ l else a) 0
    split
    · rename_i ht
      refine ⟨by rw [Nat.pow_succ]; omega, ?_⟩
      rw [Nat.add_comm]
      rcases Nat.lt_trichotomy k n with h | h | h
      · rw [Nat.testBit_two_pow_add_gt h, hbit]
        simp [h, Nat.lt_succ_of_lt h]
      · subst h
        rw [Nat.testBit_two_pow_add_eq, Nat.testBit_lt_two_pow hlt]
        simp [ht]
      · have : 2 ^ n + a < 2 ^ k := by
          have := Nat.pow_le_pow_right (n := 2) (by omega) (show n + 1 ≤ k from h)
          rw [Nat.pow_succ] at this
          omega
        rw [Nat.testBit_lt_two_pow this]
        simp [show ¬ k < n + 1 by omega]
    · rename_i ht
      refine ⟨by rw [Nat.pow_succ]; omega, ?_⟩
      rw [hbit]
      rcases Nat.lt_trichotomy k n with h | h | h
      · simp [h, Nat.lt_succ_of_lt h]
      · subst h
        simpa using ht
      · simp [show ¬ k < n by omega, show ¬ k < n + 1 by omega]

/-- A lane is in the mask of a test exactly when it passes (R21). -/
theorem getLsbD_maskOf (t : Nat → Bool) (l : Nat) (h : l < 32) : (maskOf t).getLsbD l = t l := by
  rw [maskOf, BitVec.getLsbD_ofNat, laneNums, (foldl_bits t 32 l).2]
  simp [h]

/-- The lanes of a mask. -/
theorem mem_lanesIn (m : Mask) (l : Nat) : l ∈ lanesIn m ↔ l < 32 ∧ m.getLsbD l = true := by
  simp [lanesIn, laneNums]

/-! ### Registers of a warp -/

/-- A uniform register reads as written; the others stay (R20). -/
@[simp] theorem sget_sset_same (w : Warp) (d : Nat) (x : Reg) : (w.sset d x).sget d = x := by
  simp [Warp.sget, Warp.sset]

theorem sget_sset_other (w : Warp) (d k : Nat) (x : Reg) (h : k ≠ d) : (w.sset d x).sget k = w.sget k :=
  get_set_other _ _ _ _ _ h

/-- A vector register reads as written; the others stay (R15). -/
@[simp] theorem vget_vset_same (w : Warp) (n : Nat) (x : VReg) : (w.vset n x).vget n = x := by
  simp [Warp.vget, Warp.vset]

theorem vget_vset_other (w : Warp) (n k : Nat) (x : VReg) (h : k ≠ n) : (w.vset n x).vget k = w.vget k :=
  get_set_other _ _ _ _ _ h

/-- A predicate reads as written, but p0 reads as all ones (R21). -/
theorem pget_pset_same (w : Warp) (k : Nat) (m : Mask) (h : k ≠ 0) : (w.pset k m).pget k = m := by
  simp [Warp.pget, Warp.pset, h]

theorem pget_pset_other (w : Warp) (k j : Nat) (m : Mask) (h : j ≠ k) : (w.pset k m).pget j = w.pget j := by
  simp [Warp.pget, Warp.pset, get_set_other _ _ _ _ _ h]

@[simp] theorem pget_zero (w : Warp) : w.pget 0 = BitVec.allOnes 32 := rfl

/-! ### Destinations -/

/-- A direct destination takes the tag and the new values in the lanes of the mask that are not kept (R31). -/
theorem writeDst_reg (w : Warp) (n : Nat) (tag : BitVec 5) (m keep : Mask) (new : Nat → Reg) :
    writeDst w (.reg n) tag m keep new = w.vset n ⟨tag, mergeLanes (m &&& ~~~keep) (w.vget n).lanes new⟩ := rfl

/-- Writing a destination changes vector registers alone. -/
theorem writeDst_frame (w : Warp) (o : Opd) (tag : BitVec 5) (m keep : Mask) (new : Nat → Reg) :
    writeDst w o tag m keep new = { w with r := { w.r with v := (writeDst w o tag m keep new).r.v } } := by
  have fold : ∀ (l : List Nat) (x : Warp) (f : Warp → Nat → VReg), l.foldl (fun w' n => w'.vset n (f w' n)) x =
      { x with r := { x.r with v := (l.foldl (fun w' n => w'.vset n (f w' n)) x).r.v } } := by
    intro l
    induction l with
    | nil => intros; rfl
    | cons n r ih =>
      intro x f
      rw [List.foldl_cons, ih]
      rfl
  cases o with
  | idx k => exact fold _ _ _
  | _ => rfl

end Sys2Proof.Laws
end

