-- ==== Sys2Proof/Laws/State.lean ====
section
/-! SUPPORT. One lemma per field per update of the state, of a warp and of its parts; and reads after updates by number. -/

set_option Elab.async false

namespace Sys2Proof.Laws.State

open Sys2Proof.Machine


/-! State.setWg -/

@[simp] theorem setWg_mem (s : State) (u : Nat) (x : Workgroup) : (s.setWg u x).mem = s.mem := rfl
@[simp] theorem setWg_turns (s : State) (u : Nat) (x : Workgroup) : (s.setWg u x).turns = s.turns := rfl
@[simp] theorem setWg_here (s : State) (u : Nat) (x : Workgroup) : (s.setWg u x).here = s.here := rfl
@[simp] theorem setWg_cur (s : State) (u : Nat) (x : Workgroup) : (s.setWg u x).cur = s.cur := rfl
@[simp] theorem setWg_free (s : State) (u : Nat) (x : Workgroup) : (s.setWg u x).free = s.free := rfl
@[simp] theorem setWg_nextUid (s : State) (u : Nat) (x : Workgroup) : (s.setWg u x).nextUid = s.nextUid := rfl
@[simp] theorem setWg_nextId (s : State) (u : Nat) (x : Workgroup) : (s.setWg u x).nextId = s.nextId := rfl
@[simp] theorem setWg_issues (s : State) (u : Nat) (x : Workgroup) : (s.setWg u x).issues = s.issues := rfl
@[simp] theorem setWg_quantum (s : State) (u : Nat) (x : Workgroup) : (s.setWg u x).quantum = s.quantum := rfl
@[simp] theorem setWg_late (s : State) (u : Nat) (x : Workgroup) : (s.setWg u x).late = s.late := rfl
@[simp] theorem setWg_early (s : State) (u : Nat) (x : Workgroup) : (s.setWg u x).early = s.early := rfl
@[simp] theorem setWg_tiles (s : State) (u : Nat) (x : Workgroup) : (s.setWg u x).tiles = s.tiles := rfl
@[simp] theorem setWg_clusters (s : State) (u : Nat) (x : Workgroup) : (s.setWg u x).clusters = s.clusters := rfl
@[simp] theorem setWg_pairs (s : State) (u : Nat) (x : Workgroup) : (s.setWg u x).pairs = s.pairs := rfl
@[simp] theorem setWg_dies (s : State) (u : Nat) (x : Workgroup) : (s.setWg u x).dies = s.dies := rfl
@[simp] theorem setWg_wadi (s : State) (u : Nat) (x : Workgroup) : (s.setWg u x).wadi = s.wadi := rfl
@[simp] theorem setWg_slots (s : State) (u : Nat) (x : Workgroup) : (s.setWg u x).slots = s.slots := rfl
@[simp] theorem setWg_dev (s : State) (u : Nat) (x : Workgroup) : (s.setWg u x).dev = s.dev := rfl
@[simp] theorem setWg_wgs (s : State) (u : Nat) (x : Workgroup) : (s.setWg u x).wgs = Table.set s.wgs u x := rfl

/-! State.setTile -/

@[simp] theorem setTile_mem (s : State) (u : Nat) (x : Tile) : (s.setTile u x).mem = s.mem := rfl
@[simp] theorem setTile_turns (s : State) (u : Nat) (x : Tile) : (s.setTile u x).turns = s.turns := rfl
@[simp] theorem setTile_here (s : State) (u : Nat) (x : Tile) : (s.setTile u x).here = s.here := rfl
@[simp] theorem setTile_cur (s : State) (u : Nat) (x : Tile) : (s.setTile u x).cur = s.cur := rfl
@[simp] theorem setTile_free (s : State) (u : Nat) (x : Tile) : (s.setTile u x).free = s.free := rfl
@[simp] theorem setTile_nextUid (s : State) (u : Nat) (x : Tile) : (s.setTile u x).nextUid = s.nextUid := rfl
@[simp] theorem setTile_nextId (s : State) (u : Nat) (x : Tile) : (s.setTile u x).nextId = s.nextId := rfl
@[simp] theorem setTile_issues (s : State) (u : Nat) (x : Tile) : (s.setTile u x).issues = s.issues := rfl
@[simp] theorem setTile_quantum (s : State) (u : Nat) (x : Tile) : (s.setTile u x).quantum = s.quantum := rfl
@[simp] theorem setTile_late (s : State) (u : Nat) (x : Tile) : (s.setTile u x).late = s.late := rfl
@[simp] theorem setTile_early (s : State) (u : Nat) (x : Tile) : (s.setTile u x).early = s.early := rfl
@[simp] theorem setTile_wgs (s : State) (u : Nat) (x : Tile) : (s.setTile u x).wgs = s.wgs := rfl
@[simp] theorem setTile_clusters (s : State) (u : Nat) (x : Tile) : (s.setTile u x).clusters = s.clusters := rfl
@[simp] theorem setTile_pairs (s : State) (u : Nat) (x : Tile) : (s.setTile u x).pairs = s.pairs := rfl
@[simp] theorem setTile_dies (s : State) (u : Nat) (x : Tile) : (s.setTile u x).dies = s.dies := rfl
@[simp] theorem setTile_wadi (s : State) (u : Nat) (x : Tile) : (s.setTile u x).wadi = s.wadi := rfl
@[simp] theorem setTile_slots (s : State) (u : Nat) (x : Tile) : (s.setTile u x).slots = s.slots := rfl
@[simp] theorem setTile_dev (s : State) (u : Nat) (x : Tile) : (s.setTile u x).dev = s.dev := rfl
@[simp] theorem setTile_tiles (s : State) (u : Nat) (x : Tile) : (s.setTile u x).tiles = Table.set s.tiles u x := rfl

/-! State.setCluster -/

@[simp] theorem setCluster_mem (s : State) (u : Nat) (x : Cluster) : (s.setCluster u x).mem = s.mem := rfl
@[simp] theorem setCluster_turns (s : State) (u : Nat) (x : Cluster) : (s.setCluster u x).turns = s.turns := rfl
@[simp] theorem setCluster_here (s : State) (u : Nat) (x : Cluster) : (s.setCluster u x).here = s.here := rfl
@[simp] theorem setCluster_cur (s : State) (u : Nat) (x : Cluster) : (s.setCluster u x).cur = s.cur := rfl
@[simp] theorem setCluster_free (s : State) (u : Nat) (x : Cluster) : (s.setCluster u x).free = s.free := rfl
@[simp] theorem setCluster_nextUid (s : State) (u : Nat) (x : Cluster) : (s.setCluster u x).nextUid = s.nextUid := rfl
@[simp] theorem setCluster_nextId (s : State) (u : Nat) (x : Cluster) : (s.setCluster u x).nextId = s.nextId := rfl
@[simp] theorem setCluster_issues (s : State) (u : Nat) (x : Cluster) : (s.setCluster u x).issues = s.issues := rfl
@[simp] theorem setCluster_quantum (s : State) (u : Nat) (x : Cluster) : (s.setCluster u x).quantum = s.quantum := rfl
@[simp] theorem setCluster_late (s : State) (u : Nat) (x : Cluster) : (s.setCluster u x).late = s.late := rfl
@[simp] theorem setCluster_early (s : State) (u : Nat) (x : Cluster) : (s.setCluster u x).early = s.early := rfl
@[simp] theorem setCluster_wgs (s : State) (u : Nat) (x : Cluster) : (s.setCluster u x).wgs = s.wgs := rfl
@[simp] theorem setCluster_tiles (s : State) (u : Nat) (x : Cluster) : (s.setCluster u x).tiles = s.tiles := rfl
@[simp] theorem setCluster_pairs (s : State) (u : Nat) (x : Cluster) : (s.setCluster u x).pairs = s.pairs := rfl
@[simp] theorem setCluster_dies (s : State) (u : Nat) (x : Cluster) : (s.setCluster u x).dies = s.dies := rfl
@[simp] theorem setCluster_wadi (s : State) (u : Nat) (x : Cluster) : (s.setCluster u x).wadi = s.wadi := rfl
@[simp] theorem setCluster_slots (s : State) (u : Nat) (x : Cluster) : (s.setCluster u x).slots = s.slots := rfl
@[simp] theorem setCluster_dev (s : State) (u : Nat) (x : Cluster) : (s.setCluster u x).dev = s.dev := rfl
@[simp] theorem setCluster_clusters (s : State) (u : Nat) (x : Cluster) : (s.setCluster u x).clusters = Table.set s.clusters u x := rfl

/-! State.setPair -/

@[simp] theorem setPair_mem (s : State) (u : Nat) (x : Pair) : (s.setPair u x).mem = s.mem := rfl
@[simp] theorem setPair_turns (s : State) (u : Nat) (x : Pair) : (s.setPair u x).turns = s.turns := rfl
@[simp] theorem setPair_here (s : State) (u : Nat) (x : Pair) : (s.setPair u x).here = s.here := rfl
@[simp] theorem setPair_cur (s : State) (u : Nat) (x : Pair) : (s.setPair u x).cur = s.cur := rfl
@[simp] theorem setPair_free (s : State) (u : Nat) (x : Pair) : (s.setPair u x).free = s.free := rfl
@[simp] theorem setPair_nextUid (s : State) (u : Nat) (x : Pair) : (s.setPair u x).nextUid = s.nextUid := rfl
@[simp] theorem setPair_nextId (s : State) (u : Nat) (x : Pair) : (s.setPair u x).nextId = s.nextId := rfl
@[simp] theorem setPair_issues (s : State) (u : Nat) (x : Pair) : (s.setPair u x).issues = s.issues := rfl
@[simp] theorem setPair_quantum (s : State) (u : Nat) (x : Pair) : (s.setPair u x).quantum = s.quantum := rfl
@[simp] theorem setPair_late (s : State) (u : Nat) (x : Pair) : (s.setPair u x).late = s.late := rfl
@[simp] theorem setPair_early (s : State) (u : Nat) (x : Pair) : (s.setPair u x).early = s.early := rfl
@[simp] theorem setPair_wgs (s : State) (u : Nat) (x : Pair) : (s.setPair u x).wgs = s.wgs := rfl
@[simp] theorem setPair_tiles (s : State) (u : Nat) (x : Pair) : (s.setPair u x).tiles = s.tiles := rfl
@[simp] theorem setPair_clusters (s : State) (u : Nat) (x : Pair) : (s.setPair u x).clusters = s.clusters := rfl
@[simp] theorem setPair_dies (s : State) (u : Nat) (x : Pair) : (s.setPair u x).dies = s.dies := rfl
@[simp] theorem setPair_wadi (s : State) (u : Nat) (x : Pair) : (s.setPair u x).wadi = s.wadi := rfl
@[simp] theorem setPair_slots (s : State) (u : Nat) (x : Pair) : (s.setPair u x).slots = s.slots := rfl
@[simp] theorem setPair_dev (s : State) (u : Nat) (x : Pair) : (s.setPair u x).dev = s.dev := rfl
@[simp] theorem setPair_pairs (s : State) (u : Nat) (x : Pair) : (s.setPair u x).pairs = Table.set s.pairs u x := rfl

/-! State.setDie -/

@[simp] theorem setDie_mem (s : State) (u : Nat) (x : Die) : (s.setDie u x).mem = s.mem := rfl
@[simp] theorem setDie_turns (s : State) (u : Nat) (x : Die) : (s.setDie u x).turns = s.turns := rfl
@[simp] theorem setDie_here (s : State) (u : Nat) (x : Die) : (s.setDie u x).here = s.here := rfl
@[simp] theorem setDie_cur (s : State) (u : Nat) (x : Die) : (s.setDie u x).cur = s.cur := rfl
@[simp] theorem setDie_free (s : State) (u : Nat) (x : Die) : (s.setDie u x).free = s.free := rfl
@[simp] theorem setDie_nextUid (s : State) (u : Nat) (x : Die) : (s.setDie u x).nextUid = s.nextUid := rfl
@[simp] theorem setDie_nextId (s : State) (u : Nat) (x : Die) : (s.setDie u x).nextId = s.nextId := rfl
@[simp] theorem setDie_issues (s : State) (u : Nat) (x : Die) : (s.setDie u x).issues = s.issues := rfl
@[simp] theorem setDie_quantum (s : State) (u : Nat) (x : Die) : (s.setDie u x).quantum = s.quantum := rfl
@[simp] theorem setDie_late (s : State) (u : Nat) (x : Die) : (s.setDie u x).late = s.late := rfl
@[simp] theorem setDie_early (s : State) (u : Nat) (x : Die) : (s.setDie u x).early = s.early := rfl
@[simp] theorem setDie_wgs (s : State) (u : Nat) (x : Die) : (s.setDie u x).wgs = s.wgs := rfl
@[simp] theorem setDie_tiles (s : State) (u : Nat) (x : Die) : (s.setDie u x).tiles = s.tiles := rfl
@[simp] theorem setDie_clusters (s : State) (u : Nat) (x : Die) : (s.setDie u x).clusters = s.clusters := rfl
@[simp] theorem setDie_pairs (s : State) (u : Nat) (x : Die) : (s.setDie u x).pairs = s.pairs := rfl
@[simp] theorem setDie_wadi (s : State) (u : Nat) (x : Die) : (s.setDie u x).wadi = s.wadi := rfl
@[simp] theorem setDie_slots (s : State) (u : Nat) (x : Die) : (s.setDie u x).slots = s.slots := rfl
@[simp] theorem setDie_dev (s : State) (u : Nat) (x : Die) : (s.setDie u x).dev = s.dev := rfl
@[simp] theorem setDie_dies (s : State) (u : Nat) (x : Die) : (s.setDie u x).dies = Table.set s.dies u x := rfl

/-! State.setSlot -/

@[simp] theorem setSlot_mem (s : State) (u : Nat) (x : Slot) : (s.setSlot u x).mem = s.mem := rfl
@[simp] theorem setSlot_turns (s : State) (u : Nat) (x : Slot) : (s.setSlot u x).turns = s.turns := rfl
@[simp] theorem setSlot_here (s : State) (u : Nat) (x : Slot) : (s.setSlot u x).here = s.here := rfl
@[simp] theorem setSlot_cur (s : State) (u : Nat) (x : Slot) : (s.setSlot u x).cur = s.cur := rfl
@[simp] theorem setSlot_free (s : State) (u : Nat) (x : Slot) : (s.setSlot u x).free = s.free := rfl
@[simp] theorem setSlot_nextUid (s : State) (u : Nat) (x : Slot) : (s.setSlot u x).nextUid = s.nextUid := rfl
@[simp] theorem setSlot_nextId (s : State) (u : Nat) (x : Slot) : (s.setSlot u x).nextId = s.nextId := rfl
@[simp] theorem setSlot_issues (s : State) (u : Nat) (x : Slot) : (s.setSlot u x).issues = s.issues := rfl
@[simp] theorem setSlot_quantum (s : State) (u : Nat) (x : Slot) : (s.setSlot u x).quantum = s.quantum := rfl
@[simp] theorem setSlot_late (s : State) (u : Nat) (x : Slot) : (s.setSlot u x).late = s.late := rfl
@[simp] theorem setSlot_early (s : State) (u : Nat) (x : Slot) : (s.setSlot u x).early = s.early := rfl
@[simp] theorem setSlot_wgs (s : State) (u : Nat) (x : Slot) : (s.setSlot u x).wgs = s.wgs := rfl
@[simp] theorem setSlot_tiles (s : State) (u : Nat) (x : Slot) : (s.setSlot u x).tiles = s.tiles := rfl
@[simp] theorem setSlot_clusters (s : State) (u : Nat) (x : Slot) : (s.setSlot u x).clusters = s.clusters := rfl
@[simp] theorem setSlot_pairs (s : State) (u : Nat) (x : Slot) : (s.setSlot u x).pairs = s.pairs := rfl
@[simp] theorem setSlot_dies (s : State) (u : Nat) (x : Slot) : (s.setSlot u x).dies = s.dies := rfl
@[simp] theorem setSlot_wadi (s : State) (u : Nat) (x : Slot) : (s.setSlot u x).wadi = s.wadi := rfl
@[simp] theorem setSlot_dev (s : State) (u : Nat) (x : Slot) : (s.setSlot u x).dev = s.dev := rfl
@[simp] theorem setSlot_slots (s : State) (u : Nat) (x : Slot) : (s.setSlot u x).slots = Table.set s.slots u x := rfl

/-! Warp.sset -/

@[simp] theorem sset_sp (w : Warp) (d : Nat) (x : Reg) : (w.sset d x).sp = w.sp := rfl
@[simp] theorem sset_c (w : Warp) (d : Nat) (x : Reg) : (w.sset d x).c = w.c := rfl
@[simp] theorem sset_outs (w : Warp) (d : Nat) (x : Reg) : (w.sset d x).outs = w.outs := rfl
@[simp] theorem sset_nextOp (w : Warp) (d : Nat) (x : Reg) : (w.sset d x).nextOp = w.nextOp := rfl
@[simp] theorem sset_mat (w : Warp) (d : Nat) (x : Reg) : (w.sset d x).mat = w.mat := rfl
@[simp] theorem sset_batches (w : Warp) (d : Nat) (x : Reg) : (w.sset d x).batches = w.batches := rfl
@[simp] theorem sset_openB (w : Warp) (d : Nat) (x : Reg) : (w.sset d x).openB = w.openB := rfl
@[simp] theorem sset_joined (w : Warp) (d : Nat) (x : Reg) : (w.sset d x).joined = w.joined := rfl
@[simp] theorem sset_bars (w : Warp) (d : Nat) (x : Reg) : (w.sset d x).bars = w.bars := rfl
@[simp] theorem sset_gbars (w : Warp) (d : Nat) (x : Reg) : (w.sset d x).gbars = w.gbars := rfl
@[simp] theorem sset_nones (w : Warp) (d : Nat) (x : Reg) : (w.sset d x).nones = w.nones := rfl
@[simp] theorem sset_region (w : Warp) (d : Nat) (x : Reg) : (w.sset d x).region = w.region := rfl
@[simp] theorem sset_remote (w : Warp) (d : Nat) (x : Reg) : (w.sset d x).remote = w.remote := rfl
@[simp] theorem sset_farFails (w : Warp) (d : Nat) (x : Reg) : (w.sset d x).farFails = w.farFails := rfl
@[simp] theorem sset_posted (w : Warp) (d : Nat) (x : Reg) : (w.sset d x).posted = w.posted := rfl
@[simp] theorem sset_lastIssue (w : Warp) (d : Nat) (x : Reg) : (w.sset d x).lastIssue = w.lastIssue := rfl
@[simp] theorem sset_r_v (w : Warp) (d : Nat) (x : Reg) : (w.sset d x).r.v = w.r.v := rfl
@[simp] theorem sset_r_absent (w : Warp) (d : Nat) (x : Reg) : (w.sset d x).r.absent = w.r.absent := rfl
@[simp] theorem sset_r_tagSet (w : Warp) (d : Nat) (x : Reg) : (w.sset d x).r.tagSet = w.r.tagSet := rfl
@[simp] theorem sset_r_sAbsent (w : Warp) (d : Nat) (x : Reg) : (w.sset d x).r.sAbsent = w.r.sAbsent := rfl
@[simp] theorem sset_r_p (w : Warp) (d : Nat) (x : Reg) : (w.sset d x).r.p = w.r.p := rfl
@[simp] theorem sset_r_x (w : Warp) (d : Nat) (x : Reg) : (w.sset d x).r.x = w.r.x := rfl
@[simp] theorem sset_r_winBase (w : Warp) (d : Nat) (x : Reg) : (w.sset d x).r.winBase = w.r.winBase := rfl
@[simp] theorem sset_r_winLen (w : Warp) (d : Nat) (x : Reg) : (w.sset d x).r.winLen = w.r.winLen := rfl
@[simp] theorem sset_r_alloc (w : Warp) (d : Nat) (x : Reg) : (w.sset d x).r.alloc = w.r.alloc := rfl
@[simp] theorem sset_r_flags (w : Warp) (d : Nat) (x : Reg) : (w.sset d x).r.flags = w.r.flags := rfl
@[simp] theorem sset_r_st (w : Warp) (d : Nat) (x : Reg) : (w.sset d x).r.st = w.r.st := rfl
@[simp] theorem sset_r_q (w : Warp) (d : Nat) (x : Reg) : (w.sset d x).r.q = w.r.q := rfl
@[simp] theorem sset_r_s_new (w : Warp) (d : Nat) (x : Reg) : (w.sset d x).r.s = Table.set w.r.s d x := rfl

/-! Warp.vset -/

@[simp] theorem vset_sp (w : Warp) (n : Nat) (x : VReg) : (w.vset n x).sp = w.sp := rfl
@[simp] theorem vset_c (w : Warp) (n : Nat) (x : VReg) : (w.vset n x).c = w.c := rfl
@[simp] theorem vset_outs (w : Warp) (n : Nat) (x : VReg) : (w.vset n x).outs = w.outs := rfl
@[simp] theorem vset_nextOp (w : Warp) (n : Nat) (x : VReg) : (w.vset n x).nextOp = w.nextOp := rfl
@[simp] theorem vset_mat (w : Warp) (n : Nat) (x : VReg) : (w.vset n x).mat = w.mat := rfl
@[simp] theorem vset_batches (w : Warp) (n : Nat) (x : VReg) : (w.vset n x).batches = w.batches := rfl
@[simp] theorem vset_openB (w : Warp) (n : Nat) (x : VReg) : (w.vset n x).openB = w.openB := rfl
@[simp] theorem vset_joined (w : Warp) (n : Nat) (x : VReg) : (w.vset n x).joined = w.joined := rfl
@[simp] theorem vset_bars (w : Warp) (n : Nat) (x : VReg) : (w.vset n x).bars = w.bars := rfl
@[simp] theorem vset_gbars (w : Warp) (n : Nat) (x : VReg) : (w.vset n x).gbars = w.gbars := rfl
@[simp] theorem vset_nones (w : Warp) (n : Nat) (x : VReg) : (w.vset n x).nones = w.nones := rfl
@[simp] theorem vset_region (w : Warp) (n : Nat) (x : VReg) : (w.vset n x).region = w.region := rfl
@[simp] theorem vset_remote (w : Warp) (n : Nat) (x : VReg) : (w.vset n x).remote = w.remote := rfl
@[simp] theorem vset_farFails (w : Warp) (n : Nat) (x : VReg) : (w.vset n x).farFails = w.farFails := rfl
@[simp] theorem vset_posted (w : Warp) (n : Nat) (x : VReg) : (w.vset n x).posted = w.posted := rfl
@[simp] theorem vset_lastIssue (w : Warp) (n : Nat) (x : VReg) : (w.vset n x).lastIssue = w.lastIssue := rfl
@[simp] theorem vset_r_absent (w : Warp) (n : Nat) (x : VReg) : (w.vset n x).r.absent = w.r.absent := rfl
@[simp] theorem vset_r_tagSet (w : Warp) (n : Nat) (x : VReg) : (w.vset n x).r.tagSet = w.r.tagSet := rfl
@[simp] theorem vset_r_sAbsent (w : Warp) (n : Nat) (x : VReg) : (w.vset n x).r.sAbsent = w.r.sAbsent := rfl
@[simp] theorem vset_r_s (w : Warp) (n : Nat) (x : VReg) : (w.vset n x).r.s = w.r.s := rfl
@[simp] theorem vset_r_p (w : Warp) (n : Nat) (x : VReg) : (w.vset n x).r.p = w.r.p := rfl
@[simp] theorem vset_r_x (w : Warp) (n : Nat) (x : VReg) : (w.vset n x).r.x = w.r.x := rfl
@[simp] theorem vset_r_winBase (w : Warp) (n : Nat) (x : VReg) : (w.vset n x).r.winBase = w.r.winBase := rfl
@[simp] theorem vset_r_winLen (w : Warp) (n : Nat) (x : VReg) : (w.vset n x).r.winLen = w.r.winLen := rfl
@[simp] theorem vset_r_alloc (w : Warp) (n : Nat) (x : VReg) : (w.vset n x).r.alloc = w.r.alloc := rfl
@[simp] theorem vset_r_flags (w : Warp) (n : Nat) (x : VReg) : (w.vset n x).r.flags = w.r.flags := rfl
@[simp] theorem vset_r_st (w : Warp) (n : Nat) (x : VReg) : (w.vset n x).r.st = w.r.st := rfl
@[simp] theorem vset_r_q (w : Warp) (n : Nat) (x : VReg) : (w.vset n x).r.q = w.r.q := rfl
@[simp] theorem vset_r_v_new (w : Warp) (n : Nat) (x : VReg) : (w.vset n x).r.v = Table.set w.r.v n x := rfl

/-! Warp.pset -/

@[simp] theorem pset_sp (w : Warp) (k : Nat) (m : Mask) : (w.pset k m).sp = w.sp := rfl
@[simp] theorem pset_c (w : Warp) (k : Nat) (m : Mask) : (w.pset k m).c = w.c := rfl
@[simp] theorem pset_outs (w : Warp) (k : Nat) (m : Mask) : (w.pset k m).outs = w.outs := rfl
@[simp] theorem pset_nextOp (w : Warp) (k : Nat) (m : Mask) : (w.pset k m).nextOp = w.nextOp := rfl
@[simp] theorem pset_mat (w : Warp) (k : Nat) (m : Mask) : (w.pset k m).mat = w.mat := rfl
@[simp] theorem pset_batches (w : Warp) (k : Nat) (m : Mask) : (w.pset k m).batches = w.batches := rfl
@[simp] theorem pset_openB (w : Warp) (k : Nat) (m : Mask) : (w.pset k m).openB = w.openB := rfl
@[simp] theorem pset_joined (w : Warp) (k : Nat) (m : Mask) : (w.pset k m).joined = w.joined := rfl
@[simp] theorem pset_bars (w : Warp) (k : Nat) (m : Mask) : (w.pset k m).bars = w.bars := rfl
@[simp] theorem pset_gbars (w : Warp) (k : Nat) (m : Mask) : (w.pset k m).gbars = w.gbars := rfl
@[simp] theorem pset_nones (w : Warp) (k : Nat) (m : Mask) : (w.pset k m).nones = w.nones := rfl
@[simp] theorem pset_region (w : Warp) (k : Nat) (m : Mask) : (w.pset k m).region = w.region := rfl
@[simp] theorem pset_remote (w : Warp) (k : Nat) (m : Mask) : (w.pset k m).remote = w.remote := rfl
@[simp] theorem pset_farFails (w : Warp) (k : Nat) (m : Mask) : (w.pset k m).farFails = w.farFails := rfl
@[simp] theorem pset_posted (w : Warp) (k : Nat) (m : Mask) : (w.pset k m).posted = w.posted := rfl
@[simp] theorem pset_lastIssue (w : Warp) (k : Nat) (m : Mask) : (w.pset k m).lastIssue = w.lastIssue := rfl
@[simp] theorem pset_r_v (w : Warp) (k : Nat) (m : Mask) : (w.pset k m).r.v = w.r.v := rfl
@[simp] theorem pset_r_absent (w : Warp) (k : Nat) (m : Mask) : (w.pset k m).r.absent = w.r.absent := rfl
@[simp] theorem pset_r_tagSet (w : Warp) (k : Nat) (m : Mask) : (w.pset k m).r.tagSet = w.r.tagSet := rfl
@[simp] theorem pset_r_sAbsent (w : Warp) (k : Nat) (m : Mask) : (w.pset k m).r.sAbsent = w.r.sAbsent := rfl
@[simp] theorem pset_r_s (w : Warp) (k : Nat) (m : Mask) : (w.pset k m).r.s = w.r.s := rfl
@[simp] theorem pset_r_x (w : Warp) (k : Nat) (m : Mask) : (w.pset k m).r.x = w.r.x := rfl
@[simp] theorem pset_r_winBase (w : Warp) (k : Nat) (m : Mask) : (w.pset k m).r.winBase = w.r.winBase := rfl
@[simp] theorem pset_r_winLen (w : Warp) (k : Nat) (m : Mask) : (w.pset k m).r.winLen = w.r.winLen := rfl
@[simp] theorem pset_r_alloc (w : Warp) (k : Nat) (m : Mask) : (w.pset k m).r.alloc = w.r.alloc := rfl
@[simp] theorem pset_r_flags (w : Warp) (k : Nat) (m : Mask) : (w.pset k m).r.flags = w.r.flags := rfl
@[simp] theorem pset_r_st (w : Warp) (k : Nat) (m : Mask) : (w.pset k m).r.st = w.r.st := rfl
@[simp] theorem pset_r_q (w : Warp) (k : Nat) (m : Mask) : (w.pset k m).r.q = w.r.q := rfl
@[simp] theorem pset_r_p_new (w : Warp) (k : Nat) (m : Mask) : (w.pset k m).r.p = Table.set w.r.p k m := rfl

/-! Warp.setStream -/

@[simp] theorem setStream_sp (w : Warp) (n : Nat) (x : Stream) : (w.setStream n x).sp = w.sp := rfl
@[simp] theorem setStream_c (w : Warp) (n : Nat) (x : Stream) : (w.setStream n x).c = w.c := rfl
@[simp] theorem setStream_outs (w : Warp) (n : Nat) (x : Stream) : (w.setStream n x).outs = w.outs := rfl
@[simp] theorem setStream_nextOp (w : Warp) (n : Nat) (x : Stream) : (w.setStream n x).nextOp = w.nextOp := rfl
@[simp] theorem setStream_mat (w : Warp) (n : Nat) (x : Stream) : (w.setStream n x).mat = w.mat := rfl
@[simp] theorem setStream_batches (w : Warp) (n : Nat) (x : Stream) : (w.setStream n x).batches = w.batches := rfl
@[simp] theorem setStream_openB (w : Warp) (n : Nat) (x : Stream) : (w.setStream n x).openB = w.openB := rfl
@[simp] theorem setStream_joined (w : Warp) (n : Nat) (x : Stream) : (w.setStream n x).joined = w.joined := rfl
@[simp] theorem setStream_bars (w : Warp) (n : Nat) (x : Stream) : (w.setStream n x).bars = w.bars := rfl
@[simp] theorem setStream_gbars (w : Warp) (n : Nat) (x : Stream) : (w.setStream n x).gbars = w.gbars := rfl
@[simp] theorem setStream_nones (w : Warp) (n : Nat) (x : Stream) : (w.setStream n x).nones = w.nones := rfl
@[simp] theorem setStream_region (w : Warp) (n : Nat) (x : Stream) : (w.setStream n x).region = w.region := rfl
@[simp] theorem setStream_remote (w : Warp) (n : Nat) (x : Stream) : (w.setStream n x).remote = w.remote := rfl
@[simp] theorem setStream_farFails (w : Warp) (n : Nat) (x : Stream) : (w.setStream n x).farFails = w.farFails := rfl
@[simp] theorem setStream_posted (w : Warp) (n : Nat) (x : Stream) : (w.setStream n x).posted = w.posted := rfl
@[simp] theorem setStream_lastIssue (w : Warp) (n : Nat) (x : Stream) : (w.setStream n x).lastIssue = w.lastIssue := rfl
@[simp] theorem setStream_r_v (w : Warp) (n : Nat) (x : Stream) : (w.setStream n x).r.v = w.r.v := rfl
@[simp] theorem setStream_r_absent (w : Warp) (n : Nat) (x : Stream) : (w.setStream n x).r.absent = w.r.absent := rfl
@[simp] theorem setStream_r_tagSet (w : Warp) (n : Nat) (x : Stream) : (w.setStream n x).r.tagSet = w.r.tagSet := rfl
@[simp] theorem setStream_r_sAbsent (w : Warp) (n : Nat) (x : Stream) : (w.setStream n x).r.sAbsent = w.r.sAbsent := rfl
@[simp] theorem setStream_r_s (w : Warp) (n : Nat) (x : Stream) : (w.setStream n x).r.s = w.r.s := rfl
@[simp] theorem setStream_r_p (w : Warp) (n : Nat) (x : Stream) : (w.setStream n x).r.p = w.r.p := rfl
@[simp] theorem setStream_r_x (w : Warp) (n : Nat) (x : Stream) : (w.setStream n x).r.x = w.r.x := rfl
@[simp] theorem setStream_r_winBase (w : Warp) (n : Nat) (x : Stream) : (w.setStream n x).r.winBase = w.r.winBase := rfl
@[simp] theorem setStream_r_winLen (w : Warp) (n : Nat) (x : Stream) : (w.setStream n x).r.winLen = w.r.winLen := rfl
@[simp] theorem setStream_r_alloc (w : Warp) (n : Nat) (x : Stream) : (w.setStream n x).r.alloc = w.r.alloc := rfl
@[simp] theorem setStream_r_flags (w : Warp) (n : Nat) (x : Stream) : (w.setStream n x).r.flags = w.r.flags := rfl
@[simp] theorem setStream_r_q (w : Warp) (n : Nat) (x : Stream) : (w.setStream n x).r.q = w.r.q := rfl
@[simp] theorem setStream_r_st_new (w : Warp) (n : Nat) (x : Stream) : (w.setStream n x).r.st = Table.set w.r.st n x := rfl

/-! Warp.goto -/

@[simp] theorem goto_r (w : Warp) (p : Pos) : (w.goto p).r = w.r := rfl
@[simp] theorem goto_sp (w : Warp) (p : Pos) : (w.goto p).sp = w.sp := rfl
@[simp] theorem goto_outs (w : Warp) (p : Pos) : (w.goto p).outs = w.outs := rfl
@[simp] theorem goto_nextOp (w : Warp) (p : Pos) : (w.goto p).nextOp = w.nextOp := rfl
@[simp] theorem goto_mat (w : Warp) (p : Pos) : (w.goto p).mat = w.mat := rfl
@[simp] theorem goto_batches (w : Warp) (p : Pos) : (w.goto p).batches = w.batches := rfl
@[simp] theorem goto_openB (w : Warp) (p : Pos) : (w.goto p).openB = w.openB := rfl
@[simp] theorem goto_joined (w : Warp) (p : Pos) : (w.goto p).joined = w.joined := rfl
@[simp] theorem goto_bars (w : Warp) (p : Pos) : (w.goto p).bars = w.bars := rfl
@[simp] theorem goto_gbars (w : Warp) (p : Pos) : (w.goto p).gbars = w.gbars := rfl
@[simp] theorem goto_nones (w : Warp) (p : Pos) : (w.goto p).nones = w.nones := rfl
@[simp] theorem goto_region (w : Warp) (p : Pos) : (w.goto p).region = w.region := rfl
@[simp] theorem goto_remote (w : Warp) (p : Pos) : (w.goto p).remote = w.remote := rfl
@[simp] theorem goto_farFails (w : Warp) (p : Pos) : (w.goto p).farFails = w.farFails := rfl
@[simp] theorem goto_posted (w : Warp) (p : Pos) : (w.goto p).posted = w.posted := rfl
@[simp] theorem goto_lastIssue (w : Warp) (p : Pos) : (w.goto p).lastIssue = w.lastIssue := rfl
@[simp] theorem goto_c_base (w : Warp) (p : Pos) : (w.goto p).c.base = w.c.base := rfl
@[simp] theorem goto_c_exited (w : Warp) (p : Pos) : (w.goto p).c.exited = w.c.exited := rfl
@[simp] theorem goto_c_fmask (w : Warp) (p : Pos) : (w.goto p).c.fmask = w.c.fmask := rfl
@[simp] theorem goto_c_stack (w : Warp) (p : Pos) : (w.goto p).c.stack = w.c.stack := rfl
@[simp] theorem goto_c_lc (w : Warp) (p : Pos) : (w.goto p).c.lc = w.c.lc := rfl
@[simp] theorem goto_c_depth (w : Warp) (p : Pos) : (w.goto p).c.depth = w.c.depth := rfl
@[simp] theorem goto_c_frames (w : Warp) (p : Pos) : (w.goto p).c.frames = w.c.frames := rfl
@[simp] theorem goto_c_lbuf (w : Warp) (p : Pos) : (w.goto p).c.lbuf = w.c.lbuf := rfl
@[simp] theorem goto_c_handler (w : Warp) (p : Pos) : (w.goto p).c.handler = w.c.handler := rfl
@[simp] theorem goto_c_recs (w : Warp) (p : Pos) : (w.goto p).c.recs = w.c.recs := rfl
@[simp] theorem goto_c_trapNo (w : Warp) (p : Pos) : (w.goto p).c.trapNo = w.c.trapNo := rfl
@[simp] theorem goto_c_cancelReq (w : Warp) (p : Pos) : (w.goto p).c.cancelReq = w.c.cancelReq := rfl
@[simp] theorem goto_c_preReq (w : Warp) (p : Pos) : (w.goto p).c.preReq = w.c.preReq := rfl
@[simp] theorem goto_c_sigdone (w : Warp) (p : Pos) : (w.goto p).c.sigdone = w.c.sigdone := rfl
@[simp] theorem goto_c_ended (w : Warp) (p : Pos) : (w.goto p).c.ended = w.c.ended := rfl
@[simp] theorem goto_c_wait (w : Warp) (p : Pos) : (w.goto p).c.wait = w.c.wait := rfl
@[simp] theorem goto_c_pos_new (w : Warp) (p : Pos) : (w.goto p).c.pos = p := rfl

/-! Warp.raise -/

@[simp] theorem raise_r (w : Warp) (f : BitVec 8) : (w.raise f).r = w.r := rfl
@[simp] theorem raise_c (w : Warp) (f : BitVec 8) : (w.raise f).c = w.c := rfl
@[simp] theorem raise_outs (w : Warp) (f : BitVec 8) : (w.raise f).outs = w.outs := rfl
@[simp] theorem raise_nextOp (w : Warp) (f : BitVec 8) : (w.raise f).nextOp = w.nextOp := rfl
@[simp] theorem raise_mat (w : Warp) (f : BitVec 8) : (w.raise f).mat = w.mat := rfl
@[simp] theorem raise_batches (w : Warp) (f : BitVec 8) : (w.raise f).batches = w.batches := rfl
@[simp] theorem raise_openB (w : Warp) (f : BitVec 8) : (w.raise f).openB = w.openB := rfl
@[simp] theorem raise_joined (w : Warp) (f : BitVec 8) : (w.raise f).joined = w.joined := rfl
@[simp] theorem raise_bars (w : Warp) (f : BitVec 8) : (w.raise f).bars = w.bars := rfl
@[simp] theorem raise_gbars (w : Warp) (f : BitVec 8) : (w.raise f).gbars = w.gbars := rfl
@[simp] theorem raise_nones (w : Warp) (f : BitVec 8) : (w.raise f).nones = w.nones := rfl
@[simp] theorem raise_region (w : Warp) (f : BitVec 8) : (w.raise f).region = w.region := rfl
@[simp] theorem raise_remote (w : Warp) (f : BitVec 8) : (w.raise f).remote = w.remote := rfl
@[simp] theorem raise_farFails (w : Warp) (f : BitVec 8) : (w.raise f).farFails = w.farFails := rfl
@[simp] theorem raise_posted (w : Warp) (f : BitVec 8) : (w.raise f).posted = w.posted := rfl
@[simp] theorem raise_lastIssue (w : Warp) (f : BitVec 8) : (w.raise f).lastIssue = w.lastIssue := rfl
@[simp] theorem raise_sp_mrow (w : Warp) (f : BitVec 8) : (w.raise f).sp.mrow = w.sp.mrow := rfl
@[simp] theorem raise_sp_cvm (w : Warp) (f : BitVec 8) : (w.raise f).sp.cvm = w.sp.cvm := rfl
@[simp] theorem raise_sp_cvslip (w : Warp) (f : BitVec 8) : (w.raise f).sp.cvslip = w.sp.cvslip := rfl
@[simp] theorem raise_sp_cvpat (w : Warp) (f : BitVec 8) : (w.raise f).sp.cvpat = w.sp.cvpat := rfl
@[simp] theorem raise_sp_merged (w : Warp) (f : BitVec 8) : (w.raise f).sp.merged = w.sp.merged := rfl
@[simp] theorem raise_sp_unmerged (w : Warp) (f : BitVec 8) : (w.raise f).sp.unmerged = w.sp.unmerged := rfl
@[simp] theorem raise_sp_detach (w : Warp) (f : BitVec 8) : (w.raise f).sp.detach = w.sp.detach := rfl
@[simp] theorem raise_sp_counted (w : Warp) (f : BitVec 8) : (w.raise f).sp.counted = w.sp.counted := rfl
@[simp] theorem raise_sp_srseed (w : Warp) (f : BitVec 8) : (w.raise f).sp.srseed = w.sp.srseed := rfl
@[simp] theorem raise_sp_prio (w : Warp) (f : BitVec 8) : (w.raise f).sp.prio = w.sp.prio := rfl
@[simp] theorem raise_sp_hvFault (w : Warp) (f : BitVec 8) : (w.raise f).sp.hvFault = w.sp.hvFault := rfl
@[simp] theorem raise_sp_hvCancel (w : Warp) (f : BitVec 8) : (w.raise f).sp.hvCancel = w.sp.hvCancel := rfl
@[simp] theorem raise_sp_hvPreempt (w : Warp) (f : BitVec 8) : (w.raise f).sp.hvPreempt = w.sp.hvPreempt := rfl
@[simp] theorem raise_sp_hvTrap (w : Warp) (f : BitVec 8) : (w.raise f).sp.hvTrap = w.sp.hvTrap := rfl
@[simp] theorem raise_sp_fstat_new (w : Warp) (f : BitVec 8) : (w.raise f).sp.fstat = w.sp.fstat ||| f := rfl

/-! Warp.switchOff -/

@[simp] theorem switchOff_r (w : Warp) (m : Mask) : (w.switchOff m).r = w.r := rfl
@[simp] theorem switchOff_sp (w : Warp) (m : Mask) : (w.switchOff m).sp = w.sp := rfl
@[simp] theorem switchOff_outs (w : Warp) (m : Mask) : (w.switchOff m).outs = w.outs := rfl
@[simp] theorem switchOff_nextOp (w : Warp) (m : Mask) : (w.switchOff m).nextOp = w.nextOp := rfl
@[simp] theorem switchOff_mat (w : Warp) (m : Mask) : (w.switchOff m).mat = w.mat := rfl
@[simp] theorem switchOff_batches (w : Warp) (m : Mask) : (w.switchOff m).batches = w.batches := rfl
@[simp] theorem switchOff_openB (w : Warp) (m : Mask) : (w.switchOff m).openB = w.openB := rfl
@[simp] theorem switchOff_joined (w : Warp) (m : Mask) : (w.switchOff m).joined = w.joined := rfl
@[simp] theorem switchOff_bars (w : Warp) (m : Mask) : (w.switchOff m).bars = w.bars := rfl
@[simp] theorem switchOff_gbars (w : Warp) (m : Mask) : (w.switchOff m).gbars = w.gbars := rfl
@[simp] theorem switchOff_nones (w : Warp) (m : Mask) : (w.switchOff m).nones = w.nones := rfl
@[simp] theorem switchOff_region (w : Warp) (m : Mask) : (w.switchOff m).region = w.region := rfl
@[simp] theorem switchOff_remote (w : Warp) (m : Mask) : (w.switchOff m).remote = w.remote := rfl
@[simp] theorem switchOff_farFails (w : Warp) (m : Mask) : (w.switchOff m).farFails = w.farFails := rfl
@[simp] theorem switchOff_posted (w : Warp) (m : Mask) : (w.switchOff m).posted = w.posted := rfl
@[simp] theorem switchOff_lastIssue (w : Warp) (m : Mask) : (w.switchOff m).lastIssue = w.lastIssue := rfl
@[simp] theorem switchOff_c_base (w : Warp) (m : Mask) : (w.switchOff m).c.base = w.c.base := rfl
@[simp] theorem switchOff_c_exited (w : Warp) (m : Mask) : (w.switchOff m).c.exited = w.c.exited := rfl
@[simp] theorem switchOff_c_stack (w : Warp) (m : Mask) : (w.switchOff m).c.stack = w.c.stack := rfl
@[simp] theorem switchOff_c_lc (w : Warp) (m : Mask) : (w.switchOff m).c.lc = w.c.lc := rfl
@[simp] theorem switchOff_c_depth (w : Warp) (m : Mask) : (w.switchOff m).c.depth = w.c.depth := rfl
@[simp] theorem switchOff_c_frames (w : Warp) (m : Mask) : (w.switchOff m).c.frames = w.c.frames := rfl
@[simp] theorem switchOff_c_lbuf (w : Warp) (m : Mask) : (w.switchOff m).c.lbuf = w.c.lbuf := rfl
@[simp] theorem switchOff_c_pos (w : Warp) (m : Mask) : (w.switchOff m).c.pos = w.c.pos := rfl
@[simp] theorem switchOff_c_handler (w : Warp) (m : Mask) : (w.switchOff m).c.handler = w.c.handler := rfl
@[simp] theorem switchOff_c_recs (w : Warp) (m : Mask) : (w.switchOff m).c.recs = w.c.recs := rfl
@[simp] theorem switchOff_c_trapNo (w : Warp) (m : Mask) : (w.switchOff m).c.trapNo = w.c.trapNo := rfl
@[simp] theorem switchOff_c_cancelReq (w : Warp) (m : Mask) : (w.switchOff m).c.cancelReq = w.c.cancelReq := rfl
@[simp] theorem switchOff_c_preReq (w : Warp) (m : Mask) : (w.switchOff m).c.preReq = w.c.preReq := rfl
@[simp] theorem switchOff_c_sigdone (w : Warp) (m : Mask) : (w.switchOff m).c.sigdone = w.c.sigdone := rfl
@[simp] theorem switchOff_c_ended (w : Warp) (m : Mask) : (w.switchOff m).c.ended = w.c.ended := rfl
@[simp] theorem switchOff_c_wait (w : Warp) (m : Mask) : (w.switchOff m).c.wait = w.c.wait := rfl
@[simp] theorem switchOff_c_fmask_new (w : Warp) (m : Mask) : (w.switchOff m).c.fmask = w.c.fmask ||| m := rfl

/-! Warp.setFstat -/

@[simp] theorem setFstat_r (w : Warp) (v : Reg) : (w.setFstat v).r = w.r := rfl
@[simp] theorem setFstat_c (w : Warp) (v : Reg) : (w.setFstat v).c = w.c := rfl
@[simp] theorem setFstat_outs (w : Warp) (v : Reg) : (w.setFstat v).outs = w.outs := rfl
@[simp] theorem setFstat_nextOp (w : Warp) (v : Reg) : (w.setFstat v).nextOp = w.nextOp := rfl
@[simp] theorem setFstat_mat (w : Warp) (v : Reg) : (w.setFstat v).mat = w.mat := rfl
@[simp] theorem setFstat_batches (w : Warp) (v : Reg) : (w.setFstat v).batches = w.batches := rfl
@[simp] theorem setFstat_openB (w : Warp) (v : Reg) : (w.setFstat v).openB = w.openB := rfl
@[simp] theorem setFstat_joined (w : Warp) (v : Reg) : (w.setFstat v).joined = w.joined := rfl
@[simp] theorem setFstat_bars (w : Warp) (v : Reg) : (w.setFstat v).bars = w.bars := rfl
@[simp] theorem setFstat_gbars (w : Warp) (v : Reg) : (w.setFstat v).gbars = w.gbars := rfl
@[simp] theorem setFstat_nones (w : Warp) (v : Reg) : (w.setFstat v).nones = w.nones := rfl
@[simp] theorem setFstat_region (w : Warp) (v : Reg) : (w.setFstat v).region = w.region := rfl
@[simp] theorem setFstat_remote (w : Warp) (v : Reg) : (w.setFstat v).remote = w.remote := rfl
@[simp] theorem setFstat_farFails (w : Warp) (v : Reg) : (w.setFstat v).farFails = w.farFails := rfl
@[simp] theorem setFstat_posted (w : Warp) (v : Reg) : (w.setFstat v).posted = w.posted := rfl
@[simp] theorem setFstat_lastIssue (w : Warp) (v : Reg) : (w.setFstat v).lastIssue = w.lastIssue := rfl
@[simp] theorem setFstat_sp_mrow (w : Warp) (v : Reg) : (w.setFstat v).sp.mrow = w.sp.mrow := rfl
@[simp] theorem setFstat_sp_cvm (w : Warp) (v : Reg) : (w.setFstat v).sp.cvm = w.sp.cvm := rfl
@[simp] theorem setFstat_sp_cvslip (w : Warp) (v : Reg) : (w.setFstat v).sp.cvslip = w.sp.cvslip := rfl
@[simp] theorem setFstat_sp_cvpat (w : Warp) (v : Reg) : (w.setFstat v).sp.cvpat = w.sp.cvpat := rfl
@[simp] theorem setFstat_sp_merged (w : Warp) (v : Reg) : (w.setFstat v).sp.merged = w.sp.merged := rfl
@[simp] theorem setFstat_sp_unmerged (w : Warp) (v : Reg) : (w.setFstat v).sp.unmerged = w.sp.unmerged := rfl
@[simp] theorem setFstat_sp_detach (w : Warp) (v : Reg) : (w.setFstat v).sp.detach = w.sp.detach := rfl
@[simp] theorem setFstat_sp_counted (w : Warp) (v : Reg) : (w.setFstat v).sp.counted = w.sp.counted := rfl
@[simp] theorem setFstat_sp_srseed (w : Warp) (v : Reg) : (w.setFstat v).sp.srseed = w.sp.srseed := rfl
@[simp] theorem setFstat_sp_prio (w : Warp) (v : Reg) : (w.setFstat v).sp.prio = w.sp.prio := rfl
@[simp] theorem setFstat_sp_hvFault (w : Warp) (v : Reg) : (w.setFstat v).sp.hvFault = w.sp.hvFault := rfl
@[simp] theorem setFstat_sp_hvCancel (w : Warp) (v : Reg) : (w.setFstat v).sp.hvCancel = w.sp.hvCancel := rfl
@[simp] theorem setFstat_sp_hvPreempt (w : Warp) (v : Reg) : (w.setFstat v).sp.hvPreempt = w.sp.hvPreempt := rfl
@[simp] theorem setFstat_sp_hvTrap (w : Warp) (v : Reg) : (w.setFstat v).sp.hvTrap = w.sp.hvTrap := rfl
@[simp] theorem setFstat_sp_fstat_new (w : Warp) (v : Reg) : (w.setFstat v).sp.fstat = v.setWidth 8 &&& fstatMask := rfl

/-! Warp.setMrow -/

@[simp] theorem setMrow_r (w : Warp) (m : Reg) : (w.setMrow m).r = w.r := rfl
@[simp] theorem setMrow_c (w : Warp) (m : Reg) : (w.setMrow m).c = w.c := rfl
@[simp] theorem setMrow_outs (w : Warp) (m : Reg) : (w.setMrow m).outs = w.outs := rfl
@[simp] theorem setMrow_nextOp (w : Warp) (m : Reg) : (w.setMrow m).nextOp = w.nextOp := rfl
@[simp] theorem setMrow_mat (w : Warp) (m : Reg) : (w.setMrow m).mat = w.mat := rfl
@[simp] theorem setMrow_batches (w : Warp) (m : Reg) : (w.setMrow m).batches = w.batches := rfl
@[simp] theorem setMrow_openB (w : Warp) (m : Reg) : (w.setMrow m).openB = w.openB := rfl
@[simp] theorem setMrow_joined (w : Warp) (m : Reg) : (w.setMrow m).joined = w.joined := rfl
@[simp] theorem setMrow_bars (w : Warp) (m : Reg) : (w.setMrow m).bars = w.bars := rfl
@[simp] theorem setMrow_gbars (w : Warp) (m : Reg) : (w.setMrow m).gbars = w.gbars := rfl
@[simp] theorem setMrow_nones (w : Warp) (m : Reg) : (w.setMrow m).nones = w.nones := rfl
@[simp] theorem setMrow_region (w : Warp) (m : Reg) : (w.setMrow m).region = w.region := rfl
@[simp] theorem setMrow_remote (w : Warp) (m : Reg) : (w.setMrow m).remote = w.remote := rfl
@[simp] theorem setMrow_farFails (w : Warp) (m : Reg) : (w.setMrow m).farFails = w.farFails := rfl
@[simp] theorem setMrow_posted (w : Warp) (m : Reg) : (w.setMrow m).posted = w.posted := rfl
@[simp] theorem setMrow_lastIssue (w : Warp) (m : Reg) : (w.setMrow m).lastIssue = w.lastIssue := rfl
@[simp] theorem setMrow_sp_fstat (w : Warp) (m : Reg) : (w.setMrow m).sp.fstat = w.sp.fstat := rfl
@[simp] theorem setMrow_sp_cvm (w : Warp) (m : Reg) : (w.setMrow m).sp.cvm = w.sp.cvm := rfl
@[simp] theorem setMrow_sp_cvslip (w : Warp) (m : Reg) : (w.setMrow m).sp.cvslip = w.sp.cvslip := rfl
@[simp] theorem setMrow_sp_cvpat (w : Warp) (m : Reg) : (w.setMrow m).sp.cvpat = w.sp.cvpat := rfl
@[simp] theorem setMrow_sp_merged (w : Warp) (m : Reg) : (w.setMrow m).sp.merged = w.sp.merged := rfl
@[simp] theorem setMrow_sp_unmerged (w : Warp) (m : Reg) : (w.setMrow m).sp.unmerged = w.sp.unmerged := rfl
@[simp] theorem setMrow_sp_detach (w : Warp) (m : Reg) : (w.setMrow m).sp.detach = w.sp.detach := rfl
@[simp] theorem setMrow_sp_counted (w : Warp) (m : Reg) : (w.setMrow m).sp.counted = w.sp.counted := rfl
@[simp] theorem setMrow_sp_srseed (w : Warp) (m : Reg) : (w.setMrow m).sp.srseed = w.sp.srseed := rfl
@[simp] theorem setMrow_sp_prio (w : Warp) (m : Reg) : (w.setMrow m).sp.prio = w.sp.prio := rfl
@[simp] theorem setMrow_sp_hvFault (w : Warp) (m : Reg) : (w.setMrow m).sp.hvFault = w.sp.hvFault := rfl
@[simp] theorem setMrow_sp_hvCancel (w : Warp) (m : Reg) : (w.setMrow m).sp.hvCancel = w.sp.hvCancel := rfl
@[simp] theorem setMrow_sp_hvPreempt (w : Warp) (m : Reg) : (w.setMrow m).sp.hvPreempt = w.sp.hvPreempt := rfl
@[simp] theorem setMrow_sp_hvTrap (w : Warp) (m : Reg) : (w.setMrow m).sp.hvTrap = w.sp.hvTrap := rfl
@[simp] theorem setMrow_sp_mrow_new (w : Warp) (m : Reg) : (w.setMrow m).sp.mrow = m := rfl

/-! Reads by number -/

@[simp] theorem wg_setWg_same (s : State) (u : Nat) (x : Workgroup) : (s.setWg u x).wg u = some x := find_set_same _ _ _
theorem wg_setWg_other (s : State) (u v : Nat) (x : Workgroup) (h : v ≠ u) : (s.setWg u x).wg v = s.wg v :=
  find_set_other _ _ _ _ h
@[simp] theorem tile_setTile_same (s : State) (u : Nat) (x : Tile) : (s.setTile u x).tile u = x := get_set_same _ _ _ _
theorem tile_setTile_other (s : State) (u v : Nat) (x : Tile) (h : v ≠ u) : (s.setTile u x).tile v = s.tile v :=
  get_set_other _ _ _ _ _ h
@[simp] theorem cluster_setCluster_same (s : State) (u : Nat) (x : Cluster) : (s.setCluster u x).cluster u = x :=
  get_set_same _ _ _ _
theorem cluster_setCluster_other (s : State) (u v : Nat) (x : Cluster) (h : v ≠ u) :
    (s.setCluster u x).cluster v = s.cluster v := get_set_other _ _ _ _ _ h
@[simp] theorem pair_setPair_same (s : State) (u : Nat) (x : Pair) : (s.setPair u x).pair u = x := get_set_same _ _ _ _
theorem pair_setPair_other (s : State) (u v : Nat) (x : Pair) (h : v ≠ u) : (s.setPair u x).pair v = s.pair v :=
  get_set_other _ _ _ _ _ h
@[simp] theorem die_setDie_same (s : State) (u : Nat) (x : Die) : (s.setDie u x).die u = x := get_set_same _ _ _ _
theorem die_setDie_other (s : State) (u v : Nat) (x : Die) (h : v ≠ u) : (s.setDie u x).die v = s.die v :=
  get_set_other _ _ _ _ _ h
@[simp] theorem slot_setSlot_same (s : State) (u : Nat) (x : Slot) : (s.setSlot u x).slot u = x := get_set_same _ _ _ _
theorem slot_setSlot_other (s : State) (u v : Nat) (x : Slot) (h : v ≠ u) : (s.setSlot u x).slot v = s.slot v :=
  get_set_other _ _ _ _ _ h

/-- A warp of a workgroup reads as it was put. -/
@[simp] theorem warp_setWarp_same (g : Workgroup) (k : Nat) (w : Warp) : (g.setWarp k w).warp k = some w :=
  find_set_same _ _ _
theorem warp_setWarp_other (g : Workgroup) (k j : Nat) (w : Warp) (h : j ≠ k) : (g.setWarp k w).warp j = g.warp j :=
  find_set_other _ _ _ _ h
@[simp] theorem setWarp_setWarp (g : Workgroup) (k : Nat) (w w' : Warp) : (g.setWarp k w).setWarp k w' = g.setWarp k w' := by
  simp [Workgroup.setWarp]

/-- Putting a warp into a workgroup that is there. -/
theorem setWarp_eq (s : State) (r : WRef) (g : Workgroup) (w : Warp) (h : s.wg r.wg = some g) :
    s.setWarp r w = s.setWg r.wg (g.setWarp r.wp w) := by
  simp [State.setWarp, h]

/-- Putting a warp changes the workgroups alone. -/
theorem setWarp_frame (s : State) (r : WRef) (w : Warp) : s.setWarp r w = { s with wgs := (s.setWarp r w).wgs } := by
  unfold State.setWarp
  split <;> rfl

/-- The workgroup after a warp was put. -/
theorem wg_setWarp (s : State) (r : WRef) (g : Workgroup) (w : Warp) (h : s.wg r.wg = some g) :
    (s.setWarp r w).wg r.wg = some (g.setWarp r.wp w) := by
  simp [setWarp_eq s r g w h]

/-- A warp of the machine reads as it was put. -/
theorem stateWarp_setWarp (s : State) (r : WRef) (g : Workgroup) (w : Warp) (h : s.wg r.wg = some g) :
    (s.setWarp r w).warp r = some w := by
  simp [State.warp, wg_setWarp s r g w h]

/-- The last of two warps put at a place stands. -/
theorem setWarp_twice (s : State) (r : WRef) (w w' : Warp) : (s.setWarp r w).setWarp r w' = s.setWarp r w' := by
  cases h : s.wg r.wg with
  | none => simp [State.setWarp, h]
  | some g =>
    rw [setWarp_eq _ r (g.setWarp r.wp w) w' (wg_setWarp s r g w h), setWarp_eq s r g w h, setWarp_eq s r g w' h]
    simp [State.setWg]

/-- What the issuing warp is. -/
theorem current_iff (s : State) (r : WRef) (g : Workgroup) (w : Warp) :
    s.current = some (r, g, w) ↔ s.cur = some r ∧ s.wg r.wg = some g ∧ g.warp r.wp = some w := by
  unfold State.current
  constructor
  · intro h
    split at h
    · rename_i q hq
      split at h
      · rename_i g' hg
        split at h
        · rename_i w' hw
          simp only [Option.some.injEq, Prod.mk.injEq] at h
          obtain ⟨rfl, rfl, rfl⟩ := h
          exact ⟨hq, hg, hw⟩
        · cases h
      · cases h
    · cases h
  · rintro ⟨h1, h2, h3⟩
    simp [h1, h2, h3]

end Sys2Proof.Laws.State
end

