-- ==== Sys2Proof/Laws/Run.lean ====
section
/-! SUPPORT. What the runners do: one lemma for each way an instruction's word can go (legal and filled, illegal, not
fillable), what retirement leaves behind, and what the runners of the lane and of the uniform set answer. -/

set_option Elab.async false

namespace Sys2Proof.Laws

open Sys2Proof.Machine

/-! ### Words -/

/-- A word for an issuing warp has its meaning there. -/
theorem withCurrent_next {s : State} {r : WRef} {g : Workgroup} {w : Warp} (f : WRef → Workgroup → Warp → State)
    (hc : s.current = some (r, g, w)) : withCurrent s f = .next (f r g w) := by
  simp [withCurrent, hc]

/-- A legal word whose granules are present, or have been filled, runs its meaning on the filled warp, once the merge points have been
asked for the lines of the absent ones (R45, R114, R288). -/
theorem runNamed_next {s s1 : State} {i : Instr} {m : Warp → Mask} {r : WRef} {g : Workgroup} {w w' : Warp}
    (f : State → WRef → Workgroup → Warp → State) (hc : s.current = some (r, g, w))
    (hl : (legal i && allocOk w i && flagChosen w i) = true)
    (hs : s1 = fillReads s g r.wp w (m w) i) (hf : fillNamed s1 g r.wp w (m w) i = (w', true)) :
    runNamed s i m f = .next (f (s1.setWarp r w') r (g.setWarp r.wp w') w') := by
  subst hs
  rw [runNamed, withCurrent_next _ hc, if_pos hl]
  dsimp only
  rw [hf]

/-- An illegal word takes the illegal-instruction trap, whatever its meaning (R68). -/
theorem runNamed_illegal {s : State} {i : Instr} {m : Warp → Mask} {r : WRef} {g : Workgroup} {w : Warp}
    (f : State → WRef → Workgroup → Warp → State) (hc : s.current = some (r, g, w))
    (hl : (legal i && allocOk w i && flagChosen w i) = false) : runNamed s i m f = .next (preciseTrap s r w 0x01) := by
  rw [runNamed, withCurrent_next _ hc, if_neg (by simp [hl])]

/-- A word whose granules cannot be filled and where no page is missing ends the workgroup with error (R45). -/
theorem runNamed_unfilled {s s1 : State} {i : Instr} {m : Warp → Mask} {r : WRef} {g : Workgroup} {w w' : Warp}
    (f : State → WRef → Workgroup → Warp → State) (hc : s.current = some (r, g, w))
    (hl : (legal i && allocOk w i && flagChosen w i) = true)
    (hs : s1 = fillReads s g r.wp w (m w) i) (hf : fillNamed s1 g r.wp w (m w) i = (w', false))
    (hm : fillMisses s1 g r.wp w (m w) i = []) :
    runNamed s i m f = .next (endWithError s1 r.wg 0x50 r.wp w.c.pos.place 0 0) := by
  subst hs
  rw [runNamed, withCurrent_next _ hc, if_pos hl]
  dsimp only
  rw [hf]
  dsimp only
  rw [hm]

/-- A word whose granules lie on pages that are missing parks on them (DESIGN CHOICE, log entry 32). -/
theorem runNamed_missing {s s1 : State} {i : Instr} {m : Warp → Mask} {r : WRef} {g : Workgroup} {w w' : Warp} {p : Nat}
    {ps : List Nat} (f : State → WRef → Workgroup → Warp → State) (hc : s.current = some (r, g, w))
    (hl : (legal i && allocOk w i && flagChosen w i) = true)
    (hs : s1 = fillReads s g r.wp w (m w) i) (hf : fillNamed s1 g r.wp w (m w) i = (w', false))
    (hm : fillMisses s1 g r.wp w (m w) i = p :: ps) : runNamed s i m f = .next (parkOn s1 r g w .load (p :: ps)) := by
  subst hs
  rw [runNamed, withCurrent_next _ hc, if_pos hl]
  dsimp only
  rw [hf]
  dsimp only
  rw [hm]

/-- A word always answers a next state for an issuing warp. -/
theorem runNamed_answers {s : State} (i : Instr) (m : Warp → Mask) {r : WRef} {g : Workgroup} {w : Warp}
    (f : State → WRef → Workgroup → Warp → State) (hc : s.current = some (r, g, w)) : ∃ t, runNamed s i m f = .next t := by
  rw [runNamed, withCurrent_next _ hc]
  exact ⟨_, rfl⟩

/-- A word that no warp issues stops the model. -/
theorem runNamed_noWarp {s : State} (i : Instr) (m : Warp → Mask) (f : State → WRef → Workgroup → Warp → State)
    (hc : s.current = none) : runNamed s i m f = .fault .noWarp := by
  simp [runNamed, withCurrent, hc]

/-! ### Fills -/

/-- With the s-granule present it needs no fill. -/
theorem fillS_present (s : State) (g : Workgroup) (wp : Nat) (w : Warp) (h : w.r.sAbsent = false) :
    fillS s g wp w = (w, true) := by
  simp [fillS, h]

/-- With every vector granule present none is filled. -/
theorem fillGranules_present (s : State) (g : Workgroup) (wp : Nat) (w : Warp) (l : List Nat) (h : w.r.absent = []) :
    fillGranules s g wp w l = (w, true) := by
  induction l with
  | nil => rfl
  | cons k r ih => simp [fillGranules, h, ih]

/-- With every granule present an instruction fills nothing (R44). -/
theorem fillNamed_present (s : State) (g : Workgroup) (wp : Nat) (w : Warp) (m : Mask) (i : Instr)
    (h1 : w.r.sAbsent = false) (h2 : w.r.absent = []) : fillNamed s g wp w m i = (w, true) := by
  unfold fillNamed
  split <;> simp [fillS_present _ _ _ _ h1, fillGranules_present _ _ _ _ _ h2]

/-- With every granule present an instruction reads no image (R44). -/
theorem fillReads_present (s : State) (g : Workgroup) (wp : Nat) (w : Warp) (m : Mask) (i : Instr)
    (h1 : w.r.sAbsent = false) (h2 : w.r.absent = []) : fillReads s g wp w m i = s := by
  simp [fillReads, fillAreas, sArea, granuleAreas, fetchAreas, h1, h2]

/-! ### Retirement -/

/-- Going on moves the position and nothing else. -/
theorem advance_eq (w : Warp) : w.advance = w.goto w.advance.c.pos := by
  unfold Warp.advance
  simp only [Warp.goto]
  split
  · rfl
  · split <;> rfl

/-- Where a warp goes on depends on its control state alone. -/
theorem advance_regs (w : Warp) (x : WarpRegs) : ({ w with r := x } : Warp).advance = { w.advance with r := x } := by
  unfold Warp.advance
  dsimp only
  have h : Warp.atBodyEnd { w with r := x } (w.c.pos.word + 4) = w.atBodyEnd (w.c.pos.word + 4) := rfl
  rw [h]
  split
  · rfl
  · split <;> rfl

theorem advance_special (w : Warp) (x : WarpSpecial) : ({ w with sp := x } : Warp).advance = { w.advance with sp := x } := by
  unfold Warp.advance
  dsimp only
  have h : Warp.atBodyEnd { w with sp := x } (w.c.pos.word + 4) = w.atBodyEnd (w.c.pos.word + 4) := rfl
  rw [h]
  split
  · rfl
  · split <;> rfl

@[simp] theorem advance_active (w : Warp) : w.advance.active = w.active := by rw [advance_eq]; rfl
@[simp] theorem advance_r (w : Warp) : w.advance.r = w.r := by rw [advance_eq]; rfl
@[simp] theorem advance_sp (w : Warp) : w.advance.sp = w.sp := by rw [advance_eq]; rfl
@[simp] theorem advance_ended (w : Warp) : w.advance.c.ended = w.c.ended := by rw [advance_eq]; rfl
@[simp] theorem advance_sget (w : Warp) (d : Nat) : w.advance.sget d = w.sget d := by rw [advance_eq]; rfl
@[simp] theorem advance_vget (w : Warp) (d : Nat) : w.advance.vget d = w.vget d := by rw [advance_eq]; rfl
@[simp] theorem advance_pget (w : Warp) (d : Nat) : w.advance.pget d = w.pget d := by rw [advance_eq]; rfl

/-- An instruction that leaves its warp with active lanes, or that began with none, retires to the next word: the warp is
put back with its position moved, and the issue count rises (R52, R404). -/
theorem retire_goesOn (s : State) (r : WRef) (g : Workgroup) (before after : Warp)
    (ha : after.active ≠ 0 ∨ before.active = 0) (he : after.c.ended = false) :
    retire s r g before after false = ({ s with issues := s.issues + 1 } : State).setWarp r
      { after.advance with lastIssue := s.issues, nones := [], farFails := [], c := { after.advance.c with wait := .none } } := by
  have hc : Warp.checkEmpty before after.advance = after.advance := by
    unfold Warp.checkEmpty
    rw [if_neg]
    rintro ⟨h1, h2⟩
    rw [advance_active] at h2
    rcases ha with h | h
    · exact h h2
    · exact h1 h
  simp [retire, hc, he]

/-- The same of an instruction that has set its position itself. -/
theorem retire_moved (s : State) (r : WRef) (g : Workgroup) (before after : Warp)
    (ha : after.active ≠ 0 ∨ before.active = 0) (he : after.c.ended = false) :
    retire s r g before after true = ({ s with issues := s.issues + 1 } : State).setWarp r
      { after with lastIssue := s.issues, nones := [], farFails := [], c := { after.c with wait := .none } } := by
  have hc : Warp.checkEmpty before after = after := by
    unfold Warp.checkEmpty
    rw [if_neg]
    rintro ⟨h1, h2⟩
    rcases ha with h | h
    · exact h h2
    · exact h1 h
  simp [retire, hc, he]

/-- Without records retirement is all. -/
@[simp] theorem retireWithRecords_nil (s : State) (r : WRef) (g : Workgroup) (before after : Warp) (moved : Bool) :
    retireWithRecords s r g before after moved [] = retire s r g before after moved := by
  simp [retireWithRecords]

/-! ### Uniform instructions -/

/-- A uniform instruction finishes on the filled warp. -/
theorem runUniform_next {s s1 : State} {i : Instr} {r : WRef} {g : Workgroup} {w w' : Warp} (f : Warp → WRes)
    (hc : s.current = some (r, g, w)) (hl : (legal i && allocOk w i && flagChosen w i) = true)
    (hs : s1 = fillReads s g r.wp w w.active i) (hf : fillNamed s1 g r.wp w w.active i = (w', true)) :
    runUniform s i f = .next (finishWarp (s1.setWarp r w') r (g.setWarp r.wp w') w' (f w')) :=
  runNamed_next _ hc hl hs hf

/-- Setting the issue count commutes with putting a warp. -/
theorem issues_setWarp (s : State) (r : WRef) (w : Warp) (n : Nat) :
    ({ s.setWarp r w with issues := n } : State) = ({ s with issues := n } : State).setWarp r w := by
  unfold State.setWarp
  show _ = match s.wg r.wg with
    | some g => _
    | none => _
  cases s.wg r.wg <;> rfl

/-- An instruction that writes one s-register: the warp retires with it, and nothing else changes (R50, R156). -/
theorem runSet_next {s s1 : State} {i : Instr} {r : WRef} {g : Workgroup} {w w' : Warp} (d : BitVec 6) (f : Warp → Reg)
    (hc : s.current = some (r, g, w)) (hl : (legal i && allocOk w i && flagChosen w i) = true)
    (hs : s1 = fillReads s g r.wp w w.active i) (hf : fillNamed s1 g r.wp w w.active i = (w', true))
    (he : w'.c.ended = false) :
    runSet s i d f = .next (({ s1 with issues := s1.issues + 1 } : State).setWarp r
      (let u := (w'.sset d.toNat (f w')).advance
       { u with lastIssue := s1.issues, nones := [], farFails := [], c := { u.c with wait := .none } })) := by
  rw [runSet, runUniform_next _ hc hl hs hf]
  simp only [finishWarp]
  have hi : (s1.setWarp r w').issues = s1.issues := by rw [State.setWarp_frame]
  rw [retire_goesOn _ _ _ w' (w'.sset d.toNat (f w')) _ he, hi, issues_setWarp, State.setWarp_twice]
  by_cases h : w'.active = 0
  · exact Or.inr h
  · exact Or.inl h

/-! ### Lane instructions -/

/-- A lane instruction whose lanes agree on a tag it takes consumes its streams and writes (R19, R30, R114). -/
theorem runLane_next {s s0 : State} {f : LaneForm} {ok : BitVec 5 → Bool} {check : LaneCtx → Option Nat}
    {op : LaneCtx → Warp} {r : WRef} {g : Workgroup} {w w0 w1 : Warp} {s1 : State} {sv : List StreamVals}
    {recs : List FaultRec} {off m : Mask} {t : BitVec 5}
    (hc : s.current = some (r, g, w)) (hl : (legal f.i && allocOk w f.i && flagChosen w f.i) = true)
    (hr : s0 = fillReads s g r.wp w (f.mask w) f.i)
    (hf : fillNamed s0 g r.wp w (f.mask w) f.i = (w0, true))
    (ho : off = f.codes.foldl (fun a c => a ||| (opdOf c).offLanes w0 (f.mask w0)) 0)
    (hm : m = f.mask w0 &&& ~~~off)
    (ht : f.tag (w0.switchOff off) m = .tag t) (hok : ok t = true)
    (hu : anyUnset (w0.switchOff off) f.streams = false)
    (hk : check ⟨w0.switchOff off, m, t, false, 0, []⟩ = none)
    (hs : consume (s0.setWarp r w0) r (g.setWarp r.wp w0) w0 (w0.switchOff off) m f.streams = .ok s1 w1 sv recs) :
    runLane s f ok check op = .next (retireWithRecords s1 r (g.setWarp r.wp w0) w0.beforeHold
      (if f.cross && decide (recordMask recs ≠ 0) then w1 else op ⟨w1, m, t, false, recordMask recs, sv⟩) false recs) := by
  subst ho hm
  rw [runLane, runNamed_next _ hc hl hr hf]
  dsimp only
  rw [ht]
  dsimp only
  rw [hu, hok]
  simp only [Bool.not_true, Bool.or_false, Bool.false_eq_true, if_false]
  rw [hk]
  dsimp only
  rw [hs]

/-- A lane instruction whose typed operands disagree, whose tag its class does not accept, that takes no tag at all for its destination,
or that names an unset stream, takes the format fault before any other effect than the switch-off (R99, R110, R111, R114,
R200). -/
theorem runLane_format {s s0 : State} {f : LaneForm} {ok : BitVec 5 → Bool} {check : LaneCtx → Option Nat}
    {op : LaneCtx → Warp} {r : WRef} {g : Workgroup} {w w0 : Warp} {off m : Mask}
    (hc : s.current = some (r, g, w)) (hl : (legal f.i && allocOk w f.i && flagChosen w f.i) = true)
    (hr : s0 = fillReads s g r.wp w (f.mask w) f.i)
    (hf : fillNamed s0 g r.wp w (f.mask w) f.i = (w0, true))
    (ho : off = f.codes.foldl (fun a c => a ||| (opdOf c).offLanes w0 (f.mask w0)) 0)
    (hm : m = f.mask w0 &&& ~~~off)
    (hb : f.tag (w0.switchOff off) m = .fault ∨ anyUnset (w0.switchOff off) f.streams = true ∨
      (f.tag (w0.switchOff off) m = .undefined ∧ ∀ t : Nat, t < 32 → ok (BitVec.ofNat 5 t) = false) ∨
      ∃ t, f.tag (w0.switchOff off) m = .tag t ∧ ok t = false) :
    runLane s f ok check op =
      .next (preciseTrap ((s0.setWarp r w0).setWarp r (w0.switchOff off)) r (w0.switchOff off) 0x02) := by
  subst ho hm
  rw [runLane, runNamed_next _ hc hl hr hf]
  dsimp only
  rcases hb with h | h | ⟨h, h'⟩ | ⟨t, h, h'⟩
  · rw [h]
  · rw [h]
    split <;> simp
  · rw [h]
    dsimp only
    rw [if_pos]
    simp only [Bool.or_eq_true, Bool.not_eq_true', List.any_eq_false]
    exact Or.inr (fun t ht => by simp [h' t (List.mem_range.mp ht)])
  · rw [h]
    dsimp only
    rw [h', Bool.not_false, Bool.or_true]
    rfl

end Sys2Proof.Laws
end

