-- ==== Sys2Proof/Tests/Slice0.lean ====
section
/-! SUPPORT. Tests: ill-formed words that each check refuses, words worked out in the spec's examples, single steps with
results from the spec's rules, and for every statement a state and operands that meet its hypotheses. -/

set_option Elab.async false

namespace Sys2Proof.Tests

open Machine Claims

/-! ### Ill-formed instructions, one for each check (R16, R18, R21, R63, R67, R68) -/

theorem test_illformed_streamDestination : ¬ (Instr.vaddRrr 112 1 2 0).WellFormed := by decide
theorem test_illformed_zeroDestination : ¬ (Instr.vaddRrr 124 1 2 0).WellFormed := by decide
theorem test_illformed_operandCode : ¬ (Instr.vaddRrr 1 126 2 0).WellFormed := by decide
theorem test_illformed_condition : ¬ (Instr.vcmp 1 0 6 1 2 0).WellFormed := by decide
theorem test_illformed_predicateZero : ¬ (Instr.vcmp 0 0 0 1 2 0).WellFormed := by decide
theorem test_illformed_scope : ¬ (Instr.fence 0 7).WellFormed := by decide
theorem test_illformed_accumulatorSize : ¬ (Instr.mzero 0 3 0).WellFormed := by decide
theorem test_illformed_spredSetZero : ¬ (Instr.spredSet 1 0).WellFormed := by decide
theorem test_wellformed : (Instr.vaddRrr 1 112 2 0).WellFormed := by decide
theorem test_aboveAllocation : allocOk (Warp.launch 8 0) (.vaddRrr 8 1 2 0) = false := by decide +kernel

/-! ### Words of the spec's examples, by family -/

theorem test_decode_clause : decode 0xFF002FF4#32 = some (.clause 2#12 15#4 15#4 2#3) := by decide +kernel
theorem test_decode_pool : decode 0xFE000002#32 = some (.pool 2#16) := by decide +kernel
theorem test_decode_vadd : decode 0x01120C8A#32 = some (.vaddRrr 9#7 3#7 17#7 2#3) := by decide +kernel
theorem test_decode_vcvt : decode 0x31100A68#32 = some (.vcvt 8#7 2#7 0x13#5 1#2 0#3) := by decide +kernel
theorem test_decode_vcav : decode 0x46182880#32 = some (.vcav 12#7 10#7 2#3 0#3) := by decide +kernel
theorem test_decode_vatom : decode 0x520E10C9#32 = some (.vatom 7#7 4#7 6#5 0#1 9#4) := by decide +kernel
theorem test_decode_bra : decode 0x90FFFFFD#32 = some (.bra 0xFFFFFD#24) := by decide +kernel
theorem test_decode_mma : decode 0xD0614A00#32 = some (.mma 3#3 20#6 1#1 32#7 0#2) := by decide +kernel
theorem test_decode_mmt : decode 0xD1008009#32 = some (.mmt 0#3 8#6 0#1 0#7 1#2) := by decide +kernel
theorem test_decode_cpc : decode 0xD850A000#32 = some (.cpc 20#6 10#6 0#6 0#1) := by decide +kernel
theorem test_decode_rel : decode 0xB6044003#32 = some (.rel 1#6 4#6 3#3) := by decide +kernel
theorem test_decode_publish : decode 0xB8146005#32 = some (.publish 5#6 6#6 5#3) := by decide +kernel
theorem test_decode_tbwait : decode 0xDE1C4000#32 = some (.tbwait 7#6 4#6) := by decide +kernel
theorem test_decode_srd : decode 0xE410000A#32 = some (.srd 4#6 10#6) := by decide +kernel
theorem test_decode_reserved : decode 0x98000001#32 = none ∧ decode 0x00000000#32 = none := by decide +kernel

/-! ### A small machine: one warp of one workgroup on tile 0, in a clause of one word at 0x10000 -/

def r0 : WRef := ⟨0, 0⟩

/-- The warp issues; f sets what a test needs of it. -/
def demo (f : Warp → Warp) : State :=
  { State.reset.withFetchWord 32 0x98000000 with cur := some r0 }.updWarp r0 f

/-- What an instruction leaves of the warp. -/
def after (s : State) (i : Instr) : Option Warp :=
  match exec i s with
  | .next t => t.warp r0
  | _ => none

/-- An s-register and a lane of a vector register after an instruction. -/
def sAfter (s : State) (i : Instr) (k : Nat) : Option Reg := (after s i).map (fun w => w.sget k)
def vAfter (s : State) (i : Instr) (k l : Nat) : Option Reg := (after s i).map (fun w => laneOf (w.vget k).lanes l)

/-- s-registers from s1 on. -/
def withS (l : List Reg) (w : Warp) : Warp := ((List.range l.length).zip l).foldl (fun w p => w.sset (p.1 + 1) p.2) w

/-- Vector registers from v1 on, every lane alike, under a tag. -/
def withV (t : BitVec 5) (l : List Reg) (w : Warp) : Warp :=
  ((List.range l.length).zip l).foldl (fun w p => w.vset (p.1 + 1) ⟨t, List.replicate 32 p.2⟩) w

/-! ### Single steps -/

theorem test_sadd_wraps : sAfter (demo (withS [0xFFFFFFFFFFFFFFFF, 2])) (.sadd 3 1 2) 3 = some 1 := by decide +kernel
theorem test_ssub_order : sAfter (demo (withS [5, 7])) (.ssub 3 1 2) 3 = some 0xFFFFFFFFFFFFFFFE := by decide +kernel
theorem test_smulh_signed : sAfter (demo (withS [0xFFFFFFFFFFFFFFFF, 2])) (.smulh 3 1 2) 3 = some 0xFFFFFFFFFFFFFFFF := by
  decide +kernel
theorem test_smulhU : sAfter (demo (withS [0xFFFFFFFFFFFFFFFF, 2])) (.smulhU 3 1 2) 3 = some 1 := by decide +kernel
theorem test_sdiv_byZero : sAfter (demo (withS [7, 0])) (.sdiv 3 1 2) 3 = some 0xFFFFFFFFFFFFFFFF := by decide +kernel
theorem test_sdiv_corner : sAfter (demo (withS [0x8000000000000000, 0xFFFFFFFFFFFFFFFF])) (.sdiv 3 1 2) 3 =
    some 0x8000000000000000 := by decide +kernel
theorem test_srem_sign : sAfter (demo (withS [0xFFFFFFFFFFFFFFF9, 2])) (.srem 3 1 2) 3 = some 0xFFFFFFFFFFFFFFFF := by
  decide +kernel
theorem test_ssar_far : sAfter (demo (withS [0x8000000000000000, 64])) (.ssar 3 1 2) 3 = some 0xFFFFFFFFFFFFFFFF := by
  decide +kernel
theorem test_sshl_far : sAfter (demo (withS [1, 64])) (.sshl 3 1 2) 3 = some 0 := by decide +kernel
theorem test_ssel : sAfter (demo (withS [5, 7, 1])) (.ssel 3 1 2) 3 = some 5 := by decide +kernel
theorem test_smovi : sAfter (demo id) (.smovi 5 0x3FFFF) 5 = some 0xFFFFFFFFFFFFFFFF := by decide +kernel
theorem test_scmp_unsigned : sAfter (demo (withS [0xFFFFFFFFFFFFFFFF, 2])) (.scmp 3 1 2 8) 3 = some 1 := by decide +kernel
theorem test_vadd_parts : vAfter (demo (withV 0x05 [0xFFFFFFFF00000001, 0x0000000100000002])) (.vaddRrr 3 1 2 0) 3 7 =
    some 0x0000000000000003 := by decide +kernel
theorem test_vadd_tags : (after (demo (fun w => (withV 0x05 [1, 2] w).vset 2 ⟨0x06, []⟩)) (.vaddRrr 3 1 2 0)).map (·.c.ended) =
    some false ∧ vAfter (demo (fun w => (withV 0x05 [1, 2] w).vset 2 ⟨0x06, []⟩)) (.vaddRrr 3 1 2 0) 3 0 = some 0 := by
  decide +kernel
theorem test_vfadd : vAfter (demo (withV 0x11 [0x3F8000003F800000, 0x400000003F800000])) (.vfaddRrr 3 1 2 0) 3 31 =
    some 0x4040000040000000 := by decide +kernel
theorem test_vfadd_rounds : vAfter (demo (withV 0x11 [0x3F800000, 0x33800000])) (.vfaddRrr 3 1 2 0) 3 0 = some 0x3F800000 := by
  decide +kernel
theorem test_vfma_once : vAfter (demo (withV 0x11 [0x3F800001, 0x3F800001, 0xBF800002])) (.vfma 3 1 2 0) 3 0 =
    some 0x28800000 := by decide +kernel
theorem test_vbfx_sign : vAfter (demo (fun w => withS [0x0408] (withV 0x07 [0x0F00] w))) (.vbfx 3 1 1 0) 3 0 =
    some 0xFFFFFFFFFFFFFFFF := by decide +kernel
theorem test_vmul_wraps : vAfter (demo (withV 0x01 [0x80, 0x02])) (.vmulRrr 3 1 2 0) 3 0 = some 0 := by decide +kernel
theorem test_mzero : (after (demo id) (.mzero 0 0 1)).map (fun w => (w.vget 15).tag) = some 0x05 ∧
    (after (demo id) (.mzero 0 0 1)).map (fun w => (w.vget 16).tag) = some 0x00 := by decide +kernel
theorem test_mscale : sAfter (demo (withS [0x42C80000])) (.mscale 2 1 0) 2 = some 125 := by decide +kernel
theorem test_spred : sAfter (demo id) (.spredGet 1 0) 1 = some 0xFFFFFFFF := by decide +kernel
theorem test_exit : (after (demo id) .exit).map (·.c.ended) = some true := by decide +kernel
theorem test_store : (match exec (.vst 2 1 6 0 0) (demo (fun w => (withV 0x06 [0, 0xAABBCCDD] w).vset 1 ⟨0x08,
    List.replicate 32 0x20000⟩)) with
  | .next t => chanRead (writeBackWhere t 0 (fun _ => true)) 0x20000 4
  | _ => 0) = 0xAABBCCDD := by decide +kernel

/-! ### What the statements assume can be met

A witness is a small state and an instruction whose warp issues it, with what a clause asks of the warp; the checks are
decided, and the theorems say that the statements' own hypotheses hold. -/

/-- What a clause asks of the workgroup and the warp. -/
abbrev Cond := Workgroup → Warp → Bool
def always : Cond := fun _ _ => true
def notLast : Cond := fun _ w => w.c.pos.idx != w.c.pos.cl.len
def last : Cond := fun _ w => w.c.pos.idx == w.c.pos.cl.len

/-- The current warp issues the instruction, and the condition holds of it. -/
def Meets (s : State) (i : Instr) (p : Cond) : Prop := ∃ s1 r g w, Issues s s1 i act r g w ∧ p g w = true

def meetsB (s : State) (i : Instr) (p : Cond) : Bool :=
  match s.current with
  | none => false
  | some (r, g, w0) =>
    let f := fillNamed (fillReads s g r.wp w0 w0.active i) g r.wp w0 w0.active i
    legal i && allocOk w0 i && flagChosen w0 i && f.2 && !f.1.c.ended && p g f.1

theorem meets {s : State} {i : Instr} {p : Cond} (h : meetsB s i p = true) : Meets s i p := by
  unfold meetsB at h
  split at h
  · cases h
  · next r g w0 hc =>
    simp only [Bool.and_eq_true, Bool.not_eq_true'] at h
    obtain ⟨⟨⟨hw, hf⟩, he⟩, hp⟩ := h
    exact ⟨_, r, g, _, ⟨⟨w0, hc, by simp [hw.1.1, hw.1.2, hw.2], rfl, Prod.ext rfl hf⟩, he⟩, hp⟩

/-- Every listed case is met. -/
def AllMet (l : List (State × Instr × Cond)) : Prop := ∀ x ∈ l, Meets x.1 x.2.1 x.2.2

theorem allMet {l : List (State × Instr × Cond)} (h : l.all (fun x => meetsB x.1 x.2.1 x.2.2) = true) : AllMet l :=
  fun x hx => meets (List.all_eq_true.mp h x hx)

/-- Every listed instruction issues from one state. -/
def AllIssue (s : State) (l : List Instr) : Prop := ∀ i ∈ l, Meets s i always

theorem allIssue {s : State} {l : List Instr} (h : l.all (fun i => meetsB s i always) = true) : AllIssue s l :=
  fun i hi => meets (List.all_eq_true.mp h i hi)

theorem test_hyp_UniformArithmetic : AllIssue (demo id) [.sadd 63 0 63, .ssub 63 0 63, .smul 63 0 63, .smulh 63 0 63,
    .smulhU 63 0 63] := allIssue (by decide +kernel)

def minS : Reg := BitVec.intMin 64
def onesS : Reg := BitVec.allOnes 64

theorem test_hyp_UniformDivision : AllMet [(demo id, .sdiv 3 1 2, fun _ w => w.sget 2 == 0),
    (demo id, .srem 3 1 2, fun _ w => w.sget 2 == 0),
    (demo (withS [minS, onesS]), .sdiv 3 1 2, fun _ w => w.sget 1 == minS && w.sget 2 == onesS),
    (demo (withS [minS, onesS]), .srem 3 1 2, fun _ w => w.sget 1 == minS && w.sget 2 == onesS),
    (demo (withS [minS, 1]), .sdiv 3 1 2, fun _ w => w.sget 2 != 0 && w.sget 2 != onesS),
    (demo (withS [minS, 1]), .srem 3 1 2, fun _ w => w.sget 2 != 0 && w.sget 2 != onesS),
    (demo id, .sdivU 3 1 2, fun _ w => w.sget 2 == 0), (demo id, .sremU 3 1 2, fun _ w => w.sget 2 == 0),
    (demo (withS [onesS, 1]), .sdivU 3 1 2, fun _ w => w.sget 2 != 0),
    (demo (withS [onesS, 1]), .sremU 3 1 2, fun _ w => w.sget 2 != 0)] := allMet (by decide +kernel)

theorem test_hyp_UniformLogicAndImmediates : AllIssue (demo id) ([.sand 3 1 2, .sor 3 1 2, .sxor 3 1 2, .snot 3 1, .sshl 3 1 2,
    .sshr 3 1 2, .ssar 3 1 2, .smin 3 1 2, .smax 3 1 2, .sminU 3 1 2, .smaxU 3 1 2, .ssel 3 1 2, .smov 3 1, .smovi 3 0x3FFFF,
    .saddImm 3 1 0xFFF, .sandImm 3 1 0xFFF, .sorImm 3 1 0xFFF, .sxorImm 3 1 0xFFF, .sshlImm 3 1 0xFFF, .sshrImm 3 1 0xFFF,
    .ssarImm 3 1 0xFFF] ++ ((List.range 10).map (fun c => .scmp 3 1 2 (BitVec.ofNat 4 c)))) := allIssue (by decide +kernel)

theorem test_hyp_UniformMoves : AllMet [(demo id, .slane 3 111 31, always), (demo id, .slane 3 124 0, always),
    (demo id, .slane 3 125 31, always), (demo id, .spredGet 3 0, always), (demo id, .spredGet 3 7, always),
    (demo id, .spredAct 3, always), (demo id, .spredSet 1 7, always), (demo id, .srd 3 1, always),
    (demo id, .srd 3 0x1A, always),
    (demo (withS [0x0170]), .xwin 1, fun _ w => (w.sget 1).toNat == 0x0170 && 0x70 == w.r.alloc),
    (demo (withS [0x7000]), .xwin 1, fun _ w => fieldOf (w.sget 1) 8 8 == w.r.alloc),
    (demo (withS [0x7001]), .xwin 1, fun _ w => w.r.alloc < fieldOf (w.sget 1) 0 8 + fieldOf (w.sget 1) 8 8),
    (demo (withS [0x10100]), .xwin 1, fun _ w => fieldOf (w.sget 1) 16 48 != 0), (demo id, .xwin 1, fun _ w => w.sget 1 == 0)] :=
  allMet (by decide +kernel)

theorem test_hyp_NopDoesNothing : Meets (demo id) .nop always := meets (by decide +kernel)

/-- In the middle of a clause. -/
def mid (w : Warp) : Warp := { w with c := { w.c with pos := { w.c.pos with cl := { w.c.pos.cl with len := 1 } } } }

def stacked (l : List StackEntry) (w : Warp) : Warp := { w with c := { w.c with stack := l } }

theorem test_hyp_Transfers : AllMet [(demo id, .bra 0x7FFFFF, last), (demo id, .brasNz 1 0x10000, last),
    (demo (withS [1]), .brasNz 1 0x10000, last), (demo id, .brasZ 1 0, last), (demo (withS [1]), .brasZ 1 0, last),
    (demo id, .call 1 0x20000, last), (demo (withS [0xFFFFFFFFFFFC]), .ret 1, last), (demo (withS [2]), .ret 1, last),
    (demo (withS [0x1000000000000]), .ret 1, last), (demo mid, .bra 0, notLast), (demo mid, .brasNz 1 0, notLast),
    (demo mid, .brasZ 1 0, notLast), (demo mid, .call 1 0, notLast), (demo mid, .ret 1, notLast)] := allMet (by decide +kernel)

def halfPred (w : Warp) : Warp := w.pset 1 0xFFFF
def pathE : StackEntry := ⟨true, 0x20000, 1⟩
def rejoinE : StackEntry := ⟨false, 0x0FFFC, 1⟩

theorem test_hyp_Divergence : AllMet [(demo (stacked (List.replicate 31 rejoinE)), .mark 0, fun _ w => w.c.stack.length == 31),
    (demo (stacked (List.replicate 32 rejoinE)), .mark 0, fun _ w => w.c.stack.length == 32),
    (demo id, .br 1 0 0, fun _ w => w.pget 1 == 0), (demo id, .br 0 0 0, last), (demo halfPred, .br 1 1 5, last),
    (demo (fun w => stacked (List.replicate 30 rejoinE) (halfPred w)), .br 1 0 5, last),
    (demo (fun w => stacked (List.replicate 31 pathE) (halfPred w)), .br 1 0 5, last),
    (demo (fun w => stacked (List.replicate 32 pathE) (halfPred w)), .br 1 0 5, last), (demo mid, .br 1 0 5, notLast),
    (demo id, .join, fun _ w => w.c.stack == []), (demo (stacked [pathE]), .join, fun _ w => w.c.stack == [pathE]),
    (demo (stacked [pathE, pathE]), .join, fun _ w => w.c.stack.length == 2),
    (demo (stacked [pathE, rejoinE]), .join, fun _ w => rejoinE.addr == w.c.pos.hdr),
    (demo (stacked [⟨false, 0x40000, 1⟩]), .join, fun _ w => 0x40000 != w.c.pos.hdr), (demo id, .exit, last),
    (demo (stacked [pathE]), .exit, last), (demo mid, .exit, notLast)] := allMet (by decide +kernel)

def nested (n : Nat) (w : Warp) : Warp :=
  { w with c := { w.c with depth := n, frames := (List.range n).map (fun k => (k, ⟨0x10000, 8 - 4 * k⟩)) } }

theorem test_hyp_Loops : AllMet [(demo id, .loop 1 0 4, last), (demo (withS [0xFFFFFFFF]), .loop 1 0 4, last),
    (demo (fun w => nested 1 (withS [1] w)), .loop 1 1 7, fun _ w => w.frame == some ⟨0x10000, 8⟩),
    (demo (fun w => nested 1 (withS [1] w)), .loop 1 1 8, last), (demo id, .loop 1 1 4, last), (demo mid, .loop 1 0 4, notLast)] :=
  allMet (by decide +kernel)

/-- A warp after the last word of its loop's body, with n left in its counter. -/
def fallen (n : Nat) (w : Warp) : Warp :=
  { nested 1 w with c := { (nested 1 w).c with lc := [(0, n)], pos := ⟨0x10020, 0, .fell, .none⟩ } }

theorem test_hyp_Loops_end : ∀ s ∈ [demo (fallen 1), demo (fallen 2), demo (nested 1)], ∃ x f, s.warp r0 = some x ∧ x.frame = some f ∧
    x.c.depth = 1 ∧ (x.c.pos.mode = .fell ∨ s = demo (nested 1)) := by
  intro s hs
  simp only [List.mem_cons, List.not_mem_nil, or_false] at hs
  rcases hs with rfl | rfl | rfl
  · exact ⟨_, ⟨0x10000, 8⟩, rfl, by decide +kernel, by decide +kernel, .inl (by decide +kernel)⟩
  · exact ⟨_, ⟨0x10000, 8⟩, rfl, by decide +kernel, by decide +kernel, .inl (by decide +kernel)⟩
  · exact ⟨_, ⟨0x10000, 8⟩, rfl, by decide +kernel, by decide +kernel, .inr rfl⟩

/-- The same machine with no entry in the range table, so that no address is mapped. -/
def unmapped (s : State) : State := { s with slots := [(0, { Slot.reset with v := true, rtab := 5, abase := 0x100, asize := 64, acnt := 1 })] }

/-- What fetching a word gives, by kind. -/
def fetchKind (s : State) (va : Nat) : Cond := fun g w => match fetchWord (s.setWarp r0 w) (g.setWarp 0 w) w va with
  | .word _ _ => true
  | _ => false
def fetchMisses (s : State) (va : Nat) : Cond := fun g w => match fetchWord (s.setWarp r0 w) (g.setWarp 0 w) w va with
  | .miss _ => true
  | _ => false
def fetchFails (s : State) (va : Nat) : Cond := fun g w => match fetchWord (s.setWarp r0 w) (g.setWarp 0 w) w va with
  | .fail _ _ => true
  | _ => false
def fetchTwo (s : State) (va : Nat) : Cond := fun g w => match fetchWord (s.setWarp r0 w) (g.setWarp 0 w) w va with
  | .word _ s1 => fetchKind { s1 with cur := s1.cur } (va + 4) g w
  | _ => false

def refusedPage (w : Warp) : Warp := { w with nones := [0x10] }

theorem test_hyp_LiteralsAndHeaders : AllMet [(demo id, .ldlW 63 0, fetchKind (demo id) 0x10000),
    (unmapped (demo id), .ldlW 1 0, fetchMisses (unmapped (demo id)) 0x10000),
    (unmapped (demo refusedPage), .ldlW 1 0, fetchFails (unmapped (demo refusedPage)) 0x10000),
    (demo id, .ldlD 1 2, fetchTwo (demo id) 0x10008), (demo id, .ldlD 1 1, always)] := allMet (by decide +kernel)

/-- The current warp and what holds of it. -/
def Current (s : State) (p : Cond) : Prop := ∃ r g w, s.current = some (r, g, w) ∧ p g w = true

theorem current {s : State} {p : Cond} (h : (match s.current with | none => false | some x => p x.2.1 x.2.2) = true) : Current s p := by
  split at h
  · cases h
  · next x hc => exact ⟨x.1, x.2.1, x.2.2, hc, h⟩

/-- The warp at another place. -/
def atPos (p : Pos) (w : Warp) : Warp := w.goto p
def busyFlag (n : Nat) (w : Warp) : Warp := { w with r := { w.r with flags := [(n, 1)] } }
def flowAt (n : Nat) : Pos := ⟨0x10000, n, .flow, .none⟩

theorem test_hyp_LiteralsAndHeaders_clause :
    Current (demo (fun w => busyFlag 11 (atPos (flowAt 7) w))) (fun _ w => w.c.pos.mode == .flow && w.flag 11 != 0 &&
      legal (.clause 0x800 0 1 7)) ∧
    Current (demo (atPos (flowAt 7))) (fun _ w => w.c.pos.mode == .flow && w.frame == none && w.c.pos.idx == 7 &&
      (List.range 12).all (fun k => w.flag k == 0)) ∧
    Current (demo id) (fun _ w => w.c.pos.mode == .body) ∧
    Current (demo (atPos (flowAt 0))) (fun _ w => w.c.pos.mode == .flow && w.c.pos.idx == 0 && w.frame == none) ∧
    Current (demo (atPos (Pos.atTarget 0x10000))) (fun _ w => w.c.pos.mode == .target) ∧
    Current (demo (atPos (flowAt 0))) (fun g w => match nextWord (unmapped (demo (atPos (flowAt 0)))) r0 g w with
      | .miss _ => true
      | _ => false) ∧
    Current (demo (fun w => refusedPage (atPos (flowAt 0) w))) (fun g w =>
      match nextWord (unmapped (demo (fun w => refusedPage (atPos (flowAt 0) w)))) r0 g w with
      | .fail _ _ => true
      | _ => false) :=
  ⟨current (by decide +kernel), current (by decide +kernel), current (by decide +kernel), current (by decide +kernel),
    current (by decide +kernel), current (by decide +kernel), current (by decide +kernel)⟩

/-! ### Lane instructions that reach their operation -/

/-- The run of a lane instruction from a state, if it reaches its operation. -/
def laneRun (s : State) (f : LaneForm) (ok : BitVec 5 → Bool) : Option LaneRun :=
  match s.current with
  | none => none
  | some (r, g, w0) =>
    let s' := fillReads s g r.wp w0 (f.mask w0) f.i
    let p := fillNamed s' g r.wp w0 (f.mask w0) f.i
    let w := p.1
    let off := f.codes.foldl (fun a k => a ||| (opdOf k).offLanes w (f.mask w)) 0
    let m := f.mask w &&& ~~~off
    match f.tag (w.switchOff off) m, consume (s'.setWarp r w) r (g.setWarp r.wp w) w (w.switchOff off) m f.streams with
    | .tag t, .ok s1 u sv recs =>
      if legal f.i && allocOk w0 f.i && flagChosen w0 f.i && p.2 && ok t && !anyUnset (w.switchOff off) f.streams then
        some ⟨s, s', r, g, w, m, t, s1, u, sv, recs⟩
      else none
    | _, _ => none

theorem laneRun_reaches {s : State} {f : LaneForm} {ok : BitVec 5 → Bool} {c : LaneRun} (h : laneRun s f ok = some c) :
    c.s₀ = s ∧ c.Reaches f ok := by
  unfold laneRun at h
  split at h
  · cases h
  · next r g w0 hc =>
    simp only at h
    split at h
    · next t s1 u sv recs ht hr =>
      split at h
      · next hb =>
        simp only [Bool.and_eq_true, Bool.not_eq_true'] at hb
        cases h
        exact ⟨rfl, ⟨⟨⟨w0, hc, by simp [hb.1.1.1.1.1, hb.1.1.1.1.2, hb.1.1.1.2], rfl, Prod.ext rfl hb.1.1.2⟩, rfl, ht, hb.1.2, hb.2⟩, hr⟩⟩
      · cases h
    · cases h

/-- Every listed form reaches its operation from a state, with what a clause asks of the run. -/
def AllReach (s : State) (ok : BitVec 5 → Bool) (q : LaneRun → Bool) (l : List LaneForm) : Prop :=
  ∀ f ∈ l, ∃ c : LaneRun, c.s₀ = s ∧ c.Reaches f ok ∧ q c = true

theorem allReach {s : State} {ok : BitVec 5 → Bool} {q : LaneRun → Bool} {l : List LaneForm}
    (h : l.all (fun f => (laneRun s f ok).any q) = true) : AllReach s ok q l := by
  intro f hf
  have hx := List.all_eq_true.mp h f hf
  cases hc : laneRun s f ok with
  | none => rw [hc] at hx; cases hx
  | some c =>
    rw [hc] at hx
    exact ⟨c, (laneRun_reaches hc).1, (laneRun_reaches hc).2, hx⟩

/-- A warp that is partly predicated, with its vector registers under one tag. -/
def lanesOf (t : BitVec 5) : State := demo (fun w => (withV t [1, 2, 3, 4] w).pset 1 0x80000001)

def noRecs (c : LaneRun) : Bool := c.recs.isEmpty

theorem test_hyp_LaneIntegers : AllReach (lanesOf 0x05) TagClass.I.has noRecs [form2 (.vaddRrr 4 1 2 1) 4 1 2 1,
    form2 (.vsubRrr 4 1 2 1) 4 1 2 1, form2 (.vmulRrr 4 1 2 1) 4 1 2 1, form2 (.vmulh 4 1 2 1) 4 1 2 1,
    form3 (.vmad 4 1 2 1) 4 1 2 1, form2 (.vaddsat 4 1 2 1) 4 1 2 1, form2 (.vsubsat 4 1 2 1) 4 1 2 1,
    form2 (.vmin 4 1 2 1) 4 1 2 1, form2 (.vmax 4 1 2 1) 4 1 2 1, form1 (.vabs 4 1 1) 4 1 1, form1 (.vneg 4 1 1) 4 1 1,
    form3 (.vamin 4 1 2 1) 4 1 2 1, form3 (.vamax 4 1 2 1) 4 1 2 1, form1 (.vaddRrs 4 1 63 1) 4 1 1,
    form1 (.vsubRrs 4 1 63 1) 4 1 1, form1 (.vmulRrs 4 1 63 1) 4 1 1] := allReach (by decide +kernel)

theorem test_hyp_LaneBitsAndShifts : AllReach (lanesOf 0x05) TagClass.B.has noRecs [form1 (.vbrev 4 1 1) 4 1 1,
    form2 (.vrol 4 1 2 1) 4 1 2 1, form1 (.vclz 4 1 1) 4 1 1, form1 (.vpopc 4 1 1) 4 1 1, form2 (.vshlRrr 4 1 2 1) 4 1 2 1,
    form2 (.vshrRrr 4 1 2 1) 4 1 2 1, form2 (.vsarRrr 4 1 2 1) 4 1 2 1, form1 (.vshlRrs 4 1 63 1) 4 1 1,
    form1 (.vshrRrs 4 1 63 1) 4 1 1, form1 (.vsarRrs 4 1 63 1) 4 1 1, form1 (.vbfx 4 1 63 1) 4 1 1, formD (.vbfi 4 1 63 1) 4 1 1] ∧
  AllReach (lanesOf 0) TagClass.A.has noRecs [form2 (.vandRrr 4 1 2 1) 4 1 2 1, form2 (.vorRrr 4 1 2 1) 4 1 2 1,
    form2 (.vxor 4 1 2 1) 4 1 2 1, form2 (.vandn 4 1 2 1) 4 1 2 1, form1 (.vnot 4 1 1) 4 1 1, form1 (.vandRrs 4 1 63 1) 4 1 1,
    form1 (.vorRrs 4 1 63 1) 4 1 1] := ⟨allReach (by decide +kernel), allReach (by decide +kernel)⟩

theorem test_hyp_LaneSelectsAndMoves :
  AllReach (lanesOf 0x05) TagClass.I.has noRecs ((List.range 6).flatMap (fun k => let cc := BitVec.ofNat 3 k
    [⟨.vcmp 7 0 cc 1 2 1, some 1, [1, 2], [1, 2], [1, 2], false⟩, ⟨.vcmp 7 1 cc 1 2 1, some 1, [1, 2], [1, 2], [1, 2], false⟩])) ∧
  AllReach (lanesOf 0x11) TagClass.A.has noRecs [⟨.vsel 4 1 2 1, none, [4, 1, 2], [1, 2], [1, 2], false⟩, form1 (.vmov 4 1 1) 4 1 1,
    form1 (.vtag 4 1 0x16 1) 4 1 1, form1 (.vunpk 4 1 7 1 1) 4 1 1,
    formD (.vpack 4 1 7 1 1) 4 1 1] ∧
  AllReach (lanesOf 0x05) TagClass.B.has noRecs [⟨.xset 3 1 1, some 1, [1], [1], [1], false⟩] ∧
  AllReach (lanesOf 0x05) (fun _ => true) noRecs [⟨.xadd 3 0 63 1, some 1, [], [], [], false⟩,
    ⟨.vmovs 4 0x11 63 1, some 1, [4], [], [], false⟩] :=
  ⟨allReach (by decide +kernel), allReach (by decide +kernel), allReach (by decide +kernel), allReach (by decide +kernel)⟩

/-- Why the tags or streams of a form do not fit: 1 its tags disagree, 2 a stream is unset, 3 it does not take the tag. -/
def misfit (s : State) (f : LaneForm) (ok : BitVec 5 → Bool) : Nat :=
  match s.current with
  | none => 0
  | some (r, g, w0) =>
    let p := fillNamed (fillReads s g r.wp w0 (f.mask w0) f.i) g r.wp w0 (f.mask w0) f.i
    let w := p.1
    let off := f.codes.foldl (fun a k => a ||| (opdOf k).offLanes w (f.mask w)) 0
    let u := w.switchOff off
    if !(legal f.i && allocOk w0 f.i && flagChosen w0 f.i && p.2) then 0
    else if anyUnset u f.streams then 2
    else match f.tag u (f.mask w &&& ~~~off) with
      | .fault => 1
      | .tag t => if ok t then 0 else 3
      | .undefined => 0

/-- Two registers of different tags. -/
def mixed : State := demo (fun w => (withV 0x05 [1, 2, 3] w).vset 2 ⟨0x06, []⟩)

/-- The forms on a direct register and a stream that is not set, and on v1 and v2. -/
def formsOn (a : BitVec 7) : List (LaneForm × (BitVec 5 → Bool)) := typedForms 3 a 2 1 2 3 0 0 0 0x13 0 1 0 0 0

theorem test_hyp_LaneDestinations : (formsOn 119).all (fun x => misfit mixed x.1 x.2 == 2) = true ∧
    (formsOn 1).all (fun x => !x.1.typed.contains 2 || misfit mixed x.1 x.2 == 1) = true ∧
    misfit (lanesOf 0x11) (form1 (.vaddRrs 3 1 63 0) 3 1 0) TagClass.I.has = 3 ∧
    misfit (lanesOf 0x05) (form1 (.vfneg 3 1 0) 3 1 0) TagClass.FA.has = 3 := by decide +kernel

def floatRun (c : LaneRun) : Bool := c.recs.isEmpty && (floatFmt c.t).isSome

theorem test_hyp_LaneFloats : AllReach (lanesOf 0x11) TagClass.F.has floatRun [form2 (.vfaddRrr 4 1 2 1) 4 1 2 1,
    form2 (.vfsub 4 1 2 1) 4 1 2 1, form2 (.vfmulRrr 4 1 2 1) 4 1 2 1, form3 (.vfma 4 1 2 1) 4 1 2 1,
    form2 (.vfmin 4 1 2 1) 4 1 2 1, form2 (.vfmax 4 1 2 1) 4 1 2 1, form1 (.vfaddRrs 4 1 63 1) 4 1 1,
    form1 (.vfmulRrs 4 1 63 1) 4 1 1] ∧
  AllReach (lanesOf 0x15) TagClass.FA.has floatRun ([form1 (.vfabs 4 1 1) 4 1 1, form1 (.vfneg 4 1 1) 4 1 1] ++
    (List.range 8).flatMap (fun k => let cc := BitVec.ofNat 3 k
      [⟨.vfcmp 7 0 cc 1 2 1, some 1, [1, 2], [1, 2], [1, 2], false⟩, ⟨.vfcmp 7 1 cc 1 2 1, some 1, [1, 2], [1, 2], [1, 2], false⟩])) :=
  ⟨allReach (by decide +kernel), allReach (by decide +kernel)⟩

theorem test_hyp_LaneSpecials : AllReach (lanesOf 0x11) specialClass.has floatRun [form1 (.vfrcp 4 1 1) 4 1 1,
    form1 (.vfrsq 4 1 1) 4 1 1, form1 (.vfex2 4 1 1) 4 1 1, form1 (.vflg2 4 1 1) 4 1 1, form1 (.vfsin 4 1 1) 4 1 1,
    form1 (.vfcos 4 1 1) 4 1 1] ∧
  AllReach (lanesOf 0x10) TagClass.F.has floatRun [form1 (.vfsqrt 4 1 1) 4 1 1] ∧
  AllReach (lanesOf 0x16) TagClass.FA.has floatRun [form1 (.vfclass 4 1 1) 4 1 1] ∧
  AllReach (lanesOf 0x11) (fun x => cvtsOk x 0x13) floatRun [form1 (.vcvts 4 1 0x13 1) 4 1 1] ∧
  AllReach (lanesOf 0x11) (fun x => (TagClass.I.has x || TagClass.FA.has x) && decide ((0x0A : BitVec 5) ≠ 0)) noRecs
    [form1 (.vcvt 4 1 0x0A 3 1) 4 1 1] :=
  ⟨allReach (by decide +kernel), allReach (by decide +kernel), allReach (by decide +kernel), allReach (by decide +kernel),
    allReach (by decide +kernel)⟩

theorem test_hyp_FloatValues : fmtBf16 ∈ [fmtF64, fmtF32, fmtF16, fmtBf16] ∧ floatFmt 0x12 = some fmtF16 ∧
    (0x7BFF < 2 ^ fmtF16.width) ∧ fdecode fmtF16 0x7BFF = .fin false 2047 5 ∧ fdecode fmtF16 1 = .fin false 1 (-24) := by
  decide +kernel

/-- In each executing lane the source index lies in the sub-group of width W and names an executing lane. -/
def goodFor (W : Nat) (idx : Nat → Nat) (edge : Nat → Bool) (c : LaneRun) : Bool :=
  noRecs c && (List.range 32).all (fun l => !c.m.getLsbD l || edge l || (decide (idx l < W) && c.m.getLsbD (W * (l / W) + idx l)))

theorem test_hyp_CrossMoves :
  AllReach (lanesOf 0x05) TagClass.A.has (goodFor 32 (fun _ => 0) (fun _ => false)) [formX (.vshuf 4 1 0 5 3) 4 1] ∧
  AllReach (lanesOf 0x05) TagClass.A.has (goodFor 32 (fun l => l ^^^ 31) (fun _ => false)) [formX (.vshufi 4 1 0 5 31) 4 1] ∧
  AllReach (lanesOf 0x05) TagClass.A.has (goodFor 16 (fun l => l % 16 - 15) (fun l => decide (l % 16 < 15)))
    [formX (.vlsh 4 1 0 4 0 15) 4 1] ∧
  AllReach (lanesOf 0x05) TagClass.A.has (goodFor 16 (fun l => l % 16 + 15) (fun l => decide (0 < l % 16)))
    [formX (.vlsh 4 1 0 4 1 15) 4 1] ∧
  AllReach (lanesOf 0x05) TagClass.A.has (goodFor 32 (fun _ => 31) (fun _ => false)) [formX (.vbcst 4 1 0 5 31) 4 1] ∧
  AllReach (lanesOf 0x05) TagClass.A.has noRecs [formX (.vbcst 4 1 0 4 16) 4 1, formX (.vshuf 4 1 1 5 3) 4 1,
    formX (.vshufi 4 1 1 4 16) 4 1, formX (.vlsh 4 1 1 5 0 1) 4 1, formX (.vlsh 4 1 1 5 1 1) 4 1, formX (.vbcst 4 1 1 4 16) 4 1] :=
  ⟨allReach (by decide +kernel), allReach (by decide +kernel), allReach (by decide +kernel), allReach (by decide +kernel),
    allReach (by decide +kernel), allReach (by decide +kernel)⟩

theorem test_hyp_Reductions :
  AllReach (lanesOf 0x06) TagClass.A.has noRecs [formX (.vsubel 4 1 31) 4 1] ∧
  AllReach (lanesOf 0) (fun _ => true) noRecs [⟨.vballot 4 5 1, none, [4], [], [], true⟩] ∧
  (∀ o ∈ (List.range 7).map (BitVec.ofNat 3), AllReach (lanesOf 0x06) (redClassOk (redOpOf o)) noRecs
    [formX (.vred 4 1 5 o) 4 1, formX (.vscan 4 1 5 1 o) 4 1, formX (.vscan 4 1 1 0 o) 4 1]) ∧
  AllReach (lanesOf 0x05) (cavClassOk (redOpOf 0)) noRecs [formX (.vcav 4 1 5 0) 4 1] ∧
  ((intFmt 0x0A).isSome = true ∧ (List.replicate 64 15).length ≤ 64 ∧ ∀ x ∈ List.replicate 64 15, x < 2 ^ fmtWidth 0x0A) :=
  ⟨allReach (by decide +kernel), allReach (by decide +kernel),
    fun o ho => allReach (List.all_eq_true.mp (by decide +kernel :
      ((List.range 7).map (BitVec.ofNat 3)).all (fun o => [formX (.vred 4 1 5 o) 4 1, formX (.vscan 4 1 5 1 o) 4 1,
        formX (.vscan 4 1 1 0 o) 4 1].all (fun f => (laneRun (lanesOf 0x06) f (redClassOk (redOpOf o))).any noRecs)) = true) o ho),
    allReach (by decide +kernel), by decide +kernel⟩

/-! ### Exchanges and memory -/

/-- Two workgroups of one launch on tiles 0 and 1, each of one warp; the second warp is g applied to a launched one. -/
def two (g : Warp → Warp) (f : Warp → Warp) : State :=
  let s := demo f
  { s with wgs := Table.set s.wgs 1 { placedGroup 1 false with wgix := 1, warps := [(0, g (Warp.launch 112 0x10000))] }, nextUid := 2 }

/-- What VXSWAP asks: whether the handle faults, and how the partner waits. -/
def swapCase (s : State) (fault : Bool) (p : Wait → Bool) : Cond := fun g w =>
  let wgix := (w.sget 2).toNat
  let word := w.sget 3
  exchangeFault (s.setWarp r0 w) r0 (g.setWarp 0 w) wgix word == fault && (opdOf 1).offLanes w w.active == 0 &&
    commonTag false [(opdOf 1).tag w w.active] == .tag 0x05 &&
    (fault || (match findPartner (s.setWarp r0 w) (g.setWarp 0 w) wgix with
      | some (u, h) => (match h.warp (fieldOf word 0 4) with
        | some x =>
          let q : WRef := ⟨u, fieldOf word 0 4⟩
          let t := (s.setWarp r0 w).setWarp r0 { w with c := { w.c with
            wait := .swap wgix q.wp w.active 0x05 (laneNums.map (fun l => (opdOf 1).val w [] l)) 4 false none } }
          p x.c.wait && g.live && h.live && !t.frozen q && !t.frozen r0 && (swapHeld t (dieOf h.tile) q x none).isNone &&
            (!(match x.c.wait with
              | .swap _ _ _ _ _ _ _ _ => true
              | _ => false) || swapLate t (dieOf h.tile) q 1 none == false && swapLate t (dieOf g.tile) r0 w.active none == false)
        | none => false)
      | none => false))

def swapHandle (wg word : Reg) (w : Warp) : Warp := withS [0, wg, word] (withV 0x05 [1, 2] w)
def posted (w : Warp) : Warp := { w with c := { w.c with wait := .swap 0 0 1 0x05 [] 1 false none } }

theorem test_hyp_Exchange : AllMet [
    (two id (swapHandle 1 0), .vxswap 4 1 0 2, swapCase (two id (swapHandle 1 0)) false (fun x => x == .none)),
    (two posted (swapHandle 1 0), .vxswap 4 1 0 2, swapCase (two posted (swapHandle 1 0)) false
      (fun x => x == .swap 0 0 1 0x05 [] 1 false none)),
    (two id (swapHandle 1 0x10), .vxswap 4 1 0 2, swapCase (two id (swapHandle 1 0x10)) true (fun _ => true)),
    (two id (swapHandle 0 0), .vxswap 4 1 0 2, swapCase (two id (swapHandle 0 0)) true (fun _ => true)),
    (two id (swapHandle 1 1), .vxswap 4 1 0 2, swapCase (two id (swapHandle 1 1)) true (fun _ => true)),
    (two id (swapHandle 2 0), .vxswap 4 1 0 2, swapCase (two id (swapHandle 2 0)) true (fun _ => true))] := allMet (by decide +kernel)

/-- The partner waits without a lane left, and its convoy has seen a re-evaluation in this tick. -/
def lastLane (cls : Nat) : State :=
  ((two (fun w => { (w.setCvm 0 true) with c := { w.c with wait := .swap 0 0 0 0x05 [] 1 false none } }) (swapHandle 1 0)).setConvoy 0 3
    { Convoy.reset with en := true, members := [⟨⟨1, 0⟩, 0, 0, false, 0, 0, 0, false, false, false, [], false⟩] }).noteConvoy 0 3 cls ⟨1, 0⟩

theorem test_hyp_Exchange_late : Meets (lastLane 3) (.vxswap 4 1 0 2) (swapCase (lastLane 3) false (fun x => x == .swap 0 0 0 0x05 [] 1 false none)) ∧
    swapLate (lastLane 3) 0 ⟨1, 0⟩ 0 none = true ∧ swapLate (lastLane 1) 0 ⟨1, 0⟩ 0 none = false :=
  ⟨meets (by decide +kernel), by decide +kernel, by decide +kernel⟩

theorem test_hyp_Exchange_partner : ((two posted id).wg 1).isSome = true ∧ ((two posted id).warp ⟨1, 0⟩).isSome = true := by
  decide +kernel

/-- A memory instruction of the lanes with the codes, base, scale, offset and data of a clause. -/
structure MemCase where
  i : Instr
  codes : List (BitVec 7)
  b : BitVec 7
  scale : Nat
  off : Int
  data : Warp → Mask → Bool
  a : Acc
  z : Nat

def memRun (s : State) (k : MemCase) : Option MemRun :=
  match s.current with
  | none => none
  | some (r, g, w0) =>
    let s' := fillReads s g r.wp w0 w0.active k.i
    let p := fillNamed s' g r.wp w0 w0.active k.i
    let w := p.1
    let lost := k.codes.foldl (fun a c => a ||| (opdOf c).offLanes w w.active) 0
    let m := w.active &&& ~~~lost
    let u := w.switchOff lost
    let addrs := (lanesIn m).map (fun l => (l, (opdOf k.b).base u l + k.off * k.scale))
    let c := checkAll (s'.setWarp r w) (g.setWarp r.wp w) u k.a k.z addrs
    if legal k.i && allocOk w0 k.i && flagChosen w0 k.i && p.2 &&
        (((opdOf k.b).tags u m).all (fun t => TagClass.B.has t) && k.data u m) then some ⟨s, s', r, g, w, u, m, addrs, c.1, c.2⟩
    else none

theorem memRun_reaches {s : State} {k : MemCase} {c : MemRun} (h : memRun s k = some c) :
    c.s₀ = s ∧ c.Reaches k.i k.codes k.b k.scale k.off k.data ∧
      checkAll (c.s.setWarp c.r c.w) c.wgp c.u k.a k.z c.addrs = (c.s1, c.cs) := by
  unfold memRun at h
  split at h
  · cases h
  · next r g w0 hc =>
    simp only at h
    split at h
    · next hb =>
      rw [Bool.and_eq_true, Bool.and_eq_true, Bool.and_eq_true] at hb
      cases h
      exact ⟨rfl, ⟨⟨w0, hc, by simp [hb.1.1.1, hb.1.1.2], rfl, Prod.ext rfl hb.1.2⟩, rfl, rfl, hb.2, rfl⟩, Prod.ext rfl rfl⟩
    · cases h

/-- Every listed case reaches its accesses, with what is asked of their checks. -/
def AllAccess (s : State) (q : MemRun → Bool) (l : List MemCase) : Prop :=
  ∀ k ∈ l, ∃ c : MemRun, c.s₀ = s ∧ c.Reaches k.i k.codes k.b k.scale k.off k.data ∧
    checkAll (c.s.setWarp c.r c.w) c.wgp c.u k.a k.z c.addrs = (c.s1, c.cs) ∧ q c = true

theorem allAccess {s : State} {q : MemRun → Bool} {l : List MemCase} (h : l.all (fun k => (memRun s k).any q) = true) :
    AllAccess s q l := by
  intro k hk
  have hx := List.all_eq_true.mp h k hk
  cases hc : memRun s k with
  | none => rw [hc] at hx; cases hx
  | some c =>
    rw [hc] at hx
    exact ⟨c, (memRun_reaches hc).1, (memRun_reaches hc).2.1, (memRun_reaches hc).2.2, hx⟩

/-- Two active lanes whose base addresses, in v1, are 0x20000, with v2 and v3 under a tag. -/
def twoLanes (t : BitVec 5) : State :=
  demo (fun w => { (withV t [0, 1, 2] w).vset 1 ⟨0x08, List.replicate 32 0x20000⟩ with c := { w.c with base := 0x80000001 } })

def storeOk (d : BitVec 7) (t : BitVec 5) : Warp → Mask → Bool := fun w m => dataTagOk w m (opdOf d) t true
def atomOk (d : BitVec 7) (t : BitVec 5) : Warp → Mask → Bool := fun w m => dataTagOk w m (opdOf d) t false
def casOk (d : BitVec 7) (t : BitVec 5) : Warp → Mask → Bool := fun w m => dataTagOk w m (opdOf d) t false &&
  (fmtWidth t == 32 || (w.vget (d.toNat + 1)).tag == t)
def anyData : Warp → Mask → Bool := fun _ _ => true
def present (c : MemRun) : Bool := (missPages c.cs).isEmpty && c.cs.all (fun y => match y.2.2 with | .ok _ => true | _ => false)
def missing (c : MemRun) : Bool := !(missPages c.cs).isEmpty

theorem test_hyp_LaneMemory :
  AllAccess (twoLanes 0x06) present [⟨.vld 2 1 0x06 0 0xF, [2, 1], 1, 4, -1, anyData, .load, 4⟩,
    ⟨.vst 2 1 0x06 0 7, [2, 1], 1, 4, 7, storeOk 2 0x06, .store, 4⟩, ⟨.vatom 2 1 0x06 0 9, [2, 1], 1, 4, 0, atomOk 2 0x06, .atomic, 4⟩,
    ⟨.vcas 2 1 0x06 0 8, [2, 1], 1, 4, -8, casOk 2 0x06, .atomic, 4⟩, ⟨.vprf 1 0 1, [1], 1, 128, 1, anyData, .load, 1⟩] ∧
  AllAccess (twoLanes 0x08) present [⟨.vcas 2 1 0x08 0 8, [2, 1], 1, 8, -8, casOk 2 0x08, .atomic, 8⟩] ∧
  AllAccess (unmapped (twoLanes 0x06)) missing [⟨.vld 2 1 0x06 0 0xF, [2, 1], 1, 4, -1, anyData, .load, 4⟩,
    ⟨.vst 2 1 0x06 0 7, [2, 1], 1, 4, 7, storeOk 2 0x06, .store, 4⟩, ⟨.vatom 2 1 0x06 0 9, [2, 1], 1, 4, 0, atomOk 2 0x06, .atomic, 4⟩,
    ⟨.vcas 2 1 0x06 0 8, [2, 1], 1, 4, -8, casOk 2 0x06, .atomic, 4⟩] ∧
  AllAccess (demo (withV 0x06 [4092, 1])) (fun _ => true) [⟨.vlds 2 1 0x06 0 0, [2, 1], 1, 4, 0, anyData, .load, 4⟩,
    ⟨.vlds 2 1 0x06 0 1, [2, 1], 1, 4, 1, anyData, .load, 4⟩, ⟨.vsts 2 1 0x06 0 0, [2, 1], 1, 4, 0, storeOk 2 0x06, .store, 4⟩,
    ⟨.vatoms 2 1 0x06 0 0, [2, 1], 1, 4, 0, atomOk 2 0x06, .atomic, 4⟩] :=
  ⟨allAccess (by decide +kernel), allAccess (by decide +kernel), allAccess (by decide +kernel), allAccess (by decide +kernel)⟩

/-- What the check of a uniform access answers. -/
def checksOk (s : State) (k : Acc) (addr : Int) (z : Nat) : Cond := fun g w =>
  match (checkAccess (s.setWarp r0 w) (g.setWarp 0 w) w k addr z).2 with
  | .ok _ => true
  | _ => false
def checksMiss (s : State) (k : Acc) (addr : Int) (z : Nat) : Cond := fun g w =>
  match (checkAccess (s.setWarp r0 w) (g.setWarp 0 w) w k addr z).2 with
  | .miss _ => true
  | _ => false
def checksBad (s : State) (k : Acc) (addr : Int) (z : Nat) : Cond := fun g w =>
  match (checkAccess (s.setWarp r0 w) (g.setWarp 0 w) w k addr z).2 with
  | .bad _ => true
  | _ => false

/-- s1 is an address and s2 a value. -/
def sAddr : State := demo (withS [0x20000, 7, 9])
def oddAddr : State := demo (withS [0x20001, 7, 9])

theorem test_hyp_UniformMemory : AllMet [(sAddr, .sld 3 1 0 3 0 0x7F, checksOk sAddr .load 0x203F8 8),
    (sAddr, .sld 3 1 0 0 1 0x80, checksOk sAddr .load 0x1FF80 1), (unmapped sAddr, .sld 3 1 0 3 0 0, checksMiss (unmapped sAddr) .load 0x20000 8),
    (demo id, .sld 3 1 0 3 0 0xFF, checksBad (demo id) .load (-8) 8), (sAddr, .sst 2 1 0 3 0, checksOk sAddr .store 0x20000 8),
    (sAddr, .satom 2 1 3 0 0, checksOk sAddr .atomic 0x20000 8), (sAddr, .satom 2 1 3 0 0xA, checksOk sAddr .atomic 0x20000 4),
    (sAddr, .satom 2 1 3 0 0xB, checksOk sAddr .atomic 0x20000 2), (sAddr, .scas 2 1 3 0, checksOk sAddr .atomic 0x20000 8),
    (unmapped sAddr, .sst 2 1 0 3 0, checksMiss (unmapped sAddr) .store 0x20000 8), (demo id, .sst 2 1 0 3 0xFF, checksBad (demo id) .store (-8) 8),
    (unmapped sAddr, .satom 2 1 3 0 0xA, checksMiss (unmapped sAddr) .atomic 0x20000 4), (oddAddr, .satom 2 1 3 0 0xB, checksBad oddAddr .atomic 0x20001 2),
    (unmapped sAddr, .scas 2 1 3 0, checksMiss (unmapped sAddr) .atomic 0x20000 8), (oddAddr, .scas 2 1 3 0, checksBad oddAddr .atomic 0x20001 8)] :=
  allMet (by decide +kernel)

/-- 64 walks of other pages run at the walker, of a machine where no range covers an address. -/
def crowded : State := (unmapped sAddr).setCluster 0 { (unmapped sAddr).cluster 0 with walks := (List.range 64).map (fun k => ⟨9, k, 1, 0⟩) }
/-- The page at 0x20000 is retired, and the context's caches were invalidated since. -/
def retiredPage : State := { sAddr with dev := { sAddr.dev with badPages := [0x20], unmapped := [(0, [0x20])] } }

theorem test_hyp_AccessChecks : checksBad sAddr .load (-1) 1 (placedGroup 0 false) (Warp.launch 112 0) = true ∧
    checksBad sAddr .load (2 ^ 48) 1 (placedGroup 0 false) (Warp.launch 112 0) = true ∧
    checksBad sAddr .load (2 ^ 48 - 1) 8 (placedGroup 0 false) (Warp.launch 112 0) = true ∧
    checksOk sAddr .load 0x3FFF8 8 (placedGroup 0 false) (Warp.launch 112 0) = true ∧
    walkHeld sAddr 0 0 0x20000 = false ∧ walkHeld crowded 0 0 0x20000 = true ∧ walkHeld (unmapped sAddr) 0 0 0x20000 = false ∧
    retiredPage.removed 0 0x20000 = true ∧ sAddr.removed 0 0x20000 = false ∧
    (match loadRanges sAddr 0 0 ((sAddr.slot 0).rtab * 2048) with | (_, some _) => true | _ => false) = true ∧
    (match loadRanges { sAddr with dev := { sAddr.dev with badLines := [16] } } 0 0 ((sAddr.slot 0).rtab * 2048) with
      | (_, none) => true | _ => false) = true ∧
    (findRange (tileRanges sAddr 0 (sAddr.slot 0).asid ((sAddr.slot 0).rtab * 2048)) (2 ^ 48 - 1) 0).isSome = true := by decide +kernel

/-- A line held with n ways of its set full, its first four bytes valid and dirty, for a context. -/
def heldLine (line asid : Nat) : Line := ⟨line, asid, 0, 0xF, 0xF, 0xAABBCCDD⟩
def holding (ls : List Line) : State := sAddr.setTile 0 { sAddr.tile 0 with lines := ls }
/-- The set of line 0x400 is full of other lines. -/
def fullSet : List Line := (List.range ((sAddr.tile 0).waysOf 0)).map (fun k => heldLine (0x440 + 64 * k) 0)

theorem test_hyp_LoadsAndStores : ((⟨0x2007C, 0, true⟩ : Xlated).direct = true) ∧ ((⟨0x2007C, 0, false⟩ : Xlated).direct = false) ∧
    0x2007C % 128 + 4 ≤ 128 ∧ 0 < (sAddr.tile 0).waysOf 0 ∧ sAddr.dev.badLines = [] ∧ Memory.wf sAddr.mem = true ∧
    ((holding fullSet).tile 0).line 0x400 = none ∧
    (((holding fullSet).tile 0).lines.filter (fun l => l.line % 64 == 0)).length = ((holding fullSet).tile 0).waysOf 0 ∧
    (∀ l ∈ fullSet.getLast?, ((holding fullSet).tile 0).line l.line = some l) ∧ fullSet.getLast?.isSome = true ∧
    ((holding [heldLine 0x400 0]).tile 0).line 0x400 = some (heldLine 0x400 0) ∧ spanMask 0 4 &&& ~~~(heldLine 0x400 0).valid = 0 ∧
    spanMask 4 4 &&& ~~~(heldLine 0x400 0).valid ≠ 0 ∧ ((holding [heldLine 0x400 9]).tile 0).line 0x400 = some (heldLine 0x400 9) := by decide +kernel

theorem test_hyp_AtomicOperations : 0 < 4 ∧ 15 < 2 ^ 4 ∧ (0xFFFFFFFFFFFFFFFF : Nat) < 2 ^ 64 := by decide

/-- The tile owes an acknowledgement, or the warp has a remote write outstanding. -/
def owing (s : State) : State := s.setTile 0 { s.tile 0 with unacked := [5] }
def remoteOne (w : Warp) : Warp := { w with remote := 1 }

theorem test_hyp_FencesAndLines : AllMet [(demo id, .fence 0 2, always), (demo id, .fence 2 0, always), (demo id, .fence 1 3, always),
    (owing (demo id), .fence 0 3, always), (demo remoteOne, .fence 2 6, fun _ w => w.remote == 1), (demo id, .fence 2 6, always)] ∧
    (((writeBackWhere (owing (demo id)) 0 (fun l => l.asid == 0)).tile 0).unacked ≠ []) ∧
    (((writeBackWhere (demo id) 0 (fun l => l.asid == 0)).tile 0).unacked = []) :=
  ⟨allMet (by decide +kernel), by decide +kernel, by decide +kernel⟩

/-- The one range entry has a shadow. -/
def shadowed (s : State) : State := { s with mem := s.mem.writeN 2048 32 (identityEntry + 2 ^ 6) }

/-- The one range entry leads into space 0x1 of device 5, and a request of the warp there has failed. -/
def farOff (f : Warp → Warp) : State :=
  let s := demo (fun w => withS [0x20000, 7, 9] (f w))
  { s with mem := s.mem.writeN 2048 32 (identityEntry + 2 ^ 108 * (2 ^ 36 + 5 * 2 ^ 26)), dev := { s.dev with pod := [5], ports := [0] } }
def refusedFar (w : Warp) : Warp := { w with farFails := [(32, 0x20000, 4)] }
def farCase (k : Acc) : Cond := fun g w =>
  match (checkAccess ((farOff refusedFar).setWarp r0 w) (g.setWarp 0 w) w k 0x20000 8).2 with
  | .ok y => w.farFault y 32 0x20000 == some 4
  | _ => false

theorem test_hyp_OrderingObjects : AllMet [(sAddr, .acq 2 1 0, checksOk sAddr .atomic 0x20000 8),
    (sAddr, .rel 2 1 2, checksOk sAddr .relObj 0x20000 8), (owing sAddr, .rel 2 1 3, checksOk (owing sAddr) .relObj 0x20000 8),
    (sAddr, .waitc 2 1, checksOk sAddr .waitObj 0x20000 8), (sAddr, .waitc 10 1, checksOk sAddr .waitObj 0x20000 8),
    (unmapped sAddr, .publish 2 1 2, always), (sAddr, .publish 2 1 0, always), (shadowed sAddr, .publish 2 1 0, always),
    (owing sAddr, .publish 2 1 3, always), (sAddr, .publish 2 1 6, fun _ w => w.remote == 0), (shadowed sAddr, .publish 2 1 5, always),
    (farOff refusedFar, .acq 2 1 0, farCase .atomic), (farOff refusedFar, .rel 2 1 0, farCase .relObj), (farOff refusedFar, .waitc 2 1, farCase .waitObj)] ∧
    findRange (rangeTable (unmapped sAddr) (5 * 2048)) 0x20000 0 = none ∧
    ((findRange (rangeTable sAddr 2048) 0x20000 0).map (fun x => rangeField x.2 6 1)) = some 0 ∧
    ((findRange (rangeTable (shadowed sAddr) 2048) 0x20000 0).map (fun x => rangeField x.2 6 1)) = some 1 :=
  ⟨allMet (by decide +kernel), by decide +kernel, by decide +kernel, by decide +kernel⟩

def waiting (x : Wait) (w : Warp) : Warp := { w with c := { w.c with wait := x } }

theorem test_hyp_OrderingObjects_waits :
    (∀ n ∈ [0, 1], ∃ w, (demo (waiting (.counter 0x20000 n))).warp r0 = some w ∧ w.c.wait = .counter 0x20000 n) ∧
    (demo (waiting (.counter 0x20000 0))).frozen r0 = false ∧ (chanObject (demo id) 0 0x20000).2 = (0, false) ∧
    (∃ w, (shadowed (demo (waiting (.publish 0x20000 2 0)))).warp r0 = some w ∧ w.c.wait = .publish 0x20000 2 0) ∧
    publishBefore (shadowed (demo (waiting (.publish 0x20000 2 0)))) 0 0 0 = false ∧
    walkHeld (demo (waiting (.counter 0x20000 0))) 0 0 0x20000 = false ∧ walkHeld crowded 0 0 0x20000 = true := by
  refine ⟨?_, by decide +kernel, by decide +kernel, ⟨_, rfl, by decide +kernel⟩, by decide +kernel, by decide +kernel, by decide +kernel⟩
  intro n hn
  simp only [List.mem_cons, List.not_mem_nil, or_false] at hn
  rcases hn with rfl | rfl
  · exact ⟨_, rfl, by decide +kernel⟩
  · exact ⟨_, rfl, by decide +kernel⟩

/-- The words of a stream of n32, one run of 32 elements from 0x20000. -/
def streamWords : List Reg := [0x0006000000020000, 0x0000000100000020, 4, 0]

theorem test_hyp_StreamRegisters : AllMet [(demo (withS streamWords), .stset 1 0, fun _ w => (w.sget 1) == 0x0006000000020000),
    (demo (withS [0x0006000000020000, 0x20]), .stset 1 7, fun _ w => fieldOf (w.sget 2) 32 32 == 0),
    (demo (withS [0xFFFFFFFF]), .stpos 1 0, fun _ w => w.sp.cvm.getLsbD 0 == false),
    (demo (withS [0x1FFFFFFFF]), .stskip 1 0, fun _ w => w.sp.cvm.getLsbD 0 == false), (demo id, .stsave 2 0 0, always),
    (demo id, .stsave 2 1 0, always), (demo id, .stsave 2 2 0, always), (demo id, .stsave 2 3 0, always),
    (demo id, .stsave 2 4 7, always)] := allMet (by decide +kernel)

theorem test_hyp_GroupRegisters : AllIssue (demo (withS [5])) [.grd 2 15, .gwr 1 15, .gatom 2 0 1 0, .gatom 2 0 1 0xA,
    .gatom 2 0 1 0xB] := allIssue (by decide +kernel)

/-- Pipe 5 of cluster 0 enabled with a quota of 2 and the entries given; q1 of the warp is bound to it. -/
def piped (es : List PipeEntry) (f : Warp → Warp) : State :=
  (demo (fun w => { f w with r := { (f w).r with q := [(1, some 5)] } })).setPipe 0 5 { Pipe.reset with quota := 2, en := true, entries := es }

theorem test_hyp_PipeAccess :
    AllMet [(piped [] (withS [5]), .qbind 1 1, fun _ w => !(w.sget 1).getLsbD 6),
      (piped [] (withS [6]), .qbind 1 1, fun _ w => !(w.sget 1).getLsbD 6), (piped [] (withS [0x40]), .qbind 1 1, fun _ w => (w.sget 1).getLsbD 6),
      (piped [] id, .qpush 1 1, fun _ w => w.queue 1 == some 5), (piped [] id, .qpushv 1 1 1, fun _ w => w.queue 1 == some 5),
      (piped [] id, .qpushv 1 2 1, fun _ w => w.queue 1 == some 5), (piped [⟨7, true, none⟩] id, .qpop 2 1, fun _ w => w.queue 1 == some 5),
      (piped [⟨7, false, none⟩] id, .qpop 2 1, fun _ w => w.queue 1 == some 5), (piped [⟨7, true, none⟩] id, .qtry 2 1, fun _ w => w.queue 1 == some 5),
      (piped [] id, .qtry 2 1, fun _ w => w.queue 1 == some 5), (piped [] id, .qlen 2 1, fun _ w => w.queue 1 == some 5),
      (piped [⟨7, true, none⟩] (withS [5]), .qsteal 2 1, always), (piped [] (withS [5]), .qsteal 2 1, always),
      (piped [] (withS [6]), .qsteal 2 1, always), (demo id, .qpush 1 1, fun _ w => w.queue 1 == none),
      (demo id, .qpushv 1 0 1, fun _ w => w.queue 1 == none), (demo id, .qpop 2 1, fun _ w => w.queue 1 == none),
      (demo id, .qtry 2 1, fun _ w => w.queue 1 == none), (demo id, .qlen 2 1, fun _ w => w.queue 1 == none)] ∧
    ((piped [] id).pipe 0 5).en = true ∧ ((piped [] id).pipe 0 5).asid = (piped [] id).asidOf (placedGroup 0 false) ∧
    ((piped [] id).pipe 0 6).en = false ∧ ((piped [⟨7, true, none⟩] id).pipe 0 5).entries = [⟨7, true, none⟩] ∧ poppers (piped [] id) 0 5 = [] ∧
    ((piped [] id).pipe 0 5).spilled = [] ∧ ((piped [] id).pipe 0 5).entries.length < 256 ∧
    256 ≤ ((piped (List.replicate 256 ⟨7, true, none⟩) id).pipe 0 5).entries.length :=
  ⟨allMet (by decide +kernel), by decide +kernel, by decide +kernel, by decide +kernel, by decide +kernel, by decide +kernel,
    by decide +kernel, by decide +kernel, by decide +kernel⟩

/-- A pipe that is full on chip and has a ring of one page, which lies on lines that fail or not. -/
def spilling (bad : Bool) : State :=
  let s := piped (List.replicate 256 ⟨7, true, none⟩) id
  let s := s.setPipe 0 5 { s.pipe 0 5 with quota := 300, ring := 0x90 }
  if bad then { s with dev := { s.dev with badLines := [0x90000 / 128] } } else s

theorem test_hyp_PipeAccess_spills : ((spilling false).pipe 0 5).places 1 = [0] ∧
    256 ≤ ((spilling false).pipe 0 5).entries.length ∧ ((spilling false).pipe 0 5).ringAddr 0 / 128 ∉ (spilling false).dev.badLines ∧
    ((spilling true).pipe 0 5).ringAddr 0 / 128 ∈ (spilling true).dev.badLines ∧ poppers (spilling false) 0 5 = [] ∧
    ((spilling false).pipe 0 5).spilled = [] ∧ (spilling false).mem.wf = true := by decide +kernel

/-! ### Barriers, convoys, system instructions, exceptions -/

/-- The scratchpad of the workgroup holds a barrier object. -/
def barrier (off : Nat) (b : TBar) (s : State) : State :=
  s.updWg 0 (fun g => { g with sp := Memory.writeN g.sp off 16 (tbarBits b) })

/-- The workgroup and a sibling on tile 1 form a gang. -/
def ganged (f : Warp → Warp) : State :=
  let s := two id f
  { s with wgs := s.wgs.map (fun g => (g.1, { g.2 with gang := [0, 1], gangLaunch := true, gangix := g.1 })) }

def oneLeft : TBar := ⟨3, 0, 1, 2, 0, 0, 0, 0⟩
def spent : TBar := ⟨3, 0, 0, 2, 5, 0, 0, 0⟩
def tbAt (p : TBar → Bool) (off : Nat) : Cond := fun g w => p (tbarAt (g.setWarp 0 w) off)
def soundB (b : TBar) : Bool := b.zero == 0 && b.init != 0 && b.rest == 0

theorem test_hyp_Barriers :
    AllMet [(demo (withS [4080, 1]), .tbinit 2 1, always), (demo (withS [0, 0xFFFFFF]), .tbinit 2 1, always),
      (demo (withS [4096, 1]), .tbinit 2 1, always), (demo (withS [8, 1]), .tbinit 2 1, always),
      (demo (withS [0, 0]), .tbinit 2 1, always), (demo (withS [0, 0x1000000]), .tbinit 2 1, always),
      (barrier 4080 oneLeft (demo (withS [4080, 0xFFFFFFFF])), .tbexp 2 1 1 0 0, tbAt (fun b => soundB b && b.pend == 1) 4080),
      (barrier 0 spent (demo (withS [0, 1])), .tbexp 2 1 0 0 0, tbAt (fun b => soundB b && b.pend == 0) 0),
      (barrier 0 spent (demo (withS [0, 1])), .tbexp 2 1 1 0 0, tbAt (fun b => b.pend == 0) 0),
      (demo (withS [0, 1]), .tbexp 2 1 0 0 0, tbAt (fun b => !soundB b) 0),
      (barrier 0 oneLeft (demo (withS [0, 0x100000000])), .tbexp 2 1 0 0 0, always),
      (barrier 0 oneLeft (demo (withS [0])), .tbarr 2 1 0 0, tbAt (fun b => soundB b && b.pend == 1) 0),
      (barrier 0 spent (demo (withS [0])), .tbarr 2 1 0 0, tbAt (fun b => b.pend == 0) 0),
      (demo (withS [0]), .tbarr 2 1 0 0, tbAt (fun b => !soundB b) 0), (demo id, .tbexp 2 1 0 1 1, fun g _ => !g.gangLaunch),
      (demo id, .tbarr 2 1 1 1, fun g _ => !g.gangLaunch),
      (ganged (withS [0, 1]), .tbexp 2 1 0 1 1, fun g _ => g.gangLaunch && g.gang[1]? == some 1),
      (ganged (withS [0]), .tbarr 2 1 1 1, fun g _ => g.gangLaunch && g.gang[1]? == some 1),
      (barrier 0 oneLeft (demo (withS [0, 2])), .tbwait 2 1, tbAt (fun b => soundB b && b.phase != 2) 0),
      (barrier 0 oneLeft (demo (withS [0, 3])), .tbwait 2 1, tbAt (fun b => soundB b && b.phase == 3) 0),
      (demo (withS [0, 3]), .tbwait 2 1, tbAt (fun b => !soundB b) 0)] ∧
    ((barrier 0 oneLeft (ganged id)).wg 1).isSome = true ∧
    (tbWaiters (barrier 0 oneLeft (demo (waiting (.tb 0 2 0)))) 0 0).map (·.r) = [r0] ∧
    tbWaiters (barrier 0 oneLeft (demo (waiting (.tb 0 3 0)))) 0 0 = [] := by
  exact ⟨allMet (by decide +kernel), by decide +kernel, by decide +kernel, by decide +kernel⟩

/-- Whether everybody has arrived, and whether the releases are acknowledged, when the warp arrives. -/
def arriving (s : State) (gang all acked : Bool) : Cond := fun g w =>
  let t := waitAt (s.setWarp r0 w) r0 w (.bar gang)
  let us := if gang && g.gangLaunch then g.gang else [0]
  allArrived t us gang (if gang then w.gbars else w.bars) == all && (meetingSends t us gang).2 == acked

theorem test_hyp_Meetings :
    AllMet [(demo id, .bar, arriving (demo id) false true true), (demo id, .gbar, arriving (demo id) true true true),
      (ganged id, .gbar, arriving (ganged id) true false true), (two id id, .bar, arriving (two id id) false true true)] ∧
    ((demo (waiting (.bar false))).wg 0).map (fun h => (h.warps.filterMap (fun x =>
      if x.2.c.wait = .bar false then some (x.2.meetings false) else none)).eraseDups) = some [0] ∧
    allArrived (demo id) [0] false 0 = false := ⟨allMet (by decide +kernel), by decide +kernel, by decide +kernel⟩

/-- An acknowledgement that is missing when the last of a gang arrives. -/
def gangOwing : State :=
  let s := ganged id
  { s with tiles := Table.set s.tiles 1 { Tile.reset with unacked := [5] } }.updWarp ⟨1, 0⟩ (waiting (.bar true))

theorem test_hyp_Meetings_unacked : Meets gangOwing .gbar (arriving gangOwing true true false) := meets (by decide +kernel)

/-- Convoy slot 3 of die 0 with its members, and st0 of the warp set. -/
def convoyed (ms : List Member) (f : Warp → Warp) : State :=
  (demo (fun w => withS [3] ((f w).setStream 0 ⟨0x20000, 0x0000000100000020, 4, 0, 0, []⟩))).setConvoy 0 3
    { Convoy.reset with en := true, base := 0x20000, istride := 4, members := ms }

def other : Member := ⟨⟨7, 0⟩, 0, 0, false, 0, 0, 0, false, false, false, [], false⟩
def ofKey (t : Nat) (s : State) : State := s.setConvoy 0 3 { s.convoy 0 3 with tag := BitVec.ofNat 5 t }

theorem test_hyp_ConvoyMembership :
    AllMet [(demo (withS [256]), .cvjoin 4 1 0, always), (demo (withS [3]), .cvrejoin 4 1 0, always),
      (convoyed [] id, .cvjoin 4 1 1, fun _ w => (w.stream 1).icount == 0),
      (convoyed [] (fun w => w.setCvm 0 true), .cvjoin 4 1 0, fun _ w => w.sp.cvm.getLsbD 0 && (w.stream 0).icount != 0),
      (convoyed [] id, .cvjoin 4 1 0, fun _ w => (w.stream 0).icount != 0), (convoyed [] id, .cvrejoin 4 1 0, always),
      (ofKey 6 (convoyed [other] id), .cvjoin 4 1 0, fun _ w => (w.stream 0).tag == 0),
      (convoyed (List.replicate 64 other) id, .cvrejoin 4 1 0, always), (convoyed [other] id, .cvjoin 4 1 0, always),
      (convoyed (List.replicate 63 other) id, .cvjoin 4 1 0, always),
      (convoyed [{ other with pos := 8 }] id, .cvrejoin 4 1 0, fun _ w => (w.stream 0).pos + w.sp.cvslip.toNat == 8),
      (convoyed [{ other with pos := 9 }] id, .cvrejoin 4 1 0, fun _ w => (w.stream 0).pos + w.sp.cvslip.toNat < 9),
      (demo id, .cvleave 4 0, fun _ w => !w.sp.cvm.getLsbD 0), (demo (fun w => w.setCvm 7 true), .cvleave 4 7, fun _ w => w.sp.cvm.getLsbD 7),
      (demo (withS [64]), .cvslip 4 1, always), (demo (withS [65]), .cvslip 4 1, always), (demo id, .cvslip 4 1, always),
      (demo (withS [0xFFFF0001]), .cvslip 4 1, always), (demo (withS [0x81]), .cvslip 4 1, always)] ∧
    heldBy (convoyed [{ other with w := r0, held := true }] (waiting (.hold 3 0))) 0 3 = [{ other with w := r0, held := true }] ∧
    heldBy (convoyed [{ other with w := r0, held := true, limit := 1 }] (waiting (.hold 3 0))) 0 3 =
      [{ other with w := r0, held := true, limit := 1 }] ∧
    slipAllows (convoyed [] id) 0 r0 (Warp.launch 112 0) 0 = true ∧
    (BitVec.getLsbD (0x800000000000 : BitVec 64) 47) = true :=
  ⟨allMet (by decide +kernel), by decide +kernel, by decide +kernel, by decide +kernel, by decide +kernel⟩

/-- The warp is a member that has been held since tick 0, with n ticks of patience. -/
def heldMember (n : Nat) : State :=
  convoyed [{ other with w := r0, held := true, limit := n }] (fun w => waiting (.hold 3 0) (w.setCvm 0 true))

theorem test_hyp_ConvoyMembership_patience : ∀ n ∈ [0, 1], ((heldMember n).warp r0).map (fun w => (w.c.wait, w.memberStreams)) =
      some (.hold 3 0, [0]) ∧ ((heldMember n).member 0 r0 0).map (fun x => (x.1, x.2.2.held, x.2.2.hstart + x.2.2.limit)) =
      some (3, true, n) ∧ ((heldMember n).die 0).tick = 0 ∧ stalledMembers ((heldMember n).convoy 0 3) 0 = [] := by decide +kernel

theorem test_hyp_System :
    AllMet [(demo id, .srdV 47 1 0, always), (demo id, .srdV 0 0 0x1A, always), (demo (withS [0xFF]), .swr 1 0x0B, always),
      (demo (withS [0x7FFF]), .swr 1 0x0D, fun _ w => !(w.sget 1).getLsbD 63), (demo (withS [minS]), .swr 1 0x0D, always),
      (demo (withS [64]), .swr 1 0x0F, always), (demo (withS [65]), .swr 1 0x0F, always), (demo id, .swr 1 0x0F, always),
      (demo (withS [0xFFFF]), .swr 1 0x10, always), (demo (withS [0x10000]), .swr 1 0x10, always), (demo id, .swr 1 0x10, always),
      (demo id, .swr 1 0x15, always), (demo (withS [0xFFFFFFFFFFFC]), .swr 1 0x17, always), (demo (withS [2]), .swr 1 0x17, always),
      (demo (withS [4]), .swr 1 0x18, always), (demo (withS [0x1000000000000]), .swr 1 0x18, always), (demo (withS [4]), .swr 1 0x19, always),
      (demo (withS [1]), .swr 1 0x19, always), (demo (withS [4]), .swr 1 0x1A, always), (demo (withS [3]), .swr 1 0x1A, always),
      (demo id, .region 1 0x800, always), (demo (withS [0x100000000]), .sleep 1, always), (demo (withS [0xFFFFFFFF]), .sleep 1, always),
      (demo (withS [15]), .setperf 4 1, fun g _ => levelVoltage (min 15 ((demo id).slot g.slot).cap) ≥ 550),
      (demo (withS [16]), .setperf 4 1, always), (demo id, .setperf 4 1, always)] ∧
    (∀ t ∈ [0, 1], ((demo (waiting (.sleep t))).warp r0).map (·.c.wait) = some (.sleep t)) ∧
    levelVoltage 0 < (((demo id).setPair 0 { Pair.reset with pfloor := 810 }).pair 0).pfloor ∧
    ¬ levelVoltage 0 < ((demo id).pair 0).pfloor := ⟨allMet (by decide +kernel), by decide +kernel, by decide +kernel, by decide +kernel⟩

def handling (k : Nat) (w : Warp) : Warp := { w with c := { w.c with handler := some k } }
def debugged (s : State) : State := s.setSlot 0 { s.slot 0 with dbg := true }
def aRec : FaultRec := ⟨3, 0x20000, 0x10000, 0x0FFFC, 1, 0, 4, 0⟩

theorem test_hyp_Traps :
    AllMet [(demo id, .trap 255, fun _ w => w.c.handler == none && w.c.recs == [] && !w.c.sigdone && w.c.entry == none && !w.matParked), (demo (handling 0), .tret, last),
      (demo (handling 3), .tret, last), (demo id, .tret, fun _ w => w.c.handler == none && w.c.pos.idx == w.c.pos.cl.len), (demo (fun w => mid (handling 0 w)), .tret, notLast),
      (demo (handling 3), .sigdone, fun _ w => w.c.handler == some 3), (demo (handling 2), .sigdone, fun _ w => w.c.handler != some 3),
      (demo id, .bkpt 255, fun g _ => !((demo id).slot g.slot).dbg), (debugged (demo id), .bkpt 0, fun g _ => ((debugged (demo id)).slot g.slot).dbg)] ∧
    (∀ f ∈ [(fun w : Warp => { w with c := { w.c with recs := [aRec] } }), (fun w => { w with c := { w.c with trapNo := some 5 } }),
        (fun w => { w with c := { w.c with cancelReq := true } }), (fun w => { w with c := { w.c with preReq := true } }), id, waiting (.park [])],
      ((demo f).warp r0).map (fun x => (x.c.handler, x.c.ended, x.c.sigdone, x.mat)) = some (none, false, false, none)) := by
  refine ⟨allMet (by decide +kernel), fun f hf => ?_⟩
  simp only [List.mem_cons, List.not_mem_nil, or_false] at hf
  rcases hf with rfl | rfl | rfl | rfl | rfl | rfl <;> decide +kernel

/-- The four vectors. -/
def vectors (w : Warp) : Warp :=
  { w with sp := { w.sp with hvFault := 0x30000, hvCancel := 0x30004, hvPreempt := 0x30008, hvTrap := 0x3000C } }

/-- What taking an exception asks of a state, and which page misses or how the frame and the records are stored. -/
def entryCase (s : State) (code : Nat) (recs : List FaultRec) (misses : Bool) (stored : HwRes) : Bool :=
  match s.wg 0, s.warp r0 with
  | some g, some w =>
    let k := vectorOf code
    let x := if k = 1 ∨ k = 2 then w else w.dropPrefetch
    let g1 := g.setWarp 0 x
    let s2 := unhold (s.setWarp r0 x) (g.tile / 128) r0
    let s3 := if k = 3 then detachAll s2 (g.tile / 128) r0 else s2
    g.status == .resident && w.c.pos.mode != .fell && w.mat == none && w.nones == [] && w.farFails == [] && w.c.handler == none &&
      !w.r.sAbsent && !(areaMiss s2 g1 0 x .store).2.isEmpty == misses && (s3.warp r0).isSome &&
      (misses || (hwStores s3 g1 g.area (handlerFrame x k 1 0 0 ++ recs.flatMap recordStores)).2 == stored)
  | _, _ => false

/-- The line of the range table's first entries has failed. -/
def lostTable (s : State) : State := { s with dev := { s.dev with badLines := [16] } }

theorem test_hyp_Exceptions : entryCase (demo vectors) 1 [] false .ok = true ∧ entryCase (demo vectors) 0x20 [] false .ok = true ∧
    entryCase (demo vectors) 0x30 [] false .ok = true ∧ entryCase (demo vectors) 0x10 [aRec, { aRec with lane := 32 }] false .ok = true ∧
    entryCase (demo (fun w => (vectors w).setCvm 0 true)) 0x40 [] false .ok = true ∧
    entryCase (unmapped (demo vectors)) 0x10 [aRec] true .ok = true ∧ entryCase (lostTable (demo vectors)) 1 [] false .fault = true ∧
    ((demo vectors).warp r0).map (fun w => (w.sp.hvFault, w.sp.hvCancel, w.sp.hvTrap, w.sp.hvPreempt)) = some (0x30000, 0x30004, 0x3000C, 0x30008) ∧
    ((demo id).warp r0).map (fun w => (w.sp.hvFault, w.sp.hvTrap, w.sp.hvCancel, w.sp.hvPreempt)) = some (0, 0, 0, 0) ∧
    [2, 3].map (fun k => ((demo (handling k)).warp r0).map (·.c.handler)) = [some (some 2), some (some 3)] := by decide +kernel

/-- The frame of a handler that was entered at index 7 with an empty stack, as words. -/
def frameWords : List Reg := [1, 0x0FFFC, 7] ++ List.replicate 93 0

theorem test_hyp_Exceptions_return :
    (restoreFrame (Warp.launch 112 0) frameWords).map (fun u => (u.c.pos.idx, decide (u.active ≠ 0))) = some (7, true) ∧
    restoreFrame (Warp.launch 112 0) [1, 0x0FFFC, 8] = none ∧ restoreFrame (Warp.launch 112 0) [1, 0x0FFFC, 0x2100FF] = none ∧
    restoreFrame (Warp.launch 112 0) [1, 0x0FFFC, 0x40000FF] = none ∧
    ((demo id).wg 0).map (fun g => (hwLoadWords (demo id) g g.area 96).2.2) = some .ok ∧
    ((demo id).wg 0).map (fun g => (areaMiss (demo id) g 0 (Warp.launch 112 0) .load).2) = some [] ∧
    ((unmapped (demo id)).wg 0).map (fun g => (areaMiss (unmapped (demo id)) g 0 (Warp.launch 112 0) .load).2) = some [0x100] ∧
    ((lostTable (demo id)).wg 0).map (fun g => ((areaMiss (lostTable (demo id)) g 0 (Warp.launch 112 0) .load).2,
      (hwLoadWords (lostTable (demo id)) g g.area 96).2.2)) = some ([], .fault) := by decide +kernel

def knownFault (w : Warp) : Warp := { w with c := { w.c with recs := [aRec] } }

/-- The warp waits for the pages of an entry, or has been given them. -/
def entering (x : Wait) (w : Warp) : Warp := { w with c := { w.c with entry := some ⟨1, 0, [], none⟩, wait := x } }

theorem test_hyp_Traps_parked : ((demo (waiting (.park [5]))).warp r0).map (fun x => (x.parked, x.c.cancelReq, x.c.preReq)) = some (true, false, false) ∧
    ((demo (entering .none)).warp r0).map (fun x => (x.parked, x.c.entry.isSome, x.c.handler, x.c.ended, x.c.sigdone)) =
      some (false, true, none, false, false) ∧
    ((demo knownFault).warp r0).map (fun x => (x.parked, x.c.entry)) = some (false, none) := by decide +kernel

theorem test_hyp_LastOrTraps : Current (demo mid) notLast := current (by decide +kernel)

/-! ### Matrix products, accesses in flight, copies -/

/-- The record of a product of s8 matrices of depth 16 in s1 to s4, a team word of one block, and accumulators under a tag. -/
def matWarp (k : Reg) (t : BitVec 5) (w : Warp) : Warp :=
  let w := withS [0x20000, 0x30000, 0x1000000010, 0x210000 + k, 0] w
  { w with r := { w.r with v := (List.range 64).map (fun n => (n, ⟨t, []⟩)) } }

/-- Whether the record is bad, and whether the accumulators carry its tag. -/
def matCase (team : Bool) (n : Nat) (bad tagged : Bool) : Cond := fun g w =>
  matrixBad (g.setWarp 0 w) w team 1 n (w.pget 0) == bad && accTagged w 0 n (recordWords w 1 (recordLen w team 1)) == tagged

/-- Whether an arrival at a team cannot join. -/
def lateCase (s : State) (late : Bool) : Cond := fun g w =>
  arrivalBad (s.setWarp r0 w) (g.setWarp 0 w) (openTeam (s.setWarp r0 w) 0 g.gang 0) (recordWords w 1 (recordLen w true 1)) == late

theorem test_hyp_MatrixStarts :
    AllMet [(demo (matWarp 16 0x05), .mma 0 1 0 0 2, matCase false 64 false true),
      (demo (matWarp 8 0x05), .mma 0 1 0 0 0, matCase false 16 true true),
      (demo (matWarp 16 0x11), .mma 0 1 1 0 1, matCase false 32 false false),
      (ganged (matWarp 16 0x05), .mmt 0 1 0 0 0, matCase true 64 false true),
      (ganged (matWarp 16 0x11), .mmt 0 1 0 0 0, matCase true 64 false false),
      (demo (matWarp 16 0x05), .mmt 0 1 0 0 0, matCase true 64 false true), (demo id, .mmt 0 60 0 0 3, always),
      (demo id, .mzero 48 2 1, always), (demo id, .mzero 0 0 0, always), (demo (withS [0x7FC00000]), .mscale 2 1 0, always)] ∧
    AllMet [(ganged (matWarp 16 0x05), .mmt 0 1 0 0 0, lateCase (ganged (matWarp 16 0x05)) false),
      (demo (matWarp 16 0x05), .mmt 0 1 0 0 0, lateCase (demo (matWarp 16 0x05)) true)] :=
  ⟨allMet (by decide +kernel), allMet (by decide +kernel)⟩

/-- The warp has an operation outstanding on flag 1. -/
def outst (recs far : List FaultRec) (w : Warp) : Warp :=
  { w with outs := [⟨0, 1, [], [], recs, false, false, none, far, [], []⟩], nextOp := 1, r := { w.r with flags := [(1, 1)] } }

/-- The warp runs a product, first in its tile's engine, of which nothing has been done. -/
def multiplying : State :=
  let s := demo (matWarp 16 0x05)
  match exec (.mma 0 1 0 0 0) s with
  | .next t => t
  | _ => s

theorem test_hyp_OutstandingAccesses :
    ((demo (outst [] [])).warp r0).map (fun w => (w.outs.length, w.mat)) = some (1, none) ∧
    ((demo (outst [aRec] [])).warp r0).map (fun w => (w.outs.map (·.recs), w.c.handler)) = some ([[aRec]], none) ∧
    ((demo (outst [] [aRec])).warp r0).map (fun w => (w.outs.find? (fun o => (o.farRecord 3 0x20000).isSome)).isSome) = some true ∧
    ((demo (fun w => waiting .remote (remoteOne w))).warp r0).map (fun w => (w.remote, w.c.wait)) = some (1, .remote) ∧
    ((owing (demo (waiting .remote))).tile 0).unacked.erase 5 = [] ∧
    ((multiplying.warp r0).any (fun w => w.mat.any (fun m => m.team == none && m.tags == [] && !(blocksLeft m.mask w.sp.mrow).isEmpty))) =
      true ∧
    multiplying.swapping 0 = false ∧ (multiplying.tile 0).engine.head? = some (.mma r0) :=
  ⟨by decide +kernel, by decide +kernel, by decide +kernel, by decide +kernel, by decide +kernel, by decide +kernel,
    by decide +kernel, by decide +kernel⟩

/-- What fetching the blocks of the first row block comes to: 0 all there, 1 a fault, 2 a miss. -/
def fetchRowBlock (s : State) : Nat :=
  match s.wg 0, s.warp r0 with
  | some g, some w => match w.mat with
    | some m => match blocksLeft m.mask w.sp.mrow with
      | rb :: _ =>
        let rows := rowsOf m.mask rb
        let cols := span 0 m.n
        let kb := mrowK w.sp.mrow
        match fetchBlocks s g { w with nones := m.nones } (blockFetches false m.words kb (neededRows m.words rows cols)
            (neededCols m.words rows cols)) with
        | .ok _ _ => 0
        | .bad _ _ _ _ => 1
        | .miss _ _ => 2
      | [] => 3
    | none => 3
  | _, _ => 3

def refuseAll (s : State) : State := s.updWarp r0 (fun w => { w with mat := w.mat.map (fun m => { m with nones := [0x20, 0x30] }) })

theorem test_hyp_OutstandingAccesses_blocks : [fetchRowBlock multiplying, fetchRowBlock (refuseAll (unmapped multiplying)),
    fetchRowBlock (unmapped multiplying)] = [0, 1, 2] := by decide +kernel

/-- The warp is not the producer of its workgroup. -/
def notProducer (s : State) : State := s.updWg 0 (fun g => { g with producer := 1 })

/-- A shape record of a group of one at 0x20000 (all zeros but for what the memory below holds), its group table at 0x30000. -/
def callMem (count : Nat) (s : State) : State := { s with mem := (s.mem.writeN 0x30000 8 (2 ^ 32 * count)).writeN 0x38000 8 (2 ^ 59 * 31) }

def copyRec : List Reg := [0x40000, 0x20000, 32]

/-- Whether a copy of the record in s1 on is bad, and its length zero. -/
def copyCase (s : State) (kind : CopyKind) (k : Nat) (bv : Bool) (bad empty : Bool) : Cond := fun g w =>
  let ws := (span 1 k).map w.sget
  let g0 := g.setWarp 0 w
  let c := newCopy (s.setWarp r0 w) r0 g0 w kind 9 ws [] (siblingOf g0 kind ws)
  g.producer == 0 && copyBad g0 c bv (fieldOf (w.sget 8) 0 32) == bad && decide (c.len = 0) == empty

/-- What reading n words at an address comes to: 0 they are there, 1 a fault, 2 a miss; and whether the names are good. -/
def readCase (s : State) (kind : CopyKind) (k va res : Nat) : Cond := fun g w =>
  !shapeNameBad kind ((span 1 k).map w.sget) && g.producer == 0 &&
    (match readWords (s.setWarp r0 w) r0 (g.setWarp 0 w) w va 8 with
      | .ok _ _ => 0
      | .bad _ _ _ => 1
      | .park _ => 2) == res

def cptRec : List Reg := [0x20000, 0, 0, 0]
def cpcRec : List Reg := [0x20000, 0x0005000000030000, 0x40000]
def refused20 (w : Warp) : Warp := { w with nones := [0x20] }

theorem test_hyp_CopyInstructions :
    AllMet [(notProducer (demo id), .cpy 9 1 0 0, fun g _ => g.producer != 0), (demo (withS copyRec), .cpy 9 1 8 1, copyCase (demo (withS copyRec)) .cpy 3 true false false),
      (demo (withS [0x40000, 0x20000, 0]), .cpy 9 1 0 0, copyCase (demo id) .cpy 3 false false true),
      (demo (withS [0x40000, 0x20000, minS]), .cpy 9 1 0 0, copyCase (demo id) .cpy 3 false true true),
      (demo (withS (copyRec ++ [0x28])), .cpr 9 1 0 0, copyCase (demo id) .cpr 4 false false false),
      (demo (withS (copyRec ++ [0xF8])), .cpr 9 1 0 0, copyCase (demo id) .cpr 4 false true false),
      (ganged (withS [1, 0, 0, 4096]), .cpx 9 1 0 0, copyCase (ganged id) .cpx 4 false false false),
      (ganged (withS [1, 0, 0, 4097]), .cpx 9 1 0 0, copyCase (ganged id) .cpx 4 false true false),
      (demo (withS [1, 0, 0, 4]), .cpx 9 1 0 0, copyCase (demo id) .cpx 4 false true false),
      (notProducer (demo id), .cpt 9 1 0 0, always), (notProducer (demo id), .cpc 9 1 0 0, always), (notProducer (demo id), .cpr 9 1 0 0, always),
      (notProducer (demo id), .cpx 9 1 0 0, always), (demo (withS [4, 0, 0, 0]), .cpt 9 1 0 0, fun _ w => shapeNameBad .cpt ((span 1 4).map w.sget)),
      (demo (withS [4, 0, 0]), .cpc 9 1 0 0, fun _ w => shapeNameBad .cpc ((span 1 3).map w.sget)),
      (demo (withS cptRec), .cpt 9 1 0 0, readCase (demo (withS cptRec)) .cpt 4 0x20000 0),
      (unmapped (demo (withS cptRec)), .cpt 9 1 0 0, readCase (unmapped (demo (withS cptRec))) .cpt 4 0x20000 2),
      (unmapped (demo (fun w => refused20 (withS cptRec w))), .cpt 9 1 0 0,
        readCase (unmapped (demo (fun w => refused20 (withS cptRec w)))) .cpt 4 0x20000 1),
      (callMem 1 (demo (withS cpcRec)), .cpc 9 1 0 0, readCase (callMem 1 (demo (withS cpcRec))) .cpc 3 0x30000 0)] ∧
    AllIssue (demo id) [.cpclose, .cpwait 0, .cpwait 15] ∧
    Meets (demo (fun w => { w with batches := [[3]] })) (.cpwait 0) (fun _ w => w.closeBatch.batches.length == 1) :=
  ⟨allMet (by decide +kernel), allIssue (by decide +kernel), meets (by decide +kernel)⟩

/-- The shape and the group table of the call: whether the shape, the header, the entries and the copy are bad. -/
def callCase (count : Nat) (rec_ : List Reg) (k : Nat) : Bool :=
  let s := callMem count (demo (withS rec_))
  match s.wg 0, s.warp r0 with
  | some g, some w => match readWords s r0 g w (fieldOf (rec_.getD 0 0) 0 48) 8, readWords s r0 g w 0x30000 8 with
    | .ok _ sh, .ok _ hd => match readWords s r0 g w 0x30040 (gridSize sh) with
      | .ok s3 es =>
        let c := newCopy s3 r0 g w .cpc 9 rec_ sh none
        [shapeBad sh true || callShapeBad sh (fieldOf (rec_.getD 2 0) 0 48), groupHeaderBad sh hd, groupEntriesBad sh s3.dev.devid es,
          copyBad g c false 0, decide (c.len = 0)] == (List.range 5).map (fun j => decide (j = k))
      | _ => false
    | _, _ => false
  | _, _ => false

theorem test_hyp_CopyInstructions_call : callCase 1 cpcRec 9 = true ∧ callCase 2 cpcRec 1 = true ∧
    callCase 1 [0x38000, 0x0005000000030000, 0x40000] 0 = true := by decide +kernel

/-! ### Events: copies and collective calls -/

/-- A copy of 64 bytes from 0x20000 to 0x40000 in the queue of tile 0, changed by f; the state has only this copy. -/
def copying (kind : CopyKind) (words : List Reg) (f : Copy → Copy) : State :=
  let s := demo id
  match s.wg 0 with
  | some g =>
    let c := f (newCopy s r0 g (Warp.launch 112 0) kind 9 words [] none)
    { s.setTile 0 { s.tile 0 with copies := [0] } with dev := { s.dev with copies := [(0, c)] }, nextId := 1, cur := none }
  | none => s

def cpy : State := copying .cpy [0x40000, 0x20000, 64] id
def cpr : State := copying .cpr [0x40000, 0x20000, 64, 0x28] id
def begun (c : Copy) : Copy := { c with started := true, nsect := 2 }
def swappingTile (s : State) : State :=
  s.setCluster 0 { s.cluster 0 with swap := some ⟨0, 1, .quiesce, 0, false, false, 0, [], []⟩ }

/-- What a clause asks of the copy. -/
def ofCopy (s : State) (p : Workgroup → Copy → Bool) : Bool :=
  match s.copy 0 with
  | some c => c.id == 0 && (match s.wg c.w.wg with
    | some g => p g c
    | none => false)
  | none => false

def firstUnstarted (s : State) : Bool := ((((s.tile 0).copies.filterMap s.copy).find? (fun c => !c.started && c.parked.isEmpty)).map (·.id)) == some 0
def inSector (s : State) : Workgroup → Copy → Bool := fun _ c => c.started && c.parked.isEmpty && c.err.isNone && decide (c.next < c.nsect) && !partnerLost s c
def dataKind (s : State) : Workgroup → Copy → Nat := fun g c => match sectorData s g c c.next with
  | .ok _ _ => 0
  | .miss _ _ _ => 1
  | .err _ _ => 2
def sentOne (sp : Option Nat) (c : Copy) : Copy := { begun c with sent := [(1, ⟨sp, 0, 32, 5, 0⟩)], base := 0, next := 2, win := [0] }
def appliedOne (s : State) : State := { s with dev := { s.dev with applied := [(0, [1])] } }
def atTick (n : Nat) (s : State) : State := s.setDie 0 { s.die 0 with tick := n }
def toSp (s : State) : Bool := ofCopy s (fun _ c => c.dst.sp == some 0 && c.started)

theorem test_hyp_CopyProgress :
    (ofCopy cpy (fun _ c => !c.applies) && firstUnstarted cpy && !cpy.swapping 0) = true ∧ (swappingTile cpy).swapping 0 = true ∧
    (ofCopy cpr (fun g c => c.applies && applyingDie cpr g { c with started := true } == 0) && firstUnstarted cpr && freeTag cpr 0 == some 0) = true ∧
    ofCopy (copying .cpx [1, 0, 0, 64] (fun c => { begun c with sib := some 9 }))
      (fun _ c => c.started && partnerLost (copying .cpx [1, 0, 0, 64] (fun c => { begun c with sib := some 9 })) c) = true ∧
    ofCopy (copying .cpy [0x40000, 0x20000, 64] begun) (inSector (copying .cpy [0x40000, 0x20000, 64] begun)) = true ∧
    ofCopy (copying .cpr [0x40000, 0x20000, 64, 0x28] begun) (inSector (copying .cpr [0x40000, 0x20000, 64, 0x28] begun)) = true ∧
    ofCopy (copying .cpr [0x40000, 0x20000, 64, 0x28] (fun c => { begun c with nsect := 65, next := 64 }))
      (fun g c => inSector cpr g c && decide (c.base + 64 ≤ c.next)) = true ∧
    ofCopy (copying .cpy [0x40000, 0x20000, 64] begun) (fun g c => dataKind cpy g c == 0 && c.dst.sp == none &&
      (match copyXlate cpy g c .engWrite 0x40000 with | (_, .ok _) => true | _ => false)) = true ∧
    ofCopy (unmapped (copying .cpy [0x40000, 0x20000, 64] begun)) (fun g c => dataKind (unmapped cpy) g c == 1) = true ∧
    ofCopy (unmapped (copying .cpy [0x40000, 0x20000, 64] (fun c => { begun c with nones := [0x20] })))
      (fun g c => dataKind (unmapped cpy) g c == 2) = true ∧
    toSp (copying .cpy [minS, 0x20000, 64] begun) = true := by decide +kernel

theorem test_hyp_CopyProgress_applied :
    ofCopy (copying .cpr [0x40000, 0x20000, 64, 0x28] (sentOne none)) (fun _ c => (Table.find c.sent 1).map (·.sp) == some none) = true ∧
    ofCopy (copying .cpr [minS, 0x20000, 64, 0x28] (sentOne (some 0))) (fun _ c => (Table.find c.sent 1).map (·.sp) == some (some 0)) = true ∧
    (Table.get (appliedOne (copying .cpr [0x40000, 0x20000, 64, 0x28] (sentOne none))).dev.applied [] 0).contains 1 = true ∧
    (Table.get cpr.dev.applied [] 0).contains 1 = false ∧ ((atTick 199 cpr).die 0).tick < 0 + 200 ∧ 0 + 200 ≤ ((atTick 200 cpr).die 0).tick ∧
    ofCopy cpy (fun _ c => !copyDone c && c.err.isNone) = true ∧
    ofCopy (copying .cpy [0x40000, 0x20000, 64] (fun c => { begun c with next := 2, lines := [0x800] })) (fun _ c => copyDone c) = true ∧
    ofCopy (copying .cpy [0x40000, 0x20000, 64] (fun c => { begun c with err := some (2, 1) })) (fun _ c => c.err == some (2, 1)) = true ∧
    (cpy.warp r0).isSome = true := by decide +kernel

/-- The shape record of member r of a group of two that adds one s32 each, and of a group of one. -/
def callShape (r : Nat) : List Reg :=
  [0x2800000000020000, 0, 0, 0, 0, BitVec.ofNat 64 (2 ^ 53 + 2 ^ 50), BitVec.ofNat 64 (2 ^ 48 + 0x50000),
    BitVec.ofNat 64 (r * 2 ^ 48 + 0x51000)]
def soloShape : List Reg := [0x2800000000020000, 0, 0, 0, 0, BitVec.ofNat 64 (2 ^ 50), 0x50000, 0x51000]

def member (copy rank : Nat) (shape : List Reg) (n : Nat) : Call :=
  ⟨copy, 7, 3, rank, shape, List.replicate n 0, false, [], [], [], [], [], [], [], [], 0, false, 0, false, none⟩
def posts (x : List (List Nat)) (k : Call) : Call := { k with posted := true, x := x }

/-- Copy 0 is the call k, started, and the other calls are of other copies. -/
def calling (k : Call) (js : List Call) : State :=
  let s := copying .cpc [0x20000, 0x0003000000030000, 0x40000] begun
  { s with dev := { s.dev with calls := k :: js } }

def ofCall (s : State) (p : Workgroup → Copy → Call → Bool) : Bool := (activeCall s 0).any (fun x => p x.1 x.2.1 x.2.2)

def first : Call := member 0 1 (callShape 1) 2
def second : Call := posts [[5]] (member 1 0 (callShape 0) 2)
def full : Call := { posts [[7]] first with p := [[5]], tot := [[12]], sum := [[12]] }
def manyPosted : List Call := (List.range 256).map (fun n => posts [] (member (n + 1) 0 (callShape 0) 2))

/-- How a pull from below of segment 0 stands: the next stage, whether the other call agrees, and whether it has the segment. -/
def pullCase (s : State) (agree has : Bool) : Bool := ofCall s (fun _ _ k => match nextStage k false 0 with
  | some st => match sourceCall s k st 0 with
    | some j => decide (j.params = k.params) == agree && (stageValue k j st 0).isSome == has
    | _ => false
  | none => false)

def writesOk (s : State) (k : Call) : Bool := ofCall s (fun g c _ => match engineWrites s g c (headerWrites k false) with
  | .ok _ _ => true
  | _ => false)

/-- The same call where member 0 is on device 5. -/
def away (k : Call) : Call := { k with entries := [5, 0] }
def cutCase (s : State) (cut : Bool) : Bool := ofCall s (fun _ c k => match nextStage k false 0 with
  | some st => pullCutOff s c k (pullRank k st) == cut
  | none => false)

/-- Whether a member on another device ends its call rests on a free value: where it draws so, it does. -/
theorem test_hyp_CollectiveCalls_remote (h : (Config.freeValue (0 + shapeSize (callShape 1))).getLsbD 0 = true) :
    cutCase (calling (posts [[7]] (away first)) []) true = true ∧ cutCase (calling (posts [[7]] first) [second]) false = true ∧
    (calling (posts [[7]] first) [second]).dev.remotes = [] ∧ (calling (posts [[7]] first) [second]).dev.calls.all (fun j => !j.failed) = true ∧
    remoteFate { demo id with dev := { (demo id).dev with remotes := [⟨7, 3, 0, 0⟩] } } (posts [[7]] (away first)) 0 =
      some (statusWord false true 0) := by
  refine ⟨by decide +kernel, by decide +kernel, by decide +kernel, by decide +kernel, ?_⟩
  have hr : ({ demo id with dev := { (demo id).dev with remotes := [⟨7, 3, 0, 0⟩] } } : State).remote (posts [[7]] (away first)) 0 =
      some ⟨7, 3, 0, 0⟩ := by decide +kernel
  rw [remoteFate, hr]
  exact if_pos h

theorem test_hyp_CollectiveCalls :
    ofCall (calling (posts [[7]] first) []) (fun _ _ k => k.posted) = true ∧
    ofCall (calling first manyPosted) (fun _ _ k => !k.posted && decide (k.size > 1)) = true ∧
    ((calling first manyPosted).dev.calls.filter (fun j => j.posted && !j.ended && decide (j.size > 1))).length ≥ 256 ∧
    ofCall (calling (member 0 0 soloShape 1) []) (fun g c k => !k.posted && k.size == 1 && !shapeQ4 k.shape &&
      (match engineReads (calling (member 0 0 soloShape 1) []) g c (callElem k.shape) (contribAddr k.shape) 0 (shapeSize k.shape) with
        | .ok _ _ => true
        | _ => false)) = true ∧
    writesOk (calling (member 0 0 soloShape 1) []) (posts [[0]] (member 0 0 soloShape 1)) = true ∧
    pullCase (calling (posts [[7]] first) [second]) true true = true ∧
    pullCase (calling (posts [[7]] first) [posts [] (member 1 0 (callShape 0) 2)]) true false = true ∧
    pullCase (calling (posts [[7]] first) [posts [[5]] (member 1 0 (callShape 0) 3)]) false true = true ∧
    ofCall (calling { posts [[7]] first with asked := [(false, 0)] } [second]) (fun _ _ k => k.asked.contains (false, 0)) = true ∧
    ofCall (calling full [{ second with sum := [[12]] }]) (fun _ _ k => k.formed && groupFormed (calling full [{ second with sum := [[12]] }]) k) = true ∧
    ofCall (calling full [second]) (fun _ _ k => k.formed && !groupFormed (calling full [second]) k) = true ∧
    ofCall (calling first []) (fun _ _ k => !k.formed) = true := by decide +kernel

/-- Copy 0 is the call of a member of a group of two, the other of which has posted, and what its contribution and its writes come to. -/
theorem test_hyp_CollectiveCalls_posting : ofCall (calling first [second]) (fun g c k => !k.posted && decide (k.size > 1) &&
      decide (((calling first [second]).dev.calls.filter (fun j => (j.posted && !j.ended && decide (j.size > 1)) ||
        postsBefore (calling first [second]) k j)).length < 256) &&
      (calling first [second]).dev.calls.all (fun j => !(j.failed && k.meets j && k.group.contains j.rank)) && !shapeQ4 k.shape &&
      (match engineReads (calling first [second]) g c (callElem k.shape) (contribAddr k.shape) 0 (shapeSize k.shape) with
        | .ok s1 xs =>
          let k1 : Call := { k with posted := true, x := cutSegs k.segs xs }
          let k3 := localSteps (if k1.hasP = true ∧ k1.pos = 0 then { k1 with p := k1.x } else k1) k.segs
          match engineWrites s1 g c (publishWrites k.shape k k3 false ++ publishWrites k.shape k k3 true ++ headerWrites k3 false ++
            headerWrites k3 true) with
          | .ok _ _ => true
          | _ => false
        | _ => false)) = true ∧
    ofCall (calling first [{ second with failed := true }]) (fun _ _ k =>
      ((calling first [{ second with failed := true }]).dev.calls.find? (fun j => j.failed && k.meets j && k.group.contains j.rank)).isSome) = true ∧
    ofCall (calling (posts [[7]] first) [member 1 0 (callShape 0) 2]) (fun _ _ k => (nextStage k false 0).any (fun st =>
      (calling (posts [[7]] first) [member 1 0 (callShape 0) 2]).dev.calls.all (fun j => !(k.meets j &&
        decide (some j.rank = k.group[stageSource k st]?)) || !j.posted))) = true := by decide +kernel

/-! ### Events: channels, walks, queues, dispatch -/

/-- Window 0 permits every kind of request from every source to every page. -/
def windowed : State := { demo id with dev := { (demo id).dev with
  windows := [(0, BitVec.ofNat 64 (2 ^ 63 + 7 * 2 ^ 60 + 2 ^ 59)), (2, BitVec.ofNat 64 (2 ^ 38 - 4096))] } }
def hostUp (b : Bool) : State := { demo id with dev := { (demo id).dev with hostUp := b } }

theorem test_hyp_ChannelAgents : inBase 0x20000 8 = true ∧ inBase (2 ^ 38) 8 = false ∧ inBase 0x2007C 8 = false ∧
    atomWidthOk 0 8 = true ∧ atomWidthOk 0 2 = false ∧ 0x20004 % 8 ≠ 0 ∧
    [0, 1, 2].map (fun k => windowPermits windowed.dev 5 k 0x20000) = [true, true, true] ∧
    windowPermits (demo id).dev 5 0 0x20000 = false ∧ (hostUp true).dev.hostUp = true ∧ (hostUp false).dev.hostUp = false ∧
    inBase ((hostUp true).dev.bar2 + 0x20000) 8 = true ∧ hostMayWrite 0x8FF8 = true ∧ hostMayWrite 0x20000 = false ∧
    hostMayRead 0x20000 = true ∧ hostMayRead 0x30000 = false ∧ (Table.get (demo id).wadi MergePoint.reset (mergePointOf 0x400)).entries.length < 512 ∧
    nextServed (demo id) (mergePointOf 0x400) [⟨0x400, true, 1, 0, 0, none⟩] = some ⟨0x400, true, 1, 0, 0, none⟩ ∧
    (Table.get (demo id).wadi MergePoint.reset (mergePointOf 0x400)).queue = [] ∧ 0x400 * 128 < 2 ^ 48 := by decide +kernel

/-- A walker with n walks, of pages 0 on. -/
def walking (n : Nat) : State :=
  (demo id).setCluster 0 { (demo id).cluster 0 with walks := (List.range n).map (fun k => ⟨0, k, 1, 0⟩) }
def linked (w : Nat) (h : Option Nat) : State := (demo id).setCluster 0 { (demo id).cluster 0 with link := ⟨w, h, false⟩ }
def cleanLine : State := (demo id).setTile 0 { (demo id).tile 0 with lines := [⟨0x400, 0, 64, BitVec.allOnes 128, 0, 0⟩] }

theorem test_hyp_TranslationAndErrors :
    ((walking 1).cluster 0).walks.any (fun w => w.asid == 0 && w.vpn == 0) = true ∧ 64 ≤ ((walking 64).cluster 0).walks.length ∧
    ((walking 63).cluster 0).walks.any (fun w => w.asid == 0 && w.vpn == 63) = false ∧ ((walking 63).cluster 0).walks.length < 64 ∧
    inBase (0x20000 / 128 * 128) 128 = true ∧
    ((demo id).wg 0).map (fun g => (g.status, decide (0 < g.nwarps))) = some (.resident, true) ∧
    ((demo id).cluster 0).swap = none ∧ (cleanLine.tile 0).line 0x400 = some ⟨0x400, 0, 64, BitVec.allOnes 128, 0, 0⟩ ∧
    ((linked 4 none).cluster 0).link.handshake = none ∧ 16 * 1023 < 4096 * ((linked 4 none).cluster 0).link.width ∧
    4096 * ((linked 4 none).cluster 0).link.width ≤ 16 * 1024 ∧ ((linked 2 none).cluster 0).link.width < 4 ∧
    ((linked 2 (some 1)).cluster 0).link.handshake = some 1 := by decide +kernel

/-- Queue 0 of context 0 with one packet at HEAD and levels; its ring lies at 0x60000. -/
def queued (ws : List Reg) (ls : List Level) (f : Queue → Queue) : State :=
  let s := demo id
  let mem := ((List.range ws.length).zip ws).foldl (fun m p => Memory.writeN m (0x60000 + 8 * p.1) 8 p.2.toNat) s.mem
  { s with mem := mem, dev := { s.dev with
      queues := [(0, f { Queue.reset with en := true, ring := 0x60, tail := 1 })], levels := ls } }

/-- A level of a kind with its counter at 0x70000. -/
def lvl (kind : Nat) (ws : List Reg) (isOpen : Bool) : Level :=
  { kind := kind, asid := 0, slot := 0, queue := 0, counter := 0x70000, parent := none, isOpen := isOpen, closed := !isOpen, cancelled := false,
    complete := false, packet := ws, args := [], next := 0, again := [] }
def complete_ (l : Level) : Level := { l with complete := true, next := 1 }

/-- A LAUNCH of one workgroup of one warp at 0x10000, with counter c. -/
def launchWs (c : Reg) : List Reg := [BitVec.ofNat 64 (2 ^ 44 + 2 ^ 40 + 1), 0x10000, BitVec.ofNat 64 (2 ^ 48 + 2 ^ 32 + 1), c, 0, 0, 0, 0]
def packet (w0 w1 w2 : Nat) : List Reg := [BitVec.ofNat 64 w0, BitVec.ofNat 64 w1, BitVec.ofNat 64 w2, 0, 0, 0, 0, 0]

/-- What the packet at HEAD is: whether it may be parsed, its kind, bit B, whether all is complete, and whether it is clean. -/
def headCase (s : State) (kind : Nat) (b all clean : Bool) : Bool :=
  canParse s 0 && (match headPacket s 0 with
    | some ws => fieldOf (ws.getD 0 0) 0 8 == kind && (ws.getD 0 0).getLsbD 8 == b && allComplete s 0 == all && packetClean kind ws == clean
    | none => false)

theorem test_hyp_Packets_parse :
    canParse (demo id) 0 = false ∧ canParse (queued (packet 3 0 0) [] id) 0 = true ∧
    headPacket { (queued (packet 3 0 0) [] id) with dev := { (queued (packet 3 0 0) [] id).dev with badLines := [0xC00] } } 0 = none ∧
    headCase (queued (packet 0xFF 0 0) [] id) 0xFF false true true = true ∧ ¬ 0xFF ∈ packetKinds ∧
    headCase (queued (packet 0x1FF 0 0) [lvl 1 [] true] id) 0xFF true false true = true ∧
    headCase (queued (packet 0x1FF 0 0) [] id) 0xFF true true true = true ∧
    (∀ k ∈ packetKinds, headCase (queued (packet (256 + k) 0 0) [complete_ (lvl 1 [] false), lvl 1 [] true] id) k true false true = true ∧
      headCase (queued (packet (256 + k) 0 0) [complete_ (lvl 1 [] false)] id) k true true true = true ∧
      headCase (queued (packet k 0 0) [lvl 1 [] true] id) k false false true = true ∧
      headCase (queued (packet (2 ^ 63 + k) 0 0) [] id) k false true false = true) := by decide +kernel

def isOk {α : Type} (r : IoRes α) : Bool := match r with
  | .ok _ => true
  | _ => false

def withConds (cs : List FenceCond) : State := queued (packet 2 0 0) [] (fun q => { q with conds := cs, state := 2 })

theorem test_hyp_Packets_effects :
    launchBad (queued [] [] id) 0 (packet 1 0 0) = true ∧ launchBad (queued [] [] id) 0 (launchWs 0x70010) = false ∧
    launchBad (queued [] [] id) 0 (launchWs 0x70020) = false ∧ innermost (queued [] [] id) 0 [1, 2, 3] = none ∧
    isOk (queueWords (queued [] [] id) 0 0 0x05 (launchArgs (1 : Reg))) = true ∧ isOk (queueXlate (queued [] [] id) 0 0x70020 .store 0x06) = true ∧
    isOk (queueXlate (queued [] [] id) 0 0x70008 .atomic 0x05) = true ∧
    (queueWords (queued [] [] id) 0 0x70000 0x05 24 = .ok (List.replicate 24 0)) ∧
    (fenceConds (List.replicate 24 0)).map (·.length) = some 12 ∧
    ((withConds [⟨0x70000, 0, false, none⟩]).queue 0).state = 2 ∧ ((withConds []).queue 0).waitTag = none ∧
    isOk (queueXlate (withConds [⟨0x70000, 0, false, none⟩]) 0 0x70000 .load 0x05) = true ∧
    ((withConds []).queue 0).en = true ∧ (Queue.reset).en = false ∧ (withConds []).dev.badLines = [] ∧
    (∃ x ∈ ((withConds [⟨0, 0, false, none⟩]).queue 0).conds, x.met = false) ∧ (∀ x ∈ ((withConds [⟨0, 0, true, none⟩]).queue 0).conds, x.met = true) ∧
    ((withConds [⟨0, 0, true, none⟩]).queue 0).conds ≠ [] := by decide +kernel

theorem test_hyp_Packets_levels : ∀ kind ∈ [1, 2, 3],
    (innermost (queued [] [lvl kind [] true] id) 0 (kind :: innerKinds kind)).isSome = true ∧ innermost (queued [] [] id) 0 [kind] = none ∧
    innermost (queued [] [lvl kind [] true] id) 0 [kind] = some 0 ∧
    innermost (queued [] [] id) 0 (kind :: innerKinds kind) = none ∧ innermost (queued [] [] id) 0 (span (kind + 1) (3 - kind)) = none ∧
    isOk (queueXlate (queued [] [] id) 0 0x70020 .store 0x06) = true := by decide +kernel

/-- The warp of the demo in a state with levels. -/
def leveled (ls : List Level) : State :=
  let s := demo (withS [0x70000])
  { s with dev := { s.dev with queues := [(0, { Queue.reset with en := true })], levels := ls } }

theorem test_hyp_Cancels :
    AllMet [(leveled [], .cancel 2 1 0, always), (leveled [complete_ (lvl 1 [] false)], .cancel 2 1 1, always),
      (leveled [{ lvl 1 [] true with cancelled := true }], .cancel 2 1 1, always), (leveled [lvl 1 [] true], .cancel 2 1 1, always),
      (leveled [lvl 0 (launchWs 0x70000) false], .cancel 2 1 0, always)] ∧
    findLevel (leveled []) 0 0 0x70000 = none ∧ findLevel (leveled [lvl 1 [] true]) 0 1 0x70000 = some 0 ∧
    isOk (cancelLevel (leveled [lvl 1 [] true]) (queueKey 0 0) 0) = true ∧
    isOk (cancelLevel (leveled [lvl 0 (launchWs 0x70000) false]) (queueKey 0 0) 0) = true ∧
    isOk (counterAt (leveled [lvl 1 [] true]) (queueKey 0 0) (lvl 1 [] true)) = true ∧ isOk (cancelByHandle (leveled []) (queueKey 0 0) 0 1 0x70000) = true ∧
    isOk (queueXlate (leveled []) (queueKey 0 0) 0x70008 .store 0x05) = true ∧ ((leveled []).wg 0).map (·.level) = some 0 ∧
    (match cancelByHandle (lostTable (leveled [lvl 1 [] true])) (queueKey 0 0) 0 1 0x70000 with
      | .ok x => (x.1.queue (queueKey 0 0)).state == 3
      | _ => false) = true :=
  ⟨allMet (by decide +kernel), by decide +kernel, by decide +kernel, by decide +kernel, by decide +kernel, by decide +kernel, by decide +kernel,
    by decide +kernel, by decide +kernel, by decide +kernel⟩

/-- Enough of a queue's descriptor to judge a doorbell and a new share. -/
def shares (n : Nat) : State := queued [] [] (fun q => { q with chsh := n, ptsh := n })

theorem test_hyp_QueueRegisters :
    (2 ^ (((queued [] [] id).queue 0).size + 4) - 1 < (16 + 65536 - 0) % 65536) ∧ ¬ (2 ^ (((queued [] [] id).queue 0).size + 4) - 1 < (15 + 65536 - 0) % 65536) ∧
    (0 : Nat) < 64 ∧ fieldOf (0xC000#64) 12 4 ≤ 12 ∧
    224 < shareSum (shares 0) 1 { Queue.reset with en := true, chsh := 225, ptsh := 0 } (·.chsh) ∧
    shareSum (shares 200) 1 { Queue.reset with en := true, chsh := 24, ptsh := 0 } (·.chsh) ≤ 224 ∧
    224 < shareSum (shares 200) 1 { Queue.reset with en := true, chsh := 25, ptsh := 0 } (·.chsh) ∧
    ((queued [] [] (fun q => { q with state := 3, err := 7 })).queue 0).state = 3 ∧ ((queued [] [] id).slot 0).v = true ∧ (Slot.reset).v = false ∧
    Table.find (queued [] [] id).dev.queues 0 ≠ none := by decide +kernel

/-- Die 0 released, with one launch at the head of queue 0; gangs of n that have waited since tick 0. -/
def launching (ws : List Reg) (t : Nat) (gangs : Table GangWait) : State :=
  let s := queued [] [lvl 0 ws false] id
  s.setDie 0 { s.die 0 with released := true, tick := t, gangWait := gangs }

def gangWs : List Reg := [BitVec.ofNat 64 (2 ^ 44 + 2 ^ 40 + 2 ^ 23 + 1), 0x10000, BitVec.ofNat 64 (2 ^ 48 + 2 ^ 32 + 1), 0x70000, 0, 0, 0, 0]
def noArea (s : State) : State := s.setSlot 0 { s.slot 0 with used := [0] }

theorem test_hyp_Dispatching :
    ((demo id).die 0).released = false ∧ ((launching (launchWs 0x70000) 0 []).die 0).released = true ∧
    ((dieItems (launching (launchWs 0x70000) 0 []) 0).map (fun x => (placeItem (launching (launchWs 0x70000) 0 []) 0 x).isSome)) = [true] ∧
    ((dieItems (noArea (launching (launchWs 0x70000) 0 [])) 0).map
      (fun x => (placeItem (noArea (launching (launchWs 0x70000) 0 [])) 0 x).isSome)) = [false] ∧
    dieItems (queued [] [] id) 0 = [] ∧
    ((launching gangWs 10000 [(0, ⟨0, 0, 0⟩)]).die 0).resv = none ∧ reservedKey (launching gangWs 10000 [(0, ⟨0, 0, 0⟩)]) 0 = some 0 ∧
    reservedKey (launching gangWs 9999 [(0, ⟨0, 0, 0⟩)]) 0 = none ∧ (queueItem (launching gangWs 10000 [(0, ⟨0, 0, 0⟩)]) 0 0).map (·.level) = some 0 ∧
    (((launching gangWs 0 []).setDie 0 { (launching gangWs 0 []).die 0 with resv := some ⟨0, 0, 0⟩ }).die 0).resv ≠ none := by decide +kernel

theorem test_hyp_Dispatching_place : ∃ ts, placeFor (demo id) 0 ⟨0, 0, 0, [], []⟩ ((lvl 0 (launchWs 0x70000) false).size) 8 [1] = some ts := by
  refine ⟨[8, 9, 10, 11, 12, 13, 14, 15], ?_⟩
  decide +kernel

/-! ### Events: workgroups, rotation, power, registers, boot -/

/-- The workgroup of the demo, changed; its warp as g says. -/
def grouped (g : Warp → Warp) (f : Workgroup → Workgroup) : State :=
  let s := leveled [{ lvl 0 (launchWs 0x70000) false with next := 1 }]
  { s with cur := none, wgs := s.wgs.map (fun x => (x.1, f { x.2 with warps := x.2.warps.map (fun w => (w.1, g w.2)) })) }

def over_ (w : Warp) : Warp := { w with c := { w.c with ended := true } }
def ofGroup (s : State) (p : Workgroup → Bool) : Bool := (s.wg 0).any p
def preempted (t : Nat) (g : Workgroup) : Workgroup := { g with preTick := some t }
def signalled (w : Warp) : Warp := { w with c := { w.c with handler := some 3, sigdone := true } }
def stands (x : WgStatus) (g : Workgroup) : Workgroup := { g with status := x }
def dirtyOf (s : State) : State := s.setTile 0 { s.tile 0 with unacked := [7] }

theorem test_hyp_WorkgroupLife :
    (∀ x ∈ [WgStatus.saved, .placed, .ended], ofGroup (grouped id (stands x)) (fun g => g.status == x) = true) ∧
    ofGroup (grouped id id) (fun g => g.status == .resident && g.warps.any (fun w => !w.2.c.ended)) = true ∧
    ofGroup (grouped over_ id) (fun g => g.status == .resident && !g.discard && g.warps.all (fun w => w.2.c.ended) &&
      quiet (grouped over_ id) 0 g && isOk (exitRecord (grouped over_ id) g (exitInfo g)) && isOk (countGroup (grouped over_ id) g false)) = true ∧
    (grouped over_ id).swapping 0 = false ∧ ((writeBackWhere (dirtyOf (grouped over_ id)) 0 (fun l => l.asid == 0)).tile 0).unacked ≠ [] ∧
    ofGroup (grouped id (fun g => { g with discard := true })) (fun g => g.status == .resident && g.discard && !g.cancelled &&
      g.warps.all (fun w => w.2.mat.isNone) && quiet (grouped id id) 0 g) = true ∧ ((grouped id id).level 0).isSome = true ∧
    ofGroup (grouped signalled (preempted 0)) (fun g => !g.discard && g.preTick == some 0 && allDone (grouped signalled (preempted 0)) 0 g &&
      g.warps.any (fun w => !w.2.c.ended)) = true ∧
    ofGroup (grouped (handling 3) (preempted 0)) (fun g => !allDone (grouped (handling 3) (preempted 0)) 0 g) = true ∧
    ((grouped id (stands .placed)).pair (pairOf (clusterOf 0))).gstate < 2 ∧ ((atTick 19999 (grouped id id)).die 0).tick < 0 + 20000 ∧
    0 + 20000 ≤ ((atTick 20000 (grouped id id)).die 0).tick ∧
    ofGroup (grouped (handling 0) (preempted 0)) (fun g => (g.warps.find? (fun w => !w.2.preemptDone && w.2.c.handler.isSome &&
      w.2.c.handler != some 3)).isSome) = true ∧
    ofGroup (grouped (handling 2) (fun g => { g with cancelTick := some 0 })) (fun g => g.cancelTick == some 0 &&
      (g.warps.find? (fun w => !w.2.c.ended && w.2.c.handler == some 2)).isSome) = true := by decide +kernel

def wcbBusy (s : State) : State := { s with dev := { s.dev with wcbState := 1 } }

theorem test_hyp_ControlBlock :
    (wcbBusy (demo id)).dev.wcbState = 1 ∧ (demo id).dev.wcbState ≠ 1 ∧ wcbTarget (demo id) 0 5 0 = none ∧
    (wcbTarget (grouped id id) 0 0 0).map (fun x => (x.1, x.2.status, x.2.preTick, x.2.gangLaunch)) = some (0, .resident, none, false) ∧
    (wcbTarget (ganged id) 0 0 0).map (fun x => (x.2.status, x.2.preTick, x.2.gangLaunch)) = some (.resident, none, true) ∧
    (wcbTarget (grouped id (stands .placed)) 0 0 0).map (fun x => (x.1, x.2.status, x.2.preTick)) = some (0, .placed, none) ∧
    (wcbTarget ((ganged id).updWg 0 (stands .placed)) 0 0 0).map (fun x => (x.2.status, x.2.preTick, x.2.gangLaunch)) = some (.placed, none, true) ∧
    (wcbTarget (grouped id (preempted 5)) 0 0 0).map (fun x => x.2.preTick) = some (some 5) ∧
    (wcbTarget (grouped id (stands .saved)) 0 0 0).map (fun x => (x.1, x.2.status, x.2.gangLaunch)) = some (0, .saved, false) ∧
    ofGroup (grouped id (stands .saved)) (fun g => isOk (exitRecord (grouped id (stands .saved)) g ⟨g.wgix, 0x30, g.nwarps, true, true, 0, 0, 0, 0,
      g.warps.map (fun w => w.2.c.fmask.toNat)⟩) && isOk (countGroup (grouped id (stands .saved)) g true)) = true ∧
    ((grouped id id).queue (queueKey 0 0)).idem = false ∧ ((queued [] [] (fun q => { q with idem := true })).queue (queueKey 0 0)).idem = true := by
  decide +kernel

/-- Cluster 0 at level l, the rotation enabled or not, at tick t. -/
def rotating (t l : Nat) (on : Bool) (x : Option Swap) : State :=
  let s := atTick t (demo id)
  s.setCluster 0 { s.cluster 0 with roten := on, swap := x, clk := { (s.cluster 0).clk with level := l } }
def swapAt (p : SwapPhase) (moved written : Bool) : Option Swap := some ⟨0, 1, p, 0, moved, written, 0, [], [0, 1]⟩

theorem test_hyp_Rotation :
    ((rotating 99999 8 true none).die 0).tick % 100000 ≠ 0 ∧ ((rotating 100000 8 true none).die 0).tick % 100000 = 0 ∧
    ((rotating 100000 8 true none).cluster 0).swap = none ∧ ((rotating 100000 7 true none).cluster 0).clk.level < 8 ∧
    ((rotating 100000 8 false none).cluster 0).roten = false ∧ 8 ≤ ((rotating 100000 8 true none).cluster 0).clk.level ∧
    ((rotating 0 8 true none).pair (pairOf 0)).gstate < 2 ∧ 1 < ((rotating 0 8 true none).cluster 0).maxsw ∧
    chooseSwap (rotating 0 8 true none) 0 [96, 80, 81, 82, 83, 84, 85, 86] (swapTiles (rotating 0 8 true none) 0) = some (0, 1) ∧
    chooseSwap (rotating 0 8 true none) 0 [95, 80, 81, 82, 83, 84, 85, 86] (swapTiles (rotating 0 8 true none) 0) = none ∧
    (∀ x ∈ [swapAt .quiesce false false, swapAt .transfer false false, swapAt .transfer true false, swapAt .transfer true true],
      ((rotating 0 8 true x).cluster 0).swap = x ∧ x.isSome = true) ∧
    ((rotating 301 8 true none).die 0).tick < 0 + 302 ∧ 0 + 302 ≤ ((rotating 302 8 true none).die 0).tick ∧
    (∀ g ∈ onTileOf (rotating 0 8 true (swapAt .quiesce false false)) 0 ++ onTileOf (rotating 0 8 true (swapAt .quiesce false false)) 1,
      ∀ w ∈ g.warps, w.2.quiesced = true ∧ (canRun g w.2 && w.2.faultDue) = false ∧ w.2.remote = 0) ∧
    ((rotating 0 8 true none).tile 0).unacked = [] := by decide +kernel

/-- Cluster 0, pair 0 and die 0 in a state of clock, pair and die. -/
def powered (t : Nat) (k : Clock → Clock) (x : Pair → Pair) (y : Die → Die) : State :=
  let s := State.reset
  let s := s.setDie 0 (y { s.die 0 with tick := t })
  let s := s.setPair 0 (x (s.pair 0))
  s.setCluster 0 { s.cluster 0 with clk := k (s.cluster 0).clk }

theorem test_hyp_PowerAndClocks :
    ((powered 199 (fun k => { k with locking := true, lockEnd := 200 }) id id).cluster 0).clk.lockEnd > 199 ∧
    ((powered 200 (fun k => { k with locking := true, lockEnd := 200 }) id id).cluster 0).clk.lockEnd ≤ 200 ∧
    ((powered 200 (fun k => { k with locking := true }) id id).cluster 0).clk.locking = true ∧
    ((powered 0 id id id).die 0).tick ≤ ((powered 0 id id id).cluster 0).clk.since ∧
    ((powered 10 id (fun x => { x with sampleAt := some 10 }) id).pair 0).sampleAt = some 10 ∧ ((powered 10 id id id).pair 0).sampleAt = none ∧
    ((powered 1000 id id (fun y => { y with powerAt := some 1000 })).die 0).powerAt = some 1000 ∧ ((powered 1000 id id id).die 0).powerAt = none ∧
    ((powered 0 id (fun x => { x with gstate := 3 }) id).pair 0).gstate = 3 ∧
    ((powered 0 id id id).pair 0).vnow = requiredVoltage (powered 0 id id id) 0 ∧
    ((powered 0 id (fun x => { x with vnow := 560 }) id).pair 0).vnow ≠ requiredVoltage (powered 0 id (fun x => { x with vnow := 560 }) id) 0 ∧
    ((powered 10 id id id).die 0).tick % 10 = 0 ∧ ((powered 1000 id id id).die 0).tick % 1000 = 0 ∧
    ((powered 0 id id id).die 0).budget < min 401 65535 ∧ 10 * min 359 65535 < 9 * ((powered 0 id id id).die 0).budget ∧
    9 * ((powered 0 id id id).die 0).budget ≤ 10 * min 360 65535 ∧ heaviest (demo id) 0 [5] = some 0 ∧
    4 * 500 ≤ 5 * ((powered 0 id id id).die 0).budget ∧ 5 * ((powered 0 id id id).die 0).budget < 4 * 501 ∧
    ((powered 0 (fun k => { k with level := 15 }) id id).cluster 0).clk.level - 4 < 15 ∧ ((powered 0 id id id).cluster 0).sample = none ∧
    ((State.reset.setCluster 0 { Cluster.reset with sample := some (0, 0) }).cluster 0).sample = some (0, 0) ∧
    pairIdle (powered 0 id id id) 0 = true ∧ pairIdle (demo id) 0 = false ∧
    (∀ n ∈ [1, 2, 4], ((powered 0 id (fun x => { x with gstate := n }) id).pair 0).gstate = n) ∧
    0 + 2048 ≤ ((powered 2048 id id id).die 0).tick ∧ 0 + 20 ≤ ((powered 20 id id id).die 0).tick ∧
    0 + 500 ≤ ((powered 500 id id id).die 0).tick ∧ ((powered 0 id id id).pair 0).since = 0 := by decide +kernel

def bound (v : Bool) (used : List Nat) : State := (demo id).setSlot 0 { (demo id).slot 0 with v := v, used := used }

theorem test_hyp_DeviceRegisters : ((bound true []).slot 0).v = true ∧ ((bound false [0]).slot 0).v = false ∧ ((bound false [0]).slot 0).used ≠ [] ∧
    mayUnbind (bound true []) 0 = false ∧ mayUnbind { bound true [] with wgs := [] } 0 = true ∧ 0x04004 % 8 ≠ 0 ∧ (1 : Reg).getLsbD 0 = true ∧ (0 : Reg).getLsbD 0 = false := by decide +kernel

/-- The fault ring holds one message of a source; the warp of the demo is as f says. -/
def ringed (src : Nat) (f : Warp → Warp) : State :=
  let s := demo f
  { s with cur := none, dev := { s.dev with
      ring := [(0, ⟨0x20000, 0, 1, src, 5, 0, 0, 0, 0, 0, 0, false⟩)], ringTail := 1, nextTag := 6 } }

theorem test_hyp_FaultRing : (ringed 0 id).dev.ringHead ≤ 1 ∧ (1 : Nat) ≤ ringTailOf (ringed 0 id).dev ∧ ringTailOf (ringed 0 id).dev < 2 ∧
    ((ringed 4 id).dev.ringHead ≤ 0) ∧ ({ (ringed 0 id).dev with ringHead := 1 } : Device).ringHead > 0 ∧ pendingMessage (ringed 0 id).dev 6 = none ∧
    (pendingMessage (ringed 4 id).dev 5).map (fun x => (x.1, x.2.src)) = some (0, 4) ∧
    (pendingMessage (ringed 3 id).dev 5).map (fun x => (x.2.src, x.2.uid, x.2.warp)) = some (3, 0, 0) ∧
    ((ringed 3 (waiting (.brk 5))).warp r0).map (fun w => (w.c.wait, w.c.ended)) = some (.brk 5, false) ∧
    ((ringed 0 (waiting (.park [5]))).warp r0).map (·.c.wait) = some (.park [5]) := by decide +kernel

def booted (n : Nat) (h : Option Nat) (released : Bool) : State :=
  let s := State.reset.setDie 0 { State.reset.die 0 with released := released }
  { s with dev := { s.dev with stage := n, halted := h } }

/-- Whether an image is accepted rests on the hash and the signature, which Config leaves open: it is, where they accept. -/
theorem test_hyp_Boot :
    ((booted 1 none false).dev.stage = 1 ∧ (booted 1 none false).dev.halted = none) ∧ (booted 0 none false).dev.stage ≠ 1 ∧
    (booted 2 none false).dev.stage = 2 ∧ ((booted 2 none true).die 0).released = true ∧ ((booted 2 none false).die 0).released = false ∧
    (booted 2 (some 1) false).dev.halted ≠ none ∧ imageReason Device.reset (imageAt 0 1) 0 = some 1 := by decide +kernel

/-- An image of a payload of one byte in slot 0. -/
def flashed : Device :=
  { Device.reset with flash := Memory.writeN (Memory.writeN [] 0 4 0x4D545831) 8 8 1, romHash := Config.shake256 (List.replicate 64 0) 64 }

theorem test_hyp_Boot_accepted (h : Config.slhDsaVerify (flashBytes flashed.flash 0x10 64) (flashBytes flashed.flash 0 0x50 ++
      payloadOf flashed.flash 0) (flashBytes flashed.flash (0 + 0x50) 29792) = true) : imageReason flashed 0 0 = none := by
  have hk : flashBytes flashed.flash (0 + 0x10) 64 = List.replicate 64 0 := by decide +kernel
  have h1 : ¬ (imageField flashed.flash 0 0 4 ≠ 0x4D545831 ∨ imageField flashed.flash 0 8 8 = 0 ∨ imageField flashed.flash 0 8 8 > 0x7F8000 ∨
      Memory.readN flashed.flash (0 + 0x74B0) 2896 ≠ 0) := by decide +kernel
  have h2 : flashed.romHash = Config.shake256 (List.replicate 64 0) 64 := rfl
  simp only [imageReason]
  rw [if_neg h1, hk, h2]
  rw [Nat.zero_add] at h
  simp_all

/-! ### More clauses, at the values where they meet -/

/-- A warp after the last word of bodies that end at the same word, with their counters. -/
def fallenAll (cs : List Nat) (w : Warp) : Warp :=
  { w with c := { w.c with depth := cs.length, frames := (List.range cs.length).map (fun k => (k, ⟨0x10000 + 4 * k, 8 - k⟩)),
                           lc := (List.range cs.length).zip cs, pos := ⟨0x10020, 0, .fell, .none⟩ } }

theorem test_hyp_Loops_nested : [[1, 1], [2, 1], [1, 1, 1], [3, 1, 1], [0]].map (fun cs => ((demo (fallenAll cs)).warp r0).map (fun w =>
    (w.c.pos.mode == .fell && w.frame.isSome && decide (w.c.depth ≤ 4), bodyEnd w 0x10020 w.c.depth))) =
    [some (true, 0, 0x10020), some (true, 1, 0x10000), some (true, 0, 0x10020), some (true, 1, 0x10000), some (true, 1, 0x10000)] := by
  decide +kernel

/-- The convoy of slot 3 has noted an event of a class in the tick at hand. -/
def marked (cls : Nat) : State := (heldMember 0).noteConvoy 0 3 cls r0

theorem test_hyp_ConvoyEvents : (heldMember 0).leavesPast 0 2 r0 = false ∧ (marked 3).leavesPast 0 2 r0 = true ∧
    ((atTick 1 (heldMember 0)).die 0).tick = 1 ∧ (atTick 1 (heldMember 0)).leavesPast 0 2 r0 = false ∧
    ((heldMember 0).member 0 r0 0).map (fun x => (x.2.2.expired, x.2.2.held)) = some (false, true) ∧
    (heldMember 0).memberSlot 0 r0 0 = some 3 ∧ (convoyed [] id).memberSlot 0 r0 0 = none ∧
    ((heldMember 0).die 0).slots.any (fun c => c.2.members.any (fun m => m.w == r0 && m.held)) = true ∧
    ((convoyed [] id).die 0).slots.any (fun c => c.2.members.any (fun m => m.w == r0 && m.held)) = false ∧
    stalledMembers ((atTick 1 (heldMember 0)).convoy 0 3) 0 = [] := by decide +kernel

/-- The tile of the workgroup is in a swap, in a phase. -/
def inSwap (p : SwapPhase) (s : State) : State := s.setCluster 0 { s.cluster 0 with swap := some ⟨0, 1, p, 0, false, false, 0, [], []⟩ }

theorem test_hyp_Traps_entry : (inSwap .transfer (demo knownFault)).swapping 0 = true ∧ (inSwap .transfer (demo knownFault)).quiescing 0 = false ∧
    (inSwap .quiesce (demo id)).swapping 0 = true ∧ ((inSwap .quiesce (demo id)).warp r0).map (·.c.recs) = some [] ∧
    (inSwap .quiesce (demo knownFault)).quiescing 0 = true ∧ ((inSwap .quiesce (demo knownFault)).warp r0).map (·.c.recs) = some [aRec] ∧
    (demo id).swapping 0 = false ∧ ((demo id).wg 0).map (fun g => (g.status, g.discard)) = some (.resident, false) ∧
    (((demo id).updWg 0 (fun g => { g with discard := true })).wg 0).map (·.discard) = some true ∧
    (((demo id).updWg 0 (fun g => { g with status := .error 1 0 0 0 0 })).wg 0).map (·.status) ≠ some .resident ∧
    (demo (fun w => { w with c := { w.c with preReq := true } })).leavesPast 0 2 r0 = false := by decide +kernel

theorem test_hyp_Exceptions_more : ((demo vectors).warp r0).map (fun w => (w.farFails, w.nones, w.r.sAbsent, w.sp.cvm, w.mat.isNone)) =
      some ([], [], false, 0, true) ∧ ((demo vectors).wg 0).map (fun g => (g.status, (g.warp 0).isSome)) = some (.resident, true) ∧
    [0, 1].map (Wait.entered (.sleep 5)) = [.sleep 5, .sleep 5] ∧ Wait.entered (.sleep 5) 2 = .none := by decide +kernel

/-- The warp keeps what an error completion of a store of it would record. -/
def storedFar (p : Bool) (w : Warp) : Warp := { w with posted := [(p, { aRec with typ := 0x20 })] }

theorem test_hyp_Completions_posted : ∀ f ∈ [storedFar false, fun w => handling 0 (storedFar true w)],
    ((demo f).warp r0).any (fun w => w.outs.all (fun o => (o.farRecord 3 0x20000).isNone) &&
      (w.posted.find? (fun p => p.2.lane == 3 && p.2.addr == BitVec.ofNat 64 0x20000)).isSome) = true := by
  intro f hf
  simp only [List.mem_cons, List.not_mem_nil, or_false] at hf
  rcases hf with rfl | rfl <;> decide +kernel

/-- The call of copy 0 has its result, and the other member has its own or not yet. -/
def flagged (v : Option Nat) : State := calling { full with result := some 12 } [{ second with sum := [[12]], result := v }]

theorem test_hyp_Completions_group : [some 12, none].map (fun v => ofCopy (flagged v) (fun _ c => c.w == r0 && c.tok + 64 == 73 && c.started &&
    c.err.isNone && ((flagged v).call c.id).any (fun k => groupFlagged (flagged v) k == v.isSome))) = [true, true] := by decide +kernel

theorem test_hyp_Completions : ((demo (outst [] [aRec])).warp r0).any (fun w => w.outs.any (fun o => !o.far.isEmpty)) = true ∧
    ((demo (fun w => { handling 0 (outst [aRec] [] w) with outs := [⟨0, 1, [], [], [aRec], false, true, none, [], [], []⟩] })).warp r0).map
      (fun w => (w.outs.map (·.inHandler), w.c.handler, w.c.sigdone, w.c.ended)) = some ([true], some 0, false, false) ∧
    ((demo (outst [] [])).warp r0).any (fun w => w.outs.all (fun o => (o.farRecord 3 0x20000).isNone)) = true ∧
    ofCopy (copying .cpr [0x40000, 0x20000, 64, 0x28] begun) (fun _ c => c.w == r0 && c.tok + 64 == 73 && c.started && c.err.isNone &&
      ((copying .cpr [0x40000, 0x20000, 64, 0x28] begun).call c.id).isNone) = true := by decide +kernel

theorem test_hyp_Acknowledgements : ((demo (fun w => waiting .remote (remoteOne w))).warp r0).isSome = true ∧
    (∀ g ∈ (demo remoteOne).wgs, ∀ w ∈ g.2.warps, w.2.c.wait = .none) := by decide +kernel

/-- Die 0 with n tags in use, by as many copies of one kind. -/
def taggedCopies (c : Copy) (n : Nat) : Table Copy := (List.range n).map (fun t => (t, { c with die := 0, tag := some t }))
def tagged (s : State) (c : Copy) : State := { s with dev := { s.dev with copies := taggedCopies c 4096 } }

theorem taken (s : State) (c : Copy) (h : s.dev.copies = taggedCopies c 4096) : freeTag s 0 = none := by
  unfold freeTag
  rw [List.find?_eq_none, h]
  intro t ht
  have : (taggedCopies c 4096).any (fun c => c.2.die == 0 && c.2.tag == some t) = true :=
    List.any_eq_true.2 ⟨(t, { c with die := 0, tag := some t }), List.mem_map.2 ⟨t, ht, rfl⟩, by simp⟩
  rw [this]
  decide

theorem test_hyp_CopyProgress_tags (s : State) (c : Copy) : freeTag (tagged s c) 0 = none :=
  taken (tagged s c) c (by simp only [tagged])

theorem test_hyp_CopyProgress_miss : ofCopy cpr (fun g c => (startMiss cpr g { c with started := true }).isNone) = true ∧
    ofCopy (unmapped cpr) (fun g c => decide (c.tile < 512) && c.applies && (startMiss (unmapped cpr) g { c with started := true }).isSome) = true ∧
    (unmapped cpr).swapping 0 = false := by decide +kernel

theorem test_hyp_CopyProgress_start : ofCopy cpy (fun _ c => decide (c.tile < 512)) = true ∧
    (nextCopy (((cpy.tile 0).copies.filterMap cpy.copy).filter (fun c => !c.started && c.parked.isEmpty))).map (·.id) = some 0 ∧
    (nextCopy (((cpr.tile 0).copies.filterMap cpr.copy).filter (fun c => !c.started && c.parked.isEmpty))).map (·.id) = some 0 := by decide +kernel

/-- The other member of the call has another number of elements. -/
def odd : Call := posts [[5]] (member 1 0 (callShape 0) 3)

theorem test_hyp_CollectiveCalls_flags : ofCall (calling full [odd]) (fun _ _ k => k.formed && paramsDiffer (calling full [odd]) k) = true ∧
    ofCall (calling full [{ second with sum := [[12]] }]) (fun _ _ k => k.formed && !paramsDiffer (calling full [{ second with sum := [[12]] }]) k &&
      !groupCut (calling full [{ second with sum := [[12]] }]) k) = true ∧
    ofCall (calling (away full) []) (fun _ _ k => groupCut (calling (away full) []) k) = true := by decide +kernel

theorem test_hyp_ChannelAgents_widths : (hostUp true).dev.bar2 + 0x20079 ≤ 2 ^ 36 ∧ 0x20079 % 128 + 7 ≤ 128 ∧
    inBase ((hostUp true).dev.bar2 + 0x20079) 7 = true ∧ inBase (2 ^ 36 - 4096) 8 = false ∧ 0x8FF8 % 8 = 0 ∧ (1 : Nat) % 8 ≠ 0 := by decide +kernel

/-- A page that the device has retired, which context 0 maps still or no longer; its line has failed. -/
def retires (gone : Bool) : State :=
  { demo id with dev := { (demo id).dev with
      badPages := [0x20], retiring := [0x20000], unmapped := if gone then [(0, [0x20])] else [] } }

theorem test_hyp_TranslationAndErrors_retired : (retires false).dev.retiring = [0x20000] ∧ (retires false).dev.badPages.contains 0x20 = true ∧
    (retires false).slots.all (fun k => !k.2.v || k.2.asid == 0) = true ∧
    (demo id).slots.any (fun k => k.2.v && !(Table.get (demo id).dev.unmapped [] k.2.asid).contains 0x20) = true ∧
    State.reset.slots.any (fun k => k.2.v) = false ∧ (demo id).dev.badPages.contains 0x20 = false ∧ (demo id).dev.retiring = [] ∧
    inBase (0x20000 / 128 * 128) 128 = true ∧ walkRoom (demo id) 0 = 64 := by decide +kernel

theorem test_hyp_QueueRegisters_unbound : ((queued [] [] id).slot 1).v = false ∧ fieldOf (0x10000F000F : BitVec 64) 16 16 = 0xF ∧
    ¬ (2 ^ (((queued [] [] id).queue 64).size + 4) - 1 < (15 + 65536 - 15) % 65536) ∧
    2 ^ (((queued [] [] id).queue 64).size + 4) - 1 < (32 + 65536 - 15) % 65536 := by decide +kernel

/-- What a clause asks of the one item of die 0. -/
def ofItem (s : State) (p : Item → Level → Bool) : Bool := (dieItems s 0).any (fun x => (s.level x.level).any (p x))
def launchOne : State := launching (launchWs 0x70000) 0 []
def freeAreas (s : State) (l : Level) : List Nat := (List.range (s.slot l.slot).acnt).filter (fun k => !(s.slot l.slot).used.contains k)

theorem test_hyp_Dispatching_items :
    ofItem launchOne (fun x l => x.uids.isEmpty && l.again.isEmpty && decide (x.ixs.length ≤ (freeAreas launchOne l).length) &&
      (placeFor launchOne 0 x l.size x.ixs.length (dieClusters 0)).isSome && launchOne.wgs.all (fun g => decide (g.1 < launchOne.nextUid))) = true ∧
    ofItem (noArea launchOne) (fun x l => x.uids.isEmpty && decide ((freeAreas (noArea launchOne) l).length < x.ixs.length)) = true ∧
    launchGrouped (lvl 0 (launchWs 0x70000) false).w0 = false ∧
    stillWaits (launching gangWs 10000 [(0, ⟨0, 0, 0⟩)]) 0 0 ⟨0, 0, 0⟩ = true := by decide +kernel

theorem test_hyp_WorkgroupLife_more : ofGroup (grouped over_ id) (fun g => !leavesLate (grouped over_ id) 0 g 1) = true ∧
    ofGroup (grouped (handling 3) (preempted 0)) (fun g => g.status == .resident && g.warps.all (fun w => w.2.preemptDone ||
      w.2.c.handler.isNone || w.2.c.handler == some 3) && g.warps.any (fun w => w.2.c.handler == some 3 && !w.2.preemptDone)) = true ∧
    ofGroup (grouped id (stands .saved)) (fun g => g.status != .resident) = true := by decide +kernel

/-- The end of a saved workgroup, whose exit record's page is not there or whose launch keeps no record. -/
def ending (s : State) : State := wcbWrite s 4 0 0 0 1 0
def savedInfo (g : Workgroup) : ExitInfo := ⟨g.wgix, 0x30, g.nwarps, true, true, 0, 0, 0, 0, g.warps.map (fun w => w.2.c.fmask.toNat)⟩
def recording (s : State) : State := s.updWg 0 (fun g => { g with exitrec := 0x80000 })

theorem test_hyp_ControlBlock_ends :
    ofGroup (grouped id (stands .saved)) (fun g => isOk (exitRecord (ending (grouped id (stands .saved))) g (savedInfo g)) &&
      isOk (countGroup (ending (grouped id (stands .saved))) g true)) = true ∧
    ofGroup (recording (unmapped (grouped id (stands .saved)))) (fun g =>
      match exitRecord (ending (recording (unmapped (grouped id (stands .saved))))) g (savedInfo g) with
      | .miss _ _ => true
      | _ => false) = true := by decide +kernel

theorem test_hyp_Rotation_more : ((rotating 100000 8 true none).cluster 0).interval ≠ 100000 ∧
    (((rotating 100000 8 true none).setCluster 0 { (rotating 100000 8 true none).cluster 0 with interval := 100000 }).cluster 0).interval = 100000 ∧
    0 + 302 < ((rotating 303 8 true none).die 0).tick ∧ ((rotating 302 8 true none).die 0).tick ≤ 0 + 302 ∧
    0 < ((rotating 0 8 true none).cluster 0).maxsw := by decide +kernel

/-- The control block waits for the pages of an end, or of another request. -/
def latched (op : Nat) : State := { ringed 4 id with dev := { (ringed 4 id).dev with wcbReq := some (op, 0, 0, 0), wcbState := 1 } }

theorem test_hyp_FaultRing_ends : ((latched 4).dev.wcbReq.map (·.1)) = some 4 ∧ (∀ r, (latched 3).dev.wcbReq = some r → r.1 ≠ 4) ∧
    (pendingMessage (latched 4).dev 5).map (fun x => x.2.src) = some 4 := by
  refine ⟨by decide +kernel, fun r h => ?_, by decide +kernel⟩
  cases h; decide

/-! ### Encodings, steps, memory -/

theorem test_hyp_EncodeDecode : encode .nop = some 0x98000000#32 ∧ encode (.vaddRrr 9 3 17 2) = some 0x01120C8A#32 ∧
    encode (.illegalInstruction 0) = none := by decide +kernel

theorem test_hyp_IllegalWords : Current (demo id) (fun _ w => (encode (.vaddRrr 112 1 2 0)).isSome && !isHeader (.vaddRrr 112 1 2 0) &&
      !(legal (.vaddRrr 112 1 2 0) && allocOk w (.vaddRrr 112 1 2 0))) ∧ (demo id).current.isSome = true ∧
    isEvent (.powerOn 0) = true ∧ State.reset.current = none ∧ isEvent .nop = false :=
  ⟨current (by decide +kernel), by decide +kernel, by decide, by decide +kernel, by decide⟩

/-- The state whose next step fetches a NOP, and with turns before it. -/
def fetching (l : List Turn) : State := { State.reset.withFetchWord 32 0x98000000 with turns := l }

theorem test_hyp_StepRunsDecoded :
    (pick (fetching []) 0 2).map (fun c => (c.i, c.r, c.slot)) = some (.nop, r0, true) ∧
    (pick (fetching []) 0 0).isNone = true ∧ ((fetching []).tile 0).issued = [] ∧ ((fetching []).pair (pairOf (clusterOf 0))).gstate < 3 ∧
    (choose (candidates (fetching []) 0 (fitsPipe 2))).isSome = true ∧ (fetching []).quantum < quantumLimit ∧
    (choose (candidates { fetching [] with early := [] } (fetching []).here (fun _ => true))).isSome = true ∧
    ((fetching []).wg 0).any (fun g => (g.warp 0).any (fun w => canRun g w && !w.due && w.c.wait == .none && !w.matParked &&
      w.c.pos.mode == .body && w.nextAddr % 4 == 0 && !heldAtHeader w .nop && !stalls (fetching []) r0 g (fillS (fetching []) g 0 w).1 .nop &&
      (match nextWord { fetching [] with cur := some r0 } r0 g w with
        | .word x _ => x == 0x98000000#32
        | _ => false))) = true ∧ (fetching []).late = [] ∧ (fetching []).early = [] ∧
    (((fetching []).tile 0).code.find? (fun c => c.line == 0x10000 / 128 && c.asid == 0)).isNone = true ∧
    ((fetching []).tile 0).line (0x10000 / 128) = none := by decide +kernel

theorem test_step_runs : (match step (fetching [.select 0 2]) with
    | .next t => (t.warp r0).map (fun w => (w.c.pos.hdr, w.lastIssue, w.c.pos.mode))
    | _ => none) = some (0x10004, 0, .flow) := by decide +kernel

theorem test_hyp_MemoryCanonical : Canonical State.reset ∧ Canonical (demo id) := by
  constructor
  · exact ⟨by decide +kernel, fun g hg => by cases hg⟩
  · exact ⟨by decide +kernel, by decide +kernel⟩

end Sys2Proof.Tests
end

/-! PROOFS of the family of the machine's state: the canonical form, the divergence stack, loops, lane destinations, streams and
group registers. First what every instruction of the family shares: what a fill leaves, and what its runner answers. -/

namespace Sys2Proof.Proofs

open Sys2Proof.Machine Sys2Proof.Claims Sys2Proof.Laws Sys2Proof.Laws.State

/-! ### What the reads of a fill leave -/

/-- A fold keeps what each of its steps keeps. -/
theorem foldl_keeps {α β γ : Type} {p : α → γ} {f : α → β → α} (h : ∀ a b, p (f a b) = p a) (l : List β) (a : α) :
    p (l.foldl f a) = p a := by
  induction l generalizing a with
  | nil => rfl
  | cons b l ih => rw [List.foldl_cons, ih, h]

theorem mergeFor_wgs (s : State) (t line : Nat) (k : Option (WRef × Nat)) : (mergeFor s t line k).1.wgs = s.wgs := by
  unfold mergeFor
  split
  · rfl
  · split <;> rfl

theorem readLines_wgs (s : State) (t : Nat) (l : List Nat) : (readLines s t l).wgs = s.wgs :=
  foldl_keeps (p := State.wgs) (fun s line => mergeFor_wgs s t line none) l s

theorem countEvent_wgs (s : State) (c src v n : Nat) : (s.countEvent c src v n).wgs = s.wgs := by
  unfold State.countEvent
  dsimp only
  split <;> rfl

theorem loadRanges_wgs (s : State) (t asid rtab : Nat) : (loadRanges s t asid rtab).1.wgs = s.wgs := by
  unfold loadRanges
  split
  · rfl
  · dsimp only
    split
    · exact readLines_wgs _ _ _
    · split <;> exact readLines_wgs _ _ _

theorem loadPage_wgs (s : State) (t asid root va : Nat) : (loadPage s t asid root va).1.wgs = s.wgs := by
  unfold loadPage
  extract_lets cl known path lines leaf shared s1
  have h1 : s1.wgs = s.wgs := by
    unfold s1
    split
    · rfl
    · exact (countEvent_wgs _ _ _ _ _).trans (readLines_wgs _ _ _)
  clear_value s1 leaf
  split
  · exact h1
  · cases leaf with
    | none => exact h1
    | some q =>
      dsimp only [setCluster_wgs]
      split
      · exact h1
      · exact h1

/-- Translating an access of a tile leaves the workgroups. -/
theorem translate_wgs (s : State) (t slot va : Nat) (a : Acc) : (Machine.translate s t slot va a).1.wgs = s.wgs := by
  unfold Machine.translate
  dsimp only
  have hr := loadRanges_wgs s t (s.slot slot).asid ((s.slot slot).rtab * 2048)
  split
  · exact hr
  · split
    · exact hr
    · split
      · exact hr
      · have hp := loadPage_wgs (loadRanges s t (s.slot slot).asid ((s.slot slot).rtab * 2048)).1 t (s.slot slot).asid
          ((s.slot slot).ptroot * 4096) va
        split <;> (rename_i heq; rw [heq] at hp; exact hp.trans hr)

theorem fetchImage_wgs (s : State) (g : Workgroup) (va n : Nat) : (fetchImage s g va n).wgs = s.wgs := by
  have warm : (warmImage s g va n).wgs = s.wgs := by
    unfold warmImage
    refine foldl_keeps (p := State.wgs) (fun s p => ?_) _ s
    split
    · rfl
    · exact translate_wgs _ _ _ _ _
  exact (readLines_wgs _ _ _).trans warm

/-- The reads of a fill leave the workgroups (R44). -/
theorem fillReads_wgs (s : State) (g : Workgroup) (wp : Nat) (w : Warp) (m : Mask) (i : Instr) :
    (fillReads s g wp w m i).wgs = s.wgs := by
  unfold fillReads fetchAreas
  exact foldl_keeps (p := State.wgs) (f := fun s (a : Nat × Nat) => fetchImage s g a.1 a.2)
    (fun s a => fetchImage_wgs s g a.1 a.2) _ s

/-! ### What a fill leaves of its warp -/

theorem fillS_ctl (s : State) (g : Workgroup) (wp : Nat) (w : Warp) : (fillS s g wp w).1.c = w.c := by
  unfold fillS
  split
  · split
    · exact foldl_keeps (p := Warp.c) (f := fun (w : Warp) (p : Nat × Reg) => w.sset p.1 p.2) (fun _ _ => rfl) _ w
    · rfl
  · rfl

theorem fillGranules_ctl (s : State) (g : Workgroup) (wp : Nat) (w : Warp) (l : List Nat) :
    (fillGranules s g wp w l).1.c = w.c := by
  induction l generalizing w with
  | nil => rfl
  | cons k l ih =>
    unfold fillGranules
    split
    · split
      · exact (ih _).trans (foldl_keeps (p := Warp.c) (f := fun (w : Warp) (p : Nat × VReg) => w.vset (8 * k + p.1) p.2)
          (fun _ _ => rfl) _ w)
      · rfl
    · exact ih w

/-- A fill changes registers alone: the control state of the warp stays (R44). -/
theorem fillNamed_ctl (s : State) (g : Workgroup) (wp : Nat) (w : Warp) (m : Mask) (i : Instr) :
    (fillNamed s g wp w m i).1.c = w.c := by
  unfold fillNamed
  extract_lets a
  have ha : a.1.c = w.c := by
    unfold a
    split
    · rfl
    · exact fillS_ctl s g wp w
  split
  · exact (fillGranules_ctl _ _ _ _ _).trans ha
  · exact ha

/-! ### From an issue to its runner's answer -/

section

variable {s₀ s : State} {i : Instr} {r : WRef} {g : Workgroup} {w : Warp}

/-- A word that issues runs its meaning on the warp with its granules present. -/
theorem issues_runNamed {m : Warp → Mask} (h : Issues s₀ s i m r g w) (f : State → WRef → Workgroup → Warp → State) :
    runNamed s₀ i m f = .next (f (s.setWarp r w) r (g.setWarp r.wp w) w) := by
  obtain ⟨w0, hc, hl, hs, hf⟩ := h.word
  exact runNamed_next f hc hl hs hf

theorem issues_runUniform (h : Issues s₀ s i act r g w) (f : Warp → WRes) :
    runUniform s₀ i f = .next (finishWarp (s.setWarp r w) r (g.setWarp r.wp w) w (f w)) :=
  issues_runNamed h _

/-- The workgroup of an issuing warp is there when its granules have been read. -/
theorem issues_wg {m : Warp → Mask} (h : Issues s₀ s i m r g w) : s.wg r.wg = some g := by
  obtain ⟨w0, hc, -, hs, -⟩ := h.word
  rw [hs, State.wg, fillReads_wgs]
  exact ((current_iff _ _ _ _).1 hc).2.1

/-- The issuing warp stands where it stood before its granules were filled. -/
theorem issues_current {m : Warp → Mask} (h : Issues s₀ s i m r g w) : ∃ w0, s₀.current = some (r, g, w0) ∧ w0.c = w.c := by
  obtain ⟨w0, hc, -, -, hf⟩ := h.word
  refine ⟨w0, hc, ?_⟩
  rw [← fillNamed_ctl s g r.wp w0 (m w0) i, hf]

/-- A transfer of control that stands last in its clause runs (R57). -/
theorem lastOnly_last {m : Warp → Mask} (h : Issues s₀ s i m r g w) (hl : w.c.pos.idx = w.c.pos.cl.len)
    (run : Host.Outcome State Fault Refusal) : lastOnly s₀ run = run := by
  obtain ⟨w0, hc, hw⟩ := issues_current h
  simp [lastOnly, hc, Pos.isLast, hw, hl]

/-- One that does not takes the illegal-instruction trap before any other effect (R57). -/
theorem lastOnly_traps (hc : s.current = some (r, g, w)) (hl : w.c.pos.idx ≠ w.c.pos.cl.len)
    (run : Host.Outcome State Fault Refusal) : lastOnly s run = .next (preciseTrap s r w 0x01) := by
  simp [lastOnly, hc, Pos.isLast, hl]

/-- Retiring after the filled warp was put is retiring with nothing else changed. -/
theorem retire_goneOn {g0 : Workgroup} {u : Warp} (ha : w.active ≠ 0 → u.active ≠ 0) (he : u.c.ended = false) :
    retire (s.setWarp r w) r g0 w u false = retiredAs s r (goneOn s.issues u) := by
  have hi : (s.setWarp r w).issues = s.issues := by rw [setWarp_frame]
  rw [retire_goesOn _ _ _ _ _ (by tauto) he, hi, issues_setWarp, setWarp_twice]
  rfl

theorem retire_goneTo {g0 : Workgroup} {u : Warp} (ha : w.active ≠ 0 → u.active ≠ 0) (he : u.c.ended = false) :
    retire (s.setWarp r w) r g0 w u true = retiredAs s r (goneTo s.issues u) := by
  have hi : (s.setWarp r w).issues = s.issues := by rw [setWarp_frame]
  rw [retire_moved _ _ _ _ _ (by tauto) he, hi, issues_setWarp, setWarp_twice]
  rfl

/-- A uniform instruction retires to the next word. -/
theorem runUniform_ok {f : Warp → WRes} {u : Warp} (h : Issues s₀ s i act r g w) (hf : f w = .ok u)
    (ha : w.active ≠ 0 → u.active ≠ 0) (he : u.c.ended = false) :
    runUniform s₀ i f = .next (retiredAs s r (goneOn s.issues u)) := by
  rw [issues_runUniform h, hf]
  exact congrArg _ (retire_goneOn ha he)

/-- A uniform instruction retires where it has moved its warp. -/
theorem runUniform_moved {f : Warp → WRes} {u : Warp} (h : Issues s₀ s i act r g w) (hf : f w = .moved u)
    (ha : w.active ≠ 0 → u.active ≠ 0) (he : u.c.ended = false) :
    runUniform s₀ i f = .next (retiredAs s r (goneTo s.issues u)) := by
  rw [issues_runUniform h, hf]
  exact congrArg _ (retire_goneTo ha he)

/-- A uniform instruction takes its trap with no effect of its own. -/
theorem runUniform_trap {f : Warp → WRes} {code : Nat} (h : Issues s₀ s i act r g w) (hf : f w = .trap code w) :
    runUniform s₀ i f = .next (preciseTrap ((s.setWarp r w).setWarp r w) r w code) := by
  rw [issues_runUniform h, hf]
  rfl

/-- A word that retires with one s-register written writes it and nothing else. -/
theorem writesS_of_retire {d : BitVec 6} {x : Reg} (he : w.c.ended = false)
    (h : exec i s₀ = .next (retire (s.setWarp r w) r (g.setWarp r.wp w) w (w.sset d.toNat x) false)) :
    WritesS s₀ s i r w d x := by
  refine ⟨goneOn s.issues (w.sset d.toNat x), ?_, ?_, ?_, ?_⟩
  · rw [h, retire_goneOn (w := w) (u := w.sset d.toNat x) id he]
  · exact (advance_sget _ _).trans (sget_sset_same _ _ _)
  · intro k hk
    exact (advance_sget _ _).trans (sget_sset_other _ _ _ _ hk)
  · unfold goneOn
    simp only [Warp.sset, advance_regs]

end

/-! ### The canonical form -/

/-- One step keeps the canonical form: the plan keeps it, and so does the instruction or event that it names. -/
theorem canon_step {s t : State} (h : Canon s.mem s.wgs) (e : step s = .next t) : Canon t.mem t.wgs := by
  unfold step at e
  split at e
  · rename_i i s' hp
    exact canon_exec (canon_plan_1 h i s' hp) t e
  · rename_i s' hp
    cases e
    exact canon_plan_2 h t hp

/-- Settles O59: the plan of a step and every instruction and event keep the canonical form. -/
theorem memoryCanonical : Obligations.MemoryCanonical := by
  unfold Obligations.MemoryCanonical
  exact fun s t h e => canon_step h e

/-! ### Masks of the divergence stack -/

/-- The target of a branch, as the word's address plus 4 times the offset modulo 2^64 (R58). -/
theorem branchTarget_eq (w : Warp) (k : Int) : branchTarget w k = (BitVec.ofInt 64 ((w.pcOf : Int) + 4 * k)).toNat := by
  simp [branchTarget, wrapTo, BitVec.toNat_ofInt]

/-- Every active lane lives: lanes taken out of the active mask are those of a live stack entry (R35, R166). -/
theorem active_and_live (w : Warp) (z : Mask) : (w.active &&& z) &&& ~~~w.c.exited &&& ~~~w.c.fmask = w.active &&& z := by
  have twice : ∀ x a b : Mask, (x &&& ~~~a &&& ~~~b &&& z) &&& ~~~a &&& ~~~b = x &&& ~~~a &&& ~~~b &&& z := by
    intro x a b
    ext i
    simp only [BitVec.getElem_and, BitVec.getElem_not]
    cases x[i] <;> cases a[i] <;> cases b[i] <;> simp
  unfold Warp.active
  split
  · exact twice _ _ _
  · exact twice _ _ _

/-- A warp with another divergence stack. -/
def withStack (w : Warp) (st : List StackEntry) : Warp := { w with c := { w.c with stack := st } }

/-- The mask of a pushed entry is the active mask, when it was taken out of the active mask. -/
theorem active_push (w : Warp) (p : Bool) (a : Nat) (z : Mask) (st : List StackEntry) :
    (withStack w (⟨p, a, w.active &&& z⟩ :: st)).active = w.active &&& z := active_and_live w z

theorem active_mark (w : Warp) (p : Bool) (a : Nat) (st : List StackEntry) :
    (withStack w (⟨p, a, w.active⟩ :: st)).active = w.active := by
  have h := active_push w p a (BitVec.allOnes 32) st
  rwa [BitVec.and_allOnes] at h

theorem active_transfer (w : Warp) (a : Nat) : (w.transfer a).active = w.active := rfl

/-! ### BR -/

/-- The lanes that a BR takes (R168). -/
def brTaken (w : Warp) (p : BitVec 3) (n : BitVec 1) : Mask :=
  w.active &&& (if n = 0 then w.pget p.toNat else ~~~(w.pget p.toNat))

/-- BR by the lanes that it takes and those that it leaves (R168). -/
theorem brWarp_eq (p : BitVec 3) (n : BitVec 1) (o : BitVec 20) (w : Warp) : brWarp p n o w =
    if brTaken w p n = 0 then .ok w
    else if w.active &&& ~~~(brTaken w p n) = 0 then .moved (w.transfer (branchTarget w o.toInt))
    else if w.c.stack.length + (if topIsPath w.c.stack then 1 else 2) > 32 then .trap 0x0B w
    else .moved ((withStack w (⟨true, branchTarget w o.toInt, brTaken w p n⟩ ::
      ⟨true, w.pcOf + 4, w.active &&& ~~~(brTaken w p n)⟩ ::
      (if topIsPath w.c.stack then w.c.stack.tail else w.c.stack))).transfer (branchTarget w o.toInt)) := by
  have ht : (if n = 0 then w.active &&& w.pget p.toNat else w.active &&& ~~~(w.pget p.toNat)) = brTaken w p n := by
    unfold brTaken
    split <;> rfl
  unfold brWarp
  dsimp only
  rw [ht]
  rfl

section

variable {s₀ s : State} {i : Instr} {r : WRef} {g : Workgroup} {w : Warp}

/-- A transfer of control that stands last in its clause answers as a uniform instruction (R57). -/
theorem transferring_last (h : Issues s₀ s i act r g w) (hl : w.c.pos.idx = w.c.pos.cl.len) (f : Warp → WRes) :
    transferring s₀ i f = runUniform s₀ i f := lastOnly_last h hl _

theorem lastOrTraps_of_transferring (f : Warp → WRes) (hx : ∀ s, exec i s = transferring s i f) : LastOrTraps i :=
  fun s _ _ _ hc hl => (hx s).trans (lastOnly_traps hc hl _)

/-- MARK in a warp (R167). -/
def markWarp (o : BitVec 24) (w : Warp) : WRes :=
  if w.c.stack.length ≥ 32 then .trap 0x0B w
  else .ok (withStack w (⟨false, branchTarget w o.toInt, w.active⟩ :: w.c.stack))

theorem exec_mark (o : BitVec 24) (s : State) : exec (.mark o) s = runUniform s (.mark o) (markWarp o) := rfl

theorem mark_answers {o : BitVec 24} (h : Issues s₀ s (.mark o) act r g w) :
    (w.c.stack.length < 32 → RetiresAs s₀ s (.mark o) r
      (goneOn s.issues (withStack w (⟨false, branchTarget w o.toInt, w.active⟩ :: w.c.stack)))) ∧
    (32 ≤ w.c.stack.length → TrapsWith s₀ s (.mark o) r w 0x0B) := by
  refine ⟨fun hlen => ?_, fun hlen => (exec_mark o s₀).trans (runUniform_trap h (if_pos hlen))⟩
  refine (exec_mark o s₀).trans (runUniform_ok h (if_neg (Nat.not_le.2 hlen)) (fun ha => ?_) h.lives)
  rwa [active_mark]

theorem br_answers {p : BitVec 3} {n : BitVec 1} {b : BitVec 20} (h : Issues s₀ s (.br p n b) act r g w)
    (hl : w.c.pos.idx = w.c.pos.cl.len) :
    (brTaken w p n = 0 → RetiresAs s₀ s (.br p n b) r (goneOn s.issues w)) ∧
    (brTaken w p n ≠ 0 → w.active &&& ~~~(brTaken w p n) = 0 →
      RetiresAs s₀ s (.br p n b) r (goneTo s.issues (w.transfer (branchTarget w b.toInt)))) ∧
    (brTaken w p n ≠ 0 → w.active &&& ~~~(brTaken w p n) ≠ 0 →
      w.c.stack.length + (if topIsPath w.c.stack then 1 else 2) ≤ 32 → RetiresAs s₀ s (.br p n b) r (goneTo s.issues
        ((withStack w (⟨true, branchTarget w b.toInt, brTaken w p n⟩ ::
          ⟨true, w.pcOf + 4, w.active &&& ~~~(brTaken w p n)⟩ ::
          (if topIsPath w.c.stack then w.c.stack.tail else w.c.stack))).transfer (branchTarget w b.toInt)))) ∧
    (brTaken w p n ≠ 0 → w.active &&& ~~~(brTaken w p n) ≠ 0 →
      32 < w.c.stack.length + (if topIsPath w.c.stack then 1 else 2) → TrapsWith s₀ s (.br p n b) r w 0x0B) := by
  have hx : exec (.br p n b) s₀ = runUniform s₀ (.br p n b) (brWarp p n b) := transferring_last h hl _
  refine ⟨fun ht => ?_, fun ht hf => ?_, fun ht hf hlen => ?_, fun ht hf hlen => ?_⟩
  · exact hx.trans (runUniform_ok h (by rw [brWarp_eq, if_pos ht]) id h.lives)
  · exact hx.trans (runUniform_moved h (by rw [brWarp_eq, if_neg ht, if_pos hf]) id h.lives)
  · refine hx.trans (runUniform_moved h (by rw [brWarp_eq, if_neg ht, if_neg hf, if_neg (by omega)]) (fun _ => ?_) h.lives)
    rw [active_transfer, brTaken, active_push]
    exact ht
  · exact hx.trans (runUniform_trap h (by rw [brWarp_eq, if_neg ht, if_neg hf, if_pos hlen]))

/-! ### JOIN -/

/-- The stack that a JOIN leaves once the path that ends and the paths without live lanes are dropped (R169). -/
def joinKept (w : Warp) (e : StackEntry) (rest : List StackEntry) : List StackEntry :=
  popDead (fun e => decide (w.liveIn e ≠ 0)) (if e.path then rest else e :: rest)

/-- What JOIN does with the entry that it leaves on top (R169). -/
def joinTop (w : Warp) : List StackEntry → WRes
  | [] => .ok (withStack w [])
  | t :: tl =>
    if t.path then .moved ((withStack w (t :: tl)).transfer t.addr)
    else if t.addr ≠ w.c.pos.hdr then .trap 0x0C w
    else .ok (withStack w tl)

theorem joinWarp_cons {e : StackEntry} {rest : List StackEntry} (hs : w.c.stack = e :: rest) :
    joinWarp w = joinTop w (joinKept w e rest) := by
  unfold joinWarp
  rw [hs]
  dsimp only
  cases hk : joinKept w e rest with
  | nil =>
    rw [joinKept] at hk
    rw [hk]
    rfl
  | cons t tl =>
    rw [joinKept] at hk
    rw [hk]
    rfl

theorem joinWarp_nil (hs : w.c.stack = []) : joinWarp w = .ok w := by
  unfold joinWarp
  rw [hs]

theorem join_answers (h : Issues s₀ s .join act r g w) :
    exec .join s₀ = .next (finishWarp (s.setWarp r w) r (g.setWarp r.wp w) w (joinWarp w)) := issues_runUniform h joinWarp

/-- What JOIN comes to with a stack, by the entry left on top (R169). -/
theorem join_cons (h : Issues s₀ s .join act r g w) {e : StackEntry} {rest : List StackEntry} (hs : w.c.stack = e :: rest) :
    (joinKept w e rest = [] → exec .join s₀ =
      .next (retire (s.setWarp r w) r (g.setWarp r.wp w) w (withStack w []) false)) ∧
    (∀ t tl, joinKept w e rest = t :: tl →
      (t.path = true → exec .join s₀ = .next (retire (s.setWarp r w) r (g.setWarp r.wp w) w
        ((withStack w (joinKept w e rest)).transfer t.addr) true)) ∧
      (t.path = false → t.addr = w.c.pos.hdr → exec .join s₀ =
        .next (retire (s.setWarp r w) r (g.setWarp r.wp w) w (withStack w tl) false)) ∧
      (t.path = false → t.addr ≠ w.c.pos.hdr → TrapsWith s₀ s .join r w 0x0C)) := by
  refine ⟨fun hk => ?_, fun t tl hk => ⟨fun hp => ?_, fun hp ha => ?_, fun hp ha => ?_⟩⟩
  · rw [join_answers h, joinWarp_cons hs, hk]
    rfl
  · rw [join_answers h, joinWarp_cons hs, hk, joinTop, if_pos hp]
    rfl
  · rw [join_answers h, joinWarp_cons hs, hk, joinTop, if_neg (by simp [hp]), if_neg (by simp [ha])]
    rfl
  · unfold TrapsWith
    rw [join_answers h, joinWarp_cons hs, hk, joinTop, if_neg (by simp [hp]), if_pos ha]
    rfl

/-! ### EXIT -/

/-- A warp whose active lanes have left, at the next word, where its mask is empty (R170, R171). -/
def exitWarp (w : Warp) : Warp :=
  Warp.onEmpty (Warp.advance { w with c := { w.c with exited := w.c.exited ||| w.active } })

/-- A warp whose mask became empty keeps its registers and its exited lanes. -/
theorem onEmpty_keeps (w : Warp) : w.onEmpty.c.exited = w.c.exited ∧ w.onEmpty.r = w.r ∧ w.onEmpty.sp = w.sp := by
  unfold Warp.onEmpty
  dsimp only
  split <;> exact ⟨rfl, rfl, rfl⟩

/-- A warp without a stack and without live lanes ends (R170). -/
theorem onEmpty_ends (w : Warp) (hs : w.c.stack = []) (hl : w.live = 0) : w.onEmpty.c.ended = true := by
  simp [Warp.onEmpty, hs, hl, emptySteps, popDead]

/-- Without a stack the active lanes are the live ones, and none is left once they have exited. -/
theorem live_exited (w : Warp) (hs : w.c.stack = []) :
    ({ w with c := { w.c with exited := w.c.exited ||| w.active } } : Warp).live = 0 := by
  have ha : w.active = w.live := by simp [Warp.active, hs]
  rw [ha]
  simp only [Warp.live]
  ext i
  simp only [BitVec.getElem_and, BitVec.getElem_not, BitVec.getElem_or]
  cases w.c.base[i] <;> cases w.c.exited[i] <;> cases w.c.fmask[i] <;> simp

theorem exitWarp_keeps (w : Warp) : (exitWarp w).c.exited = w.c.exited ||| w.active ∧ (exitWarp w).r = w.r ∧
    (exitWarp w).sp = w.sp ∧ (w.c.stack = [] → (exitWarp w).c.ended = true) := by
  obtain ⟨he, hr, hsp⟩ := onEmpty_keeps (Warp.advance { w with c := { w.c with exited := w.c.exited ||| w.active } })
  refine ⟨he.trans ?_, hr.trans (advance_r _), hsp.trans (advance_sp _), fun hs => onEmpty_ends _ ?_ ?_⟩
  · rw [advance_eq]
    rfl
  · rw [advance_eq]
    exact hs
  · rw [advance_eq]
    exact live_exited w hs

theorem exit_answers (h : Issues s₀ s .exit act r g w) (hl : w.c.pos.idx = w.c.pos.cl.len) :
    exec .exit s₀ = .next (retire (s.setWarp r w) r (g.setWarp r.wp w) w (exitWarp w) true) :=
  (transferring_last h hl _).trans (issues_runUniform h _)

end

/-! ### The obligation: divergence -/

theorem divergenceSplit_holds : Sys2Proof.Claims.divergenceSplit := by
  intro s₀ s r g w o p n b dest st push taken left isPath
  have hd : ∀ k, dest k = branchTarget w k := fun k => (branchTarget_eq w k).symm
  have hp : isPath = topIsPath w.c.stack := by
    show (match w.c.stack with | e :: _ => e.path | [] => false) = _
    cases w.c.stack <;> rfl
  refine ⟨fun h => ?_, fun h hl => ?_, lastOrTraps_of_transferring (brWarp p n b) fun _ => rfl⟩
  · rw [hd]
    exact mark_answers h
  · rw [hd, hp]
    exact br_answers h hl

theorem divergenceJoin_holds : Sys2Proof.Claims.divergenceJoin := by
  intro s₀ s r g w live push ends
  refine ⟨fun h => ⟨fun hs => ?_, fun e rest hs => join_cons h hs⟩, fun h hl => ?_, lastOrTraps_of_transferring _ fun _ => rfl⟩
  · exact runUniform_ok h (joinWarp_nil hs) id h.lives
  · exact ⟨exitWarp w, exit_answers h hl, exitWarp_keeps w⟩

/-- Settles O7: each of the four instructions answers as its meaning on the warp says, case by case. -/
theorem divergence : Obligations.Divergence := by
  unfold Obligations.Divergence
  exact ⟨divergenceSplit_holds, divergenceJoin_holds⟩

/-! ### LOOP -/

/-- A warp with the count of a loop set. -/
def withCount (w : Warp) (k c : Nat) : Warp := { w with c := { w.c with lc := Table.set w.c.lc k c } }

/-- The count that a LOOP reads (R173). -/
def loopCount (w : Warp) (a : BitVec 6) : Nat := fieldOf (w.sget a.toNat) 0 32

/-- A warp at the first word of a loop body, with its frame innermost (R174). -/
def enterBody (w : Warp) (k start len : Nat) : Warp :=
  Warp.goto { w with c := { w.c with
    frames := Table.set w.c.frames k ⟨start, len⟩
    depth := k + 1
    lbuf := if k = 0 then [] else w.c.lbuf } } (Pos.atTarget start)

/-- LOOP by its nesting and its count (R173, R174). -/
theorem loopWarp_eq (a : BitVec 6) (n : BitVec 2) (l : BitVec 9) (w : Warp) : loopWarp a n l w =
    if n.toNat ≠ w.c.depth ∨ bodyNested w (w.pcOf + 4) l.toNat = false then .trap 0x01 w
    else if loopCount w a = 0 then
      .moved ((withCount w n.toNat (loopCount w a)).toEnd (w.pcOf + 4 + 4 * l.toNat))
    else .moved (enterBody (withCount w n.toNat (loopCount w a)) n.toNat (w.pcOf + 4) l.toNat) := rfl

/-- A body lies within the innermost running one (R174). -/
theorem bodyNested_iff (w : Warp) (start len : Nat) : bodyNested w start len = true ↔
    match w.frame with
    | none => True
    | some f => f.start ≤ start ∧ start + 4 * len ≤ f.start + 4 * f.len := by
  unfold bodyNested
  cases w.frame with
  | none => simp
  | some f =>
    simp only [Bool.and_eq_true, decide_eq_true_eq]
    rfl

/-- The frame of the body that was entered is innermost. -/
theorem frame_enterBody (w : Warp) (k start len : Nat) : (enterBody w k start len).frame = some ⟨start, len⟩ := by
  simp [Warp.frame, enterBody, Warp.goto]

theorem toEnd_keeps (w : Warp) (a : Nat) : (w.toEnd a).active = w.active ∧ (w.toEnd a).c.ended = w.c.ended := by
  unfold Warp.toEnd
  split <;> exact ⟨rfl, rfl⟩

section

variable {s₀ s : State} {r : WRef} {g : Workgroup} {w : Warp} {a : BitVec 6} {n : BitVec 2} {l : BitVec 9}

theorem loop_runs (h : Issues s₀ s (.loop a n l) act r g w) (hl : w.c.pos.idx = w.c.pos.cl.len) :
    exec (.loop a n l) s₀ = runUniform s₀ (.loop a n l) (loopWarp a n l) := transferring_last h hl _

/-- A LOOP without a count goes to the end of its body (R173). -/
theorem loop_skips (h : Issues s₀ s (.loop a n l) act r g w) (hl : w.c.pos.idx = w.c.pos.cl.len)
    (hn : n.toNat = w.c.depth) (hb : bodyNested w (w.pcOf + 4) l.toNat = true) (hc : loopCount w a = 0) :
    RetiresAs s₀ s (.loop a n l) r
      (goneTo s.issues ((withCount w n.toNat (loopCount w a)).toEnd (w.pcOf + 4 + 4 * l.toNat))) := by
  obtain ⟨hact, hend⟩ := toEnd_keeps (withCount w n.toNat (loopCount w a)) (w.pcOf + 4 + 4 * l.toNat)
  refine (loop_runs h hl).trans (runUniform_moved h ?_ (fun ha => ?_) (hend.trans h.lives))
  · rw [loopWarp_eq, if_neg (by simp [hn, hb]), if_pos hc]
  · rw [hact]
    exact ha

/-- A LOOP with a count runs its body (R173, R174). -/
theorem loop_enters (h : Issues s₀ s (.loop a n l) act r g w) (hl : w.c.pos.idx = w.c.pos.cl.len)
    (hn : n.toNat = w.c.depth) (hb : bodyNested w (w.pcOf + 4) l.toNat = true) (hc : loopCount w a ≠ 0) :
    RetiresAs s₀ s (.loop a n l) r
      (goneTo s.issues (enterBody (withCount w n.toNat (loopCount w a)) n.toNat (w.pcOf + 4) l.toNat)) := by
  refine (loop_runs h hl).trans (runUniform_moved h ?_ id h.lives)
  rw [loopWarp_eq, if_neg (by simp [hn, hb]), if_neg hc]

/-- A LOOP out of its nesting order takes the illegal-instruction trap (R173). -/
theorem loop_traps (h : Issues s₀ s (.loop a n l) act r g w) (hl : w.c.pos.idx = w.c.pos.cl.len)
    (hb : n.toNat ≠ w.c.depth ∨ bodyNested w (w.pcOf + 4) l.toNat = false) : TrapsWith s₀ s (.loop a n l) r w 0x01 :=
  (loop_runs h hl).trans (runUniform_trap h (by rw [loopWarp_eq, if_pos hb]))

end

/-! ### The end of a body -/

/-- The count of loop k after it went down (R174; a count of 0 wraps: DESIGN CHOICE, log entry 48). -/
def countDown (w : Warp) (k : Nat) : Nat := (Table.get w.c.lc 0 k + (2 ^ 32 - 1)) % 2 ^ 32

/-- A warp whose innermost frame has gone, at the word after its body (R174). -/
def leaveBody (w : Warp) (f : LoopFrame) : Warp :=
  { w with c := { w.c with
    lc := Table.set w.c.lc (w.c.depth - 1) (countDown w (w.c.depth - 1))
    depth := w.c.depth - 1
    pos := Pos.atTarget f.end_ } }

/-- One body's end: it runs again, or its frame goes and an enclosing body may end at the same word (R174). -/
theorem fallThrough_succ {w : Warp} {f : LoopFrame} (hf : w.frame = some f) (fuel : Nat) : fallThrough w (fuel + 1) =
    if countDown w (w.c.depth - 1) ≠ 0 then
      (withCount w (w.c.depth - 1) (countDown w (w.c.depth - 1))).goto (Pos.atTarget f.start)
    else if (leaveBody w f).atBodyEnd f.end_ then fallThrough (leaveBody w f) fuel
    else leaveBody w f := by
  rw [fallThrough, hf]
  rfl

/-- A frame is innermost when a loop runs and it stands at its depth. -/
theorem frame_eq_some {w : Warp} {f : LoopFrame} (hf : w.frame = some f) :
    ∃ d, w.c.depth = d + 1 ∧ Table.find w.c.frames d = some f := by
  unfold Warp.frame at hf
  split at hf
  · cases hf
  · exact ⟨w.c.depth - 1, by omega, hf⟩

theorem frame_eq_find {w : Warp} {d : Nat} (hd : w.c.depth = d + 1) : w.frame = Table.find w.c.frames d := by
  simp [Warp.frame, hd]

/-- A warp stands at the end of its innermost body when that body's frame says so. -/
theorem atBodyEnd_iff (w : Warp) (e : Nat) : w.atBodyEnd e = true ↔ ∃ f, w.frame = some f ∧ f.end_ = e := by
  unfold Warp.atBodyEnd
  cases w.frame <;> simp

/-- Falling through changes no count at or above the depth it starts from, and no register. -/
theorem fallThrough_keeps (w : Warp) (fuel : Nat) : (fallThrough w fuel).r = w.r ∧
    ∀ j, w.c.depth ≤ j → Table.get (fallThrough w fuel).c.lc 0 j = Table.get w.c.lc 0 j := by
  induction fuel generalizing w with
  | zero => exact ⟨rfl, fun _ _ => rfl⟩
  | succ fuel ih =>
    cases hf : w.frame with
    | none =>
      rw [fallThrough, hf]
      exact ⟨rfl, fun _ _ => rfl⟩
    | some f =>
      obtain ⟨d, hd, -⟩ := frame_eq_some hf
      have counted : ∀ j c, w.c.depth ≤ j → Table.get (Table.set w.c.lc (w.c.depth - 1) c) 0 j = Table.get w.c.lc 0 j :=
        fun j c hj => get_set_other _ _ _ _ _ (by omega)
      rw [fallThrough_succ hf]
      split
      · exact ⟨rfl, fun j hj => counted j _ hj⟩
      · split
        · obtain ⟨hr, hlc⟩ := ih (leaveBody w f)
          exact ⟨hr, fun j hj => (hlc j ((Nat.sub_le _ _).trans hj)).trans (counted j _ hj)⟩
        · exact ⟨rfl, fun j hj => counted j _ hj⟩

/-- The innermost count has gone down once. -/
theorem fallThrough_count {w : Warp} {f : LoopFrame} (hf : w.frame = some f) (fuel : Nat) :
    Table.get (fallThrough w (fuel + 1)).c.lc 0 (w.c.depth - 1) = countDown w (w.c.depth - 1) := by
  rw [fallThrough_succ hf]
  split
  · exact get_set_same _ _ _ _
  · split
    · exact ((fallThrough_keeps (leaveBody w f) fuel).2 _ (Nat.le_refl _)).trans (get_set_same _ _ _ _)
    · exact get_set_same _ _ _ _

/-! ### Where a fall-through comes to rest -/

/-- The fall-through ends with at most the frames it began with. -/
theorem bodyEnd_le (w : Warp) (e d : Nat) : (bodyEnd w e d).1 ≤ d := by
  induction d with
  | zero => exact Nat.le_refl _
  | succ d ih =>
    unfold bodyEnd
    split
    · exact Nat.le_refl _
    · split
      · exact Nat.le_refl _
      · split
        · exact Nat.le_refl _
        · exact ih.trans (Nat.le_succ d)

/-- Where it comes to rest depends on the frames and on the counts below the depth. -/
theorem bodyEnd_congr {w w' : Warp} {d : Nat} (e : Nat) (hf : w'.c.frames = w.c.frames)
    (hc : ∀ j, j < d → Table.get w'.c.lc 0 j = Table.get w.c.lc 0 j) : bodyEnd w' e d = bodyEnd w e d := by
  induction d with
  | zero => rfl
  | succ d ih =>
    unfold bodyEnd
    rw [hf, hc d (Nat.lt_succ_self d), ih (fun j hj => hc j (Nat.lt_succ_of_lt hj))]

/-- The body at depth d ends at the word e, and its count goes down to another number than 0. -/
theorem bodyEnd_again {w : Warp} {f : LoopFrame} {d e : Nat} (hf : Table.find w.c.frames d = some f) (he : f.end_ = e)
    (hc : countDown w d ≠ 0) : bodyEnd w e (d + 1) = (d + 1, f.start) := by
  have he' : f.start + 4 * f.len = e := he
  have hc' : (Table.get w.c.lc 0 d + (2 ^ 32 - 1)) % 2 ^ 32 ≠ 0 := hc
  unfold bodyEnd
  rw [hf]
  dsimp only
  rw [if_neg (not_not.2 he'), if_pos hc']

theorem bodyEnd_goes {w : Warp} {f : LoopFrame} {d e : Nat} (hf : Table.find w.c.frames d = some f) (he : f.end_ = e)
    (hc : countDown w d = 0) : bodyEnd w e (d + 1) = bodyEnd w e d := by
  have he' : f.start + 4 * f.len = e := he
  have hc' : (Table.get w.c.lc 0 d + (2 ^ 32 - 1)) % 2 ^ 32 = 0 := hc
  rw [bodyEnd, hf]
  dsimp only
  rw [if_neg (not_not.2 he'), if_neg (not_not.2 hc')]

/-- A warp whose innermost body does not end at a word stays there. -/
theorem bodyEnd_stays {w : Warp} {e : Nat} (h : w.atBodyEnd e = false) : bodyEnd w e w.c.depth = (w.c.depth, e) := by
  cases hd : w.c.depth with
  | zero => rfl
  | succ d =>
    rw [Warp.atBodyEnd, frame_eq_find hd] at h
    unfold bodyEnd
    cases hf : Table.find w.c.frames d with
    | none => rfl
    | some f =>
      rw [hf] at h
      exact if_pos (of_decide_eq_false h)

/-- Whether the frame at a depth ends at a word. -/
def endsAt (w : Warp) (e j : Nat) : Bool := (Table.find w.c.frames j).any (fun f => f.start + 4 * f.len == e)

/-- The frame at a warp's depth does not end at a word that is no end of its innermost body. -/
theorem endsAt_false {w : Warp} {e j : Nat} (h : w.atBodyEnd e = false) (hj : j + 1 = w.c.depth) : endsAt w e j = false := by
  rw [Warp.atBodyEnd, frame_eq_find hj.symm] at h
  unfold endsAt
  cases hf : Table.find w.c.frames j with
  | none => rfl
  | some f =>
    rw [hf] at h
    exact beq_false_of_ne (of_decide_eq_false h)

/-- The warp y is the warp x after the bodies that end at the word e: where it stands, and what became of every count (R174). -/
structure FellThrough (x : Warp) (e : Nat) (y : Warp) : Prop where
  depth : y.c.depth = (bodyEnd x e x.c.depth).1
  pos : y.c.pos = ⟨(bodyEnd x e x.c.depth).2, 0, .target, .none⟩
  apart : ∀ j, j + 1 < y.c.depth ∨ x.c.depth ≤ j → Table.get y.c.lc 0 j = Table.get x.c.lc 0 j
  innermost : ∀ j, j + 1 = y.c.depth →
    Table.get y.c.lc 0 j = if endsAt x e j then countDown x j else Table.get x.c.lc 0 j
  gone : ∀ j, y.c.depth ≤ j → j < x.c.depth → Table.get x.c.lc 0 j % 2 ^ 32 = 1 ∧ Table.get y.c.lc 0 j = 0

/-- A warp at a word where its innermost body does not end is at rest. -/
theorem fellThrough_refl {x : Warp} {e : Nat} (hp : x.c.pos = Pos.atTarget e) (he : x.atBodyEnd e = false) :
    FellThrough x e x where
  depth := by rw [bodyEnd_stays he]
  pos := by rw [bodyEnd_stays he]; exact hp
  apart _ _ := rfl
  innermost j hj := by rw [endsAt_false he hj]; rfl
  gone j h1 h2 := absurd h2 (Nat.not_lt.2 h1)

/-- A body that runs again keeps its frame. -/
theorem fellThrough_again {x : Warp} {f : LoopFrame} (hf : x.frame = some f) (hc : countDown x (x.c.depth - 1) ≠ 0) :
    FellThrough x f.end_ ((withCount x (x.c.depth - 1) (countDown x (x.c.depth - 1))).goto (Pos.atTarget f.start)) := by
  obtain ⟨d, hd, hfind⟩ := frame_eq_some hf
  rw [hd, Nat.add_sub_cancel] at hc ⊢
  have hb : bodyEnd x f.end_ x.c.depth = (d + 1, f.start) := hd ▸ bodyEnd_again hfind rfl hc
  generalize hk : countDown x d = k
  refine ⟨by rw [hb]; exact hd, by rw [hb]; rfl, fun j hj => get_set_other _ _ _ _ _ ?_, fun j hj => ?_, fun j h1 h2 => ?_⟩
  · change j + 1 < x.c.depth ∨ x.c.depth ≤ j at hj
    omega
  · change j + 1 = x.c.depth at hj
    obtain rfl : j = d := by omega
    have he : endsAt x f.end_ j = true := by simp [endsAt, hfind, LoopFrame.end_]
    rw [he, if_pos rfl, hk]
    exact get_set_same _ _ _ _
  · change x.c.depth ≤ j at h1
    omega

/-- A count that went down to 0 was 1. -/
theorem countDown_eq_zero {w : Warp} {k : Nat} (h : countDown w k = 0) : Table.get w.c.lc 0 k % 2 ^ 32 = 1 := by
  unfold countDown at h
  omega

/-- Where the innermost frame goes, the rest is the fall-through of the enclosing bodies. -/
theorem fellThrough_leave {x y : Warp} {f : LoopFrame} (hf : x.frame = some f) (hc : countDown x (x.c.depth - 1) = 0)
    (h : FellThrough (leaveBody x f) f.end_ y) : FellThrough x f.end_ y := by
  obtain ⟨d, hd, hfind⟩ := frame_eq_some hf
  rw [hd, Nat.add_sub_cancel] at hc
  have hdepth : (leaveBody x f).c.depth = d := by simp [leaveBody, hd]
  have hlow : ∀ j, j ≠ d → Table.get (leaveBody x f).c.lc 0 j = Table.get x.c.lc 0 j := fun j hj =>
    get_set_other _ _ _ _ _ (by omega)
  have hat : Table.get (leaveBody x f).c.lc 0 d = 0 := by simp [leaveBody, hd, hc]
  have hb : bodyEnd (leaveBody x f) f.end_ (leaveBody x f).c.depth = bodyEnd x f.end_ x.c.depth := by
    rw [hdepth, hd, bodyEnd_goes hfind rfl hc]
    exact bodyEnd_congr _ rfl (fun j hj => hlow j (by omega))
  have hle : y.c.depth ≤ d := by
    rw [h.depth, hdepth]
    exact bodyEnd_le _ _ _
  refine ⟨hb ▸ h.depth, hb ▸ h.pos, fun j hj => ?_, fun j hj => ?_, fun j h1 h2 => ?_⟩
  · rw [h.apart j (by omega), hlow j (by omega)]
  · rw [h.innermost j hj, countDown, hlow j (by omega)]
    rfl
  · by_cases hjd : j = d
    · subst hjd
      exact ⟨countDown_eq_zero hc, (h.apart j (by omega)).trans hat⟩
    · have := h.gone j h1 (by omega)
      rwa [hlow j hjd] at this

/-- A fall-through with fuel for every frame comes to rest (R174). -/
theorem fallThrough_rests {fuel : Nat} {x : Warp} {f : LoopFrame} (hf : x.frame = some f) (hd : x.c.depth ≤ fuel) :
    FellThrough x f.end_ (fallThrough x fuel) := by
  induction fuel generalizing x f with
  | zero =>
    obtain ⟨d, h, -⟩ := frame_eq_some hf
    omega
  | succ fuel ih =>
    rw [fallThrough_succ hf]
    split
    · exact fellThrough_again hf (by assumption)
    · rename_i hc
      refine fellThrough_leave hf (not_not.1 hc) ?_
      split
      · rename_i he
        obtain ⟨f', hf', he'⟩ := (atBodyEnd_iff _ _).1 he
        rw [← he']
        exact ih hf' (Nat.sub_le_of_le_add hd)
      · exact fellThrough_refl rfl (Bool.eq_false_iff.2 (by assumption))

/-! ### The obligation: loops -/

theorem loopFallThrough_settles {s : State} {q : WRef} {x : Warp} (h : s.warp q = some x) :
    exec (.loopFallThrough q) s = .next (s.setWarp q x.settle) := by
  show execLoopFallThrough q s = _
  simp [execLoopFallThrough, State.updWarp, h]

/-- Settles O8: LOOP answers as its meaning on the warp says, and a fall-through comes to rest where `bodyEnd` says, by induction
on the frames. -/
theorem loops : Obligations.Loops := by
  unfold Obligations.Loops
  intro s₀ s r g w a n l i start count inner counted
  have hinner : inner ↔ bodyNested w start l.toNat = true := by
    refine Iff.trans ?_ (bodyNested_iff w start l.toNat).symm
    show (match w.frame with | none => True | some f => _) ↔ _
    cases w.frame <;> rfl
  refine ⟨fun h hl hn hb => ⟨fun hc => loop_skips h hl hn (hinner.1 hb) hc, fun hc => ?_⟩, fun h hl hb => ?_,
    lastOrTraps_of_transferring (loopWarp a n l) fun _ => rfl, fun q x f hx => ⟨fun hm => ?_, fun hm hf => ?_⟩⟩
  · exact ⟨_, loop_enters h hl hn (hinner.1 hb) hc, rfl, congrArg (· + 1) hn, frame_enterBody _ _ _ _, get_set_same _ _ _ _, rfl, rfl⟩
  · exact loop_traps h hl (hb.imp_right fun hb => Bool.eq_false_iff.2 fun ht => hb (hinner.2 ht))
  · rw [loopFallThrough_settles hx, Warp.settle, if_neg hm]
  · refine ⟨fallThrough x 4, ?_, fallThrough_count hf 3, (fallThrough_keeps x 4).1, fun hc => ?_, fun hd => ?_⟩
    · rw [loopFallThrough_settles hx, Warp.settle, if_pos hm]
    · rw [fallThrough_succ hf, if_pos (show countDown x (x.c.depth - 1) ≠ 0 from hc)]
      exact ⟨rfl, rfl⟩
    · have hr := fallThrough_rests hf hd
      exact ⟨hr.depth, hr.pos, hr.apart, hr.innermost, hr.gone⟩

/-! ### What writing a lane destination leaves -/

/-- One register that an index names takes the tag, and the new values in its lanes (R31). -/
def writeNamed (tag : BitVec 5) (here : Nat → Mask) (new : Nat → Reg) (w : Warp) (n : Nat) : Warp :=
  w.vset n ⟨tag, mergeLanes (here n) (w.vget n).lanes new⟩

/-- A register that is not named stays. -/
theorem vget_writeNamed_other {tag : BitVec 5} {here : Nat → Mask} {new : Nat → Reg} {k : Nat} {ns : List Nat} (w : Warp)
    (hk : k ∉ ns) : (ns.foldl (writeNamed tag here new) w).vget k = w.vget k := by
  induction ns generalizing w with
  | nil => rfl
  | cons n ns ih =>
    rw [List.mem_cons, not_or] at hk
    exact (ih _ hk.2).trans (vget_vset_other _ _ _ _ hk.1)

/-- A register that is named, however often, takes the tag, and in its lanes the new values (R31). -/
theorem vget_writeNamed {tag : BitVec 5} {here : Nat → Mask} {new : Nat → Reg} {k : Nat} {ns : List Nat} (w : Warp)
    (hk : k ∈ ns) : ((ns.foldl (writeNamed tag here new) w).vget k).tag = tag ∧ ∀ l, l < 32 →
      laneOf ((ns.foldl (writeNamed tag here new) w).vget k).lanes l =
        if (here k).getLsbD l then new l else laneOf (w.vget k).lanes l := by
  induction ns generalizing w with
  | nil => cases hk
  | cons n ns ih =>
    rw [List.foldl_cons]
    by_cases hn : k = n
    · subst hn
      have hget : (writeNamed tag here new w k).vget k = ⟨tag, mergeLanes (here k) (w.vget k).lanes new⟩ := vget_vset_same _ _ _
      by_cases hmem : k ∈ ns
      · obtain ⟨htag, hlanes⟩ := ih (writeNamed tag here new w k) hmem
        refine ⟨htag, fun l hl => ?_⟩
        rw [hlanes l hl, hget, laneOf_mergeLanes _ _ _ _ hl]
        split <;> rfl
      · rw [vget_writeNamed_other _ hmem, hget]
        exact ⟨rfl, fun l hl => laneOf_mergeLanes _ _ _ _ hl⟩
    · have hmem : k ∈ ns := (List.mem_cons.1 hk).resolve_left hn
      have hget : (writeNamed tag here new w n).vget k = w.vget k := vget_vset_other _ _ _ _ hn
      rw [← hget]
      exact ih _ hmem

/-- The lanes that write register n through v[xk]: those of the mask that name it and are not kept. -/
def lanesNaming (w : Warp) (x : Nat) (m keep : Mask) (n : Nat) : Mask :=
  maskOf (fun l => m.getLsbD l && !keep.getLsbD l && (w.windowReg x l == some n))

/-- The registers that the lanes of a mask name through v[xk]. -/
def namedRegs (w : Warp) (x : Nat) (m : Mask) : List Nat := (lanesIn m).filterMap (fun l => w.windowReg x l)

theorem mem_namedRegs (w : Warp) (x : Nat) (m : Mask) (k : Nat) :
    k ∈ namedRegs w x m ↔ ∃ l, l < 32 ∧ m.getLsbD l = true ∧ w.windowReg x l = some k := by
  simp [namedRegs, mem_lanesIn, and_assoc]

theorem writeDst_idx (w : Warp) (x : Nat) (tag : BitVec 5) (m keep : Mask) (new : Nat → Reg) :
    writeDst w (.idx x) tag m keep new = (namedRegs w x m).foldl (writeNamed tag (lanesNaming w x m keep) new) w := rfl

theorem writeDestination_holds : Sys2Proof.Claims.writeDestination := by
  intro w tag m keep new
  refine ⟨fun o => writeDst_frame w o tag m keep new, fun n k => ⟨fun hk => ?_, ?_, fun l hl => ?_⟩,
    fun x k => ⟨fun hk => ?_, fun hk => ?_, fun hk l hl => ?_⟩⟩
  · rw [writeDst_reg]
    exact vget_vset_other _ _ _ _ hk
  · rw [writeDst_reg, vget_vset_same]
  · rw [writeDst_reg, vget_vset_same, laneOf_mergeLanes _ _ _ _ hl]
    simp [hl]
  · rw [writeDst_idx]
    exact vget_writeNamed_other w (mt (mem_namedRegs w x m k).1 hk)
  · rw [writeDst_idx]
    exact (vget_writeNamed w ((mem_namedRegs w x m k).2 hk)).1
  · rw [writeDst_idx, (vget_writeNamed w ((mem_namedRegs w x m k).2 hk)).2 l hl, lanesNaming, getLsbD_maskOf _ _ hl]

/-! ### The format fault -/

/-- An instruction runs through the steps of R114 in a form, under the tags that its class accepts. -/
def RunsLane (f : LaneForm × (BitVec 5 → Bool)) : Prop :=
  ∃ (check : LaneCtx → Option Nat) (op : LaneCtx → Warp), ∀ s, exec f.1.i s = runLane s f.1 f.2 check op

theorem runsLane_intro {f : LaneForm × (BitVec 5 → Bool)} {check : LaneCtx → Option Nat} {op : LaneCtx → Warp}
    (h : ∀ s, exec f.1.i s = runLane s f.1 f.2 check op) : RunsLane f := ⟨check, op, h⟩

/-- Each typed form is that of its instruction's own meaning, which unfolds to the lane steps. -/
theorem typedForms_run (d a b : BitVec 7) (p q g o cc : BitVec 3) (h : BitVec 4) (t v : BitVec 5) (e rm : BitVec 2)
    (n z : BitVec 1) : ∀ f ∈ typedForms d a b p q g o cc h t v e rm n z, RunsLane f := by
  simp only [typedForms, List.forall_mem_append, List.forall_mem_map, List.forall_mem_cons, List.not_mem_nil,
    false_implies, implies_true, and_true]
  repeat' apply And.intro
  all_goals
    apply runsLane_intro
    intro s
    dsimp only [form1, form2, form3, formD, formX, exec, runUnary, runBinary, runTernary, runScalar, runScalarInto, runMove,
      specialClass, execVaddRrr, execVsubRrr, execVmulRrr, execVmulh, execVaddsat, execVsubsat, execVmin, execVmax,
      execVabs, execVneg, execVaddRrs, execVsubRrs, execVmulRrs, execVmad, execVamin, execVamax, execVandRrr,
      execVorRrr, execVxor, execVandn, execVnot, execVandRrs, execVorRrs, execVmov, execVtag, execVunpk, execVshlRrr,
      execVshrRrr, execVsarRrr, execVrol, execVshlRrs, execVshrRrs, execVsarRrs, execVbfx, execVbrev, execVclz,
      execVpopc, execVfaddRrr, execVfsub, execVfmulRrr, execVfmin, execVfmax, execVfaddRrs, execVfmulRrs, execVfsqrt,
      execVfma, execVfabs, execVfneg, execVfclass, execVfrcp, execVfrsq, execVfex2, execVflg2, execVfsin, execVfcos,
      execVshuf, execVshufi, execVlsh, execVbcst, execVsubel, execVbfi, execVpack, execVcmp, execVfcmp, execVsel,
      execXset, execVcvt, execVcvts, execVred, execVscan, execVcav]

theorem laneFormatFault_holds : Sys2Proof.Claims.laneFormatFault := by
  intro s₀ s d a b p q g o cc h t v e rm n z r x w f hmem off m u hi hb
  obtain ⟨check, op, hx⟩ := typedForms_run d a b p q g o cc h t v e rm n z f hmem
  obtain ⟨w0, hc, hl, hs, hf⟩ := hi.word
  rw [hx]
  exact runLane_format hc hl hs hf rfl rfl (hb.imp_right (Or.imp_right Or.inr))

/-- Settles O13: a destination is written register by register, and every typed form runs through the lane steps, whose tag test
comes before any other effect than the switch-off. -/
theorem laneDestinations : Obligations.LaneDestinations := by
  unfold Obligations.LaneDestinations
  exact ⟨writeDestination_holds, laneFormatFault_holds⟩

/-! ### Rounded results fit the width of their format -/

/-- A format of the IEEE kind whose fields fit its width: a sign bit, an exponent and m fraction bits (R83). -/
structure IeeeFits (f : FloatFmt) : Prop where
  ieee : f.ieee = true
  nan : f.hasNan = true
  fraction : 0 < f.m
  width : f.m + 2 ≤ f.width
  greatest : f.maxM = 2 ^ (f.m + 1) - 1
  exponents : (f.emax + f.bias + 1) * 2 ^ f.m ≤ 2 ^ (f.width - 1)

theorem ieeeFits_f32 : IeeeFits fmtF32 := by constructor <;> decide

theorem ieeeFits_bf16 : IeeeFits fmtBf16 := by constructor <;> decide

section

variable {f : FloatFmt}

/-- A sign bit above a magnitude fits the width. -/
theorem signBit_add_lt (h : IeeeFits f) (neg : Bool) {x : Nat} (hx : x < 2 ^ (f.width - 1)) :
    signBit f neg + x < 2 ^ f.width := by
  have hw : 2 ^ f.width = 2 ^ (f.width - 1) + 2 ^ (f.width - 1) := by
    have := h.width
    rw [← Nat.two_mul, ← Nat.pow_succ']
    congr 1
    omega
  unfold signBit
  split <;> omega

/-- The fraction bits below an exponent of all ones fill the magnitude. -/
theorem expOnes_add (h : IeeeFits f) :
    (2 ^ (f.width - 1 - f.m) - 1) * 2 ^ f.m + 2 ^ f.m = 2 ^ (f.width - 1) := by
  have hw := h.width
  calc (2 ^ (f.width - 1 - f.m) - 1) * 2 ^ f.m + 2 ^ f.m
      = (2 ^ (f.width - 1 - f.m) - 1 + 1) * 2 ^ f.m := by rw [Nat.add_mul, Nat.one_mul]
    _ = 2 ^ (f.width - 1 - f.m) * 2 ^ f.m := by rw [Nat.sub_add_cancel Nat.one_le_two_pow]
    _ = 2 ^ (f.width - 1) := by rw [← Nat.pow_add]; congr 1; omega

theorem canonNan_lt (h : IeeeFits f) : canonNan f < 2 ^ f.width := by
  have hm : 2 ^ (f.m - 1) < 2 ^ f.m := Nat.pow_lt_pow_right (by omega) (by have := h.fraction; omega)
  have hs := signBit_add_lt h false (x := canonNan f) (by
    have := expOnes_add h
    simp only [canonNan, h.nan, h.ieee, Bool.not_true, Bool.false_eq_true, if_false, if_true]
    omega)
  simpa [signBit] using hs

theorem infPattern_lt (h : IeeeFits f) (neg : Bool) : infPattern f neg < 2 ^ f.width := by
  have hm : 0 < 2 ^ f.m := Nat.two_pow_pos _
  have := expOnes_add h
  rw [infPattern, if_pos h.ieee]
  exact signBit_add_lt h neg (by omega)

/-- A significand of at most m + 1 bits, or the power of two above them, that does not overflow packs into the width. -/
theorem packFinite_lt (h : IeeeFits f) (neg : Bool) {n : Nat} {q : Int} (hn : n ≤ 2 ^ (f.m + 1))
    (hq : ¬ (q ≥ (f.emax : Int) - f.m ∧ n * 2 ^ (q - ((f.emax : Int) - f.m)).toNat > f.maxM)) :
    packFinite f neg n q < 2 ^ f.width := by
  have hp : 2 ^ (f.m + 1) = 2 * 2 ^ f.m := by rw [Nat.pow_succ, Nat.mul_comm]
  have h0 : 0 < 2 ^ f.m := Nat.two_pow_pos _
  have he := h.exponents
  have hmax := h.greatest
  -- An exponent field of at most emax + bias leaves room for m fraction bits below it.
  have room : ∀ (k : Nat) (r : Nat), k ≤ f.emax + f.bias → r < 2 ^ f.m → k * 2 ^ f.m + r < 2 ^ (f.width - 1) := by
    intro k r hk hr
    have : (k + 1) * 2 ^ f.m ≤ (f.emax + f.bias + 1) * 2 ^ f.m := Nat.mul_le_mul_right _ (by omega)
    rw [Nat.add_mul] at this
    omega
  refine signBit_add_lt h neg ?_
  split
  · have := room 0 n (by omega) (by assumption)
    omega
  · rename_i hlow
    -- A significand with its leading bit set overflows as soon as its spacing exceeds that of the greatest exponent.
    have grows : ∀ j : Nat, n ≤ n * 2 ^ j := fun j => Nat.le_mul_of_pos_right _ (Nat.two_pow_pos _)
    split
    · rename_i htop
      have hlt : q < (f.emax : Int) - f.m := by
        by_contra hge
        have := grows (q - ((f.emax : Int) - f.m)).toNat
        exact hq ⟨by omega, by omega⟩
      exact room _ 0 (by omega) h0
    · rename_i htop
      have hle : q ≤ (f.emax : Int) - f.m := by
        by_contra hgt
        obtain ⟨j, hj⟩ : ∃ j, (q - ((f.emax : Int) - f.m)).toNat = j + 1 := ⟨_, (Nat.succ_pred (by omega)).symm⟩
        have := grows j
        refine hq ⟨by omega, ?_⟩
        rw [hj, Nat.pow_succ, ← Nat.mul_assoc]
        omega
      exact room _ _ (by omega) (by omega)

/-- A significand shifted to the spacing of its value has at most m + 1 bits (R92). -/
theorem shift_to_spacing_lt {mant : Nat} {exp : Int} (he : exp ≥ spacing f (exp + Nat.log2 mant)) :
    mant * 2 ^ (exp - spacing f (exp + Nat.log2 mant)).toNat < 2 ^ (f.m + 1) := by
  have hl : mant < 2 ^ (Nat.log2 mant + 1) := Nat.lt_log2_self
  unfold spacing at *
  calc mant * 2 ^ (exp - (max (exp + Nat.log2 mant) (1 - (f.bias : Int)) - f.m)).toNat
      < 2 ^ (Nat.log2 mant + 1) * 2 ^ (exp - (max (exp + Nat.log2 mant) (1 - (f.bias : Int)) - f.m)).toNat :=
        Nat.mul_lt_mul_of_pos_right hl (Nat.two_pow_pos _)
    _ = 2 ^ (Nat.log2 mant + 1 + (exp - (max (exp + Nat.log2 mant) (1 - (f.bias : Int)) - f.m)).toNat) := (Nat.pow_add ..).symm
    _ ≤ 2 ^ (f.m + 1) := Nat.pow_le_pow_right (by omega) (by omega)

theorem truncate_to_spacing_lt {mant : Nat} {exp : Int} :
    mant / 2 ^ (spacing f (exp + Nat.log2 mant) - exp).toNat < 2 ^ (f.m + 1) := by
  have hl : mant < 2 ^ (Nat.log2 mant + 1) := Nat.lt_log2_self
  rw [Nat.div_lt_iff_lt_mul (Nat.two_pow_pos _), ← Nat.pow_add]
  refine Nat.lt_of_lt_of_le hl (Nat.pow_le_pow_right (by omega) ?_)
  unfold spacing
  omega

/-- A rounding to nearest finishes within the width: with infinity on overflow, else with a packed significand. -/
theorem finishRound_lt (h : IeeeFits f) (neg : Bool) {n : Nat} {q : Int} (inexact : Bool) (hn : n ≤ 2 ^ (f.m + 1)) :
    (finishRound f 0 neg n q inexact).bits < 2 ^ f.width := by
  unfold finishRound
  dsimp only
  split
  · rw [if_pos h.ieee]
    exact infPattern_lt h neg
  · exact packFinite_lt h neg hn (by assumption)

theorem fround_lt (h : IeeeFits f) (neg : Bool) (mant : Nat) (exp : Int) : (fround f neg mant exp).bits < 2 ^ f.width := by
  unfold fround froundMode
  split
  · exact signBit_add_lt h neg (x := 0) (Nat.two_pow_pos _)
  · dsimp only
    split
    · rename_i he
      exact finishRound_lt h neg _ (Nat.le_of_lt (shift_to_spacing_lt he))
    · have hn := truncate_to_spacing_lt (f := f) (mant := mant) (exp := exp)
      have hup : ∀ (up : Bool) (n : Nat), (if up then n + 1 else n) ≤ n + 1 := fun up n => by cases up <;> simp
      exact finishRound_lt h neg _ ((hup _ _).trans hn)

theorem froundInt_lt (h : IeeeFits f) (v exp : Int) (zeroNeg : Bool) : (froundInt f v exp zeroNeg).bits < 2 ^ f.width := by
  unfold froundInt
  split
  · exact signBit_add_lt h zeroNeg (x := 0) (Nat.two_pow_pos _)
  · exact fround_lt h _ _ _

/-- A floating sum fits the width of its format. -/
theorem fadd_lt (h : IeeeFits f) (x y : FVal) : (fadd f x y).bits < 2 ^ f.width := by
  unfold fadd
  dsimp only
  split
  · exact canonNan_lt h
  · exact canonNan_lt h
  · split
    · exact infPattern_lt h _
    · exact canonNan_lt h
  · exact infPattern_lt h _
  · exact infPattern_lt h _
  · exact froundInt_lt h _ _ _

end

/-! ### Group registers -/

/-- A group register holds what was written last; the others stay (R29). -/
theorem gget_gwrite (h : Workgroup) (at_ : Reg) (n k j : Nat) (x : Reg) :
    (h.gwrite at_ n k x).gget j = if j = k then x else h.gget j := by
  split
  · subst_vars
    exact get_set_same _ _ _ _
  · exact get_set_other _ _ _ _ _ (by assumption)

/-- The writes of another register that a GRD does not see yet are as before. -/
theorem fresh_gwrite_other (h : Workgroup) (at_ later : Reg) (n k j : Nat) (x : Reg) (hj : j ≠ k) :
    (h.gwrite at_ n k x).fresh later j = h.fresh later j := by
  simp [Workgroup.fresh, Workgroup.gwrite, Workgroup.gset, get_set_other _ _ _ _ _ hj]

/-- Those of the register that was written. -/
theorem fresh_gwrite_same (h : Workgroup) (at_ later : Reg) (n k : Nat) (x : Reg) :
    (h.gwrite at_ n k x).fresh later k =
      (h.fresh at_ k ++ [(⟨h.gget k, at_, n⟩ : GroupWrite)]).filter (fun y => decide ((later - y.at_).toNat < 2)) := by
  simp [Workgroup.fresh, Workgroup.gwrite, Workgroup.gset]

/-- Two cycles after a write, every write of its cycle or of the one before has been applied (R29). -/
theorem fresh_gwrite_aged (h : Workgroup) (at_ later : Reg) (n k : Nat) (x : Reg) (h2 : 2 ≤ (later - at_).toNat)
    (hmax : (later - at_).toNat < 2 ^ 64 - 1) : (h.gwrite at_ n k x).fresh later k = [] := by
  rw [fresh_gwrite_same, List.filter_eq_nil_iff]
  intro y hy
  have hage : (at_ - y.at_).toNat < 2 := by
    rcases List.mem_append.1 hy with hy | hy
    · exact of_decide_eq_true (List.mem_filter.1 hy).2
    · cases List.mem_singleton.1 hy
      simp
  simp only [decide_eq_true_eq]
  bv_omega

/-- A GRD within two cycles of the only write gives what the register held before it (R29). -/
theorem fresh_gwrite_young (h : Workgroup) (at_ later : Reg) (n k : Nat) (x : Reg) (h2 : (later - at_).toNat < 2)
    (hr : Table.get h.recent [] k = []) : (h.gwrite at_ n k x).fresh later k = [⟨h.gget k, at_, n⟩] := by
  have hnil : h.fresh at_ k = [] := by simp [Workgroup.fresh, hr]
  rw [fresh_gwrite_same, hnil, List.nil_append]
  exact List.filter_cons_of_pos (decide_eq_true h2)

theorem gread_of_fresh_nil {h : Workgroup} {now : Reg} {k : Nat} (hf : h.fresh now k = []) : h.gread now k = h.gget k := by
  simp [Workgroup.gread, hf]

theorem gread_of_fresh_cons {h : Workgroup} {now : Reg} {k : Nat} {y : GroupWrite} {l : List GroupWrite}
    (hf : h.fresh now k = y :: l) : h.gread now k = y.old := by
  simp [Workgroup.gread, hf]

/-- A GRD of a register depends on its writes and on what it holds alone. -/
theorem gread_congr {h h' : Workgroup} {now : Reg} {k : Nat} (hf : h'.fresh now k = h.fresh now k)
    (hg : h'.gget k = h.gget k) : h'.gread now k = h.gread now k := by
  simp [Workgroup.gread, hf, hg]

/-! ### GATOM's registers -/

/-- Replacing the low n bits of a register keeps the bits above them. -/
theorem replace_low_bits {m a : Nat} (old : Reg) (hm : m ≤ 64) (ha : a < 2 ^ m) :
    (BitVec.ofNat 64 (old.toNat - old.toNat % 2 ^ m + a)).toNat / 2 ^ m = old.toNat / 2 ^ m ∧
    (BitVec.ofNat 64 (old.toNat - old.toNat % 2 ^ m + a)).toNat % 2 ^ m = a := by
  have hp : 0 < 2 ^ m := Nat.two_pow_pos _
  have hsplit : old.toNat - old.toNat % 2 ^ m = 2 ^ m * (old.toNat / 2 ^ m) := by
    have := Nat.div_add_mod old.toNat (2 ^ m)
    omega
  have hdiv : old.toNat / 2 ^ m < 2 ^ (64 - m) := by
    rw [Nat.div_lt_iff_lt_mul hp, ← Nat.pow_add, Nat.sub_add_cancel hm]
    exact old.isLt
  have hlt : 2 ^ m * (old.toNat / 2 ^ m) + a < 2 ^ 64 :=
    calc 2 ^ m * (old.toNat / 2 ^ m) + a < 2 ^ m * (old.toNat / 2 ^ m) + 2 ^ m := by omega
      _ = 2 ^ m * (old.toNat / 2 ^ m + 1) := by rw [Nat.mul_add, Nat.mul_one]
      _ ≤ 2 ^ m * 2 ^ (64 - m) := Nat.mul_le_mul_left _ hdiv
      _ = 2 ^ 64 := by rw [← Nat.pow_add, Nat.add_sub_cancel' hm]
  rw [hsplit, BitVec.toNat_ofNat, Nat.mod_eq_of_lt hlt, Nat.mul_add_div hp, Nat.div_eq_of_lt ha, Nat.mul_add_mod,
    Nat.mod_eq_of_lt ha]
  simp

/-- The width that GATOM works on (R205). -/
theorem atomSize_bits (o : BitVec 4) : 8 * atomSize o = if o = 0xA then 32 else if o = 0xB then 16 else 64 := by
  revert o
  decide

theorem atomNew_f32_lt (old v : Nat) : atomNew 0xA 32 old v < 2 ^ 32 := fadd_lt ieeeFits_f32 _ _

theorem atomNew_bf16_lt (old v : Nat) : atomNew 0xB 16 old v < 2 ^ 16 := fadd_lt ieeeFits_bf16 _ _

/-- GATOM returns the low bits that it works on. -/
theorem gatomOn_fst (o : BitVec 4) (old v : Reg) {m : Nat} (hm : 8 * atomSize o = m) :
    (gatomOn o old v).1 = BitVec.ofNat 64 (old.toNat % 2 ^ m) := by
  simp [gatomOn, hm]

/-- An operation on all 64 bits leaves its result. -/
theorem gatomOn_snd_full (o : BitVec 4) (old v : Reg) (hm : 8 * atomSize o = 64) :
    (gatomOn o old v).2 = BitVec.ofNat 64 (atomNew o 64 old.toNat v.toNat) := by
  have hmod : ∀ x : Reg, x.toNat % 2 ^ 64 = x.toNat := fun x => Nat.mod_eq_of_lt x.isLt
  simp only [gatomOn, hm, hmod, Nat.sub_self, Nat.zero_add]

/-- A floating operation works on the low bits and keeps those above them. -/
theorem gatomOn_snd_low (o : BitVec 4) (old v : Reg) {m : Nat} (hm : 8 * atomSize o = m) (h64 : m ≤ 64)
    (hlt : atomNew o m (old.toNat % 2 ^ m) (v.toNat % 2 ^ m) < 2 ^ m) :
    (gatomOn o old v).2.toNat / 2 ^ m = old.toNat / 2 ^ m ∧
    (gatomOn o old v).2.toNat % 2 ^ m = atomNew o m (old.toNat % 2 ^ m) (v.toNat % 2 ^ m) % 2 ^ m := by
  have := replace_low_bits old h64 hlt
  simpa only [gatomOn, hm, Nat.mod_eq_of_lt hlt] using this

/-- What GATOM leaves in its register, by the width it works on. -/
theorem gatomOn_snd (o : BitVec 4) (old v : Reg) {m : Nat} (hm : 8 * atomSize o = m) :
    (m = 64 → (gatomOn o old v).2 = BitVec.ofNat 64 (atomNew o 64 old.toNat v.toNat)) ∧
    (m < 64 → (gatomOn o old v).2.toNat / 2 ^ m = old.toNat / 2 ^ m ∧
      (gatomOn o old v).2.toNat % 2 ^ m = atomNew o m (old.toNat % 2 ^ m) (v.toNat % 2 ^ m) % 2 ^ m) := by
  refine ⟨fun h => gatomOn_snd_full o old v (hm.trans h), fun h => ?_⟩
  have hlt : atomNew o m (old.toNat % 2 ^ m) (v.toNat % 2 ^ m) < 2 ^ m := by
    rw [atomSize_bits] at hm
    split at hm
    · subst_vars
      exact atomNew_f32_lt _ _
    · split at hm
      · subst_vars
        exact atomNew_bf16_lt _ _
      · omega
  exact gatomOn_snd_low o old v hm (by omega) hlt

/-! ### The group instructions -/

section

variable {s₀ s : State} {i : Instr} {r : WRef} {g : Workgroup} {w : Warp}

/-- Putting a warp leaves the tiles. -/
theorem tile_setWarp (s : State) (r : WRef) (w : Warp) (t : Nat) : (s.setWarp r w).tile t = s.tile t := by
  rw [setWarp_frame]
  rfl

/-- A change of a workgroup depends on what it does to the one that is there. -/
theorem updWg_congr {s : State} {u : Nat} {g : Workgroup} {f f' : Workgroup → Workgroup} (hg : s.wg u = some g)
    (hf : f g = f' g) : s.updWg u f = s.updWg u f' := by
  simp [State.updWg, hg, hf]

/-- The cycle at which a write of an issuing warp counts is that of its workgroup's tile. -/
theorem updWg_gwrite {m : Warp → Mask} (h : Issues s₀ s i m r g w) (k : Nat) (x : Reg) :
    (s.setWarp r w).updWg r.wg (fun g' => g'.gwrite ((s.setWarp r w).tile g'.tile).cycle r.wp k x) =
      (s.setWarp r w).updWg r.wg (fun g' => g'.gwrite (s.tile g.tile).cycle r.wp k x) := by
  refine updWg_congr (wg_setWarp s r g w (issues_wg h)) ?_
  rw [tile_setWarp]
  rfl

theorem grd_writes {d : BitVec 6} {k : BitVec 4} (h : Issues s₀ s (.grd d k) act r g w) :
    WritesS s₀ s (.grd d k) r w d (g.gread (s.tile g.tile).cycle k.toNat) := by
  refine writesS_of_retire (g := g) h.lives ?_
  rw [← tile_setWarp s r w]
  show execGrd d k s₀ = _
  rw [execGrd, issues_runNamed h]
  rfl

theorem gwr_retires {a : BitVec 6} {k : BitVec 4} (h : Issues s₀ s (.gwr a k) act r g w) :
    RetiresFrom s₀ (.gwr a k) r g w ((s.setWarp r w).updWg r.wg
      (fun g' => g'.gwrite (s.tile g.tile).cycle r.wp k.toNat (w.sget a.toNat))) w := by
  show execGwr a k s₀ = _
  rw [execGwr, issues_runNamed h, updWg_gwrite h]

theorem gatom_retires {d a : BitVec 6} {k o : BitVec 4} (h : Issues s₀ s (.gatom d k a o) act r g w) :
    RetiresFrom s₀ (.gatom d k a o) r g w ((s.setWarp r w).updWg r.wg
      (fun g' => g'.gwrite (s.tile g.tile).cycle r.wp k.toNat (gatomOn o (g.gget k.toNat) (w.sget a.toNat)).2))
      (w.sset d.toNat (gatomOn o (g.gget k.toNat) (w.sget a.toNat)).1) := by
  show execGatom d k a o s₀ = _
  rw [execGatom, issues_runNamed h]
  dsimp only
  rw [updWg_gwrite h]
  rfl

end

/-- Settles O27: the three instructions each retire as their runner answers, and what a GRD sees follows from the writes
that are still fresh. -/
theorem groupRegisters : Obligations.GroupRegisters := by
  unfold Obligations.GroupRegisters
  intro s₀ s d a k o r g w s0 old now m wrote
  refine ⟨grd_writes, gwr_retires, fun h => ?_, fun h j n x at_ later => ⟨?_, fun hj => ⟨?_, ?_⟩, rfl, rfl, ?_, ?_⟩⟩
  · have hm : 8 * atomSize o = m := atomSize_bits o
    refine ⟨(gatomOn o old (w.sget a.toNat)).2, ?_, gatomOn_snd o old _ hm⟩
    rw [← gatomOn_fst o old (w.sget a.toNat) hm]
    exact gatom_retires h
  · exact (gget_gwrite h at_ n _ _ x).trans (if_pos rfl)
  · exact (gget_gwrite h at_ n _ j x).trans (if_neg hj)
  · exact gread_congr (fresh_gwrite_other h at_ later n _ j x hj) ((gget_gwrite h at_ n _ j x).trans (if_neg hj))
  · intro h2 hmax
    rw [gread_of_fresh_nil (fresh_gwrite_aged h at_ later n _ x h2 hmax), gget_gwrite, if_pos rfl]
  · intro h2 hr
    exact gread_of_fresh_cons (fresh_gwrite_young h at_ later n _ x h2 hr)

/-! ### Streams -/

/-- The low field of a word at bit 0. -/
theorem fieldOf_zero (x : Reg) (n : Nat) : fieldOf x 0 n = x.toNat % 2 ^ n := by simp [fieldOf]

/-- Replacing the low 32 bits of a register gives them and keeps the high ones. -/
theorem setField_low (x : Reg) {v : Nat} (hv : v < 2 ^ 32) :
    (setField x 0 32 v).toNat % 2 ^ 32 = v ∧ (setField x 0 32 v).toNat / 2 ^ 32 = x.toNat / 2 ^ 32 := by
  have hx := x.isLt
  simp only [setField, placed, fieldOf, BitVec.toNat_ofNat, Nat.pow_zero, Nat.div_one, Nat.mul_one]
  omega

/-- The fourth word of a stream whose position was moved by an amount, not past 2^32 - 1 (R202). -/
def skipped (x : Stream) (v : Reg) : Reg := setField x.w4 0 32 (min (x.pos + v.toNat) (2 ^ 32 - 1))

theorem skipped_low (x : Stream) (v : Reg) :
    (skipped x v).toNat % 2 ^ 32 = min (x.w4.toNat % 2 ^ 32 + v.toNat) (2 ^ 32 - 1) ∧
    (skipped x v).toNat / 2 ^ 32 = x.w4.toNat / 2 ^ 32 := by
  have hpos : x.pos = x.w4.toNat % 2 ^ 32 := fieldOf_zero _ _
  rw [skipped, ← hpos]
  exact setField_low _ (by omega)

section

variable {s₀ s : State} {i : Instr} {r : WRef} {g : Workgroup} {w : Warp}

/-- What STSET, STPOS and STSKIP share on a stream that is no member of a convoy: it is set, prefetch starts again, and the instruction
retires (R201, R202). -/
theorem restream_retires {n : Nat} (f : Stream → Stream) (hm : w.sp.cvm.getLsbD n = false)
    (h : exec i s₀ = .next (restream (s.setWarp r w) r (g.setWarp r.wp w) w n f)) :
    ∃ p : State × Warp,
      p = prefetch (s.setWarp r w) r (g.setWarp r.wp w) (w.setStream n { f (w.stream n) with pre := [] }) n ∧
      RetiresFrom s₀ i r g w p.1 p.2 := by
  refine ⟨_, rfl, h.trans ?_⟩
  simp [restream, outOfConvoy, hm]

/-- The words that STSET refuses (R201). -/
theorem streamWordsBad_eq_false (x y : Reg) : streamWordsBad x y = false ↔
    fieldOf x 56 8 = 0 ∧ fieldOf x 53 3 ≤ 4 ∧ byteFmt (BitVec.ofNat 5 (fieldOf x 48 5)) = true ∧
      fieldOf y 0 32 ≠ 0 ∧ fieldOf y 32 32 ≠ 0 := by
  simp [streamWordsBad, and_assoc]

theorem stset_answers {a : BitVec 6} {n : BitVec 3} (h : Issues s₀ s (.stset a n) act r g w) :
    exec (.stset a n) s₀ = .next (
      if streamWordsBad (w.sget (a.toNat + 0)) (w.sget (a.toNat + 1)) then preciseTrap (s.setWarp r w) r w 0x02
      else restream (s.setWarp r w) r (g.setWarp r.wp w) w n.toNat (fun _ =>
        ⟨w.sget (a.toNat + 0), w.sget (a.toNat + 1), w.sget (a.toNat + 2), w.sget (a.toNat + 3), 0, []⟩)) := by
  show execStset a n s₀ = _
  rw [execStset, issues_runNamed h]

theorem stpos_answers {a : BitVec 6} {n : BitVec 3} (h : Issues s₀ s (.stpos a n) act r g w) :
    exec (.stpos a n) s₀ = .next (restream (s.setWarp r w) r (g.setWarp r.wp w) w n.toNat
      (fun x => { x with w4 := BitVec.ofNat 64 ((w.sget a.toNat).toNat % 2 ^ 32) })) := by
  show execStpos a n s₀ = _
  rw [execStpos, issues_runNamed h, fieldOf_zero]

theorem stskip_answers {a : BitVec 6} {n : BitVec 3} (h : Issues s₀ s (.stskip a n) act r g w) :
    exec (.stskip a n) s₀ = .next (restream (s.setWarp r w) r (g.setWarp r.wp w) w n.toNat
      (fun x => { x with w4 := skipped x (w.sget a.toNat) })) := by
  show execStskip a n s₀ = _
  rw [execStskip, issues_runNamed h]
  rfl

theorem stsave_writes {d : BitVec 6} {k n : BitVec 3} (h : Issues s₀ s (.stsave d k n) act r g w) :
    WritesS s₀ s (.stsave d k n) r w d ((w.stream n.toNat).word k.toNat) := by
  refine writesS_of_retire (g := g) h.lives ?_
  show execStsave d k n s₀ = _
  rw [execStsave, issues_runUniform h]
  rfl

end

/-- A position of 32 bits below an EXH bit. -/
theorem advance_w4 (x : Stream) (exh : Bool) :
    (x.advance exh).w4.toNat % 2 ^ 32 = min (x.w4.toNat % 2 ^ 32 + 1) (2 ^ 32 - 1) ∧
    (x.advance exh).w4.toNat / 2 ^ 32 = (if exh then 1 else x.w4.toNat / 2 ^ 32 % 2) := by
  simp only [Stream.advance, Stream.pos, fieldOf, BitVec.toNat_ofNat, Nat.pow_zero, Nat.div_one, Nat.pow_one]
  split <;> omega

/-- A consumption keeps the prefetched vectors from the new position on. -/
theorem mem_advance_pre (x : Stream) (exh : Bool) (v : PreVec) :
    v ∈ (x.advance exh).pre ↔ v ∈ x.pre ∧ min (x.w4.toNat % 2 ^ 32 + 1) (2 ^ 32 - 1) ≤ v.at_ := by
  simp [Stream.advance, Stream.pos, fieldOf_zero]

/-- The lanes of the mask before the end read their element (R26). -/
theorem mem_reads (x : Stream) (m : Mask) (p l : Nat) (a : Int) : (l, a) ∈ x.reads m p ↔ l < 32 ∧ m.getLsbD l = true ∧
    p * 32 + l < (x.w1.toNat % 2 ^ 32) * (x.w1.toNat / 2 ^ 32) ∧ a = x.addr (p * 32 + l) := by
  have hw := x.w1.isLt
  have ho : x.ocount = x.w1.toNat / 2 ^ 32 := by
    rw [Stream.ocount, fieldOf]
    omega
  have hi : x.icount = x.w1.toNat % 2 ^ 32 := fieldOf_zero _ _
  simp only [Stream.reads, List.mem_filterMap, mem_lanesIn, ho, hi, Option.ite_none_right_eq_some, Option.some.injEq,
    Prod.mk.injEq]
  constructor
  · rintro ⟨l, ⟨hl, hm⟩, he, rfl, rfl⟩
    exact ⟨hl, hm, he, rfl⟩
  · rintro ⟨hl, hm, he, rfl⟩
    exact ⟨l, ⟨hl, hm⟩, he, rfl, rfl⟩

/-- The address of an element, by the counts and strides of its stream (R25). -/
theorem stream_addr (y : Stream) (e : Nat) : y.addr e = (y.w0.toNat % 2 ^ 48 : Nat) +
    ((e % (y.w1.toNat % 2 ^ 32) : Nat) : Int) * y.w2.toInt + ((e / (y.w1.toNat % 2 ^ 32) : Nat) : Int) * y.w3.toInt := by
  simp only [Stream.addr, fieldOf_zero]

theorem streams_hold : Sys2Proof.Claims.streams := by
  unfold Sys2Proof.Claims.streams
  intro s₀ s d a n k r g w s0 g0 x old legalWords sets hm
  have hlegal : streamWordsBad (x 0) (x 1) = false ↔ legalWords := streamWordsBad_eq_false _ _
  refine ⟨fun h => ⟨fun hl => ?_, fun hl => ?_⟩, fun h => ?_, fun h => ?_, fun h => ?_, stream_addr⟩
  · refine restream_retires (fun _ => ⟨x 0, x 1, x 2, x 3, 0, []⟩) hm ((stset_answers h).trans ?_)
    rw [if_neg (by rw [hlegal.2 hl]; exact Bool.false_ne_true)]
  · rw [stset_answers h, if_pos (by rw [← Bool.not_eq_false, hlegal]; exact hl)]
  · exact restream_retires (fun y => { y with w4 := BitVec.ofNat 64 ((w.sget a.toNat).toNat % 2 ^ 32) }) hm (stpos_answers h)
  · refine ⟨skipped old (w.sget a.toNat), ?_, skipped_low old _⟩
    exact restream_retires (fun y => { y with w4 := skipped y (w.sget a.toNat) }) hm (stskip_answers h)
  · refine ⟨_, stsave_writes h, ?_⟩
    refine ⟨?_, ?_, ?_, ?_, ?_⟩ <;> rintro rfl <;> rfl

/-- A consumption changes the fourth word and the prefetched vectors alone. -/
theorem advance_changes (x : Stream) (exh : Bool) : ∃ (v : Reg) (l : List PreVec), x.advance exh = { x with w4 := v, pre := l } :=
  ⟨_, _, rfl⟩

theorem advance_words (x : Stream) (exh : Bool) : (x.advance exh).w0 = x.w0 ∧ (x.advance exh).w1 = x.w1 ∧
    (x.advance exh).w2 = x.w2 ∧ (x.advance exh).w3 = x.w3 := by
  obtain ⟨v, l, h⟩ := advance_changes x exh
  rw [h]
  exact ⟨rfl, rfl, rfl, rfl⟩

theorem streamAdvance_holds : Sys2Proof.Claims.streamAdvance := by
  intro x m p exh
  obtain ⟨h0, h1, h2, h3⟩ := advance_words x exh
  obtain ⟨hpos, hexh⟩ := advance_w4 x exh
  exact ⟨h0, h1, h2, h3, hpos, hexh, mem_reads x m p, fun v => (mem_advance_pre x exh v).1⟩

/-- Settles O26: the stream instructions answer by restarting the stream they set, and a consumption is arithmetic on its
fourth word. -/
theorem streamRegisters : Obligations.StreamRegisters := by
  unfold Obligations.StreamRegisters
  exact ⟨streams_hold, streamAdvance_holds⟩

end Sys2Proof.Proofs

/-! PROOFS of the family of instruction words: the encoding both ways, transfers of control, literals and headers, what an
acknowledgement leaves of its warp, illegal words, and how a step finds the instruction that it runs. -/

namespace Sys2Proof.Proofs

open Sys2Proof.Machine Sys2Proof.Claims Sys2Proof.Laws Sys2Proof.Laws.State

/-! ### From an instruction to its word and back -/

/-- Every instruction has a word that decodes to it or is an event, which has none: each instruction word by its own law. -/
theorem encode_statement (i : Instr) : EncodeDecode.Statement i := by
  cases i with
  | vaddRrr => exact EncodeDecode.vaddRrr ..
  | vsubRrr => exact EncodeDecode.vsubRrr ..
  | vmulRrr => exact EncodeDecode.vmulRrr ..
  | vmulh => exact EncodeDecode.vmulh ..
  | vmad => exact EncodeDecode.vmad ..
  | vaddsat => exact EncodeDecode.vaddsat ..
  | vsubsat => exact EncodeDecode.vsubsat ..
  | vmin => exact EncodeDecode.vmin ..
  | vmax => exact EncodeDecode.vmax ..
  | vabs => exact EncodeDecode.vabs ..
  | vneg => exact EncodeDecode.vneg ..
  | vandRrr => exact EncodeDecode.vandRrr ..
  | vorRrr => exact EncodeDecode.vorRrr ..
  | vxor => exact EncodeDecode.vxor ..
  | vandn => exact EncodeDecode.vandn ..
  | vnot => exact EncodeDecode.vnot ..
  | vshlRrr => exact EncodeDecode.vshlRrr ..
  | vshrRrr => exact EncodeDecode.vshrRrr ..
  | vsarRrr => exact EncodeDecode.vsarRrr ..
  | vrol => exact EncodeDecode.vrol ..
  | vclz => exact EncodeDecode.vclz ..
  | vpopc => exact EncodeDecode.vpopc ..
  | vbrev => exact EncodeDecode.vbrev ..
  | vbfx => exact EncodeDecode.vbfx ..
  | vbfi => exact EncodeDecode.vbfi ..
  | vcmp => exact EncodeDecode.vcmp ..
  | vsel => exact EncodeDecode.vsel ..
  | vmov => exact EncodeDecode.vmov ..
  | vmovs => exact EncodeDecode.vmovs ..
  | vamin => exact EncodeDecode.vamin ..
  | vamax => exact EncodeDecode.vamax ..
  | vfaddRrr => exact EncodeDecode.vfaddRrr ..
  | vfsub => exact EncodeDecode.vfsub ..
  | vfmulRrr => exact EncodeDecode.vfmulRrr ..
  | vfma => exact EncodeDecode.vfma ..
  | vfmin => exact EncodeDecode.vfmin ..
  | vfmax => exact EncodeDecode.vfmax ..
  | vfabs => exact EncodeDecode.vfabs ..
  | vfneg => exact EncodeDecode.vfneg ..
  | vfcmp => exact EncodeDecode.vfcmp ..
  | vfrcp => exact EncodeDecode.vfrcp ..
  | vfrsq => exact EncodeDecode.vfrsq ..
  | vfsqrt => exact EncodeDecode.vfsqrt ..
  | vfex2 => exact EncodeDecode.vfex2 ..
  | vflg2 => exact EncodeDecode.vflg2 ..
  | vfsin => exact EncodeDecode.vfsin ..
  | vfcos => exact EncodeDecode.vfcos ..
  | vfclass => exact EncodeDecode.vfclass ..
  | vcvt => exact EncodeDecode.vcvt ..
  | vcvts => exact EncodeDecode.vcvts ..
  | vtag => exact EncodeDecode.vtag ..
  | vpack => exact EncodeDecode.vpack ..
  | vunpk => exact EncodeDecode.vunpk ..
  | vaddRrs => exact EncodeDecode.vaddRrs ..
  | vsubRrs => exact EncodeDecode.vsubRrs ..
  | vmulRrs => exact EncodeDecode.vmulRrs ..
  | vandRrs => exact EncodeDecode.vandRrs ..
  | vorRrs => exact EncodeDecode.vorRrs ..
  | vshlRrs => exact EncodeDecode.vshlRrs ..
  | vshrRrs => exact EncodeDecode.vshrRrs ..
  | vsarRrs => exact EncodeDecode.vsarRrs ..
  | vfaddRrs => exact EncodeDecode.vfaddRrs ..
  | vfmulRrs => exact EncodeDecode.vfmulRrs ..
  | vshuf => exact EncodeDecode.vshuf ..
  | vshufi => exact EncodeDecode.vshufi ..
  | vlsh => exact EncodeDecode.vlsh ..
  | vbcst => exact EncodeDecode.vbcst ..
  | vred => exact EncodeDecode.vred ..
  | vscan => exact EncodeDecode.vscan ..
  | vcav => exact EncodeDecode.vcav ..
  | vballot => exact EncodeDecode.vballot ..
  | vsubel => exact EncodeDecode.vsubel ..
  | vxswap => exact EncodeDecode.vxswap ..
  | vld => exact EncodeDecode.vld ..
  | vst => exact EncodeDecode.vst ..
  | vatom => exact EncodeDecode.vatom ..
  | vcas => exact EncodeDecode.vcas ..
  | vprf => exact EncodeDecode.vprf ..
  | vlds => exact EncodeDecode.vlds ..
  | vsts => exact EncodeDecode.vsts ..
  | vatoms => exact EncodeDecode.vatoms ..
  | br => exact EncodeDecode.br ..
  | xset => exact EncodeDecode.xset ..
  | xadd => exact EncodeDecode.xadd ..
  | sadd => exact EncodeDecode.sadd ..
  | ssub => exact EncodeDecode.ssub ..
  | smul => exact EncodeDecode.smul ..
  | smulh => exact EncodeDecode.smulh ..
  | smulhU => exact EncodeDecode.smulhU ..
  | sdiv => exact EncodeDecode.sdiv ..
  | sdivU => exact EncodeDecode.sdivU ..
  | srem => exact EncodeDecode.srem ..
  | sremU => exact EncodeDecode.sremU ..
  | sand => exact EncodeDecode.sand ..
  | sor => exact EncodeDecode.sor ..
  | sxor => exact EncodeDecode.sxor ..
  | snot => exact EncodeDecode.snot ..
  | sshl => exact EncodeDecode.sshl ..
  | sshr => exact EncodeDecode.sshr ..
  | ssar => exact EncodeDecode.ssar ..
  | smin => exact EncodeDecode.smin ..
  | sminU => exact EncodeDecode.sminU ..
  | smax => exact EncodeDecode.smax ..
  | smaxU => exact EncodeDecode.smaxU ..
  | ssel => exact EncodeDecode.ssel ..
  | smov => exact EncodeDecode.smov ..
  | scmp => exact EncodeDecode.scmp ..
  | smovi => exact EncodeDecode.smovi ..
  | saddImm => exact EncodeDecode.saddImm ..
  | sandImm => exact EncodeDecode.sandImm ..
  | sorImm => exact EncodeDecode.sorImm ..
  | sxorImm => exact EncodeDecode.sxorImm ..
  | sshlImm => exact EncodeDecode.sshlImm ..
  | sshrImm => exact EncodeDecode.sshrImm ..
  | ssarImm => exact EncodeDecode.ssarImm ..
  | slane => exact EncodeDecode.slane ..
  | spredGet => exact EncodeDecode.spredGet ..
  | spredSet => exact EncodeDecode.spredSet ..
  | spredAct => exact EncodeDecode.spredAct ..
  | bra => exact EncodeDecode.bra ..
  | brasNz => exact EncodeDecode.brasNz ..
  | brasZ => exact EncodeDecode.brasZ ..
  | call => exact EncodeDecode.call ..
  | ret => exact EncodeDecode.ret ..
  | mark => exact EncodeDecode.mark ..
  | join => exact EncodeDecode.join ..
  | loop => exact EncodeDecode.loop ..
  | exit => exact EncodeDecode.exit ..
  | nop => exact EncodeDecode.nop ..
  | xwin => exact EncodeDecode.xwin ..
  | sld => exact EncodeDecode.sld ..
  | sst => exact EncodeDecode.sst ..
  | satom => exact EncodeDecode.satom ..
  | scas => exact EncodeDecode.scas ..
  | ldlW => exact EncodeDecode.ldlW ..
  | ldlD => exact EncodeDecode.ldlD ..
  | acq => exact EncodeDecode.acq ..
  | rel => exact EncodeDecode.rel ..
  | fence => exact EncodeDecode.fence ..
  | publish => exact EncodeDecode.publish ..
  | stset => exact EncodeDecode.stset ..
  | stsave => exact EncodeDecode.stsave ..
  | stpos => exact EncodeDecode.stpos ..
  | stskip => exact EncodeDecode.stskip ..
  | grd => exact EncodeDecode.grd ..
  | gwr => exact EncodeDecode.gwr ..
  | gatom => exact EncodeDecode.gatom ..
  | qbind => exact EncodeDecode.qbind ..
  | qpush => exact EncodeDecode.qpush ..
  | qpushv => exact EncodeDecode.qpushv ..
  | qpop => exact EncodeDecode.qpop ..
  | qtry => exact EncodeDecode.qtry ..
  | qsteal => exact EncodeDecode.qsteal ..
  | qlen => exact EncodeDecode.qlen ..
  | mma => exact EncodeDecode.mma ..
  | mmt => exact EncodeDecode.mmt ..
  | mzero => exact EncodeDecode.mzero ..
  | mscale => exact EncodeDecode.mscale ..
  | cpy => exact EncodeDecode.cpy ..
  | cpt => exact EncodeDecode.cpt ..
  | cpr => exact EncodeDecode.cpr ..
  | cpx => exact EncodeDecode.cpx ..
  | cpc => exact EncodeDecode.cpc ..
  | cpclose => exact EncodeDecode.cpclose ..
  | cpwait => exact EncodeDecode.cpwait ..
  | tbinit => exact EncodeDecode.tbinit ..
  | tbexp => exact EncodeDecode.tbexp ..
  | tbarr => exact EncodeDecode.tbarr ..
  | tbwait => exact EncodeDecode.tbwait ..
  | bar => exact EncodeDecode.bar ..
  | gbar => exact EncodeDecode.gbar ..
  | cvjoin => exact EncodeDecode.cvjoin ..
  | cvleave => exact EncodeDecode.cvleave ..
  | cvslip => exact EncodeDecode.cvslip ..
  | cvrejoin => exact EncodeDecode.cvrejoin ..
  | srd => exact EncodeDecode.srd ..
  | srdV => exact EncodeDecode.srdV ..
  | swr => exact EncodeDecode.swr ..
  | trap => exact EncodeDecode.trap ..
  | tret => exact EncodeDecode.tret ..
  | sigdone => exact EncodeDecode.sigdone ..
  | region => exact EncodeDecode.region ..
  | setperf => exact EncodeDecode.setperf ..
  | waitc => exact EncodeDecode.waitc ..
  | cancel => exact EncodeDecode.cancel ..
  | sleep => exact EncodeDecode.sleep ..
  | bkpt => exact EncodeDecode.bkpt ..
  | pool => exact EncodeDecode.pool ..
  | clause => exact EncodeDecode.clause ..
  | illegalInstruction => exact EncodeDecode.illegalInstruction ..
  | instructionFetchFault => exact EncodeDecode.instructionFetchFault ..
  | _ => exact Or.inl rfl

/-- An instruction is read back from its word (R62, R66). -/
theorem decode_of_encode {i : Instr} {x : Word} (h : encode i = some x) : decode x = some i := by
  have hi := encode_statement i
  rwa [EncodeDecode.Statement, h] at hi

/-- An event of the turn list has no word. -/
theorem encode_event {i : Instr} (h : isEvent i = true) : encode i = none := by
  unfold isEvent at h
  split at h
  · rfl
  · rfl
  · exact Option.isNone_iff_eq_none.1 h

theorem encode_eq_none_iff (i : Instr) :
    encode i = none ↔ isEvent i = true ∨ (∃ x, i = .illegalInstruction x) ∨ ∃ a, i = .instructionFetchFault a := by
  constructor
  · intro h
    have hi := encode_statement i
    rwa [EncodeDecode.Statement, h] at hi
  · rintro (h | ⟨x, rfl⟩ | ⟨a, rfl⟩)
    · exact encode_event h
    · rfl
    · rfl

/-- Settles O53: every instruction is read back from its word, so two with one word are the same. -/
theorem encodeDecode : Obligations.EncodeDecode := by
  unfold Obligations.EncodeDecode
  refine ⟨fun i x => decode_of_encode, fun i j x hi hj => ?_, encode_eq_none_iff⟩
  exact Option.some.inj ((decode_of_encode hi).symm.trans (decode_of_encode hj))

/-- Settles O55: the examples are words of their instructions field by field, and no row fits the two words that stand for none. -/
theorem decodeWords : Obligations.DecodeWords := by
  unfold Obligations.DecodeWords
  refine ⟨decode_of_encode ?_, decode_of_encode ?_, decode_of_encode ?_, decode_of_encode ?_, decode_of_encode ?_, decode_of_encode ?_,
    decode_of_encode ?_, decode_of_encode ?_, decode_of_encode ?_, decode_of_encode ?_, decode_of_encode ?_, decode_of_encode ?_,
    decode_of_encode ?_, decode_of_encode ?_, decode_of_encode ?_, decode_of_encode ?_, decode_of_encode ?_, decode_of_encode ?_,
    decode_of_encode ?_, ?_, ?_, decode_of_encode ?_⟩
  all_goals decide +kernel

/-! ### From a word to its instruction and back -/

/-- A word that decodes fits a row of the maps, whose instruction it is. -/
theorem fits_of_decodeIn {rows : List OpRow} {m : BitVec 8} {b : BitVec 24} {i : Instr} (h : decodeIn rows m b = some i) :
    ∃ r ∈ rows, r.fits m b = true ∧ r.build b = i := by
  induction rows with
  | nil => cases h
  | cons r rest ih =>
    rw [decodeIn] at h
    split at h
    · next hf => exact ⟨r, List.mem_cons_self, hf, Option.some.inj h⟩
    · obtain ⟨q, hq, hfits⟩ := ih h
      exact ⟨q, List.mem_cons_of_mem _ hq, hfits⟩

/-- A body with the bits that a row fixes as the row has them (R66). -/
def asFixed (r : OpRow) (b : BitVec 24) : BitVec 24 := (b &&& ~~~r.mask) ||| r.pat

/-- A body that fits a row has the row's bits already. -/
theorem asFixed_of_fits {r : OpRow} {m : BitVec 8} {b : BitVec 24} (h : r.fits m b = true) : r.major = m ∧ asFixed r b = b := by
  simp only [OpRow.fits, Bool.and_eq_true, beq_iff_eq] at h
  obtain ⟨hm, hp⟩ := h
  refine ⟨hm, ?_⟩
  rw [asFixed, ← hp]
  ext i hi
  simp only [BitVec.getElem_or, BitVec.getElem_and, BitVec.getElem_not]
  cases b[i] <;> cases r.mask[i] <;> rfl

theorem extract_asFixed (r : OpRow) (b : BitVec 24) (lo n : Nat) : (asFixed r b).extractLsb' lo n =
    (b.extractLsb' lo n &&& (~~~r.mask).extractLsb' lo n) ||| r.pat.extractLsb' lo n := by
  rw [asFixed, BitVec.extractLsb'_or, BitVec.extractLsb'_and]

/-- A field of which a row fixes nothing is the body's. -/
theorem extract_asFixed_free (r : OpRow) (b : BitVec 24) (lo n : Nat)
    (hm : (~~~r.mask).extractLsb' lo n = BitVec.allOnes n) (hp : r.pat.extractLsb' lo n = 0#n) :
    (asFixed r b).extractLsb' lo n = b.extractLsb' lo n := by
  rw [extract_asFixed, hm, hp, BitVec.and_allOnes, BitVec.or_zero]

/-- A field that a row fixes is the row's. -/
theorem extract_asFixed_fixed (r : OpRow) (b : BitVec 24) (lo n : Nat) (hm : (~~~r.mask).extractLsb' lo n = 0#n) :
    (asFixed r b).extractLsb' lo n = r.pat.extractLsb' lo n := by
  rw [extract_asFixed, hm, BitVec.and_zero, BitVec.zero_or]

/-- Two neighbouring parts of a word make one part of it. -/
theorem append_eq_extract {n m k lo : Nat} {w : BitVec n} {x : BitVec m} {y : BitVec k}
    (hx : x = w.extractLsb' (lo + k) m) (hy : y = w.extractLsb' lo k) : x ++ y = w.extractLsb' lo (m + k) := by
  subst hx hy
  ext i hi
  simp only [BitVec.getElem_append, BitVec.getElem_extractLsb']
  split
  · rfl
  · congr 1
    omega

/-- The instruction that a row builds from a body has the word of the row's major and that body, with the row's fixed bits. -/
def RowEncodes (r : OpRow) : Prop := ∀ b, encode (r.build b) = some (r.major ++ asFixed r b)

/-- Every row of the maps encodes what it builds: taken from the low end up, each part of the word is the body's field or the
row's fixed bits (R66). -/
theorem opRows_encode : ∀ r ∈ opRows, RowEncodes r := by
  simp only [opRows, List.forall_mem_append]
  refine ⟨?_, ?_, ?_, ?_, ?_, ?_, ?_, ?_, ?_⟩
  all_goals
    simp only [rowsInteger, rowsFloat, rowsCross, rowsLaneMem, rowsAlu, rowsUniform, rowsUniMem, rowsEngine, rowsHeader,
      List.forall_mem_cons, List.not_mem_nil, false_imp_iff, implies_true, and_true]
    and_intros
  all_goals
    intro b
    refine congrArg some (Eq.trans ?_ (extract_whole _))
    repeat refine append_eq_extract ?_ ?_
    all_goals
      simp (disch := decide) only [extract_append_low, extract_append_high, extract_asFixed_free, extract_asFixed_fixed]
    all_goals rfl

/-- A word is its bits [31:24] and its body. -/
theorem major_append_body (x : Word) : x.extractLsb' 24 8 ++ x.extractLsb' 0 24 = x :=
  (append_eq_extract rfl rfl).trans (extract_whole x)

/-- Settles O54: a word that decodes fits a row, and its instruction's word has the fields of its body and the row's bits. -/
theorem decodeEncode : Obligations.DecodeEncode := by
  unfold Obligations.DecodeEncode
  intro x i h
  obtain ⟨r, hr, hf, rfl⟩ := fits_of_decodeIn h
  obtain ⟨hm, hb⟩ := asFixed_of_fits hf
  rw [opRows_encode r hr, hm, hb, major_append_body]

/-! ### Transfers of control -/

section

variable {s₀ s : State} {i : Instr} {r : WRef} {g : Workgroup} {w : Warp}

/-- A transfer of control that stands last in its clause retires where it leads (R57). -/
theorem transferring_moves (h : Issues s₀ s i act r g w) (hl : w.c.pos.idx = w.c.pos.cl.len) {f : Warp → WRes} {u : Warp}
    (hx : exec i s₀ = transferring s₀ i f) (hf : f w = .moved u) (ha : u.active = w.active) (he : u.c.ended = w.c.ended) :
    RetiresAs s₀ s i r (goneTo s.issues u) :=
  (hx.trans (transferring_last h hl f)).trans (runUniform_moved h hf (by rw [ha]; exact id) (he.trans h.lives))

/-- A branch that is not taken retires to the next word (R163). -/
theorem transferring_goesOn (h : Issues s₀ s i act r g w) (hl : w.c.pos.idx = w.c.pos.cl.len) {f : Warp → WRes}
    (hx : exec i s₀ = transferring s₀ i f) (hf : f w = .ok w) : RetiresAs s₀ s i r (goneOn s.issues w) :=
  (hx.trans (transferring_last h hl f)).trans (runUniform_ok h hf id h.lives)

/-- A branch on a condition retires at its target or at the next word (R163). -/
theorem branch_retires (h : Issues s₀ s i act r g w) (hl : w.c.pos.idx = w.c.pos.cl.len) {c : Warp → Bool} {o : Int}
    (hx : exec i s₀ = transferring s₀ i (fun w => branchIf w (c w) o)) :
    RetiresAs s₀ s i r (if c w then goneTo s.issues (w.transfer (branchTarget w o)) else goneOn s.issues w) := by
  cases hc : c w with
  | true => exact transferring_moves h hl hx (by rw [hc]; rfl) rfl rfl
  | false => exact transferring_goesOn h hl hx (by rw [hc]; rfl)

theorem ret_retires {a : BitVec 6} (h : Issues s₀ s (.ret a) act r g w) (hl : w.c.pos.idx = w.c.pos.cl.len)
    (h4 : (w.sget a.toNat).toNat % 4 = 0) (h48 : (w.sget a.toNat).toNat < 2 ^ 48) :
    RetiresAs s₀ s (.ret a) r (goneTo s.issues (w.transfer (w.sget a.toNat).toNat)) :=
  transferring_moves h hl rfl (if_neg (by omega)) rfl rfl

theorem ret_traps {a : BitVec 6} (h : Issues s₀ s (.ret a) act r g w) (hl : w.c.pos.idx = w.c.pos.cl.len)
    (hv : (w.sget a.toNat).toNat % 4 ≠ 0 ∨ 2 ^ 48 ≤ (w.sget a.toNat).toNat) : TrapsWith s₀ s (.ret a) r w 0x01 :=
  (transferring_last h hl _).trans (runUniform_trap h (if_pos hv))

end

/-- Outside every loop body a transfer drops no frame (R175). -/
theorem transfer_depth_zero (w : Warp) (k : Nat) (h : w.c.depth = 0) : (w.transfer k).c.depth = 0 := by
  simp only [Warp.transfer, h, endLoops]

/-- Settles O6: each transfer answers as its meaning on the warp says, and leads where `branchTarget` points. -/
theorem transfers : Obligations.Transfers := by
  unfold Obligations.Transfers
  intro s₀ s r g w d a o b c dest x v last
  have hd : ∀ k, dest k = branchTarget w k := fun k => (branchTarget_eq w k).symm
  simp only [hd]
  refine ⟨fun h hl => ?_, fun h hl => ?_, fun h hl => ?_, fun h hl => ?_, fun h hl => ret_retires h hl, fun h hl => ret_traps h hl,
    ?_, fun k => ⟨rfl, rfl, transfer_depth_zero w k⟩⟩
  · exact transferring_moves h hl rfl rfl rfl rfl
  · have hb := branch_retires h hl (c := fun w => w.sget d.toNat != 0) rfl
    simpa only [bne_iff_ne, ne_eq, ite_not] using hb
  · have hb := branch_retires h hl (c := fun w => w.sget d.toNat == 0) rfl
    simpa only [beq_iff_eq] using hb
  · exact transferring_moves h hl rfl rfl rfl rfl
  · exact ⟨lastOrTraps_of_transferring _ fun _ => rfl, lastOrTraps_of_transferring _ fun _ => rfl,
      lastOrTraps_of_transferring _ fun _ => rfl, lastOrTraps_of_transferring _ fun _ => rfl,
      lastOrTraps_of_transferring _ fun _ => rfl⟩

/-! ### Literals -/

/-- What an LDL does with what the reads of its words came to (R164, R177). -/
def afterLiteral (r : WRef) (g : Workgroup) (w : Warp) (d : BitVec 6) (va : Nat) : Fetched × Nat → State
  | (.word _ s', v) => retire s' r g w (w.sset d.toNat (BitVec.ofNat 64 v)) false
  | (.miss s', _) => parkOn s' r g w .fetch [va / 4096]
  | (.fail k s', _) => retireWithRecords s' r g w w false [fetchRecord w va w.pcOf k]

section

variable {s₀ s : State} {i : Instr} {r : WRef} {g : Workgroup} {w : Warp} {va : Nat}

/-- An LDL at an address that is not a multiple of its size traps (R177). -/
theorem literal_traps {d : BitVec 6} {o : BitVec 17} {n : Nat} (h : Issues s₀ s i act r g w) (hva : branchTarget w o.toInt = va)
    (ha : va % (4 * n) ≠ 0) : runLiteral s₀ i d o n = .next (preciseTrap (s.setWarp r w) r w 0x01) := by
  subst hva
  exact (issues_runNamed h _).trans (congrArg _ (if_pos ha))

/-- An LDL at an aligned address reads its words there (R177). -/
theorem literal_reads {d : BitVec 6} {o : BitVec 17} {n : Nat} {q : Fetched × Nat} (h : Issues s₀ s i act r g w)
    (hva : branchTarget w o.toInt = va) (ha : va % (4 * n) = 0)
    (hq : literalWords (s.setWarp r w) (g.setWarp r.wp w) w va n = q) :
    runLiteral s₀ i d o n = .next (afterLiteral r (g.setWarp r.wp w) w d va q) := by
  subst hva hq
  exact (issues_runNamed h _).trans (congrArg _ (if_neg (not_not_intro ha)))

theorem literalWords_word {n : Nat} {x : Word} {s1 : State} (hf : fetchWord s g w va = .word x s1) :
    literalWords s g w va (n + 1) =
      ((literalWords s1 g w (va + 4) n).1, x.toNat + 2 ^ 32 * (literalWords s1 g w (va + 4) n).2) := by
  rw [literalWords, hf]

theorem literalWords_miss {n : Nat} {s1 : State} (hf : fetchWord s g w va = .miss s1) :
    literalWords s g w va (n + 1) = (.miss s1, 0) := by
  rw [literalWords, hf]

theorem literalWords_fail {n k : Nat} {s1 : State} (hf : fetchWord s g w va = .fail k s1) :
    literalWords s g w va (n + 1) = (.fail k s1, 0) := by
  rw [literalWords, hf]

end

/-- Two words of code as one value, the first one low (R177). -/
theorem ofNat_two_words (x y : Word) : BitVec.ofNat 64 (x.toNat + 2 ^ 32 * (y.toNat + 2 ^ 32 * 0)) = y ++ x := by
  have hx := x.isLt
  have hy := y.isLt
  apply BitVec.eq_of_toNat_eq
  rw [BitVec.toNat_append, Nat.shiftLeft_eq, Nat.mul_comm y.toNat, ← Nat.two_pow_add_eq_or_of_lt hx, BitVec.toNat_ofNat]
  omega

theorem literals_hold : Sys2Proof.Claims.literals := by
  intro s₀ s r g w d o va s0 g0
  have hva : branchTarget w o.toInt = va := branchTarget_eq w o.toInt
  refine ⟨fun h h4 => ⟨fun x s1 hf => ?_, fun s1 hf => ?_, fun k s1 hf => ?_⟩, fun h => ⟨fun h8 => ?_, fun x y s1 s2 h8 hx hy => ?_⟩⟩
  · refine (literal_reads (n := 1) h hva h4 (literalWords_word hf)).trans ?_
    rw [← BitVec.ofNat_toNat]
    rfl
  · exact literal_reads (n := 1) h hva h4 (literalWords_miss hf)
  · exact literal_reads (n := 1) h hva h4 (literalWords_fail hf)
  · exact literal_traps h hva h8
  · refine (literal_reads (n := 2) h hva h8 (literalWords_word hx)).trans ?_
    rw [literalWords_word hy, ← ofNat_two_words]
    rfl

/-! ### Headers -/

section

variable {s : State} {r : WRef} {g : Workgroup} {w : Warp}

/-- The flags that a header names are clear (R53). -/
theorem waitClear_iff (w : Warp) (f : BitVec 12) :
    waitClear w f = true ↔ ∀ k, k < 12 → f.getLsbD k = true → w.flag k = 0 := by
  simp only [waitClear, List.all_eq_true, List.mem_range, Bool.or_eq_true, Bool.not_eq_true', ← Bool.not_eq_true,
    decide_eq_true_eq, imp_iff_not_or]

/-- Outside every loop body no address is the end of one (R174). -/
theorem atBodyEnd_of_noFrame {a : Nat} (h : w.frame = none) : w.atBodyEnd a = false := by
  rw [Warp.atBodyEnd, h]

/-- Past a header outside every loop body: the word at the saved index (R53, R59). -/
theorem pastHeader_body {cl : ClauseFields} (hf : w.frame = none) (hi : w.c.pos.idx ≤ cl.len) :
    w.pastHeader cl = w.goto ⟨w.c.pos.hdr, w.c.pos.idx, .body, cl⟩ := by
  rw [Warp.pastHeader]
  simp only [atBodyEnd_of_noFrame hf, Bool.false_eq_true, if_false, if_pos hi]

theorem exec_clause (hc : s.current = some (r, g, w)) (f : BitVec 12) (a b : BitVec 4) (l : BitVec 3) :
    exec (.clause f a b l) s = .next (
      if w.c.pos.mode = .body ∨ legal (.clause f a b l) = false then preciseTrap s r w 0x01
      else if waitClear w f then s.setWarp r (w.pastHeader ⟨f, a, b, l.toNat⟩) else s) :=
  withCurrent_next _ hc

theorem exec_pool (hc : s.current = some (r, g, w)) (n : BitVec 16) : exec (.pool n) s = .next (
    if w.c.pos.mode = .body then preciseTrap s r w 0x01
    else if w.c.pos.mode ≠ .flow ∨ w.c.pos.idx ≠ 0 then targetTrap s r w
    else if n = 0 ∨ w.inBody w.c.pos.hdr then preciseTrap s r w 0x01
    else s.setWarp r (w.goto (Pos.atFlow (w.c.pos.hdr + 4 * (n.toNat + 1))))) :=
  withCurrent_next _ hc

theorem exec_illegalInstruction (hc : s.current = some (r, g, w)) (x : Word) : exec (.illegalInstruction x) s = .next (
    if w.c.pos.mode = .body ∨ x.toNat / 2 ^ 24 = 0xFF then preciseTrap s r w 0x01 else targetTrap s r w) :=
  withCurrent_next _ hc

theorem exec_instructionFetchFault (hc : s.current = some (r, g, w)) (va : Nat) : exec (.instructionFetchFault va) s = .next (
    match nextWord s r g w with
    | .word _ _ => s
    | .miss s' => parkOn s' r g w .fetch [va / 4096]
    | .fail k s' => takeException s' r w 0x10 1 [fetchRecord w va va k] none) :=
  withCurrent_next _ hc

/-- A legal CLAUSE header holds its warp or leads into its clause, and an illegal or misplaced one traps (R51-R53, R55, R59). -/
theorem clause_answers (hc : s.current = some (r, g, w)) (f : BitVec 12) (a b : BitVec 4) (l : BitVec 3) :
    (w.c.pos.mode ≠ .body → legal (.clause f a b l) = true →
      ((∃ k, k < 12 ∧ f.getLsbD k = true ∧ w.flag k ≠ 0) → exec (.clause f a b l) s = .next s) ∧
      ((∀ k, k < 12 → f.getLsbD k = true → w.flag k = 0) → w.frame = none → w.c.pos.idx ≤ l.toNat →
        exec (.clause f a b l) s = .next (s.setWarp r (w.goto ⟨w.c.pos.hdr, w.c.pos.idx, .body, ⟨f, a, b, l.toNat⟩⟩)))) ∧
    (w.c.pos.mode = .body ∨ legal (.clause f a b l) = false → exec (.clause f a b l) s = .next (preciseTrap s r w 0x01)) := by
  rw [exec_clause hc]
  refine ⟨fun hm hl => ?_, fun h => congrArg _ (if_pos h)⟩
  rw [if_neg (by simp [hm, hl])]
  refine ⟨fun ⟨k, hk, hfk, hw⟩ => congrArg _ (if_neg fun h => hw ((waitClear_iff w f).1 h k hk hfk)), fun h hf hi => ?_⟩
  rw [if_pos ((waitClear_iff w f).2 h), pastHeader_body hf hi]

/-- A POOL header is passed where it is reached in sequence, and traps in a clause and at the target of a transfer (R52, R59,
R61). -/
theorem pool_answers (hc : s.current = some (r, g, w)) (n : BitVec 16) :
    (w.c.pos.mode = .flow → w.c.pos.idx = 0 → n ≠ 0 → w.frame = none →
      exec (.pool n) s = .next (s.setWarp r (w.goto ⟨w.c.pos.hdr + 4 * (n.toNat + 1), 0, .flow, .none⟩))) ∧
    (w.c.pos.mode = .body → exec (.pool n) s = .next (preciseTrap s r w 0x01)) ∧
    (w.c.pos.mode = .target → exec (.pool n) s = .next (targetTrap s r w)) := by
  rw [exec_pool hc]
  refine ⟨fun hm hi hn hf => ?_, fun hm => congrArg _ (if_pos hm), fun hm => ?_⟩
  · have hb : ¬ (n = 0 ∨ w.inBody w.c.pos.hdr = true) := by simpa [Warp.inBody, hf] using hn
    rw [if_neg (by simp [hm]), if_neg (by simp [hm, hi]), if_neg hb]
    rfl
  · simp [hm]

/-- A word is of the CLAUSE header's major exactly when its highest byte is 0xFF (R51). -/
theorem major_clause_iff (x : Word) : x.extractLsb' 24 8 = 0xFF#8 ↔ x.toNat / 2 ^ 24 = 0xFF := by
  have hx := x.isLt
  rw [← BitVec.toNat_inj, BitVec.extractLsb'_toNat, Nat.shiftRight_eq_div_pow]
  simp only [BitVec.toNat_ofNat]
  omega

/-- A word that is no instruction traps among the words of a clause, and at a header's place with INDEX 0xFF (R58, R68). -/
theorem illegalInstruction_answers (hc : s.current = some (r, g, w)) (x : Word) :
    (w.c.pos.mode = .body → exec (.illegalInstruction x) s = .next (preciseTrap s r w 0x01)) ∧
    (w.c.pos.mode ≠ .body → x.extractLsb' 24 8 ≠ 0xFF#8 → exec (.illegalInstruction x) s = .next (targetTrap s r w)) := by
  rw [exec_illegalInstruction hc]
  refine ⟨fun hm => congrArg _ (if_pos (Or.inl hm)), fun hm hx => congrArg _ (if_neg ?_)⟩
  rw [← major_clause_iff]
  tauto

theorem instructionFetchFault_answers (hc : s.current = some (r, g, w)) (va : Nat) :
    (∀ s1, nextWord s r g w = .miss s1 → exec (.instructionFetchFault va) s = .next (parkOn s1 r g w .fetch [va / 4096])) ∧
    (∀ k s1, nextWord s r g w = .fail k s1 →
      exec (.instructionFetchFault va) s = .next (takeException s1 r w 0x10 1 [fetchRecord w va va k] none)) := by
  rw [exec_instructionFetchFault hc]
  exact ⟨fun s1 h => by rw [h], fun k s1 h => by rw [h]⟩

end

theorem headers_hold : Sys2Proof.Claims.headers := fun _ _ _ _ hc =>
  ⟨clause_answers hc, pool_answers hc, illegalInstruction_answers hc, instructionFetchFault_answers hc⟩

/-- Settles O9: an LDL by what its reads come to, and each header by where its warp stands. -/
theorem literalsAndHeaders : Obligations.LiteralsAndHeaders := by
  unfold Obligations.LiteralsAndHeaders
  exact ⟨literals_hold, headers_hold⟩

/-! ### Acknowledgements of remote writes -/

/-- A warp is owed the acknowledgement of one posted remote store, and keeps the record that an error completion of it would
make; it waits for nothing. -/
def oneStorePosted : State :=
  (State.reset.withFetchWord 32 0x98000000).updWarp ⟨0, 0⟩ (fun w =>
    { w with remote := 1, posted := [(false, ⟨3, 0x20000, 0x10000, 0x0FFFC, 1, 0, 0x20, 0⟩)] })

/-- The records that a warp keeps of its posted stores, after an event. -/
def postedAfter (o : Host.Outcome State Fault Refusal) (r : WRef) : Option (List (Bool × FaultRec)) :=
  match o with
  | .next t => (t.warp r).map (·.posted)
  | _ => none

theorem oneStorePosted_posted : (oneStorePosted.warp ⟨0, 0⟩).map (·.posted) =
    some [(false, ⟨3, 0x20000, 0x10000, 0x0FFFC, 1, 0, 0x20, 0⟩)] := by decide +kernel

/-- The last acknowledgement takes the records of the posted stores with it. -/
theorem oneStorePosted_acknowledged : postedAfter (exec (.remoteWriteAck ⟨0, 0⟩) oneStorePosted) ⟨0, 0⟩ = some [] := by
  decide +kernel

theorem oneStorePosted_waits : ∀ g ∈ oneStorePosted.wgs, ∀ w ∈ g.2.warps, w.2.c.wait = .none := by decide +kernel

/-- What a table reads is listed in it. -/
theorem mem_of_find {α : Type} {t : Table α} {k : Nat} {x : α} (h : Table.find t k = some x) : (k, x) ∈ t := by
  induction t with
  | nil => exact absurd h (by simp [Table.find])
  | cons c rest ih =>
    obtain ⟨j, y⟩ := c
    by_cases hj : j = k
    · simp_all [Table.find]
    · exact List.mem_cons_of_mem _ (ih (by simpa [Table.find, hj] using h))

/-- What holds of every warp that the tables list holds of every warp of the machine. -/
theorem listed_of_warp {s : State} {q : WRef} {x : Warp} {P : Warp → Prop} (h : ∀ g ∈ s.wgs, ∀ w ∈ g.2.warps, P w.2)
    (hx : s.warp q = some x) : P x := by
  obtain ⟨g, hg, hw⟩ := Option.bind_eq_some_iff.mp hx
  exact h _ (mem_of_find hg) _ (mem_of_find hw)

/-- Refutes O36, in its clause of the acknowledged remote write: after the last acknowledgement the warp differs from the warp
before in more than its count and its wait, for the records of its posted stores go. The state is `oneStorePosted`: one store is
owed, its record is kept, and no warp waits for a counter; REMOTE_WRITE_ACK leaves no record where the statement keeps it. -/
theorem not_outstandingAccesses : ¬ Obligations.OutstandingAccesses := by
  rintro ⟨hack, -⟩
  have hkept := oneStorePosted_posted
  have hgone := oneStorePosted_acknowledged
  obtain ⟨w, hw, hposted⟩ := Option.map_eq_some_iff.mp hkept
  obtain ⟨g, hg, -⟩ := Option.bind_eq_some_iff.mp hw
  obtain ⟨u, -, hnext, hu, -⟩ := (hack oneStorePosted ⟨0, 0⟩ w 0 0).1 hw
  have hposted' : u.posted = w.posted := by rw [hu]
  rw [hnext fun q x hx v n hwait => by simpa [hwait] using listed_of_warp (P := (·.c.wait = .none)) oneStorePosted_waits hx] at hgone
  simp [postedAfter, stateWarp_setWarp _ _ _ _ hg, hposted', hposted] at hgone

/-! ### Illegal words -/

/-- What an instruction word answers: what its meaning does with the registers that it names, in a transfer of control behind the test
that it stands last in its clause (R57, R68). -/
def RunsWord (s : State) (i : Instr) (o : Host.Outcome State Fault Refusal) : Prop :=
  ∃ m f, o = runNamed s i m f ∨ o = lastOnly s (runNamed s i m f)

section

variable (s : State) (i : Instr)

theorem runsWord_runNamed (m : Warp → Mask) (f : State → WRef → Workgroup → Warp → State) :
    RunsWord s i (runNamed s i m f) := ⟨_, _, .inl rfl⟩

theorem runsWord_runUniform (f : Warp → WRes) : RunsWord s i (runUniform s i f) := ⟨_, _, .inl rfl⟩

theorem runsWord_runLane (f : LaneForm) (ok : BitVec 5 → Bool) (check : LaneCtx → Option Nat) (op : LaneCtx → Warp) :
    RunsWord s f.i (runLane s f ok check op) := ⟨_, _, .inl rfl⟩

theorem runsWord_runUnary (d a : BitVec 7) (p : BitVec 3) (k : TagClass) (f : BitVec 5 → Reg → LaneRes) :
    RunsWord s i (runUnary s i d a p k f) := runsWord_runLane ..

theorem runsWord_runBinary (d a b : BitVec 7) (p : BitVec 3) (k : TagClass) (f : BitVec 5 → Reg → Reg → LaneRes) :
    RunsWord s i (runBinary s i d a b p k f) := runsWord_runLane ..

theorem runsWord_runTernary (d a b : BitVec 7) (p : BitVec 3) (k : TagClass) (f : BitVec 5 → Reg → Reg → Reg → LaneRes) :
    RunsWord s i (runTernary s i d a b p k f) := runsWord_runLane ..

theorem runsWord_runScalar (d a b : BitVec 7) (p : BitVec 3) (k : TagClass) (f : BitVec 5 → Reg → Reg → LaneRes) :
    RunsWord s i (runScalar s i d a b p k f) := runsWord_runLane ..

theorem runsWord_runScalarInto (d a b : BitVec 7) (p : BitVec 3) (k : TagClass) (f : BitVec 5 → Reg → Reg → Reg → LaneRes) :
    RunsWord s i (runScalarInto s i d a b p k f) := runsWord_runLane ..

theorem runsWord_runMove (d a : BitVec 7) (z : BitVec 1) (src : LaneCtx → Nat → LaneSrc) :
    RunsWord s i (runMove s i d a z src) := runsWord_runLane ..

theorem runsWord_runMem (codes : List (BitVec 7)) (b : BitVec 7) (scale : Nat) (off : Int) (tagOk : Warp → Mask → Bool)
    (k : State → WRef → Workgroup → Warp → Warp → Mask → LaneAddrs → State) :
    RunsWord s i (runMem s i codes b scale off tagOk k) := ⟨_, _, .inl rfl⟩

theorem runsWord_runUniMem (fs : BitVec 1) (a : Acc) (z typ : Nat) (d : List Nat) (addrOf : Warp → Int)
    (f : State → Workgroup → Warp → Xlated → State × Nat × Bool) (put : Warp → Nat → Warp) (store : Bool) :
    RunsWord s i (runUniMem s i fs a z typ d addrOf f put store) := ⟨_, _, .inl rfl⟩

theorem runsWord_runBarrier (a : BitVec 6) (sib : Bool) (k : Nat) (bad : Warp → TBar → Bool) (f : Warp → TBar → TBar × Warp) :
    RunsWord s i (runBarrier s i a sib k bad f) := ⟨_, _, .inl rfl⟩

theorem runsWord_runMeeting (gang : Bool) : RunsWord s i (runMeeting s i gang) := ⟨_, _, .inl rfl⟩

theorem runsWord_runCopy (kind : CopyKind) (n : Nat) (t r0 b : BitVec 6) (v : BitVec 1) :
    RunsWord s i (runCopy s i kind n t r0 b v) := ⟨_, _, .inl rfl⟩

theorem runsWord_runShaped (kind : CopyKind) (n : Nat) (r0 : BitVec 6)
    (then_ : State → WRef → Workgroup → Warp → List Reg → List Reg → State) : RunsWord s i (runShaped s i kind n r0 then_) := ⟨_, _, .inl rfl⟩

theorem runsWord_runJoin (d a : BitVec 6) (n : BitVec 3) (re : Bool) : RunsWord s i (runJoin s i d a n re) := ⟨_, _, .inl rfl⟩

theorem runsWord_runLiteral (d : BitVec 6) (o : BitVec 17) (n : Nat) : RunsWord s i (runLiteral s i d o n) := ⟨_, _, .inl rfl⟩

theorem runsWord_onQueue (k : BitVec 3) (f : State → WRef → Workgroup → Warp → Nat → State) :
    RunsWord s i (onQueue s i k f) := ⟨_, _, .inl rfl⟩

theorem runsWord_runMatrix (p : BitVec 3) (srec : BitVec 6) (f : BitVec 1) (v : BitVec 7) (nc : BitVec 2) (team : Option Nat) :
    RunsWord s i (runMatrix s i p srec f v nc team) := ⟨_, _, .inl rfl⟩

theorem runsWord_runSet (d : BitVec 6) (f : Warp → Reg) : RunsWord s i (runSet s i d f) := runsWord_runUniform ..

theorem runsWord_runAlu (d a b : BitVec 6) (f : Reg → Reg → Reg) : RunsWord s i (runAlu s i d a b f) := runsWord_runSet ..

theorem runsWord_runAlu1 (d a : BitVec 6) (f : Reg → Reg) : RunsWord s i (runAlu1 s i d a f) := runsWord_runSet ..

theorem runsWord_transferring (f : Warp → WRes) : RunsWord s i (transferring s i f) := ⟨_, _, .inr rfl⟩

end

/-- Every instruction word that is no header runs its meaning with the registers that it names. -/
theorem exec_runsWord {i : Instr} (hw : (encode i).isSome = true) (hh : isHeader i = false) (s : State) : RunsWord s i (exec i s) := by
  cases i with
  | vaddRrr d a b p => exact (runsWord_runBinary .. : RunsWord s _ (execVaddRrr d a b p s))
  | vsubRrr d a b p => exact (runsWord_runBinary .. : RunsWord s _ (execVsubRrr d a b p s))
  | vmulRrr d a b p => exact (runsWord_runBinary .. : RunsWord s _ (execVmulRrr d a b p s))
  | vmulh d a b p => exact (runsWord_runBinary .. : RunsWord s _ (execVmulh d a b p s))
  | vmad d a b p => exact (runsWord_runTernary .. : RunsWord s _ (execVmad d a b p s))
  | vaddsat d a b p => exact (runsWord_runBinary .. : RunsWord s _ (execVaddsat d a b p s))
  | vsubsat d a b p => exact (runsWord_runBinary .. : RunsWord s _ (execVsubsat d a b p s))
  | vmin d a b p => exact (runsWord_runBinary .. : RunsWord s _ (execVmin d a b p s))
  | vmax d a b p => exact (runsWord_runBinary .. : RunsWord s _ (execVmax d a b p s))
  | vabs d a p => exact (runsWord_runUnary .. : RunsWord s _ (execVabs d a p s))
  | vneg d a p => exact (runsWord_runUnary .. : RunsWord s _ (execVneg d a p s))
  | vandRrr d a b p => exact (runsWord_runBinary .. : RunsWord s _ (execVandRrr d a b p s))
  | vorRrr d a b p => exact (runsWord_runBinary .. : RunsWord s _ (execVorRrr d a b p s))
  | vxor d a b p => exact (runsWord_runBinary .. : RunsWord s _ (execVxor d a b p s))
  | vandn d a b p => exact (runsWord_runBinary .. : RunsWord s _ (execVandn d a b p s))
  | vnot d a p => exact (runsWord_runUnary .. : RunsWord s _ (execVnot d a p s))
  | vshlRrr d a b p => exact (runsWord_runBinary .. : RunsWord s _ (execVshlRrr d a b p s))
  | vshrRrr d a b p => exact (runsWord_runBinary .. : RunsWord s _ (execVshrRrr d a b p s))
  | vsarRrr d a b p => exact (runsWord_runBinary .. : RunsWord s _ (execVsarRrr d a b p s))
  | vrol d a b p => exact (runsWord_runBinary .. : RunsWord s _ (execVrol d a b p s))
  | vclz d a p => exact (runsWord_runUnary .. : RunsWord s _ (execVclz d a p s))
  | vpopc d a p => exact (runsWord_runUnary .. : RunsWord s _ (execVpopc d a p s))
  | vbrev d a p => exact (runsWord_runUnary .. : RunsWord s _ (execVbrev d a p s))
  | vbfx d a b p => exact (runsWord_runScalar .. : RunsWord s _ (execVbfx d a b p s))
  | vbfi d a b p => exact (runsWord_runScalarInto .. : RunsWord s _ (execVbfi d a b p s))
  | vcmp q n c a b p => exact (runsWord_runLane .. : RunsWord s _ (execVcmp q n c a b p s))
  | vsel d a b k => exact (runsWord_runLane .. : RunsWord s _ (execVsel d a b k s))
  | vmov d a p => exact (runsWord_runUnary .. : RunsWord s _ (execVmov d a p s))
  | vmovs d f b p => exact (runsWord_runLane .. : RunsWord s _ (execVmovs d f b p s))
  | vamin d a b p => exact (runsWord_runTernary .. : RunsWord s _ (execVamin d a b p s))
  | vamax d a b p => exact (runsWord_runTernary .. : RunsWord s _ (execVamax d a b p s))
  | vfaddRrr d a b p => exact (runsWord_runBinary .. : RunsWord s _ (execVfaddRrr d a b p s))
  | vfsub d a b p => exact (runsWord_runBinary .. : RunsWord s _ (execVfsub d a b p s))
  | vfmulRrr d a b p => exact (runsWord_runBinary .. : RunsWord s _ (execVfmulRrr d a b p s))
  | vfma d a b p => exact (runsWord_runTernary .. : RunsWord s _ (execVfma d a b p s))
  | vfmin d a b p => exact (runsWord_runBinary .. : RunsWord s _ (execVfmin d a b p s))
  | vfmax d a b p => exact (runsWord_runBinary .. : RunsWord s _ (execVfmax d a b p s))
  | vfabs d a p => exact (runsWord_runUnary .. : RunsWord s _ (execVfabs d a p s))
  | vfneg d a p => exact (runsWord_runUnary .. : RunsWord s _ (execVfneg d a p s))
  | vfcmp q n c a b p => exact (runsWord_runLane .. : RunsWord s _ (execVfcmp q n c a b p s))
  | vfrcp d a p => exact (runsWord_runUnary .. : RunsWord s _ (execVfrcp d a p s))
  | vfrsq d a p => exact (runsWord_runUnary .. : RunsWord s _ (execVfrsq d a p s))
  | vfsqrt d a p => exact (runsWord_runUnary .. : RunsWord s _ (execVfsqrt d a p s))
  | vfex2 d a p => exact (runsWord_runUnary .. : RunsWord s _ (execVfex2 d a p s))
  | vflg2 d a p => exact (runsWord_runUnary .. : RunsWord s _ (execVflg2 d a p s))
  | vfsin d a p => exact (runsWord_runUnary .. : RunsWord s _ (execVfsin d a p s))
  | vfcos d a p => exact (runsWord_runUnary .. : RunsWord s _ (execVfcos d a p s))
  | vfclass d a p => exact (runsWord_runLane .. : RunsWord s _ (execVfclass d a p s))
  | vcvt d a f m p => exact (runsWord_runLane .. : RunsWord s _ (execVcvt d a f m p s))
  | vcvts d a f p => exact (runsWord_runLane .. : RunsWord s _ (execVcvts d a f p s))
  | vtag d a f p => exact (runsWord_runLane .. : RunsWord s _ (execVtag d a f p s))
  | vpack d a h g p => exact (runsWord_runLane .. : RunsWord s _ (execVpack d a h g p s))
  | vunpk d a h g p => exact (runsWord_runLane .. : RunsWord s _ (execVunpk d a h g p s))
  | vaddRrs d a b p => exact (runsWord_runScalar .. : RunsWord s _ (execVaddRrs d a b p s))
  | vsubRrs d a b p => exact (runsWord_runScalar .. : RunsWord s _ (execVsubRrs d a b p s))
  | vmulRrs d a b p => exact (runsWord_runScalar .. : RunsWord s _ (execVmulRrs d a b p s))
  | vandRrs d a b p => exact (runsWord_runScalar .. : RunsWord s _ (execVandRrs d a b p s))
  | vorRrs d a b p => exact (runsWord_runScalar .. : RunsWord s _ (execVorRrs d a b p s))
  | vshlRrs d a b p => exact (runsWord_runScalar .. : RunsWord s _ (execVshlRrs d a b p s))
  | vshrRrs d a b p => exact (runsWord_runScalar .. : RunsWord s _ (execVshrRrs d a b p s))
  | vsarRrs d a b p => exact (runsWord_runScalar .. : RunsWord s _ (execVsarRrs d a b p s))
  | vfaddRrs d a b p => exact (runsWord_runScalar .. : RunsWord s _ (execVfaddRrs d a b p s))
  | vfmulRrs d a b p => exact (runsWord_runScalar .. : RunsWord s _ (execVfmulRrs d a b p s))
  | vshuf d a z w k => exact (runsWord_runMove .. : RunsWord s _ (execVshuf d a z w k s))
  | vshufi d a z w m => exact (runsWord_runMove .. : RunsWord s _ (execVshufi d a z w m s))
  | vlsh d a z w x n => exact (runsWord_runMove .. : RunsWord s _ (execVlsh d a z w x n s))
  | vbcst d a z w k => exact (runsWord_runMove .. : RunsWord s _ (execVbcst d a z w k s))
  | vred d a w o => exact (runsWord_runLane .. : RunsWord s _ (execVred d a w o s))
  | vscan d a w x o => exact (runsWord_runLane .. : RunsWord s _ (execVscan d a w x o s))
  | vcav d a w o => exact (runsWord_runLane .. : RunsWord s _ (execVcav d a w o s))
  | vballot d w k => exact (runsWord_runLane .. : RunsWord s _ (execVballot d w k s))
  | vsubel d a v => exact (runsWord_runLane .. : RunsWord s _ (execVsubel d a v s))
  | vxswap d a z v =>
    show RunsWord s _ (execVxswap d a z v s)
    unfold execVxswap
    exact runsWord_runNamed ..
  | vld d b t f o =>
    show RunsWord s _ (execVld d b t f o s)
    unfold execVld
    exact runsWord_runMem ..
  | vst d b t f o =>
    show RunsWord s _ (execVst d b t f o s)
    unfold execVst
    exact runsWord_runMem ..
  | vatom d b t f o =>
    show RunsWord s _ (execVatom d b t f o s)
    unfold execVatom
    exact runsWord_runMem ..
  | vcas d b t f o =>
    show RunsWord s _ (execVcas d b t f o s)
    unfold execVcas
    exact runsWord_runMem ..
  | vprf b f o => exact (runsWord_runMem .. : RunsWord s _ (execVprf b f o s))
  | vlds d b t f o =>
    show RunsWord s _ (execVlds d b t f o s)
    unfold execVlds
    exact runsWord_runMem ..
  | vsts d b t f o =>
    show RunsWord s _ (execVsts d b t f o s)
    unfold execVsts
    exact runsWord_runMem ..
  | vatoms d b t f o =>
    show RunsWord s _ (execVatoms d b t f o s)
    unfold execVatoms
    exact runsWord_runMem ..
  | br p v o => exact (runsWord_transferring .. : RunsWord s _ (execBr p v o s))
  | xset k a p => exact (runsWord_runLane .. : RunsWord s _ (execXset k a p s))
  | xadd k j b p => exact (runsWord_runLane .. : RunsWord s _ (execXadd k j b p s))
  | sadd d a b => exact (runsWord_runAlu .. : RunsWord s _ (execSadd d a b s))
  | ssub d a b => exact (runsWord_runAlu .. : RunsWord s _ (execSsub d a b s))
  | smul d a b => exact (runsWord_runAlu .. : RunsWord s _ (execSmul d a b s))
  | smulh d a b => exact (runsWord_runAlu .. : RunsWord s _ (execSmulh d a b s))
  | smulhU d a b => exact (runsWord_runAlu .. : RunsWord s _ (execSmulhU d a b s))
  | sdiv d a b => exact (runsWord_runAlu .. : RunsWord s _ (execSdiv d a b s))
  | sdivU d a b => exact (runsWord_runAlu .. : RunsWord s _ (execSdivU d a b s))
  | srem d a b => exact (runsWord_runAlu .. : RunsWord s _ (execSrem d a b s))
  | sremU d a b => exact (runsWord_runAlu .. : RunsWord s _ (execSremU d a b s))
  | sand d a b => exact (runsWord_runAlu .. : RunsWord s _ (execSand d a b s))
  | sor d a b => exact (runsWord_runAlu .. : RunsWord s _ (execSor d a b s))
  | sxor d a b => exact (runsWord_runAlu .. : RunsWord s _ (execSxor d a b s))
  | snot d a => exact (runsWord_runAlu1 .. : RunsWord s _ (execSnot d a s))
  | sshl d a b => exact (runsWord_runAlu .. : RunsWord s _ (execSshl d a b s))
  | sshr d a b => exact (runsWord_runAlu .. : RunsWord s _ (execSshr d a b s))
  | ssar d a b => exact (runsWord_runAlu .. : RunsWord s _ (execSsar d a b s))
  | smin d a b => exact (runsWord_runAlu .. : RunsWord s _ (execSmin d a b s))
  | sminU d a b => exact (runsWord_runAlu .. : RunsWord s _ (execSminU d a b s))
  | smax d a b => exact (runsWord_runAlu .. : RunsWord s _ (execSmax d a b s))
  | smaxU d a b => exact (runsWord_runAlu .. : RunsWord s _ (execSmaxU d a b s))
  | ssel d a b => exact (runsWord_runSet .. : RunsWord s _ (execSsel d a b s))
  | smov d a => exact (runsWord_runAlu1 .. : RunsWord s _ (execSmov d a s))
  | scmp d a b c => exact (runsWord_runAlu .. : RunsWord s _ (execScmp d a b c s))
  | smovi d i => exact (runsWord_runSet .. : RunsWord s _ (execSmovi d i s))
  | saddImm d a i => exact (runsWord_runAlu1 .. : RunsWord s _ (execSaddImm d a i s))
  | sandImm d a i => exact (runsWord_runAlu1 .. : RunsWord s _ (execSandImm d a i s))
  | sorImm d a i => exact (runsWord_runAlu1 .. : RunsWord s _ (execSorImm d a i s))
  | sxorImm d a i => exact (runsWord_runAlu1 .. : RunsWord s _ (execSxorImm d a i s))
  | sshlImm d a i => exact (runsWord_runAlu1 .. : RunsWord s _ (execSshlImm d a i s))
  | sshrImm d a i => exact (runsWord_runAlu1 .. : RunsWord s _ (execSshrImm d a i s))
  | ssarImm d a i => exact (runsWord_runAlu1 .. : RunsWord s _ (execSsarImm d a i s))
  | slane d v k => exact (runsWord_runNamed .. : RunsWord s _ (execSlane d v k s))
  | spredGet d k => exact (runsWord_runSet .. : RunsWord s _ (execSpredGet d k s))
  | spredSet a k => exact (runsWord_runUniform .. : RunsWord s _ (execSpredSet a k s))
  | spredAct d => exact (runsWord_runSet .. : RunsWord s _ (execSpredAct d s))
  | bra o => exact (runsWord_transferring .. : RunsWord s _ (execBra o s))
  | brasNz d o => exact (runsWord_transferring .. : RunsWord s _ (execBrasNz d o s))
  | brasZ d o => exact (runsWord_transferring .. : RunsWord s _ (execBrasZ d o s))
  | call d o => exact (runsWord_transferring .. : RunsWord s _ (execCall d o s))
  | ret a => exact (runsWord_transferring .. : RunsWord s _ (execRet a s))
  | mark o => exact (runsWord_runUniform .. : RunsWord s _ (execMark o s))
  | join => exact (runsWord_runUniform .. : RunsWord s _ (execJoin s))
  | loop d n l => exact (runsWord_transferring .. : RunsWord s _ (execLoop d n l s))
  | exit => exact (runsWord_transferring .. : RunsWord s _ (execExit s))
  | nop => exact (runsWord_runUniform .. : RunsWord s _ (execNop s))
  | xwin a => exact (runsWord_runUniform .. : RunsWord s _ (execXwin a s))
  | sld d a f z g o =>
    show RunsWord s _ (execSld d a f z g o s)
    unfold execSld
    exact runsWord_runUniMem ..
  | sst d a f z o =>
    show RunsWord s _ (execSst d a f z o s)
    unfold execSst
    exact runsWord_runUniMem ..
  | satom d a b f o =>
    show RunsWord s _ (execSatom d a b f o s)
    unfold execSatom
    exact runsWord_runUniMem ..
  | scas d a b f =>
    show RunsWord s _ (execScas d a b f s)
    unfold execScas
    exact runsWord_runUniMem ..
  | ldlW d o => exact (runsWord_runLiteral .. : RunsWord s _ (execLdlW d o s))
  | ldlD d o => exact (runsWord_runLiteral .. : RunsWord s _ (execLdlD d o s))
  | acq d a v => exact (runsWord_runNamed .. : RunsWord s _ (execAcq d a v s))
  | rel d a v => exact (runsWord_runNamed .. : RunsWord s _ (execRel d a v s))
  | fence k v =>
    show RunsWord s _ (execFence k v s)
    unfold execFence
    exact runsWord_runNamed ..
  | publish d a v => exact (runsWord_runNamed .. : RunsWord s _ (execPublish d a v s))
  | stset a n => exact (runsWord_runNamed .. : RunsWord s _ (execStset a n s))
  | stsave d w n => exact (runsWord_runUniform .. : RunsWord s _ (execStsave d w n s))
  | stpos a n => exact (runsWord_runNamed .. : RunsWord s _ (execStpos a n s))
  | stskip a n => exact (runsWord_runNamed .. : RunsWord s _ (execStskip a n s))
  | grd d k => exact (runsWord_runNamed .. : RunsWord s _ (execGrd d k s))
  | gwr a k => exact (runsWord_runNamed .. : RunsWord s _ (execGwr a k s))
  | gatom d k b o => exact (runsWord_runNamed .. : RunsWord s _ (execGatom d k b o s))
  | qbind a k => exact (runsWord_runNamed .. : RunsWord s _ (execQbind a k s))
  | qpush a k => exact (runsWord_onQueue .. : RunsWord s _ (execQpush a k s))
  | qpushv a n k => exact (runsWord_onQueue .. : RunsWord s _ (execQpushv a n k s))
  | qpop d k => exact (runsWord_onQueue .. : RunsWord s _ (execQpop d k s))
  | qtry d k => exact (runsWord_onQueue .. : RunsWord s _ (execQtry d k s))
  | qsteal d a => exact (runsWord_runNamed .. : RunsWord s _ (execQsteal d a s))
  | qlen d k => exact (runsWord_onQueue .. : RunsWord s _ (execQlen d k s))
  | mma p x f v n => exact (runsWord_runMatrix .. : RunsWord s _ (execMma p x f v n s))
  | mmt p x f v t => exact (runsWord_runMatrix .. : RunsWord s _ (execMmt p x f v t s))
  | mzero v n t => exact (runsWord_runNamed .. : RunsWord s _ (execMzero v n t s))
  | mscale d a f => exact (runsWord_runUniform .. : RunsWord s _ (execMscale d a f s))
  | cpy t r b v => exact (runsWord_runCopy .. : RunsWord s _ (execCpy t r b v s))
  | cpt t r b v => exact (runsWord_runShaped .. : RunsWord s _ (execCpt t r b v s))
  | cpr t r b v => exact (runsWord_runCopy .. : RunsWord s _ (execCpr t r b v s))
  | cpx t r b v => exact (runsWord_runCopy .. : RunsWord s _ (execCpx t r b v s))
  | cpc t r b v => exact (runsWord_runShaped .. : RunsWord s _ (execCpc t r b v s))
  | cpclose => exact (runsWord_runUniform .. : RunsWord s _ (execCpclose s))
  | cpwait n => exact (runsWord_runNamed .. : RunsWord s _ (execCpwait n s))
  | tbinit d a => exact (runsWord_runBarrier .. : RunsWord s _ (execTbinit d a s))
  | tbexp d a r v g => exact (runsWord_runBarrier .. : RunsWord s _ (execTbexp d a r v g s))
  | tbarr d a v g => exact (runsWord_runBarrier .. : RunsWord s _ (execTbarr d a v g s))
  | tbwait d a => exact (runsWord_runNamed .. : RunsWord s _ (execTbwait d a s))
  | bar => exact (runsWord_runMeeting .. : RunsWord s _ (execBar s))
  | gbar => exact (runsWord_runMeeting .. : RunsWord s _ (execGbar s))
  | cvjoin d a n => exact (runsWord_runJoin .. : RunsWord s _ (execCvjoin d a n s))
  | cvleave d n => exact (runsWord_runNamed .. : RunsWord s _ (execCvleave d n s))
  | cvslip d a => exact (runsWord_runNamed .. : RunsWord s _ (execCvslip d a s))
  | cvrejoin d a n => exact (runsWord_runJoin .. : RunsWord s _ (execCvrejoin d a n s))
  | srd d n => exact (runsWord_runNamed .. : RunsWord s _ (execSrd d n s))
  | srdV d h n => exact (runsWord_runNamed .. : RunsWord s _ (execSrdV d h n s))
  | swr a n => exact (runsWord_runNamed .. : RunsWord s _ (execSwr a n s))
  | trap n => exact (runsWord_runNamed .. : RunsWord s _ (execTrap n s))
  | tret => exact ⟨_, _, .inr (rfl : execTret s = _)⟩
  | sigdone => exact (runsWord_runNamed .. : RunsWord s _ (execSigdone s))
  | region a o => exact (runsWord_runNamed .. : RunsWord s _ (execRegion a o s))
  | setperf d a => exact (runsWord_runNamed .. : RunsWord s _ (execSetperf d a s))
  | waitc d a => exact (runsWord_runNamed .. : RunsWord s _ (execWaitc d a s))
  | cancel d a l => exact (runsWord_runNamed .. : RunsWord s _ (execCancel d a l s))
  | sleep a => exact (runsWord_runNamed .. : RunsWord s _ (execSleep a s))
  | bkpt n => exact (runsWord_runNamed .. : RunsWord s _ (execBkpt n s))
  | clause => exact absurd hh.symm Bool.false_ne_true
  | pool => exact absurd hh.symm Bool.false_ne_true
  | _ => exact absurd hw Bool.false_ne_true

/-- Behind the test of R57, too, an illegal word takes the illegal-instruction trap (R57, R68). -/
theorem runsWord_illegal {s : State} {i : Instr} {o : Host.Outcome State Fault Refusal} {r : WRef} {g : Workgroup} {w : Warp}
    (h : RunsWord s i o) (hc : s.current = some (r, g, w)) (hl : (legal i && allocOk w i && flagChosen w i) = false) :
    o = .next (preciseTrap s r w 0x01) := by
  obtain ⟨m, f, rfl | rfl⟩ := h
  · exact runNamed_illegal f hc hl
  · rw [runNamed_illegal f hc hl]
    by_cases hi : w.c.pos.idx = w.c.pos.cl.len
    · simp [lastOnly, hc, Pos.isLast, hi]
    · exact lastOnly_traps hc hi _

/-- What an instruction answers that needs an issuing warp. -/
def NeedsWarp (s : State) (o : Host.Outcome State Fault Refusal) : Prop :=
  ∃ f, o = withCurrent s f ∨ o = lastOnly s (withCurrent s f)

theorem needsWarp_of_runsWord {s : State} {i : Instr} {o : Host.Outcome State Fault Refusal} (h : RunsWord s i o) :
    NeedsWarp s o := by
  obtain ⟨m, f, h⟩ := h
  exact ⟨_, h⟩

/-- An issuing warp always has a next state. -/
theorem needsWarp_answers {s : State} {o : Host.Outcome State Fault Refusal} (h : NeedsWarp s o) (hc : s.current.isSome = true) :
    ∃ t, o = .next t := by
  obtain ⟨⟨r, g, w⟩, hc⟩ := Option.isSome_iff_exists.1 hc
  obtain ⟨f, rfl | rfl⟩ := h
  · exact ⟨_, withCurrent_next f hc⟩
  · rw [withCurrent_next f hc, lastOnly, hc]
    dsimp only
    split
    · exact ⟨_, rfl⟩
    · exact ⟨_, rfl⟩

/-- Without an issuing warp the model stops. -/
theorem needsWarp_stops {s : State} {o : Host.Outcome State Fault Refusal} (h : NeedsWarp s o) (hc : s.current = none) :
    o = .fault .noWarp := by
  obtain ⟨f, rfl | rfl⟩ := h
  · simp [withCurrent, hc]
  · simp [lastOnly, withCurrent, hc]

theorem isHeader_iff (i : Instr) : isHeader i = true ↔ (∃ f a b l, i = .clause f a b l) ∨ ∃ n, i = .pool n := by
  constructor
  · intro h
    unfold isHeader at h
    split at h
    · exact .inl ⟨_, _, _, _, rfl⟩
    · exact .inr ⟨_, rfl⟩
    · cases h
  · rintro (⟨f, a, b, l, rfl⟩ | ⟨n, rfl⟩)
    · rfl
    · rfl

/-- What is no event needs an issuing warp: words, headers, and the two events of a warp's own fetch. -/
theorem exec_needsWarp {i : Instr} (h : isEvent i = false) (s : State) : NeedsWarp s (exec i s) := by
  cases hw : encode i with
  | none =>
    rcases (encode_eq_none_iff i).1 hw with he | ⟨x, rfl⟩ | ⟨va, rfl⟩
    · rw [h] at he
      cases he
    · exact ⟨_, .inl (rfl : execIllegalInstruction x s = _)⟩
    · exact ⟨_, .inl (rfl : execInstructionFetchFault va s = _)⟩
  | some x =>
    cases hh : isHeader i with
    | false => exact needsWarp_of_runsWord (exec_runsWord (Option.isSome_iff_exists.2 ⟨x, hw⟩) hh s)
    | true =>
      rcases (isHeader_iff i).1 hh with ⟨f, a, b, l, rfl⟩ | ⟨n, rfl⟩
      · exact ⟨_, .inl (rfl : execClause f a b l s = _)⟩
      · exact ⟨_, .inl (rfl : execPool n s = _)⟩

/-! ### Events -/

/-- An outcome is a next state. -/
def Answers (o : Host.Outcome State Fault Refusal) : Prop := ∃ t, o = .next t

theorem answers_next (t : State) : Answers (.next t) := ⟨t, rfl⟩

theorem answers_ite {c : Prop} [Decidable c] {x y : Host.Outcome State Fault Refusal} (hx : Answers x) (hy : Answers y) :
    Answers (if c then x else y) := by
  split
  · exact hx
  · exact hy

/-- An event that has a choice of next states, each of which is one. -/
theorem answers_choice {c : Prop} [Decidable c] (t u : State) : Answers (if c then .next t else .next u) :=
  answers_ite (answers_next t) (answers_next u)

/-- Every event has a next state: most say it in their first line, the others in each branch of their condition. -/
theorem event_answers {i : Instr} (he : isEvent i = true) (s : State) : Answers (exec i s) := by
  cases i
  all_goals try exact absurd he Bool.false_ne_true
  case dispatchRound die =>
    show Answers (execDispatchRound die s)
    unfold execDispatchRound
    exact answers_choice _ _
  case gangReservation die =>
    show Answers (execGangReservation die s)
    unfold execGangReservation
    refine answers_ite (answers_next _) ?_
    split
    · split
      · exact answers_next _
      · exact answers_next _
    · exact answers_next _
  case rotationInterval cluster temps =>
    show Answers (execRotationInterval cluster temps s)
    unfold execRotationInterval
    exact answers_ite (answers_next _) (answers_choice _ _)
  case swapQuiesceEnd cluster =>
    show Answers (execSwapQuiesceEnd cluster s)
    unfold execSwapQuiesceEnd
    split
    · exact answers_choice _ _
    · exact answers_next _
  case swapQuiesceTimeout cluster =>
    show Answers (execSwapQuiesceTimeout cluster s)
    unfold execSwapQuiesceTimeout
    split
    · exact answers_choice _ _
    · exact answers_next _
  case swapTransferEnd cluster =>
    show Answers (execSwapTransferEnd cluster s)
    unfold execSwapTransferEnd
    split
    · exact answers_choice _ _
    · exact answers_next _
  case swapWritebackEnd cluster =>
    show Answers (execSwapWritebackEnd cluster s)
    unfold execSwapWritebackEnd
    split
    · exact answers_choice _ _
    · exact answers_next _
  case swapEnd cluster =>
    show Answers (execSwapEnd cluster s)
    unfold execSwapEnd
    split
    · exact answers_choice _ _
    · exact answers_next _
  case clockLockDone cluster =>
    show Answers (execClockLockDone cluster s)
    unfold execClockLockDone
    exact answers_choice _ _
  case voltageTargetReached pair =>
    show Answers (execVoltageTargetReached pair s)
    unfold execVoltageTargetReached
    exact answers_choice _ _
  case balanceSample pair ieven iodd =>
    show Answers (execBalanceSample pair ieven iodd s)
    unfold execBalanceSample
    exact answers_choice _ _
  case powerSample die power draws =>
    show Answers (execPowerSample die power draws s)
    unfold execPowerSample
    refine answers_ite (answers_next _) (answers_ite ?_ (answers_choice _ _))
    split
    · exact answers_next _
    · exact answers_next _
  case hardClamp die power =>
    show Answers (execHardClamp die power s)
    unfold execHardClamp
    exact answers_choice _ _
  case gatingIdleExpiry pair =>
    show Answers (execGatingIdleExpiry pair s)
    unfold execGatingIdleExpiry
    exact answers_choice _ _
  case gatingDone pair =>
    show Answers (execGatingDone pair s)
    unfold execGatingDone
    exact answers_choice _ _
  case pairWakeDone pair =>
    show Answers (execPairWakeDone pair s)
    unfold execPairWakeDone
    exact answers_choice _ _
  all_goals exact ⟨_, rfl⟩

/-- Settles O57: a word runs its meaning only behind the test of its fields, whatever needs an issuing warp answers for one and
stops without one, and every event answers. -/
theorem illegalWords : Obligations.IllegalWords := by
  unfold Obligations.IllegalWords
  refine fun s i => ⟨fun r g w hc hw hh hl => runsWord_illegal (exec_runsWord hw hh s) hc hl, fun h => ?_,
    fun hc he => needsWarp_stops (exec_needsWarp he s) hc⟩
  cases he : isEvent i with
  | true => exact event_answers he s
  | false => exact needsWarp_answers (exec_needsWarp he s) (h.resolve_right (by simp [he]))

/-! ### A step and the instruction it runs -/

/-- With no store late and no view standing, a step does what the head of the turn list says. -/
theorem plan_of_turn {s : State} {t : Turn} {rest : List Turn} (hl : s.late = []) (he : s.early = []) (ht : s.turns = t :: rest)
    (hr : t.relaxed = false) : plan s = turnPlan { s with turns := rest } t := by
  simp [plan, ht, hl, he, hr]

theorem step_of_run {s t : State} {i : Instr} (h : plan s = .run i t) : step s = exec i t := by
  simp [step, h]

theorem step_of_done {s t : State} (h : plan s = .done t) : step s = .next t := by
  simp [step, h]

theorem plan_of_select {s : State} {t p : Nat} {rest : List Turn} (hl : s.late = []) (he : s.early = [])
    (ht : s.turns = .select t p :: rest) : plan s = selectPlan { s with turns := rest } t p :=
  plan_of_turn hl he ht rfl

theorem plan_of_event {s : State} {e : Instr} {rest : List Turn} (hl : s.late = []) (he : s.early = [])
    (ht : s.turns = .event e :: rest) (hev : isEvent e = true) : plan s = .run e { s with turns := rest, cur := none } := by
  rw [plan_of_turn hl he ht rfl]
  simp [turnPlan, hev]

/-- With no turn list the tile in turn issues its choice while its quantum lasts. -/
theorem plan_of_choice {s : State} {c : Candidate} (ht : s.turns = []) (hl : s.late = []) (hq : s.quantum < quantumLimit)
    (hc : choose (candidates { s with early := [] } s.here (fun _ => true)) = some c) :
    plan s = .run c.i { issueCycle c.s s.here with cur := some c.r } := by
  have hfree : plan s = freePlan { s with early := [] } := by simp [plan, ht, hl]
  rw [hfree, freePlan, if_pos hq, hc]
  rfl

/-! ### One instruction of a pipe and of a warp in a cycle -/

theorem hasIssued_eq_false_iff (x : Tile) (p : Nat) (r : WRef) :
    x.hasIssued p r = false ↔ ∀ e ∈ x.issued, e.1 ≠ min p 2 ∧ e.2 ≠ r := by
  simp [Tile.hasIssued]

/-- The choice is one of those that it is made among. -/
theorem choose_mem {l : List Candidate} {c : Candidate} (h : choose l = some c) : c ∈ l := by
  induction l generalizing c with
  | nil => exact absurd h (by simp [choose])
  | cons a rest ih =>
    unfold choose at h
    split at h
    next d hd =>
      split at h
      · cases h
        exact List.mem_cons_of_mem _ (ih hd)
      · cases h
        exact List.mem_cons_self
    next =>
      cases h
      exact List.mem_cons_self

/-- Where nothing has issued in the cycle every candidate may. -/
theorem pick_of_choose {u : State} {t p : Nat} {c : Candidate} (hc : choose (candidates u t (fitsPipe p)) = some c)
    (hi : (u.tile t).issued = []) : pick u t p = some (if c.slot = true then
      { c with s := c.s.setTile t { c.s.tile t with issued := (c.s.tile t).issued ++ [(min p 2, c.r)] } } else c) := by
  have hfree : ∀ r, (u.tile t).hasIssued p r = false := fun r => by simp [Tile.hasIssued, hi]
  simp [pick, hfree, hc]

/-- What is picked for a slot is of a warp and for a pipe that have not issued. -/
theorem hasIssued_of_pick {u : State} {t p : Nat} {c : Candidate} (h : pick u t p = some c) (hs : c.slot = true) :
    (u.tile t).hasIssued p c.r = false := by
  obtain ⟨d, hd, rfl⟩ := Option.map_eq_some_iff.mp h
  have hfree := (List.mem_filter.mp (choose_mem hd)).2
  by_cases hslot : d.slot = true
  · simpa [hslot] using hfree
  · simp [hslot] at hs

theorem tile_countStalls (s : State) (t n u : Nat) : (countStalls s t n).tile u = s.tile u := by
  unfold countStalls
  dsimp only
  split <;> rfl

/-- A cycle that passes clears what has issued in it. -/
theorem issued_passCycles {s : State} {t n : Nat} (hn : 0 < n) (hg : (s.pair (pairOf (clusterOf t))).gstate < 3) :
    ((passCycles s t n).tile t).issued = [] := by
  simp [passCycles, hg, tile_countStalls, Nat.ne_of_gt hn]

/-! ### The word that a ready warp stands at -/

theorem takes_of_not_due {w : Warp} (h : w.due = false) : w.takes = false := by
  simp [Warp.takes, h]

theorem instrOf_of_decode {m : PosMode} {x : Word} {i : Instr} (hd : decode x = some i) (hp : isHeader i = true ∨ m = .body) :
    instrOf m x = i := by
  rcases hp with hh | hm
  · simp [instrOf, hd, hh]
  · simp [instrOf, hd, hm]

/-- A warp at a word of code does next what the word decodes to. -/
theorem nextInstr_of_word {s s1 : State} {r : WRef} {g : Workgroup} {w : Warp} {x : Word} {i : Instr}
    (hfell : w.c.pos.mode ≠ .fell) (htrap : w.c.pos.mode ≠ .trap) (ha : w.nextAddr % 4 = 0) (hx : nextWord s r g w = .word x s1)
    (hd : decode x = some i) (hp : isHeader i = true ∨ w.c.pos.mode = .body) :
    nextInstr s r g w = (i, if isHeader i then none else some (!x.getLsbD 31), s1) := by
  simp [nextInstr, hfell, htrap, ha, hx, instrOf_of_decode hd hp]

/-- A warp that nothing holds is ready with what it does next. -/
theorem readyInstr_of_nextInstr {s s1 : State} {r : WRef} {g : Workgroup} {w : Warp} {i : Instr} {set : Option Bool}
    (hrun : canRun g w = true) (hgate : (s.pair (pairOf (clusterOf g.tile))).gstate < 2) (hswap : s.swapping g.tile = false)
    (hdue : w.due = false) (hwait : w.c.wait = .none) (hpark : w.matParked = false)
    (hn : nextInstr { s with cur := some r } r g w = (i, set, s1)) (hh : heldAtHeader w i = false)
    (hst : stalls s r g (fillS s g r.wp w).1 i = false) : readyInstr s r g w = some (i, set, s1) := by
  simp [readyInstr, hrun, Nat.not_le.mpr hgate, hswap, takes_of_not_due hdue, hwait, hpark, hn, hh, hst]

/-! ### A word of code is four bytes of memory -/

theorem readN_lt (m : Memory) (a n : Nat) : Memory.readN m a n < 256 ^ n := by
  induction n generalizing a with
  | zero => simp [Memory.readN]
  | succ n ih =>
    have hbyte := (Memory.read m a).isLt
    have hrest := ih (a + 1)
    rw [Memory.readN, Nat.pow_succ]
    omega

/-- Bytes split at any of them. -/
theorem readN_add (m : Memory) (a k n : Nat) :
    Memory.readN m a (k + n) = Memory.readN m a k + 256 ^ k * Memory.readN m (a + k) n := by
  induction k generalizing a with
  | zero => simp [Memory.readN]
  | succ k ih =>
    rw [Nat.add_right_comm, Memory.readN, Memory.readN, ih, Nat.add_right_comm a 1 k, Nat.pow_succ]
    ring_nf

/-- Bytes within a run of bytes are a field of its number. -/
theorem readN_within (m : Memory) (a k n rest : Nat) :
    Memory.readN m a (k + (n + rest)) / 256 ^ k % 256 ^ n = Memory.readN m (a + k) n := by
  rw [readN_add, Nat.add_mul_div_left _ _ (Nat.pow_pos (by decide)), Nat.div_eq_of_lt (readN_lt m a k), Nat.zero_add, readN_add,
    Nat.add_mul_mod_self_left, Nat.mod_eq_of_lt (readN_lt m _ n)]

theorem toNat_append_eq {n k : Nat} (x : BitVec n) (y : BitVec k) : (x ++ y).toNat = 2 ^ k * x.toNat + y.toNat := by
  rw [BitVec.toNat_append, ← Nat.shiftLeft_add_eq_or_of_lt y.isLt, Nat.shiftLeft_eq, Nat.mul_comm]

theorem ofNat_readN_four (m : Memory) (a : Nat) : BitVec.ofNat 32 (Memory.readN m a 4) =
    wordOfBytes (m.read a) (m.read (a + 1)) (m.read (a + 2)) (m.read (a + 3)) := by
  apply BitVec.eq_of_toNat_eq
  rw [BitVec.toNat_ofNat, show 2 ^ 32 = 256 ^ 4 from rfl, Nat.mod_eq_of_lt (readN_lt m a 4)]
  simp only [wordOfBytes, toNat_append_eq, Memory.readN]
  ring

theorem toNat_ofNat_readN (m : Memory) (a n : Nat) : (BitVec.ofNat (8 * n) (Memory.readN m a n)).toNat = Memory.readN m a n := by
  refine (BitVec.toNat_ofNat _ _).trans (Nat.mod_eq_of_lt ?_)
  rw [Nat.pow_mul]
  exact readN_lt m a n

theorem toNat_chanLine (s : State) (line : Nat) : (chanLine s line).toNat = chanRead s (line * 128) 128 :=
  toNat_ofNat_readN s.mem (line * 128) 128

/-- The word at an aligned address of a line that the channel gives. -/
theorem wordIn_chanLine (s : State) (pa : Nat) (ha : pa % 4 = 0) : wordIn (chanLine s (lineOf pa)) (pa % 128) =
    wordOfBytes (s.mem.read pa) (s.mem.read (pa + 1)) (s.mem.read (pa + 2)) (s.mem.read (pa + 3)) := by
  have hrun : pa % 128 + (4 + (124 - pa % 128)) = 128 := by omega
  have hplace : lineOf pa * 128 + pa % 128 = pa := by unfold lineOf; omega
  have hfield : lineBytes (chanLine s (lineOf pa)) (pa % 128) 4 = Memory.readN s.mem pa 4 := by
    have h := readN_within s.mem (lineOf pa * 128) (pa % 128) 4 (124 - pa % 128)
    rw [hrun, hplace] at h
    rw [lineBytes, toNat_chanLine, Nat.pow_mul, Nat.pow_mul]
    exact h
  rw [wordIn, hfield, ofNat_readN_four]

/-- A fetch that no line of the line buffer serves. -/
theorem heldLine_eq_none {s : State} {t : Nat} {y : Xlated} (asid : Nat)
    (h : y.direct = true ∨ (s.tile t).line (lineOf y.pa) = none) : heldLine s t asid y = none := by
  unfold heldLine
  split
  · rfl
  next hdirect =>
    have hnone := List.find?_eq_none.mp (h.resolve_left hdirect)
    exact List.find?_eq_none.mpr fun l hl hheld => hnone l hl (by simp_all)

theorem fetchData_eq_chanLine {s : State} {t : Nat} {y : Xlated} (asid : Nat)
    (h : y.direct = true ∨ (s.tile t).line (lineOf y.pa) = none) : fetchData s t asid y = chanLine s (lineOf y.pa) := by
  rw [fetchData, heldLine_eq_none asid h]
  dsimp only
  split
  · rfl
  next hdirect => simp [engineLine, h.resolve_left hdirect]

/-- A word that no buffer of the tile holds comes from its line at the channel. -/
theorem codeWord_of_chanLine {s : State} {t asid : Nat} {y : Xlated} (hcode : cachedCode s t asid y = none)
    (hbad : s.dev.badLines.contains (lineOf y.pa) = false) (h : y.direct = true ∨ (s.tile t).line (lineOf y.pa) = none) :
    ∃ s1, codeWord s t asid y = .word (wordIn (chanLine s (lineOf y.pa)) (y.pa % 128)) s1 := by
  have hgood : lineOf y.pa ∉ s.dev.badLines := by simpa using hbad
  simp [codeWord, hcode, heldLine_eq_none asid h, hgood, fetchData_eq_chanLine asid h]

/-- Settles O56: each clause is the equation of the plan, of the pick or of the fetch that it speaks of. -/
theorem stepRunsDecoded : Obligations.StepRunsDecoded := by
  unfold Obligations.StepRunsDecoded
  intro s rest
  refine ⟨?_, ?_, fun u t p c hc hi => pick_of_choose hc hi, ?_, fun u t n hn hg => issued_passCycles hn hg, ?_, ?_, ?_, ?_⟩
  · intro t p c hl he ht hpick
    exact step_of_run (by simp [plan_of_select hl he ht, selectPlan, hpick, Candidate.plan])
  · intro t p hl he ht hpick
    exact step_of_done (by simp [plan_of_select hl he ht, selectPlan, hpick])
  · intro u t p c hpick hslot
    exact (hasIssued_eq_false_iff _ _ _).mp (hasIssued_of_pick hpick hslot)
  · intro e hl he ht hev
    exact step_of_run (plan_of_event hl he ht hev)
  · intro c ht hl hq hc
    exact step_of_run (plan_of_choice ht hl hq hc)
  · intro r g w x s1 i hrun hgate hswap hdue hwait hpark hfell htrap ha hx hd hp hh hst
    exact readyInstr_of_nextInstr hrun hgate hswap hdue hwait hpark (nextInstr_of_word hfell htrap ha hx hd hp) hh hst
  · intro t asid y hcode hbad ha h
    rw [← wordIn_chanLine s y.pa ha]
    exact codeWord_of_chanLine hcode hbad h

end Sys2Proof.Proofs

/-! PROOFS of the family of number formats: lane integers, special functions and conversions, the values of floating
operations, reductions. First what every lane instruction of the family shares: the warp that its operation leaves, and the
sub-elements and flags of what it writes. -/

namespace Sys2Proof.Proofs

open Sys2Proof.Machine Sys2Proof.Claims Sys2Proof.Laws Sys2Proof.Laws.State

/-! ### From a lane instruction's run to the warp that it leaves -/

/-- What the operation of a lane instruction sees when it is reached. -/
def laneCtx (c : LaneRun) : LaneCtx := ⟨c.u, c.m, c.t, false, c.bad, c.sv⟩

section

variable {c : LaneRun} {f : LaneForm} {ok : BitVec 5 → Bool}

/-- A lane instruction that reaches its operation retires with the warp that the operation leaves, unless a stream element of a
cross-lane instruction failed (R114, R139). -/
theorem ends_of_runLane (h : c.Reaches f ok) (hx : f.cross = false ∨ c.recs = []) {op : LaneCtx → Warp}
    (he : exec f.i c.s₀ = runLane c.s₀ f ok noCheck op) : c.Ends f.i (op (laneCtx c)) := by
  obtain ⟨w0, hcur, hlegal, hreads, hfill⟩ := h.word
  have htag := h.tag
  have hset := h.set
  have hread := h.read
  have hrun := runLane_next (check := noCheck) (op := op) hcur hlegal hreads hfill rfl h.lanes htag h.fits hset rfl hread
  have hstays : (f.cross && decide (recordMask c.recs ≠ 0)) = false := by
    rcases hx with hx | hx
    · rw [hx, Bool.false_and]
    · rw [hx]
      simp [recordMask, maskOf]
  rw [hstays] at hrun
  exact he.trans hrun

end

/-! ### Flags of lanes and of sub-elements -/

/-- A bit of joined flags is a bit of one of them. -/
theorem getLsbD_foldl_or {α : Type} (g : α → BitVec 8) (l : List α) (a : BitVec 8) (k : Nat) :
    (l.foldl (fun a x => a ||| g x) a).getLsbD k = true ↔ a.getLsbD k = true ∨ ∃ x ∈ l, (g x).getLsbD k = true := by
  induction l generalizing a with
  | nil => simp
  | cons x l ih => simp [ih, or_assoc]

/-- The flags that the lanes of a mask raise together (R94). -/
def laneFlags (m : Mask) (g : Nat → LaneRes) : BitVec 8 := (lanesIn m).foldl (fun a l => a ||| (g l).2) 0

theorem getLsbD_laneFlags (m : Mask) (g : Nat → LaneRes) (k : Nat) : (laneFlags m g).getLsbD k = true ↔
    ∃ l, l < 32 ∧ m.getLsbD l = true ∧ (g l).2.getLsbD k = true := by
  simp [laneFlags, getLsbD_foldl_or, mem_lanesIn, and_assoc]

theorem laneFlags_zero (m : Mask) {g : Nat → LaneRes} (h : ∀ l, (g l).2 = 0) : laneFlags m g = 0 := by
  refine BitVec.eq_of_getLsbD_eq fun k _ => Bool.eq_iff_iff.2 ?_
  simp [getLsbD_laneFlags, h]

/-- Raising no flag changes nothing. -/
theorem raise_zero (w : Warp) : w.raise 0 = w := by simp [Warp.raise]

/-- What an operation writes with flags: the bits of its lanes to the destination, and the flags of the lanes that computed (R94,
R115). -/
theorem putFlags_laneCtx (c : LaneRun) (o : Opd) (tag : BitVec 5) (g : Nat → LaneRes) : (laneCtx c).putFlags o tag g =
    (writeDst c.u o tag c.m c.bad (fun l => (g l).1)).raise (laneFlags (c.m &&& ~~~c.bad) g) := rfl

/-! ### Sub-elements of packed lanes -/

/-- A sub-element of a lane packed from a list that it holds; past the list's end it is 0 (R15, R131). -/
theorem subEl_packEls {w : Nat} {es : List Nat} (h : w * es.length ≤ 64) (j : Nat) :
    subEl w (BitVec.ofNat 64 (packEls w es)) j = es.getD j 0 % 2 ^ w := by
  have hlt : packEls w es < 2 ^ 64 := Nat.lt_of_lt_of_le (packEls_lt w es) (Nat.pow_le_pow_right (by decide) h)
  rw [subEl, BitVec.toNat_ofNat, Nat.mod_eq_of_lt hlt]
  by_cases hj : j < es.length
  · exact packEls_div w es j hj
  · have hpast : packEls w es < 2 ^ (w * j) := Nat.lt_of_lt_of_le (packEls_lt w es)
      (Nat.pow_le_pow_right (by decide) (Nat.mul_le_mul_left w (by omega)))
    rw [Nat.div_eq_of_lt hpast, List.getD_eq_default _ _ (by omega)]

theorem subEl_lt (w : Nat) (x : Reg) (j : Nat) : subEl w x j < 2 ^ w := Nat.mod_lt _ (Nat.two_pow_pos w)

/-- The list of a function's first values, read by number. -/
theorem getD_map_range (g : Nat → Nat) (n j : Nat) : ((List.range n).map g).getD j 0 = if j < n then g j else 0 := by
  simp only [List.getD_eq_getElem?_getD, List.getElem?_map]
  split
  · next h => simp [h]
  · next h => simp [List.getElem?_eq_none (l := List.range n) (i := j) (by simpa using h)]

/-- A lane result whose first n sub-elements of width w are given each with its flags. -/
def elementsRes (w n : Nat) (v : Nat → FRes) : LaneRes :=
  (BitVec.ofNat 64 (packEls w (((List.range n).map v).map (·.bits))), ((List.range n).map v).foldl (fun a r => a ||| r.fl) 0)

theorem subEl_elementsRes {w n : Nat} (h : w * n ≤ 64) (v : Nat → FRes) (j : Nat) :
    subEl w (elementsRes w n v).1 j = if j < n then (v j).bits % 2 ^ w else 0 := by
  have hlen : w * (((List.range n).map v).map (·.bits)).length ≤ 64 := by simpa using h
  rw [elementsRes, subEl_packEls hlen, List.map_map, getD_map_range]
  split <;> simp

theorem getLsbD_elementsRes (w n : Nat) (v : Nat → FRes) (k : Nat) :
    (elementsRes w n v).2.getLsbD k = true ↔ ∃ j, j < n ∧ (v j).fl.getLsbD k = true := by
  simp [elementsRes, getLsbD_foldl_or]

section

variable {c : LaneRun} {d : BitVec 7} {tag : BitVec 5} {n : Nat} {v : Nat → Nat → FRes}

/-- Writing results given by sub-element: what each sub-element becomes, and which flags are raised (R94, R115). -/
theorem putFlags_elements (hn : fmtWidth tag * n ≤ 64) {g : Nat → LaneRes} (hg : ∀ l, g l = elementsRes (fmtWidth tag) n (v l)) :
    ∃ (new : Nat → Reg) (fl : BitVec 8),
      (laneCtx c).putFlags (opdOf d) tag g = (writeDst c.u (opdOf d) tag c.m c.bad new).raise fl ∧
      (∀ l j, l < 32 → (c.m &&& ~~~c.bad).getLsbD l = true → j < 64 / fmtWidth tag →
        subEl (fmtWidth tag) (new l) j = if j < n then (v l j).bits % 2 ^ fmtWidth tag else 0) ∧
      (∀ k, k < 8 → (fl.getLsbD k = true ↔
        ∃ l j, l < 32 ∧ j < n ∧ (c.m &&& ~~~c.bad).getLsbD l = true ∧ (v l j).fl.getLsbD k = true)) := by
  refine ⟨_, _, putFlags_laneCtx c (opdOf d) tag g, fun l j _ _ _ => ?_, fun k _ => ?_⟩
  · rw [hg, subEl_elementsRes hn]
  · simp only [getLsbD_laneFlags, hg, getLsbD_elementsRes]
    constructor
    · rintro ⟨l, hl, hm, j, hj, hk⟩
      exact ⟨l, j, hl, hj, hm, hk⟩
    · rintro ⟨l, j, hl, hj, hm, hk⟩
      exact ⟨l, hl, hm, j, hj, hk⟩

theorem writesFloat_of_putFlags {i : Instr} {g : Nat → LaneRes} (h : c.Ends i ((laneCtx c).putFlags (opdOf d) tag g))
    (hn : fmtWidth tag * n ≤ 64) (hg : ∀ l, g l = elementsRes (fmtWidth tag) n (v l)) : c.WritesFloat i d tag n v := by
  obtain ⟨new, fl, hput, hels, hfl⟩ := putFlags_elements (c := c) (d := d) hn hg
  rw [hput] at h
  exact ⟨new, fl, h, hels, hfl⟩

end

/-- As many sub-elements as a lane has, or fewer, fit it. -/
theorem width_mul_le {w n : Nat} (h : n ≤ 64 / w) : w * n ≤ 64 := (Nat.mul_le_mul_left w h).trans (Nat.mul_div_le 64 w)

/-! ### Integer lanes -/

/-- Wrapping keeps a value modulo 2^w. -/
theorem wrapTo_cast (w : Nat) (v : Int) : (wrapTo w v : Int) = v % 2 ^ w :=
  Int.toNat_of_nonneg (Int.emod_nonneg v (by positivity))

theorem wrapTo_lt (w : Nat) (v : Int) : wrapTo w v < 2 ^ w := by
  have h := Int.emod_lt_of_pos v (show (0 : Int) < 2 ^ w by positivity)
  rw [← wrapTo_cast] at h
  exact_mod_cast h

section

variable {c : LaneRun} {f : LaneForm} {i : Instr} {d a b : BitVec 7} {p : BitVec 3} {k : TagClass}

/-- What the integer instructions share: a function of the values of three sub-elements, wrapped (R118). -/
theorem intLane_writesInt (h : c.Reaches f k.has) (hx : f.cross = false) (G : Int → Int → Int → Int) (A B Z : Nat → Reg)
    {g : LaneCtx → Nat → LaneRes}
    (he : exec f.i c.s₀ = runLane c.s₀ f k.has noCheck (fun x => x.putFlags (opdOf d) x.t (g x)))
    (hg : ∀ l, g (laneCtx c) l = intLane c.t G (A l) (B l) (Z l)) : c.WritesInt f.i d (fun l j =>
      G (elVal c.t (subEl c.width (A l) j)) (elVal c.t (subEl c.width (B l) j)) (elVal c.t (subEl c.width (Z l) j))) := by
  have hends := ends_of_runLane h (.inl hx) he
  rw [putFlags_laneCtx, laneFlags_zero _ (fun l => by rw [hg]; rfl), raise_zero] at hends
  refine ⟨_, hends, fun l j _ _ hj => ?_⟩
  rw [hg, intLane, subEl_laneFrom _ _ _ hj, Nat.mod_eq_of_lt (wrapTo_lt _ _)]
  exact wrapTo_cast _ _

theorem unary_writesInt {G : BitVec 5 → Int → Int}
    (he : ∀ s, exec i s = runUnary s i d a p k (fun t x => intLane t (fun x _ _ => G t x) x 0 0))
    (h : c.Reaches (form1 i d a p) k.has) : c.WritesInt i d (fun l j => G c.t (c.num a l j)) :=
  intLane_writesInt h rfl (fun x _ _ => G c.t x) (c.val a) (fun _ => 0) (fun _ => 0) (he _) (fun _ => rfl)

theorem binary_writesInt {G : BitVec 5 → Int → Int → Int}
    (he : ∀ s, exec i s = runBinary s i d a b p k (fun t x y => intLane t (fun x y _ => G t x y) x y 0))
    (h : c.Reaches (form2 i d a b p) k.has) : c.WritesInt i d (fun l j => G c.t (c.num a l j) (c.num b l j)) :=
  intLane_writesInt h rfl (fun x y _ => G c.t x y) (c.val a) (c.val b) (fun _ => 0) (he _) (fun _ => rfl)

theorem ternary_writesInt {G : BitVec 5 → Int → Int → Int → Int}
    (he : ∀ s, exec i s = runTernary s i d a b p k (fun t => intLane t (G t)))
    (h : c.Reaches (form3 i d a b p) k.has) :
    c.WritesInt i d (fun l j => G c.t (c.num a l j) (c.num b l j) (c.num d l j)) :=
  intLane_writesInt h rfl (G c.t) (c.val a) (c.val b) (c.val d) (he _) (fun _ => rfl)

theorem scalar_writesInt {G : BitVec 5 → Int → Int → Int}
    (he : ∀ s, exec i s = runScalar s i d a b p k (fun t x v => intLane t (fun x y _ => G t x y) x (splat t v) 0))
    (h : c.Reaches (form1 i d a p) k.has) : c.WritesInt i d (fun l j => G c.t (c.num a l j) (c.numS b l j)) :=
  intLane_writesInt h rfl (fun x y _ => G c.t x y) (c.val a) (fun _ => splat c.t (rrsValue c.u b)) (fun _ => 0) (he _)
    (fun _ => rfl)

end

/-- Settles O10: each instruction runs one of four forms with its own function of the operands' values. -/
theorem laneIntegers : Obligations.LaneIntegers := by
  unfold Obligations.LaneIntegers
  intro c d a b p x y z I
  refine ⟨?_, ?_, ?_, ?_, ?_, ?_, ?_, ?_, ?_, ?_, ?_, ?_, ?_, ?_, ?_, ?_⟩
  · exact binary_writesInt (G := fun _ x y => x + y) fun _ => rfl
  · exact binary_writesInt (G := fun _ x y => x - y) fun _ => rfl
  · exact binary_writesInt (G := fun _ x y => x * y) fun _ => rfl
  · exact binary_writesInt (G := fun t x y => x * y / 2 ^ fmtWidth t) fun _ => rfl
  · exact ternary_writesInt (G := fun _ x y z => x * y + z) fun _ => rfl
  · exact binary_writesInt (G := fun t x y => clampTo t (x + y)) fun _ => rfl
  · exact binary_writesInt (G := fun t x y => clampTo t (x - y)) fun _ => rfl
  · exact binary_writesInt (G := fun _ x y => min x y) fun _ => rfl
  · exact binary_writesInt (G := fun _ x y => max x y) fun _ => rfl
  · intro h
    simpa only [Int.natCast_natAbs] using unary_writesInt (G := fun _ x => (x.natAbs : Int)) (fun _ => rfl) h
  · exact unary_writesInt (G := fun _ x => -x) fun _ => rfl
  · exact ternary_writesInt (G := fun t x y z => clampTo t (min z (x + y))) fun _ => rfl
  · exact ternary_writesInt (G := fun t x y z => clampTo t (max z (x + y))) fun _ => rfl
  · exact scalar_writesInt (G := fun _ x y => x + y) fun _ => rfl
  · exact scalar_writesInt (G := fun _ x y => x - y) fun _ => rfl
  · exact scalar_writesInt (G := fun _ x y => x * y) fun _ => rfl

/-! ### Floating lanes -/

/-- The width of a floating format is that of the sub-elements of its tag (R30). -/
theorem floatFmt_width {t : BitVec 5} {f : FloatFmt} (h : floatFmt t = some f) : f.width = fmtWidth t := by
  have hall : ∀ t : BitVec 5, ∀ f ∈ floatFmt t, f.width = fmtWidth t := by decide
  exact hall t f h

theorem floatLane_eq {t : BitVec 5} {f : FloatFmt} (h : floatFmt t = some f) (G : FloatFmt → Nat → Nat → Nat → FRes)
    (a b z : Reg) : floatLane t G a b z = elementsRes (fmtWidth t) (64 / fmtWidth t)
      (fun j => G f (subEl (fmtWidth t) a j) (subEl (fmtWidth t) b j) (subEl (fmtWidth t) z j)) := by
  rw [floatLane, h]
  dsimp only
  rw [floatFmt_width h]
  rfl

theorem cvtsLane_eq {s t : BitVec 5} {f h : FloatFmt} (hs : floatFmt s = some f) (ht : floatFmt t = some h) (x : Reg) (l : Nat)
    (a : Reg) : cvtsLane s t x l a = elementsRes (fmtWidth t) (min (64 / fmtWidth s) (64 / fmtWidth t))
      (fun j => stochRound h x (2 * l + j) (fdecode f (subEl (fmtWidth s) a j))) := by
  rw [cvtsLane, hs, ht]
  dsimp only
  rw [floatFmt_width hs, floatFmt_width ht]
  rfl

/-- A class mask is a pattern of 16 bits (R130). -/
theorem fclass_lt (f : FloatFmt) (b : Nat) : fclass f b < 2 ^ 16 := by
  unfold fclass
  split
  · split <;> decide
  · split <;> decide
  · split
    · split <;> decide
    · split
      · split <;> decide
      · split <;> decide

theorem subEl_classLane {t : BitVec 5} {f : FloatFmt} (h : floatFmt t = some f) (a : Reg) {j : Nat} (hj : j < 4) :
    subEl 16 (classLane t a) j = if j < 64 / fmtWidth t then fclass f (subEl (fmtWidth t) a j) else 0 := by
  have hlen : 16 * ((List.range (min (64 / fmtWidth t) 4)).map (fun j => fclass f (subEl (fmtWidth t) a j))).length ≤ 64 := by
    simp only [List.length_map, List.length_range]
    omega
  rw [classLane, h]
  dsimp only
  rw [floatFmt_width h, subEl_packEls hlen, getD_map_range]
  have hmin : j < min (64 / fmtWidth t) 4 ↔ j < 64 / fmtWidth t := by omega
  simp only [hmin]
  split
  · exact Nat.mod_eq_of_lt (fclass_lt f _)
  · rfl

section

variable {c : LaneRun} {i : Instr} {d a : BitVec 7} {p : BitVec 3} {t : BitVec 5} {m : BitVec 2} {k : TagClass} {f : FloatFmt}

/-- A floating function of one operand, sub-element by sub-element (R128). -/
theorem unary_writesFloat (hf : floatFmt c.t = some f) {G : FloatFmt → Nat → FRes}
    (he : ∀ s, exec i s = runUnary s i d a p k (fun t x => floatLane t (fun f x _ _ => G f x) x 0 0))
    (h : c.Reaches (form1 i d a p) k.has) : c.WritesFloat i d c.t c.count (fun l j => G f (c.pat a l j)) := by
  have hends := ends_of_runLane h (.inl rfl) (he _)
  exact writesFloat_of_putFlags hends (Nat.mul_div_le 64 _) fun l => floatLane_eq hf (fun f x _ _ => G f x) (c.val a l) 0 0

/-- VFCLASS writes a class mask for each sub-element, as n16 (R130). -/
theorem vfclass_writes (hf : floatFmt c.t = some f) (h : c.Reaches (form1 (.vfclass d a p) d a p) TagClass.FA.has) :
    c.Writes (.vfclass d a p) d 0x04 (fun l j e => e = if j < c.count then fclass f (c.pat a l j) else 0) := by
  have hends := ends_of_runLane (op := fun x => x.put (opdOf d) 0x04#5 (fun l => classLane x.t (x.val (opdOf a) l)))
    h (.inl rfl) rfl
  exact ⟨_, hends, fun l _ _ _ hj => subEl_classLane hf (c.val a l) hj⟩

/-- The results of VCVTS in a lane, under the generator state that it moves to (R101, R132). -/
def cvtsRes (c : LaneRun) (f h : FloatFmt) (a : BitVec 7) (l j : Nat) : FRes :=
  stochRound h (seedStep c.u.sp.srseed) (2 * l + j) (fdecode f (c.pat a l j))

/-- VCVTS converts with the generator's next state, which it leaves behind (R100, R101, R132). -/
theorem vcvts_ends (h : c.Reaches (form1 (.vcvts d a t p) d a p) (fun x => cvtsOk x t)) {u : Warp}
    (hu : (laneCtx c).putFlags (opdOf d) t (fun l => cvtsLane c.t t (seedStep c.u.sp.srseed) l (c.val a l)) = u) :
    c.Ends (.vcvts d a t p) { u with sp := { u.sp with srseed := seedStep c.u.sp.srseed } } := by
  subst hu
  exact ends_of_runLane (f := form1 (.vcvts d a t p) d a p) (op := fun c =>
    let x := seedStep c.w.sp.srseed
    let w := c.putFlags (opdOf d) t (fun l => cvtsLane c.t t x l (c.val (opdOf a) l))
    { w with sp := { w.sp with srseed := x } }) h (.inl rfl) rfl

theorem vcvts_elements {h : FloatFmt} (hf : floatFmt c.t = some f) (ht : floatFmt t = some h) :
    ∃ (new : Nat → Reg) (fl : BitVec 8),
      (laneCtx c).putFlags (opdOf d) t (fun l => cvtsLane c.t t (seedStep c.u.sp.srseed) l (c.val a l)) =
        (writeDst c.u (opdOf d) t c.m c.bad new).raise fl ∧
      (∀ l j, l < 32 → (c.m &&& ~~~c.bad).getLsbD l = true → j < 64 / fmtWidth t → subEl (fmtWidth t) (new l) j =
        if j < min c.count (64 / fmtWidth t) then (cvtsRes c f h a l j).bits % 2 ^ fmtWidth t else 0) ∧
      (∀ k, k < 8 → (fl.getLsbD k = true ↔ ∃ l j, l < 32 ∧ j < min c.count (64 / fmtWidth t) ∧
        (c.m &&& ~~~c.bad).getLsbD l = true ∧ (cvtsRes c f h a l j).fl.getLsbD k = true)) :=
  putFlags_elements (width_mul_le (Nat.min_le_right _ _)) fun l => cvtsLane_eq hf ht (seedStep c.u.sp.srseed) l (c.val a l)

/-- VCVT converts the elements that both formats have room for (R131). -/
theorem vcvt_writesFloat
    (h : c.Reaches (form1 (.vcvt d a t m p) d a p) (fun x => (TagClass.I.has x || TagClass.FA.has x) && decide (t ≠ 0))) :
    c.WritesFloat (.vcvt d a t m p) d t (min c.count (64 / fmtWidth t))
      (fun l j => (convertEl c.t t m.toNat (c.pat a l j)).getD ⟨0, 0⟩) := by
  have hends := ends_of_runLane
    (op := fun x => x.putFlags (opdOf d) t (fun l => cvtLane x.t t m.toNat (x.val (opdOf a) l))) h (.inl rfl) rfl
  exact writesFloat_of_putFlags hends (width_mul_le (Nat.min_le_right _ _)) fun _ => rfl

end

/-- Settles O15: the special functions share one form; VFCLASS, VCVTS and VCVT pack the list of their sub-elements' results. -/
theorem laneSpecials : Obligations.LaneSpecials := by
  unfold Obligations.LaneSpecials
  intro c d a p t m n
  refine ⟨fun f hf => ⟨?_, ?_, ?_, ?_, ?_, ?_, ?_, vfclass_writes hf, fun h ht hr => ?_⟩, vcvt_writesFloat⟩
  · exact unary_writesFloat hf (G := fspecial .rcp) fun _ => rfl
  · exact unary_writesFloat hf (G := fspecial .rsq) fun _ => rfl
  · exact unary_writesFloat hf (G := fspecial .sqrt) fun _ => rfl
  · exact unary_writesFloat hf (G := fspecial .ex2) fun _ => rfl
  · exact unary_writesFloat hf (G := fspecial .lg2) fun _ => rfl
  · exact unary_writesFloat hf (G := fspecial .sin) fun _ => rfl
  · exact unary_writesFloat hf (G := fspecial .cos) fun _ => rfl
  · obtain ⟨new, fl, hu, hels, hfl⟩ := vcvts_elements hf ht
    exact ⟨_, vcvts_ends hr rfl, new, fl, hu, hels, hfl⟩

/-! ### Bits of numbers, counted -/

/-- The count of one bits is that of the places where a bit is set (R118, R143). -/
theorem popBits_eq (n x : Nat) : popBits n x = ((List.range n).filter (fun k => x.testBit k)).length := by
  induction n generalizing x with
  | zero => rfl
  | succ n ih =>
    rw [popBits, ih, List.range_succ_eq_map, List.filter_cons, List.filter_map, Nat.testBit_zero]
    have hshift : (fun k => x.testBit k) ∘ Nat.succ = fun k => (x / 2).testBit k := by
      funext k
      exact Nat.testBit_succ x k
    rw [hshift]
    rcases Nat.mod_two_eq_zero_or_one x with h | h <;> simp [h, Nat.add_comm]

theorem popBits_le (n x : Nat) : popBits n x ≤ n := by
  rw [popBits_eq]
  exact (List.length_filter_le _ _).trans (List.length_range).le

/-! ### Sub-groups of lanes -/

/-- The first lane of a sub-group of W lanes (R136). -/
theorem groupBase_eq (W l : Nat) : groupBase W l = W * (l / W) := by
  have := Nat.div_add_mod l W
  unfold groupBase
  omega

/-- Two lanes are of one sub-group when its number is the same. -/
theorem groupBase_eq_iff {W : Nat} (hW : 0 < W) (k l : Nat) : groupBase W k = groupBase W l ↔ k / W = l / W := by
  rw [groupBase_eq, groupBase_eq, Nat.mul_right_inj (by omega)]

/-- The executing lanes of a sub-group, ascending, are those that the claims name (R136, R145). -/
theorem groupLanes_eq (c : LaneRun) {W : Nat} (hW : 0 < W) (l : Nat) : groupLanes W c.m l = c.group W l := by
  unfold groupLanes lanesIn laneNums LaneRun.group
  rw [List.filter_filter]
  refine List.filter_congr fun k _ => ?_
  rw [Bool.and_comm, Bool.eq_iff_iff]
  simp [groupBase_eq_iff hW]

/-- The bits of a mask in the sub-group of a lane, from bit 0 on (R143). -/
def ballotBits (q : Mask) (W l : Nat) : Nat := q.toNat / 2 ^ groupBase W l % 2 ^ W

theorem testBit_ballotBits (q : Mask) (W l i : Nat) :
    (ballotBits q W l).testBit i = (decide (i < W) && q.getLsbD (W * (l / W) + i)) := by
  rw [ballotBits, Nat.testBit_mod_two_pow, Nat.testBit_div_two_pow, groupBase_eq, Nat.add_comm i]
  rfl

theorem ballotBits_lt (q : Mask) (W l : Nat) : ballotBits q W l < 2 ^ 32 :=
  Nat.lt_of_le_of_lt ((Nat.mod_le _ _).trans (Nat.div_le_self _ _)) q.isLt

/-- A lane of a sub-group is its place in the sub-group above the sub-group's first lane. -/
theorem mem_group_iff {W : Nat} (hW : 0 < W) (l i : Nat) : i / W = l / W ↔ ∃ k, k < W ∧ W * (l / W) + k = i := by
  constructor
  · intro h
    exact ⟨i % W, Nat.mod_lt i hW, by rw [← h, Nat.div_add_mod]⟩
  · rintro ⟨k, hk, rfl⟩
    rw [Nat.mul_add_div hW, Nat.div_eq_of_lt hk, Nat.add_zero]

/-- The count of a sub-group's bits is the number of its lanes in the mask: they are the places of the bits, moved up to the
sub-group's first lane (R143). -/
theorem popBits_ballotBits (q : Mask) {W : Nat} (hW : 0 < W) (l : Nat) :
    popBits 32 (ballotBits q W l) = ((List.range 32).filter (fun i => q.getLsbD i && (i / W == l / W))).length := by
  rw [popBits_eq, ← List.length_map (f := fun k => W * (l / W) + k)]
  refine List.Perm.length_eq ((List.perm_ext_iff_of_nodup ?_ (List.nodup_range.filter _)).2 fun i => ?_)
  · exact (List.nodup_range.filter _).map fun _ _ h => Nat.add_left_cancel h
  · simp only [List.mem_map, List.mem_filter, List.mem_range, testBit_ballotBits, Bool.and_eq_true, decide_eq_true_eq,
      beq_iff_eq, mem_group_iff hW]
    constructor
    · rintro ⟨k, ⟨-, hk, hq⟩, rfl⟩
      exact ⟨BitVec.lt_of_getLsbD hq, hq, k, hk, rfl⟩
    · rintro ⟨hi, hq, k, hk, rfl⟩
      exact ⟨k, ⟨by omega, hk, hq⟩, rfl⟩

/-! ### The cross-lane instructions -/

/-- VSUBEL takes the sub-element that a nibble of the selector names, or 0 where there is none (R142). -/
theorem subEl_subelLane {t : BitVec 5} (sel a : Reg) {j : Nat} (hj : j < 64 / fmtWidth t) :
    subEl (fmtWidth t) (subelLane t sel a) j =
      if sel.toNat / 16 ^ j % 16 < 64 / fmtWidth t then subEl (fmtWidth t) a (sel.toNat / 16 ^ j % 16) else 0 := by
  have hsel : fieldOf sel (4 * j) 4 = sel.toNat / 16 ^ j % 16 := by
    rw [fieldOf, Nat.pow_mul]
    rfl
  rw [subelLane, subEl_laneFrom _ _ _ hj, hsel]
  dsimp only
  refine Nat.mod_eq_of_lt ?_
  split
  · exact subEl_lt _ _ _
  · exact Nat.two_pow_pos _

section

variable {c : LaneRun} {d a : BitVec 7} {w o k : BitVec 3} {x : BitVec 1} {q : BitVec 5}

theorem vsubel_writes (hr : c.recs = []) (h : c.Reaches (formX (.vsubel d a q) d a) TagClass.A.has) :
    c.Writes (.vsubel d a q) d c.t (fun l j e =>
      e = if (c.u.sget q.toNat).toNat / 16 ^ j % 16 < c.count then c.pat a l ((c.u.sget q.toNat).toNat / 16 ^ j % 16)
        else 0) := by
  have hends := ends_of_runLane
    (op := fun x => x.put (opdOf d) x.t (fun l => subelLane x.t (x.w.sget q.toNat) (x.val (opdOf a) l))) h (.inr hr) rfl
  refine ⟨_, hends, fun l j _ _ hj => ?_⟩
  exact subEl_subelLane (c.u.sget q.toNat) (c.val a l) hj

/-- The two halves of what VBALLOT writes: the sub-group's bits, and their count (R143). -/
theorem subEl_ballot {g n : Nat} (hg : g < 2 ^ 32) (hn : n ≤ 32) :
    subEl 32 (BitVec.ofNat 64 (g + 2 ^ 32 * n)) 0 = g ∧ subEl 32 (BitVec.ofNat 64 (g + 2 ^ 32 * n)) 1 = n := by
  simp only [subEl, BitVec.toNat_ofNat]
  omega

theorem vballot_writes (hr : c.recs = [])
    (h : c.Reaches ⟨.vballot d w k, none, [d], [], [], true⟩ (fun _ => true)) :
    c.Writes (.vballot d w k) d 0x06 (fun l j e =>
      (j = 0 → ∀ i, i < 32 → e.testBit i = (decide (i < 2 ^ w.toNat) &&
        ((c.u.pget k.toNat).getLsbD (2 ^ w.toNat * (l / 2 ^ w.toNat) + i) &&
          c.m.getLsbD (2 ^ w.toNat * (l / 2 ^ w.toNat) + i)))) ∧
      (j = 1 → e = ((List.range 32).filter (fun i =>
        (c.u.pget k.toNat).getLsbD i && c.m.getLsbD i && (i / 2 ^ w.toNat == l / 2 ^ w.toNat))).length)) := by
  have hends := ends_of_runLane (op := fun x => x.put (opdOf d) 0x06#5 (fun l =>
    let g := ((x.w.pget k.toNat &&& x.m).toNat / 2 ^ groupBase (groupWidth w) l) % 2 ^ groupWidth w
    BitVec.ofNat 64 (g + 2 ^ 32 * popBits 32 g))) h (.inr hr) rfl
  refine ⟨_, hends, fun l j _ _ _ => ?_⟩
  have hhalves := subEl_ballot (ballotBits_lt (c.u.pget k.toNat &&& c.m) (2 ^ w.toNat) l)
    (popBits_le 32 (ballotBits (c.u.pget k.toNat &&& c.m) (2 ^ w.toNat) l))
  obtain ⟨hlow, hhigh⟩ := hhalves
  constructor
  · rintro rfl i _
    refine (congrArg (·.testBit i) hlow).trans ?_
    rw [testBit_ballotBits, BitVec.getLsbD_and]
  · rintro rfl
    refine hhigh.trans ?_
    rw [popBits_ballotBits _ (Nat.two_pow_pos _)]
    simp only [BitVec.getLsbD_and]

/-- What the reductions share: a result for each sub-element from the sub-group's executing lanes (R145-R147). -/
theorem perElement_writesFloat {i : Instr} {ok : BitVec 5 → Bool} (hr : c.recs = []) (h : c.Reaches (formX i d a) ok)
    {v : LaneCtx → Nat → Nat → FRes} (he : ∀ s, exec i s = runLane s (formX i d a) ok noCheck
      (fun x => x.putFlags (opdOf d) x.t (fun l => perElement x.t (v x l)))) :
    c.WritesFloat i d c.t c.count (v (laneCtx c)) := by
  have hends := ends_of_runLane h (.inr hr) (he _)
  exact writesFloat_of_putFlags hends (Nat.mul_div_le 64 _) fun _ => rfl

theorem vred_writesFloat (hr : c.recs = []) (h : c.Reaches (formX (.vred d a w o) d a) (redClassOk (redOpOf o))) :
    c.WritesFloat (.vred d a w o) d c.t c.count
      (fun l j => tree (redOpOf o) c.t ((c.group (2 ^ w.toNat) l).map (fun i => c.pat a i j))) := by
  simp only [← groupLanes_eq c (Nat.two_pow_pos w.toNat)]
  exact perElement_writesFloat hr h (v := fun x l j =>
    tree (redOpOf o) x.t (x.column a j (groupLanes (groupWidth w) x.m l))) fun _ => rfl

theorem vscan_writesFloat (hr : c.recs = []) (h : c.Reaches (formX (.vscan d a w x o) d a) (redClassOk (redOpOf o))) :
    c.WritesFloat (.vscan d a w x o) d c.t c.count (fun l j => tree (redOpOf o) c.t
      (((c.group (2 ^ w.toNat) l).filter (fun i => if x = 1 then decide (i < l) else decide (i ≤ l))).map
        (fun i => c.pat a i j))) := by
  simp only [← groupLanes_eq c (Nat.two_pow_pos w.toNat)]
  exact perElement_writesFloat hr h (v := fun y l j => tree (redOpOf o) y.t (y.column a j
    ((groupLanes (groupWidth w) y.m l).filter (fun m => if x = 1 then decide (m < l) else decide (m ≤ l))))) fun _ => rfl

theorem vcav_writesFloat (hr : c.recs = []) (h : c.Reaches (formX (.vcav d a w o) d a) (cavClassOk (redOpOf o))) :
    c.WritesFloat (.vcav d a w o) d c.t c.count (fun l j => cavity (redOpOf o) c.t
      ((c.group (2 ^ w.toNat) l).map (fun i => c.pat a i j))
      ((c.group (2 ^ w.toNat) l).filter (fun i => decide (i < l))).length) := by
  simp only [← groupLanes_eq c (Nat.two_pow_pos w.toNat)]
  exact perElement_writesFloat hr h (v := fun x l j => cavity (redOpOf o) x.t
    (x.column a j (groupLanes (groupWidth w) x.m l))
    ((groupLanes (groupWidth w) x.m l).filter (fun m => decide (m < l))).length) fun _ => rfl

end

theorem crossReductions_hold : Sys2Proof.Claims.crossReductions := by
  intro c d a w o k x q W op col hr
  exact ⟨vsubel_writes hr, vballot_writes hr, vred_writesFloat hr, vscan_writesFloat hr, vcav_writesFloat hr⟩

/-! ### The pairwise tree as a fold -/

/-- A step that raises nothing, is associative on the patterns of a range, and has an identity to the left there. -/
structure Folds (f : Nat → Nat → FRes) (e : Nat) (P : Nat → Prop) : Prop where
  silent : ∀ x y, (f x y).fl = 0
  closed : ∀ {x y}, P x → P y → P (f x y).bits
  assoc : ∀ {x y z}, P x → P y → P z → (f (f x y).bits z).bits = (f x (f y z).bits).bits
  start : P e
  left : ∀ {x}, P x → (f e x).bits = x

section

variable {f : Nat → Nat → FRes} {e : Nat} {P : Nat → Prop}

/-- A pass raises nothing, keeps the range and halves the list. -/
theorem treePass_keeps (h : Folds f e P) (l : List Nat) (hl : ∀ x ∈ l, P x) :
    (treePass f l).2 = 0 ∧ (∀ x ∈ (treePass f l).1, P x) ∧ (treePass f l).1.length = (l.length + 1) / 2 := by
  induction l using List.twoStepInduction with
  | nil => exact ⟨rfl, hl, rfl⟩
  | singleton x => exact ⟨rfl, hl, by simp [treePass]⟩
  | cons_cons x y r ih _ =>
    obtain ⟨hx, hy, hr⟩ : P x ∧ P y ∧ ∀ z ∈ r, P z := by simpa using hl
    obtain ⟨hfl, hP, hlen⟩ := ih hr
    refine ⟨?_, ?_, ?_⟩
    · rw [treePass, hfl, h.silent]
      exact BitVec.or_zero
    · rw [treePass]
      exact List.forall_mem_cons.2 ⟨h.closed hx hy, hP⟩
    · simp only [treePass, List.length_cons, hlen]
      omega

/-- Combining neighbours first does not change a fold. -/
theorem foldl_treePass (h : Folds f e P) (l : List Nat) (a : Nat) (ha : P a) (hl : ∀ x ∈ l, P x) :
    (treePass f l).1.foldl (fun x y => (f x y).bits) a = l.foldl (fun x y => (f x y).bits) a := by
  induction l using List.twoStepInduction generalizing a with
  | nil => rfl
  | singleton x => rfl
  | cons_cons x y r ih _ =>
    obtain ⟨hx, hy, hr⟩ : P x ∧ P y ∧ ∀ z ∈ r, P z := by simpa using hl
    rw [treePass, List.foldl_cons, List.foldl_cons, List.foldl_cons, h.assoc ha hx hy]
    exact ih _ (h.closed ha (h.closed hx hy)) hr

/-- With a pass for every halving the tree is the fold from the identity (R104). -/
theorem treeFrom_eq_foldl (h : Folds f e P) (n : Nat) (l : List Nat) (hn : l.length ≤ 2 ^ n) (hl : ∀ x ∈ l, P x) :
    treeFrom f e n l = ⟨l.foldl (fun x y => (f x y).bits) e, 0⟩ := by
  induction n generalizing l with
  | zero =>
    match l with
    | [] => rfl
    | [x] => simp [treeFrom, h.left (hl x (by simp))]
  | succ n ih =>
    match l with
    | [] => rfl
    | [x] => simp [treeFrom, h.left (hl x (by simp))]
    | x :: y :: r =>
      obtain ⟨hfl, hP, hlen⟩ := treePass_keeps h (x :: y :: r) hl
      have hhalf : (treePass f (x :: y :: r)).1.length ≤ 2 ^ n := by
        rw [hlen]
        rw [Nat.pow_succ] at hn
        omega
      have hstep : treeFrom f e (n + 1) (x :: y :: r) = ⟨(treeFrom f e n (treePass f (x :: y :: r)).1).bits,
          (treePass f (x :: y :: r)).2 ||| (treeFrom f e n (treePass f (x :: y :: r)).1).fl⟩ := rfl
      rw [hstep, ih _ hhalf hP, hfl, foldl_treePass h _ _ h.start hl]
      exact congrArg (FRes.mk _) BitVec.or_zero

end

/-! ### The steps of reductions on integers and on bits -/

/-- An integer tag is of no floating format, and its elements have more than one bit and fit a lane (R81). -/
theorem intFmt_facts {t : BitVec 5} (h : (intFmt t).isSome = true) :
    floatFmt t = none ∧ intFmt t = some (fmtWidth t, isSigned t) ∧ 2 ≤ fmtWidth t ∧ fmtWidth t ≤ 64 := by
  revert t
  decide

/-- The least and the greatest value of an integer tag (R81, R118). -/
def intLow (t : BitVec 5) : Int := if isSigned t then -2 ^ (fmtWidth t - 1) else 0
def intHigh (t : BitVec 5) : Int := if isSigned t then 2 ^ (fmtWidth t - 1) - 1 else 2 ^ fmtWidth t - 1

theorem clampTo_eq (t : BitVec 5) (v : Int) : clampTo t v = max (intLow t) (min (intHigh t) v) := rfl

section

variable {t : BitVec 5}

/-- Two values wrap to one pattern exactly when they agree modulo 2^w. -/
theorem wrapTo_eq_iff (w : Nat) (u v : Int) : wrapTo w u = wrapTo w v ↔ u % 2 ^ w = v % 2 ^ w := by
  rw [← wrapTo_cast, ← wrapTo_cast, Int.natCast_inj]

theorem two_pow_double {w : Nat} (h : 1 ≤ w) : (2 : Int) ^ w = 2 * 2 ^ (w - 1) := by
  rw [← pow_succ', Nat.sub_add_cancel h]

/-- The range of an integer tag holds 2^w values, from 0 or below to at least 1. -/
theorem intRange (h : (intFmt t).isSome = true) :
    intHigh t + 1 = intLow t + 2 ^ fmtWidth t ∧ intLow t ≤ 0 ∧ 1 ≤ intHigh t ∧ intHigh t < 2 ^ 64 ∧ -2 ^ 64 ≤ intLow t := by
  obtain ⟨-, -, hw, hw64⟩ := intFmt_facts h
  have hdouble := two_pow_double (show 1 ≤ fmtWidth t by omega)
  have hhalf : (2 : Int) ≤ 2 ^ (fmtWidth t - 1) := le_self_pow₀ (by decide) (by omega)
  have hmax : (2 : Int) ^ fmtWidth t ≤ 2 ^ 64 := pow_le_pow_right₀ (by decide) hw64
  unfold intLow intHigh
  cases isSigned t <;> simp only [Bool.false_eq_true, if_false, if_true] <;> omega

/-- The value of a pattern of an integer tag lies in the tag's range, and agrees with the pattern modulo 2^w (R81). -/
theorem elVal_facts (h : (intFmt t).isSome = true) {x : Nat} (hx : x < 2 ^ fmtWidth t) :
    intLow t ≤ elVal t x ∧ elVal t x ≤ intHigh t ∧ elVal t x % 2 ^ fmtWidth t = x := by
  obtain ⟨-, hfmt, hw, -⟩ := intFmt_facts h
  have hdouble := two_pow_double (show 1 ≤ fmtWidth t by omega)
  have hself : x % 2 ^ fmtWidth t = x := Nat.mod_eq_of_lt hx
  have hmod : (x : Int) % 2 ^ fmtWidth t = x := by exact_mod_cast hself
  rw [elVal, hfmt, intLow, intHigh]
  dsimp only
  rw [intValue, hself]
  cases isSigned t with
  | false =>
    have hlt : (x : Int) < 2 ^ fmtWidth t := by exact_mod_cast hx
    simp only [Bool.false_eq_true, if_false]
    exact ⟨by omega, by omega, hmod⟩
  | true =>
    have hlt : (x : Int) < 2 ^ fmtWidth t := by exact_mod_cast hx
    simp only [if_true, signedOf, hself, if_neg (show fmtWidth t ≠ 0 by omega)]
    split
    · next hlow =>
      have : (x : Int) < 2 ^ (fmtWidth t - 1) := by exact_mod_cast hlow
      exact ⟨by omega, by omega, hmod⟩
    · next hhigh =>
      have : (2 : Int) ^ (fmtWidth t - 1) ≤ x := by exact_mod_cast Nat.le_of_not_lt hhigh
      exact ⟨by omega, by omega, by rw [Int.sub_emod_right, hmod]⟩

/-- A pattern is the wrap of its value. -/
theorem wrapTo_elVal (h : (intFmt t).isSome = true) {x : Nat} (hx : x < 2 ^ fmtWidth t) : wrapTo (fmtWidth t) (elVal t x) = x := by
  obtain ⟨-, -, hmod⟩ := elVal_facts h hx
  rw [← wrapTo_cast] at hmod
  exact_mod_cast hmod

/-- A value of a tag's range is that of the pattern it wraps to. -/
theorem elVal_wrapTo (h : (intFmt t).isSome = true) {v : Int} (hlo : intLow t ≤ v) (hhi : v ≤ intHigh t) :
    elVal t (wrapTo (fmtWidth t) v) = v := by
  obtain ⟨hlo', hhi', hmod⟩ := elVal_facts h (wrapTo_lt (fmtWidth t) v)
  obtain ⟨hrange, -⟩ := intRange h
  have hsame : v % 2 ^ fmtWidth t = elVal t (wrapTo (fmtWidth t) v) % 2 ^ fmtWidth t := by rw [hmod, wrapTo_cast]
  have hdvd : 2 ^ fmtWidth t ∣ elVal t (wrapTo (fmtWidth t) v) - v := Int.ModEq.dvd hsame
  have hsmall : |elVal t (wrapTo (fmtWidth t) v) - v| < 2 ^ fmtWidth t := abs_sub_lt_iff.2 ⟨by omega, by omega⟩
  exact Int.sub_eq_zero.1 (Int.eq_zero_of_abs_lt_dvd hdvd hsmall)

/-- A choice between the values of two patterns is the value of the pattern that it wraps to. -/
theorem elVal_wrapTo_choice (h : (intFmt t).isSome = true) {x y : Nat} (hx : x < 2 ^ fmtWidth t) (hy : y < 2 ^ fmtWidth t)
    {v : Int} (hv : v = elVal t x ∨ v = elVal t y) : elVal t (wrapTo (fmtWidth t) v) = v := by
  obtain ⟨hxlo, hxhi, -⟩ := elVal_facts h hx
  obtain ⟨hylo, hyhi, -⟩ := elVal_facts h hy
  exact elVal_wrapTo h (by omega) (by omega)

/-- Wrapping on the way does not change a wrapped sum or product. -/
theorem elVal_wrapTo_mod (h : (intFmt t).isSome = true) (v : Int) :
    elVal t (wrapTo (fmtWidth t) v) ≡ v [ZMOD 2 ^ fmtWidth t] := by
  obtain ⟨-, -, hmod⟩ := elVal_facts h (wrapTo_lt (fmtWidth t) v)
  rw [Int.ModEq, hmod, wrapTo_cast]

/-- The value of the pattern 0 is 0, and that of the pattern 1 is 1. -/
theorem elVal_small (h : (intFmt t).isSome = true) : elVal t 0 = 0 ∧ elVal t 1 = 1 := by
  revert t
  decide

/-- The steps that wrap an operation on values. -/
theorem folds_wrapped (h : (intFmt t).isSome = true) {f : Nat → Nat → FRes} {e : Nat} {F : Int → Int → Int}
    (hf : ∀ x y, f x y = ⟨wrapTo (fmtWidth t) (F (elVal t x) (elVal t y)), 0⟩)
    (hassoc : ∀ {x y z}, x < 2 ^ fmtWidth t → y < 2 ^ fmtWidth t → z < 2 ^ fmtWidth t →
      F (elVal t (wrapTo (fmtWidth t) (F (elVal t x) (elVal t y)))) (elVal t z) ≡
      F (elVal t x) (elVal t (wrapTo (fmtWidth t) (F (elVal t y) (elVal t z)))) [ZMOD 2 ^ fmtWidth t])
    (he : e < 2 ^ fmtWidth t) (hleft : ∀ {x}, x < 2 ^ fmtWidth t → F (elVal t e) (elVal t x) = elVal t x) :
    Folds f e (· < 2 ^ fmtWidth t) where
  silent x y := by rw [hf]
  closed _ _ := by rw [hf]; exact wrapTo_lt _ _
  assoc hx hy hz := by
    simp only [hf]
    exact (wrapTo_eq_iff _ _ _).2 (hassoc hx hy hz)
  start := he
  left hx := by rw [hf]; exact (congrArg _ (hleft hx)).trans (wrapTo_elVal h hx)

/-- The steps that choose one of the two values, by an associative choice. -/
theorem folds_choice (h : (intFmt t).isSome = true) {f : Nat → Nat → FRes} {e : Nat} {F : Int → Int → Int}
    (hf : ∀ x y, f x y = ⟨wrapTo (fmtWidth t) (F (elVal t x) (elVal t y)), 0⟩)
    (hchoice : ∀ u v, F u v = u ∨ F u v = v) (hassoc : ∀ u v w, F (F u v) w = F u (F v w))
    (he : e < 2 ^ fmtWidth t) (hleft : ∀ {x}, x < 2 ^ fmtWidth t → F (elVal t e) (elVal t x) = elVal t x) :
    Folds f e (· < 2 ^ fmtWidth t) := by
  refine folds_wrapped h hf (fun hx hy hz => ?_) he hleft
  rw [elVal_wrapTo_choice h hx hy (hchoice _ _), elVal_wrapTo_choice h hy hz (hchoice _ _), hassoc]

/-- The identities of the minimum and of the maximum are the ends of the tag's range. -/
theorem clampTo_ends (h : (intFmt t).isSome = true) : clampTo t (2 ^ 64) = intHigh t ∧ clampTo t (-(2 ^ 64)) = intLow t := by
  obtain ⟨-, hlow, hhigh, hmax, hmin⟩ := intRange h
  rw [clampTo_eq, clampTo_eq]
  omega

end

/-- A bitwise operation folds on the patterns of any width. -/
theorem folds_bits {w e : Nat} {f : Nat → Nat → FRes} {F : Nat → Nat → Nat} (hf : ∀ x y, f x y = ⟨F x y, 0⟩)
    (hlt : ∀ {x y}, x < 2 ^ w → y < 2 ^ w → F x y < 2 ^ w) (hassoc : ∀ x y z, F (F x y) z = F x (F y z))
    (he : e < 2 ^ w) (hleft : ∀ {x}, x < 2 ^ w → F e x = x) : Folds f e (· < 2 ^ w) where
  silent x y := by rw [hf]
  closed hx hy := by rw [hf]; exact hlt hx hy
  assoc _ _ _ := by simp only [hf, hassoc]
  start := he
  left hx := by rw [hf]; exact hleft hx

section

variable {t : BitVec 5}

/-- The bitwise steps of every tag that is of no floating format. -/
theorem redStep_bitwise_folds (h : floatFmt t = none) {o : RedOp} (ho : o = .and ∨ o = .or ∨ o = .xor) :
    Folds (redStep o t) (redIdentity o t) (· < 2 ^ fmtWidth t) := by
  rcases ho with rfl | rfl | rfl
  · refine folds_bits (F := andBits) (fun x y => by rw [redStep, h]) (fun _ hy => Nat.and_lt_two_pow _ hy) Nat.and_assoc ?_ ?_
    · rw [redIdentity, h]
      exact Nat.sub_lt (Nat.two_pow_pos _) Nat.one_pos
    · intro x hx
      rw [redIdentity, h]
      dsimp only
      rw [andBits, Nat.and_comm, Nat.and_two_pow_sub_one_eq_mod, Nat.mod_eq_of_lt hx]
  · refine folds_bits (F := orBits) (fun x y => by rw [redStep, h]) Nat.or_lt_two_pow Nat.or_assoc ?_ ?_
    · rw [redIdentity, h]
      exact Nat.two_pow_pos _
    · intro x _
      rw [redIdentity, h]
      exact Nat.zero_or x
  · refine folds_bits (F := xorBits) (fun x y => by rw [redStep, h]) Nat.xor_lt_two_pow Nat.xor_assoc ?_ ?_
    · rw [redIdentity, h]
      exact Nat.two_pow_pos _
    · intro x _
      rw [redIdentity, h]
      exact Nat.zero_xor x

/-- Every step of a reduction on an integer tag. -/
theorem redStep_integer_folds (h : (intFmt t).isSome = true) (o : RedOp) :
    Folds (redStep o t) (redIdentity o t) (· < 2 ^ fmtWidth t) := by
  obtain ⟨hno, -, hw, -⟩ := intFmt_facts h
  obtain ⟨-, hlow, hhigh, -⟩ := intRange h
  obtain ⟨hzero, hone⟩ := elVal_small h
  obtain ⟨hmost, hleast⟩ := clampTo_ends h
  cases o with
  | add =>
    refine folds_wrapped h (F := (· + ·)) (fun x y => by rw [redStep, hno]) (fun {x y z} _ _ _ => ?_) ?_ ?_
    · calc _ ≡ elVal t x + elVal t y + elVal t z [ZMOD 2 ^ fmtWidth t] := (elVal_wrapTo_mod h _).add_right _
        _ = elVal t x + (elVal t y + elVal t z) := Int.add_assoc ..
        _ ≡ _ [ZMOD 2 ^ fmtWidth t] := (elVal_wrapTo_mod h _).symm.add_left _
    · rw [redIdentity, hno]
      exact Nat.two_pow_pos _
    · intro x _
      rw [redIdentity, hno]
      exact (congrArg (· + elVal t x) hzero).trans (Int.zero_add _)
  | mul =>
    refine folds_wrapped h (F := (· * ·)) (fun x y => by rw [redStep, hno]) (fun {x y z} _ _ _ => ?_) ?_ ?_
    · calc _ ≡ elVal t x * elVal t y * elVal t z [ZMOD 2 ^ fmtWidth t] := (elVal_wrapTo_mod h _).mul_right _
        _ = elVal t x * (elVal t y * elVal t z) := Int.mul_assoc ..
        _ ≡ _ [ZMOD 2 ^ fmtWidth t] := (elVal_wrapTo_mod h _).symm.mul_left _
    · rw [redIdentity, hno]
      exact Nat.one_lt_two_pow (by omega)
    · intro x _
      rw [redIdentity, hno]
      exact (congrArg (· * elVal t x) hone).trans (Int.one_mul _)
  | min =>
    refine folds_choice h (F := min) (fun x y => by rw [redStep, hno]) min_choice min_assoc ?_ (fun {x} hx => ?_)
    · rw [redIdentity, hno]
      exact wrapTo_lt _ _
    · rw [redIdentity, hno]
      dsimp only
      obtain ⟨-, hle, -⟩ := elVal_facts h hx
      rw [hmost, elVal_wrapTo h (by omega) le_rfl]
      exact min_eq_right hle
  | max =>
    refine folds_choice h (F := max) (fun x y => by rw [redStep, hno]) max_choice max_assoc ?_ (fun {x} hx => ?_)
    · rw [redIdentity, hno]
      exact wrapTo_lt _ _
    · rw [redIdentity, hno]
      dsimp only
      obtain ⟨hge, -⟩ := elVal_facts h hx
      rw [hleast, elVal_wrapTo h le_rfl (by omega)]
      exact max_eq_right hge
  | and => exact redStep_bitwise_folds hno (.inl rfl)
  | or => exact redStep_bitwise_folds hno (.inr (.inl rfl))
  | xor => exact redStep_bitwise_folds hno (.inr (.inr rfl))

end

theorem reductionTree_holds : Sys2Proof.Claims.reductionTree := by
  intro o t cs htag hlen hcs
  have hfolds : Folds (redStep o t) (redIdentity o t) (· < 2 ^ fmtWidth t) := by
    rcases htag with hint | ⟨rfl, hbitwise⟩
    · exact redStep_integer_folds hint o
    · exact redStep_bitwise_folds rfl hbitwise
  exact treeFrom_eq_foldl hfolds 7 cs (hlen.trans (by decide)) hcs

/-- Settles O17: the cross-lane instructions write what their operations give for each sub-group, and the tree of an
associative step with an identity is the fold. -/
theorem reductions : Obligations.Reductions := by
  unfold Obligations.Reductions
  exact ⟨crossReductions_hold, reductionTree_holds⟩

/-! ### Special values of floating operations -/

theorem ieeeFits_f64 : IeeeFits fmtF64 := by constructor <;> decide

theorem ieeeFits_f16 : IeeeFits fmtF16 := by constructor <;> decide

/-- The four formats of the floating instructions are of the IEEE kind (R83). -/
theorem ieeeFits_of_mem {f : FloatFmt} (h : f ∈ [fmtF64, fmtF32, fmtF16, fmtBf16]) : IeeeFits f := by
  simp only [List.mem_cons, List.not_mem_nil, or_false] at h
  rcases h with rfl | rfl | rfl | rfl
  · exact ieeeFits_f64
  · exact ieeeFits_f32
  · exact ieeeFits_f16
  · exact ieeeFits_bf16

section

variable {f : FloatFmt}

/-- A NaN operand of a sum gives the canonical NaN, and NV when one of the operands is signalling (R88). -/
theorem fadd_nan (f : FloatFmt) (q : Bool) (x : FVal) :
    fadd f (.nan q) x = ⟨canonNan f, if q || x.isSnan then flNV else 0⟩ ∧
    fadd f x (.nan q) = ⟨canonNan f, if q || x.isSnan then flNV else 0⟩ := by
  refine ⟨rfl, ?_⟩
  rw [Bool.or_comm]
  cases x <;> rfl

theorem fadd_inf (f : FloatFmt) (n : Bool) : fadd f (.inf n) (.inf (!n)) = ⟨canonNan f, flNV⟩ ∧
    fadd f (.inf n) (.inf n) = ⟨infPattern f n, 0⟩ := by
  cases n <;> exact ⟨rfl, rfl⟩

/-- A product that is NaN is delivered as the canonical NaN with the flags of the product (R88, R127). -/
theorem fmul_of_nan (h : IeeeFits f) {x y : FVal} {fl : BitVec 8} (hp : fprod x y = (.nan false, fl)) :
    fmul f x y = ⟨canonNan f, fl⟩ := by
  rw [fmul, hp]
  simp [fput, h.nan, flagIf]

theorem fmul_of_inf (h : IeeeFits f) {x y : FVal} {n : Bool} (hp : fprod x y = (.inf n, 0)) :
    fmul f x y = ⟨infPattern f n, 0⟩ := by
  rw [fmul, hp]
  simp [fput, h.ieee, flagIf]

theorem fmul_nan (h : IeeeFits f) (q : Bool) (x : FVal) :
    fmul f (.nan q) x = ⟨canonNan f, if q || x.isSnan then flNV else 0⟩ ∧
    fmul f x (.nan q) = ⟨canonNan f, if q || x.isSnan then flNV else 0⟩ := by
  refine ⟨fmul_of_nan h rfl, fmul_of_nan h ?_⟩
  rw [Bool.or_comm]
  cases x <;> rfl

/-- Infinity times zero is invalid, also within a fused multiply-add of a NaN (R127). -/
theorem fmul_inf_zero (h : IeeeFits f) (n k : Bool) :
    fmul f (.inf n) (.fin k 0 0) = ⟨canonNan f, flNV⟩ ∧ fmul f (.fin k 0 0) (.inf n) = ⟨canonNan f, flNV⟩ ∧
    ffma f (.inf n) (.fin k 0 0) (.nan false) = ⟨canonNan f, flNV⟩ := by
  refine ⟨fmul_of_nan h rfl, fmul_of_nan h rfl, ?_⟩
  simp [ffma, fprod, (fadd_nan f false (.nan false)).1, FVal.isSnan]

theorem fmul_inf_fin (h : IeeeFits f) (n k : Bool) {m : Nat} (hm : m ≠ 0) (e : Int) :
    fmul f (.inf n) (.fin k m e) = ⟨infPattern f (n != k), 0⟩ :=
  fmul_of_inf h (by simp [fprod, hm])

/-- A significand that the spacing of the format does not exceed is brought to it without loss (R92). -/
theorem froundMode_of_ge {m : Nat} {e q : Int} (hm : m ≠ 0) (hq : spacing f (e + Nat.log2 m) = q) (hge : q ≤ e) {mode : Nat}
    {neg : Bool} : froundMode f mode neg m e = finishRound f mode neg (m * 2 ^ (e - q).toNat) q false := by
  rw [froundMode, if_neg hm, hq]
  exact if_pos hge

/-- 2 at the exponent 0 and 1 at the exponent 1 have one spacing, and round alike (R92). -/
theorem fround_two (h : IeeeFits f) : fround f false 1 1 = fround f false 2 0 := by
  have hm := h.fraction
  have hspacing : spacing f 1 = 1 - f.m := by
    unfold spacing
    omega
  have hone : spacing f (1 + (Nat.log2 1 : Nat)) = 1 - f.m := by
    rw [show (1 : Int) + (Nat.log2 1 : Nat) = 1 by decide, hspacing]
  have htwo : spacing f (0 + (Nat.log2 2 : Nat)) = 1 - f.m := by
    rw [show (0 : Int) + (Nat.log2 2 : Nat) = 1 by decide, hspacing]
  have hshift : 1 * 2 ^ (1 - (1 - (f.m : Int))).toNat = 2 * 2 ^ (0 - (1 - (f.m : Int))).toNat := by
    rw [show (1 - (1 - (f.m : Int))).toNat = (0 - (1 - (f.m : Int))).toNat + 1 by omega, Nat.pow_succ]
    omega
  rw [fround, froundMode_of_ge Nat.one_ne_zero hone (by omega), hshift, fround, froundMode_of_ge (by decide) htwo (by omega)]

/-- A NaN gives the canonical NaN from every special function (R88, R129). -/
theorem specialAt_nan (fn : SpecialFn) (f : FloatFmt) (q : Bool) :
    specialAt fn f (.nan q) = ⟨canonNan f, if q then flNV else 0⟩ := rfl

/-- The special functions at the zeros (R129). -/
theorem specialAt_zero (f : FloatFmt) (n : Bool) (e : Int) :
    specialAt .rcp f (.fin n 0 e) = ⟨infPattern f n, flDZ⟩ ∧ specialAt .rsq f (.fin n 0 e) = ⟨infPattern f n, flDZ⟩ ∧
    specialAt .sqrt f (.fin n 0 e) = ⟨signBit f n, 0⟩ ∧ specialAt .lg2 f (.fin n 0 e) = ⟨infPattern f true, flDZ⟩ ∧
    specialAt .sin f (.fin n 0 e) = ⟨signBit f n, 0⟩ ∧ specialAt .ex2 f (.fin n 0 e) = fround f false 1 0 ∧
    specialAt .cos f (.fin n 0 e) = fround f false 1 0 := by
  simp [specialAt]

/-- The special functions at the infinities (R129). -/
theorem specialAt_inf (f : FloatFmt) (n : Bool) :
    specialAt .rcp f (.inf n) = ⟨signBit f n, 0⟩ ∧ specialAt .sin f (.inf n) = ⟨canonNan f, flNV⟩ ∧
    specialAt .cos f (.inf n) = ⟨canonNan f, flNV⟩ ∧
    specialAt .ex2 f (.inf n) = ⟨if n then 0 else infPattern f false, 0⟩ := by
  refine ⟨rfl, rfl, rfl, ?_⟩
  cases n <;> rfl

theorem specialAt_inf_pos (f : FloatFmt) : specialAt .rsq f (.inf false) = ⟨0, 0⟩ ∧
    specialAt .sqrt f (.inf false) = ⟨infPattern f false, 0⟩ ∧ specialAt .lg2 f (.inf false) = ⟨infPattern f false, 0⟩ :=
  ⟨rfl, rfl, rfl⟩

theorem specialAt_lg2_one (f : FloatFmt) : specialAt .lg2 f (.fin false 1 0) = ⟨0, 0⟩ := by
  simp [specialAt, froundInt, signBit, show Nat.log2 1 = 0 by decide]

theorem specialAt_ex2_one (h : IeeeFits f) : specialAt .ex2 f (.fin false 1 0) = fround f false 2 0 :=
  (show specialAt .ex2 f (.fin false 1 0) = fround f false 1 1 from rfl).trans (fround_two h)

/-- Roots and logarithms of negative infinity, and of negative numbers, are invalid (R129). -/
theorem specialAt_inf_neg (f : FloatFmt) : ∀ fn ∈ [SpecialFn.rsq, .sqrt, .lg2],
    specialAt fn f (.inf true) = ⟨canonNan f, flNV⟩ := by
  simp only [List.forall_mem_cons]
  exact ⟨rfl, rfl, rfl, fun _ h => absurd h List.not_mem_nil⟩

theorem specialAt_negative (f : FloatFmt) {m : Nat} (hm : m ≠ 0) (e : Int) : ∀ fn ∈ [SpecialFn.rsq, .sqrt, .lg2],
    specialAt fn f (.fin true m e) = ⟨canonNan f, flNV⟩ := by
  simp [specialAt, hm]

end

/-! ### Rounding a value that the format holds -/

/-- The parts of a pattern: its sign, its exponent field and its fraction (R83). -/
def patSign (f : FloatFmt) (b : Nat) : Bool := decide (b / 2 ^ (f.width - 1) % 2 = 1)
def patExp (f : FloatFmt) (b : Nat) : Nat := b / 2 ^ f.m % 2 ^ (f.width - 1 - f.m)
def patFrac (f : FloatFmt) (b : Nat) : Nat := b % 2 ^ f.m

theorem fdecode_eq (f : FloatFmt) (b : Nat) : fdecode f b =
    if f.ieee && decide (patExp f b = 2 ^ (f.width - 1 - f.m) - 1) then
      if patFrac f b = 0 then .inf (patSign f b) else .nan (decide (patFrac f b < 2 ^ (f.m - 1)))
    else if !f.ieee && f.hasNan && decide (patExp f b = 2 ^ (f.width - 1 - f.m) - 1) && decide (patFrac f b = 2 ^ f.m - 1) then
      .nan false
    else if patExp f b = 0 then .fin (patSign f b) (patFrac f b) (1 - (f.bias : Int) - f.m)
    else .fin (patSign f b) (2 ^ f.m + patFrac f b) ((patExp f b : Int) - f.bias - f.m) := rfl

/-- A format whose fields fit its width, and whose greatest finite pattern is the one below infinity and the NaNs, or below the
one NaN, or the greatest of all (R83-R86). -/
structure Encodes (f : FloatFmt) : Prop where
  width : f.m + 2 ≤ f.width
  exponents : 2 ≤ f.emax + f.bias
  ieeeTop : f.ieee = true → f.emax + f.bias + 1 = 2 ^ (f.width - 1 - f.m) - 1 ∧ f.maxM + 1 = 2 ^ (f.m + 1)
  otherTop : f.ieee = false → f.emax + f.bias = 2 ^ (f.width - 1 - f.m) - 1 ∧
    f.maxM + 1 + (if f.hasNan then 1 else 0) = 2 ^ (f.m + 1)

theorem encodes_of_floatFmt {t : BitVec 5} {f : FloatFmt} (h : floatFmt t = some f) : Encodes f := by
  have hall : ∀ t : BitVec 5, ∀ f ∈ floatFmt t, f.m + 2 ≤ f.width ∧ 2 ≤ f.emax + f.bias ∧
      (f.ieee = true → f.emax + f.bias + 1 = 2 ^ (f.width - 1 - f.m) - 1 ∧ f.maxM + 1 = 2 ^ (f.m + 1)) ∧
      (f.ieee = false → f.emax + f.bias = 2 ^ (f.width - 1 - f.m) - 1 ∧
        f.maxM + 1 + (if f.hasNan then 1 else 0) = 2 ^ (f.m + 1)) := by decide
  obtain ⟨hwidth, hexponents, hieee, hother⟩ := hall t f h
  exact ⟨hwidth, hexponents, hieee, hother⟩

section

variable {f : FloatFmt} {b : Nat}

theorem patFrac_lt (f : FloatFmt) (b : Nat) : patFrac f b < 2 ^ f.m := Nat.mod_lt _ (Nat.two_pow_pos _)

theorem patExp_lt (f : FloatFmt) (b : Nat) : patExp f b < 2 ^ (f.width - 1 - f.m) := Nat.mod_lt _ (Nat.two_pow_pos _)

/-- Below the sign bit lie the exponent field and the fraction. -/
theorem two_pow_magnitude (hw : f.m + 2 ≤ f.width) : 2 ^ (f.width - 1) = 2 ^ f.m * 2 ^ (f.width - 1 - f.m) := by
  rw [← Nat.pow_add]
  congr 1
  omega

/-- The bits below the sign are the exponent field above the fraction. -/
theorem magnitude_eq (hw : f.m + 2 ≤ f.width) (b : Nat) : b % 2 ^ (f.width - 1) = patExp f b * 2 ^ f.m + patFrac f b := by
  rw [two_pow_magnitude hw, Nat.mod_mul, Nat.add_comm, Nat.mul_comm]
  rfl

/-- A pattern is made of its parts. -/
theorem pattern_eq (hw : f.m + 2 ≤ f.width) (hb : b < 2 ^ f.width) :
    signBit f (patSign f b) + (patExp f b * 2 ^ f.m + patFrac f b) = b := by
  have hdouble : 2 ^ f.width = 2 ^ (f.width - 1) * 2 := by
    rw [← Nat.pow_succ]
    congr 1
    omega
  have htop : b / 2 ^ (f.width - 1) < 2 := by
    rw [Nat.div_lt_iff_lt_mul (Nat.two_pow_pos _), Nat.mul_comm, ← hdouble]
    exact hb
  rw [← magnitude_eq hw]
  have hdiv := Nat.div_add_mod b (2 ^ (f.width - 1))
  unfold signBit patSign
  rcases Nat.le_one_iff_eq_zero_or_eq_one.1 (Nat.le_of_lt_succ htop) with h | h <;>
    simp only [h] at hdiv ⊢ <;> simpa using hdiv

/-- A pattern of a finite value with a nonzero exponent field lies at or below the greatest finite pattern (R85, R86). -/
def BelowTop (f : FloatFmt) (b : Nat) : Prop :=
  patExp f b ≤ f.emax + f.bias ∧ (patExp f b = f.emax + f.bias → 2 ^ f.m + patFrac f b ≤ f.maxM)

/-- What a pattern is whose value is finite: subnormal, or normal and not above the greatest (R84, R85). -/
theorem fdecode_fin (h : Encodes f) {neg : Bool} {m : Nat} {e : Int} (hd : fdecode f b = .fin neg m e) :
    neg = patSign f b ∧
    ((patExp f b = 0 ∧ m = patFrac f b ∧ e = 1 - (f.bias : Int) - f.m) ∨
      (patExp f b ≠ 0 ∧ m = 2 ^ f.m + patFrac f b ∧ e = (patExp f b : Int) - f.bias - f.m ∧ BelowTop f b)) := by
  have hfrac := patFrac_lt f b
  have hexp := patExp_lt f b
  have hpow : 2 ^ (f.m + 1) = 2 * 2 ^ f.m := Nat.pow_succ'
  rw [fdecode_eq] at hd
  split at hd
  · split at hd <;> cases hd
  · next hnotInf =>
    split at hd
    · cases hd
    · next hnotNan =>
      split at hd
      · next hzero =>
        cases hd
        exact ⟨rfl, .inl ⟨hzero, rfl, rfl⟩⟩
      · next hnormal =>
        cases hd
        refine ⟨rfl, .inr ⟨hnormal, rfl, rfl, ?_⟩⟩
        cases hi : f.ieee with
        | true =>
          obtain ⟨htop, hmax⟩ := h.ieeeTop hi
          simp only [hi, Bool.true_and, decide_eq_true_eq] at hnotInf
          exact ⟨by omega, fun _ => by omega⟩
        | false =>
          obtain ⟨htop, hmax⟩ := h.otherTop hi
          refine ⟨by omega, fun heq => ?_⟩
          cases hn : f.hasNan with
          | false =>
            simp only [hn, Bool.false_eq_true, if_false] at hmax
            omega
          | true =>
            simp only [hn, if_true] at hmax
            simp only [hi, hn, Bool.not_false, Bool.true_and, Bool.and_eq_true, decide_eq_true_eq, not_and] at hnotNan
            have := hnotNan (by omega)
            omega

/-- A value whose significand stands at the spacing of the format is not shifted by rounding (R92). -/
theorem froundMode_at_spacing {m : Nat} {e : Int} (hm : m ≠ 0) (hs : spacing f (e + Nat.log2 m) = e) (mode : Nat) (neg : Bool) :
    froundMode f mode neg m e = finishRound f mode neg m e false := by
  rw [froundMode_of_ge hm hs le_rfl, Int.sub_self, Int.toNat_zero, Nat.pow_zero, Nat.mul_one]

/-- A significand without loss that does not overflow is packed, and no flag is raised (R92). -/
theorem finishRound_exact {n : Nat} {q : Int}
    (h : ¬ (q ≥ (f.emax : Int) - f.m ∧ n * 2 ^ (q - ((f.emax : Int) - f.m)).toNat > f.maxM)) (mode : Nat) (neg : Bool) :
    finishRound f mode neg n q false = ⟨packFinite f neg n q, 0⟩ := by
  unfold finishRound
  exact (if_neg h).trans (by simp [flagIf])

theorem froundMode_subnormal (h : Encodes f) {m : Nat} (hm : m < 2 ^ f.m) (mode : Nat) (neg : Bool) :
    froundMode f mode neg m (1 - (f.bias : Int) - f.m) = ⟨signBit f neg + m, 0⟩ := by
  have hexp := h.exponents
  by_cases h0 : m = 0
  · subst h0
    rfl
  · have hlog : Nat.log2 m < f.m := (Nat.log2_lt h0).2 hm
    have hspacing : spacing f (1 - (f.bias : Int) - f.m + Nat.log2 m) = 1 - (f.bias : Int) - f.m := by
      unfold spacing
      omega
    rw [froundMode_at_spacing h0 hspacing, finishRound_exact (by omega), packFinite, if_pos hm]

theorem froundMode_normal {x r : Nat} (hx : x ≠ 0) (hr : r < 2 ^ f.m) (htop : x ≤ f.emax + f.bias)
    (hmax : x = f.emax + f.bias → 2 ^ f.m + r ≤ f.maxM) (mode : Nat) (neg : Bool) :
    froundMode f mode neg (2 ^ f.m + r) ((x : Int) - f.bias - f.m) = ⟨signBit f neg + (x * 2 ^ f.m + r), 0⟩ := by
  have h0 : 2 ^ f.m + r ≠ 0 := by have := Nat.two_pow_pos f.m; omega
  have hlog : Nat.log2 (2 ^ f.m + r) = f.m := (Nat.log2_eq_iff h0).2 ⟨by omega, by rw [Nat.pow_succ]; omega⟩
  have hspacing : spacing f ((x : Int) - f.bias - f.m + Nat.log2 (2 ^ f.m + r)) = (x : Int) - f.bias - f.m := by
    rw [hlog]
    unfold spacing
    omega
  have hfits : ¬ ((x : Int) - f.bias - f.m ≥ (f.emax : Int) - f.m ∧
      (2 ^ f.m + r) * 2 ^ ((x : Int) - f.bias - f.m - ((f.emax : Int) - f.m)).toNat > f.maxM) := by
    rintro ⟨hge, hgt⟩
    rw [show ((x : Int) - f.bias - f.m - ((f.emax : Int) - f.m)).toNat = 0 by omega, Nat.pow_zero, Nat.mul_one] at hgt
    exact Nat.not_lt.2 (hmax (by omega)) hgt
  have hfield : ((x : Int) - f.bias - f.m + f.m + f.bias).toNat = x := by omega
  rw [froundMode_at_spacing h0 hspacing, finishRound_exact hfits, packFinite, if_neg (by omega),
    if_neg (by rw [Nat.pow_succ]; omega), hfield, Nat.add_sub_cancel_left]

end

theorem floatRoundsExact_holds : Sys2Proof.Claims.floatRoundsExact := by
  intro t f mode b neg m e ht hb hd
  have henc := encodes_of_floatFmt ht
  have hwhole := pattern_eq henc.width hb
  obtain ⟨rfl, ⟨hzero, rfl, rfl⟩ | ⟨hnormal, rfl, rfl, htop, hmax⟩⟩ := fdecode_fin henc hd
  · rw [hzero, Nat.zero_mul, Nat.zero_add] at hwhole
    rw [froundMode_subnormal henc (patFrac_lt f b), hwhole]
  · rw [froundMode_normal hnormal (patFrac_lt f b) htop hmax, hwhole]

/-! ### Minima and maxima of zeros -/

section

variable {f : FloatFmt}

/-- A zero is a sign bit and nothing else (R84). -/
theorem fdecode_signBit (h : IeeeFits f) (n : Bool) : fdecode f (signBit f n) = .fin n 0 (1 - (f.bias : Int) - f.m) := by
  have hw := h.width
  have hsplit := two_pow_magnitude hw
  have hones : 2 ≤ 2 ^ (f.width - 1 - f.m) := Nat.le_self_pow (by omega) 2
  have hsign : patSign f (signBit f n) = n := by
    cases n <;> simp [patSign, signBit]
  have hfrac : patFrac f (signBit f n) = 0 := by
    cases n
    · exact Nat.zero_mod _
    · simp [patFrac, signBit, hsplit]
  have hexp : patExp f (signBit f n) = 0 := by
    cases n
    · simp [patExp, signBit]
    · simp [patExp, signBit, hsplit]
  rw [fdecode_eq, hsign, hfrac, hexp, h.ieee, decide_eq_false (by omega)]
  simp

/-- −0 and +0 compare equal, and their minimum and maximum follow the sign (R127). -/
theorem fminmax_zeros (h : IeeeFits f) :
    fminmax f false (signBit f true) (signBit f false) = ⟨signBit f true, 0⟩ ∧
    fminmax f true (signBit f true) (signBit f false) = ⟨signBit f false, 0⟩ := by
  have hcmp : ∀ e : Int, fcmp (.fin true 0 e) (.fin false 0 e) = 0 := fun e => by simp [fcmp, dyadicAdd, smant]
  constructor <;>
    simp [fminmax, fdecode_signBit h, hcmp, FVal.isNan, FVal.neg]

end

theorem floatSpecialValues_hold : Sys2Proof.Claims.floatSpecialValues := by
  intro f x q n k m e hmem nan quiet invalid zero one
  have h := ieeeFits_of_mem hmem
  obtain ⟨hinfZero, hzeroInf, hfused⟩ := fmul_inf_zero h n k
  obtain ⟨hadd, hadd'⟩ := fadd_nan f q x
  obtain ⟨hmul, hmul'⟩ := fmul_nan h q x
  obtain ⟨hopposite, hsame⟩ := fadd_inf f n
  obtain ⟨hrcp, hrsq, hsqrt, hlg2, hsin, hex2, hcos⟩ := specialAt_zero f n 0
  obtain ⟨hrcpInf, hsinInf, hcosInf, hex2Inf⟩ := specialAt_inf f n
  obtain ⟨hrsqInf, hsqrtInf, hlg2Inf⟩ := specialAt_inf_pos f
  obtain ⟨hmin, hmax⟩ := fminmax_zeros h
  exact ⟨hadd, hadd', hmul, hmul', hopposite, hsame, hinfZero, hzeroInf, hfused, fun hm => fmul_inf_fin h n k hm e,
    fun fn => specialAt_nan fn f q, hrcp, hrsq, hsqrt, hlg2, hsin, hex2, hcos, hrcpInf, hsinInf, hcosInf, hex2Inf,
    fun fn hfn => ⟨specialAt_inf_neg f fn hfn, fun hm => specialAt_negative f hm e fn hfn⟩, hrsqInf, hsqrtInf, hlg2Inf,
    specialAt_ex2_one h, specialAt_lg2_one f, hmin, hmax⟩

/-- Settles O16: the special values case by case, and a finite pattern rebuilt from its sign, exponent and fraction. -/
theorem floatValues : Obligations.FloatValues := by
  unfold Obligations.FloatValues
  exact ⟨floatSpecialValues_hold, floatRoundsExact_holds⟩

end Sys2Proof.Proofs

/-! PROOFS of the family of lane arithmetic: bitwise instructions, counts, rotations, shifts and bit fields; compares, selections,
index registers and moves. First the bits of what the operations on patterns give. -/

namespace Sys2Proof.Proofs

open Sys2Proof.Machine Sys2Proof.Claims Sys2Proof.Laws Sys2Proof.Laws.State

/-! ### Bits of what the bitwise, rotating, shifting and field operations give -/

theorem testBit_notBits {w k : Nat} (x : Nat) (hk : k < w) : (notBits w x).testBit k = !x.testBit k := by
  have hsucc := Nat.testBit_two_pow_sub_succ (Nat.mod_lt x (Nat.two_pow_pos w)) k
  rw [notBits, Nat.sub_sub, Nat.add_comm 1, hsucc, Nat.testBit_mod_two_pow]
  simp [hk]

theorem revBits_lt (n x : Nat) : revBits n x < 2 ^ n := by
  induction n generalizing x with
  | zero => exact Nat.one_pos
  | succ n ih =>
    have hbit : x % 2 * 2 ^ n ≤ 1 * 2 ^ n := Nat.mul_le_mul_right _ (by omega)
    have := ih (x / 2)
    rw [revBits, Nat.pow_succ]
    omega

theorem testBit_revBits (n x : Nat) {k : Nat} (hk : k < n) : (revBits n x).testBit k = x.testBit (n - 1 - k) := by
  induction n generalizing x with
  | zero => omega
  | succ n ih =>
    rw [revBits, Nat.mul_comm, Nat.testBit_two_pow_mul_add _ (revBits_lt n _)]
    split
    · next hlow =>
      rw [ih _ hlow, Nat.testBit_div_two]
      congr 1
      omega
    · next htop =>
      obtain rfl : k = n := by omega
      simp [Nat.testBit_zero]

/-- A rotation's two parts do not overlap: the low bits moved up, and the high bits below them (R119). -/
theorem rolBits_eq (w x n : Nat) :
    rolBits w x n = 2 ^ (n % w) * (x % 2 ^ (w - n % w)) + x / 2 ^ (w - n % w) := by
  rcases Nat.eq_zero_or_pos w with rfl | hw
  · simp [rolBits, Nat.mod_one]
  · have hsplit : 2 ^ w = 2 ^ (n % w) * 2 ^ (w - n % w) := by
      rw [← Nat.pow_add, Nat.add_sub_cancel' (Nat.mod_lt n hw).le]
    rw [rolBits, Nat.mul_comm x, hsplit, Nat.mul_mod_mul_left]

theorem testBit_rolBits {w x k : Nat} (n : Nat) (hx : x < 2 ^ w) (hk : k < w) :
    (rolBits w x n).testBit k = x.testBit ((k + (w - n % w)) % w) := by
  rw [rolBits_eq]
  have hr : n % w < w := Nat.mod_lt n (Nat.zero_lt_of_lt hk)
  generalize n % w = r at hr ⊢
  have hhigh : x / 2 ^ (w - r) < 2 ^ r := by
    rw [Nat.div_lt_iff_lt_mul (Nat.two_pow_pos _), ← Nat.pow_add, Nat.add_sub_cancel' hr.le]
    exact hx
  rw [Nat.testBit_two_pow_mul_add _ hhigh]
  split
  · next hlow =>
    have hin : k + (w - r) < w := by omega
    rw [Nat.testBit_div_two_pow, Nat.mod_eq_of_lt hin]
  · next htop =>
    have hwrap : (k + (w - r)) % w = k - r := by
      rw [show k + (w - r) = k - r + w by omega, Nat.add_mod_right, Nat.mod_eq_of_lt (by omega)]
    rw [Nat.testBit_mod_two_pow, hwrap, decide_eq_true (show k - r < w - r by omega), Bool.true_and]

theorem clzBits_le (w x : Nat) : clzBits w x ≤ w := by
  unfold clzBits
  split <;> omega

/-- The leading zeros of a pattern bound it from both sides (R118). -/
theorem clzBits_bounds {w x : Nat} (hx : x < 2 ^ w) :
    x < 2 ^ (w - clzBits w x) ∧ (clzBits w x < w → 2 ^ (w - 1 - clzBits w x) ≤ x) := by
  unfold clzBits
  split
  · next hzero => simp [hzero]
  · next hpos =>
    have hlog : Nat.log2 x < w := (Nat.log2_lt hpos).2 hx
    rw [show w - (w - 1 - Nat.log2 x) = Nat.log2 x + 1 by omega,
      show w - 1 - (w - 1 - Nat.log2 x) = Nat.log2 x by omega]
    exact ⟨Nat.lt_log2_self, fun _ => Nat.log2_self_le hpos⟩

/-- A left shift is a product, wrapped (R119). -/
theorem shlBits_emod (w x n : Nat) : (shlBits w x n : Int) % 2 ^ w = (x : Int) * 2 ^ n % 2 ^ w := by
  unfold shlBits
  split
  · next hall =>
    have hdvd : (2 : Int) ^ w ∣ (x : Int) * 2 ^ n := Dvd.dvd.mul_left (pow_dvd_pow 2 hall) _
    rw [Int.emod_eq_zero_of_dvd hdvd]
    rfl
  · push_cast
    exact Int.emod_emod_of_dvd _ (dvd_refl _)

/-- A logical right shift is a quotient (R119). -/
theorem shrBits_eq {w x : Nat} (n : Nat) (hx : x < 2 ^ w) : shrBits w x n = x / 2 ^ n := by
  unfold shrBits
  split
  · next hall => exact (Nat.div_eq_of_lt (hx.trans_le (Nat.pow_le_pow_right Nat.two_pos hall))).symm
  · rfl

/-- A value of w bits, two's complement, lies within 2^w of 0 (R81). -/
theorem signedOf_bounds (w n : Nat) : -2 ^ w ≤ signedOf w n ∧ signedOf w n < 2 ^ w := by
  have hlt : ((n % 2 ^ w : Nat) : Int) < 2 ^ w := by exact_mod_cast Nat.mod_lt n (Nat.two_pow_pos w)
  have hpos : (0 : Int) < 2 ^ w := by positivity
  unfold signedOf
  dsimp only
  split
  · omega
  · split <;> omega

/-- The quotient by a power of two that is no smaller is 0, or -1 below 0. -/
theorem ediv_of_neg_le_of_lt {s d : Int} (hlo : -d ≤ s) (hhi : s < d) : s / d = if s < 0 then -1 else 0 := by
  split
  · next hneg =>
    have hzero : (s + d) / d = 0 := Int.ediv_eq_zero_of_lt (by omega) (by omega)
    rw [Int.add_ediv_of_dvd_right (dvd_refl d), Int.ediv_self (by omega)] at hzero
    omega
  · exact Int.ediv_eq_zero_of_lt (by omega) hhi

/-- An arithmetic right shift by the width or more leaves copies of the sign, as the quotient does (R119). -/
theorem signedOf_ediv_min (w x n : Nat) : signedOf w x / 2 ^ min n w = signedOf w x / 2 ^ n := by
  rcases Nat.le_total n w with h | h
  · rw [Nat.min_eq_left h]
  · obtain ⟨hlo, hhi⟩ := signedOf_bounds w x
    have hpow : (2 : Int) ^ w ≤ 2 ^ n := pow_le_pow_right₀ (by decide) h
    rw [Nat.min_eq_right h, ediv_of_neg_le_of_lt hlo hhi, ediv_of_neg_le_of_lt (by omega) (by omega)]

/-- The pattern of a field's value read in two's complement repeats the field's top bit above it (R120). -/
theorem testBit_wrapTo_signedOf {n w f k : Nat} (hn : 0 < n) (hw : n ≤ w) (hf : f < 2 ^ n) (hk : k < w) :
    (wrapTo w (signedOf n f)).testBit k = if k < n then f.testBit k else f.testBit (n - 1) := by
  have hfw : f < 2 ^ w := hf.trans_le (Nat.pow_le_pow_right Nat.two_pos hw)
  have hsigned : signedOf n f = if f < 2 ^ (n - 1) then (f : Int) else (f : Int) - 2 ^ n := by
    simp only [signedOf, Nat.mod_eq_of_lt hf, if_neg hn.ne']
  rw [hsigned]
  split
  · next hpos =>
    have hwrap : wrapTo w (f : Int) = f := by
      have := wrapTo_cast w (f : Int)
      rw [Int.emod_eq_of_lt (by omega) (by exact_mod_cast hfw)] at this
      exact_mod_cast this
    have hzero : ∀ i, n - 1 ≤ i → f.testBit i = false := fun i hi =>
      Nat.testBit_lt_two_pow (hpos.trans_le (Nat.pow_le_pow_right Nat.two_pos hi))
    rw [hwrap]
    split
    · rfl
    · rw [hzero k (by omega), hzero (n - 1) le_rfl]
  · next hneg =>
    have htop : f.testBit (n - 1) = true :=
      Nat.testBit_of_two_pow_le_and_two_pow_add_one_gt (by omega) (by rwa [Nat.sub_add_cancel hn])
    have hones : 2 ^ n * (2 ^ (w - n) - 1) + 2 ^ n = 2 ^ w := by
      rw [← Nat.mul_succ, Nat.succ_eq_add_one, Nat.sub_add_cancel (Nat.two_pow_pos _), ← Nat.pow_add,
        Nat.add_sub_cancel' hw]
    have hwrap : wrapTo w ((f : Int) - 2 ^ n) = 2 ^ n * (2 ^ (w - n) - 1) + f := by
      have hle : 2 ^ n ≤ 2 ^ w := Nat.pow_le_pow_right Nat.two_pos hw
      zify at hones hle hf ⊢
      rw [wrapTo_cast, ← Int.add_emod_right, Int.emod_eq_of_lt] <;> omega
    rw [hwrap, Nat.testBit_two_pow_mul_add _ hf, Nat.testBit_two_pow_sub_one, htop]
    split
    · rfl
    · exact decide_eq_true (by omega)

theorem bfLen_le (w p k : Nat) : bfLen w p k ≤ w - p := by
  unfold bfLen
  split <;> omega

/-- A field put into a number: its bits in their places, and the number's own bits around them. -/
theorem testBit_insertField (x z p n k : Nat) : (z - z / 2 ^ p % 2 ^ n * 2 ^ p + x % 2 ^ n * 2 ^ p).testBit k =
    if p ≤ k ∧ k < p + n then x.testBit (k - p) else z.testBit k := by
  have hparts : z - z / 2 ^ p % 2 ^ n * 2 ^ p + x % 2 ^ n * 2 ^ p =
      2 ^ p * (2 ^ n * (z / 2 ^ p / 2 ^ n) + x % 2 ^ n) + z % 2 ^ p := by
    have hlow := Nat.div_add_mod z (2 ^ p)
    have hmid := congrArg (2 ^ p * ·) (Nat.div_add_mod (z / 2 ^ p) (2 ^ n))
    simp only [Nat.mul_add] at hmid ⊢
    rw [Nat.mul_comm (z / 2 ^ p % 2 ^ n), Nat.mul_comm (x % 2 ^ n)]
    omega
  rw [hparts, Nat.testBit_two_pow_mul_add _ (Nat.mod_lt _ (Nat.two_pow_pos p)),
    Nat.testBit_two_pow_mul_add _ (Nat.mod_lt _ (Nat.two_pow_pos n))]
  simp only [Nat.testBit_mod_two_pow, Nat.testBit_div_two_pow]
  split
  · next h => simp [h, show ¬ p ≤ k by omega]
  · next h =>
    split
    · next hin => simp [hin, show p ≤ k ∧ k < p + n by omega]
    · next hout =>
      rw [if_neg (by omega)]
      congr 1
      omega

/-- The extracted field's bits, and above them its top bit under a signed tag and 0 under another (R120). -/
theorem testBit_bfExtract (sg : Bool) {w k : Nat} (x p n : Nat) (hk : k < w) : (bfExtract sg w x p n).testBit k =
    if k < bfLen w p n then x.testBit (p + k)
    else sg && decide (0 < bfLen w p n) && x.testBit (p + bfLen w p n - 1) := by
  have hlen := bfLen_le w p n
  unfold bfExtract
  generalize bfLen w p n = m at hlen ⊢
  have hfield : ∀ i, (x / 2 ^ p % 2 ^ m).testBit i = (decide (i < m) && x.testBit (p + i)) := fun i => by
    rw [Nat.testBit_mod_two_pow, Nat.testBit_div_two_pow, Nat.add_comm]
  dsimp only
  split
  · next hempty => simp [hempty]
  · next hsome =>
    have hpos : 0 < m := Nat.pos_of_ne_zero hsome
    cases sg with
    | false =>
      rw [if_neg Bool.false_ne_true, hfield]
      split <;> simp [*]
    | true =>
      have hfits : x / 2 ^ p % 2 ^ m < 2 ^ m := Nat.mod_lt _ (Nat.two_pow_pos m)
      rw [if_pos rfl, testBit_wrapTo_signedOf hpos (by omega) hfits hk, hfield, hfield]
      split
      · simp [*]
      · simp [hpos, Nat.add_sub_assoc (show 1 ≤ m from hpos)]

/-- Position and length of a field in V (R120). -/
theorem fieldPos_eq (v : Reg) : fieldPos v = v.toNat % 64 := by
  rw [fieldPos, fieldOf, Nat.pow_zero, Nat.div_one]
  rfl

theorem fieldLen_eq (v : Reg) : fieldLen v = v.toNat / 256 % 64 := rfl

/-! ### Lanes of bit patterns -/

/-- A lane instruction that writes the low bits of a number to each sub-element, under the common tag. -/
def WritesNat (c : LaneRun) (i : Instr) (d : BitVec 7) (F : Nat → Nat → Nat) : Prop :=
  c.Writes i d c.t (fun l j v => v = F l j % 2 ^ c.width)

theorem pat_lt (c : LaneRun) (o : BitVec 7) (l j : Nat) : c.pat o l j < 2 ^ c.width := subEl_lt _ _ _

section

variable {c : LaneRun} {f : LaneForm} {i : Instr} {d a b : BitVec 7} {p : BitVec 3} {k : TagClass}

theorem writes_imp {t : BitVec 5} {P Q : Nat → Nat → Nat → Prop} (h : c.Writes i d t P)
    (hPQ : ∀ l j v, P l j v → Q l j v) : c.Writes i d t Q := by
  obtain ⟨new, hends, hP⟩ := h
  exact ⟨new, hends, fun l j hl hm hj => hPQ _ _ _ (hP l j hl hm hj)⟩

/-- A number below 2^w is written as it is. -/
theorem writes_of_nat {F : Nat → Nat → Nat} {Q : Nat → Nat → Nat → Prop} (h : WritesNat c i d F)
    (hF : ∀ l j, F l j < 2 ^ c.width ∧ Q l j (F l j)) : c.Writes i d c.t Q :=
  writes_imp h fun l j v hv => by
    obtain ⟨hlt, hQ⟩ := hF l j
    rwa [hv, Nat.mod_eq_of_lt hlt]

/-- A number is written bit by bit. -/
theorem writesBits_of_nat {F : Nat → Nat → Nat} {g : Nat → Nat → Nat → Bool} (h : WritesNat c i d F)
    (hF : ∀ l j n, n < c.width → (F l j).testBit n = g l j n) :
    c.Writes i d c.t (fun l j v => ∀ n, n < c.width → v.testBit n = g l j n) :=
  writes_imp h fun l j v hv n hn => by
    rw [hv, Nat.testBit_mod_two_pow, decide_eq_true hn, Bool.true_and, hF l j n hn]

/-- A number is written modulo 2^w. -/
theorem writesInt_of_nat {F : Nat → Nat → Nat} {g : Nat → Nat → Int} (h : WritesNat c i d F)
    (hF : ∀ l j, (F l j : Int) % 2 ^ c.width = g l j % 2 ^ c.width) : c.WritesInt i d g :=
  writes_imp h fun l j v hv => by
    rw [hv, ← hF l j]
    push_cast
    rfl

/-- What the instructions on patterns share: a function of three sub-elements (R118-R120). -/
theorem bitLane_writesNat (h : c.Reaches f k.has) (hx : f.cross = false) (F : Nat → Nat → Nat → Nat → Nat)
    (A B Z : Nat → Reg) {g : LaneCtx → Nat → LaneRes}
    (he : exec f.i c.s₀ = runLane c.s₀ f k.has noCheck (fun x => x.putFlags (opdOf d) x.t (g x)))
    (hg : ∀ l, g (laneCtx c) l = bitLane c.t F (A l) (B l) (Z l)) : WritesNat c f.i d (fun l j =>
      F c.width (subEl c.width (A l) j) (subEl c.width (B l) j) (subEl c.width (Z l) j)) := by
  have hends := ends_of_runLane h (.inl hx) he
  rw [putFlags_laneCtx, laneFlags_zero _ (fun l => by rw [hg]; rfl), raise_zero] at hends
  refine ⟨_, hends, fun l j _ _ hj => ?_⟩
  rw [hg]
  exact subEl_laneFrom _ _ _ hj

theorem unary_writesNat {F : Nat → Nat → Nat}
    (he : ∀ s, exec i s = runUnary s i d a p k (fun t x => bitLane t (fun w x _ _ => F w x) x 0 0))
    (h : c.Reaches (form1 i d a p) k.has) : WritesNat c i d (fun l j => F c.width (c.pat a l j)) :=
  bitLane_writesNat h rfl (fun w x _ _ => F w x) (c.val a) (fun _ => 0) (fun _ => 0) (he _) (fun _ => rfl)

theorem binary_writesNat {F : Nat → Nat → Nat → Nat}
    (he : ∀ s, exec i s = runBinary s i d a b p k (fun t x y => bitLane t (fun w x y _ => F w x y) x y 0))
    (h : c.Reaches (form2 i d a b p) k.has) : WritesNat c i d (fun l j => F c.width (c.pat a l j) (c.pat b l j)) :=
  bitLane_writesNat h rfl (fun w x y _ => F w x y) (c.val a) (c.val b) (fun _ => 0) (he _) (fun _ => rfl)

/-- V stands in every sub-element (R112). -/
theorem splat_writesNat {F : Nat → Nat → Nat}
    (he : ∀ s, exec i s = runScalar s i d a b p k (fun t x v => bitLane t (fun _ x y _ => F x y) x (splat t v) 0))
    (h : c.Reaches (form1 i d a p) k.has) : WritesNat c i d (fun l j => F (c.pat a l j) (c.patS b l j)) :=
  bitLane_writesNat h rfl (fun _ x y _ => F x y) (c.val a) (fun _ => splat c.t (rrsValue c.u b)) (fun _ => 0) (he _)
    (fun _ => rfl)

/-- V is used whole (R112). -/
theorem whole_writesNat {F : BitVec 5 → Reg → Nat → Nat → Nat}
    (he : ∀ s, exec i s = runScalar s i d a b p k (fun t x v => bitLane t (fun w x _ _ => F t v w x) x 0 0))
    (h : c.Reaches (form1 i d a p) k.has) :
    WritesNat c i d (fun l j => F c.t (rrsValue c.u b) c.width (c.pat a l j)) :=
  bitLane_writesNat h rfl (fun w x _ _ => F c.t (rrsValue c.u b) w x) (c.val a) (fun _ => 0) (fun _ => 0) (he _) (fun _ => rfl)

theorem vbfx_writes {pos len : Nat} (hpos : fieldPos (rrsValue c.u b) = pos)
    (hlen : bfLen c.width (fieldPos (rrsValue c.u b)) (fieldLen (rrsValue c.u b)) = len)
    (h : c.Reaches (form1 (.vbfx d a b p) d a p) TagClass.B.has) :
    c.Writes (.vbfx d a b p) d c.t (fun l j e =>
      (∀ n, n < len → e.testBit n = (c.pat a l j).testBit (pos + n)) ∧
      (∀ n, len ≤ n → n < c.width →
        e.testBit n = (isSigned c.t && decide (0 < len) && (c.pat a l j).testBit (pos + len - 1)))) := by
  have hbits := writesBits_of_nat (whole_writesNat
    (F := fun t v w x => bfExtract (isSigned t) w x (fieldPos v) (fieldLen v)) (fun _ => rfl) h)
    fun _ _ _ hn => testBit_bfExtract _ _ _ _ hn
  rw [hlen, hpos] at hbits
  refine writes_imp hbits fun l j e he => ⟨fun n hn => ?_, fun n hn hw => ?_⟩
  · have hfits : len ≤ c.width := by
      rw [← hlen]
      exact (bfLen_le ..).trans (Nat.sub_le ..)
    rw [he n (hn.trans_le hfits), if_pos hn]
  · rw [he n hw, if_neg (Nat.not_lt.2 hn)]

theorem vbfi_writes {pos len : Nat} (hpos : fieldPos (rrsValue c.u b) = pos)
    (hlen : bfLen c.width (fieldPos (rrsValue c.u b)) (fieldLen (rrsValue c.u b)) = len)
    (h : c.Reaches (formD (.vbfi d a b p) d a p) TagClass.B.has) :
    c.Writes (.vbfi d a b p) d c.t (fun l j e => ∀ n, n < c.width → e.testBit n =
      if pos ≤ n ∧ n < pos + len then (c.pat a l j).testBit (n - pos) else (c.pat d l j).testBit n) := by
  have hnat := bitLane_writesNat h rfl (fun w x _ z => bfInsert w x z (fieldPos (rrsValue c.u b)) (fieldLen (rrsValue c.u b)))
    (c.val a) (fun _ => 0) (c.val d) (g := fun y l => bitLane y.t
      (fun w x _ z => bfInsert w x z (fieldPos (rrsValue y.w b)) (fieldLen (rrsValue y.w b)))
      (y.val (opdOf a) l) 0 (y.val (opdOf d) l)) rfl (fun _ => rfl)
  refine writesBits_of_nat hnat fun l j n _ => ?_
  rw [bfInsert, hlen, hpos]
  exact testBit_insertField ..

end

theorem laneBits_holds : Sys2Proof.Claims.laneBits := by
  intro c d a b p x y A B bits
  refine ⟨fun h => ?_, fun h => ?_, fun h => ?_, fun h => ?_, fun h => ?_, fun h => ?_, fun h => ?_, fun h => ?_, fun h => ?_,
    fun h => ?_, fun h => ?_⟩
  · exact writesBits_of_nat (binary_writesNat (F := fun _ => andBits) (fun _ => rfl) h) fun _ _ _ _ => Nat.testBit_and ..
  · exact writesBits_of_nat (binary_writesNat (F := fun _ => orBits) (fun _ => rfl) h) fun _ _ _ _ => Nat.testBit_or ..
  · exact writesBits_of_nat (binary_writesNat (F := fun _ => xorBits) (fun _ => rfl) h) fun _ _ _ _ => Nat.testBit_xor ..
  · refine writesBits_of_nat (binary_writesNat (F := fun w x y => andBits x (notBits w y)) (fun _ => rfl) h) fun _ _ _ hk => ?_
    rw [andBits, Nat.testBit_and, testBit_notBits _ hk]
  · exact writesBits_of_nat (unary_writesNat (F := notBits) (fun _ => rfl) h) fun _ _ _ hk => testBit_notBits _ hk
  · exact writesBits_of_nat (splat_writesNat (F := andBits) (fun _ => rfl) h) fun _ _ _ _ => Nat.testBit_and ..
  · exact writesBits_of_nat (splat_writesNat (F := orBits) (fun _ => rfl) h) fun _ _ _ _ => Nat.testBit_or ..
  · exact writesBits_of_nat (unary_writesNat (F := revBits) (fun _ => rfl) h) fun _ _ _ hk => testBit_revBits _ _ hk
  · exact writesBits_of_nat (binary_writesNat (F := rolBits) (fun _ => rfl) h) fun l j _ hk =>
      testBit_rolBits _ (pat_lt c a l j) hk
  · exact writes_of_nat (unary_writesNat (F := clzBits) (fun _ => rfl) h) fun l j =>
      ⟨(clzBits_le _ _).trans_lt Nat.lt_two_pow_self, clzBits_le _ _, clzBits_bounds (pat_lt c a l j)⟩
  · exact writes_of_nat (unary_writesNat (F := popBits) (fun _ => rfl) h) fun _ _ =>
      ⟨(popBits_le _ _).trans_lt Nat.lt_two_pow_self, popBits_eq _ _⟩

theorem laneShifts_holds : Sys2Proof.Claims.laneShifts := by
  intro c d a b p x y z sgn B v n pos len
  have hshr : ∀ l j m, (shrBits c.width (x l j) m : Int) % 2 ^ c.width = (x l j : Int) / 2 ^ m % 2 ^ c.width := by
    intro l j m
    rw [shrBits_eq m (pat_lt c a l j)]
    push_cast
    rfl
  have hsar : ∀ l j m, (sarBits c.width (x l j) m : Int) % 2 ^ c.width = sgn l j / 2 ^ m % 2 ^ c.width := by
    intro l j m
    rw [sarBits, wrapTo_cast, Int.emod_emod_of_dvd _ (dvd_refl _), signedOf_ediv_min]
  have hpos : fieldPos v = pos := fieldPos_eq v
  have hlen : bfLen c.width (fieldPos v) (fieldLen v) = len := by
    rw [fieldPos_eq, fieldLen_eq]
    rfl
  refine ⟨fun h => ?_, fun h => ?_, fun h => ?_, fun h => ?_, fun h => ?_, fun h => ?_,
    vbfx_writes hpos hlen, vbfi_writes hpos hlen⟩
  · exact writesInt_of_nat (binary_writesNat (F := shlBits) (fun _ => rfl) h) fun _ _ => shlBits_emod ..
  · exact writesInt_of_nat (binary_writesNat (F := shrBits) (fun _ => rfl) h) fun l j => hshr l j _
  · exact writesInt_of_nat (binary_writesNat (F := sarBits) (fun _ => rfl) h) fun l j => hsar l j _
  · exact writesInt_of_nat (whole_writesNat (F := fun _ v w x => shlBits w x v.toNat) (fun _ => rfl) h) fun _ _ =>
      shlBits_emod ..
  · exact writesInt_of_nat (whole_writesNat (F := fun _ v w x => shrBits w x v.toNat) (fun _ => rfl) h) fun l j => hshr l j _
  · exact writesInt_of_nat (whole_writesNat (F := fun _ v w x => sarBits w x v.toNat) (fun _ => rfl) h) fun l j => hsar l j _

/-- Settles O11: each instruction writes a function of its operands' patterns, and the bits of that function are those that the
rules give. -/
theorem laneBitsAndShifts : Obligations.LaneBitsAndShifts := by
  unfold Obligations.LaneBitsAndShifts
  exact ⟨laneBits_holds, laneShifts_holds⟩

/-! ### Compares -/

/-- The relation that a condition code names (R122). -/
def condHolds (cc : Nat) (x y : Int) : Prop :=
  match cc with
  | 0 => x = y
  | 1 => x ≠ y
  | 2 => x < y
  | 3 => x ≤ y
  | 4 => y < x
  | _ => y ≤ x

theorem intCond_iff (cc : Nat) (x y : Int) : intCond cc x y = true ↔ condHolds cc x y :=
  match cc with
  | 0 | 1 | 2 | 3 | 4 | _ + 5 => decide_eq_true_iff

section

variable {t : BitVec 5} {cc : Nat} {x y : Reg}

/-- Without .ANY the condition holds in every sub-element (R121). -/
theorem cmpLane_all : cmpLane t cc false x y = true ↔ ∀ j, j < 64 / fmtWidth t →
    condHolds cc (elVal t (subEl (fmtWidth t) x j)) (elVal t (subEl (fmtWidth t) y j)) := by
  simp [cmpLane, joinConds, intCond_iff]

/-- With .ANY it holds in one of them (R121). -/
theorem cmpLane_any : cmpLane t cc true x y = true ↔ ∃ j, j < 64 / fmtWidth t ∧
    condHolds cc (elVal t (subEl (fmtWidth t) x j)) (elVal t (subEl (fmtWidth t) y j)) := by
  simp [cmpLane, joinConds, intCond_iff]

end

/-- What a compare writes in the lanes of the active mask: its condition under the execution mask, 0 outside it; the other
lanes, and those whose element failed, keep their bits (R121). -/
theorem putPred_laneCtx (c : LaneRun) (q : Nat) (g : Nat → Bool) :
    ∃ mk : Mask, (laneCtx c).putPred q g = c.u.pset q mk ∧ ∀ l, l < 32 →
      (c.u.active.getLsbD l = false ∨ c.bad.getLsbD l = true → mk.getLsbD l = (c.u.pget q).getLsbD l) ∧
      (c.u.active.getLsbD l = true → c.bad.getLsbD l = false →
        (mk.getLsbD l = true ↔ c.m.getLsbD l = true ∧ g l = true)) := by
  refine ⟨_, rfl, fun l hl => ⟨fun hkeep => ?_, fun hact hgood => ?_⟩⟩
  · rw [getLsbD_maskOf _ _ hl, if_pos (by simpa [laneCtx] using hkeep)]
    rfl
  · rw [getLsbD_maskOf _ _ hl, if_neg (by simpa [laneCtx] using ⟨hact, hgood⟩), Bool.and_eq_true]
    rfl

theorem vcmp_ends {c : LaneRun} {q cc p : BitVec 3} {n : BitVec 1} {a b : BitVec 7}
    (h : c.Reaches ⟨.vcmp q n cc a b p, some p, [a, b], [a, b], [a, b], false⟩ TagClass.I.has) :
    c.Ends (.vcmp q n cc a b p)
      ((laneCtx c).putPred q.toNat (fun l => cmpLane c.t cc.toNat (n == 1) (c.val a l) (c.val b l))) :=
  ends_of_runLane (op := fun x => x.putPred q.toNat
    (fun l => cmpLane x.t cc.toNat (n == 1) (x.val (opdOf a) l) (x.val (opdOf b) l))) h (.inl rfl) rfl

/-! ### Index registers -/

theorem clampIndex_cast (v : Int) : (clampIndex v : Int) = if 0 ≤ v ∧ v ≤ 255 then v else 255 := by
  unfold clampIndex
  split
  · next hin => exact Int.toNat_of_nonneg hin.1
  · rfl

/-- An instruction without streams makes no record of one. -/
theorem consume_nil {s s1 : State} {r : WRef} {g : Workgroup} {w0 w u : Warp} {m : Mask} {sv : List StreamVals}
    {recs : List FaultRec} (h : consume s r g w0 w m [] = .ok s1 u sv recs) : recs = [] := by
  cases h
  rfl

/-- Without records no lane's element failed, so the whole execution mask counts. -/
theorem mask_of_no_records {c : LaneRun} (h : c.recs = []) : c.m &&& ~~~c.bad = c.m := by
  have hbad : c.bad = 0 := by
    rw [LaneRun.bad, h]
    rfl
  rw [hbad]
  exact BitVec.and_allOnes

/-! ### Parts of lanes -/

theorem unpkLane_eq (g h : Nat) (a : Reg) : unpkLane g h a = a >>> (h * g) := by
  rw [unpkLane, ← Nat.shiftRight_eq_div_pow, ← BitVec.toNat_ushiftRight, BitVec.ofNat_toNat, BitVec.setWidth_eq]

theorem getLsbD_setField (w : Reg) (lo n v : Nat) {k : Nat} (hk : k < 64) :
    (setField w lo n v).getLsbD k = if lo ≤ k ∧ k < lo + n then v.testBit (k - lo) else w.getLsbD k := by
  rw [setField, BitVec.getLsbD_ofNat, decide_eq_true hk, Bool.true_and]
  exact testBit_insertField ..

/-- VPACK replaces one group (R133). -/
theorem getLsbD_packLane (g h : Nat) (a z : Reg) {k : Nat} (hk : k < 64) : (packLane g h a z).getLsbD k =
    if h * g ≤ k ∧ k < h * g + g then a.getLsbD (k - h * g) else z.getLsbD k := by
  rw [packLane, getLsbD_setField _ _ _ _ hk, Nat.testBit_mod_two_pow]
  split
  · next hin =>
    rw [decide_eq_true (by omega), Bool.true_and]
    rfl
  · rfl

theorem laneSelects_holds : Sys2Proof.Claims.laneSelects := by
  intro c d a b p q k cc e f x y cond cmp setsPred clampx setsIndex
  have hcmp : ∀ (n : BitVec 1) (val : Nat → Prop),
      c.Reaches ⟨cmp n, some p, [a, b], [a, b], [a, b], false⟩ TagClass.I.has →
      (∀ l, cmpLane c.t cc.toNat (n == 1) (c.val a l) (c.val b l) = true ↔ val l) → setsPred n val := by
    intro n val h hval
    obtain ⟨mk, hput, hbits⟩ := putPred_laneCtx c q.toNat
      (fun l => cmpLane c.t cc.toNat (n == 1) (c.val a l) (c.val b l))
    have hends := vcmp_ends h
    rw [hput] at hends
    refine ⟨mk, hends, fun l hl => ?_⟩
    rw [← hval l]
    exact hbits l hl
  refine ⟨fun h => hcmp 0 _ h fun l => cmpLane_all, fun h => hcmp 1 _ h fun l => cmpLane_any, fun h => ?_, fun h => ?_,
    fun h => ?_⟩
  · exact ends_of_runLane (op := fun x => x.put (opdOf d) x.t
      (fun l => if (x.w.pget k.toNat).getLsbD l then x.val (opdOf a) l else x.val (opdOf b) l)) h (.inl rfl) rfl
  · have hends := ends_of_runLane (op := fun x => if x.undef then x.w else x.w.xset e.toNat (x.m &&& ~~~x.bad)
      (fun l => clampIndex (elVal x.t (subEl (fmtWidth x.t) (x.val (opdOf a) l) 0)))) h (.inl rfl) rfl
    exact ⟨_, hends, fun l => clampIndex_cast _⟩
  · have hends := ends_of_runLane (op := fun x => x.w.xset e.toNat x.m
      (fun l => clampIndex ((x.w.xget f.toNat l : Int) + (rrsValue x.w b).toInt))) h (.inl rfl) rfl
    refine ⟨_, ?_, fun l => clampIndex_cast _⟩
    rw [mask_of_no_records (consume_nil h.read)]
    exact hends

theorem laneMoves_holds : Sys2Proof.Claims.laneMoves := by
  intro c d a b p g f h bad sh
  refine ⟨fun hr => ?_, fun hr => ?_, fun hr => ?_, fun hr => ?_, fun hr => ?_⟩
  · have hends := ends_of_runLane (op := fun x => x.putFlags (opdOf d) x.t (fun l => (x.val (opdOf a) l, 0))) hr (.inl rfl) rfl
    rwa [putFlags_laneCtx, laneFlags_zero _ fun _ => rfl, raise_zero] at hends
  · have hends := ends_of_runLane (op := fun x => x.put (opdOf d) f (fun _ => splat f (rrsValue x.w b))) hr (.inl rfl) rfl
    refine ⟨_, hends, fun l j _ _ hj => ?_⟩
    exact (subEl_laneFrom _ _ _ hj).trans (Nat.mod_mod _ _)
  · exact ends_of_runLane (op := fun x => x.put (opdOf d) f (x.val (opdOf a))) hr (.inl rfl) rfl
  · have hends := ends_of_runLane (op := fun x => x.put (opdOf d) x.t
      (fun l => unpkLane (groupBits g) h.toNat (x.val (opdOf a) l))) hr (.inl rfl) rfl
    simp only [unpkLane_eq] at hends
    exact hends
  · have hends := ends_of_runLane (op := fun x => x.put (opdOf d) x.t
      (fun l => packLane (groupBits g) h.toNat (x.val (opdOf a) l) (x.val (opdOf d) l))) hr (.inl rfl) rfl
    exact ⟨_, hends, fun l k hk => getLsbD_packLane _ _ _ _ hk⟩

/-- Settles O12: a compare's condition lane by lane, an index limited to its register, and a lane's bits kept, moved or
replaced. -/
theorem laneSelectsAndMoves : Obligations.LaneSelectsAndMoves := by
  unfold Obligations.LaneSelectsAndMoves
  exact ⟨laneSelects_holds, laneMoves_holds⟩

end Sys2Proof.Proofs

/-! PROOFS of the family of cross-lane moves: where a lane's value comes from and when a bad source traps; the exchange of two
warps, from the posting of an arrival to its pairing. -/

namespace Sys2Proof.Proofs

open Sys2Proof.Machine Sys2Proof.Claims Sys2Proof.Laws Sys2Proof.Laws.State

/-! ### Lane instructions with a check of their own -/

/-- A lane instruction that its own check refuses traps before any other effect than the switch-off (R114, R138). -/
theorem runLane_refused {s s0 : State} {f : LaneForm} {ok : BitVec 5 → Bool} {check : LaneCtx → Option Nat}
    {op : LaneCtx → Warp} {r : WRef} {g : Workgroup} {w w0 : Warp} {off m : Mask} {t : BitVec 5} {code : Nat}
    (hc : s.current = some (r, g, w)) (hl : (legal f.i && allocOk w f.i && flagChosen w f.i) = true)
    (hr : s0 = fillReads s g r.wp w (f.mask w) f.i) (hf : fillNamed s0 g r.wp w (f.mask w) f.i = (w0, true))
    (ho : off = f.codes.foldl (fun a c => a ||| (opdOf c).offLanes w0 (f.mask w0)) 0) (hm : m = f.mask w0 &&& ~~~off)
    (ht : f.tag (w0.switchOff off) m = .tag t) (hok : ok t = true)
    (hu : anyUnset (w0.switchOff off) f.streams = false)
    (hk : check ⟨w0.switchOff off, m, t, false, 0, []⟩ = some code) :
    runLane s f ok check op =
      .next (preciseTrap ((s0.setWarp r w0).setWarp r (w0.switchOff off)) r (w0.switchOff off) code) := by
  subst ho hm
  rw [runLane, runNamed_next _ hc hl hr hf]
  dsimp only
  rw [ht]
  dsimp only
  rw [hu, hok]
  simp only [Bool.not_true, Bool.or_false, Bool.false_eq_true, if_false]
  rw [hk]

/-- What the check of a lane instruction sees, before its streams are consumed. -/
def startCtx (c : LaneRun) (f : LaneForm) : LaneCtx := ⟨c.w.switchOff (c.off f), c.m, c.t, false, 0, []⟩

section

variable {c : LaneRun} {f : LaneForm} {ok : BitVec 5 → Bool} {check : LaneCtx → Option Nat} {op : LaneCtx → Warp}

/-- A lane instruction that reaches its operation, that its check lets pass, and none of whose elements failed, retires with the
warp that the operation leaves (R114, R138). -/
theorem ends_of_checked (h : c.Reaches f ok) (hr : c.recs = []) (he : exec f.i c.s₀ = runLane c.s₀ f ok check op)
    (hk : check (startCtx c f) = none) : c.Ends f.i (op (laneCtx c)) := by
  obtain ⟨w0, hcur, hlegal, hreads, hfill⟩ := h.word
  have hrun := runLane_next (op := op) hcur hlegal hreads hfill rfl h.lanes h.tag h.fits h.set hk h.read
  have hstays : (f.cross && decide (recordMask c.recs ≠ 0)) = false := by
    rw [hr]
    simp [recordMask, maskOf]
  rw [hstays] at hrun
  exact he.trans hrun

/-- One that fits and that its check refuses takes the trap of the check (R138). -/
theorem traps_of_refused (h : c.Fits f ok) (he : exec f.i c.s₀ = runLane c.s₀ f ok check op) {code : Nat}
    (hk : check (startCtx c f) = some code) : exec f.i c.s₀ = .next (preciseTrap
      ((c.s.setWarp c.r c.w).setWarp c.r (c.w.switchOff (c.off f))) c.r (c.w.switchOff (c.off f)) code) := by
  obtain ⟨w0, hcur, hlegal, hreads, hfill⟩ := h.word
  exact he.trans (runLane_refused hcur hlegal hreads hfill rfl h.lanes h.tag h.fits h.set hk)

end

/-! ### The sources of moved lanes -/

/-- A source index lies in the sub-group of lane l, W lanes wide, and names a lane of the mask (R138). -/
def GoodSource (W : Nat) (m : Mask) (l i : Nat) : Prop := i < W ∧ m.getLsbD (W * (l / W) + i) = true

/-- What a lane receives from, given its edge and its source index: nothing at an edge, else the lane that a good index names
(R138, R141). -/
structure Selects (W : Nat) (m : Mask) (edge : Prop) (i l : Nat) (x : LaneSrc) : Prop where
  atEdge : edge → x = .edge
  fromGood : ¬ edge → GoodSource W m l i → x = .from_ (W * (l / W) + i)
  fromBad : ¬ edge → ¬ GoodSource W m l i → x = .bad

theorem selects_groupSrc (W : Nat) (m : Mask) (l i : Nat) : Selects W m False i l (groupSrc W m l i) := by
  rw [groupSrc, groupBase_eq]
  exact ⟨False.elim, fun _ h => if_pos h, fun _ h => if_neg h⟩

/-- An XOR pattern of W or more is a bad source, as the index W is (R141). -/
theorem selects_xorSrc (W : Nat) (m : Mask) (l n : Nat) : Selects W m False (if n < W then (l % W) ^^^ n else W) l
    (if n ≥ W then .bad else groupSrc W m l (xorBits (l % W) n)) := by
  by_cases hn : n < W
  · rw [if_pos hn, if_neg (Nat.not_le.2 hn)]
    exact selects_groupSrc W m l _
  · rw [if_neg hn, if_pos (Nat.not_lt.1 hn)]
    exact ⟨False.elim, fun _ h => absurd h.1 (Nat.lt_irrefl W), fun _ _ => rfl⟩

/-- Upward, the lanes of a sub-group with fewer than n lanes below them are its edge (R141). -/
theorem selects_shiftUp {W : Nat} (hW : 0 < W) (m : Mask) (n l : Nat) :
    Selects W m (l < W * (l / W) + n) (l - n - W * (l / W)) l (shiftSrc W m false n l) := by
  have hlane := Nat.div_add_mod l W
  have hlast := Nat.mod_lt l hW
  have hsrc : ¬ l < W * (l / W) + n → W * (l / W) + (l - n - W * (l / W)) = l - n := by omega
  have hin : ¬ l < W * (l / W) + n → l - n - W * (l / W) < W := by omega
  simp only [shiftSrc, groupBase_eq, Bool.false_eq_true, if_false]
  refine ⟨fun h => if_pos h, fun h ⟨_, hm⟩ => ?_, fun h hbad => ?_⟩
  · rw [hsrc h] at hm ⊢
    rw [if_neg h, if_pos hm]
  · rw [if_neg h, if_neg fun hm => hbad ⟨hin h, by rwa [hsrc h]⟩]

/-- Downward, the lanes with fewer than n lanes above them are the edge (R141). -/
theorem selects_shiftDown (W : Nat) (m : Mask) (n l : Nat) :
    Selects W m (W * (l / W) + W ≤ l + n) (l + n - W * (l / W)) l (shiftSrc W m true n l) := by
  have hlane := Nat.mul_div_le l W
  have hsrc : W * (l / W) + (l + n - W * (l / W)) = l + n := by omega
  have hin : ¬ W * (l / W) + W ≤ l + n → l + n - W * (l / W) < W := by omega
  simp only [shiftSrc, groupBase_eq, if_true]
  refine ⟨fun h => if_pos h, fun h ⟨_, hm⟩ => ?_, fun h hbad => ?_⟩
  · rw [hsrc] at hm ⊢
    rw [if_neg h, if_pos hm]
  · rw [if_neg h, if_neg fun hm => hbad ⟨hin h, by rwa [hsrc]⟩]

section

variable {c : LaneCtx} {src : LaneCtx → Nat → LaneSrc}

/-- Under .Z, and where no lane's source is bad, a move passes (R138). -/
theorem selectCheck_passes {z : Bool} (h : z = true ∨ ∀ l, l < 32 → c.m.getLsbD l = true → src c l ≠ .bad) :
    selectCheck z src c = none := by
  refine if_neg ?_
  simp only [Bool.and_eq_true, Bool.not_eq_true', List.any_eq_true, mem_lanesIn, beq_iff_eq]
  rintro ⟨hz, l, ⟨hl, hm⟩, hbad⟩
  exact h.elim (Bool.eq_false_iff.1 hz) fun h => h l hl hm hbad

/-- Without .Z a bad source in a lane takes the lane-select trap (R138). -/
theorem selectCheck_traps {l : Nat} (hl : l < 32) (hm : c.m.getLsbD l = true) (hbad : src c l = .bad) :
    selectCheck false src c = some 0x03 := by
  refine if_pos ?_
  simp only [Bool.not_false, Bool.true_and, List.any_eq_true, mem_lanesIn, beq_iff_eq]
  exact ⟨l, ⟨hl, hm⟩, hbad⟩

end

section

variable {c : LaneRun} {i : Instr} {d a : BitVec 7} {z : BitVec 1} {src : LaneCtx → Nat → LaneSrc} {W : Nat}
  {edge : Nat → Prop} {idx : Nat → Nat}

/-- What the moves share: a lane gets the source's bits, at an edge 0 or its own old ones, and from a bad source 0 (R138, R141).
Its sources are the same before and after the streams are consumed. -/
theorem move_writes (he : ∀ s, exec i s = runMove s i d a z src) (hr : c.recs = [])
    (h : c.Reaches (formX i d a) TagClass.A.has)
    (hstart : ∀ l, Selects W c.m (edge l) (idx l) l (src (startCtx c (formX i d a)) l))
    (hrun : ∀ l, Selects W c.m (edge l) (idx l) l (src (laneCtx c) l))
    (hz : z = 1 ∨ ∀ l, l < 32 → c.m.getLsbD l = true → edge l ∨ GoodSource W c.m l (idx l)) : ∃ new : Nat → Reg,
      c.Ends i (writeDst c.u (opdOf d) c.t c.m 0 new) ∧
      ∀ l, l < 32 → c.m.getLsbD l = true →
        (edge l → new l = if z = 1 then 0 else c.val d l) ∧
        (¬ edge l → GoodSource W c.m l (idx l) → new l = c.val a (W * (l / W) + idx l)) ∧
        (¬ edge l → ¬ GoodSource W c.m l (idx l) → new l = 0) := by
  have hpass : selectCheck (z == 1) src (startCtx c (formX i d a)) = none := by
    refine selectCheck_passes (hz.imp beq_iff_eq.2 fun hgood l hl hm hbad => ?_)
    by_cases hedge : edge l
    · rw [(hstart l).atEdge hedge] at hbad
      cases hbad
    · rw [(hstart l).fromGood hedge ((hgood l hl hm).resolve_left hedge)] at hbad
      cases hbad
  have hends : c.Ends i (writeDst c.u (opdOf d) c.t c.m (recordMask c.recs) (movedLane (laneCtx c) a d (z == 1) src)) :=
    ends_of_checked (op := fun x => x.put (opdOf d) x.t (movedLane x a d (z == 1) src)) h hr (he _) hpass
  have hnone : recordMask c.recs = 0 := by
    rw [hr]
    rfl
  rw [hnone] at hends
  refine ⟨_, hends, fun l _ _ => ⟨fun hedge => ?_, fun hedge hgood => ?_, fun hedge hbad => ?_⟩⟩
  · rw [movedLane, (hrun l).atEdge hedge]
    simp only [beq_iff_eq]
    rfl
  · rw [movedLane, (hrun l).fromGood hedge hgood]
    rfl
  · rw [movedLane, (hrun l).fromBad hedge hbad]

/-- Without .Z a move with a bad source in a lane traps before any effect (R138). -/
theorem move_traps (he : ∀ s, exec i s = runMove s i d a z src)
    (hstart : ∀ l, Selects W c.m (edge l) (idx l) l (src (startCtx c (formX i d a)) l)) (hz : z = 0)
    (hbad : ∃ l, l < 32 ∧ c.m.getLsbD l = true ∧ ¬ edge l ∧ ¬ GoodSource W c.m l (idx l))
    (h : c.Fits (formX i d a) TagClass.A.has) : exec i c.s₀ = .next (preciseTrap
      ((c.s.setWarp c.r c.w).setWarp c.r (c.w.switchOff (c.off (formX i d a)))) c.r
      (c.w.switchOff (c.off (formX i d a))) 0x03) := by
  obtain ⟨l, hl, hm, hedge, hgood⟩ := hbad
  subst hz
  exact traps_of_refused h (he _) (selectCheck_traps hl hm ((hstart l).fromBad hedge hgood))

end

theorem crossMoves_hold : Sys2Proof.Claims.crossMoves := by
  intro c d a z x w k n W base good moves hr
  have hW : 0 < W := Nat.two_pow_pos _
  have hshuf (u : Warp) (l : Nat) : Selects W c.m False (u.xget k.toNat l) l (groupSrc W c.m l (u.xget k.toNat l)) :=
    selects_groupSrc W c.m l _
  have hxor (l : Nat) := selects_xorSrc W c.m l n.toNat
  have hup (l : Nat) := selects_shiftUp hW c.m n.toNat l
  have hdown (l : Nat) := selects_shiftDown W c.m n.toNat l
  have hbcst (l : Nat) : Selects W c.m False n.toNat l (groupSrc W c.m l n.toNat) := selects_groupSrc W c.m l _
  refine ⟨fun h hu => ?_, fun h => ?_, fun h => ⟨?_, ?_⟩, fun h => ?_, ?_, ?_, ?_, ?_, ?_⟩
  · exact move_writes (fun _ => rfl) hr h (fun l => hu ▸ hshuf c.u l) (hshuf c.u)
  · exact move_writes (fun _ => rfl) hr h hxor hxor
  · rintro rfl
    exact move_writes (fun _ => rfl) hr h hup hup
  · rintro rfl
    exact move_writes (fun _ => rfl) hr h hdown hdown
  · exact move_writes (fun _ => rfl) hr h hbcst hbcst
  · exact move_traps (fun _ => rfl) (hshuf c.w)
  · exact move_traps (fun _ => rfl) hxor
  · rintro rfl
    exact move_traps (fun _ => rfl) hup
  · rintro rfl
    exact move_traps (fun _ => rfl) hdown
  · exact move_traps (fun _ => rfl) hbcst

/-! ### The partner of an exchange -/

/-- Where a search does not tell two values of one number apart, it finds in either table the same entry, or that number's own. -/
theorem find?_set_of_alike {α : Type} {p : Nat × α → Bool} (t : Table α) {k : Nat} {x y : α} (hp : p (k, x) = p (k, y))
    {e : Nat × α} (h : (Table.set t k x).find? p = some e) :
    (Table.set t k y).find? p = some e ∨ (e = (k, x) ∧ (Table.set t k y).find? p = some (k, y)) := by
  have hfirst : ∀ r : Table α, ((k, x) :: r).find? p = some e →
      ((k, y) :: r).find? p = some e ∨ (e = (k, x) ∧ ((k, y) :: r).find? p = some (k, y)) := by
    intro r hr
    rw [List.find?_cons, hp] at hr
    rw [List.find?_cons]
    split at hr
    · exact .inr ⟨(Option.some.inj hr).symm, rfl⟩
    · exact .inl hr
  induction t with
  | nil => exact hfirst [] h
  | cons c r ih =>
    obtain ⟨j, v⟩ := c
    rw [Table.set] at h ⊢
    by_cases hj : j = k
    · rw [if_pos hj] at h ⊢
      exact hfirst _ h
    · rw [if_neg hj] at h ⊢
      by_cases hlt : k < j
      · rw [if_pos hlt] at h ⊢
        exact hfirst _ h
      · rw [if_neg hlt, List.find?_cons] at h ⊢
        split at h
        · exact .inl h
        · exact ih h

section

variable {s : State} {r : WRef} {g h : Workgroup} {wgix u : Nat}

/-- Putting another warp leaves the partner of a launch: its place, its tile, whether it lives, and every other warp of it. -/
theorem findPartner_setWarp (hg : s.wg r.wg = some g) (w w' : Warp)
    (h0 : findPartner (s.setWarp r w) (g.setWarp r.wp w) wgix = some (u, h)) :
    ∃ h', findPartner (s.setWarp r w') (g.setWarp r.wp w') wgix = some (u, h') ∧ h'.tile = h.tile ∧ h'.live = h.live ∧
      ∀ wp, ¬ (u = r.wg ∧ wp = r.wp) → h'.warp wp = h.warp wp := by
  rw [setWarp_eq s r g w hg] at h0
  rw [setWarp_eq s r g w' hg]
  rcases find?_set_of_alike (p := fun c => sameLaunch g c.2 && c.2.wgix == wgix && c.2.status != .ended) s.wgs
      (x := g.setWarp r.wp w) (y := g.setWarp r.wp w') rfl h0 with hsame | ⟨hown, hfound⟩
  · exact ⟨h, hsame, rfl, rfl, fun _ _ => rfl⟩
  · obtain ⟨rfl, rfl⟩ := Prod.mk.inj hown
    refine ⟨_, hfound, rfl, rfl, fun wp hwp => ?_⟩
    have hother : wp ≠ r.wp := fun hwp' => hwp ⟨rfl, hwp'⟩
    rw [warp_setWarp_other _ _ _ _ hother, warp_setWarp_other _ _ _ _ hother]

/-- A posting that does not fault names another warp than its own (R152). -/
theorem partner_ne_self {word : Reg} (hf : exchangeFault s r g wgix word = false)
    (hp : findPartner s g wgix = some (u, h)) : ¬ (u = r.wg ∧ fieldOf word 0 4 = r.wp) := by
  intro hself
  simp [exchangeFault, hp, hself] at hf

end

/-! ### Posting and pairing -/

/-- A warp's posted arrival, of an operand that is no stream, with the warp that it names (R150). -/
structure Posted (s : State) (r q : WRef) (g h : Workgroup) (wgix : Nat) (m : Mask) (t : BitVec 5) (vals : List Reg)
    (d : BitVec 7) (z : Bool) (x : Warp) : Prop where
  wg : s.wg r.wg = some g
  posts : ∃ w, s.warp r = some w ∧ w.c.wait = .swap wgix q.wp m t vals d z none
  partner : findPartner s g wgix = some (q.wg, h)
  names : h.warp q.wp = some x

section

variable {s : State} {r q : WRef} {g h : Workgroup} {wgix : Nat} {m xm : Mask} {t xt : BitVec 5} {vals xv : List Reg}
  {d xd : BitVec 7} {z xz : Bool} {x : Warp} {xs : Option (Nat × Bool)}

/-- A partner that does not wait leaves the arrival posted (R150). -/
theorem pairSwap_unmet (hp : Posted s r q g h wgix m t vals d z x) (hx : x.c.wait = .none) : pairSwap s r = s := by
  obtain ⟨hg, ⟨w, hw, hwait⟩, hfind, hname⟩ := hp
  simp [pairSwap, hg, hw, hwait, hfind, hname, hx]

variable (hp : Posted s r q g h wgix m t vals d z x) (hx : x.c.wait = .swap g.wgix r.wp xm xt xv xd xz xs)

include hp hx

/-- A pairing that comes too late for its tick leaves both arrivals posted (R373). -/
theorem pairSwap_late (hlate : (swapLate s (dieOf h.tile) q xm xs || swapLate s (dieOf g.tile) r m none) = true) :
    pairSwap s r = s := by
  obtain ⟨hg, ⟨w, hw, hwait⟩, hfind, hname⟩ := hp
  simp only [pairSwap, hg, hw, hwait, hfind, hname, hx]
  refine if_neg fun hall => ?_
  simp only [Bool.and_eq_true, Bool.not_eq_true'] at hall
  obtain ⟨⟨_, hfirst⟩, hsecond⟩ := hall
  rw [hfirst, hsecond] at hlate
  cases hlate

/-- Two arrivals that name each other pair: the partner's warp finishes with this warp's lanes, then this warp with the partner's
(R150, R151). -/
theorem pairSwap_pairs (hlate : (swapLate s (dieOf h.tile) q xm xs || swapLate s (dieOf g.tile) r m none) = false)
    (hlive : g.live = true) (hlive' : h.live = true) (hq : s.frozen q = false) (hr : s.frozen r = false)
    (hheld : swapHeld s (dieOf h.tile) q x xs = none) :
    pairSwap s r = finishSwap (finishSwap s q (xm, xd, xz, xs) m t vals) r (m, d, z, none) xm xt xv := by
  obtain ⟨hg, ⟨w, hw, hwait⟩, hfind, hname⟩ := hp
  obtain ⟨hfirst, hsecond⟩ := Bool.or_eq_false_iff.1 hlate
  simp only [pairSwap, hg, hw, hwait, hfind, hname, hx]
  rw [if_pos (by simp [hlive, hlive', hq, hr, hfirst, hsecond])]
  rw [hheld]
  rfl

end

/-- Switching no lane off changes nothing. -/
theorem switchOff_zero (w : Warp) : w.switchOff 0 = w := by simp [Warp.switchOff]

section

variable {s₀ s : State} {d a : BitVec 7} {z : BitVec 1} {k : BitVec 5} {r : WRef} {g : Workgroup} {w : Warp} {t : BitVec 5}

/-- VXSWAP of an operand that is no stream, none of whose lanes goes off: it takes the exchange fault or posts its arrival (R150,
R152). -/
theorem vxswap_answers (h : Issues s₀ s (.vxswap d a z k) act r g w) (hoff : (opdOf d).offLanes w w.active = 0)
    (ha : ∀ n, opdOf a ≠ .stream n) (ht : commonTag false [(opdOf a).tag w w.active] = .tag t) :
    exec (.vxswap d a z k) s₀ = .next (
      let s0 := s.setWarp r w
      let wgix := (w.sget k.toNat).toNat
      let word := w.sget (k.toNat + 1)
      if exchangeFault s0 r (g.setWarp r.wp w) wgix word then preciseTrap (s0.setWarp r w) r w 0x04
      else postSwap s0 r w wgix (fieldOf word 0 4) w.active t (laneNums.map (fun l => (opdOf a).val w [] l)) d (z == 1) none) := by
  have hall : w.active &&& ~~~(0 : Mask) = w.active := BitVec.and_allOnes
  show execVxswap d a z k s₀ = _
  rw [execVxswap, issues_runNamed h]
  simp only [hoff, switchOff_zero, hall, ht]

/-- What VXSWAP posts stands in the machine with the warp that it names (R150). -/
theorem posted_of_posting {word : Reg} {wgix u : Nat} {h : Workgroup} {x w' : Warp} {m : Mask} {vals : List Reg} {y : Bool}
    (hg : s.wg r.wg = some g) (hw : w'.c.wait = .swap wgix (fieldOf word 0 4) m t vals d y none)
    (hf : exchangeFault (s.setWarp r w) r (g.setWarp r.wp w) wgix word = false)
    (hfind : findPartner (s.setWarp r w) (g.setWarp r.wp w) wgix = some (u, h)) (hx : h.warp (fieldOf word 0 4) = some x) :
    ∃ h', h'.tile = h.tile ∧ h'.live = h.live ∧ Posted ((s.setWarp r w).setWarp r w') r ⟨u, fieldOf word 0 4⟩ (g.setWarp r.wp w')
      h' wgix m t vals d y x := by
  obtain ⟨h', hfind', htile, hlive, hwarp⟩ := findPartner_setWarp hg w w' hfind
  rw [setWarp_twice]
  refine ⟨h', htile, hlive, wg_setWarp s r g w' hg, ⟨w', stateWarp_setWarp s r g w' hg, hw⟩, hfind', ?_⟩
  exact (hwarp _ (partner_ne_self hf hfind)).trans hx

end

/-- A warp finishes its exchange by writing the partner's lanes, in the lanes that it had at its posting, and retires (R151). -/
theorem finishSwap_retires {s : State} {q : WRef} {h : Workgroup} {x : Warp} (hg : s.wg q.wg = some h) (hw : s.warp q = some x)
    (mine yours : Mask) (e : BitVec 7) (y : Bool) (t : BitVec 5) (vs : List Reg) :
    finishSwap s q (mine, e, y, none) yours t vs = retire s q h x
      (writeDst (x.switchOff (x.active &&& ~~~mine)) (opdOf e) t mine (if y then 0 else mine &&& ~~~yours)
        (fun l => if yours.getLsbD l then laneOf vs l else 0)) false := by
  simp [finishSwap, hg, hw]

theorem exchange_holds : Sys2Proof.Claims.exchange := by
  intro s₀ s d a z k r g w t i m s0 g0 wgix word vals h hoff ha ht
  have hans := vxswap_answers h hoff ha ht
  refine ⟨fun hf => ?_, fun u h' x xm xt xv xd xz xs => ?_, fun q mine yours e y vs h' x hg hw => ?_⟩
  · exact hans.trans (congrArg _ (if_pos hf))
  · intro wp hf hfind hx p
    have hpost : exec i s₀ = .next (pairSwap p r) :=
      hans.trans (congrArg _ (if_neg (Bool.eq_false_iff.1 hf)))
    obtain ⟨h'', htile, hlive, hposted⟩ := posted_of_posting (d := d) (t := t) (y := z == 1) (m := m) (vals := vals)
      (w' := { w with c := { w.c with wait := .swap wgix wp m t vals d (z == 1) none } }) (issues_wg h) rfl hf hfind hx
    rw [← htile, ← hlive]
    refine ⟨fun hx => ?_, fun hx hg hh hq hr => ?_⟩
    · exact hpost.trans (congrArg _ (pairSwap_unmet hposted hx))
    · intro late
      refine ⟨fun hlate => ?_, fun hlate hheld => ?_⟩
      · exact hpost.trans (congrArg _ (pairSwap_late hposted hx hlate))
      · exact hpost.trans (congrArg _ (pairSwap_pairs hposted hx hlate hg hh hq hr hheld))
  · exact finishSwap_retires hg hw mine yours e y t vs

/-- Settles O18: a move's source is at an edge, good or bad lane by lane; a posted arrival finds its partner again beside the
warp that was put, and pairs with it or stays. -/
theorem crossMovesAndExchange : Obligations.CrossMovesAndExchange := by
  unfold Obligations.CrossMovesAndExchange
  exact ⟨crossMoves_hold, exchange_holds⟩

end Sys2Proof.Proofs

/-! PROOFS of the family of uniform instructions: arithmetic, division, logic and immediates, moves between lanes, predicates and
s-registers, the register window, and NOP. First what the model's functions on 64-bit patterns are among the library's. -/

namespace Sys2Proof.Proofs

open Sys2Proof.Machine Sys2Proof.Claims Sys2Proof.Laws Sys2Proof.Laws.State

/-! ### High halves of products -/

/-- The high half of a signed product fits a register: the product lies within 2^126 of 0 (R156). -/
theorem toInt_mulHighS (x y : Reg) : (mulHighS x y).toInt = x.toInt * y.toInt / 2 ^ 64 := by
  have hlo : -2 ^ 126 ≤ x.toInt * y.toInt := BitVec.le_toInt_mul_toInt
  have hhi : x.toInt * y.toInt ≤ 2 ^ 126 := BitVec.toInt_mul_toInt_le
  exact BitVec.toInt_ofInt_eq_self (by decide) (by omega) (by omega)

theorem toNat_mulHighU (x y : Reg) : (mulHighU x y).toNat = x.toNat * y.toNat / 2 ^ 64 := by
  have hlt : x.toNat * y.toNat < 2 ^ 128 := BitVec.toNat_mul_toNat_lt
  rw [mulHighU, BitVec.toNat_ofNat, Nat.mod_eq_of_lt (by omega)]

/-- A signed product is its high half above 64 more bits (R156). -/
theorem mul_toInt_split (x y : Reg) : ∃ low : Nat, low < 2 ^ 64 ∧ x.toInt * y.toInt = (mulHighS x y).toInt * 2 ^ 64 + low := by
  rw [toInt_mulHighS]
  generalize x.toInt * y.toInt = p
  exact ⟨(p % 2 ^ 64).toNat, by omega, by omega⟩

theorem mul_toNat_split (x y : Reg) : ∃ low : Nat, low < 2 ^ 64 ∧ x.toNat * y.toNat = (mulHighU x y).toNat * 2 ^ 64 + low := by
  rw [toNat_mulHighU]
  exact ⟨x.toNat * y.toNat % 2 ^ 64, Nat.mod_lt _ (by decide), (Nat.div_add_mod' _ _).symm⟩

/-! ### Quotients and remainders -/

/-- Away from a divisor of 0 a signed quotient is the library's, in the overflow too (R157). -/
theorem divS_eq_sdiv {x y : Reg} (hy : y ≠ 0) : divS x y = x.sdiv y := by
  rw [divS, if_neg hy]
  exact BitVec.eq_of_toInt_eq ((BitVec.toInt_ofInt _).trans (BitVec.toInt_sdiv x y).symm)

/-- A signed remainder is the library's: it is smaller than its divisor, so it fits (R157). -/
theorem remS_eq_srem {x y : Reg} (hy : y ≠ 0) : remS x y = x.srem y := by
  rw [remS, if_neg hy, ← BitVec.toInt_srem]
  exact BitVec.ofInt_toInt

theorem divU_eq_udiv {x y : Reg} (hy : y ≠ 0) : divU x y = x / y := by
  rw [divU, if_neg hy, BitVec.udiv_def]

theorem remU_eq_umod {x y : Reg} (hy : y ≠ 0) : remU x y = x % y := by
  rw [remU, if_neg hy, BitVec.umod_def]

/-- Divided by zero, a number is its own remainder, and the quotient is all ones (R157). -/
theorem division_by_zero {x y : Reg} (hy : y = 0) : divS x y = BitVec.allOnes 64 ∧ remS x y = x := ⟨if_pos hy, if_pos hy⟩

theorem divisionU_by_zero {x y : Reg} (hy : y = 0) : divU x y = BitVec.allOnes 64 ∧ remU x y = x := ⟨if_pos hy, if_pos hy⟩

/-- The quotient that no register holds wraps, with nothing left over (R157). -/
theorem division_overflow {x y : Reg} (hx : x = BitVec.intMin 64) (hy : y = BitVec.allOnes 64) :
    divS x y = BitVec.intMin 64 ∧ remS x y = 0 := by
  subst hx hy
  decide

/-- Signed division rounds toward zero, and the remainder has the dividend's sign (R157). -/
theorem division_rounds {x y : Reg} (hy : y ≠ 0) (ho : ¬ (x = BitVec.intMin 64 ∧ y = BitVec.allOnes 64)) :
    x.toInt = (divS x y).toInt * y.toInt + (remS x y).toInt ∧ (remS x y).toInt.natAbs < y.toInt.natAbs ∧
      (0 ≤ x.toInt → 0 ≤ (remS x y).toInt) ∧ (x.toInt ≤ 0 → (remS x y).toInt ≤ 0) := by
  have hfits : x ≠ BitVec.intMin 64 ∨ y ≠ -1#64 := not_and_or.1 ho
  have hy' : y.toInt ≠ 0 := fun h => hy (BitVec.eq_of_toInt_eq h)
  rw [divS_eq_sdiv hy, remS_eq_srem hy, BitVec.toInt_sdiv_of_ne_or_ne x y hfits, BitVec.toInt_srem]
  refine ⟨(Int.tdiv_mul_add_tmod _ _).symm, ?_, fun hx => Int.tmod_nonneg _ hx, fun hx => ?_⟩
  · rw [Int.natAbs_tmod]
    exact Nat.mod_lt _ (Int.natAbs_pos.2 hy')
  · have hneg := Int.tmod_nonneg y.toInt (show 0 ≤ -x.toInt by omega)
    rw [Int.neg_tmod] at hneg
    omega

theorem divisionU_rounds {x y : Reg} (hy : y ≠ 0) :
    x.toNat = (divU x y).toNat * y.toNat + (remU x y).toNat ∧ (remU x y).toNat < y.toNat := by
  rw [divU_eq_udiv hy, remU_eq_umod hy, BitVec.toNat_udiv, BitVec.toNat_umod]
  exact ⟨(Nat.div_add_mod' _ _).symm, Nat.mod_lt _ (Nat.pos_of_ne_zero fun h => hy (BitVec.eq_of_toNat_eq h))⟩

/-! ### Differences, shifts, minima, maxima and compares -/

theorem ofNat_toNat_reg (x : Reg) : BitVec.ofNat 64 x.toNat = x := (BitVec.ofNat_toNat 64 x).trans (BitVec.setWidth_eq x)

theorem sub_eq_ofInt (x y : Reg) : x - y = BitVec.ofInt 64 ((x.toNat : Int) - y.toNat) := by
  rw [Int.sub_eq_add_neg, BitVec.ofInt_add, BitVec.ofInt_neg, BitVec.ofInt_natCast, BitVec.ofInt_natCast,
    ofNat_toNat_reg, ofNat_toNat_reg, BitVec.sub_eq_add_neg]

theorem mul_eq_ofNat (x y : Reg) : x * y = BitVec.ofNat 64 (x.toNat * y.toNat) := by
  rw [BitVec.ofNat_mul, ofNat_toNat_reg, ofNat_toNat_reg]

theorem add_immS (x : Reg) (i : BitVec 12) : x + immS i = BitVec.ofInt 64 (x.toInt + i.toInt) := by
  rw [BitVec.ofInt_add, BitVec.ofInt_toInt]
  rfl

/-- A left shift by any amount is the library's (R156). -/
theorem shl64_eq (x : Reg) (n : Nat) : shl64 x n = x <<< n := by
  refine BitVec.eq_of_toNat_eq ?_
  have hprod : shlBits 64 x.toNat n % 2 ^ 64 = x.toNat * 2 ^ n % 2 ^ 64 := by exact_mod_cast shlBits_emod 64 x.toNat n
  rw [BitVec.toNat_shiftLeft, Nat.shiftLeft_eq, ← hprod]
  rfl

theorem shr64_eq (x : Reg) (n : Nat) : shr64 x n = x >>> n := by
  rw [shr64, shrBits_eq n x.isLt, ← Nat.shiftRight_eq_div_pow, ← BitVec.toNat_ushiftRight, ofNat_toNat_reg]

theorem signedOf_toNat (x : Reg) : signedOf 64 x.toNat = x.toInt := by
  have hlt := x.isLt
  rw [signedOf, BitVec.toInt_eq_toNat_cond]
  omega

/-- An arithmetic right shift by any amount is the library's (R156). -/
theorem sar64_eq (x : Reg) (n : Nat) : sar64 x n = x.sshiftRight n := by
  rw [sar64, sarBits, signedOf_ediv_min, signedOf_toNat, ← BitVec.ofInt_natCast, wrapTo_cast, BitVec.sshiftRight,
    Int.shiftRight_eq_div_pow]
  refine BitVec.eq_of_toInt_eq ?_
  rw [BitVec.toInt_ofInt, BitVec.toInt_ofInt]
  exact Int.emod_bmod _ (2 ^ 64)

theorem minS_eq (x y : Reg) : minS x y = BitVec.ofInt 64 (min x.toInt y.toInt) := by
  rw [minS, min_def, apply_ite (BitVec.ofInt 64), BitVec.ofInt_toInt, BitVec.ofInt_toInt]

theorem maxS_eq (x y : Reg) : maxS x y = BitVec.ofInt 64 (max x.toInt y.toInt) := by
  rw [maxS, max_def, apply_ite (BitVec.ofInt 64), BitVec.ofInt_toInt, BitVec.ofInt_toInt]

theorem minU_eq (x y : Reg) : minU x y = BitVec.ofNat 64 (min x.toNat y.toNat) := by
  rw [minU, min_def, apply_ite (BitVec.ofNat 64), ofNat_toNat_reg, ofNat_toNat_reg]

theorem maxU_eq (x y : Reg) : maxU x y = BitVec.ofNat 64 (max x.toNat y.toNat) := by
  rw [maxU, max_def, apply_ite (BitVec.ofNat 64), ofNat_toNat_reg, ofNat_toNat_reg]

/-- What SCMP writes of two sources under a condition (R156). -/
def cmpBit (c : BitVec 4) (x y : Reg) : Reg := if scmpCond c x y then 1 else 0

theorem cmpBit_cases (c : BitVec 4) (x y : Reg) : cmpBit c x y = 0 ∨ cmpBit c x y = 1 := by
  unfold cmpBit
  split
  · exact .inr rfl
  · exact .inl rfl

/-- SCMP writes 1 where its condition holds (R156). -/
theorem cmpBit_eq_one {c : BitVec 4} {x y : Reg} {p : Prop} (hp : scmpCond c x y = true ↔ p) : cmpBit c x y = 1 ↔ p := by
  rw [← hp, cmpBit]
  cases scmpCond c x y with
  | true => exact iff_of_true rfl rfl
  | false => exact iff_of_false (by decide) Bool.false_ne_true

/-! ### Writing one s-register -/

section

variable {s₀ s : State} {i : Instr} {r : WRef} {g : Workgroup} {w : Warp} {d : BitVec 6} {z : Reg}

/-- An instruction that writes one s-register writes what its function gives of the warp (R50, R156). -/
theorem runSet_writes (h : Issues s₀ s i act r g w) (f : Warp → Reg) (hx : exec i s₀ = runSet s₀ i d f) (hz : f w = z) :
    WritesS s₀ s i r w d z :=
  writesS_of_retire h.lives (hx.trans ((issues_runUniform h _).trans (by rw [hz]; rfl)))

/-- The register forms, and the forms of one source, write their function of the sources (R156, R158). -/
theorem runAlu_writes (h : Issues s₀ s i act r g w) {a b : BitVec 6} (f : Reg → Reg → Reg)
    (hx : exec i s₀ = runAlu s₀ i d a b f) (hz : f (w.sget a.toNat) (w.sget b.toNat) = z) : WritesS s₀ s i r w d z :=
  runSet_writes h _ hx hz

theorem runAlu1_writes (h : Issues s₀ s i act r g w) {a : BitVec 6} (f : Reg → Reg)
    (hx : exec i s₀ = runAlu1 s₀ i d a f) (hz : f (w.sget a.toNat) = z) : WritesS s₀ s i r w d z :=
  runSet_writes h _ hx hz

end

/-! ### The obligations: arithmetic, division, logic and immediates -/

/-- Settles O1: each form writes its function of the sources, and a product is its high half above 64 more bits. -/
theorem uniformArithmetic : Obligations.UniformArithmetic := by
  unfold Obligations.UniformArithmetic
  intro s₀ s r g w d a b x y
  refine ⟨fun h => ?_, fun h => ?_, fun h => ?_, fun h => ?_, fun h => ?_⟩
  · exact runAlu_writes h (fun x y => x + y) rfl (BitVec.add_def x y)
  · exact runAlu_writes h (fun x y => x - y) rfl (sub_eq_ofInt x y)
  · exact runAlu_writes h (fun x y => x * y) rfl (mul_eq_ofNat x y)
  · obtain ⟨low, hlow, hsplit⟩ := mul_toInt_split x y
    exact ⟨mulHighS x y, low, hlow, hsplit, runAlu_writes h mulHighS rfl rfl⟩
  · obtain ⟨low, hlow, hsplit⟩ := mul_toNat_split x y
    exact ⟨mulHighU x y, low, hlow, hsplit, runAlu_writes h mulHighU rfl rfl⟩

/-- Settles O2: quotient and remainder are the library's away from a divisor of 0, and the edge cases stand in the model's. -/
theorem uniformDivision : Obligations.UniformDivision := by
  unfold Obligations.UniformDivision
  intro s₀ s r g w d a b x y
  refine ⟨fun hq hm => ?_, fun hq hm => ?_⟩
  · exact ⟨divS x y, remS x y, runAlu_writes hq divS rfl rfl, runAlu_writes hm remS rfl rfl, division_by_zero,
      division_overflow, division_rounds⟩
  · exact ⟨divU x y, remU x y, runAlu_writes hq divU rfl rfl, runAlu_writes hm remU rfl rfl, divisionU_by_zero,
      divisionU_rounds⟩

theorem uniformLogic_holds : Sys2Proof.Claims.uniformLogic := by
  intro s₀ s r g w d a b c x y
  refine ⟨fun h => ?_, fun h => ?_, fun h => ?_, fun h => ?_, fun h => ?_, fun h => ?_, fun h => ?_, fun h => ?_, fun h => ?_,
    fun h => ?_, fun h => ?_, fun h => ?_, fun h => ?_, fun h => ⟨cmpBit c x y, ?_, cmpBit_cases c x y, ?_⟩⟩
  · exact runAlu_writes h (fun x y => x &&& y) rfl rfl
  · exact runAlu_writes h (fun x y => x ||| y) rfl rfl
  · exact runAlu_writes h (fun x y => x ^^^ y) rfl rfl
  · exact runAlu1_writes h (fun x => ~~~x) rfl rfl
  · exact runAlu_writes h (fun x y => shl64 x y.toNat) rfl (shl64_eq x _)
  · exact runAlu_writes h (fun x y => shr64 x y.toNat) rfl (shr64_eq x _)
  · exact runAlu_writes h (fun x y => sar64 x y.toNat) rfl (sar64_eq x _)
  · exact runAlu_writes h minS rfl (minS_eq x y)
  · exact runAlu_writes h maxS rfl (maxS_eq x y)
  · exact runAlu_writes h minU rfl (minU_eq x y)
  · exact runAlu_writes h maxU rfl (maxU_eq x y)
  · exact runSet_writes h (fun w => if w.sget d.toNat ≠ 0 then w.sget a.toNat else w.sget b.toNat) rfl (ite_not ..)
  · exact runAlu1_writes h id rfl rfl
  · exact runAlu_writes h (cmpBit c) rfl rfl
  · and_intros
    all_goals
      rintro rfl
      exact cmpBit_eq_one decide_eq_true_iff

theorem uniformImmediates_hold : Sys2Proof.Claims.uniformImmediates := by
  intro s₀ s r g w d a i j x
  refine ⟨fun h => ?_, fun h => ?_, fun h => ?_, fun h => ?_, fun h => ?_, fun h => ?_, fun h => ?_, fun h => ?_⟩
  · exact runSet_writes h (fun _ => j.signExtend 64) rfl rfl
  · exact runAlu1_writes h (fun x => x + immS i) rfl (add_immS x i)
  · exact runAlu1_writes h (fun x => x &&& immS i) rfl rfl
  · exact runAlu1_writes h (fun x => x ||| immS i) rfl rfl
  · exact runAlu1_writes h (fun x => x ^^^ immS i) rfl rfl
  · exact runAlu1_writes h (fun x => shl64 x (immU i)) rfl (shl64_eq x _)
  · exact runAlu1_writes h (fun x => shr64 x (immU i)) rfl (shr64_eq x _)
  · exact runAlu1_writes h (fun x => sar64 x (immU i)) rfl (sar64_eq x _)

/-- Settles O3: each form writes its function of the sources, and the model's shifts, minima and maxima are the library's. -/
theorem uniformLogicAndImmediates : Obligations.UniformLogicAndImmediates := by
  unfold Obligations.UniformLogicAndImmediates
  exact ⟨uniformLogic_holds, uniformImmediates_hold⟩

/-! ### Moves -/

section

variable {s₀ s : State} {r : WRef} {g : Workgroup} {w : Warp}

/-- SLANE writes the operand's value in its lane (R160). -/
theorem slane_writes {d : BitVec 6} {v : BitVec 7} {l : BitVec 5} (h : Issues s₀ s (.slane d v l) act r g w) :
    WritesS s₀ s (.slane d v l) r w d ((opdOf v).val w [] l.toNat) := by
  refine writesS_of_retire (g := g) h.lives ?_
  show execSlane d v l s₀ = _
  rw [execSlane, issues_runNamed h]

/-- SRD writes the special register's value, read once the granules are present (R271). -/
theorem srd_writes {d n : BitVec 6} (h : Issues s₀ s (.srd d n) act r g w) :
    WritesS s₀ s (.srd d n) r w d (specialRead (s.setWarp r w) r (g.setWarp r.wp w) w n.toNat 0) := by
  refine writesS_of_retire (g := g) h.lives ?_
  show execSrd d n s₀ = _
  rw [execSrd, issues_runNamed h]

/-- SPRED.SET names no p0 (R21). -/
theorem spredSet_ne_zero {a : BitVec 6} {k : BitVec 3} (h : Issues s₀ s (.spredSet a k) act r g w) : k.toNat ≠ 0 := by
  obtain ⟨_, -, hlegal, -, -⟩ := h.word
  simp only [Bool.and_eq_true] at hlegal
  obtain ⟨⟨hk, -⟩, -⟩ := hlegal
  exact fun h => of_decide_eq_true hk (BitVec.eq_of_toNat_eq h)

/-- Going on leaves the registers, and moves the same whatever they hold. -/
theorem goneOn_regs (n : Nat) (w : Warp) (x : WarpRegs) : goneOn n { w with r := x } = { goneOn n w with r := x } := by
  simp only [goneOn, advance_regs]

@[simp] theorem goneOn_pget (n : Nat) (w : Warp) (k : Nat) : (goneOn n w).pget k = w.pget k := advance_pget w k

/-- SPRED.SET retires with its predicate written (R161). -/
theorem spredSet_retires {a : BitVec 6} {k : BitVec 3} (h : Issues s₀ s (.spredSet a k) act r g w) :
    exec (.spredSet a k) s₀ = .next (retiredAs s r (goneOn s.issues (w.pset k.toNat ((w.sget a.toNat).setWidth 32)))) :=
  runUniform_ok h rfl id h.lives

/-- XWIN sets the window that its value names, where that lies below the allocation (R19, R179). -/
theorem xwin_sets {a : BitVec 6} (h : Issues s₀ s (.xwin a) act r g w) (hhigh : fieldOf (w.sget a.toNat) 16 48 = 0)
    (hlen : 0 < fieldOf (w.sget a.toNat) 8 8)
    (hfits : fieldOf (w.sget a.toNat) 0 8 + fieldOf (w.sget a.toNat) 8 8 ≤ w.r.alloc) :
    exec (.xwin a) s₀ = .next (retiredAs s r (goneOn s.issues
      { w with r := { w.r with winBase := fieldOf (w.sget a.toNat) 0 8, winLen := fieldOf (w.sget a.toNat) 8 8 } })) :=
  runUniform_ok h (if_neg (by omega)) id h.lives

/-- XWIN traps on a value that names no window (R19, R179). -/
theorem xwin_traps {a : BitVec 6} (h : Issues s₀ s (.xwin a) act r g w)
    (hbad : fieldOf (w.sget a.toNat) 16 48 ≠ 0 ∨ fieldOf (w.sget a.toNat) 8 8 = 0 ∨
      w.r.alloc < fieldOf (w.sget a.toNat) 0 8 + fieldOf (w.sget a.toNat) 8 8) :
    exec (.xwin a) s₀ = .next (preciseTrap ((s.setWarp r w).setWarp r w) r w 0x01) :=
  runUniform_trap h (if_pos hbad)

end

/-- Settles O4: each instruction answers as its meaning on the warp says; XWIN by whether its value names a window. -/
theorem uniformMoves : Obligations.UniformMoves := by
  unfold Obligations.UniformMoves
  intro s₀ s r g w d a n v l k x
  refine ⟨fun h => ⟨_, slane_writes h, fun hv => ?_, ?_, ?_⟩,
    fun h => ⟨_, runSet_writes h (fun w => (w.pget k.toNat).setWidth 64) rfl rfl, ?_, fun _ => rfl⟩,
    fun h => runSet_writes h (fun w => w.active.setWidth 64) rfl rfl,
    fun h => ⟨_, spredSet_retires h, ?_, fun j hj => ?_, ?_⟩, srd_writes,
    fun h => ⟨xwin_sets h, xwin_traps h⟩⟩
  · rw [opdOf, if_pos hv]
    rfl
  · rintro rfl
    rfl
  · rintro rfl
    rfl
  · rintro rfl
    rfl
  · exact (goneOn_pget ..).trans (pget_pset_same _ _ _ (spredSet_ne_zero h))
  · exact (goneOn_pget ..).trans (pget_pset_other _ _ _ _ hj)
  · simp only [Warp.pset, goneOn_regs]

/-! ### NOP -/

/-- The rows of NOP's major leave no bit of the body free, and all are 0 (R72, R165). -/
theorem nopRow_fits {q : OpRow} (hq : q ∈ opRows) {body : BitVec 24} (hf : q.fits 0x98#8 body = true) : body = 0 := by
  have hrows : opRows.all (fun q => q.major != 0x98#8 || (q.mask == 0xFFFFFF#24 && q.pat == 0)) = true := by decide +kernel
  simp only [OpRow.fits, Bool.and_eq_true, beq_iff_eq] at hf
  obtain ⟨hm, hp⟩ := hf
  have hrow := List.all_eq_true.1 hrows q hq
  simp only [hm, bne_self_eq_false, Bool.false_or, Bool.and_eq_true, beq_iff_eq] at hrow
  obtain ⟨hmask, hpat⟩ := hrow
  rw [hmask, hpat] at hp
  exact (BitVec.and_allOnes : body &&& 0xFFFFFF#24 = body).symm.trans hp

/-- A word of NOP's major is NOP or nothing (R165). -/
theorem decode_nopMajor (body : BitVec 24) : decode (0x98#8 ++ body) = if body = 0 then some .nop else none := by
  split
  · next hzero =>
    subst hzero
    decide +kernel
  · next hother =>
    have hm : (0x98#8 ++ body).extractLsb' 24 8 = 0x98#8 := BitVec.extractLsb'_append_eq_left
    have hb : (0x98#8 ++ body).extractLsb' 0 24 = body := BitVec.extractLsb'_append_eq_right
    rw [decode, hm, hb, Option.eq_none_iff_forall_ne_some]
    intro i hi
    obtain ⟨q, hq, hf, -⟩ := fits_of_decodeIn hi
    exact hother (nopRow_fits hq hf)

/-- What NOP's word issues to: the uniform set's pipe (R46, R49). -/
theorem fitsPipe_uniform (pipe : Nat) : fitsPipe pipe (some false) = true ↔ 2 ≤ pipe := by
  rw [fitsPipe, beq_iff_eq, eq_comm, decide_eq_false_iff_not, Nat.not_lt]

/-- Settles O5: NOP retires as its empty meaning says, its word has bit 31 set, and its major has one row, of no free bit. -/
theorem nopDoesNothing : Obligations.NopDoesNothing := by
  unfold Obligations.NopDoesNothing
  exact ⟨fun s₀ s r g w h => runUniform_ok h rfl id h.lives, fitsPipe_uniform, decode_nopMajor⟩

end Sys2Proof.Proofs

/-! PROOFS of the family of memory access: atomics, the checks of an access, uniform and lane accesses, what loads and stores leave in
a tile and in memory, fences, and ordering objects. What the channel and a tile's lines do stands once, as equations of the state
after a write-back, an invalidation and the making of room. -/

namespace Sys2Proof.Proofs

open Sys2Proof.Machine Sys2Proof.Claims Sys2Proof.Laws Sys2Proof.Laws.State

/-! ### Operations of atomics -/

/-- The two's complement reading of a number is that of its bit vector (R81). -/
theorem signedOf_eq_toInt {w : Nat} (hw : 0 < w) (x : Nat) : signedOf w x = (BitVec.ofNat w x).toInt := by
  have hdouble : 2 ^ w = 2 * 2 ^ (w - 1) := by rw [← Nat.pow_succ', Nat.succ_eq_add_one, Nat.sub_add_cancel hw]
  have hhalf : x % 2 ^ w < 2 ^ (w - 1) ↔ 2 * (x % 2 ^ w) < 2 ^ w := by omega
  simp only [signedOf, BitVec.toInt_eq_toNat_cond, BitVec.toNat_ofNat, if_neg (Nat.pos_iff_ne_zero.1 hw), if_congr hhalf rfl rfl]
  push_cast
  rfl

/-- The signed minimum and maximum of a location and an operand (R190). -/
theorem toInt_signed_extremes {w : Nat} (hw : 0 < w) (x v : Nat) :
    (BitVec.ofNat w (atomNew 1 w x v)).toInt = min (BitVec.ofNat w x).toInt (BitVec.ofNat w v).toInt ∧
    (BitVec.ofNat w (atomNew 2 w x v)).toInt = max (BitVec.ofNat w x).toInt (BitVec.ofNat w v).toInt := by
  have hmin : atomNew 1 w x v = if signedOf w x ≤ signedOf w v then x else v := rfl
  have hmax : atomNew 2 w x v = if signedOf w x ≤ signedOf w v then v else x := rfl
  rw [hmin, hmax, signedOf_eq_toInt hw, signedOf_eq_toInt hw]
  split
  · next hle => exact ⟨(min_eq_left hle).symm, (max_eq_right hle).symm⟩
  · next hlt => exact ⟨(min_eq_right (not_le.1 hlt).le).symm, (max_eq_left (not_le.1 hlt).le).symm⟩

/-- Settles O23: each operation is the library's on bit vectors, on numbers, or the model's floating sum. -/
theorem atomicOperations : Obligations.AtomicOperations := by
  unfold Obligations.AtomicOperations
  intro w x v hw hx hv old arg new
  obtain ⟨hmin, hmax⟩ := toInt_signed_extremes hw x v
  refine ⟨?_, hmin, hmax, rfl, rfl, ?_, ?_, ?_, rfl, rfl, rfl, rfl⟩
  · exact BitVec.eq_of_toNat_eq (by simp [new, atomNew, old, arg])
  · exact BitVec.ofNat_and
  · exact BitVec.ofNat_or
  · exact BitVec.ofNat_xor

/-! ### The checks of an access -/

section

variable {s : State} {g : Workgroup} {w : Warp} {a : Acc} {addr : Int} {z : Nat}

theorem checkAccess_outside (h : addr < 0 ∨ 2 ^ 48 ≤ addr) : checkAccess s g w a addr z = (s, .bad 1) := if_pos h

theorem checkAccess_misaligned (h0 : 0 ≤ addr) (h48 : addr < 2 ^ 48) (hz : addr.toNat % z ≠ 0) :
    checkAccess s g w a addr z = (s, .bad 2) :=
  (if_neg (by omega)).trans (if_pos hz)

theorem checkAccess_held (h0 : 0 ≤ addr) (h48 : addr < 2 ^ 48) (hz : addr.toNat % z = 0)
    (hh : walkHeld s g.tile g.slot addr.toNat = true) : checkAccess s g w a addr z = (s, .miss (addr.toNat / 4096)) :=
  (if_neg (by omega)).trans ((if_neg (not_not.2 hz)).trans (if_pos hh))

/-- What the checks make of the answer of translation: a miss of a page that the management cores refused is unmapped (R184, R434). -/
def lookedUp (w : Warp) (va : Nat) : XRes → LaneAcc
  | .ok y => .ok y
  | .err k => .bad k
  | .miss => if w.nones.contains (va / 4096) then .bad 3 else .miss (va / 4096)

theorem checkAccess_translates (h0 : 0 ≤ addr) (h48 : addr < 2 ^ 48) (hz : addr.toNat % z = 0)
    (hh : walkHeld s g.tile g.slot addr.toNat = false) : checkAccess s g w a addr z =
      ((translate s g.tile g.slot addr.toNat a).1, lookedUp w addr.toNat (translate s g.tile g.slot addr.toNat a).2) := by
  have hin : ¬ (addr < 0 ∨ addr ≥ 2 ^ 48) := by omega
  simp only [checkAccess, if_neg hin, if_neg (not_not.2 hz), hh, Bool.false_eq_true, if_false]
  cases (translate s g.tile g.slot addr.toNat a).2 <;> rfl

end

/-! ### Translation by the range entries -/

section

variable {s : State}

/-- A line read changes merge points alone (R288). -/
theorem mergeRead_frame (s : State) (t line : Nat) : ∃ W, mergeRead s t line = { s with wadi := W } := by
  simp only [mergeRead, mergeFor, Option.isSome_none, Bool.and_false, Bool.false_eq_true, if_false]
  split
  · exact ⟨_, rfl⟩
  · exact ⟨_, rfl⟩

theorem mergeRead_mem (s : State) (t line : Nat) : (mergeRead s t line).mem = s.mem := by
  obtain ⟨W, hW⟩ := mergeRead_frame s t line
  rw [hW]

theorem readLines_mem (s : State) (t : Nat) (l : List Nat) : (readLines s t l).mem = s.mem :=
  foldl_keeps (p := State.mem) (fun s line => mergeRead_mem s t line) l s

/-- Range entries that can be read are the tile's copy or the table's, and reading them changes no memory (R300, R301). -/
theorem loadRanges_some {t asid rtab : Nat} {s1 : State} {es : List (BitVec 256)} (h : loadRanges s t asid rtab = (s1, some es)) :
    s1.mem = s.mem ∧ es = tileRanges s t asid rtab := by
  cases hf : Table.find (s.tile t).ranges asid with
  | some held =>
    simp only [loadRanges, hf, Prod.mk.injEq, Option.some.injEq] at h
    obtain ⟨rfl, rfl⟩ := h
    exact ⟨rfl, by simp only [tileRanges, hf]⟩
  | none =>
    simp only [loadRanges, hf] at h
    simp only [tileRanges, hf]
    split at h
    · simp at h
    · split at h <;>
      · simp only [Prod.mk.injEq, Option.some.injEq] at h
        obtain ⟨rfl, rfl⟩ := h
        exact ⟨readLines_mem _ _ _, rfl⟩

theorem translate_unread {t slot va : Nat} {a : Acc} {s1 : State}
    (h : loadRanges s t (s.slot slot).asid ((s.slot slot).rtab * 2048) = (s1, none)) :
    Machine.translate s t slot va a = (s1, .err 6) := by
  simp only [Machine.translate, h]

theorem translate_range {t slot va k : Nat} {a : Acc} {s1 : State} {es : List (BitVec 256)} {e : BitVec 256}
    (h : loadRanges s t (s.slot slot).asid ((s.slot slot).rtab * 2048) = (s1, some es)) (hf : findRange es va 0 = some (k, e)) :
    Machine.translate s t slot va a =
      (s1, if s1.removed (s.slot slot).asid (rangePa a e va) then .miss else rangeXlate s1 a k e va) := by
  simp only [Machine.translate, h, hf, keepMapped]

end

/-- Settles O21: each clause is what the checks, or translation by the range entries, answer in its case. -/
theorem accessChecks : Obligations.AccessChecks := by
  unfold Obligations.AccessChecks
  intro s g w a addr z r c
  refine ⟨checkAccess_outside, checkAccess_misaligned, checkAccess_held, ?_, fun s1 h va => translate_unread h, ?_, ?_⟩
  · intro h0 h48 hz hh s1 x ht
    have hr : r = (s1, lookedUp w addr.toNat x) := by
      simp only [r, checkAccess_translates h0 h48 hz hh, ht]
    rw [hr]
    exact ⟨rfl, by cases x <;> rfl⟩
  · intro s1 es h
    obtain ⟨hmem, hes⟩ := loadRanges_some h
    exact ⟨hmem, hes, fun k e va hf => translate_range h hf⟩
  · intro rd wr x
    cases a <;> rfl

/-! ### Uniform accesses -/

section

variable {s₀ s s1 : State} {i : Instr} {r : WRef} {g : Workgroup} {w : Warp} {fs : BitVec 1} {a : Acc} {z typ : Nat} {d : List Nat}
  {addrOf : Warp → Int} {f : State → Workgroup → Warp → Xlated → State × Nat × Bool} {put : Warp → Nat → Warp} {store : Bool}

/-- A load whose checks pass is performed and retires as a long-latency instruction; its value is lost where its data came with an
error (R54, R194, R196). -/
theorem runUniMem_loads (h : Issues s₀ s i act r g w) (he : exec i s₀ = runUniMem s₀ i fs a z typ d addrOf f put false)
    {x : Xlated} {s2 : State} {v : Nat} {e : Bool}
    (hc : checkAccess (s.setWarp r w) (g.setWarp r.wp w) w a (addrOf w) z = (s1, .ok x))
    (hf : f s1 (g.setWarp r.wp w) w x = (s2, v, e)) :
    exec i s₀ = .next (retireLong s2 r (g.setWarp r.wp w) w (if e then w else put w v) (w.flagOf fs) [] d []
      (if e then [uniRecord w (addrOf w) 6 typ] else []) (farRecords w typ [(32, addrOf w, .ok x)]) (a == .load)) := by
  simp only [he, runUniMem, issues_runNamed h, uniformAccess, hc, hf, Bool.false_eq_true, if_false]

/-- A store or atomic whose checks pass and whose data has no error is performed, and is noted in its warp (R54, R194, R196, R204). -/
theorem runUniMem_stores (h : Issues s₀ s i act r g w) (he : exec i s₀ = runUniMem s₀ i fs a z typ d addrOf f put true)
    {x : Xlated} {s2 : State} {v : Nat}
    (hc : checkAccess (s.setWarp r w) (g.setWarp r.wp w) w a (addrOf w) z = (s1, .ok x))
    (hf : f s1 (g.setWarp r.wp w) w x = (s2, v, false)) :
    exec i s₀ = .next (retireLong s2 r (g.setWarp r.wp w) w ((put w v).noteStores (a == .store) z [(32, addrOf w, .ok x)])
      (w.flagOf fs) [] d [] [] (farRecords w typ [(32, addrOf w, .ok x)]) (a == .load)) := by
  simp only [he, runUniMem, issues_runNamed h, uniformAccess, hc, hf, Bool.false_eq_true, if_false, if_true]

/-- One whose checks fail has no effect: a miss parks the warp, another failure gives the uniform record (R184, R194, R434). -/
theorem runUniMem_stops (h : Issues s₀ s i act r g w) (he : exec i s₀ = runUniMem s₀ i fs a z typ d addrOf f put store) :
    (∀ p, checkAccess (s.setWarp r w) (g.setWarp r.wp w) w a (addrOf w) z = (s1, .miss p) →
      exec i s₀ = .next (parkOn s1 r (g.setWarp r.wp w) w a [p])) ∧
    (∀ k, checkAccess (s.setWarp r w) (g.setWarp r.wp w) w a (addrOf w) z = (s1, .bad k) →
      exec i s₀ = .next (retireLong s1 r (g.setWarp r.wp w) w w (w.flagOf fs) [] [] [uniRecord w (addrOf w) k typ] [] [] false)) := by
  constructor <;>
  · intro k hc
    simp only [he, runUniMem, issues_runNamed h, uniformAccess, hc]

end

/-- A size that SIZE names fits a TYPE and a register (R196, R425). -/
theorem sizeOf_bounds (z : BitVec 2) : 0 < 2 ^ z.toNat ∧ 2 ^ z.toNat ≤ 8 := by
  revert z
  decide

theorem atomSize_eq (o : BitVec 4) : atomSize o = if o = 0xA then 4 else if o = 0xB then 2 else 8 := by
  revert o
  decide

/-- A loaded value extended by its sign has the value of its bytes (R196). -/
theorem toInt_extendTo_signed {n : Nat} (h0 : 0 < n) (h8 : n ≤ 8) (v : Nat) :
    (extendTo n true v).toInt = (BitVec.ofNat (8 * n) v).toInt := by
  have hext : extendTo n true v = (BitVec.ofNat (8 * n) v).signExtend 64 := by
    rw [extendTo, if_pos rfl, regOf, signedOf_eq_toInt (by omega)]
    rfl
  rw [hext, BitVec.toInt_signExtend_of_le (by omega)]

/-! The uniform accesses as their runner runs them, with the TYPE of their records (R425). -/

theorem exec_sld (d a : BitVec 6) (f n : BitVec 1) (z : BitVec 2) (o : BitVec 8) (s : State) : exec (.sld d a f z n o) s =
    runUniMem s (.sld d a f z n o) f .load (2 ^ z.toNat) (2 ^ z.toNat) [d.toNat]
      (fun w => (w.sget a.toNat).toNat + o.toInt * (2 ^ z.toNat : Nat))
      (fun s g _ x => tileLoad s g.tile (s.asidOf g) x (2 ^ z.toNat))
      (fun w v => w.sset d.toNat (extendTo (2 ^ z.toNat) (n == 1) v)) false := by
  have ht : typeOf 0 (sizeOf_ z) = 2 ^ z.toNat := by revert z; decide
  show execSld .. = _
  rw [execSld, ht]
  rfl

theorem exec_sst (d a : BitVec 6) (f : BitVec 1) (z : BitVec 2) (o : BitVec 8) (s : State) : exec (.sst d a f z o) s =
    runUniMem s (.sst d a f z o) f .store (2 ^ z.toNat) (32 + 2 ^ z.toNat) []
      (fun w => (w.sget a.toNat).toNat + o.toInt * (2 ^ z.toNat : Nat))
      (fun s g w x => (tileStore s g.tile (s.asidOf g) x (2 ^ z.toNat) (lowBytes (2 ^ z.toNat) (w.sget d.toNat)), 0, false))
      (fun w _ => w) true := by
  have ht : typeOf 1 (sizeOf_ z) = 32 + 2 ^ z.toNat := by revert z; decide
  show execSst .. = _
  rw [execSst, ht]
  rfl

theorem exec_satom (d a b : BitVec 6) (f : BitVec 1) (o : BitVec 4) {n : Nat} (hn : atomSize o = n) (s : State) :
    exec (.satom d a b f o) s = runUniMem s (.satom d a b f o) f .atomic n (64 + n) [d.toNat] (fun w => (w.sget a.toNat).toNat)
      (fun s g w x => chanAtomic s g.tile x.pa n (fun old => atomNew o (8 * n) old (lowBytes n (w.sget b.toNat))))
      (fun w v => w.sset d.toNat (BitVec.ofNat 64 v)) true := by
  subst hn
  have ht : typeOf 2 (atomSize o) = 64 + atomSize o := by revert o; decide
  show execSatom .. = _
  rw [execSatom, ht]

theorem exec_scas (d a b : BitVec 6) (f : BitVec 1) (s : State) : exec (.scas d a b f) s =
    runUniMem s (.scas d a b f) f .atomic 8 (64 + 8) [d.toNat] (fun w => (w.sget a.toNat).toNat)
      (fun s g w x => chanAtomic s g.tile x.pa 8
        (fun old => if old = (w.sget d.toNat).toNat then (w.sget b.toNat).toNat else old))
      (fun w v => w.sset d.toNat (BitVec.ofNat 64 v)) true := rfl

/-- Settles O20: each instruction is its uniform access, by what the checks answer. -/
theorem uniformMemory : Obligations.UniformMemory := by
  unfold Obligations.UniformMemory
  intro s₀ s r g w d a b f n z o op s1 g0 base size addr check completes sld stops asize
  obtain ⟨hsize0, hsize8⟩ : 0 < size ∧ size ≤ 8 := sizeOf_bounds z
  have hasize : atomSize op = asize := atomSize_eq op
  refine ⟨fun h => ⟨fun x s2 v e hc ht => ⟨extendTo size (n == 1) v, ?_, fun hn => ?_, fun hn => ?_⟩, ?_⟩,
    fun h => ?_, fun h => ?_, fun h => ?_, fun h x hc => ?_, fun h x s2 v hc ht => ?_, fun h x s2 v hc ht => ?_⟩
  · exact runUniMem_loads h (exec_sld ..) hc ht
  · subst hn
    rfl
  · subst hn
    exact toInt_extendTo_signed hsize0 hsize8 v
  · exact runUniMem_stops h (exec_sld ..)
  · exact runUniMem_stops h (exec_sst ..)
  · exact runUniMem_stops h (exec_satom _ _ _ _ _ hasize _)
  · exact runUniMem_stops h (exec_scas ..)
  · have hf : (tileStore s1 g.tile (s1.asidOf g0) x size (lowBytes size (w.sget d.toNat)), 0, false) = (_, 0, false) := rfl
    exact runUniMem_stores h (exec_sst ..) hc hf
  · exact runUniMem_stores h (exec_satom _ _ _ _ _ hasize _) hc ht
  · exact runUniMem_stores h (exec_scas ..) hc ht

/-! ### Lane accesses to global memory -/

section

variable {c : MemRun} {i : Instr} {codes : List (BitVec 7)} {b : BitVec 7} {scale : Nat} {off : Int} {data : Warp → Mask → Bool}

/-- A memory instruction of the lanes that reaches step 4 of R114 runs what it does with its addresses. -/
theorem reaches_runMem (h : c.Reaches i codes b scale off data)
    (k : State → WRef → Workgroup → Warp → Warp → Mask → LaneAddrs → State) :
    runMem c.s₀ i codes b scale off data k = .next (k (c.s.setWarp c.r c.w) c.r c.wgp c.w c.u c.m c.addrs) := by
  obtain ⟨w0, hc, hl, hs, hf⟩ := h.word
  rw [runMem, runNamed_next _ hc hl hs hf]
  dsimp only
  rw [← h.lanes, ← h.warp, if_pos h.tags, ← h.addrs]
  rfl

variable {α : Type} {a : Acc} {z typ : Nat} {k : Warp → Nat} {vregs : Warp → Mask → List Nat}
  {f : Workgroup → Warp → State → Nat → Xlated → State × α × Bool}
  {put : Warp → Mask → List (Nat × Int × LaneAcc) → List (Nat × α × Bool) → Warp}

/-- Where a page of its lanes misses it parks (R185). -/
theorem parksOn_of_global (h : c.Reaches i codes b scale off data) (he : exec i c.s₀ = runMem c.s₀ i codes b scale off data
    (fun s r g w0 w m addrs => globalLanes s r g w0 w a z (k w) typ (vregs w m) addrs (f g w) (put w m))) : c.ParksOn i a z := by
  intro p ps hc hm
  simp only [he, reaches_runMem h, globalLanes, hc, hm]

/-- Where none does its accesses are performed in ascending lane order, and it retires on its flag (R54, R182, R185). -/
theorem completes_of_global (h : c.Reaches i codes b scale off data) (he : exec i c.s₀ = runMem c.s₀ i codes b scale off data
    (fun s r g w0 w m addrs => globalLanes s r g w0 w a z (k w) typ (vregs w m) addrs (f g w) (put w m))) (hc : c.Checked a z)
    {s2 : State} {vs : List (Nat × α × Bool)} (hv : eachLane (f c.wgp c.u) c.s1 c.cs = (s2, vs)) :
    c.Completes i typ (k c.u) (vregs c.u c.m) s2 vs (put c.u c.m c.cs vs) (a == .load) := by
  obtain ⟨hall, hmiss⟩ := hc
  simp only [MemRun.Completes, he, reaches_runMem h, globalLanes, hall, hmiss, hv]

end

/-! The lanes' accesses as their runner runs them, with the TYPE of their records (R425). -/

theorem typeOf_fmt (k : Nat) (t : BitVec 5) : typeOf k t.toNat = k * 32 + t.toNat := by rw [typeOf, Nat.mod_eq_of_lt t.isLt]

/-- The warp of a load is the only one in which each lane that received a value holds it. -/
theorem loaded_iff (c : MemRun) (d : BitVec 7) (t : BitVec 5) (vs : List (Nat × Nat × Bool)) (x : Warp) :
    c.Loaded d t vs x ↔ x = putLoaded c.u (opdOf d) t c.m vs := by
  constructor
  · rintro ⟨new, rfl, hnew⟩
    rw [putLoaded, funext hnew]
  · exact fun h => ⟨_, h, fun _ => rfl⟩

/-- A format whose compare and swap packs both values into a lane is 32 bits wide, one that takes two registers 64 (R193). -/
theorem fmtWidth_cas {t : BitVec 5} : (t.toNat = 0x05 ∨ t.toNat = 0x06 → fmtWidth t = 32) ∧
    (t.toNat = 0x07 ∨ t.toNat = 0x08 → fmtWidth t = 64) := by
  revert t
  decide

theorem exec_vld (d b : BitVec 7) (t : BitVec 5) (f : BitVec 1) (o : BitVec 4) (s : State) : exec (.vld d b t f o) s =
    runMem s (.vld d b t f o) [d, b] b (fmtWidth t / 8) o.toInt (fun _ _ => true) (fun s r g w0 w m addrs =>
      globalLanes s r g w0 w .load (fmtWidth t / 8) (w.flagOf f) t.toNat ((opdOf d).names w m) addrs
        (fun s _ x => tileLoad s g.tile (s.asidOf g) x (fmtWidth t / 8)) (fun _ vs => putLoaded w (opdOf d) t m vs)) := by
  show execVld .. = _
  rw [execVld, typeOf_fmt, Nat.zero_mul, Nat.zero_add]

theorem exec_vst (d b : BitVec 7) (t : BitVec 5) (f : BitVec 1) (o : BitVec 4) (s : State) : exec (.vst d b t f o) s =
    runMem s (.vst d b t f o) [d, b] b (fmtWidth t / 8) o.toInt (fun w m => dataTagOk w m (opdOf d) t true)
      (fun s r g w0 w _ addrs => globalLanes s r g w0 w .store (fmtWidth t / 8) (w.flagOf f) (32 + t.toNat) [] addrs
        (fun s l x => (tileStore s g.tile (s.asidOf g) x (fmtWidth t / 8)
          (lowBytes (fmtWidth t / 8) ((opdOf d).val w [] l)), (), false))
        (fun cs _ => w.noteStores true (fmtWidth t / 8) cs)) := by
  show execVst .. = _
  rw [execVst, typeOf_fmt]

theorem exec_vatom (d b : BitVec 7) (t : BitVec 5) (f : BitVec 1) (o : BitVec 4) (s : State) : exec (.vatom d b t f o) s =
    runMem s (.vatom d b t f o) [d, b] b (fmtWidth t / 8) 0 (fun w m => dataTagOk w m (opdOf d) t false)
      (fun s r g w0 w m addrs =>
        globalLanes s r g w0 w .atomic (fmtWidth t / 8) (w.flagOf f) (64 + t.toNat) ((opdOf d).names w m) addrs
          (fun s l x => chanAtomic s g.tile x.pa (fmtWidth t / 8) (fun old => atomNew o (8 * (fmtWidth t / 8)) old
            (lowBytes (fmtWidth t / 8) ((opdOf d).val w [] l))))
          (fun cs vs => (putLoaded w (opdOf d) t m vs).noteStores false (fmtWidth t / 8) cs)) := by
  show execVatom .. = _
  rw [execVatom, typeOf_fmt]

/-- The data of a compare and swap fits its format, in both registers of a 64-bit one (R193). -/
def casData (d : BitVec 7) (t : BitVec 5) (w : Warp) (m : Mask) : Bool :=
  dataTagOk w m (opdOf d) t false && (fmtWidth t == 32 || (w.vget (d.toNat + 1)).tag == t)

theorem exec_vcas (d b : BitVec 7) (t : BitVec 5) (f : BitVec 1) (o : BitVec 4) (s : State) : exec (.vcas d b t f o) s =
    runMem s (.vcas d b t f o) [d, b] b (fmtWidth t / 8) o.toInt (casData d t) (fun s r g w0 w m addrs =>
      globalLanes s r g w0 w .atomic (fmtWidth t / 8) (w.flagOf f) (64 + t.toNat)
        ((opdOf d).names w m ++ if fmtWidth t = 64 then [d.toNat + 1] else []) addrs
        (fun s l x => chanAtomic s g.tile x.pa (fmtWidth t / 8)
          (fun old => if old = (casPair w d t l).1 then (casPair w d t l).2 else old))
        (fun cs vs => (putCas w d t m vs).noteStores false (fmtWidth t / 8) cs)) := by
  show execVcas .. = _
  rw [execVcas, typeOf_fmt]
  rfl

section

variable {c : MemRun} {d b : BitVec 7} {t : BitVec 5} {f : BitVec 1} {o : BitVec 4} {s2 : State} {vs : List (Nat × Nat × Bool)}

theorem vld_completes (h : c.Reaches (.vld d b t f o) [d, b] b (fmtWidth t / 8) o.toInt (fun _ _ => true))
    (hc : c.Checked .load (fmtWidth t / 8))
    (hv : eachLane (fun s _ y => tileLoad s c.g.tile (c.asid s) y (fmtWidth t / 8)) c.s1 c.cs = (s2, vs)) {x : Warp}
    (hx : c.Loaded d t vs x) :
    c.Completes (.vld d b t f o) t.toNat (c.u.flagOf f) ((opdOf d).names c.u c.m) s2 vs x true := by
  rw [(loaded_iff ..).1 hx]
  exact completes_of_global h (exec_vld ..) hc hv

theorem vatom_completes
    (h : c.Reaches (.vatom d b t f o) [d, b] b (fmtWidth t / 8) 0 (fun w m => dataTagOk w m (opdOf d) t false))
    (hc : c.Checked .atomic (fmtWidth t / 8))
    (hv : eachLane (fun s l y => chanAtomic s c.g.tile y.pa (fmtWidth t / 8) (fun old => atomNew o (8 * (fmtWidth t / 8)) old
      (lowBytes (fmtWidth t / 8) ((opdOf d).val c.u [] l)))) c.s1 c.cs = (s2, vs)) {x : Warp} (hx : c.Loaded d t vs x) :
    c.Completes (.vatom d b t f o) (64 + t.toNat) (c.u.flagOf f) ((opdOf d).names c.u c.m) s2 vs
      (x.noteStores false (fmtWidth t / 8) c.cs) false := by
  rw [(loaded_iff ..).1 hx]
  exact completes_of_global h (exec_vatom ..) hc hv

/-- The expected and the new value of a compare and swap (R193). -/
theorem casPair_packed (hw : fmtWidth t = 32) (w : Warp) (l : Nat) :
    casPair w d t l = (subEl 32 ((opdOf d).val w [] l) 0, subEl 32 ((opdOf d).val w [] l) 1) := if_pos hw

theorem casPair_two (hw : fmtWidth t = 64) (w : Warp) (l : Nat) :
    casPair w d t l = (((opdOf d).val w [] l).toNat, ((Opd.reg (d.toNat + 1)).val w [] l).toNat) :=
  if_neg (by rw [hw]; decide)

theorem vcas_packed (hw : fmtWidth t = 32) (h : c.Reaches (.vcas d b t f o) [d, b] b (fmtWidth t / 8) o.toInt (casData d t))
    (hc : c.Checked .atomic (fmtWidth t / 8))
    (hv : eachLane (fun s l y => chanAtomic s c.g.tile y.pa 4 (fun x => if x = subEl 32 ((opdOf d).val c.u [] l) 0 then
      subEl 32 ((opdOf d).val c.u [] l) 1 else x)) c.s1 c.cs = (s2, vs)) :
    ∃ new : Nat → Reg, c.Completes (.vcas d b t f o) (64 + t.toNat) (c.u.flagOf f) ((opdOf d).names c.u c.m) s2 vs
        ((writeDst c.u (opdOf d) t c.m (c.m &&& ~~~doneLanes vs) new).noteStores false 4 c.cs) false ∧
      ∀ l, new l = BitVec.ofNat 64 (valueAt 0 vs l +
        if valueAt 0 vs l = subEl 32 ((opdOf d).val c.u [] l) 0 then 2 ^ 32 else 0) := by
  have hdone := completes_of_global h (exec_vcas ..) hc (s2 := s2) (vs := vs) (by
    simp only [casPair_packed hw, hw]
    exact hv)
  have h64 : ¬ (32 = 64) := by decide
  simp only [putCas, hw, if_true, if_neg h64, List.append_nil] at hdone
  refine ⟨_, hdone, fun l => ?_⟩
  rw [casPair_packed hw]
  split <;> rfl

theorem vcas_two (hw : fmtWidth t = 64) (h : c.Reaches (.vcas d b t f o) [d, b] b (fmtWidth t / 8) o.toInt (casData d t))
    (hc : c.Checked .atomic (fmtWidth t / 8))
    (hv : eachLane (fun s l y => chanAtomic s c.g.tile y.pa 8 (fun x => if x = ((opdOf d).val c.u [] l).toNat then
      ((Opd.reg (d.toNat + 1)).val c.u [] l).toNat else x)) c.s1 c.cs = (s2, vs)) :
    ∃ new won : Nat → Reg, c.Completes (.vcas d b t f o) (64 + t.toNat) (c.u.flagOf f)
        ((opdOf d).names c.u c.m ++ [d.toNat + 1]) s2 vs
        ((writeDst (writeDst c.u (opdOf d) t c.m (c.m &&& ~~~doneLanes vs) new) (.reg (d.toNat + 1)) t c.m
          (c.m &&& ~~~doneLanes vs) won).noteStores false 8 c.cs) false ∧
      ∀ l, new l = BitVec.ofNat 64 (valueAt 0 vs l) ∧
        won l = if valueAt 0 vs l = ((opdOf d).val c.u [] l).toNat then 1 else 0 := by
  have hdone := completes_of_global h (exec_vcas ..) hc (s2 := s2) (vs := vs) (by
    simp only [casPair_two hw, hw]
    exact hv)
  have h32 : ¬ (64 = 32) := by decide
  simp only [putCas, hw, if_true, if_neg h32] at hdone
  refine ⟨_, _, hdone, fun l => ⟨rfl, ?_⟩⟩
  rw [casPair_two hw]
  split <;> rfl

theorem vprf_answers (h : c.Reaches (.vprf b f o) [b] b 128 o.toInt (fun _ _ => true))
    (hc : checkAll (c.s.setWarp c.r c.w) c.wgp c.u .load 1 c.addrs = (c.s1, c.cs)) : exec (.vprf b f o) c.s₀ =
      .next (retireLong (c.cs.foldl (fun s y => prefetchLine s c.wgp y.2.2) c.s1) c.r c.wgp c.w c.u (c.u.flagOf f)
        [] [] [] [] [] false) := by
  show execVprf b f o c.s₀ = _
  rw [execVprf, reaches_runMem h]
  simp only [hc]

end

theorem laneGlobal_holds : Sys2Proof.Claims.laneGlobal := by
  intro c d b t f o z k any low
  obtain ⟨hpacked, htwo⟩ := fmtWidth_cas (t := t)
  refine ⟨fun h => ⟨fun s2 vs x hc hv hx => vld_completes h hc hv hx, parksOn_of_global h (exec_vld ..)⟩,
    fun h => ⟨fun s2 vs hc hv => completes_of_global h (exec_vst ..) hc hv, parksOn_of_global h (exec_vst ..)⟩,
    fun h => parksOn_of_global h (exec_vatom ..), fun h => parksOn_of_global h (exec_vcas ..),
    fun h hc s2 vs x hv hx => vatom_completes h hc hv hx, fun ht h hc s2 vs hv => ?_,
    fun ht h hc s2 vs hv => ?_, vprf_answers⟩
  · exact vcas_packed (hpacked ht) h hc hv
  · exact vcas_two (htwo ht) h hc hv

/-! ### Lane accesses to the scratchpad -/

section

variable (f : Memory → Nat → Nat → Memory × Nat)

/-- The scratchpad after one lane's access. -/
def spAfter (m : Memory) (x : Nat × Int) : Memory := (f m x.1 x.2.toNat).1

theorem spEach_memory (m : Memory) (l : LaneAddrs) : (spEach f m l).1 = l.foldl (spAfter f) m := by
  induction l generalizing m with
  | nil => rfl
  | cons x l ih => exact ih _

/-- Every lane that accesses the scratchpad receives a value. -/
theorem doneLanes_spEach (m : Memory) (l : LaneAddrs) : doneLanes (spEach f m l).2 = maskOf (fun k => l.any (fun x => x.1 == k)) := by
  refine congrArg maskOf (funext fun k => ?_)
  induction l generalizing m with
  | nil => rfl
  | cons x l ih => simp only [spEach, List.any_cons, ih, Bool.not_false, Bool.and_true]

/-- A lane receives what the scratchpad answers after the accesses of the lanes before it (R182). -/
theorem valueAt_spEach {pre post : LaneAddrs} {x : Nat × Int} (hx : ∀ y ∈ pre, y.1 ≠ x.1) (m : Memory) :
    valueAt 0 (spEach f m (pre ++ x :: post)).2 x.1 = (f (pre.foldl (spAfter f) m) x.1 x.2.toNat).2 := by
  induction pre generalizing m with
  | nil => simp [valueAt, spEach]
  | cons y pre ih =>
    have hne : (y.1 == x.1) = false := by simpa using hx y List.mem_cons_self
    rw [List.foldl_cons, ← ih (fun z hz => hx z (List.mem_cons_of_mem _ hz))]
    simp only [valueAt, List.cons_append, spEach, List.find?_cons, hne]
    rfl

end

section

variable {c : MemRun} {i : Instr} {codes : List (BitVec 7)} {b : BitVec 7} {scale : Nat} {off : Int} {data : Warp → Mask → Bool}

/-- No lane accesses twice. -/
theorem lanes_before_differ (h : c.Reaches i codes b scale off data) {p : Nat × Int → Bool} {pre post : LaneAddrs} {x : Nat × Int}
    (hs : c.addrs.filter p = pre ++ x :: post) : ∀ y ∈ pre, y.1 ≠ x.1 := by
  have hnodup : (c.addrs.map (·.1)).Nodup := by
    rw [h.addrs, List.map_map]
    exact (List.map_id (lanesIn c.m)).symm ▸ List.nodup_range.filter _
  have hsub := (List.filter_sublist (p := p) (l := c.addrs)).map (·.1)
  rw [hs] at hsub
  have hpre := (hnodup.sublist hsub)
  simp only [List.map_append, List.map_cons, List.nodup_append, List.mem_map, List.mem_cons] at hpre
  exact fun y hy => hpre.2.2 _ ⟨y, hy, rfl⟩ _ (.inl rfl)

/-- The lanes whose access of z bytes of the scratchpad is an on-tile fault, and the accesses of the others (R36, R184). -/
def spOff (c : MemRun) (z : Nat) : Mask := spLost c.g z c.addrs
def spMask (c : MemRun) (z : Nat) : Mask := c.m &&& ~~~spOff c z
def spMine (c : MemRun) (z : Nat) : LaneAddrs := c.addrs.filter (fun x => (spMask c z).getLsbD x.1)

/-- A scratchpad access switches the faulting lanes off and completes for the others on the workgroup's scratchpad (R36, R182, R185). -/
theorem scratch_completes {z : Nat} {k : Warp → Nat} {vregs : Warp → Mask → List Nat} {f : Warp → Memory → Nat → Nat → Memory × Nat}
    {put : Warp → Mask → List (Nat × Nat × Bool) → Warp} (h : c.Reaches i codes b scale off data)
    (he : exec i c.s₀ = runMem c.s₀ i codes b scale off data
      (fun s r g w0 w m addrs => scratchLanes s r g w0 w m z (k w) vregs addrs (f w) put)) :
    exec i c.s₀ = .next (retireLong ((c.s.setWarp c.r c.w).updWg c.r.wg (fun g =>
        { g with sp := (spMine c z).foldl (spAfter (f c.u)) c.g.sp })) c.r c.wgp c.w
      (put (c.u.switchOff (spOff c z)) (spMask c z) (spEach (f c.u) c.g.sp (spMine c z)).2) (k c.u)
      (vregs (c.u.switchOff (spOff c z)) (spMask c z)) [] [] [] [] false) := by
  rw [he, reaches_runMem h, ← spEach_memory]
  rfl

end

theorem exec_vlds (d b : BitVec 7) (t : BitVec 5) (f : BitVec 1) (o : BitVec 4) (s : State) : exec (.vlds d b t f o) s =
    runMem s (.vlds d b t f o) [d, b] b (fmtWidth t / 8) o.toInt (fun _ _ => true) (fun s r g w0 w m addrs =>
      scratchLanes s r g w0 w m (fmtWidth t / 8) (w.flagOf f) (fun w m => (opdOf d).names w m) addrs
        (fun mem _ a => (mem, Memory.readN mem a (fmtWidth t / 8))) (fun w m vs => putLoaded w (opdOf d) t m vs)) := rfl

theorem exec_vsts (d b : BitVec 7) (t : BitVec 5) (f : BitVec 1) (o : BitVec 4) (s : State) : exec (.vsts d b t f o) s =
    runMem s (.vsts d b t f o) [d, b] b (fmtWidth t / 8) o.toInt (fun w m => dataTagOk w m (opdOf d) t true)
      (fun s r g w0 w m addrs => scratchLanes s r g w0 w m (fmtWidth t / 8) (w.flagOf f) (fun _ _ => []) addrs
        (fun mem l a => (Memory.writeN mem a (fmtWidth t / 8) (lowBytes (fmtWidth t / 8) ((opdOf d).val w [] l)), 0))
        (fun w _ _ => w)) := rfl

theorem exec_vatoms (d b : BitVec 7) (t : BitVec 5) (f : BitVec 1) (o : BitVec 4) (s : State) : exec (.vatoms d b t f o) s =
    runMem s (.vatoms d b t f o) [d, b] b (fmtWidth t / 8) 0 (fun w m => dataTagOk w m (opdOf d) t false)
      (fun s r g w0 w m addrs => scratchLanes s r g w0 w m (fmtWidth t / 8) (w.flagOf f) (fun w m => (opdOf d).names w m) addrs
        (fun mem l a => (Memory.writeN mem a (fmtWidth t / 8) (atomNew o (8 * (fmtWidth t / 8)) (Memory.readN mem a (fmtWidth t / 8))
          (lowBytes (fmtWidth t / 8) ((opdOf d).val w [] l))), Memory.readN mem a (fmtWidth t / 8)))
        (fun w m vs => putLoaded w (opdOf d) t m vs)) := rfl

theorem laneScratch_holds : Sys2Proof.Claims.laneScratch := by
  intro c d b t f o z any lost u m mine low completes
  have hoff : spOff c z = lost := rfl
  have hmask : spMask c z = m := rfl
  have hmine : spMine c z = mine := rfl
  have hread : ∀ (F : Memory → Nat → Nat → Memory × Nat) {i : Instr} {off : Int} {data : Warp → Mask → Bool},
      c.Reaches i [d, b] b z off data → ∀ (pre post : LaneAddrs) (x : Nat × Int), mine = pre ++ x :: post →
      valueAt 0 (spEach F c.g.sp mine).2 x.1 = (F (pre.foldl (spAfter F) c.g.sp) x.1 x.2.toNat).2 := by
    intro F i off data h pre post x hsplit
    rw [hsplit]
    exact valueAt_spEach F (lanes_before_differ h hsplit) _
  refine ⟨fun h => ?_, fun h => ?_, fun h => ?_⟩
  · have hdone := scratch_completes h (exec_vlds ..)
    rw [hoff, hmask, hmine, putLoaded, doneLanes_spEach] at hdone
    have hsame : mine.foldl (spAfter (fun mem _ a => (mem, Memory.readN mem a z))) c.g.sp = c.g.sp :=
      foldl_keeps (p := id) (fun _ _ => rfl) mine c.g.sp
    rw [hsame] at hdone
    refine ⟨_, hdone, fun x hx => ?_⟩
    obtain ⟨pre, post, hsplit⟩ := List.append_of_mem hx
    rw [hread _ h pre post x hsplit]
    exact congrArg (fun sp => BitVec.ofNat 64 (Memory.readN sp x.2.toNat z)) (foldl_keeps (p := id) (fun _ _ => rfl) pre c.g.sp)
  · have hdone := scratch_completes h (exec_vsts ..)
    rw [hoff, hmine] at hdone
    exact hdone
  · have hdone := scratch_completes h (exec_vatoms ..)
    rw [hoff, hmask, hmine, putLoaded, doneLanes_spEach] at hdone
    refine ⟨_, hdone, fun pre post x hsplit => ?_⟩
    rw [hread _ h pre post x hsplit]
    rfl

/-- Settles O19: the lanes' accesses run their checks and then one access after another, in memory or in the scratchpad. -/
theorem laneMemory : Obligations.LaneMemory := by
  unfold Obligations.LaneMemory
  exact ⟨laneGlobal_holds, laneScratch_holds⟩

/-! ### Masked writes of memory and of lines -/

/-- A masked write replaces the bytes of its mask and leaves the others (R286). -/
theorem read_writeMasked (m : Memory) (a mask data : Nat) {n i : Nat} (hi : i < n) :
    (Memory.writeMasked m a mask data n).read (a + i) =
      if mask.testBit i = true then BitVec.ofNat 8 (data / 256 ^ i) else m.read (a + i) := by
  induction n generalizing m a mask data i with
  | zero => omega
  | succ n ih =>
    rw [Memory.writeMasked]
    cases i with
    | zero =>
      rw [read_writeMasked_other _ _ _ _ _ _ (by omega), Nat.testBit_zero]
      by_cases hbit : mask % 2 = 1 <;> simp [hbit]
    | succ i =>
      have hplace : a + (i + 1) = a + 1 + i := by omega
      have hother : (if mask % 2 = 1 then Memory.write m a (BitVec.ofNat 8 data) else m).read (a + 1 + i) = m.read (a + 1 + i) := by
        split
        · exact read_write_other _ _ _ _ (by omega)
        · rfl
      rw [hplace, ih _ _ _ _ (by omega), hother, Nat.testBit_succ, Nat.div_div_eq_div_mul, Nat.pow_succ']

theorem writeMasked_none (m : Memory) (a data n : Nat) : Memory.writeMasked m a 0 data n = m := by
  induction n generalizing a data with
  | zero => rfl
  | succ n ih => exact ih _ _

/-- Bits of a mask of bytes spread over the bits of each byte. -/
theorem testBit_byteMask (m n i : Nat) : (byteMask m n).testBit i = (decide (i < 8 * n) && m.testBit (i / 8)) := by
  induction n generalizing m i with
  | zero => simp [byteMask]
  | succ n ih =>
    have hlow : (if m % 2 = 1 then 255 else 0) < 2 ^ 8 := by split <;> decide
    rw [byteMask, Nat.add_comm, show (256 : Nat) = 2 ^ 8 from rfl, Nat.testBit_two_pow_mul_add _ hlow, ih]
    split
    · next hi =>
      have h0 : i / 8 = 0 := by omega
      have hall : (if m % 2 = 1 then 255 else 0).testBit i = decide (m % 2 = 1) := by
        split
        · rw [show 255 = 2 ^ 8 - 1 from rfl, Nat.testBit_two_pow_sub_one]
          simp_all
        · simp_all
      rw [hall, h0, Nat.testBit_zero, decide_eq_true (by omega : i < 8 * (n + 1)), Bool.true_and]
    · next hi =>
      have hdiv : i / 8 = (i - 8) / 8 + 1 := by omega
      rw [hdiv, Nat.testBit_succ, show decide (i - 8 < 8 * n) = decide (i < 8 * (n + 1)) from decide_eq_decide.2 (by omega)]

theorem getLsbD_mergeBytes (mask : BitVec 128) (new old : BitVec 1024) {i : Nat} (hi : i < 1024) :
    (mergeBytes mask new old).getLsbD i = if mask.getLsbD (i / 8) = true then new.getLsbD i else old.getLsbD i := by
  have hbit : (BitVec.ofNat 1024 (byteMask mask.toNat 128)).getLsbD i = mask.getLsbD (i / 8) := by
    rw [BitVec.getLsbD_ofNat, testBit_byteMask, decide_eq_true hi, Bool.true_and, Bool.true_and]
    rfl
  simp only [mergeBytes, BitVec.getLsbD_or, BitVec.getLsbD_and, BitVec.getLsbD_not, hbit, hi, decide_true, Bool.true_and]
  cases mask.getLsbD (i / 8) <;> simp

theorem getLsbD_spanMask (off n : Nat) {k : Nat} (hk : k < 128) :
    (spanMask off n).getLsbD k = (decide (off ≤ k) && decide (k < off + n)) := by
  rw [spanMask, BitVec.getLsbD_ofNat, ← Nat.shiftLeft_eq, Nat.testBit_shiftLeft, Nat.testBit_two_pow_sub_one, decide_eq_true hk,
    Bool.true_and]
  by_cases ho : off ≤ k
  · simp only [ho, decide_true, Bool.true_and]
    exact decide_eq_decide.2 (by omega)
  · simp [ho]

theorem testBit_lineBytes (d : BitVec 1024) (off n k : Nat) :
    (lineBytes d off n).testBit k = (decide (k < 8 * n) && d.getLsbD (8 * off + k)) := by
  rw [lineBytes, Nat.testBit_mod_two_pow, Nat.testBit_div_two_pow, Nat.add_comm k]
  rfl

/-- The bytes that a line gives at the place of a store are those that were stored (R285). -/
theorem lineBytes_stored {off n : Nat} (h : off + n ≤ 128) (v : Nat) (old : BitVec 1024) :
    let new := BitVec.ofNat 1024 ((v % 2 ^ (8 * n)) * 2 ^ (8 * off))
    lineBytes new off n = v % 2 ^ (8 * n) ∧ lineBytes (mergeBytes (spanMask off n) new old) off n = v % 2 ^ (8 * n) := by
  intro new
  have hnew : ∀ k, k < 8 * n → new.getLsbD (8 * off + k) = (v % 2 ^ (8 * n)).testBit k := by
    intro k hk
    rw [BitVec.getLsbD_ofNat, decide_eq_true (by omega), Bool.true_and, Nat.testBit_mul_two_pow]
    simp
  have hmasked : ∀ k, k < 8 * n → (mergeBytes (spanMask off n) new old).getLsbD (8 * off + k) = new.getLsbD (8 * off + k) := by
    intro k hk
    rw [getLsbD_mergeBytes _ _ _ (by omega), if_pos]
    rw [getLsbD_spanMask _ _ (by omega), decide_eq_true (by omega), decide_eq_true (by omega), Bool.true_and]
  constructor <;>
  · refine Nat.eq_of_testBit_eq fun k => ?_
    rw [testBit_lineBytes]
    by_cases hk : k < 8 * n
    · simp [hk, hmasked, hnew]
    · simp [hk, Nat.testBit_mod_two_pow]

/-- The bytes of a line at the channel are those of memory (R305). -/
theorem lineBytes_chanLine (s : State) {pa n : Nat} (h : pa % 128 + n ≤ 128) :
    lineBytes (chanLine s (lineOf pa)) (pa % 128) n = Memory.readN s.mem pa n := by
  have hread := readN_within s.mem (lineOf pa * 128) (pa % 128) n (128 - n - pa % 128)
  have hrun : pa % 128 + (n + (128 - n - pa % 128)) = 128 := by omega
  have hplace : lineOf pa * 128 + pa % 128 = pa := by unfold lineOf; omega
  rw [hrun, hplace] at hread
  rw [lineBytes, toNat_chanLine, Nat.pow_mul, Nat.pow_mul]
  exact hread

/-! ### What the channel and a tile's lines leave -/

section

variable (s : State) (line : Nat)

theorem countServed_frame : ∃ S, countServed s line = { s with dev := { s.dev with served := S } } := by
  unfold countServed
  dsimp only
  split
  · exact ⟨_, rfl⟩
  · exact ⟨_, rfl⟩

/-- Writing at the channel closes merge points, counts in a window and tests conditions of queues (R289, R382, R402). -/
theorem chanWriteLine_frame (mask : BitVec 128) (data : BitVec 1024) : ∃ W S Q, chanWriteLine s line mask data =
    { s with wadi := W, dev := { s.dev with served := S, queues := Q },
             mem := Memory.writeMasked s.mem (line * 128) mask.toNat data.toNat 128 } := by
  obtain ⟨S, hS⟩ := countServed_frame (mergeClose s line) line
  simp only [chanWriteLine, testConds, hS]
  unfold mergeClose
  split
  · exact ⟨_, _, _, rfl⟩
  · exact ⟨_, _, _, rfl⟩

theorem chanWrite_frame (pa n v : Nat) : ∃ W S Q, chanWrite s pa n v =
    { s with wadi := W, dev := { s.dev with served := S, queues := Q }, mem := Memory.writeN s.mem pa n v } := by
  obtain ⟨S, hS⟩ := countServed_frame (mergeClose s (lineOf pa)) (lineOf pa)
  simp only [chanWrite, testConds, hS]
  unfold mergeClose
  split
  · exact ⟨_, _, _, rfl⟩
  · exact ⟨_, _, _, rfl⟩

end

/-! ### Writing back and invalidating a line -/

section

variable {s : State} {t line : Nat} {l : Line}

/-- A line that a tile holds has its number. -/
theorem line_number {x : Tile} (h : x.line line = some l) : l ∈ x.lines ∧ l.line = line :=
  ⟨List.mem_of_find?_eq_some h, by simpa using List.find?_some h⟩

/-- A line made clean where it has a number. -/
def cleaned (line : Nat) (x : Line) : Line := if x.line == line then { x with dirty := 0 } else x

theorem writeBackLine_absent (h : (s.tile t).line line = none) : writeBackLine s t line = s := by
  simp only [writeBackLine, h]

theorem writeBackLine_clean (h : (s.tile t).line line = some l) (hd : l.dirty = 0) : writeBackLine s t line = s := by
  simp only [writeBackLine, h, hd, if_true]

/-- Writing back a dirty line writes its bytes, owes their acknowledgement and makes it clean (R286, R328). -/
theorem writeBackLine_dirty (h : (s.tile t).line line = some l) (hd : l.dirty ≠ 0) : ∃ W S Q, writeBackLine s t line =
    { s with wadi := W, dev := { s.dev with served := S, queues := Q },
             mem := Memory.writeMasked s.mem (line * 128) l.dirty.toNat l.data.toNat 128,
             tiles := Table.set s.tiles t { s.tile t with lines := (s.tile t).lines.map (cleaned line)
                                                          unacked := (s.tile t).unacked ++ [line] } } := by
  obtain ⟨W, S, Q, hw⟩ := chanWriteLine_frame s line l.dirty l.data
  refine ⟨W, S, Q, ?_⟩
  simp only [writeBackLine, h, if_neg hd, hw]
  simp only [State.owed, State.setTile, State.tile, get_set_same, set_set]
  rfl

/-- Writing back leaves the tables of the contexts, the errors known, and all of the tile but its lines and what it is owed. -/
theorem writeBackLine_frame (s : State) (t line : Nat) : (writeBackLine s t line).slots = s.slots ∧
    (writeBackLine s t line).dev.badLines = s.dev.badLines ∧
    ((writeBackLine s t line).tile t).badWays = (s.tile t).badWays := by
  cases h : (s.tile t).line line with
  | none => simp [writeBackLine_absent h]
  | some l =>
    by_cases hd : l.dirty = 0
    · simp [writeBackLine_clean h hd]
    · obtain ⟨W, S, Q, hw⟩ := writeBackLine_dirty h hd
      simp [hw, State.tile]

theorem writeBackLine_mem (h : (s.tile t).line line = some l) :
    (writeBackLine s t line).mem = Memory.writeMasked s.mem (line * 128) l.dirty.toNat l.data.toNat 128 := by
  by_cases hd : l.dirty = 0
  · rw [writeBackLine_clean h hd, hd]
    exact (writeMasked_none ..).symm
  · obtain ⟨W, S, Q, hw⟩ := writeBackLine_dirty h hd
    rw [hw]

/-- The lines of the tile after a write-back: that line clean, unless nothing was to be written, and the others as they were. -/
theorem writeBackLine_lines (s : State) (t line : Nat) :
    ((writeBackLine s t line).tile t).lines = (s.tile t).lines.map (cleaned line) ∨
    (((writeBackLine s t line).tile t).lines = (s.tile t).lines ∧ ∀ l, (s.tile t).line line = some l → l.dirty = 0) := by
  cases h : (s.tile t).line line with
  | none => exact .inr (by simp [writeBackLine_absent h])
  | some l =>
    by_cases hd : l.dirty = 0
    · exact .inr (by simp [writeBackLine_clean h hd, hd])
    · obtain ⟨W, S, Q, hw⟩ := writeBackLine_dirty h hd
      exact .inl (by simp [hw, State.tile])

theorem filter_cleaned (line : Nat) (ls : List Line) :
    (ls.map (cleaned line)).filter (fun l => l.line != line) = ls.filter (fun l => l.line != line) := by
  induction ls with
  | nil => rfl
  | cons x ls ih =>
    by_cases hx : x.line = line <;> simp [cleaned, hx, ih]

/-- Invalidating a line takes it out of the tile and leaves the other lines (R286). -/
theorem invalidateLine_lines (s : State) (t line : Nat) :
    ((invalidateLine s t line).tile t).lines = (s.tile t).lines.filter (fun l => l.line != line) := by
  simp only [invalidateLine, tile_setTile_same, Tile.dropLine]
  rcases writeBackLine_lines s t line with h | ⟨h, -⟩
  · rw [h, filter_cleaned]
  · rw [h]

theorem invalidateLine_line (s : State) (t line : Nat) : ((invalidateLine s t line).tile t).line line = none := by
  rw [Tile.line, invalidateLine_lines]
  simp

theorem invalidateLine_frame (s : State) (t line : Nat) : (invalidateLine s t line).slots = s.slots ∧
    (invalidateLine s t line).dev.badLines = s.dev.badLines ∧
    ((invalidateLine s t line).tile t).badWays = (s.tile t).badWays := by
  simpa only [invalidateLine, tile_setTile_same, setTile_slots, setTile_dev, Tile.dropLine] using writeBackLine_frame s t line

theorem invalidateLine_mem_absent (h : (s.tile t).line line = none) : (invalidateLine s t line).mem = s.mem :=
  (show _ = (writeBackLine s t line).mem from rfl).trans (congrArg State.mem (writeBackLine_absent h))

theorem invalidateLine_mem (h : (s.tile t).line line = some l) :
    (invalidateLine s t line).mem = Memory.writeMasked s.mem (line * 128) l.dirty.toNat l.data.toNat 128 := writeBackLine_mem h

/-! ### What making room does to memory -/

/-- The byte that a line holds at an address. -/
def lineByte (l : Line) (a : Nat) : Byte := BitVec.ofNat 8 (l.data.toNat / 256 ^ (a % 128))

/-- After a line was written back its dirty bytes stand in memory. -/
theorem read_invalidateLine_dirty (h : (s.tile t).line line = some l) {a : Nat} (ha : a / 128 = line)
    (hd : l.dirty.getLsbD (a % 128) = true) : (invalidateLine s t line).mem.read a = lineByte l a := by
  have hplace : line * 128 + a % 128 = a := by omega
  have hread := read_writeMasked s.mem (line * 128) l.dirty.toNat l.data.toNat (Nat.mod_lt a (by decide : 0 < 128))
  rw [hplace, if_pos (show l.dirty.toNat.testBit (a % 128) = true from hd)] at hread
  rw [invalidateLine_mem h, hread, lineByte]

/-- Every other byte of memory is as before. -/
theorem read_invalidateLine (s : State) (t line a : Nat) : (invalidateLine s t line).mem.read a = s.mem.read a ∨
    ∃ l, (s.tile t).line line = some l ∧ a / 128 = line ∧ l.dirty.getLsbD (a % 128) = true ∧
      (invalidateLine s t line).mem.read a = lineByte l a := by
  cases h : (s.tile t).line line with
  | none => exact .inl (by rw [invalidateLine_mem_absent h])
  | some l =>
    by_cases ha : a / 128 = line
    · by_cases hd : l.dirty.getLsbD (a % 128) = true
      · exact .inr ⟨l, rfl, ha, hd, read_invalidateLine_dirty h ha hd⟩
      · have hplace : line * 128 + a % 128 = a := by omega
        have hread := read_writeMasked s.mem (line * 128) l.dirty.toNat l.data.toNat (Nat.mod_lt a (by decide : 0 < 128))
        rw [hplace, if_neg (show ¬ l.dirty.toNat.testBit (a % 128) = true from hd)] at hread
        exact .inl (by rw [invalidateLine_mem h, hread])
    · exact .inl (by rw [invalidateLine_mem h, read_writeMasked_other _ _ _ _ _ _ (by omega)])

/-- The lines of a tile in a set of its line buffer (R284). -/
def inSet (s : State) (t set : Nat) : List Line := (s.tile t).lines.filter (fun l => l.line % 64 == set)

theorem mem_inSet {set : Nat} : l ∈ inSet s t set ↔ l ∈ (s.tile t).lines ∧ l.line % 64 = set := by simp [inSet]

theorem inSet_invalidateLine (s : State) (t set line : Nat) :
    inSet (invalidateLine s t line) t set = (inSet s t set).filter (fun l => l.line != line) := by
  simp only [inSet, invalidateLine_lines, List.filter_filter, Bool.and_comm]

theorem waysOf_invalidateLine (s : State) (t set line : Nat) :
    ((invalidateLine s t line).tile t).waysOf set = (s.tile t).waysOf set := by
  obtain ⟨-, -, hways⟩ := invalidateLine_frame s t line
  rw [Tile.waysOf, hways, Tile.waysOf]

theorem makeRoom_free {set : Nat} (h : (inSet s t set).length < (s.tile t).waysOf set) (n : Nat) : makeRoom s t set n = s := by
  cases n with
  | zero => rfl
  | succ n => exact if_pos h

theorem makeRoom_full {set : Nat} (h : (s.tile t).waysOf set ≤ (inSet s t set).length) (hl : (inSet s t set).getLast? = some l)
    (n : Nat) : makeRoom s t set (n + 1) = makeRoom (invalidateLine s t l.line) t set n := by
  have hfull : ¬ ((s.tile t).lines.filter (fun l => l.line % 64 == set)).length < (s.tile t).waysOf set := Nat.not_lt.2 h
  have hlast : ((s.tile t).lines.filter (fun l => l.line % 64 == set)).getLast? = some l := hl
  simp only [makeRoom, if_neg hfull, hlast]

theorem makeRoom_empty {set : Nat} (hl : (inSet s t set).getLast? = none) (n : Nat) : makeRoom s t set n = s := by
  cases n with
  | zero => rfl
  | succ n =>
    have hlast : ((s.tile t).lines.filter (fun l => l.line % 64 == set)).getLast? = none := hl
    simp only [makeRoom, hlast, ite_self]

/-- What each replacement keeps, making room keeps. -/
theorem makeRoom_induction {set : Nat} {P : State → Prop}
    (hstep : ∀ s l, P s → l ∈ inSet s t set → P (invalidateLine s t l.line)) (n : Nat) (s : State) (h : P s) :
    P (makeRoom s t set n) := by
  induction n generalizing s with
  | zero => exact h
  | succ n ih =>
    by_cases hfree : (inSet s t set).length < (s.tile t).waysOf set
    · rwa [makeRoom_free hfree]
    · cases hl : (inSet s t set).getLast? with
      | none => rwa [makeRoom_empty hl]
      | some l =>
        rw [makeRoom_full (Nat.not_lt.1 hfree) hl]
        exact ih _ (hstep s l h (List.mem_of_getLast? hl))

theorem waysOf_makeRoom (s : State) (t set n k : Nat) : ((makeRoom s t set n).tile t).waysOf k = (s.tile t).waysOf k :=
  makeRoom_induction (P := fun s' => (s'.tile t).waysOf k = (s.tile t).waysOf k)
    (fun s' l h _ => (waysOf_invalidateLine s' t k l.line).trans h) n s rfl

/-- Making room changes bytes of memory to the dirty bytes of lines of the set alone (R284, R286). -/
theorem read_makeRoom (s : State) (t set n a : Nat) : (makeRoom s t set n).mem.read a = s.mem.read a ∨
    ∃ l ∈ inSet s t set, a / 128 = l.line ∧ l.dirty.getLsbD (a % 128) = true ∧
      (makeRoom s t set n).mem.read a = lineByte l a := by
  refine (makeRoom_induction (P := fun s' => (∀ l ∈ inSet s' t set, l ∈ inSet s t set) ∧ (s'.mem.read a = s.mem.read a ∨
    ∃ l ∈ inSet s t set, a / 128 = l.line ∧ l.dirty.getLsbD (a % 128) = true ∧ s'.mem.read a = lineByte l a))
    ?_ n s ⟨fun _ h => h, .inl rfl⟩).2
  rintro s' v ⟨hsub, hread⟩ hv
  refine ⟨fun l hl => hsub l ?_, ?_⟩
  · rw [inSet_invalidateLine] at hl
    exact List.mem_of_mem_filter hl
  · rcases read_invalidateLine s' t v.line a with h | ⟨l, hl, ha, hd, h⟩
    · rwa [h]
    · obtain ⟨hmem, hnum⟩ := line_number hl
      have hset : l.line % 64 = set := hnum ▸ (mem_inSet.1 hv).2
      exact .inr ⟨l, hsub l (mem_inSet.2 ⟨hmem, hset⟩), by rw [ha, hnum], hd, h⟩

/-- In a full set the last line leaves, and no other. -/
theorem makeRoom_last {set : Nat} (h : (inSet s t set).length = (s.tile t).waysOf set) (hl : (inSet s t set).getLast? = some l)
    (n : Nat) : makeRoom s t set (n + 1) = invalidateLine s t l.line := by
  rw [makeRoom_full h.ge hl]
  refine makeRoom_free ?_ n
  rw [inSet_invalidateLine, waysOf_invalidateLine, ← h]
  exact List.length_filter_lt_length_iff_exists.2 ⟨l, List.mem_of_getLast? hl, by simp⟩

theorem evicts_makeRoom (s : State) (t line : Nat) : Evicts s (makeRoom s t (line % 64) 17) t line := by
  refine ⟨fun h => by rw [makeRoom_free h], fun a => read_makeRoom s t _ 17 a, fun l hfull hlast hl a ha hd => ?_⟩
  rw [makeRoom_last hfull hlast]
  exact read_invalidateLine_dirty hl ha hd

end

/-! ### Loads, stores and atomics of a tile -/

section

variable {s : State} {t asid n : Nat} {x : Xlated} {l : Line}

/-! A line of another context leaves before a tile's accesses, and the context's own before a direct one (R183, R285). -/

theorem takeLine_absent {line : Nat} (h : (s.tile t).line line = none) : takeLine s t asid line = s := by
  simp only [takeLine, h]

theorem takeLine_own {line : Nat} (h : (s.tile t).line line = some l) (ha : l.asid = asid) : takeLine s t asid line = s := by
  simp only [takeLine, h, ha, if_true]

theorem takeLine_foreign {line : Nat} (h : (s.tile t).line line = some l) (ha : l.asid ≠ asid) :
    takeLine s t asid line = invalidateLine s t line := by
  simp only [takeLine, h, if_neg ha]

/-- What a tile holds of a line before an access of a context is the context's own. -/
theorem takeLine_holds (s : State) (t asid line : Nat) : ∀ l, ((takeLine s t asid line).tile t).line line = some l → l.asid = asid := by
  intro l hl
  cases h : (s.tile t).line line with
  | none =>
    rw [takeLine_absent h, h] at hl
    cases hl
  | some l' =>
    by_cases ha : l'.asid = asid
    · rw [takeLine_own h ha, h] at hl
      cases hl
      exact ha
    · rw [takeLine_foreign h ha, invalidateLine_line] at hl
      cases hl

theorem waysOf_takeLine (s : State) (t asid line k : Nat) : ((takeLine s t asid line).tile t).waysOf k = (s.tile t).waysOf k := by
  unfold takeLine
  split
  · split
    · rfl
    · exact waysOf_invalidateLine s t k line
  · rfl

theorem passLine_absent {line : Nat} (h : (s.tile t).line line = none) : passLine s t asid line = s := by
  simp only [passLine, h]

theorem passLine_own {line : Nat} (h : (s.tile t).line line = some l) (ha : l.asid = asid) :
    passLine s t asid line = invalidateLine s t line := by
  simp only [passLine, h, ha, if_true]

theorem passLine_foreign {line : Nat} (h : (s.tile t).line line = some l) (ha : l.asid ≠ asid) : passLine s t asid line = s := by
  simp only [passLine, h, if_neg ha]

/-! Loads. -/

theorem tileLoad_direct (hx : x.direct = true) : tileLoad s t asid x n =
    (mergeRead (passLine s t asid (lineOf x.pa)) t (lineOf x.pa),
      Memory.readN (passLine s t asid (lineOf x.pa)).mem x.pa n, s.dev.badLines.contains (lineOf x.pa)) := by
  simp only [tileLoad, hx, if_true, chanRead, mergeRead_mem]

/-- The tile's line serves an access: it carries the access's index and holds its bytes (R284, R285). -/
def serves (l : Line) (x : Xlated) (n : Nat) : Prop := l.rix = x.rix ∧ spanMask (x.pa % 128) n &&& ~~~l.valid = 0

theorem tileLoad_hit (hx : x.direct = false) (hl : (s.tile t).line (lineOf x.pa) = some l) (ha : l.asid = asid) (hs : serves l x n) :
    tileLoad s t asid x n = (s.setTile t ((s.tile t).putLine l), lineBytes l.data (x.pa % 128) n, false) := by
  have hserves : l.rix = x.rix ∧ spanMask (x.pa % 128) n &&& ~~~l.valid = 0 := hs
  simp only [tileLoad, hx, Bool.false_eq_true, if_false, takeLine_own hl ha, hl, if_pos hserves]

/-- A load that the tile does not serve fetches the line, whose data is good (R285, R324). -/
theorem tileLoad_fetches (hx : x.direct = false) (hbad : lineOf x.pa ∉ s.dev.badLines)
    (ht : takeLine s t asid (lineOf x.pa) = s) (hm : ∀ l, (s.tile t).line (lineOf x.pa) = some l → ¬ serves l x n) :
    tileLoad s t asid x n = ((fetchLine s t (lineOf x.pa) asid x.rix).1,
      lineBytes (fetchLine s t (lineOf x.pa) asid x.rix).2 (x.pa % 128) n, false) := by
  have hgood : s.dev.badLines.contains (lineOf x.pa) = false := by simpa using hbad
  simp only [tileLoad, hx, Bool.false_eq_true, if_false, ht, hgood]
  cases hl : (s.tile t).line (lineOf x.pa) with
  | none => rfl
  | some l =>
    have hmiss : ¬ (l.rix = x.rix ∧ spanMask (x.pa % 128) n &&& ~~~l.valid = 0) := hm l hl
    simp only [if_neg hmiss]

theorem allocLine_mem (s : State) (t : Nat) (l : Line) : (allocLine s t l).mem =
    (if ((s.tile t).line l.line).isSome then s else makeRoom s t (l.line % 64) 17).mem := by
  unfold allocLine
  dsimp only
  split <;> split <;> rfl

/-- A fetched line that the tile does not hold is the channel's, and room is made for it (R284, R285). -/
theorem fetchLine_absent (line rix : Nat) (hl : (s.tile t).line line = none) :
    (fetchLine s t line asid rix).2 = chanLine s line ∧ Evicts s (fetchLine s t line asid rix).1 t line := by
  obtain ⟨W, hW⟩ := mergeRead_frame s t line
  have hnone : (({ s with wadi := W } : State).tile t).line line = none := hl
  simp only [fetchLine, hW, hnone]
  refine ⟨rfl, ?_⟩
  have hmem := allocLine_mem { s with wadi := W } t ⟨line, asid, rix, BitVec.allOnes 128, 0, chanLine { s with wadi := W } line⟩
  rw [hnone] at hmem
  have hroom := evicts_makeRoom { s with wadi := W } t line
  simp only [Evicts] at hroom ⊢
  rw [hmem]
  exact hroom

/-- One that it holds is the channel's with the tile's dirty bytes over it, and no memory changes (R285, R324). -/
theorem fetchLine_held (line rix : Nat) (hl : (s.tile t).line line = some l) :
    (fetchLine s t line asid rix).2 = mergeBytes l.dirty l.data (chanLine s line) ∧
    (fetchLine s t line asid rix).1.mem = s.mem := by
  obtain ⟨W, hW⟩ := mergeRead_frame s t line
  have hsome : (({ s with wadi := W } : State).tile t).line line = some l := hl
  simp only [fetchLine, hW, hsome]
  refine ⟨rfl, ?_⟩
  rw [allocLine_mem, hsome]
  rfl

/-- A load of a line of another context is one of a line that the tile does not hold. -/
theorem tileLoad_foreign (hx : x.direct = false) (hl : (s.tile t).line (lineOf x.pa) = some l) (ha : l.asid ≠ asid) :
    tileLoad s t asid x n = tileLoad (invalidateLine s t (lineOf x.pa)) t asid x n := by
  obtain ⟨-, hbad, -⟩ := invalidateLine_frame s t (lineOf x.pa)
  simp only [tileLoad, hx, Bool.false_eq_true, if_false, takeLine_foreign hl ha,
    takeLine_absent (invalidateLine_line s t (lineOf x.pa)), hbad]

/-! Stores. -/

theorem allocLine_line {line : Nat} (hn : l.line = line) (h : 0 < (s.tile t).waysOf (line % 64)) :
    ((allocLine s t l).tile t).line line = some l := by
  subst hn
  have hways : ((if ((s.tile t).line l.line).isSome then s else makeRoom s t (l.line % 64) 17).tile t).waysOf (l.line % 64) ≠ 0 := by
    split
    · omega
    · rw [waysOf_makeRoom]
      omega
  rw [allocLine, if_neg hways, tile_setTile_same]
  simp [Tile.line, Tile.putLine]

/-- Bytes that have become valid are held (R285). -/
theorem and_not_or_self (m y : BitVec 128) : m &&& ~~~(y ||| m) = 0#128 := by
  ext i
  simp only [BitVec.getElem_and, BitVec.getElem_not, BitVec.getElem_or, BitVec.getElem_zero]
  cases y[i] <;> cases m[i] <;> rfl

/-- A store leaves a line in the tile that serves its bytes (R285, R323). -/
theorem tileStore_holds (hx : x.direct = false) (hways : 0 < (s.tile t).waysOf (lineOf x.pa % 64)) (h : x.pa % 128 + n ≤ 128) (v : Nat) :
    ∃ l, ((tileStore s t asid x n v).tile t).line (lineOf x.pa) = some l ∧ l.asid = asid ∧ serves l x n ∧
      lineBytes l.data (x.pa % 128) n = v % 2 ^ (8 * n) := by
  have hown := takeLine_holds s t asid (lineOf x.pa)
  have hways' : 0 < ((takeLine s t asid (lineOf x.pa)).tile t).waysOf (lineOf x.pa % 64) := by rwa [waysOf_takeLine]
  simp only [tileStore, hx, Bool.false_eq_true, if_false, if_neg (Nat.pos_iff_ne_zero.1 hways')]
  cases hl : ((takeLine s t asid (lineOf x.pa)).tile t).line (lineOf x.pa) with
  | none =>
    exact ⟨_, allocLine_line rfl hways', rfl, ⟨rfl, by simp⟩, (lineBytes_stored h v 0).1⟩
  | some l =>
    obtain ⟨-, hnum⟩ := line_number hl
    exact ⟨_, allocLine_line hnum hways', hown l hl, ⟨rfl, and_not_or_self ..⟩, (lineBytes_stored h v l.data).2⟩

theorem tileStore_direct (hx : x.direct = true) (v : Nat) :
    (tileStore s t asid x n v).mem = Memory.writeN (passLine s t asid (lineOf x.pa)).mem x.pa n v := by
  obtain ⟨W, S, Q, hw⟩ := chanWrite_frame (passLine s t asid (lineOf x.pa)) x.pa n v
  simp only [tileStore, hx, if_true, hw]
  split <;> rfl

/-- An atomic writes its new value at the channel and returns the old (R190, R286). -/
theorem chanAtomic_good {pa : Nat} (hbad : lineOf pa ∉ s.dev.badLines) (new : Nat → Nat) :
    let m := (invalidateLine s t (lineOf pa)).mem
    ∃ s1, chanAtomic s t pa n new = (s1, Memory.readN m pa n, false) ∧ s1.mem = Memory.writeN m pa n (new (Memory.readN m pa n)) := by
  intro m
  obtain ⟨-, hb, -⟩ := invalidateLine_frame s t (lineOf pa)
  have hgood : (invalidateLine s t (lineOf pa)).dev.badLines.contains (lineOf pa) = false := by
    rw [hb]
    simpa using hbad
  obtain ⟨W, S, Q, hw⟩ := chanWrite_frame (invalidateLine s t (lineOf pa)) pa n (new (Memory.readN m pa n))
  simp only [chanAtomic, hgood, Bool.false_eq_true, if_false, chanRead]
  exact ⟨_, rfl, by rw [hw]⟩

end

/-- Settles O22: a load is a hit, a fetch or a direct read; a store leaves a line that serves it or writes memory. -/
theorem loadsAndStores : Obligations.LoadsAndStores := by
  unfold Obligations.LoadsAndStores
  intro s t asid n v x new line seen hspan hbad
  have hseen : (passLine s t asid line).mem = seen := by
    cases hl : (s.tile t).line line with
    | none => simp only [seen, hl, passLine_absent hl]
    | some l =>
      by_cases ha : l.asid = asid
      · simp only [seen, hl, if_pos ha, passLine_own hl ha, invalidateLine_mem hl]
      · simp only [seen, hl, if_neg ha, passLine_foreign hl ha]
  have hgood : s.dev.badLines.contains line = false := by simpa using hbad
  refine ⟨fun hx => ⟨_, ?_, (mergeRead_mem _ t line).trans hseen⟩, fun hx hwf hl => ?_, fun l hx hl => ⟨fun ha => ?_, fun ha => ?_⟩,
    fun hx hways => ?_, fun hx => ?_, ⟨chanAtomic_good hbad new, fun hl => invalidateLine_mem_absent hl,
      fun l hl => invalidateLine_mem hl⟩, fun m a k hm => ⟨?_, fun b hb => read_writeN_other _ _ _ _ _ hb⟩⟩
  · rw [tileLoad_direct hx, ← hseen]
    exact congrArg (fun q => (_, _, q)) hgood
  · obtain ⟨hdata, hevicts⟩ := fetchLine_absent (asid := asid) (lineOf x.pa) x.rix hl
    refine ⟨_, ?_, hevicts⟩
    rw [tileLoad_fetches hx hbad (takeLine_absent hl) (by simp [show (s.tile t).line (lineOf x.pa) = none from hl]), hdata,
      lineBytes_chanLine s hspan]
  · have hwhole : (decide (l.rix = x.rix) && decide (spanMask (x.pa % 128) n &&& ~~~l.valid = 0)) = true ↔ serves l x n := by
      simp [serves]
    by_cases hs : serves l x n
    · rw [tileLoad_hit hx hl ha hs, if_pos (hwhole.2 hs)]
      exact ⟨_, rfl, rfl⟩
    · obtain ⟨hdata, hmem⟩ := fetchLine_held (asid := asid) (lineOf x.pa) x.rix hl
      refine ⟨_, ?_, hmem⟩
      rw [tileLoad_fetches hx hbad (takeLine_own hl ha) (fun l' hl' => Option.some.inj (hl.symm.trans hl') ▸ hs), hdata]
      rw [if_neg (fun h => hs (hwhole.1 h))]
      rfl
  · exact tileLoad_foreign hx hl ha
  · obtain ⟨l, hl, ha, hs, hbytes⟩ := tileStore_holds (asid := asid) hx hways hspan v
    rw [tileLoad_hit hx hl ha hs, hbytes]
  · rw [tileStore_direct hx, ← hseen]
    rfl
  · rw [readN_writeN, Nat.pow_mul]

/-! ### Fences -/

section

variable {s₀ s s' : State} {r : WRef} {g : Workgroup} {w : Warp} {p : Line → Bool}

theorem writeBackWhere_slots (s : State) (t : Nat) (p : Line → Bool) : (writeBackWhere s t p).slots = s.slots :=
  foldl_keeps (p := State.slots) (fun s line => (writeBackLine_frame s t line).1) _ s

/-- Which lines belong to a workgroup's context is read from the contexts alone. -/
theorem contextLine_congr (h : s'.slots = s.slots) (g : Workgroup) : contextLine s' g = contextLine s g := by
  funext l
  simp only [contextLine, State.asidOf, State.slot, h]

/-- What a release sends: at cluster scope or wider the dirty lines of the context (R286, R328). -/
theorem sendReleases_eq (s : State) (g : Workgroup) (rel : Bool) (sc : Nat) : sendReleases s g rel sc =
    if rel = true ∧ 3 ≤ sc then writeBackWhere s g.tile (contextLine s g) else s := by
  simp only [sendReleases, scopeCluster, Bool.and_eq_true, decide_eq_true_eq, ge_iff_le]
  rfl

theorem sendReleases_release (s : State) (g : Workgroup) (sc : Nat) : sendReleases s g true sc =
    if sc < 3 then s else writeBackWhere s g.tile (contextLine s g) := by
  rw [sendReleases_eq]
  by_cases h : sc < 3
  · rw [if_pos h, if_neg (fun hr => absurd hr.2 (Nat.not_le.2 h))]
  · rw [if_neg h, if_pos ⟨rfl, Nat.not_lt.1 h⟩]

theorem sendReleases_slots (s : State) (g : Workgroup) (rel : Bool) (sc : Nat) : (sendReleases s g rel sc).slots = s.slots := by
  rw [sendReleases_eq]
  split
  · exact writeBackWhere_slots ..
  · rfl

/-- When a release has to wait (R328, R341). -/
theorem awaitsAcks_iff (s : State) (g : Workgroup) (w : Warp) (rel : Bool) (sc : BitVec 3) : awaitsAcks s g w rel sc.toNat = true ↔
    rel = true ∧ 3 ≤ sc.toNat ∧ ((s.tile g.tile).unacked ≠ [] ∨ (sc = 6 ∧ w.remote ≠ 0)) := by
  have h6 : sc.toNat = 6 ↔ sc = 6 := by
    revert sc
    decide
  have hwide : sc = 6 → 3 ≤ sc.toNat := fun h => by rw [h]; decide
  simp only [awaitsAcks, scopeCluster, scopeSystem, Bool.and_eq_true, Bool.or_eq_true, decide_eq_true_eq, ge_iff_le, Bool.not_eq_true',
    List.isEmpty_eq_false_iff, beq_iff_eq, bne_iff_ne, h6]
  tauto

/-- What a fence does once nothing is owed: an acquire takes the context's lines out of the tile, a release alone writes them back
(R198, R286, R329). -/
theorem fenceEffect_eq (s : State) (g : Workgroup) (w : Warp) (rel acq : Bool) (sc : Nat) : fenceEffect s g w rel acq sc =
    (if sc < 3 then s else if acq then invalidateWhere s g.tile (contextLine s g)
      else if rel then writeBackWhere s g.tile (contextLine s g) else s, if acq then w.dropPrefetch else w) := rfl

variable {s1 : State} {k : BitVec 2} {sc : BitVec 3}

theorem fence_waits (h : Issues s₀ s (.fence k sc) act r g w)
    (hs : sendReleases (s.setWarp r w) (g.setWarp r.wp w) (k != 1#2) sc.toNat = s1)
    (ha : awaitsAcks s1 (g.setWarp r.wp w) w (k != 1#2) sc.toNat = true) :
    exec (.fence k sc) s₀ = .next (waitAt s1 r w .remote) := by
  show execFence k sc s₀ = _
  rw [execFence, issues_runNamed h]
  simp only [hs, ha, if_true]

theorem fence_retires (h : Issues s₀ s (.fence k sc) act r g w)
    (hs : sendReleases (s.setWarp r w) (g.setWarp r.wp w) (k != 1#2) sc.toNat = s1)
    (ha : awaitsAcks s1 (g.setWarp r.wp w) w (k != 1#2) sc.toNat = false) {q : State × Warp}
    (hq : fenceEffect s1 (g.setWarp r.wp w) w (k != 1#2) (k != 0#2) sc.toNat = q) :
    RetiresFrom s₀ (.fence k sc) r g w q.1 q.2 := by
  show execFence k sc s₀ = _
  rw [execFence, issues_runNamed h]
  simp only [hs, ha, hq, Bool.false_eq_true, if_false]

end

theorem fences_hold : Sys2Proof.Claims.fences := by
  intro s₀ s k sc r g w i s0 g0 mine s1 x h
  have hrel : (k != 1#2) = true ↔ k ≠ 1 := by simp
  have hx : (if (k != 0#2) then w.dropPrefetch else w) = x := by
    by_cases hk : k = 0 <;> simp [x, hk]
  have hs1 : 3 ≤ sc.toNat → sendReleases s0 g0 (k != 1#2) sc.toNat = s1 := by
    intro h3
    rw [sendReleases_eq]
    by_cases hk : k = 1
    · rw [if_neg (fun hr => hrel.1 hr.1 hk)]
      exact (if_pos hk).symm
    · rw [if_pos ⟨hrel.2 hk, h3⟩]
      exact (if_neg hk).symm
  refine ⟨fun h3 => ?_, fun h3 hk howed => ?_, fun h3 hfree => ?_⟩
  · have hsend : sendReleases s0 g0 (k != 1#2) sc.toNat = s0 := by
      rw [sendReleases_eq, if_neg (fun hr => absurd hr.2 (Nat.not_le.2 h3))]
    have hfree : awaitsAcks s0 g0 w (k != 1#2) sc.toNat = false := by
      rw [← Bool.not_eq_true, awaitsAcks_iff]
      omega
    have hactive : x.active = w.active ∧ x.c.ended = w.c.ended := by
      by_cases hk : k = 0
      · simp [x, hk]
      · simp only [x, if_neg hk]
        exact ⟨rfl, rfl⟩
    have hretires := fence_retires h hsend hfree rfl
    rw [fenceEffect_eq, if_pos h3, hx] at hretires
    exact hretires.trans (congrArg _ (retire_goneOn (by simp [hactive]) (hactive.2.trans h.lives)))
  · exact fence_waits h (hs1 h3) ((awaitsAcks_iff ..).2 ⟨hrel.2 hk, h3, howed⟩)
  · have hmine : contextLine s1 g0 = mine := by
      refine contextLine_congr ?_ g0
      rw [← hs1 h3]
      exact sendReleases_slots ..
    have hnone : awaitsAcks s1 g0 w (k != 1#2) sc.toNat = false := by
      rw [← Bool.not_eq_true, awaitsAcks_iff]
      rintro ⟨hr, -, howed⟩
      obtain ⟨hacks, hfar⟩ := hfree.resolve_left (hrel.1 hr)
      exact howed.elim (fun h => h hacks) (fun ⟨h6, hw⟩ => hw (hfar h6))
    have hretires := fence_retires h (hs1 h3) hnone rfl
    rw [fenceEffect_eq, if_neg (Nat.not_lt.2 h3), hx, hmine] at hretires
    by_cases hk : k = 0
    · subst hk
      exact hretires
    · rw [if_neg hk]
      rwa [if_pos (by simpa using hk)] at hretires

/-! ### Lines written back and invalidated -/

section

variable {s : State} {t : Nat}

/-- Where no line is held twice the tile finds each line that it holds. -/
theorem line_of_mem {x : Tile} (hn : (x.lines.map (·.line)).Nodup) {l : Line} (hl : l ∈ x.lines) : x.line l.line = some l := by
  cases hf : x.line l.line with
  | none => exact absurd (List.find?_eq_none.1 hf l hl) (by simp)
  | some l' =>
    obtain ⟨hmem, hnum⟩ := line_number hf
    rw [List.inj_on_of_nodup_map hn hmem hl hnum]

theorem cleaned_same (line : Nat) (l : Line) : (cleaned line l).line = l.line ∧ (cleaned line l).asid = l.asid ∧
    (l.dirty = 0 → (cleaned line l).dirty = 0) ∧ (l.line = line → (cleaned line l).dirty = 0) := by
  by_cases h : l.line = line <;> simp [cleaned, h]

/-- The lines of a tile come from lines of another with their numbers and contexts, clean ones from clean ones. -/
def ComesFrom (ls' ls : List Line) : Prop := ls'.map (·.line) = ls.map (·.line) ∧
  ∀ l ∈ ls', ∃ l0 ∈ ls, l0.line = l.line ∧ l0.asid = l.asid ∧ (l0.dirty = 0 → l.dirty = 0)

theorem writeBackLine_comesFrom (s : State) (t line : Nat) :
    ComesFrom ((writeBackLine s t line).tile t).lines (s.tile t).lines := by
  rcases writeBackLine_lines s t line with h | ⟨h, -⟩
  · rw [h]
    refine ⟨by simp [cleaned_same, Function.comp_def], fun l hl => ?_⟩
    obtain ⟨l0, hl0, rfl⟩ := List.mem_map.1 hl
    obtain ⟨hline, hasid, hclean, -⟩ := cleaned_same line l0
    exact ⟨l0, hl0, hline.symm, hasid.symm, hclean⟩
  · rw [h]
    exact ⟨rfl, fun l hl => ⟨l, hl, rfl, rfl, id⟩⟩

theorem writeBackLine_cleans (hn : ((s.tile t).lines.map (·.line)).Nodup) {line : Nat} {l : Line}
    (hl : l ∈ ((writeBackLine s t line).tile t).lines) (hline : l.line = line) : l.dirty = 0 := by
  rcases writeBackLine_lines s t line with h | ⟨h, hclean⟩
  · rw [h] at hl
    obtain ⟨l0, -, rfl⟩ := List.mem_map.1 hl
    obtain ⟨hnum, -, -, hdirty⟩ := cleaned_same line l0
    exact hdirty (hnum ▸ hline)
  · rw [h] at hl
    exact hclean l (hline ▸ line_of_mem hn hl)

theorem writeBackLines_cleans (ns : List Nat) (hn : ((s.tile t).lines.map (·.line)).Nodup) :
    let s' := ns.foldl (fun s l => writeBackLine s t l) s
    ComesFrom (s'.tile t).lines (s.tile t).lines ∧ ∀ l ∈ (s'.tile t).lines, l.line ∈ ns → l.dirty = 0 := by
  induction ns generalizing s with
  | nil => exact ⟨⟨rfl, fun l hl => ⟨l, hl, rfl, rfl, id⟩⟩, fun l _ hl => absurd hl List.not_mem_nil⟩
  | cons n ns ih =>
    obtain ⟨hnums, hfrom⟩ := writeBackLine_comesFrom s t n
    obtain ⟨⟨hnums', hfrom'⟩, hclean⟩ := ih (hnums ▸ hn)
    refine ⟨⟨hnums'.trans hnums, fun l hl => ?_⟩, fun l hl hline => ?_⟩
    · obtain ⟨l1, hl1, hline1, hasid1, hdirty1⟩ := hfrom' l hl
      obtain ⟨l0, hl0, hline0, hasid0, hdirty0⟩ := hfrom l1 hl1
      exact ⟨l0, hl0, hline0.trans hline1, hasid0.trans hasid1, hdirty1 ∘ hdirty0⟩
    · rcases List.mem_cons.1 hline with hhere | hlater
      · obtain ⟨l1, hl1, hline1, -, hdirty1⟩ := hfrom' l hl
        exact hdirty1 (writeBackLine_cleans hn hl1 (hline1.trans hhere))
      · exact hclean l hl hlater

theorem invalidateLines_lines (ns : List Nat) (s : State) (t : Nat) :
    ((ns.foldl (fun s l => invalidateLine s t l) s).tile t).lines = (s.tile t).lines.filter (fun l => l.line ∉ ns) := by
  induction ns generalizing s with
  | nil => simp
  | cons n ns ih =>
    rw [List.foldl_cons, ih, invalidateLine_lines, List.filter_filter]
    refine List.filter_congr fun l _ => ?_
    by_cases hn : l.line = n <;> simp [hn]

theorem mem_linesWhere {x : Tile} {p : Line → Bool} {l : Line} (hl : l ∈ x.lines) (hp : p l = true) : l.line ∈ x.linesWhere p :=
  List.mem_map.2 ⟨l, List.mem_filter.2 ⟨hl, hp⟩, rfl⟩

end

theorem lineInvalidation_holds : Sys2Proof.Claims.lineInvalidation := by
  intro s t asid hn
  constructor
  · intro l hl hasid
    obtain ⟨⟨-, hfrom⟩, hclean⟩ := writeBackLines_cleans ((s.tile t).linesWhere (fun l => l.asid == asid)) hn
    obtain ⟨l0, hl0, hline0, hasid0, -⟩ := hfrom l hl
    exact hclean l hl (hline0 ▸ mem_linesWhere hl0 (by simp [hasid0, hasid]))
  · intro l hl hasid
    rw [invalidateWhere, invalidateLines_lines] at hl
    obtain ⟨hmem, hkept⟩ := List.mem_filter.1 hl
    exact of_decide_eq_true hkept (mem_linesWhere hmem (by simp [hasid]))

/-- Settles O24: a fence by its kind and scope, and the lines of a context after each has been written back or taken out. -/
theorem fencesAndLines : Obligations.FencesAndLines := by
  unfold Obligations.FencesAndLines
  exact ⟨fences_hold, lineInvalidation_holds⟩

/-! ### Objects -/

section

variable {s₀ s s1 s2 : State} {i : Instr} {r : WRef} {g : Workgroup} {w : Warp} {d a : BitVec 6} {sc : BitVec 3} {y : Xlated} {v : Nat}

/-- An object whose place translates and whose request meets no error is accessed (R197, R449). -/
theorem objectAccess_goes {va : Nat} {k : Acc} {go : State → Xlated → State} {fail : State → Nat → State}
    (hc : checkAccess s g w k va 8 = (s1, .ok y)) (hf : w.farFault y 32 va = none) :
    objectAccess s r g w k va go fail = go s1 y := by
  simp only [objectAccess, uniformAccess, hc, Int.toNat_natCast, hf]

/-- One whose request meets an error completion fails with its kind (R449). -/
theorem objectAccess_fails {va e : Nat} {k : Acc} {go : State → Xlated → State} {fail : State → Nat → State}
    (hc : checkAccess s g w k va 8 = (s1, .ok y)) (hf : w.farFault y 32 va = some e) :
    objectAccess s r g w k va go fail = fail s1 e := by
  simp only [objectAccess, uniformAccess, hc, Int.toNat_natCast, hf]

/-- An error completion of an object's request is a global fault, with the uniform record (R449). -/
theorem object_fails {k : Acc} {typ : Nat} {go : WRef → Workgroup → Warp → State → Xlated → State} (h : Issues s₀ s i act r g w)
    (he : exec i s₀ = runNamed s₀ i (fun w => w.active) (fun s r g w => objectAccess s r g w k (w.sget a.toNat).toNat (go r g w)
      (fun s e => retireWithRecords s r g w w false [uniRecord w (w.sget a.toNat).toNat e typ])))
    (hc : checkAccess (s.setWarp r w) (g.setWarp r.wp w) w k (w.sget a.toNat).toNat 8 = (s1, .ok y)) {e : Nat}
    (hf : w.farFault y 32 (w.sget a.toNat).toNat = some e) : exec i s₀ = .next (retireWithRecords s1 r
      (g.setWarp r.wp w) w w false [uniRecord w (w.sget a.toNat).toNat e typ]) := by
  rw [he, issues_runNamed h, objectAccess_fails hc hf]

theorem acq_retires (h : Issues s₀ s (.acq d a sc) act r g w)
    (hc : checkAccess (s.setWarp r w) (g.setWarp r.wp w) w .atomic (w.sget a.toNat).toNat 8 = (s1, .ok y))
    (hf : w.farFault y 32 (w.sget a.toNat).toNat = none) (ho : chanObject s1 g.tile y.pa = (s2, v, false)) :
    RetiresFrom s₀ (.acq d a sc) r g w (invalidateWhere s2 g.tile (boundLine s2 (g.setWarp r.wp w) (w.sget a.toNat).toNat))
      ((w.sset d.toNat (BitVec.ofNat 64 v)).dropPrefetch) := by
  have ho' : chanObject s1 (g.setWarp r.wp w).tile y.pa = (s2, v, false) := ho
  show execAcq d a sc s₀ = _
  rw [execAcq, issues_runNamed h]
  simp only [objectAccess_goes hc hf, ho', Bool.false_eq_true, if_false, Int.toNat_natCast]
  rfl

/-- The machine once a release has written back the lines of the regions bound to its object (R197, R286). -/
def releasedAt (s : State) (g : Workgroup) (va : Nat) (sc : BitVec 3) : State :=
  if sc.toNat < 3 then s else writeBackWhere s g.tile (boundLine s g va)

theorem rel_runs (h : Issues s₀ s (.rel d a sc) act r g w)
    (hc : checkAccess (s.setWarp r w) (g.setWarp r.wp w) w .relObj (w.sget a.toNat).toNat 8 = (s1, .ok y))
    (hf : w.farFault y 32 (w.sget a.toNat).toNat = none)
    (hs : releasedAt s1 (g.setWarp r.wp w) (w.sget a.toNat).toNat sc = s2) : exec (.rel d a sc) s₀ = .next (
      if awaitsAcks s2 (g.setWarp r.wp w) w true sc.toNat then waitAt s2 r w .remote
      else retire (chanWrite (invalidateLine s2 g.tile (y.pa / 128)) y.pa 8 (w.sget d.toNat).toNat) r (g.setWarp r.wp w) w
        { w.noteStores true 8 [(32, (w.sget a.toNat).toNat, .ok y)] with
          posted := w.posted ++ (farRecords w (32 + 8) [(32, (w.sget a.toNat).toNat, .ok y)]).map
            (fun f => (w.c.handler.isSome, f)) } false) := by
  subst hs
  show execRel d a sc s₀ = _
  rw [execRel, issues_runNamed h]
  simp only [objectAccess_goes hc hf, Int.toNat_natCast]
  rfl

/-! ### Waiting on a counter -/

/-- WAITC retires as an acquire at system scope (R277). -/
theorem waitcDone_eq (s : State) (r : WRef) (g : Workgroup) (w : Warp) : waitcDone s r g w =
    retire (invalidateWhere s g.tile (contextLine s g)) r g w w.dropPrefetch false := rfl

theorem waitc_tests (h : Issues s₀ s (.waitc d a) act r g w)
    (hc : checkAccess (s.setWarp r w) (g.setWarp r.wp w) w .waitObj (w.sget a.toNat).toNat 8 = (s1, .ok y))
    (hf : w.farFault y 32 (w.sget a.toNat).toNat = none) (ho : chanObject s1 g.tile y.pa = (s2, v, false)) :
    exec (.waitc d a) s₀ = .next (if v < (w.sget d.toNat).toNat then
        waitAt s2 r w (.counter (w.sget a.toNat).toNat (w.sget d.toNat).toNat)
      else waitcDone s2 r (g.setWarp r.wp w) w) := by
  have ho' : chanObject s1 (g.setWarp r.wp w).tile y.pa = (s2, v, false) := ho
  show execWaitc d a s₀ = _
  rw [execWaitc, issues_runNamed h]
  simp only [objectAccess_goes hc hf, ho', Bool.false_eq_true, if_false, Int.toNat_natCast]

variable {q : WRef} {h : Workgroup} {x : Warp} {n : Nat}

/-- A warp whose walker has no room for the walk that its counter needs issues again (R277, R300). -/
theorem testCounter_held (hg : s.wg q.wg = some h) (hw : s.warp q = some x) (hx : x.c.wait = .counter v n)
    (hz : s.frozen q = false) (hh : walkHeld s h.tile h.slot v = true) (far : Bool) :
    testCounter s q far = waitAt s q x .none := by
  simp only [testCounter, hg, hw, hz, hx, hh, Bool.false_eq_true, if_false, if_true]

/-- One whose counter can be read retires once it has the value, and waits on while it has not; where remote counters alone are
tested the counter's place is remote (R277, R344). -/
theorem testCounter_tests (hg : s.wg q.wg = some h) (hw : s.warp q = some x) (hx : x.c.wait = .counter v n)
    (hz : s.frozen q = false) (hh : walkHeld s h.tile h.slot v = false)
    (ht : Machine.translate s h.tile h.slot v .waitObj = (s1, .ok y)) (hf : x.farFault y 32 v = none) {c : Nat}
    (ho : chanObject s1 h.tile y.pa = (s2, c, false)) {far : Bool} (hfar : far = true → y.pa / 2 ^ 48 ≠ 0) :
    testCounter s q far = if c < n then s2 else waitcDone s2 q h x := by
  have hskip : (far && spaceOf y.pa == 0) = false := by
    cases far with
    | false => rfl
    | true => exact beq_eq_false_iff_ne.2 (hfar rfl)
  simp only [testCounter, hg, hw, hz, hx, hh, ht, hskip, hf, Option.isSome_none, ho, Bool.false_eq_true, if_false]

/-! ### PUBLISH -/

/-- A release that has been sent and is owed nothing has, from cluster scope on, its context's lines written back (R286, R328). -/
theorem releaseEffect_eq (s : State) (g : Workgroup) (w : Warp) (sc : Nat) : fenceEffect s g w true false sc =
    (if sc < 3 then s else writeBackWhere s g.tile (contextLine s g), w) := rfl

/-- PUBLISH, a release from cluster scope on, in the machine s3 that it leaves: its status, or its wait for the home (R199, R297). -/
theorem publish_runs {s3 : State} (h : Issues s₀ s (.publish d a sc) act r g w)
    (hs : sendReleases (s.setWarp r w) (g.setWarp r.wp w) true sc.toNat = s2)
    (hq : fenceEffect s2 (g.setWarp r.wp w) w true false sc.toNat = (s3, w)) {f : Option (Nat × BitVec 256)}
    (hf : findRange (rangeTable s3 ((s3.slot g.slot).rtab * 2048)) (w.sget a.toNat).toNat 0 = f) :
    (awaitsAcks s2 (g.setWarp r.wp w) w true sc.toNat = true → exec (.publish d a sc) s₀ = .next (waitAt s2 r w .remote)) ∧
    (awaitsAcks s2 (g.setWarp r.wp w) w true sc.toNat = false →
      (f = none → RetiresFrom s₀ (.publish d a sc) r g w s3 (w.sset d.toNat 1)) ∧
      (∀ k e, f = some (k, e) →
        (rangeField e 6 1 = 0 → RetiresFrom s₀ (.publish d a sc) r g w s3 (w.sset d.toNat 2)) ∧
        (rangeField e 6 1 ≠ 0 → exec (.publish d a sc) s₀ = .next (waitAt { s3 with issues := s3.issues + 1 } r w
          (.publish (w.sget a.toNat).toNat d.toNat s3.issues))))) := by
  have hf' : findRange (rangeTable s3 ((s3.slot (g.setWarp r.wp w).slot).rtab * 2048)) (w.sget a.toNat).toNat 0 = f := hf
  have hruns : exec (.publish d a sc) s₀ = execPublish d a sc s₀ := rfl
  rw [execPublish, issues_runNamed h] at hruns
  simp only [hs, hq] at hruns
  refine ⟨fun ha => ?_, fun ha => ⟨fun hn => ?_, fun k e hk => ⟨fun h0 => ?_, fun h1 => ?_⟩⟩⟩
  · simpa only [ha, if_true] using hruns
  · simpa only [RetiresFrom, ha, Bool.false_eq_true, if_false, hf', hn] using hruns
  · simpa only [RetiresFrom, ha, Bool.false_eq_true, if_false, hf', hk, if_pos h0] using hruns
  · simpa only [ha, Bool.false_eq_true, if_false, hf', hk, if_neg h1] using hruns

/-- The home exchanges the offsets of the entry that an earlier PUBLISH does not hold up (R297). -/
theorem publishExchange_retires (hg : s.wg q.wg = some h) (hw : s.warp q = some x) {o k : Nat} {e : BitVec 256}
    (hx : x.c.wait = .publish v n o) (hf : findRange (rangeTable s ((s.slot h.slot).rtab * 2048)) v 0 = some (k, e))
    (he : rangeField e 6 1 ≠ 0) (hfirst : publishBefore s h.slot k o = false) :
    exec (.publishExchange q) s = .next (retire (writeRange s h.slot k (exchanged e)) q h x (x.sset n 0) false) := by
  show execPublishExchange q s = _
  simp only [execPublishExchange, hg, hw, hx, hf, if_neg he, hfirst, Bool.false_eq_true, if_false]

end

/-- Seven fields laid one above the other read back as they were put. -/
theorem fields_of_sum {a sh lv k gn o : Nat} (ha : a < 2 ^ 108) (hs : sh < 2 ^ 40) (hl : lv < 2 ^ 40) (hk : k < 2 ^ 4)
    (hg : gn < 2 ^ 16) (ho : o < 2 ^ 48) :
    let x := a + k * 2 ^ 188 + o * 2 ^ 208 + sh * 2 ^ 108 + lv * 2 ^ 148 + gn * 2 ^ 192
    x < 2 ^ 256 ∧ x % 2 ^ 108 = a ∧ x / 2 ^ 108 % 2 ^ 40 = sh ∧ x / 2 ^ 148 % 2 ^ 40 = lv ∧ x / 2 ^ 192 % 2 ^ 16 = gn ∧
      x / 2 ^ 208 % 2 ^ 48 = o := by
  intro x
  refine ⟨?_, ?_, ?_, ?_, ?_, ?_⟩ <;> omega

/-- The exchange swaps the offsets, advances the generation and keeps the fields below and above them (R297). -/
theorem exchanged_fields (e : BitVec 256) :
    rangeField (exchanged e) 108 40 = rangeField e 148 40 ∧ rangeField (exchanged e) 148 40 = rangeField e 108 40 ∧
    rangeField (exchanged e) 192 16 = (rangeField e 192 16 + 1) % 2 ^ 16 ∧ rangeField (exchanged e) 0 108 = rangeField e 0 108 ∧
    rangeField (exchanged e) 208 48 = rangeField e 208 48 := by
  have hfield : ∀ lo n, rangeField e lo n < 2 ^ n := fun lo n => Nat.mod_lt _ (Nat.two_pow_pos n)
  obtain ⟨hlt, hlow, hlive, hshadow, hgen, htop⟩ := fields_of_sum (Nat.mod_lt e.toNat (Nat.two_pow_pos 108)) (hfield 148 40)
    (hfield 108 40) (hfield 188 4) (Nat.mod_lt (rangeField e 192 16 + 1) (Nat.two_pow_pos 16)) (hfield 208 48)
  have hex : (exchanged e).toNat = _ := (BitVec.toNat_ofNat ..).trans (Nat.mod_eq_of_lt hlt)
  simp only [rangeField] at hex hlive hshadow hgen htop hlow ⊢
  rw [hex]
  exact ⟨hlive, hshadow, hgen, by simpa using hlow, htop⟩

/-- Settles O25: each instruction and each event is what its runner answers for an object that can be accessed. -/
theorem orderingObjects : Obligations.OrderingObjects := by
  unfold Obligations.OrderingObjects
  intro s₀ s d a sc r g w s1 y s0 g0 va check fails sees
  refine ⟨fun h ⟨hc, hf⟩ s2 v ho => acq_retires h hc hf ho, fun h ⟨hc, hf⟩ => ?_, fun h ⟨hc, hf⟩ s2 v ho => ?_,
    fun h hc e hf => object_fails h (execAcq.eq_def d a sc s₀) hc hf,
    fun h hc e hf => object_fails h (execRel.eq_def d a sc s₀) hc hf,
    fun h hc e hf => object_fails h (execWaitc.eq_def d a s₀) hc hf,
    fun h => ?_, ?_, exchanged_fields⟩
  · have hruns := rel_runs h hc hf rfl
    exact ⟨fun ha => hruns.trans (congrArg _ (if_pos ha)),
      fun ha => hruns.trans (congrArg _ (if_neg (Bool.not_eq_true _ ▸ ha)))⟩
  · have htests := waitc_tests h hc hf ho
    exact ⟨fun hv => htests.trans (congrArg _ (if_pos hv)), fun hv => htests.trans (congrArg _ (if_neg (Nat.not_lt.2 hv)))⟩
  · intro mine s2 s3 owed table
    have hs : sendReleases s0 g0 true sc.toNat = s2 := sendReleases_release ..
    have hq : fenceEffect s2 g0 w true false sc.toNat = (s3, w) := by
      rw [releaseEffect_eq, contextLine_congr (hs ▸ sendReleases_slots ..) g0]
      rfl
    have howed : awaitsAcks s2 g0 w true sc.toNat = true ↔ owed := (awaitsAcks_iff ..).trans (and_iff_right rfl)
    have hfree : ¬ owed → awaitsAcks s2 g0 w true sc.toNat = false := fun ho => Bool.not_eq_true _ ▸ mt howed.1 ho
    obtain ⟨hwaits, hgoes⟩ := publish_runs h hs hq rfl
    exact ⟨fun ho => hwaits (howed.2 ho), fun ho => (hgoes (hfree ho)).1, fun k e ho => (hgoes (hfree ho)).2 k e⟩
  · intro q h x v n o hg hw
    refine ⟨fun hx hz hh => congrArg _ (testCounter_held hg hw hx hz hh false), fun hx hz hh s1 y s2 c ht hf ho => ?_,
      fun hx k e hf he hfirst => publishExchange_retires hg hw hx hf he hfirst⟩
    have htest : ∀ {far}, (far = true → y.pa / 2 ^ 48 ≠ 0) → testCounter s q far = if c < n then s2 else waitcDone s2 q h x :=
      fun hfar => testCounter_tests hg hw hx hz hh ht hf ho hfar
    have hnear : testCounter s q false = if c < n then s2 else waitcDone s2 q h x := htest (fun h => absurd h Bool.false_ne_true)
    refine ⟨fun hn => ?_, fun hn => ?_, fun hn hfar => ?_, fun hn hfar => ?_⟩
    · exact congrArg _ (hnear.trans (if_pos hn))
    · exact congrArg _ (hnear.trans (if_neg (Nat.not_lt.2 hn)))
    · exact congrArg _ ((htest fun _ => hfar).trans (if_pos hn))
    · exact congrArg _ ((htest fun _ => hfar).trans (if_neg (Nat.not_lt.2 hn)))

end Sys2Proof.Proofs

/-! PROOFS of the family of the matrix engine: how MMA and MMT start or trap, what a product that starts holds of its warp, and what
MZERO and MSCALE write. -/

namespace Sys2Proof.Proofs

open Sys2Proof.Machine Sys2Proof.Claims Sys2Proof.Laws Sys2Proof.Laws.State

/-! ### What a matrix instruction answers -/

/-- A matrix instruction traps with 0x0A: its record or row mask is bad, or the arrival of an MMT cannot join (R220, R222, R235). -/
def matrixRefused (s : State) (g : Workgroup) (w : Warp) (team : Option Nat) (sr n : Nat) (mask : Mask) : Bool :=
  matrixBad g w team.isSome sr n mask || (team.isSome && arrivalBad s g (team.bind (openTeam s (clusterOf g.tile) g.gang))
    (recordWords w sr (recordLen w team.isSome sr)))

theorem matrixRefused_mma (s : State) (g : Workgroup) (w : Warp) (sr n : Nat) (mask : Mask) :
    matrixRefused s g w none sr n mask = matrixBad g w false sr n mask := Bool.or_false _

theorem matrixRefused_mmt (s : State) (g : Workgroup) (w : Warp) (t sr n : Nat) (mask : Mask) :
    matrixRefused s g w (some t) sr n mask = (matrixBad g w true sr n mask ||
      arrivalBad s g (openTeam s (clusterOf g.tile) g.gang t) (recordWords w sr (recordLen w true sr))) := rfl

section

variable {s₀ s : State} {i : Instr} {r : WRef} {g : Workgroup} {w : Warp} {p : BitVec 3} {sr : BitVec 6} {f : BitVec 1}
  {v : BitVec 7} {n : BitVec 2} {team : Option Nat}

/-- A warp that retires reads as it went on. -/
theorem warp_retiredAs (hg : s.wg r.wg = some g) (u : Warp) : (retiredAs s r u).warp r = some u :=
  stateWarp_setWarp _ r g u hg

variable (h : Issues s₀ s i act r g w)
include h

/-- A refused matrix instruction traps before its accumulators are looked at (R220, R222, R235). -/
theorem runMatrix_refused
    (hbad : matrixRefused (s.setWarp r w) (g.setWarp r.wp w) w team sr.toNat (accWidth n) (w.pget p.toNat) = true) :
    runMatrix s₀ i p sr f v n team = .next (preciseTrap ((s.setWarp r w).setWarp r w) r w 0x0A) := by
  rw [runMatrix, issues_runNamed h, setWarp_twice]
  exact congrArg _ (if_pos hbad)

/-- One whose accumulators have another tag traps (R223). -/
theorem runMatrix_otherTag
    (hbad : matrixRefused (s.setWarp r w) (g.setWarp r.wp w) w team sr.toNat (accWidth n) (w.pget p.toNat) = false)
    (htag : accTagged w v.toNat (accWidth n) (recordWords w sr.toNat (recordLen w team.isSome sr.toNat)) = false) :
    runMatrix s₀ i p sr f v n team = .next (preciseTrap ((s.setWarp r w).setWarp r w) r w 0x02) := by
  rw [runMatrix, issues_runNamed h, setWarp_twice]
  exact congrArg _ ((if_neg (Bool.not_eq_true _ ▸ hbad)).trans (if_neg (Bool.not_eq_true _ ▸ htag)))

/-- Any other retires and then starts, from the warp as it went on (R223). -/
theorem runMatrix_starts
    (hbad : matrixRefused (s.setWarp r w) (g.setWarp r.wp w) w team sr.toNat (accWidth n) (w.pget p.toNat) = false)
    (htag : accTagged w v.toNat (accWidth n) (recordWords w sr.toNat (recordLen w team.isSome sr.toNat)) = true) :
    runMatrix s₀ i p sr f v n team = .next (startMatrix (retiredAs s r (goneOn s.issues w)) r (g.setWarp r.wp w)
      (goneOn s.issues w) team sr.toNat v.toNat (accWidth n) p.toNat (w.flagOf f) (w.pget p.toNat)
      (mrowStart team (w.flagOf f) p.toNat n.toNat v.toNat sr.toNat) w.pcOf w.c.pos.hdr w.c.pos.idx) := by
  rw [runMatrix, issues_runNamed h]
  refine congrArg _ ((if_neg (Bool.not_eq_true _ ▸ hbad)).trans ((if_pos htag).trans ?_))
  dsimp only
  rw [retire_goneOn id h.lives, warp_retiredAs (issues_wg h)]

end

/-! ### What a product that starts holds -/

@[simp] theorem goneOn_r (n : Nat) (w : Warp) : (goneOn n w).r = w.r := advance_r w
@[simp] theorem goneOn_sget (n : Nat) (w : Warp) (d : Nat) : (goneOn n w).sget d = w.sget d := advance_sget w d
@[simp] theorem goneOn_vget (n : Nat) (w : Warp) (d : Nat) : (goneOn n w).vget d = w.vget d := advance_vget w d
@[simp] theorem goneOn_flag (n : Nat) (w : Warp) (k : Nat) : (goneOn n w).flag k = w.flag k := by
  simp only [Warp.flag, goneOn_r]

/-- Going on leaves the s-registers, and with them a record and its length. -/
theorem goneOn_record (m : Nat) (w : Warp) (team : Bool) (sr : Nat) : recordWords (goneOn m w) sr (recordLen (goneOn m w) team sr) =
    recordWords w sr (recordLen w team sr) := by
  have hget : (goneOn m w).sget = w.sget := funext (goneOn_sget m w)
  simp only [recordWords, recordLen, mmaRecordLen, mmtRecordLen, hget]

section

variable (k : Nat) (w : Warp) (p : BitVec 3) (sr : BitVec 6) (f : BitVec 1) (v : BitVec 7) (n : BitVec 2)

/-- The warp that has retired its MMA as the k-th issue and holds its run, with MROW at its start. -/
def mmaBegun : Warp :=
  ((goneOn k w).beginMatrix none sr.toNat v.toNat (accWidth n) p.toNat (w.flagOf f) (w.pget p.toNat) w.pcOf w.c.pos.hdr
    w.c.pos.idx).setMrow (mrowStart none (w.flagOf f) p.toNat n.toNat v.toNat sr.toNat)

/-- Its flag is 1 higher (R54). -/
theorem mmaBegun_flag : (mmaBegun k w p sr f v n).flag (w.flagOf f) = w.flag (w.flagOf f) + 1 := by
  have hcounts : (mmaBegun k w p sr f v n).flag (w.flagOf f) = (goneOn k w).flag (w.flagOf f) + 1 := get_set_same _ _ _ _
  rw [hcounts, goneOn_flag]

/-- Its other registers are as they were. -/
theorem mmaBegun_r : (mmaBegun k w p sr f v n).r = { w.r with flags := (mmaBegun k w p sr f v n).r.flags } := by
  have hregs : (mmaBegun k w p sr f v n).r = { (goneOn k w).r with flags := (mmaBegun k w p sr f v n).r.flags } := rfl
  rwa [goneOn_r] at hregs

/-- The run has no team, and holds the record as the MMA read it, its accumulators and its row mask (R223, R224). -/
theorem mmaBegun_mat : ∃ m, (mmaBegun k w p sr f v n).mat = some m ∧ m.team = none ∧
    m.words = recordWords w sr.toNat (recordLen w false sr.toNat) ∧ m.vd = v.toNat ∧ m.n = accWidth n ∧ m.mask = w.pget p.toNat :=
  ⟨_, rfl, rfl, goneOn_record k w false sr.toNat, rfl, rfl, rfl⟩

end

/-- An MMA that is not refused takes a place behind the products of its tile (R224). -/
theorem mma_starts {s₀ s : State} {r : WRef} {g : Workgroup} {w : Warp} {p : BitVec 3} {sr : BitVec 6} {f : BitVec 1}
    {v : BitVec 7} {n : BitVec 2} (h : Issues s₀ s (.mma p sr f v n) act r g w)
    (hbad : matrixBad (g.setWarp r.wp w) w false sr.toNat (accWidth n) (w.pget p.toNat) = false)
    (htag : accTagged w v.toNat (accWidth n) (recordWords w sr.toNat (recordLen w false sr.toNat)) = true) :
    exec (.mma p sr f v n) s₀ =
      .next ((retiredAs s r (mmaBegun s.issues w p sr f v n)).updEngine g.tile (fun q => q ++ [.mma r])) := by
  have hstarts := runMatrix_starts (f := f) (team := none) h ((matrixRefused_mma ..).trans hbad) htag
  rw [startMatrix, retiredAs, setWarp_twice] at hstarts
  exact hstarts

/-! ### MZERO -/

/-- The warp with registers zeroed in its active lanes and given a tag, one after the other. -/
def zeroedIn (tag : BitVec 5) (ns : List Nat) (w : Warp) : Warp :=
  ns.foldl (fun w k => writeDst w (.reg k) tag w.active 0 (fun _ => 0)) w

/-- The active lanes are the same at each register, so that each is written as one that an index names. -/
theorem zeroedIn_eq (tag : BitVec 5) (ns : List Nat) (w : Warp) :
    zeroedIn tag ns w = ns.foldl (writeNamed tag (fun _ => w.active) (fun _ => 0)) w := by
  induction ns generalizing w with
  | nil => rfl
  | cons k ns ih =>
    have hhead : writeDst w (.reg k) tag w.active 0 (fun _ => 0) = writeNamed tag (fun _ => w.active) (fun _ => 0) w k := by
      rw [writeDst_reg, writeNamed, show ~~~(0 : Mask) = BitVec.allOnes 32 from rfl, BitVec.and_allOnes]
    refine (ih (writeDst w (.reg k) tag w.active 0 (fun _ => 0))).trans ?_
    rw [List.foldl_cons, hhead]
    rfl

/-- Zeroing changes vector registers alone. -/
theorem zeroedIn_frame (tag : BitVec 5) (ns : List Nat) (w : Warp) :
    zeroedIn tag ns w = { w with r := { w.r with v := (zeroedIn tag ns w).r.v } } := by
  induction ns generalizing w with
  | nil => rfl
  | cons k ns ih => exact ih (writeDst w (.reg k) tag w.active 0 (fun _ => 0))

/-- MZERO retires with its accumulators zeroed (R227). -/
theorem mzero_retires {s₀ s : State} {r : WRef} {g : Workgroup} {w : Warp} {v : BitVec 7} {n : BitVec 2} {t : BitVec 1}
    (h : Issues s₀ s (.mzero v n t) act r g w) : RetiresAs s₀ s (.mzero v n t) r
      (goneOn s.issues (zeroedIn (if t = 0 then 0x11#5 else 0x05#5) (span v.toNat (accWidth n)) w)) := by
  have hframe := zeroedIn_frame (if t = 0 then 0x11#5 else 0x05#5) (span v.toNat (accWidth n)) w
  show execMzero v n t s₀ = _
  rw [execMzero, issues_runNamed h]
  refine congrArg _ (retire_goneOn (fun ha => ?_) ?_)
  · exact (congrArg Warp.active hframe).trans_ne ha
  · exact (congrArg (·.c.ended) hframe).trans h.lives

/-- Settles O35: MMA and MMT by what the matrix runner answers for them, MZERO by what zeroing leaves of each register, MSCALE as an
instruction that writes one s-register. -/
theorem matrixStarts : Obligations.MatrixStarts := by
  unfold Obligations.MatrixStarts
  intro s₀ s p sr d a f v n t tg k r g w s0 g0 mask flag words late x
  refine ⟨fun h => ⟨fun hbad => ?_, fun hbad htag => ?_, fun hbad htag => ?_⟩,
    fun h => ⟨fun hbad => ?_, fun hbad hlate htag => ?_, fun hbad hlate htag => ?_⟩, fun h => ?_,
    fun h => runSet_writes h (fun w => BitVec.ofNat 64 (mscaleCode k (fieldOf (w.sget a.toNat) 0 32))) rfl rfl⟩
  · exact runMatrix_refused (team := none) h ((matrixRefused_mma ..).trans hbad)
  · exact runMatrix_otherTag (team := none) h ((matrixRefused_mma ..).trans hbad) htag
  · exact ⟨mmaBegun s.issues w p sr f v n, mma_starts h hbad htag, rfl, mmaBegun_flag .., mmaBegun_mat .., mmaBegun_r ..⟩
  · exact runMatrix_refused (n := 2) (team := some t.toNat) h ((matrixRefused_mmt ..).trans (Bool.or_eq_true_iff.2 hbad))
  · exact runMatrix_otherTag (n := 2) (team := some t.toNat) h
      ((matrixRefused_mmt ..).trans (Bool.or_eq_false_iff.2 ⟨hbad, hlate⟩)) htag
  · exact ⟨_, warp_retiredAs (issues_wg h) _, rfl, runMatrix_starts (n := 2) (team := some t.toNat) h
      ((matrixRefused_mmt ..).trans (Bool.or_eq_false_iff.2 ⟨hbad, hlate⟩)) htag⟩
  · refine ⟨_, mzero_retires h, fun j hj => ?_, fun j hj => ?_, ?_⟩
    · rw [goneOn_vget, zeroedIn_eq]
      exact vget_writeNamed w hj
    · rw [goneOn_vget, zeroedIn_eq]
      exact vget_writeNamed_other w hj
    · rw [goneOn_r, ← goneOn_regs, ← zeroedIn_frame]

end Sys2Proof.Proofs

/-! PROOFS of the family of copies, barriers and convoys: what the barrier instructions leave of their object and whom a wake finds,
when a stream joins, leaves or is held by its convoy, what a copy is at issue and what a streamer makes of it, and what a reply of the
fault ring releases. -/

namespace Sys2Proof.Proofs

open Sys2Proof.Machine Sys2Proof.Claims Sys2Proof.Laws Sys2Proof.Laws.State

/-! ### Transaction barriers: the object -/

/-- A barrier's place is legal when it is aligned and lies in the scratchpad (R261). -/
theorem tbarPlaceOk_iff (g : Workgroup) (off : Nat) : tbarPlaceOk g off = true ↔ off % 16 = 0 ∧ off + 16 ≤ g.spAlloc := by
  simp [tbarPlaceOk]

/-- An object is a barrier when its zero bits are clear and its count is not 0 (R261). -/
theorem tbarSound_iff (b : TBar) : tbarSound b = true ↔ b.zero = 0 ∧ b.init ≠ 0 ∧ b.rest = 0 := by
  simp [tbarSound, and_assoc]

/-- The bits of the fields of an object are its bits (R258). -/
theorem tbarBits_tbarOf (n : Nat) : tbarBits (tbarOf n) = n := by
  simp only [tbarBits, tbarOf]
  omega

/-- The bits of a word above its low n are clear when its value is below 2 ^ n. -/
theorem fieldOf_high_eq_zero {n : Nat} (hn : n ≤ 64) (x : Reg) : fieldOf x n (64 - n) = 0 ↔ x.toNat < 2 ^ n := by
  have hlt : x.toNat / 2 ^ n < 2 ^ (64 - n) := by
    rw [Nat.div_lt_iff_lt_mul (Nat.two_pow_pos n), ← Nat.pow_add, Nat.sub_add_cancel hn]
    exact x.isLt
  rw [fieldOf, Nat.mod_eq_of_lt hlt, Nat.div_eq_zero_iff_lt (Nat.two_pow_pos n)]

/-- A field that holds the whole value of a word. -/
theorem fieldOf_low_eq {n : Nat} {x : Reg} (h : x.toNat < 2 ^ n) : fieldOf x 0 n = x.toNat :=
  (fieldOf_zero x n).trans (Nat.mod_eq_of_lt h)

/-! ### TBINIT, TBEXP and TBARR -/

section

variable {s₀ s : State} {i : Instr} {r : WRef} {g : Workgroup} {w : Warp} {a : BitVec 6} {sib : Bool} {k : Nat}
  {bad : Warp → TBar → Bool} {f : Warp → TBar → TBar × Warp}

/-- An instruction whose object may be named and passes the checks of R261. -/
def barrierOk (bad : Warp → TBar → Bool) (w : Warp) (h : Workgroup) (off : Nat) : Prop :=
  tbarPlaceOk h off = true ∧ bad w (tbarAt h off) = false

variable {u : Nat} {x : Workgroup} {b : TBar} {y : Warp} {s1 s2 : State} {sc : Nat} (h : Issues s₀ s i act r g w)
include h

/-- One whose object is not to be found, or does not pass, traps with no effect (R261). -/
theorem runBarrier_traps (he : exec i s₀ = runBarrier s₀ i a sib k bad f)
    (hbad : ∀ u x, barrierHolder (s.setWarp r w) r (g.setWarp r.wp w) sib k = some (u, x) →
      ¬ barrierOk bad w x (w.sget a.toNat).toNat) : exec i s₀ = .next (preciseTrap (s.setWarp r w) r w 0x09) := by
  rw [he, runBarrier, issues_runNamed h]
  dsimp only
  cases hu : barrierHolder (s.setWarp r w) r (g.setWarp r.wp w) sib k with
  | none => rfl
  | some q =>
    refine congrArg _ (if_neg fun hok => hbad q.1 q.2 hu ?_)
    simpa [barrierOk] using hok

/-- One whose object passes releases, waits while an acknowledgement is owed, and then updates the object and retires (R259, R263). -/
theorem runBarrier_runs (he : exec i s₀ = runBarrier s₀ i a sib k bad f)
    (hu : barrierHolder (s.setWarp r w) r (g.setWarp r.wp w) sib k = some (u, x))
    (hok : barrierOk bad w x (w.sget a.toNat).toNat) (hb : f w (tbarAt x (w.sget a.toNat).toNat) = (b, y))
    (hsc : (if sib then scopeCluster else scopeWg) = sc)
    (hs : sendReleases (s.setWarp r w) (g.setWarp r.wp w) true sc = s1)
    (hf : fenceEffect s1 (g.setWarp r.wp w) w true false sc = (s2, w)) :
    exec i s₀ = .next (if awaitsAcks s1 (g.setWarp r.wp w) w true sc then waitAt s1 r w .remote else
      retire (s2.updWg u (fun z => tbarPut z (w.sget a.toNat).toNat b)) r (g.setWarp r.wp w) w y false) := by
  obtain ⟨hplace, hgood⟩ := hok
  rw [he, runBarrier, issues_runNamed h]
  dsimp only
  rw [hu]
  dsimp only
  rw [if_pos (by rw [hplace, hgood]; rfl), hsc, hs, hf]
  dsimp only
  rw [hb]

/-- On a barrier of the warp's own workgroup the release is at workgroup scope, which has nothing to wait for (R263). -/
theorem runBarrier_own (he : exec i s₀ = runBarrier s₀ i a false k bad f)
    (hok : barrierOk bad w (g.setWarp r.wp w) (w.sget a.toNat).toNat)
    (hb : f w (tbarAt (g.setWarp r.wp w) (w.sget a.toNat).toNat) = (b, y)) :
    RetiresFrom s₀ i r g w ((s.setWarp r w).updWg r.wg (fun z => tbarPut z (w.sget a.toNat).toNat b)) y :=
  runBarrier_runs h he rfl hok hb rfl rfl rfl

/-- On a sibling's barrier it is at cluster scope: the context's lines are written back (R263, R328). -/
theorem runBarrier_sibling {mine : Line → Bool} (he : exec i s₀ = runBarrier s₀ i a true k bad f)
    (hu : barrierHolder (s.setWarp r w) r (g.setWarp r.wp w) true k = some (u, x))
    (hok : barrierOk bad w x (w.sget a.toNat).toNat) (hb : f w (tbarAt x (w.sget a.toNat).toNat) = (b, y))
    (hmine : contextLine (s.setWarp r w) (g.setWarp r.wp w) = mine)
    (hs : writeBackWhere (s.setWarp r w) g.tile mine = s1) :
    ((s1.tile g.tile).unacked ≠ [] → exec i s₀ = .next (waitAt s1 r w .remote)) ∧
    ((s1.tile g.tile).unacked = [] → RetiresFrom s₀ i r g w ((writeBackWhere s1 g.tile mine).updWg u
      (fun z => tbarPut z (w.sget a.toNat).toNat b)) y) := by
  have hsame : contextLine s1 (g.setWarp r.wp w) = mine := by
    rw [← hmine, ← hs]
    exact contextLine_congr (writeBackWhere_slots ..) _
  have hsend : sendReleases (s.setWarp r w) (g.setWarp r.wp w) true 3 = s1 := by
    rw [sendReleases_eq, hmine]
    exact hs
  have hfence : fenceEffect s1 (g.setWarp r.wp w) w true false 3 = (writeBackWhere s1 g.tile mine, w) := by
    rw [fenceEffect_eq, hsame]
    rfl
  have hwaits := awaitsAcks_iff s1 (g.setWarp r.wp w) w true 3#3
  have hrun := runBarrier_runs h he hu hok hb rfl hsend hfence
  refine ⟨fun howed => hrun.trans (congrArg _ (if_pos (hwaits.2 ⟨rfl, le_rfl, .inl howed⟩))), fun hfree => ?_⟩
  refine hrun.trans (congrArg _ (if_neg fun ha => ?_))
  obtain ⟨-, -, howed | ⟨hfar, -⟩⟩ := hwaits.1 ha
  · exact howed hfree
  · exact absurd hfar (by decide)

end

section

variable {s₀ s : State} {d a : BitVec 6} {e sib : BitVec 1} {k : BitVec 3} {r : WRef} {g : Workgroup} {w : Warp} {b : TBar}

/-! What each of the three adds to the checks of the place, the object that it leaves and the warp, and that its runner runs with these
(R260, R261). -/

def tbinitBad (d : BitVec 6) (w : Warp) (_ : TBar) : Bool :=
  decide (fieldOf (w.sget d.toNat) 0 24 = 0) || decide (fieldOf (w.sget d.toNat) 24 40 ≠ 0)

def tbinitNew (d : BitVec 6) (w : Warp) (_ : TBar) : TBar × Warp :=
  (⟨0, 0, fieldOf (w.sget d.toNat) 0 24, fieldOf (w.sget d.toNat) 0 24, 0, 0, 0, 0⟩, w)

def tbexpBad (d : BitVec 6) (e : BitVec 1) (w : Warp) (b : TBar) : Bool :=
  decide (fieldOf (w.sget d.toNat) 32 32 ≠ 0) || !tbarSound b || (e == 1 && b.pend == 0)

def tbexpNew (d : BitVec 6) (e : BitVec 1) (w : Warp) (b : TBar) : TBar × Warp :=
  let b := tbarAdd b (fieldOf (w.sget d.toNat) 0 32)
  (if e = 1 then { b with pend := b.pend - 1 } else b, w)

def tbarrBad (_ : Warp) (b : TBar) : Bool := !tbarSound b || b.pend == 0

def tbarrNew (d : BitVec 6) (w : Warp) (b : TBar) : TBar × Warp :=
  ({ b with pend := b.pend - 1 }, w.sset d.toNat (BitVec.ofNat 64 b.phase))

theorem exec_tbinit (s : State) :
    exec (.tbinit d a) s = runBarrier s (.tbinit d a) a false 0 (tbinitBad d) (tbinitNew d) := rfl

theorem exec_tbexp (s : State) : exec (.tbexp d a e sib k) s =
    runBarrier s (.tbexp d a e sib k) a (sib == 1) k.toNat (tbexpBad d e) (tbexpNew d e) := rfl

theorem exec_tbarr (s : State) : exec (.tbarr d a sib k) s =
    runBarrier s (.tbarr d a sib k) a (sib == 1) k.toNat tbarrBad (tbarrNew d) := rfl

theorem tbinitBad_iff : tbinitBad d w b = false ↔ 0 < (w.sget d.toNat).toNat ∧ (w.sget d.toNat).toNat < 2 ^ 24 := by
  have hhigh := fieldOf_high_eq_zero (n := 24) (by decide) (w.sget d.toNat)
  simp only [tbinitBad, Bool.or_eq_false_iff, decide_eq_false_iff_not, ne_eq, not_not, hhigh]
  refine and_congr_left fun hlt => ?_
  rw [fieldOf_low_eq hlt, Nat.pos_iff_ne_zero]

theorem tbexpBad_iff : tbexpBad d e w b = false ↔ (w.sget d.toNat).toNat < 2 ^ 32 ∧
    (b.zero = 0 ∧ b.init ≠ 0 ∧ b.rest = 0) ∧ (e = 1 → b.pend ≠ 0) := by
  have hhigh := fieldOf_high_eq_zero (n := 32) (by decide) (w.sget d.toNat)
  simp [tbexpBad, hhigh, ← tbarSound_iff, and_assoc]

theorem tbarrBad_iff : tbarrBad w b = false ↔ (b.zero = 0 ∧ b.init ≠ 0 ∧ b.rest = 0) ∧ b.pend ≠ 0 := by
  simp [tbarrBad, ← tbarSound_iff]

theorem tbinitNew_eq (h : (w.sget d.toNat).toNat < 2 ^ 24) :
    tbinitNew d w b = (⟨0, 0, (w.sget d.toNat).toNat, (w.sget d.toNat).toNat, 0, 0, 0, 0⟩, w) := by
  rw [tbinitNew, fieldOf_low_eq h]

theorem tbexpNew_eq (h : (w.sget d.toNat).toNat < 2 ^ 32) : tbexpNew d e w b =
    ({ b with sect := (b.sect + (w.sget d.toNat).toNat) % 2 ^ 32, pend := if e = 1 then b.pend - 1 else b.pend }, w) := by
  rw [tbexpNew, fieldOf_low_eq h, tbarAdd]
  split <;> rfl

/-! Where the object of each is: in the warp's own workgroup, in a sibling of its gang, or nowhere (R260, R261). -/

theorem barrierHolder_own (s : State) (r : WRef) (g : Workgroup) (k : Nat) : barrierHolder s r g false k = some (r.wg, g) := rfl

theorem barrierHolder_sibling {u n : Nat} {x : Workgroup} (hl : g.gangLaunch = true) (hk : g.gang[n]? = some u)
    (hu : s.wg u = some x) : barrierHolder s r g true n = some (u, x) := by
  simp only [barrierHolder, hl, hk, hu, if_true, Option.map_some]

theorem barrierHolder_noGang {n : Nat} (hl : g.gangLaunch = false) : barrierHolder s r g true n = none := by
  simp only [barrierHolder, hl, if_true, Bool.false_eq_true, if_false]

end

/-- The checks of an object of the own workgroup fail where the place or the object is bad. -/
theorem not_ownOk {s : State} {r : WRef} {g : Workgroup} {k : Nat} {bad : Warp → TBar → Bool} {w : Warp} {off : Nat} {p : Prop}
    (hbad : bad w (tbarAt g off) = false ↔ p) (hno : ¬ (off % 16 = 0 ∧ off + 16 ≤ g.spAlloc) ∨ ¬ p) :
    ∀ u x, barrierHolder s r g false k = some (u, x) → ¬ barrierOk bad w x off := by
  rintro u x hu ⟨hplace, hgood⟩
  obtain ⟨-, rfl⟩ := Prod.mk.inj (Option.some.inj hu)
  exact hno.elim (fun hn => hn ((tbarPlaceOk_iff ..).1 hplace)) (fun hn => hn (hbad.1 hgood))

/-- Those of an object that is not found pass for none. -/
theorem not_foundOk {o : Option (Nat × Workgroup)} {bad : Warp → TBar → Bool} {w : Warp} {off : Nat} (hn : o = none) :
    ∀ u x, o = some (u, x) → ¬ barrierOk bad w x off := by
  rintro u x hu
  exact absurd (hn.symm.trans hu) (Option.some_ne_none _).symm

theorem barrierUpdates_hold : Sys2Proof.Claims.barrierUpdates := by
  intro s₀ s d a e k r g w s0 g0 off v place sound settled own sibling traps exp expOk arr back b
  refine ⟨fun h => ⟨fun hp h0 hv => ?_, fun hno => ?_⟩, fun h => ⟨fun hp hok => ?_, fun hno => ?_⟩,
    fun h => ⟨fun hp hs hn => ?_, fun hno => ?_⟩, fun u x hl hk hu => ⟨fun h hp hok => ?_, fun h hp hs hn => ?_⟩,
    fun hl => ⟨fun h => ?_, fun h => ?_⟩, fun n hn => ⟨tbarBits_tbarOf n, rfl, rfl, rfl, rfl⟩⟩
  · exact runBarrier_own h (exec_tbinit _) ⟨(tbarPlaceOk_iff ..).2 hp, tbinitBad_iff.2 ⟨h0, hv⟩⟩ (tbinitNew_eq hv)
  · exact runBarrier_traps h (exec_tbinit _) (not_ownOk tbinitBad_iff (hno.imp_right (by omega)))
  · exact runBarrier_own h (exec_tbexp _) ⟨(tbarPlaceOk_iff ..).2 hp, tbexpBad_iff.2 hok⟩ (tbexpNew_eq hok.1)
  · exact runBarrier_traps h (exec_tbexp _) (not_ownOk tbexpBad_iff hno)
  · exact runBarrier_own h (exec_tbarr _) ⟨(tbarPlaceOk_iff ..).2 hp, tbarrBad_iff.2 ⟨hs, hn⟩⟩ rfl
  · exact runBarrier_traps h (exec_tbarr _) (not_ownOk tbarrBad_iff (by tauto))
  · exact runBarrier_sibling h (exec_tbexp _) (barrierHolder_sibling hl hk hu) ⟨(tbarPlaceOk_iff ..).2 hp, tbexpBad_iff.2 hok⟩
      (tbexpNew_eq hok.1) rfl rfl
  · exact runBarrier_sibling h (exec_tbarr _) (barrierHolder_sibling hl hk hu) ⟨(tbarPlaceOk_iff ..).2 hp, tbarrBad_iff.2 ⟨hs, hn⟩⟩
      rfl rfl rfl
  · exact runBarrier_traps h (exec_tbexp _) (not_foundOk (barrierHolder_noGang hl))
  · exact runBarrier_traps h (exec_tbarr _) (not_foundOk (barrierHolder_noGang hl))

/-! ### TBWAIT -/

section

variable {s₀ s : State} {d a : BitVec 6} {r : WRef} {g : Workgroup} {w : Warp}

/-- A warp that waits at a barrier retires as an acquire at cluster scope (R263). -/
theorem tbwaitDone_eq (s : State) (r : WRef) (g : Workgroup) (w : Warp) :
    tbwaitDone s r g w = retire (invalidateWhere s g.tile (contextLine s g)) r g w w.dropPrefetch false := rfl

/-- TBWAIT by whether its object is a barrier, and by its phase (R261, R262). -/
theorem tbwait_runs (h : Issues s₀ s (.tbwait d a) act r g w) {s0 : State} {g0 : Workgroup} {off phase : Nat} {b : TBar}
    (hs : s.setWarp r w = s0) (hg : g.setWarp r.wp w = g0) (ho : (w.sget a.toNat).toNat = off)
    (hp : (w.sget d.toNat).toNat % 2 ^ 4 = phase) (hb : tbarAt g0 off = b) : exec (.tbwait d a) s₀ = .next (
      if tbarPlaceOk g0 off && tbarSound b then
        if b.phase ≠ phase then tbwaitDone s0 r g0 w
        else
          let t := s0.updWg r.wg (fun h => tbarPut h off { b with wprio := max b.wprio (warpPrio g0 r.wp w), pv := 1 })
          waitAt { t with issues := t.issues + 1 } r w (.tb off phase t.issues)
      else preciseTrap s0 r w 0x09) := by
  subst hs hg ho hp hb
  have hput (off : Nat) (b : TBar) : (s.setWarp r w).updWg r.wg
      (fun h => tbarPut h off { b with wprio := max b.wprio (warpPrio h r.wp w), pv := 1 }) = (s.setWarp r w).updWg r.wg
      (fun h => tbarPut h off { b with wprio := max b.wprio (warpPrio (g.setWarp r.wp w) r.wp w), pv := 1 }) :=
    updWg_congr (wg_setWarp s r g w (issues_wg h)) rfl
  show execTbwait d a s₀ = _
  rw [execTbwait, issues_runNamed h]
  simp only [fieldOf_zero, hput]

end

/-- A waiter that a wake finds waits on the object for a phase that is past (R262). -/
theorem mem_tbWaiters {s : State} {u o : Nat} {q : Waiter} {h : Workgroup} (hu : s.wg u = some h) (hq : q ∈ tbWaiters s u o) :
    ∃ x ph n, (q.r.wp, x) ∈ h.warps ∧ x.c.wait = .tb o ph n ∧ (tbarAt h o).phase ≠ ph := by
  simp only [tbWaiters, hu, List.mem_filterMap] at hq
  obtain ⟨⟨k, x⟩, hmem, hx⟩ := hq
  split at hx
  · rename_i o' ph n hwait
    split at hx
    · rename_i hpast
      obtain ⟨rfl, hphase, -⟩ := hpast
      cases hx
      exact ⟨x, ph, n, hmem, hwait, hphase⟩
    · cases hx
  · cases hx

theorem barrierWaits_hold : Sys2Proof.Claims.barrierWaits := by
  intro s₀ s d a r g w i s0 g0 off b good phase waits
  refine ⟨fun h => ?_, fun u o q h x hq hg hx => ?_, fun u o hn => ?_, fun u o q h hu hq => mem_tbWaiters hu hq⟩
  · have hrun := tbwait_runs h rfl rfl rfl rfl rfl
    have hgood : (tbarPlaceOk g0 off && tbarSound b) = true ↔ good := by
      simp only [Bool.and_eq_true, tbarPlaceOk_iff, tbarSound_iff, and_assoc]
      exact Iff.rfl
    refine ⟨fun hg hp => ?_, fun hg hp => ⟨_, ?_, rfl⟩, fun hg => ?_⟩
    · exact hrun.trans (congrArg _ ((if_pos (hgood.2 hg)).trans (if_pos hp)))
    · exact hrun.trans (congrArg _ ((if_pos (hgood.2 hg)).trans (if_neg (not_not.2 hp))))
    · exact hrun.trans (congrArg _ (if_neg (fun hok => hg (hgood.1 hok))))
  · show execTbwaitWake u o s = _
    simp only [execTbwaitWake, hq, List.foldl_cons, List.foldl_nil, insertWaiter, hg, hx, tbwaitDone_eq]
  · show execTbwaitWake u o s = _
    rw [execTbwaitWake, hn]
    rfl

/-- Settles O29: the three instructions by their runner on the object that each names, TBWAIT by the phase that it finds, and a
wake by the waiters whose phase is past. -/
theorem barriers : Obligations.Barriers := by
  unfold Obligations.Barriers
  exact ⟨barrierUpdates_hold, barrierWaits_hold⟩

/-! ### Convoys: slots and members -/

section

variable {s : State} {d k : Nat} {r : WRef} {n : Nat}

/-- A slot reads as it was set. -/
@[simp] theorem convoy_setConvoy (s : State) (d k : Nat) (c : Convoy) : (s.setConvoy d k c).convoy d k = c := by
  simp [State.convoy, State.setConvoy]

/-- The minimum of a convoy is that of its members (R359). -/
theorem minpos_congr {c c' : Convoy} (h : c.members = c'.members) : c.minpos = c'.minpos := by
  simp only [Convoy.minpos, h]

/-- Noting an event leaves the members of its convoy (R373). -/
theorem members_noteConvoy (s : State) (d k cls : Nat) (r : WRef) :
    ((s.noteConvoy d k cls r).convoy d k).members = (s.convoy d k).members := by
  simp only [State.noteConvoy]
  split
  · split
    · rfl
    · rw [convoy_setConvoy]
  · rw [convoy_setConvoy]

/-- The lowest position after an event of a convoy is that of the convoy as it was set. -/
theorem minpos_noteConvoy (s : State) (d k cls : Nat) (r : WRef) (c : Convoy) :
    (((s.setConvoy d k c).noteConvoy d k cls r).convoy d k).minpos = c.minpos := by
  refine minpos_congr ?_
  rw [members_noteConvoy, convoy_setConvoy]

end

/-! ### Joining -/

/-- An instruction that writes one s-register retires with nothing else changed. -/
theorem retire_sset {s : State} {r : WRef} {g0 : Workgroup} {w : Warp} {d : Nat} {x : Reg} (he : w.c.ended = false) :
    retire (s.setWarp r w) r g0 w (w.sset d x) false = retiredAs s r (goneOn s.issues (w.sset d x)) :=
  retire_goneOn (u := w.sset d x) id he

section

variable {s : State} {d : Nat} {r : WRef} {g : Workgroup} {w : Warp} {n : Nat} {a : Reg} {slip : Option Nat} {c : Convoy} {x : Stream}

/-- A register names no slot that the workgroup may join: it is none, not enabled, or of another context (R267). -/
def joinSlotBad (s : State) (g : Workgroup) (a : Reg) (c : Convoy) : Prop :=
  256 ≤ a.toNat ∨ c.en = false ∨ c.asid ≠ s.asidOf g

/-- A stream is a member of some convoy, or its warp of this one (R267). -/
def joinedAlready (r : WRef) (w : Warp) (n : Nat) (c : Convoy) : Prop :=
  w.sp.cvm.getLsbD n = true ∨ ∃ m ∈ c.members, m.w = r

/-- A stream's fields are the key of a convoy (R267). -/
def keyedAs (c : Convoy) (x : Stream) : Prop :=
  c.base = x.w0.toNat % 2 ^ 48 ∧ c.istride = x.w2 ∧ c.ostride = x.w3 ∧ c.tag = x.tag

theorem joinSlotBad_iff : (fieldOf a 8 56 ≠ 0 ∨ c.en = false ∨ c.asid ≠ s.asidOf g) ↔ joinSlotBad s g a c := by
  have hhigh := fieldOf_high_eq_zero (n := 8) (by decide) a
  simp only [joinSlotBad, ne_eq, hhigh, not_lt]
  exact Iff.rfl

theorem joinedAlready_iff :
    (w.sp.cvm.getLsbD n || c.members.any (fun m => m.w == r)) = true ↔ joinedAlready r w n c := by
  simp [joinedAlready]

theorem convoyMatches_iff : convoyMatches c x = true ↔ keyedAs c x := by
  simp [convoyMatches, keyedAs, fieldOf_zero, and_assoc]

variable (hc : s.convoy d (a.toNat % 256) = c)
include hc

/-! The code of a join, test by test in their order (R267). -/

theorem joinCode_noSlot (hbad : joinSlotBad s g a c) : joinCode s d r g w n a slip = 4 := by
  subst hc
  exact if_pos (joinSlotBad_iff.2 (by rwa [fieldOf_zero]))

variable (hslot : ¬ joinSlotBad s g a c)
include hslot

/-- Past the test of the slot. -/
theorem joinCode_slot : joinCode s d r g w n a slip =
    if (w.stream n).icount = 0 then 5
    else if w.sp.cvm.getLsbD n || c.members.any (fun m => m.w == r) then 6
    else if c.members.isEmpty then 1
    else if !convoyMatches c (w.stream n) then 2
    else if c.members.length ≥ 64 then 3
    else match slip with
      | some l => if (w.stream n).pos ≤ c.minpos + l ∧ c.minpos ≤ (w.stream n).pos + l then 0 else 7
      | none => 0 := by
  subst hc
  simp only [joinCode, fieldOf_zero]
  exact if_neg fun hbad => hslot (joinSlotBad_iff.1 hbad)

theorem joinCode_unset (hx : (w.stream n).icount = 0) : joinCode s d r g w n a slip = 5 :=
  (joinCode_slot hc hslot).trans (if_pos hx)

variable (hx : (w.stream n).icount ≠ 0)
include hx

theorem joinCode_member (hm : joinedAlready r w n c) : joinCode s d r g w n a slip = 6 := by
  rw [joinCode_slot hc hslot, if_neg hx, if_pos (joinedAlready_iff.2 hm)]

variable (hm : ¬ joinedAlready r w n c)
include hm

theorem joinCode_founds (h0 : c.members = []) : joinCode s d r g w n a slip = 1 := by
  rw [joinCode_slot hc hslot, if_neg hx, if_neg (mt joinedAlready_iff.1 hm), if_pos (List.isEmpty_iff.2 h0)]

variable (h0 : c.members ≠ [])
include h0

theorem joinCode_otherKey (hk : ¬ keyedAs c (w.stream n)) : joinCode s d r g w n a slip = 2 := by
  rw [joinCode_slot hc hslot, if_neg hx, if_neg (mt joinedAlready_iff.1 hm), if_neg (mt List.isEmpty_iff.1 h0),
    if_pos (by simpa using mt convoyMatches_iff.1 hk)]

variable (hk : keyedAs c (w.stream n))
include hk

theorem joinCode_full (hl : 64 ≤ c.members.length) : joinCode s d r g w n a slip = 3 := by
  rw [joinCode_slot hc hslot, if_neg hx, if_neg (mt joinedAlready_iff.1 hm), if_neg (mt List.isEmpty_iff.1 h0),
    if_neg (by simpa using convoyMatches_iff.2 hk), if_pos hl]

theorem joinCode_room (hl : c.members.length < 64) : joinCode s d r g w n a slip = match slip with
    | some l => if (w.stream n).pos ≤ c.minpos + l ∧ c.minpos ≤ (w.stream n).pos + l then 0 else 7
    | none => 0 := by
  rw [joinCode_slot hc hslot, if_neg hx, if_neg (mt joinedAlready_iff.1 hm), if_neg (mt List.isEmpty_iff.1 h0),
    if_neg (by simpa using convoyMatches_iff.2 hk), if_neg (Nat.not_le.2 hl)]

end

section

variable {s₀ s : State} {i : Instr} {r : WRef} {g : Workgroup} {w : Warp} {d a : BitVec 6} {n : BitVec 3} {re : Bool} {k code : Nat}
  {c : Convoy}

/-- The record of a stream that joins: at its position, not held (R356). -/
def newMember (s : State) (d : Nat) (r : WRef) (n : Nat) (x : Stream) : Member :=
  ⟨r, n, x.pos, false, 0, 0, (s.die d).tick, false, false, false, [], false⟩

/-- The first to join founds the convoy: the stream's fields become its key (R267, R356). -/
theorem joined_founds (s : State) (d : Nat) (r : WRef) (n : Nat) (x : Stream) (h0 : c.members = []) : joined s d c r n x =
    { c with base := x.w0.toNat % 2 ^ 48, istride := x.w2, ostride := x.w3, tag := x.tag, members := [newMember s d r n x] } := by
  simp only [joined, h0, List.isEmpty_nil, if_true, fieldOf_zero, List.nil_append, newMember]

/-- One that joins others is last among them. -/
theorem joined_joins (s : State) (d : Nat) (r : WRef) (n : Nat) (x : Stream) (h0 : c.members ≠ []) : joined s d c r n x =
    { c with members := c.members ++ [newMember s d r n x] } := by
  rw [joined, if_neg (mt List.isEmpty_iff.1 h0)]
  rfl

/-- The warp with a stream that has joined: its bit of CVM set, its lines counted (R267, R371). -/
def withMember (w : Warp) (n : Nat) : Warp :=
  { w.setCvm n true with sp := { (w.setCvm n true).sp with counted := w.sp.counted ||| BitVec.ofNat 8 (2 ^ n) } }

variable (h : Issues s₀ s i act r g w) (he : exec i s₀ = runJoin s₀ i d a n re) (hk : (w.sget a.toNat).toNat % 256 = k)
  (hcode : joinCode (s.setWarp r w) (dieOf g.tile) r (g.setWarp r.wp w) w n.toNat (w.sget a.toNat)
    (if re then some w.sp.cvslip.toNat else none) = code)
include h he hk hcode

/-- A stream that may join becomes a member, and the status tells the minimum with it (R266, R267). -/
theorem runJoin_joins (hle : code ≤ 1)
    (hc : joined (s.setWarp r w) (dieOf g.tile) ((s.setWarp r w).convoy (dieOf g.tile) k) r n.toNat (w.stream n.toNat) = c) :
    RetiresFrom s₀ i r g w (((s.setWarp r w).setConvoy (dieOf g.tile) k c).noteConvoy (dieOf g.tile) k 1 r)
      ((withMember w n.toNat).sset d.toNat (convoyStatus code c.minpos)) := by
  subst hk hcode hc
  rw [RetiresFrom, he, runJoin, issues_runNamed h]
  refine congrArg _ ((if_pos hle).trans ?_)
  dsimp only
  rw [fieldOf_zero, minpos_noteConvoy]
  rfl

/-- One that may not gets the code alone, with the minimum where it lies too far from it (R266, R267). -/
theorem runJoin_fails (hgt : 1 < code) : RetiresAs s₀ s i r (goneOn s.issues (w.sset d.toNat (convoyStatus code
    (if code = 7 then ((s.setWarp r w).convoy (dieOf g.tile) k).minpos else 0)))) := by
  subst hk hcode
  rw [RetiresAs, he, runJoin, issues_runNamed h, ← retire_sset (g0 := g.setWarp r.wp w) h.lives]
  refine congrArg _ ((if_neg (Nat.not_le.2 hgt)).trans ?_)
  rw [fieldOf_zero]
  rfl

end

section

variable {s₀ s : State} {d a : BitVec 6} {n : BitVec 3} {r : WRef} {g : Workgroup} {w : Warp}

/-- CVLEAVE of a stream that is no member gives 9 (R267). -/
theorem cvleave_fails (h : Issues s₀ s (.cvleave d n) act r g w) (hn : w.sp.cvm.getLsbD n.toNat = false) :
    RetiresAs s₀ s (.cvleave d n) r (goneOn s.issues (w.sset d.toNat (convoyStatus 9 0))) := by
  show execCvleave d n s₀ = _
  rw [execCvleave, issues_runNamed h, ← retire_sset (g0 := g.setWarp r.wp w) h.lives]
  exact congrArg _ (if_neg (Bool.not_eq_true _ ▸ hn))

/-- CVLEAVE of a member takes it out, and tells the minimum of the convoy that it has left (R267, R360). -/
theorem cvleave_leaves (h : Issues s₀ s (.cvleave d n) act r g w) (hn : w.sp.cvm.getLsbD n.toNat = true) {s1 : State}
    (hs : leaveConvoy (s.setWarp r w) (dieOf g.tile) r n.toNat = s1) : RetiresFrom s₀ (.cvleave d n) r g w s1
      (((s1.warp r).getD w).sset d.toNat (convoyStatus 0
        (s1.convoy (dieOf g.tile) (((s.setWarp r w).memberSlot (dieOf g.tile) r n.toNat).getD 0)).minpos)) := by
  subst hs
  show execCvleave d n s₀ = _
  rw [execCvleave, issues_runNamed h]
  exact congrArg _ (if_pos hn)

/-- The value that CVSLIP takes: a slip of 1 to 64, and no bit beside the patience (R267). -/
def slipOk (v : Nat) : Prop := v % 128 ≠ 0 ∧ v % 128 ≤ 64 ∧ v / 2 ^ 7 % 2 ^ 9 = 0 ∧ v / 2 ^ 32 = 0

theorem slipOk_iff (x : Reg) : (fieldOf x 0 7 = 0 ∨ fieldOf x 0 7 > 64 ∨ fieldOf x 7 9 ≠ 0 ∨ fieldOf x 32 32 ≠ 0) ↔ ¬ slipOk x.toNat := by
  have hhigh := fieldOf_high_eq_zero (n := 32) (by decide) x
  rw [← Nat.div_eq_zero_iff_lt (by decide)] at hhigh
  simp only [slipOk, ne_eq, hhigh, fieldOf_zero, Nat.not_le, gt_iff_lt, not_and_or, not_not]
  exact Iff.rfl

theorem cvslip_fails (h : Issues s₀ s (.cvslip d a) act r g w) (hbad : ¬ slipOk (w.sget a.toNat).toNat) :
    RetiresAs s₀ s (.cvslip d a) r (goneOn s.issues (w.sset d.toNat (convoyStatus 8 0))) := by
  show execCvslip d a s₀ = _
  rw [execCvslip, issues_runNamed h, ← retire_sset (g0 := g.setWarp r.wp w) h.lives]
  exact congrArg _ (if_pos ((slipOk_iff _).2 hbad))

/-- A good value sets the slip, and the patience where it gives one (R267). -/
theorem cvslip_sets (h : Issues s₀ s (.cvslip d a) act r g w) (hok : slipOk (w.sget a.toNat).toNat) {pat : Nat}
    (hp : fieldOf (w.sget a.toNat) 16 16 = pat) : RetiresAs s₀ s (.cvslip d a) r (goneOn s.issues
      (({ w with sp := { w.sp with cvslip := BitVec.ofNat 8 ((w.sget a.toNat).toNat % 128),
                                   cvpat := if pat = 0 then w.sp.cvpat else BitVec.ofNat 16 pat } } : Warp).sset d.toNat
        (convoyStatus 0 (cvpos (s.setWarp r w) (dieOf g.tile) r w)))) := by
  subst hp
  show execCvslip d a s₀ = _
  rw [execCvslip, issues_runNamed h]
  refine congrArg _ ((if_neg fun hbad => (slipOk_iff _).1 hbad hok).trans ?_)
  dsimp only
  rw [fieldOf_zero]
  refine Eq.trans ?_ (retire_goneOn (w := w) (g0 := g.setWarp r.wp w) (by exact id) (by exact h.lives))
  by_cases hpat : fieldOf (w.sget a.toNat) 16 16 = 0
  · rw [if_pos hpat, if_pos hpat]
    rfl
  · rw [if_neg hpat, if_neg hpat]
    rfl

end

theorem convoys_hold : Sys2Proof.Claims.convoys := by
  intro s₀ s d a n r g w re i s0 die v k c x slip keyed status fails slotBad member near m joins
  have he : exec i s₀ = runJoin s₀ i d a n re := by
    cases re <;> rfl
  refine ⟨fun h => ?_, fun h => ⟨cvleave_fails h, fun hn => ⟨_, cvleave_leaves h hn rfl, ?_⟩⟩, fun h => ⟨cvslip_fails h, ?_⟩⟩
  · have hfails {code low : Nat} (hcode : joinCode s0 die r (g.setWarp r.wp w) w n.toNat (w.sget a.toNat)
        (if re then some slip else none) = code) (hgt : 1 < code) (hlow : (if code = 7 then c.minpos else 0) = low) :
        fails code low := by
      subst hlow
      exact runJoin_fails h he rfl hcode hgt
    have hjoins {code : Nat} {c' : Convoy} (hcode : joinCode s0 die r (g.setWarp r.wp w) w n.toNat (w.sget a.toNat)
        (if re then some slip else none) = code) (hle : code ≤ 1) (hc : joined s0 die c r n.toNat x = c') : joins code c' :=
      runJoin_joins h he rfl hcode hle hc
    refine ⟨fun hs => ?_, fun hs hx => ?_, fun hs hx hm => ?_, fun hs hx hm h0 => ?_, fun hs hx hm h0 hk => ?_,
      fun hs hx hm hk hl => ?_, fun hs hx hm h0 hk hl => ⟨fun hre hfar => ?_, fun hnear => ?_⟩⟩
    · exact hfails (joinCode_noSlot rfl hs) (by decide) rfl
    · exact hfails (joinCode_unset rfl hs hx) (by decide) rfl
    · exact hfails (joinCode_member rfl hs hx hm) (by decide) rfl
    · exact hjoins (joinCode_founds rfl hs hx hm h0) le_rfl (joined_founds s0 die r n.toNat x h0)
    · exact hfails (joinCode_otherKey rfl hs hx hm h0 hk) (by decide) rfl
    · have h0 : c.members ≠ [] := List.ne_nil_of_length_pos (Nat.lt_of_lt_of_le (by decide) hl)
      exact hfails (joinCode_full rfl hs hx hm h0 hk hl) (by decide) rfl
    · refine hfails (code := 7) ((joinCode_room rfl hs hx hm h0 hk hl).trans ?_) (by decide) rfl
      rw [hre]
      exact if_neg hfar
    · refine hjoins (code := 0) ((joinCode_room rfl hs hx hm h0 hk hl).trans ?_) (by decide) (joined_joins s0 die r n.toNat x h0)
      cases hre : re with
      | false => rfl
      | true => exact if_pos (hnear.resolve_left (by simp [hre]))
  · intro y j hy hj
    show ((((leaveConvoy s0 die r n.toNat).warp r).getD w).sset _ (convoyStatus 0
      (((leaveConvoy s0 die r n.toNat).convoy die ((s0.memberSlot die r n.toNat).getD 0)).minpos))) = _
    rw [hy, hj]
    rfl
  · exact fun hok => cvslip_sets h hok rfl

/-! ### Members looked up after a change of one -/

section

variable {s : State} {d k n : Nat} {r : WRef} {c : Convoy} {m : Member}

/-- The first entry of a table that passes a test is still the first after its value was replaced by one that passes. -/
theorem find?_set_of_find? {α : Type} {t : Table α} {k : Nat} {x z : α} {p : Nat × α → Bool} (hf : t.find? p = some (k, x))
    (hz : p (k, z) = true) : (Table.set t k z).find? p = some (k, z) := by
  induction t with
  | nil => cases hf
  | cons e t ih =>
    obtain ⟨j, u⟩ := e
    simp only [Table.set]
    by_cases hj : j = k
    · rw [if_pos hj, List.find?_cons_of_pos hz]
    · rw [if_neg hj]
      have hno : ¬ p (j, u) = true := by
        intro hp
        rw [List.find?_cons_of_pos hp] at hf
        exact hj (congrArg Prod.fst (Option.some.inj hf))
      split
      · rw [List.find?_cons_of_pos hz]
      · rw [List.find?_cons_of_neg hno] at hf ⊢
        exact ih hf

/-- What a stream's member record is: the first of its slot with the stream's warp and number. -/
theorem member_eq_some (h : s.member d r n = some (k, c, m)) : s.memberSlot d r n = some k ∧ c = s.convoy d k ∧
    (s.convoy d k).members.find? (fun m => m.w == r && m.n == n) = some m ∧ m.w = r ∧ m.n = n := by
  simp only [State.member] at h
  split at h
  · rename_i j hslot
    obtain ⟨m', hfind, heq⟩ := Option.map_eq_some_iff.1 h
    cases heq
    have hm := List.find?_some hfind
    simp only [Bool.and_eq_true, beq_iff_eq] at hm
    exact ⟨hslot, rfl, hfind, hm⟩
  · cases h

/-- A change of the records of a stream that keeps whose they are. -/
def KeepsStream (f : Member → Member) : Prop := ∀ m, (f m).w = m.w ∧ (f m).n = m.n

theorem convoy_updMember (s : State) (d k : Nat) (r : WRef) (n : Nat) (f : Member → Member) :
    (s.updMember d k r n f).convoy d k = { s.convoy d k with
      members := (s.convoy d k).members.map (fun m => if m.w == r && m.n == n then f m else m) } := convoy_setConvoy ..

/-- The record of a stream is found changed, in its slot (R356). -/
theorem member_updMember {f : Member → Member} (hf : KeepsStream f) (h : s.member d r n = some (k, c, m)) :
    (s.updMember d k r n f).member d r n = some (k, (s.updMember d k r n f).convoy d k, f m) := by
  obtain ⟨hslot, -, hfind, -⟩ := member_eq_some h
  have hsame : (fun m : Member => m.w == r && m.n == n) ∘ (fun m => if m.w == r && m.n == n then f m else m) =
      fun m => m.w == r && m.n == n := by
    funext m
    by_cases hm : (m.w == r && m.n == n) = true
    · simp only [Function.comp, if_pos hm, hf m]
    · simp only [Function.comp, if_neg hm]
  have hm : (m.w == r && m.n == n) = true := List.find?_some (p := fun m : Member => m.w == r && m.n == n) hfind
  have hnew : (s.updMember d k r n f).memberSlot d r n = some k := by
    obtain ⟨⟨j, x⟩, hx, rfl⟩ := Option.map_eq_some_iff.1 hslot
    have hset := find?_set_of_find? (z := (s.updMember d j r n f).convoy d j) hx (by
      rw [convoy_updMember, List.any_map, hsame]
      exact List.any_eq_true.2 ⟨m, List.mem_of_find?_eq_some hfind, hm⟩)
    rw [convoy_updMember] at hset
    simp only [State.memberSlot, State.updMember, State.setConvoy, die_setDie_same, hset]
    rfl
  simp only [State.member, hnew]
  rw [convoy_updMember, List.find?_map, hsame, hfind, Option.map_some, if_pos hm]
  rfl

end

/-! ### Holds and their ends -/

section

variable {s : State} {d k n slot : Nat} {r : WRef} {w : Warp} {m : Member} {v : Reg}

/-- A write of a slot's descriptor sets context and enable, and detaches every member where it disables (R356, R357). -/
theorem convoySlotWrite_eq (s : State) (d slot : Nat) (v : Reg) {c : Convoy} (hc : s.convoy d (slot % 256) = c) {t : State}
    (ht : s.setConvoy d (slot % 256) { c with asid := fieldOf v 48 16, en := v.getLsbD 47 } = t) :
    exec (.convoySlotWrite d slot v) s = .next (if v.getLsbD 47 then t else c.members.foldl (fun s m => detachMember s d m.w m.n) t) := by
  subst hc ht
  rfl

/-- A re-evaluation judges the held members after the expiries of its tick, each of which is that of a hold past its patience (R363,
R373). -/
theorem convoyReevaluate_eq (s : State) (d slot : Nat) {now : Nat} (hnow : (s.die d).tick = now) {t : State}
    (ht : (dueHolds (heldBy s d slot) now).foldl (fun s m => expire s d m.w m.n now) s = t) :
    exec (.convoyReevaluate d slot) s = .next ((heldBy t d slot).foldl (fun s m => reevaluate s d slot m) t) := by
  subst hnow ht
  rfl

theorem dueHolds_past {now : Nat} (h : m.hstart + m.limit ≤ now) : dueHolds [m] now = [m] := by
  simp [dueHolds, h, byLimit]

theorem dueHolds_running {now : Nat} (h : now < m.hstart + m.limit) : dueHolds [m] now = [] := by
  simp [dueHolds, h]

/-- A detach takes the stream out of its convoy with its hold, clears its bit and counts (R365, R368). -/
theorem detachMember_eq (hk : s.memberSlot d r n = some k) : detachMember s d r n =
    (endHold ((((s.convoy d k).members.foldl (fun s m => if m.w == r && m.n == n && m.held then s.holdEnded d r m else s) s).setConvoy
      d k { s.convoy d k with members := (s.convoy d k).members.filter (fun m => !(m.w == r && m.n == n)) }).noteConvoy d k 2 r)
      d r).updWarp r (fun x => { x.setCvm n false with
        sp := { (x.setCvm n false).sp with detach := sat16 (x.sp.detach + 1) } }) := by
  simp only [detachMember, State.removeMember, hk]
  rfl

theorem updWarp_some {f : Warp → Warp} (hw : s.warp r = some w) : s.updWarp r f = s.setWarp r (f w) := by
  simp only [State.updWarp, hw]

theorem slipAllows_iff : slipAllows s d r w n = true ↔ ∀ k c m, s.member d r n = some (k, c, m) → m.go = true ∨
    (w.stream n).pos ≤ c.minpos + w.sp.cvslip.toNat := by
  simp only [slipAllows]
  split
  · rename_i k c m hm
    simp [hm]
  · rename_i hm
    simp [hm]

/-! Patience (R364). -/

/-- The record of a member whose patience has run out with no stalled member left. -/
def pastPatience (m : Member) : Member := { m with expired := true, due := [] }

/-- An expiry does nothing to a stream that is not held or whose patience lasts. -/
theorem expire_early {c : Convoy} {ended : Nat} (hm : s.member d r n = some (k, c, m))
    (h : m.held = false ∨ ended < m.hstart + m.limit) : expire s d r n ended = s := by
  simp only [expire, hm]
  exact if_pos (by simpa using h)

/-- With no stalled member there is none to detach, and the hold ends (R364, R368). -/
theorem expire_unstalled {ended : Nat} (hm : s.member d r n = some (k, s.convoy d k, m)) (hheld : m.held = true)
    (hpast : m.hstart + m.limit ≤ ended) (hexp : m.expired = false) (hstall : stalledMembers (s.convoy d k) m.hstart = []) :
    expire s d r n ended = endHold ((endStreamHold (s.updMember d k r n pastPatience) d k r (pastPatience m)).updMember d k r n
      (fun y => { y with go := true })) d r := by
  obtain ⟨-, -, -, hw, hn⟩ := member_eq_some hm
  have hdetach : detachStalled s d k (s.convoy d k) m = s.updMember d k r n pastPatience := by
    simp only [detachStalled, hstall, hw, hn]
    rfl
  have hfound := member_updMember (f := pastPatience) (fun _ => ⟨rfl, rfl⟩) hm
  simp only [expire, hm]
  rw [if_neg (by simpa [hheld] using hpast)]
  simp only [hexp, Bool.false_eq_true, if_false, hdetach, hfound]
  exact if_neg (by simp [pastPatience])

/-- The event of patience concerns the one stream of the warp that is held, of a tick that has ended (R364, R373). -/
theorem patienceExpiry_eq {g : Workgroup} {q : Nat} (hg : s.wg r.wg = some g) (hw : s.warp r = some w)
    (hwait : w.c.wait = .hold slot q) (hn : w.memberStreams = [n]) : exec (.patienceExpiry r) s = .next (
      if 0 < (s.die (dieOf g.tile)).tick ∧ s.leavesPast (dieOf g.tile) 2 r = false then
        expire s (dieOf g.tile) r n ((s.die (dieOf g.tile)).tick - 1) else s) := by
  show execPatienceExpiry r s = _
  simp only [execPatienceExpiry, hg, expireHolds, hw, hwait, hn, List.foldl_cons, List.foldl_nil]

end

theorem convoyEvents_hold : Sys2Proof.Claims.convoyEvents := by
  intro s die slot r w v c set
  refine ⟨fun hv => ?_, fun hv => ?_, fun m hm hw hpast => ?_, fun m hm hw hrun => ?_, fun n k hw hk => detachMember_eq hk,
    fun hw => ?_, fun g n k q m hg hw hwait hn hm => ?_, fun n => slipAllows_iff⟩
  · rw [convoySlotWrite_eq s die slot v rfl rfl, hv]
    rfl
  · rw [convoySlotWrite_eq s die slot v rfl rfl, hv]
    rfl
  · refine convoyReevaluate_eq s die slot rfl ?_
    rw [hm, dueHolds_past hpast]
    rfl
  · rw [convoyReevaluate_eq s die slot rfl rfl, hm, dueHolds_running hrun]
    simp only [List.foldl_nil, hm, List.foldl_cons, reevaluate, hw]
  · unfold endHold
    exact if_congr Iff.rfl rfl (updWarp_some hw)
  · intro d past
    have hrun := patienceExpiry_eq hg hw hwait hn
    refine ⟨fun hearly => ?_, fun hlate => ?_, fun hheld hpast hon hexp hstall => ?_⟩
    · by_cases hnow : 0 < (s.die d).tick ∧ s.leavesPast d 2 r = false
      · exact hrun.trans (congrArg _ ((if_pos hnow).trans (expire_early hm (hearly.imp_right (Nat.sub_one_lt_of_le hnow.1)))))
      · exact hrun.trans (congrArg _ (if_neg hnow))
    · exact hrun.trans (congrArg _ (if_neg fun h => Bool.false_ne_true (h.2.symm.trans hlate)))
    · refine hrun.trans (congrArg _ ((if_pos ⟨Nat.lt_of_le_of_lt (Nat.zero_le _) hpast, hon⟩).trans ?_))
      exact expire_unstalled hm hheld (Nat.le_sub_one_of_lt hpast) hexp hstall

/-- Settles O31: a join by its code, test by test, and the events of convoys by what each leaves of the member that it concerns. -/
theorem convoyMembership : Obligations.ConvoyMembership := by
  unfold Obligations.ConvoyMembership
  exact ⟨convoys_hold, convoyEvents_hold⟩

/-! ### Copies at issue -/

section

variable {s : State} {r : WRef} {g : Workgroup} {w : Warp} {kind : CopyKind} {t b : BitVec 6} {ws sh : List Reg} {v : BitVec 1}
  {c : Copy} {off : Nat}

/-- A retirement that keeps lanes active and does not end the warp changes the workgroups and the count of issues alone. -/
theorem retire_live_frame {u : Warp} (ha : w.active ≠ 0 → u.active ≠ 0) (he : u.c.ended = false) :
    ∃ W, retire s r g w u false = { s with issues := s.issues + 1, wgs := W } := by
  rw [retire_goesOn s r g w u (by tauto) he, setWarp_frame]
  exact ⟨_, rfl⟩

/-- A copy with the barrier that counts it, where its instruction names one (R251). -/
def guarded (c : Copy) (v : BitVec 1) (off : Nat) : Copy := { c with bar := if v = 1 then some (c.receiver, off) else none }

/-- The machine with a copy last in its streamer's queue (R242). -/
def queuedCopy (s : State) (tile : Nat) (c : Copy) : State :=
  { s with nextId := s.nextId + 1, dev := { s.dev with copies := Table.set s.dev.copies c.id c } }.setTile tile
    { s.tile tile with copies := (s.tile tile).copies ++ [c.id] }

theorem queuedCopy_copy (s : State) (tile : Nat) (c : Copy) : (queuedCopy s tile c).copy c.id = some c := by
  simp [State.copy, queuedCopy]

theorem queuedCopy_copies (s : State) (tile : Nat) (c : Copy) :
    ((queuedCopy s tile c).tile tile).copies = (s.tile tile).copies ++ [c.id] := by
  simp [queuedCopy]

/-- The warp with a copy in its open batch (R257). -/
def withCopy (w : Warp) (id : Nat) : Warp := { w with openB := w.openB ++ [id], joined := true }

/-- A copy of no bytes completes at once with token 0 (R245, R249). -/
theorem enqueueCopy_empty (h : c.len = 0) : enqueueCopy s r g w c =
    retire (s.countEvent (clusterOf g.tile) 2 0 1) r g w { w.sset c.tok 0 with joined := true } false := if_pos h

/-- Any other joins the streamer's queue and the open batch (R242, R257). -/
theorem enqueueCopy_queues (h : c.len ≠ 0) :
    enqueueCopy s r g w c = retire (queuedCopy s g.tile c) r g w (withCopy w c.id) false := if_neg h

variable (hc : newCopy s r g w kind t.toNat ws sh (siblingOf g kind ws) = c) (ho : fieldOf (w.sget b.toNat) 0 32 = off)
include hc ho

/-- A bad record traps (R248). -/
theorem issueCopy_bad (hbad : copyBad g c (v == 1) off = true) :
    issueCopy s r g w kind t ws sh b (v == 1) (fun _ => false) = preciseTrap s r w 0x08 := by
  subst hc ho
  exact if_pos (Bool.or_eq_true_iff.2 (.inl hbad))

/-- A good one is queued with its barrier (R251). -/
theorem issueCopy_enqueues (hok : copyBad g c (v == 1) off = false) :
    issueCopy s r g w kind t ws sh b (v == 1) (fun _ => false) = enqueueCopy s r g w (guarded c v off) := by
  subst hc ho
  simp only [issueCopy, hok, Bool.or_self, Bool.false_eq_true, if_false, guarded, beq_iff_eq]

/-- The answer of a copy whose words are known, by its record and its length (R245, R248, R249, R257). -/
theorem issueCopy_answers {o : State} (hx : issueCopy s r g w kind t ws sh b (v == 1) (fun _ => false) = o) :
    (copyBad g c (v == 1) off = true → o = preciseTrap s r w 0x08) ∧
    (copyBad g c (v == 1) off = false → c.len = 0 →
      o = retire (s.countEvent (clusterOf g.tile) 2 0 1) r g w { w.sset t.toNat 0 with joined := true } false) ∧
    (copyBad g c (v == 1) off = false → c.len ≠ 0 → o = retire (queuedCopy s g.tile (guarded c v off)) r g w (withCopy w c.id) false) := by
  subst hx
  refine ⟨issueCopy_bad hc ho, fun hok h0 => ?_, fun hok h0 => ?_⟩
  · rw [issueCopy_enqueues hc ho hok, enqueueCopy_empty (c := guarded c v off) h0, ← hc]
    rfl
  · rw [issueCopy_enqueues hc ho hok, enqueueCopy_queues (c := guarded c v off) h0]
    rfl

end

section

variable {s₀ s s1 : State} {i : Instr} {r : WRef} {g : Workgroup} {w : Warp} {kind : CopyKind} {n : Nat} {t a b : BitVec 6} {v : BitVec 1}
  {f : State → WRef → Workgroup → Warp → List Reg → List Reg → State} {ws sh : List Reg} (h : Issues s₀ s i act r g w)
include h

theorem runCopy_notProducer (he : exec i s₀ = runCopy s₀ i kind n t a b v) (hp : r.wp ≠ g.producer) : TrapsWith s₀ s i r w 0x07 := by
  rw [TrapsWith, he, runCopy, issues_runNamed h, setWarp_twice]
  exact congrArg _ (if_pos hp)

theorem runCopy_issues (he : exec i s₀ = runCopy s₀ i kind n t a b v) (hp : r.wp = g.producer) :
    exec i s₀ = .next (issueCopy (s.setWarp r w) r (g.setWarp r.wp w) w kind t ((span a.toNat n).map w.sget) [] b (v == 1)
      (fun _ => false)) := by
  rw [he, runCopy, issues_runNamed h]
  exact congrArg _ (if_neg (not_not.2 hp))

variable (he : exec i s₀ = runShaped s₀ i kind n a f)
include he

theorem runShaped_notProducer (hp : r.wp ≠ g.producer) : TrapsWith s₀ s i r w 0x07 := by
  rw [TrapsWith, he, runShaped, issues_runNamed h, setWarp_twice]
  exact congrArg _ (if_pos hp)

variable (hw : (span a.toNat n).map w.sget = ws) (hp : r.wp = g.producer)
include hw hp

theorem runShaped_badName (hn : shapeNameBad kind ws = true) : TrapsWith s₀ s i r w 0x08 := by
  subst hw
  rw [TrapsWith, he, runShaped, issues_runNamed h, setWarp_twice]
  exact congrArg _ ((if_neg (not_not.2 hp)).trans (if_pos hn))

variable (hn : shapeNameBad kind ws = false)
include hn

/-- The producer reads the shape record, and goes on as the read comes out (R253). -/
theorem runShaped_reads : exec i s₀ = .next (
    match readWords (s.setWarp r w) r (g.setWarp r.wp w) w (fieldOf (ws.getD 0 0) 0 48) 8 with
    | .park s => s
    | .bad s a k => retireWithRecords s r (g.setWarp r.wp w) w w false [uniRecord w a k (typeOf 0 8)]
    | .ok s sh => f s r (g.setWarp r.wp w) w ws sh) := by
  subst hw
  rw [he, runShaped, issues_runNamed h]
  exact congrArg _ ((if_neg (not_not.2 hp)).trans ((if_neg (Bool.not_eq_true _ ▸ hn)).trans rfl))

theorem runShaped_parks (hr : readWords (s.setWarp r w) r (g.setWarp r.wp w) w (fieldOf (ws.getD 0 0) 0 48) 8 = .park s1) :
    exec i s₀ = .next s1 := by
  rw [runShaped_reads h he hw hp hn, hr]

theorem runShaped_faults {ad fk : Nat}
    (hr : readWords (s.setWarp r w) r (g.setWarp r.wp w) w (fieldOf (ws.getD 0 0) 0 48) 8 = .bad s1 ad fk) :
    exec i s₀ = .next (retireWithRecords s1 r (g.setWarp r.wp w) w w false [uniRecord w ad fk (typeOf 0 8)]) := by
  rw [runShaped_reads h he hw hp hn, hr]

theorem runShaped_goes (hr : readWords (s.setWarp r w) r (g.setWarp r.wp w) w (fieldOf (ws.getD 0 0) 0 48) 8 = .ok s1 sh) :
    exec i s₀ = .next (f s1 r (g.setWarp r.wp w) w ws sh) := by
  rw [runShaped_reads h he hw hp hn, hr]

end

/-! ### Batches -/

theorem closeBatch_c (w : Warp) : w.closeBatch.c = w.c := by
  unfold Warp.closeBatch
  split <;> rfl

theorem closeBatch_active (w : Warp) : w.closeBatch.active = w.active := by
  unfold Warp.closeBatch
  split <;> rfl

section

variable {s₀ s : State} {n : BitVec 4} {r : WRef} {g : Workgroup} {w : Warp}

/-- CPCLOSE closes the open batch and does nothing else (R257). -/
theorem cpclose_retires (h : Issues s₀ s .cpclose act r g w) : RetiresAs s₀ s .cpclose r (goneOn s.issues w.closeBatch) := by
  show execCpclose s₀ = _
  exact runUniform_ok h rfl (by simp [closeBatch_active]) (by simp [closeBatch_c, h.lives])

/-- CPWAIT closes it too, and goes on once few enough are outstanding (R257). -/
theorem cpwait_answers (h : Issues s₀ s (.cpwait n) act r g w) : exec (.cpwait n) s₀ = .next (
    if w.closeBatch.batches.length ≤ n.toNat then retire (s.setWarp r w) r (g.setWarp r.wp w) w w.closeBatch false
    else waitAt (s.setWarp r w) r w.closeBatch (.batch n.toNat)) := by
  show execCpwait n s₀ = _
  rw [execCpwait, issues_runNamed h]

end

/-! ### CPC -/

section

variable {s₀ s s1 s2 s3 : State} {t a b : BitVec 6} {v : BitVec 1} {r : WRef} {g : Workgroup} {w : Warp} {ws sh hd es : List Reg}
  (h : Issues s₀ s (.cpc t a b v) act r g w) (hw : (span a.toNat 3).map w.sget = ws) (hp : r.wp = g.producer)
  (hn : shapeNameBad .cpc ws = false)
  (hr : readWords (s.setWarp r w) r (g.setWarp r.wp w) w (fieldOf (ws.getD 0 0) 0 48) 8 = .ok s1 sh)
include h hw hp hn hr

/-- A CPC whose shape record is bad traps (R253, R456). -/
theorem cpc_badShape (hbad : shapeBad sh true = true ∨ callShapeBad sh (fieldOf (ws.getD 2 0) 0 48) = true) :
    exec (.cpc t a b v) s₀ = .next (preciseTrap s1 r w 0x08) := by
  have hgo := runShaped_goes h (execCpc.eq_1 ..) hw hp hn hr
  exact hgo.trans (congrArg _ (if_pos (Bool.or_eq_true_iff.2 hbad)))

variable (hs : shapeBad sh true = false) (hcs : callShapeBad sh (fieldOf (ws.getD 2 0) 0 48) = false)
  (hh : readWords s1 r (g.setWarp r.wp w) w (fieldOf (ws.getD 1 0) 0 48) 8 = .ok s2 hd)
include hs hcs hh

/-- One whose group header is bad traps (R455). -/
theorem cpc_badHeader (hbad : groupHeaderBad sh hd = true) : exec (.cpc t a b v) s₀ = .next (preciseTrap s2 r w 0x08) := by
  have hgo := runShaped_goes h (execCpc.eq_1 ..) hw hp hn hr
  refine hgo.trans (congrArg _ ((if_neg (by rw [hs, hcs]; exact Bool.false_ne_true)).trans ?_))
  rw [hh]
  exact if_pos hbad

variable (hg : groupHeaderBad sh hd = false)
  (he : readWords s2 r (g.setWarp r.wp w) w (fieldOf (ws.getD 1 0) 0 48 + 64) (gridSize sh) = .ok s3 es)
include hg he

/-- One whose group is bad traps (R455). -/
theorem cpc_badEntries (hbad : groupEntriesBad sh s3.dev.devid es = true) :
    exec (.cpc t a b v) s₀ = .next (preciseTrap s3 r w 0x08) := by
  have hgo := runShaped_goes h (execCpc.eq_1 ..) hw hp hn hr
  refine hgo.trans (congrArg _ ((if_neg (by rw [hs, hcs]; exact Bool.false_ne_true)).trans ?_))
  rw [hh]
  refine (if_neg (Bool.not_eq_true _ ▸ hg)).trans ?_
  rw [he]
  exact if_pos hbad

/-- The call that a CPC adds: not posted yet, with the group that its table names (R455, R458). -/
def newCall (id : Nat) (ws sh hd es : List Reg) : Call :=
  ⟨id, fieldOf (hd.getD 0 0) 0 32, fieldOf (ws.getD 1 0) 48 16, ownRank sh, sh, es, false, [], [], [], [], [], [], [], [], 0, false, 0,
    false, none⟩

/-- One whose records are good issues as a copy, and its call is added where the copy was queued (R455, R458). -/
theorem cpc_issues (hok : groupEntriesBad sh s3.dev.devid es = false) {u : State}
    (hu : issueCopy s3 r (g.setWarp r.wp w) w .cpc t ws sh b (v == 1) (fun _ => false) = u)
    (hq : (u.copy s3.nextId).isSome = true) : exec (.cpc t a b v) s₀ =
      .next { u with dev := { u.dev with calls := u.dev.calls ++ [newCall s3.nextId ws sh hd es] } } := by
  subst hu
  have hgo := runShaped_goes h (execCpc.eq_1 ..) hw hp hn hr
  refine hgo.trans (congrArg _ ((if_neg (by rw [hs, hcs]; exact Bool.false_ne_true)).trans ?_))
  rw [hh]
  refine (if_neg (Bool.not_eq_true _ ▸ hg)).trans ?_
  rw [he]
  exact (if_neg (Bool.not_eq_true _ ▸ hok)).trans (if_pos hq)

/-- A good one that moves bytes is queued, and memory stays (R253). -/
theorem cpc_calls (hok : groupEntriesBad sh s3.dev.devid es = false) {c : Copy} {off : Nat}
    (hc : newCopy s3 r (g.setWarp r.wp w) w .cpc t.toNat ws sh none = c) (ho : fieldOf (w.sget b.toNat) 0 32 = off)
    (hgood : copyBad (g.setWarp r.wp w) c (v == 1) off = false) (hlen : c.len ≠ 0) : ∃ u, exec (.cpc t a b v) s₀ = .next u ∧
      u.mem = s3.mem ∧ u.dev.calls = s3.dev.calls ++ [newCall s3.nextId ws sh hd es] := by
  obtain ⟨W, hframe⟩ := retire_live_frame (s := queuedCopy s3 g.tile (guarded c v off)) (r := r) (g := g.setWarp r.wp w) (w := w)
    (u := withCopy w c.id) id h.lives
  have hissue := ((issueCopy_answers hc ho rfl).2.2 hgood hlen).trans hframe
  have hid : (guarded c v off).id = s3.nextId := congrArg Copy.id hc.symm
  refine ⟨_, cpc_issues h hw hp hn hr hs hcs hh hg he hok hissue ?_, rfl, rfl⟩
  rw [← hid]
  exact congrArg Option.isSome (queuedCopy_copy s3 g.tile (guarded c v off))

end

/-- Settles O37: each copy by its record and its length, the shaped ones after their reads, and the batches as their closing leaves
them. -/
theorem copyInstructions : Obligations.CopyInstructions := by
  unfold Obligations.CopyInstructions
  intro s₀ s t a b v n r g w s0 g0 words off new traps issued plain shaped
  have hissued {i : Instr} {s1 : State} {kind : CopyKind} {ws sh : List Reg}
      (hx : exec i s₀ = .next (issueCopy s1 r g0 w kind t ws sh b (v == 1) (fun _ => false))) : issued i s1 (new s1 kind ws sh) := by
    obtain ⟨hbad, hempty, hqueues⟩ := issueCopy_answers (v := v) (r := r) (g := g0) (w := w) (kind := kind) (t := t) (b := b) rfl rfl
      (Eq.refl (issueCopy s1 r g0 w kind t ws sh b (v == 1) (fun _ => false)))
    refine ⟨fun h => hx.trans (congrArg _ (hbad h)), fun h h0 => hx.trans (congrArg _ (hempty h h0)), fun h h0 =>
      ⟨guarded (new s1 kind ws sh) v off, queuedCopy s1 g.tile (guarded (new s1 kind ws sh) v off), rfl, rfl, queuedCopy_copy ..,
        queuedCopy_copies .., rfl, rfl, rfl, hx.trans (congrArg _ (hqueues h h0))⟩⟩
  have hplain {i : Instr} {kind : CopyKind} {k : Nat} (he : exec i s₀ = runCopy s₀ i kind k t a b v) : plain i kind k :=
    fun h => ⟨runCopy_notProducer h he, fun hp => hissued (runCopy_issues h he hp)⟩
  have hshaped {i : Instr} {kind : CopyKind} {k : Nat} {f} (he : exec i s₀ = runShaped s₀ i kind k a f) : shaped i kind k :=
    fun h => ⟨runShaped_notProducer h he, runShaped_badName h he rfl, fun hp hn =>
      ⟨fun _ => runShaped_parks h he rfl hp hn, fun _ _ _ => runShaped_faults h he rfl hp hn⟩⟩
  refine ⟨hplain rfl, hplain rfl, hplain rfl, hshaped (execCpt.eq_1 ..), hshaped (execCpc.eq_1 ..), fun h hp hn s1 sh hr => ?_, fun h hp hn s1 sh hr => ⟨cpc_badShape h rfl hp hn hr, fun hs hcs s2 hd hh =>
      ⟨cpc_badHeader h rfl hp hn hr hs hcs hh, fun hg s3 es he => ⟨cpc_badEntries h rfl hp hn hr hs hcs hh hg he,
        fun hok hgood hlen => ?_⟩⟩⟩, cpclose_retires, fun h => ⟨fun hl => ?_, fun hl => ?_⟩, rfl⟩
  · have hgo := runShaped_goes h (execCpt.eq_1 ..) rfl hp hn hr
    exact hissued hgo
  · obtain ⟨t', hx, hmem, hcalls⟩ := cpc_calls h rfl hp hn hr hs hcs hh hg he hok rfl rfl hgood hlen
    exact ⟨t', hx, hmem, _, hcalls, rfl, rfl, rfl, rfl, rfl, rfl⟩
  · exact (cpwait_answers h).trans (congrArg _ (if_pos hl))
  · exact (cpwait_answers h).trans (congrArg _ (if_neg (Nat.not_le.2 hl)))

/-! ### The fault ring -/

section

variable {s : State} {v : BitVec 64} {n : Nat} {m : FaultMsg} {refused : Bool}

/-- Counting an event changes the monitors of a cluster alone (R506). -/
theorem countEvent_frame (s : State) (c src v n : Nat) : ∃ C, s.countEvent c src v n = { s with clusters := C } := by
  simp only [State.countEvent]
  split
  · exact ⟨_, rfl⟩
  · exact ⟨s.clusters, rfl⟩

/-- A table whose values are all changed by a function lists each of them changed. -/
theorem find_map_values {α : Type} (t : Table α) (f : α → α) (k : Nat) :
    Table.find (t.map (fun e => (e.1, f e.2))) k = (Table.find t k).map f := by
  induction t with
  | nil => rfl
  | cons e t ih =>
    simp only [List.map_cons, Table.find, ih]
    split <;> rfl

/-- A write of HEAD advances it where it lies from HEAD to TAIL, and is ignored elsewhere (R501). -/
theorem faultRingHeadWrite_eq (s : State) (v : BitVec 64) : exec (.faultRingHeadWrite v) s = .next (
    if s.dev.ringHead ≤ v.toNat ∧ v.toNat ≤ ringTailOf s.dev then advanceRing s v.toNat else s) := rfl

/-- A pending message has the tag that was asked for and no reply (R501). -/
theorem pendingMessage_some {d : Device} {tag : Nat} (h : pendingMessage d tag = some (n, m)) : m.tag = tag ∧ m.answered = false := by
  have hm := List.find?_some h
  simp only [Bool.and_eq_true, beq_iff_eq, Bool.not_eq_true'] at hm
  exact hm.1

/-- The machine with a message answered. -/
def answered (s : State) (n : Nat) (m : FaultMsg) : State :=
  { s with dev := { s.dev with ring := Table.set s.dev.ring n { m with answered := true } } }

/-- A reply without a pending message is ignored (R501). -/
theorem faultRingReply_none (h : pendingMessage s.dev (fieldOf v 0 32) = none) : exec (.faultRingReply v) s = .next s := by
  show execFaultRingReply v s = _
  rw [execFaultRingReply, h]

/-- A reply to a message answers it, counts its service, and releases what waits (R434, R501, R506). -/
theorem faultRingReply_some (h : pendingMessage s.dev (fieldOf v 0 32) = some (n, m)) : exec (.faultRingReply v) s = .next (
    releaseReply (if m.src = 4 then answered s n m
      else (answered s n m).countEvent m.cluster 9 (messageClock (answered s n m) m - m.born) 1) m (v.getLsbD 32)) := by
  show execFaultRingReply v s = _
  rw [execFaultRingReply, h]
  rfl

/-! A queue's access (R522). -/

/-- A queue once a message has its reply. -/
def repliedQueue (m : FaultMsg) (refused : Bool) (q : Queue) : Queue :=
  if q.waitTag = some m.tag then
    { q with waitTag := none, nones := if refused then q.nones ++ [(q.waitBy, m.va / 4096)] else q.nones }
  else q

theorem replyQueue_queues (s : State) (m : FaultMsg) (refused : Bool) :
    (replyQueue s m refused).dev.queues = s.dev.queues.map (fun e => (e.1, repliedQueue m refused e.2)) := by
  refine List.map_congr_left fun e _ => ?_
  simp only [repliedQueue]
  split <;> rfl

theorem repliedQueue_waitTag (m : FaultMsg) (refused : Bool) (q : Queue) : (repliedQueue m refused q).waitTag ≠ some m.tag := by
  unfold repliedQueue
  split
  · exact (Option.some_ne_none _).symm
  · assumption

/-- After the reply no queue waits for its message. -/
theorem replyQueue_waitTag (s : State) (m : FaultMsg) (refused : Bool) (k : Nat) :
    ((replyQueue s m refused).queue k).waitTag ≠ some m.tag := by
  simp only [State.queue, Table.get, replyQueue_queues, find_map_values]
  cases Table.find s.dev.queues k with
  | none => exact (Option.some_ne_none _).symm
  | some q => exact repliedQueue_waitTag m refused q

/-- No operation on a workgroup goes on where none waits. -/
theorem wcbResume_idle (h : ∀ r, s.dev.wcbReq = some r → r.1 ≠ 4) : wcbResume s = s := by
  unfold wcbResume
  split
  · rename_i hr
    exact absurd rfl (h _ hr)
  · rfl

theorem faultRingReply_queue (h : pendingMessage s.dev (fieldOf v 0 32) = some (n, m)) (hq : m.src = 4) :
    exec (.faultRingReply v) s = .next (wcbResume (replyQueue (answered s n m) m (v.getLsbD 32))) := by
  rw [faultRingReply_some h, if_pos hq, releaseReply, hq]
  rfl

/-! A break (R273). -/

/-- The reply to a break lets its warp go on past it, or issue it again. -/
theorem faultRingReply_break (h : pendingMessage s.dev (fieldOf v 0 32) = some (n, m)) (hq : m.src = 3) {g : Workgroup} {w : Warp}
    (hg : s.wg m.uid = some g) (hw : s.warp ⟨m.uid, m.warp⟩ = some w) (hb : w.c.wait = .brk m.tag) :
    ∃ t, t.mem = s.mem ∧ t.wgs = s.wgs ∧ exec (.faultRingReply v) s = .next (
      if v.getLsbD 32 then t.setWarp ⟨m.uid, m.warp⟩ { w with c := { w.c with wait := .none } }
      else retire t ⟨m.uid, m.warp⟩ g w w false) := by
  obtain ⟨C, hC⟩ := countEvent_frame (answered s n m) m.cluster 9 (messageClock (answered s n m) m - m.born) 1
  refine ⟨{ answered s n m with clusters := C }, rfl, rfl, ?_⟩
  have hg' : ({ answered s n m with clusters := C } : State).wg m.uid = some g := hg
  have hw' : ({ answered s n m with clusters := C } : State).warp ⟨m.uid, m.warp⟩ = some w := hw
  have h34 : m.src ≠ 4 := by omega
  rw [faultRingReply_some h, if_neg h34, releaseReply, hq, hC]
  simp only [replyBreak, hg', hw', hb, if_true]

end

/-- Settles O51: HEAD by whether it advances, and a reply by the source of the message that it answers. -/
theorem faultRing : Obligations.FaultRing := by
  unfold Obligations.FaultRing
  intro s v
  refine ⟨fun hout => ?_, fun hlo hhi => ?_, faultRingReply_none, fun n m h => pendingMessage_some h, fun n m h hq => ?_,
    fun n m h hq hreq => ?_, fun n m h hq g w hg hw hb hlive => ?_, fun r w m tags refused hw hp htag => ?_⟩
  · exact (faultRingHeadWrite_eq s v).trans (congrArg _ (if_neg (by omega)))
  · exact (faultRingHeadWrite_eq s v).trans (congrArg _ (if_pos ⟨hlo, hhi⟩))
  · exact ⟨_, faultRingReply_queue h hq, rfl, rfl, rfl, replyQueue_waitTag _ m _, fun hr => wcbResume_idle hr⟩
  · refine ⟨_, faultRingReply_queue h hq, ?_⟩
    rw [wcbResume_idle (s := replyQueue (answered s n m) m (v.getLsbD 32)) hreq]
    refine ⟨rfl, rfl, ⟨_, find_set_same .., rfl⟩, fun k q hk => ?_⟩
    have hlisted : Table.find (answered s n m).dev.queues k = some q := hk
    rw [replyQueue_queues, find_map_values, hlisted]
    rfl
  · obtain ⟨t, hmem, hwgs, hx⟩ := faultRingReply_break h hq hg hw hb
    have hgt : t.wg m.uid = some g := (congrArg (Table.find · m.uid) hwgs).trans hg
    cases hv : v.getLsbD 32 with
    | true =>
      rw [hv] at hx
      refine ⟨_, hx, ?_, _, stateWarp_setWarp t ⟨m.uid, m.warp⟩ g _ hgt, rfl, rfl, fun _ => rfl, fun h => absurd h.symm Bool.false_ne_true⟩
      exact (congrArg State.mem (setWarp_frame ..)).trans hmem
    | false =>
      rw [hv] at hx
      have hretire := retire_goesOn t ⟨m.uid, m.warp⟩ g w w (ne_or_eq _ _) hlive
      refine ⟨_, hx.trans (congrArg _ hretire), ?_, _, stateWarp_setWarp _ ⟨m.uid, m.warp⟩ g _ hgt, rfl, advance_r w,
        fun h => absurd h Bool.false_ne_true, fun _ => rfl⟩
      exact (congrArg State.mem (setWarp_frame ..)).trans hmem
  · rw [replyWarp, updWarp_some hw]
    simp only [hp, htag, if_true]

/-! ### The copy that a streamer starts -/

/-- The copy that starts next is one of those that wait (R401). -/
theorem nextCopy_mem {l : List Copy} {c : Copy} (h : nextCopy l = some c) : c ∈ l := by
  induction l with
  | nil => cases h
  | cons d l ih =>
    simp only [nextCopy] at h
    split at h
    · rename_i e he
      split at h
      · exact List.mem_cons_of_mem _ (ih (he.trans h))
      · exact List.mem_cons.2 (.inl (Option.some.inj h).symm)
    · exact List.mem_cons.2 (.inl (Option.some.inj h).symm)

/-- The first of the highest priority starts next (R401, R406). -/
theorem nextCopy_first {pre post : List Copy} {c : Copy} (hpre : ∀ d ∈ pre, d.prio < c.prio) (hpost : ∀ d ∈ post, d.prio ≤ c.prio) :
    nextCopy (pre ++ c :: post) = some c := by
  induction pre with
  | nil =>
    simp only [List.nil_append, nextCopy]
    cases hn : nextCopy post with
    | none => rfl
    | some d => exact if_neg (Nat.not_lt.2 (hpost d (nextCopy_mem hn)))
  | cons d pre ih =>
    simp only [List.cons_append, nextCopy, ih fun e he => hpre e (List.mem_cons_of_mem _ he)]
    exact if_pos (hpre d List.mem_cons_self)

section

variable {s s1 : State} {id tile p t : Nat} {c : Copy} {g : Workgroup}

/-- The copies of a streamer that wait to be started. -/
def waitingCopies (s : State) (tile : Nat) : List Copy :=
  ((s.tile tile).copies.filterMap s.copy).filter (fun c => !c.started && c.parked.isEmpty)

/-- A copy as its streamer starts it, with the shadow pages and the units that are fixed then (R297, R349). -/
def startedCopy (s : State) (tile : Nat) (g : Workgroup) (c : Copy) : Copy :=
  { c with gens := shadowPages s tile g.slot, started := true, units := copyUnits c, nsect := copySectors c }

/-- The units of a copy do not depend on its shadow pages (R255). -/
theorem copyUnits_gens (c : Copy) (x : Table Nat) : copyUnits { c with gens := x } = copyUnits c := rfl
theorem copySectors_gens (c : Copy) (x : Table Nat) : copySectors { c with gens := x } = copySectors c := rfl

theorem startedCopy_eq {c' : Copy} (h : { c with gens := shadowPages s tile g.slot } = c') :
    startedCopy s tile g c = { c' with started := true, units := copyUnits c', nsect := copySectors c' } := by
  subst h
  rw [copyUnits_gens, copySectors_gens]
  rfl

/-- The engines of a die take no copy of another device while no tag is free (R353). -/
theorem takeHanded_noTag {d : Nat} (h : freeTag s d = none) : takeHanded s d = s := by
  unfold takeHanded
  split
  · rfl
  · rename_i t ht
    exact absurd (h.symm.trans ht) (Option.some_ne_none t).symm

/-- What the streamer does with the copy that it starts: it parks it, sends it to its applying die with a tag of that, or goes on with it
itself. -/
def startWith (s : State) (g : Workgroup) (c : Copy) : State :=
  if c.applies then
    match startMiss s g c with
    | some (s', p) => parkCopy s' g { c with started := false } p 1
    | none =>
      match freeTag s (applyingDie s g c) with
      | some t => putRecord (s.setCopy { c with tag := some t, die := applyingDie s g c })
          { c with tag := some t, die := applyingDie s g c } 0
      | none => s
  else s.setCopy c

/-- A copy without applications starts at once (R245). -/
theorem startWith_plain (ha : c.applies = false) : startWith s g c = s.setCopy c := if_neg (Bool.not_eq_true _ ▸ ha)

/-- One that is applied parks while its applying die is not known (R244, R352). -/
theorem startWith_parks (ha : c.applies = true) (hm : startMiss s g c = some (s1, p)) :
    startWith s g c = parkCopy s1 g { c with started := false } p 1 := by
  rw [startWith, if_pos ha, hm]

/-- It takes a free tag of that die, and its record with it (R352, R353). -/
theorem startWith_takesTag (ha : c.applies = true) (hm : startMiss s g c = none) (ht : freeTag s (applyingDie s g c) = some t) :
    startWith s g c = putRecord (s.setCopy { c with tag := some t, die := applyingDie s g c })
      { c with tag := some t, die := applyingDie s g c } 0 := by
  rw [startWith, if_pos ha, hm, ht]

theorem copyStart_handed (h : 512 ≤ tile) (hf : freeTag s (tile % 4) = none) : exec (.copyStart tile) s = .next s := by
  show execCopyStart tile s = _
  rw [execCopyStart, if_pos h, takeHanded_noTag hf]

theorem copyStart_swapping (h : tile < 512) (hs : s.swapping tile = true) : exec (.copyStart tile) s = .next s := by
  show execCopyStart tile s = _
  rw [execCopyStart, if_neg (Nat.not_le.2 h), if_pos hs]

/-- Outside a swap the copy that comes next starts (R401, R413). -/
theorem copyStart_starts (h : tile < 512) (hs : s.swapping tile = false) (hn : nextCopy (waitingCopies s tile) = some c)
    (hg : s.wg c.w.wg = some g) : exec (.copyStart tile) s = .next (startWith s g (startedCopy s tile g c)) := by
  rw [waitingCopies] at hn
  show execCopyStart tile s = _
  simp -zeta only [execCopyStart, Nat.not_le.2 h, hs, hn, hg, Bool.false_eq_true, if_false]
  refine congrArg Host.Outcome.next ?_
  extract_lets c1 c2
  rw [show startedCopy s tile g c = c2 from startedCopy_eq rfl]
  clear_value c2
  clear hn
  unfold startWith
  refine if_congr Iff.rfl ?_ rfl
  cases startMiss s g c2 with
  | some q => rfl
  | none => cases freeTag s (applyingDie s g c2) <;> rfl

end

/-! ### The sectors of a copy -/

section

variable {s s1 s2 : State} {id n p a e : Nat} {c : Copy} {g : Workgroup} {d : SectorData}

/-- Which step the streamer takes with the next sector of a copy of its own that has started, is not parked and has not failed. -/
theorem copySector_eq (hc : s.copy id = some c) (ht : c.tile < 512) (hg : s.wg c.w.wg = some g) (hs : c.started = true)
    (hp : c.parked = []) (he : c.err = none) (hn : c.next < c.nsect) : exec (.copySectorPerformed id) s = .next (
      if partnerLost s c then failCopy s c 0x06 c.next
      else if c.applies then
        if decide (c.next < c.base + 64) && (c.kind != .cpc || resultsDue s id) then s.onBehalf c.w (fun s => sendSector s g c) else s
      else s.onBehalf c.w (fun s => performSector s g c)) := by
  show execCopySectorPerformed id s = _
  simp only [execCopySectorPerformed, hc, Copy.handed, Nat.not_le.2 ht, hg, hs, hp, he, Nat.not_le.2 hn, ge_iff_le, decide_false,
    Bool.false_eq_true, if_false, Bool.not_true, List.isEmpty_nil, Option.isSome_none, Bool.or_self]

/-- A sector whose data cannot be read ends the copy with their code (R243, R244). -/
theorem performSector_err (h : sectorData s g c c.next = .err s1 e) : performSector s g c = failCopy s1 c e c.next := by
  simp only [performSector, h]

/-- One whose data miss parks it (R244). -/
theorem performSector_miss (h : sectorData s g c c.next = .miss s1 p a) : performSector s g c = parkCopy s1 g c p a := by
  simp only [performSector, h]

/-- A sector is written into the scratchpad of the destination, and counted (R242, R255). -/
theorem performSector_scratchpad {u : Nat} (h : sectorData s g c c.next = .ok s1 d) (hu : c.dst.sp = some u) : performSector s g c =
    countSector ((s1.updWg u (fun h =>
      let x := unitBytes d (Memory.readN h.sp d.addr 32)
      { h with sp := Memory.writeMasked h.sp d.addr x.1 x.2 32 })).setCopy { c with next := c.next + 1 }) c := by
  simp only [performSector, h, hu]

/-- A sector is written to its global address around the line buffer, and counted (R255, R256). -/
theorem performSector_global {x : Xlated} (h : sectorData s g c c.next = .ok s1 d) (hu : c.dst.sp = none)
    (hx : copyXlate s1 g c .engWrite d.addr = (s2, .ok x)) : performSector s g c =
    countSector ((remoteAcked (writeUnit s2 x.pa d) x.pa).setCopy ({ c with next := c.next + 1 }.addLine (lineOf x.pa))) c := by
  simp only [performSector, h, hu, hx]

end

/-! ### Sectors that are applied -/

section

variable {s : State} {id n : Nat} {c : Copy} {x : SentSector}

/-- The marks of a copy's applied sectors with one more (R354). -/
def withApplied (s : State) (id n : Nat) (s1 : State) : State :=
  { s1 with dev := { s1.dev with applied := Table.set s.dev.applied id (n :: Table.get s.dev.applied [] id) } }

theorem withApplied_eq {s1 : State} (h : s1.dev.applied = s.dev.applied) : ({ s1 with dev := { s1.dev with
    applied := Table.set s1.dev.applied id (n :: Table.get s.dev.applied [] id) } } : State) = withApplied s id n s1 := by
  rw [withApplied, h]

theorem updWg_dev (s : State) (u : Nat) (f : Workgroup → Workgroup) : (s.updWg u f).dev = s.dev := by
  unfold State.updWg
  split <;> rfl

/-- A sector whose bit is set is not applied again (R354). -/
theorem applyRequest_again (hc : s.copy id = some c) (hn : (Table.get s.dev.applied [] id).contains n = true) :
    exec (.applyRequest id n) s = .next s := by
  show execApplyRequest id n s = _
  simp only [execApplyRequest, hc, hn, if_true]
  cases Table.find c.sent n <;> rfl

/-- A sector of a scratchpad is applied to its bytes (R249, R354). -/
theorem applyRequest_scratchpad {u : Nat} (hc : s.copy id = some c) (hx : Table.find c.sent n = some x)
    (hn : (Table.get s.dev.applied [] id).contains n = false) (hu : x.sp = some u) :
    exec (.applyRequest id n) s = .next (withApplied s id n (s.updWg u (fun h => { h with
      sp := Memory.writeN h.sp x.addr x.n (appliedBytes c (Memory.readN h.sp x.addr x.n) x.data x.n) }))) := by
  show execApplyRequest id n s = _
  simp only [execApplyRequest, hc, hx, hn, hu, Bool.false_eq_true, if_false]
  exact congrArg _ (withApplied_eq (congrArg Device.applied (updWg_dev ..)))

/-- Another one to the memory at its address (R249, R354). -/
theorem applyRequest_global (hc : s.copy id = some c) (hx : Table.find c.sent n = some x)
    (hn : (Table.get s.dev.applied [] id).contains n = false) (hu : x.sp = none) :
    exec (.applyRequest id n) s =
      .next (withApplied s id n (chanWrite s x.addr x.n (appliedBytes c (chanRead s x.addr x.n) x.data x.n))) := by
  show execApplyRequest id n s = _
  simp only [execApplyRequest, hc, hx, hn, hu, Bool.false_eq_true, if_false]
  obtain ⟨W, S, Q, hw⟩ := chanWrite_frame (s := s) x.addr x.n (appliedBytes c (chanRead s x.addr x.n) x.data x.n)
  exact congrArg _ (withApplied_eq (by rw [hw]))

/-- The acknowledgement of a sector that has been applied (R255, R343, R353). -/
theorem applyAck_eq (hc : s.copy id = some c) (hx : Table.find c.sent n = some x)
    (hn : (Table.get s.dev.applied [] id).contains n = true) {c1 : Copy}
    (h1 : advanceBase { c with sent := Table.del c.sent n, win := n :: c.win } 65 = c1) :
    exec (.applyAck id n) s = .next (countSector (remoteAcked (putRecord (s.setCopy c1) c1 (if c1.parked = [] then 0 else 1))
      (if x.sp = none then x.addr else 0)) c1) := by
  show execApplyAck id n s = _
  simp only [execApplyAck, hc, hx, hn, h1, Option.isSome_some, Bool.and_self, if_true, List.isEmpty_iff, Option.isNone_iff_eq_none]

/-- One that is not acknowledged in 200 ticks is sent again, and not before (R354). -/
theorem applyAckTimeout_eq (hc : s.copy id = some c) (hx : Table.find c.sent n = some x) : exec (.applyAckTimeout id n) s = .next (
    if (s.die c.die).tick ≥ x.tick + 200 then
      s.setCopy { c with sent := Table.set c.sent n { x with tick := (s.die c.die).tick } } else s) := by
  show execApplyAckTimeout id n s = _
  simp only [execApplyAckTimeout, hc, hx]

end

/-! ### What a warp's retirement leaves of its registers

A copy's token stands in its warp when the warp retires from CPWAIT, and a warp that has ended then leaves its convoys. None of that
changes a register, the memory or the device. -/

section

variable {s t : State} {r : WRef} {g : Workgroup} {w : Warp}

/-- The memory, the device and the registers of one warp. -/
def regView (r : WRef) (s : State) : Memory × Device × Option WarpRegs := (s.mem, s.dev, (s.warp r).map (·.r))

theorem regView_of_eq (hm : t.mem = s.mem) (hd : t.dev = s.dev) (hw : t.wgs = s.wgs) : regView r t = regView r s := by
  simp only [regView, State.warp, State.wg, hm, hd, hw]

theorem regView_setWarp {w' : Warp} (hw : s.warp r = some w) (hr : w'.r = w.r) : regView r (s.setWarp r w') = regView r s := by
  obtain ⟨g, hg, -⟩ := Option.bind_eq_some_iff.1 hw
  have hframe := setWarp_frame s r w'
  have hm : (s.setWarp r w').mem = s.mem := by rw [hframe]
  have hd : (s.setWarp r w').dev = s.dev := by rw [hframe]
  simp only [regView, hm, hd, stateWarp_setWarp s r g w' hg, hw, Option.map_some, hr]

theorem regView_updWarp {f : Warp → Warp} (hf : ∀ w, (f w).r = w.r) : regView r (s.updWarp r f) = regView r s := by
  cases hw : s.warp r with
  | none => simp only [State.updWarp, hw]
  | some w => exact (congrArg _ (updWarp_some hw)).trans (regView_setWarp hw (hf w))

theorem regView_holdEnded (s : State) (d : Nat) (q : WRef) (m : Member) : regView r (s.holdEnded d q m) = regView r s := by
  unfold State.holdEnded
  split
  · rename_i g _
    obtain ⟨C, hC⟩ := countEvent_frame s (clusterOf g.tile) 10 ((s.die d).tick - m.hstart) 1
    rw [hC]
    rfl
  · rfl

theorem regView_noteConvoy (s : State) (d k cls : Nat) (q : WRef) : regView r (s.noteConvoy d k cls q) = regView r s := by
  simp only [State.noteConvoy]
  split
  · split <;> rfl
  · rfl

theorem regView_endHold (s : State) (d : Nat) : regView r (endHold s d r) = regView r s := by
  unfold endHold
  split
  · rfl
  · refine regView_updWarp fun w => ?_
    split <;> rfl

theorem regView_removeMember (s : State) (d cls n : Nat) : regView r (s.removeMember d cls r n) = regView r s := by
  unfold State.removeMember
  split
  · refine (regView_endHold _ d).trans ((regView_noteConvoy _ ..).trans ?_)
    refine (regView_of_eq rfl rfl rfl).trans (foldl_keeps (p := regView r) (fun u m => ?_) _ s)
    split
    · exact regView_holdEnded ..
    · rfl
  · rfl

theorem regView_leaveConvoy (s : State) (d n : Nat) : regView r (leaveConvoy s d r n) = regView r s := by
  refine Eq.trans ?_ (regView_removeMember s d 1 n)
  exact regView_updWarp fun _ => rfl

theorem regView_leaveAll (s : State) (d : Nat) : regView r (leaveAll s d r) = regView r s := by
  unfold leaveAll
  split
  · exact foldl_keeps (p := regView r) (fun u n => regView_leaveConvoy u d n) _ s
  · rfl

/-- A warp that retires without another effect keeps its registers. -/
theorem regView_retire (hw : s.warp r = some w) : regView r (retire s r g w w false) = regView r s := by
  have hsame : Warp.checkEmpty w w.advance = w.advance := if_neg (by simp)
  have hset {w' : Warp} (hr : w'.r = w.r) : regView r (({ s with issues := s.issues + 1 } : State).setWarp r w') = regView r s :=
    (regView_setWarp (s := { s with issues := s.issues + 1 }) hw hr).trans (regView_of_eq rfl rfl rfl)
  simp only [retire, hsame, Bool.false_eq_true, if_false]
  split
  · exact (regView_leaveAll ..).trans (hset (advance_r w))
  · exact hset (advance_r w)

theorem regView_wakeBatch (s : State) : regView r (wakeBatch s r) = regView r s := by
  unfold wakeBatch
  split
  · rename_i g w hg hw
    split
    · split
      · exact regView_retire hw
      · rfl
    · rfl
  · rfl

end

/-! ### The token -/

section

variable {s : State} {id : Nat} {c : Copy} {g : Workgroup} {w : Warp}

theorem writeBackLine_wgs (s : State) (t line : Nat) : (writeBackLine s t line).wgs = s.wgs := by
  cases h : (s.tile t).line line with
  | none => rw [writeBackLine_absent h]
  | some l =>
    by_cases hd : l.dirty = 0
    · rw [writeBackLine_clean h hd]
    · obtain ⟨W, S, Q, hw⟩ := writeBackLine_dirty h hd
      rw [hw]

theorem invalidateLine_wgs (s : State) (t line : Nat) : (invalidateLine s t line).wgs = s.wgs := writeBackLine_wgs s t line

/-- A completion record is written on its die alone (R353). -/
theorem putRecord_keeps (s : State) (c : Copy) (k : Nat) : (putRecord s c k).wgs = s.wgs ∧ (putRecord s c k).mem = s.mem := by
  unfold putRecord
  split <;> exact ⟨rfl, rfl⟩

theorem countEvent_keeps (s : State) (c src v n : Nat) : (s.countEvent c src v n).wgs = s.wgs ∧
    (s.countEvent c src v n).mem = s.mem := by
  obtain ⟨C, hC⟩ := countEvent_frame s c src v n
  exact ⟨by rw [hC], by rw [hC]⟩

/-- The warp that issued a copy, when the copy has ended: its token is written and its batches no longer wait for it (R243, R257). -/
def withToken (c : Copy) (w : Warp) : Warp := (w.sset c.tok (tokenOf c)).leaveBatch c.id

/-- A copy ends: its destination's lines leave the tile and it is forgotten, before its token is written (R243, R256). -/
theorem writeToken_ends (s : State) (hg : s.wg c.w.wg = some g) : ∃ u : State,
    writeToken s c = wakeBatch (u.updWarp c.w (withToken c)) c.w ∧ u.copy c.id = none ∧ u.wgs = s.wgs ∧
    u.mem = ((destLines s g c).foldl (fun s l => invalidateLine s g.tile l) s).mem := by
  have hlines : ((destLines s g c).foldl (fun s l => invalidateLine s g.tile l) s).wgs = s.wgs :=
    foldl_keeps (p := State.wgs) (fun u l => invalidateLine_wgs u g.tile l) _ s
  obtain ⟨hputW, hputM⟩ := putRecord_keeps ((destLines s g c).foldl (fun s l => invalidateLine s g.tile l) s) c 2
  simp only [writeToken, hg]
  refine ⟨_, rfl, find_del_same .., ?_, ?_⟩
  · exact (countEvent_keeps ..).1.trans (hputW.trans hlines)
  · exact (countEvent_keeps ..).2.trans hputM

/-- What COPY_TOKEN_WRITE leaves (R243, R256). -/
theorem copyTokenWrite_eq (hc : s.copy id = some c) (ht : c.tile < 512) :
    exec (.copyTokenWrite id) s = .next (if copyDone c then writeToken s c else s) := by
  show execCopyTokenWrite id s = _
  simp only [execCopyTokenWrite, hc, Copy.handed, Nat.not_le.2 ht, decide_false, Bool.false_eq_true, if_false]

/-- The token stands in the register of the copy's warp, whose other registers are as they were (R243). -/
theorem writeToken_answers (hg : s.wg c.w.wg = some g) (hw : s.warp c.w = some w) : (writeToken s c).copy c.id = none ∧
    (writeToken s c).mem = ((destLines s g c).foldl (fun s l => invalidateLine s g.tile l) s).mem ∧
    ∃ w', (writeToken s c).warp c.w = some w' ∧ w'.r = (w.sset c.tok (tokenOf c)).r := by
  obtain ⟨u, hu, hcopy, hwgs, hmem⟩ := writeToken_ends (c := c) s hg
  have huw : u.warp c.w = some w := by rw [State.warp, State.wg, hwgs]; exact hw
  have hug : u.wg c.w.wg = some g := by rw [State.wg, hwgs]; exact hg
  have hview := regView_wakeBatch (r := c.w) (u.setWarp c.w (withToken c w))
  rw [updWarp_some huw] at hu
  rw [← hu] at hview
  simp only [regView, Prod.mk.injEq, stateWarp_setWarp u c.w g _ hug, Option.map_some, Option.map_eq_some_iff] at hview
  obtain ⟨hm, hd, w', hw', hr⟩ := hview
  have hframe := setWarp_frame u c.w (withToken c w)
  refine ⟨?_, ?_, w', hw', hr⟩
  · rw [State.copy, hd, hframe]
    exact hcopy
  · rw [hm, hframe]
    exact hmem

/-- The token of a copy that has done everything, and of one that ended on a fault (R243). -/
theorem tokenOf_none (h : c.err = none) : tokenOf c = 0 := by
  simp only [tokenOf, h]
theorem tokenOf_some {code sect : Nat} (h : c.err = some (code, sect)) :
    tokenOf c = BitVec.ofNat 64 (sect % 2 ^ 32 * 2 ^ 32 + code) := by
  simp only [tokenOf, h]

end

/-- Settles O38: the copy that starts is the first of the highest priority; each sector is performed or sent in one step of its copy, and
applied, acknowledged and timed by one event each; the token is written with the destination's lines out of the tile, and what the warp's
retirement does after that changes no register. -/
theorem copyProgress : Obligations.CopyProgress := by
  unfold Obligations.CopyProgress
  intro s id c g hc hid ht hg waits
  refine ⟨fun tile h hs hn ha => ?_, fun tile h hs => copyStart_swapping h hs, fun l pre post hl hpre hpost => ?_,
    fun tile h hf => copyStart_handed h hf, fun tile t h hs hn ha => ?_, fun tile s1 p h hs hn ha => ?_,
    fun hs hp he hn hl => ?_, fun hs hp he hn hl => ⟨fun ha => ?_, fun ha hb hr => ?_, fun ha hb => ?_⟩,
    fun s1 e h => performSector_err h, fun s1 p a h => performSector_miss h, fun s1 d u h hu => performSector_scratchpad h hu,
    fun s1 d s2 x h hu hx => performSector_global h hu hx, fun n x hx hn => ⟨fun u hu => applyRequest_scratchpad hc hx hn hu,
      fun hu => applyRequest_global hc hx hn hu⟩, fun n hn => applyRequest_again hc hn, fun n x hx hn => applyAck_eq hc hx hn rfl,
    fun n x hx => ⟨fun hlt => ?_, fun hle => ?_⟩, fun hd => ?_, fun w hd hw => ?_, fun n => rfl, tokenOf_none,
    fun code sect h => tokenOf_some h⟩
  · rw [copyStart_starts h hs hn hg]
    exact congrArg _ (startWith_plain (c := startedCopy s tile g c) ha)
  · rw [hl]
    exact nextCopy_first hpre hpost
  · intro c1 hm hf
    rw [copyStart_starts h hs hn hg]
    exact congrArg _ (startWith_takesTag (c := startedCopy s tile g c) ha hm hf)
  · intro c1 hm
    rw [copyStart_starts h hs hn hg]
    exact congrArg _ (startWith_parks (c := startedCopy s tile g c) ha hm)
  · rw [copySector_eq hc ht hg hs hp he hn, if_pos hl]
  · rw [copySector_eq hc ht hg hs hp he hn, hl, ha, if_neg Bool.false_ne_true, if_neg Bool.false_ne_true]
  · have hsend : (decide (c.next < c.base + 64) && (c.kind != .cpc || resultsDue s id)) = true := by simpa [hb] using hr
    rw [copySector_eq hc ht hg hs hp he hn, hl, if_neg Bool.false_ne_true, if_pos ha, if_pos hsend]
  · have hfull : (decide (c.next < c.base + 64) && (c.kind != .cpc || resultsDue s id)) = false := by simp [Nat.not_lt.2 hb]
    rw [copySector_eq hc ht hg hs hp he hn, hl, if_neg Bool.false_ne_true, if_pos ha, hfull, if_neg Bool.false_ne_true]
  · rw [applyAckTimeout_eq hc hx, if_neg (Nat.not_le.2 hlt)]
  · rw [applyAckTimeout_eq hc hx, if_pos hle]
  · rw [copyTokenWrite_eq hc ht, hd, if_neg Bool.false_ne_true]
  · obtain ⟨hcopy, hmem, w', hw', hr⟩ := writeToken_answers hg hw
    have hsget (k : Nat) : w'.sget k = (w.sset c.tok (tokenOf c)).sget k := by rw [Warp.sget, hr]; rfl
    refine ⟨writeToken s c, ?_, hid ▸ hcopy, hmem, w', hw', ?_, fun k hk => ?_⟩
    · rw [copyTokenWrite_eq hc ht, if_pos hd]
    · rw [hsget, sget_sset_same]
    · rw [hsget, sget_sset_other _ _ _ _ hk]


end Sys2Proof.Proofs

/-! PROOFS of the family of system instructions: what SRD.V, SWR, REGION, SLEEP and SETPERF leave of their warp and its cluster; the
instructions that raise and end traps, and what is taken at an instruction boundary; the cancel of a level; the end, discard, switch-out
and restore of a workgroup, and its bounds. -/

namespace Sys2Proof.Proofs

open Sys2Proof.Machine Sys2Proof.Claims Sys2Proof.Laws Sys2Proof.Laws.State

/-! ### Special registers -/

section

variable {s₀ s : State} {r : WRef} {g : Workgroup} {w : Warp}

/-- Of the special registers LANEID alone differs from lane to lane (R270). -/
theorem specialRead_lane (s : State) (r : WRef) (g : Workgroup) (w : Warp) (n l : Nat) :
    specialRead s r g w n l = if n = 0 then BitVec.ofNat 64 l else specialRead s r g w n 0 := by
  split
  · next hzero =>
    subst hzero
    rfl
  · next hother =>
    unfold specialRead
    split
    · exact absurd rfl hother
    all_goals rfl

/-- SRD.V writes its register in the active lanes, each lane by what it reads there (R271). -/
theorem srdV_retires {d n : BitVec 6} {k : BitVec 1} (h : Issues s₀ s (.srdV d k n) act r g w) :
    RetiresAs s₀ s (.srdV d k n) r (goneOn s.issues (writeDst w (.reg (64 * k.toNat + d.toNat)) (if n = 0 then 0x06 else 0x08)
      w.active 0 (fun l => specialRead (s.setWarp r w) r (g.setWarp r.wp w) w n.toNat l))) := by
  show execSrdV d k n s₀ = _
  rw [execSrdV, issues_runNamed h, Nat.mul_comm 64]
  exact congrArg _ (retire_goneOn (u := writeDst w (.reg (k.toNat * 64 + d.toNat)) _ w.active 0 _) id h.lives)

/-- SWR retires with the special registers that its value sets (R272). -/
theorem swr_sets {a n : BitVec 6} {x : WarpSpecial} (h : Issues s₀ s (.swr a n) act r g w) (hn : n ≠ 0x0D#6)
    (hx : specialWrite w n.toNat (w.sget a.toNat) = some { w with sp := x }) :
    RetiresAs s₀ s (.swr a n) r (goneOn s.issues { w with sp := x }) := by
  show execSwr a n s₀ = _
  rw [execSwr, issues_runNamed h, if_neg hn, hx]
  exact congrArg _ (retire_goneOn (u := { w with sp := x }) id h.lives)

/-- SWR traps on a value that its register does not take (R272). -/
theorem swr_traps {a n : BitVec 6} (h : Issues s₀ s (.swr a n) act r g w) (hn : n ≠ 0x0D#6)
    (hx : specialWrite w n.toNat (w.sget a.toNat) = none) : TrapsWith s₀ s (.swr a n) r w 0x01 := by
  show execSwr a n s₀ = _
  rw [execSwr, issues_runNamed h, if_neg hn, hx, setWarp_twice]

/-- A handler vector takes addresses of words below 2^48, and traps on others (R270, R272). -/
theorem swr_vector {a n : BitVec 6} {f : WarpSpecial → WarpSpecial} (h : Issues s₀ s (.swr a n) act r g w) (hn : n ≠ 0x0D#6)
    (hw : specialWrite w n.toNat (w.sget a.toNat) = if
      (decide ((w.sget a.toNat).toNat % 4 = 0) && decide ((w.sget a.toNat).toNat < 2 ^ 48)) = true
      then some { w with sp := f w.sp } else none) :
    ((w.sget a.toNat).toNat % 4 = 0 ∧ (w.sget a.toNat).toNat < 2 ^ 48 →
      RetiresAs s₀ s (.swr a n) r (goneOn s.issues { w with sp := f w.sp })) ∧
    (¬ ((w.sget a.toNat).toNat % 4 = 0 ∧ (w.sget a.toNat).toNat < 2 ^ 48) → TrapsWith s₀ s (.swr a n) r w 0x01) := by
  refine ⟨fun hok => swr_sets h hn (hw.trans (if_pos ?_)), fun hbad => swr_traps h hn (hw.trans (if_neg ?_))⟩
  · simpa using hok
  · simpa using hbad

/-- A register with a greatest value takes what lies from 1 up to it, and traps on the rest (R270, R272). -/
theorem swr_bounded {a n : BitVec 6} {top : Nat} {f : WarpSpecial → WarpSpecial} (h : Issues s₀ s (.swr a n) act r g w)
    (hn : n ≠ 0x0D#6) (hw : specialWrite w n.toNat (w.sget a.toNat) = if
      (w.sget a.toNat).toNat = 0 ∨ (w.sget a.toNat).toNat > top then none else some { w with sp := f w.sp }) :
    (1 ≤ (w.sget a.toNat).toNat → (w.sget a.toNat).toNat ≤ top →
      RetiresAs s₀ s (.swr a n) r (goneOn s.issues { w with sp := f w.sp })) ∧
    ((w.sget a.toNat).toNat = 0 ∨ top < (w.sget a.toNat).toNat → TrapsWith s₀ s (.swr a n) r w 0x01) :=
  ⟨fun hlo hhi => swr_sets h hn (hw.trans (if_neg (by omega))), fun hbad => swr_traps h hn (hw.trans (if_pos hbad))⟩

/-- SWR of MROW retires, and starts a resumption where its value sets ACT (R272). -/
theorem swr_mrow {a : BitVec 6} (h : Issues s₀ s (.swr a 0x0D#6) act r g w) :
    let x := w.setMrow (w.sget a.toNat &&& mrowMask)
    exec (.swr a 0x0D#6) s₀ = .next (if (w.sget a.toNat).getLsbD 63
      then resumeMatrix (retiredAs s r (goneOn s.issues x)) r w.pcOf w.c.pos.hdr w.c.pos.idx
      else retiredAs s r (goneOn s.issues x)) := by
  intro x
  have hretire : retire (s.setWarp r w) r (g.setWarp r.wp w) w x false = retiredAs s r (goneOn s.issues x) :=
    retire_goneOn (u := x) id h.lives
  show execSwr a 0x0D#6 s₀ = _
  rw [execSwr, issues_runNamed h, if_pos rfl, hretire]

/-- REGION sets the restart record, of a place relative to its own word (R276). -/
theorem region_retires {a : BitVec 6} {o : BitVec 12} (h : Issues s₀ s (.region a o) act r g w) :
    RetiresAs s₀ s (.region a o) r (goneOn s.issues
      { w with region := some ((BitVec.ofInt 64 ((w.pcOf : Int) + 4 * o.toInt)).toNat, w.sget a.toNat) }) := by
  show execRegion a o s₀ = _
  rw [execRegion, issues_runNamed h, show wrapTo 64 ((w.pcOf : Int) + 4 * o.toInt) = _ from branchTarget_eq w o.toInt]
  exact congrArg _ (retire_goneOn (u := { w with region := some (_, w.sget a.toNat) }) id h.lives)

/-! ### SLEEP -/

/-- SLEEP retires, and then waits where its count is not 0 (R279). -/
theorem sleep_answers {a : BitVec 6} (h : Issues s₀ s (.sleep a) act r g w) :
    let t := (w.sget a.toNat).toNat % 2 ^ 32
    let s1 := retiredAs s r (goneOn s.issues w)
    exec (.sleep a) s₀ = .next (if t = 0 then s1
      else s1.updWarp r (fun x => { x with c := { x.c with wait := .sleep ((s1.die (g.tile / 128)).tick + t) } })) := by
  intro t s1
  have ht : fieldOf (w.sget a.toNat) 0 32 = t := by simp [fieldOf, t]
  have hretire : retire (s.setWarp r w) r (g.setWarp r.wp w) w w false = s1 := retire_goneOn id h.lives
  show execSleep a s₀ = _
  rw [execSleep, issues_runNamed h, ht, hretire]
  rfl

/-- A sleep ends once the tick of its die has come (R279). -/
theorem sleepExpire_eq {t : Nat} (hg : s.wg r.wg = some g) (hw : s.warp r = some w) (hs : w.c.wait = .sleep t) :
    exec (.sleepExpire r) s = .next (if t ≤ (s.die (g.tile / 128)).tick then s.setWarp r { w with c := { w.c with wait := .none } }
      else s) := by
  show execSleepExpire r s = _
  rw [execSleepExpire, hg, hw]
  dsimp only
  rw [hs]
  rfl

/-! ### SETPERF -/

/-- What follows from a cluster's requests leaves them (R472). -/
theorem refreshClock_requests (s : State) (c : Nat) : ((refreshClock s c).cluster c).requests = (s.cluster c).requests := by
  have hclk (s : State) (f : Clock → Clock) : ((s.updClk c f).cluster c).requests = (s.cluster c).requests := by
    rw [State.updClk, cluster_setCluster_same]
  unfold refreshClock
  dsimp only
  split
  · exact hclk s _
  · exact (hclk _ _).trans (hclk s _)

/-- The machine with a context's request on a cluster made (R280). -/
def requested (s : State) (c slot l : Nat) : State :=
  refreshClock (s.setCluster c { s.cluster c with requests := Table.set (s.cluster c).requests slot l }) c

theorem requestOf_requested (s : State) (c slot l : Nat) : requestOf (requested s c slot l) c slot = l := by
  rw [requestOf, requested, refreshClock_requests, cluster_setCluster_same, get_set_same]

/-- The code of SETPERF, by its value, the cap of its context and whether the level is below the floor of its pair (R280). -/
def setperfCode (v cap : Nat) (low : Bool) : Nat :=
  if 16 ≤ v then 3 else if low then 1 else if cap < v then 2 else 0

/-- SETPERF with the level to ask for and its code, which is odd where no request is made (R280, R474). -/
def setperfWith (s : State) (r : WRef) (g : Workgroup) (w : Warp) (d : BitVec 6) (l code : Nat) : State :=
  let c := g.tile / 8
  let t := if code % 2 = 1 then s else requested s c g.slot l
  retire t r g w (w.sset d.toNat
    (BitVec.ofNat 64 (code + requestOf t c g.slot * 2 ^ 8 + clockTarget (t.cluster c) * 2 ^ 12))) false

theorem setperf_answers {d a : BitVec 6} (h : Issues s₀ s (.setperf d a) act r g w) :
    let v := (w.sget a.toNat).toNat
    let s0 := s.setWarp r w
    let cap := (s0.slot g.slot).cap
    let l := min (v % 16) cap
    exec (.setperf d a) s₀ = .next (setperfWith s0 r (g.setWarp r.wp w) w d l
      (setperfCode v cap (decide (levelVoltage l < (s0.pair (g.tile / 8 / 2)).pfloor)))) := by
  intro v s0 cap l
  have hv : v < 2 ^ 64 := (w.sget a.toNat).isLt
  have hwant : fieldOf (w.sget a.toNat) 0 4 = v % 16 := by simp [fieldOf, v]
  have hhigh : fieldOf (w.sget a.toNat) 4 60 ≠ 0 ↔ 16 ≤ v := by
    show v / 2 ^ 4 % 2 ^ 60 ≠ 0 ↔ 16 ≤ v
    omega
  have hcode : (if fieldOf (w.sget a.toNat) 4 60 ≠ 0 then 3 else if levelVoltage l < (s0.pair (g.tile / 8 / 2)).pfloor then 1
      else if v % 16 > cap then 2 else 0) =
      setperfCode v cap (decide (levelVoltage l < (s0.pair (g.tile / 8 / 2)).pfloor)) := by
    simp only [setperfCode, hhigh, decide_eq_true_eq, gt_iff_lt]
    split
    · rfl
    · next hlow => rw [Nat.mod_eq_of_lt (by omega)]
  show execSetperf d a s₀ = _
  rw [execSetperf, issues_runNamed h, ← hcode]
  show Host.Outcome.next (setperfWith s0 r (g.setWarp r.wp w) w d (min (fieldOf (w.sget a.toNat) 0 4) cap) (if
    fieldOf (w.sget a.toNat) 4 60 ≠ 0 then 3 else if levelVoltage (min (fieldOf (w.sget a.toNat) 0 4) cap) <
      (s0.pair (g.tile / 8 / 2)).pfloor then 1 else if fieldOf (w.sget a.toNat) 0 4 > cap then 2 else 0)) = _
  rw [hwant]

end

/-- Settles O32: SRD.V, REGION and SLEEP answer as their meaning says, SWR by its register and whether that takes the value, SETPERF by
its code. -/
theorem system : Obligations.System := by
  unfold Obligations.System
  intro s₀ s d a n k o r g w s0 g0 v swr vecOk vec
  refine ⟨fun h => ?_, fun h => swr_sets h (by decide) rfl, fun h => ⟨fun hact => ?_, fun hact => ?_⟩,
    fun h => ?_, fun h => ?_, fun h => swr_sets h (by decide) rfl,
    fun h => swr_vector (f := fun x => { x with hvFault := v }) h (by decide) rfl,
    fun h => swr_vector (f := fun x => { x with hvCancel := v }) h (by decide) rfl,
    fun h => swr_vector (f := fun x => { x with hvPreempt := v }) h (by decide) rfl,
    fun h => swr_vector (f := fun x => { x with hvTrap := v }) h (by decide) rfl,
    region_retires, fun h => ⟨fun hz => ?_, fun hz => ⟨_, ?_, rfl⟩⟩, fun q k x t hg hw hs => sleepExpire_eq hg hw hs, fun h => ?_⟩
  · have hlane : (fun l => specialRead s0 r g0 w n.toNat l) =
        fun l => if n = 0 then BitVec.ofNat 64 l else specialRead s0 r g0 w n.toNat 0 := by
      funext l
      rw [specialRead_lane]
      exact ite_congr (propext (BitVec.toNat_inj (y := 0#6))) (fun _ => rfl) (fun _ => rfl)
    exact hlane ▸ srdV_retires h
  · exact (swr_mrow h).trans (congrArg _ (if_neg (ne_true_of_eq_false hact)))
  · exact (swr_mrow h).trans (congrArg _ (if_pos hact))
  · exact swr_bounded (f := fun x => { x with cvslip := v.setWidth 8 }) h (by decide) (by rw [← BitVec.ofNat_toNat]; rfl)
  · obtain ⟨hsets, htraps⟩ := swr_bounded (top := 65535) (f := fun x => { x with cvpat := v.setWidth 16 }) h (by decide)
      (by rw [← BitVec.ofNat_toNat]; rfl)
    exact ⟨fun hlo hhi => hsets hlo (Nat.le_of_lt_succ hhi), fun hbad => htraps hbad⟩
  · exact (sleep_answers h).trans (congrArg _ (if_pos hz))
  · exact (sleep_answers h).trans (congrArg _ (if_neg hz))
  · intro c cap l low
    refine ⟨_, _, setperf_answers h, fun hbig => ?_, fun hsmall hlow => ?_, fun hsmall hok => ?_⟩
    · have hcode : ∀ b, setperfCode v.toNat cap b = 3 := fun b => if_pos hbig
      exact ⟨hcode _, if_pos (by rw [hcode])⟩
    · have hcode : setperfCode v.toNat cap (decide low) = 1 := by simp [setperfCode, Nat.not_le.2 hsmall, hlow]
      exact ⟨hcode, if_pos (congrArg (· % 2) hcode)⟩
    · have hcode : setperfCode v.toNat cap (decide low) = if cap < v.toNat then 2 else 0 := by
        simp [setperfCode, Nat.not_le.2 hsmall, hok]
      refine ⟨hcode, ?_⟩
      have heven : ¬ setperfCode v.toNat cap (decide low) % 2 = 1 := by
        rw [hcode]
        split <;> decide
      exact (congrArg (requestOf · c g.slot) (if_neg heven)).trans (requestOf_requested ..)

/-! ### What is due at a boundary -/

section

variable {s : State} {q : WRef} {h : Workgroup} {x : Warp}

/-- Whether a warp has an event pending (R431). -/
def eventPending (x : Warp) : Bool :=
  x.c.entry.isSome || !x.c.recs.isEmpty || x.c.trapNo.isSome || x.c.cancelReq || x.c.preReq

/-- A warp outside a handler that is not parked takes what is pending (R429, R431). -/
theorem takes_unparked (hh : x.c.handler = none) (hp : x.parked = false) : x.takes = eventPending x := by
  simp [Warp.takes, Warp.due, eventPending, hh, hp]

/-- A parked warp without a request of a cancel or pre-empt takes nothing (R436). -/
theorem takes_parked (hp : x.parked = true) (hc : x.c.cancelReq = false) (hr : x.c.preReq = false) : x.takes = false := by
  simp [Warp.takes, hp, hc, hr]

theorem live_iff : h.live = true ↔ h.status = .resident ∧ h.discard = false := by
  simp [Workgroup.live]

/-- A warp at a boundary where it takes what is pending: its workgroup lives, and it is neither ended, done, parked nor in a handler
(R421, R429, R442). -/
structure AtBoundary (s : State) (q : WRef) (h : Workgroup) (x : Warp) : Prop where
  wg : s.wg q.wg = some h
  warp : s.warp q = some x
  live : h.live = true
  handler : x.c.handler = none
  ended : x.c.ended = false
  sigdone : x.c.sigdone = false
  parked : x.parked = false

/-- A warp that takes nothing, and one of a workgroup that has stopped, stays as it is. -/
theorem enterPending_idle (hg : s.wg q.wg = some h) (hw : s.warp q = some x) (hno : h.live = false ∨ x.takes = false) :
    enterPending s q = s := by
  have hstop : (!h.live || !x.takes || x.c.ended || x.c.sigdone) = true := by
    rcases hno with hl | ht <;> simp [*]
  simp only [enterPending, hg, hw, hstop, if_true]

/-- Nothing keeps a warp at a boundary from the event that is pending. -/
theorem AtBoundary.enters (b : AtBoundary s q h x) (hp : eventPending x = true) :
    (!h.live || !x.takes || x.c.ended || x.c.sigdone) = false := by
  simp [b.live, takes_unparked b.handler b.parked, hp, b.ended, b.sigdone]

/-! The events in the order of R431, each where none before it is pending. -/

theorem enterPending_entry {e : Entry} (b : AtBoundary s q h x) (he : x.c.entry = some e) :
    enterPending s q = enterException s q { x with c := { x.c with entry := none } } e := by
  have hgo := b.enters (by simp [eventPending, he])
  simp only [enterPending, b.wg, b.warp, hgo, he, Bool.false_eq_true, if_false]

theorem enterPending_recs (b : AtBoundary s q h x) (he : x.c.entry = none) (hr : x.c.recs ≠ []) :
    enterPending s q = takeException s q { x with c := { x.c with recs := [] } } 0x10 0 x.c.recs none := by
  have hsome : (!x.c.recs.isEmpty) = true := by simpa using hr
  have hgo := b.enters (by simp [eventPending, hsome])
  simp only [enterPending, b.wg, b.warp, hgo, he, hsome, Bool.false_eq_true, if_false, if_true]

theorem enterPending_trap {k : Nat} (b : AtBoundary s q h x) (he : x.c.entry = none) (hr : x.c.recs = [])
    (ht : x.c.trapNo = some k) :
    enterPending s q = takeException s q { x with c := { x.c with trapNo := none } } 0x20 k [] none := by
  have hgo := b.enters (by simp [eventPending, ht])
  simp only [enterPending, b.wg, b.warp, hgo, he, hr, ht, List.isEmpty_nil, Bool.not_true, Bool.false_eq_true, if_false]

/-- The bound of a cancel runs from its trap (R443). -/
theorem enterPending_cancel (b : AtBoundary s q h x) (he : x.c.entry = none) (hr : x.c.recs = []) (ht : x.c.trapNo = none)
    (hc : x.c.cancelReq = true) : ∃ t, enterPending s q =
      takeException t q { x with c := { x.c with cancelReq := false } } 0x30 0 [] none := by
  have hgo := b.enters (by simp [eventPending, hc])
  simp only [enterPending, b.wg, b.warp, hgo, he, hr, ht, hc, List.isEmpty_nil, Bool.not_true, Bool.false_eq_true, if_false, if_true]
  exact ⟨_, rfl⟩

/-- Without a matrix instruction there is none to stop (R232). -/
theorem stopMatrix_none (hw : s.warp q = some x) (hm : x.mat = none) : stopMatrix s q = s := by
  simp only [stopMatrix, hw, hm]

theorem enterPending_preempt (b : AtBoundary s q h x) (he : x.c.entry = none) (hr : x.c.recs = []) (ht : x.c.trapNo = none)
    (hc : x.c.cancelReq = false) (hp : x.c.preReq = true) (hm : x.mat = none) (hl : s.leavesPast (dieOf h.tile) 2 q = false) :
    enterPending s q = takeException s q { x with c := { x.c with preReq := false } } 0x40 0 [] none := by
  have hgo := b.enters (by simp [eventPending, hp])
  simp only [enterPending, b.wg, b.warp, hgo, he, hr, ht, hc, hp, hl, stopMatrix_none b.warp hm, List.isEmpty_nil, Bool.not_true,
    Bool.false_eq_true, if_false, if_true, Option.getD_some]

/-! The boundary as an event, which a swap of the warp's tile holds up (R414). -/

theorem handlerEntry_idle (hg : s.wg q.wg = some h) (hw : s.warp q = some x) (hno : h.live = false ∨ x.takes = false) :
    exec (.handlerEntry q) s = .next s := by
  show execHandlerEntry q s = _
  simp only [execHandlerEntry, hg, hw, enterPending_idle hg hw hno, ite_self]

theorem handlerEntry_held (hg : s.wg q.wg = some h) (hw : s.warp q = some x) (hs : s.swapping h.tile = true)
    (hf : s.quiescing h.tile = false ∨ x.faultDue = false) : exec (.handlerEntry q) s = .next s := by
  have hheld : (s.swapping h.tile && !(s.quiescing h.tile && x.faultDue)) = true := by
    rcases hf with hq | hd <;> simp [*]
  show execHandlerEntry q s = _
  simp only [execHandlerEntry, hg, hw, hheld, if_true]

theorem handlerEntry_enters (hg : s.wg q.wg = some h) (hw : s.warp q = some x)
    (hs : s.swapping h.tile = false ∨ s.quiescing h.tile = true ∧ x.faultDue = true) :
    exec (.handlerEntry q) s = .next (enterPending s q) := by
  have hgo : (s.swapping h.tile && !(s.quiescing h.tile && x.faultDue)) = false := by
    rcases hs with hn | ⟨hq, hf⟩ <;> simp [*]
  show execHandlerEntry q s = _
  simp only [execHandlerEntry, hg, hw, hgo, Bool.false_eq_true, if_false]

/-- A warp with records known takes them in a quiesce; one without records, and without an entry that waits, does not (R414, R423). -/
theorem faultDue_recs (hh : x.c.handler = none) (hp : x.parked = false) (hr : x.c.recs ≠ []) : x.faultDue = true := by
  simp [Warp.faultDue, takes_unparked hh hp, eventPending, hr]

theorem faultDue_none (he : x.c.entry = none) (hr : x.c.recs = []) : x.faultDue = false := by
  simp [Warp.faultDue, he, hr]

/-- Once its messages are answered a parked warp issues again (R434). -/
theorem warpReplay_eq (hw : s.warp q = some x) : exec (.warpReplay q) s =
    .next (s.setWarp q (if x.c.wait = .park [] then { x with c := { x.c with wait := .none } } else x)) := by
  show execWarpReplay q s = _
  rw [execWarpReplay, updWarp_some hw]
  split
  · next hpark => rw [if_pos hpark]
  · next hpark => rw [if_neg hpark]

end

/-! ### The instructions that raise and end traps -/

section

variable {s₀ s : State} {r : WRef} {g : Workgroup} {w : Warp}

/-- Where a warp goes on does not depend on a trap that it has raised. -/
theorem advance_trapNo (w : Warp) (k : Option Nat) : ({ w with c := { w.c with trapNo := k } } : Warp).advance =
    { w.advance with c := { w.advance.c with trapNo := k } } := by
  unfold Warp.advance
  dsimp only
  have hend : Warp.atBodyEnd { w with c := { w.c with trapNo := k } } (w.c.pos.word + 4) = w.atBodyEnd (w.c.pos.word + 4) := rfl
  rw [hend]
  split
  · rfl
  · split <;> rfl

/-- A warp with a trap raised (R273). -/
def trapRaised (w : Warp) (k : Option Nat) : Warp := { w with c := { w.c with trapNo := k } }

theorem goneOn_trapRaised (n : Nat) (w : Warp) (k : Option Nat) : goneOn n (trapRaised w k) = trapRaised (goneOn n w) k := by
  simp only [goneOn, trapRaised, advance_trapNo]

/-- Going on leaves the control state but for the position and what the warp waits for. -/
theorem goneOn_ctl (n : Nat) (w : Warp) : (goneOn n w).c = { w.c with pos := w.advance.c.pos, wait := .none } := by
  rw [goneOn, advance_eq]
  rfl

theorem goneOn_mat (n : Nat) (w : Warp) : (goneOn n w).mat = w.mat := by
  rw [goneOn, advance_eq]
  rfl

/-- A warp that has gone on waits for nothing but its matrix instruction. -/
theorem goneOn_parked (n : Nat) (w : Warp) : (goneOn n w).parked = w.matParked := by
  simp only [Warp.parked, Warp.matParked, goneOn_mat, goneOn_ctl, Bool.or_false]

/-- The machine of a retired warp has its workgroup with the warp in it. -/
theorem wg_retiredAs {u : Warp} (hg : s.wg r.wg = some g) : (retiredAs s r u).wg r.wg = some (g.setWarp r.wp u) :=
  wg_setWarp { s with issues := s.issues + 1 } r g u hg

/-- What follows the retirement of a TRAP: a handler fault in a handler, else the boundary (R273, R430, R431). -/
def trapBoundary (s : State) (r : WRef) (k : Nat) : State :=
  match s.warp r with
  | some w => if w.c.handler.isSome then takeException s r (trapRaised w none) 0x20 k [] none else enterPending s r
  | none => s

theorem trapBoundary_outside {u : Warp} {k : Nat} (hw : s.warp r = some u) (hh : u.c.handler = none) :
    trapBoundary s r k = enterPending s r := by
  simp only [trapBoundary, hw, hh, Option.isSome_none, Bool.false_eq_true, if_false]

/-- TRAP retires with its trap raised, and outside a handler the boundary that follows is the warp's next (R273, R431). -/
theorem trap_answers {n : BitVec 8} (h : Issues s₀ s (.trap n) act r g w) (hh : w.c.handler = none) :
    exec (.trap n) s₀ = .next (enterPending (retiredAs s r (trapRaised (goneOn s.issues w) (some n.toNat))) r) := by
  have hretire : retire (s.setWarp r w) r (g.setWarp r.wp w) w (trapRaised w (some n.toNat)) false =
      retiredAs s r (trapRaised (goneOn s.issues w) (some n.toNat)) :=
    (retire_goneOn (w := w) (u := trapRaised w (some n.toNat)) id h.lives).trans (congrArg (retiredAs s r) (goneOn_trapRaised ..))
  have hno : (trapRaised (goneOn s.issues w) (some n.toNat)).c.handler = none :=
    (congrArg WarpCtl.handler (goneOn_ctl s.issues w)).trans hh
  show execTrap n s₀ = _
  rw [execTrap, issues_runNamed h]
  show Host.Outcome.next (trapBoundary (retire (s.setWarp r w) r (g.setWarp r.wp w) w (trapRaised w (some n.toNat)) false) r
    n.toNat) = _
  rw [hretire, trapBoundary_outside (warp_retiredAs (issues_wg h) _) hno]

/-- After a TRAP nothing is pending before it, where nothing was. -/
theorem trap_taken {n : BitVec 8} (h : Issues s₀ s (.trap n) act r g w) (hlive : g.live = true) (hh : w.c.handler = none)
    (hr : w.c.recs = []) (hs : w.c.sigdone = false) (he : w.c.entry = none) (hm : w.matParked = false) :
    exec (.trap n) s₀ = .next (takeException (retiredAs s r (trapRaised (goneOn s.issues w) (some n.toNat))) r
      (trapRaised (goneOn s.issues w) none) 0x20 n.toNat [] none) := by
  have hctl := goneOn_ctl s.issues w
  have b : AtBoundary (retiredAs s r (trapRaised (goneOn s.issues w) (some n.toNat))) r
      (g.setWarp r.wp (trapRaised (goneOn s.issues w) (some n.toNat))) (trapRaised (goneOn s.issues w) (some n.toNat)) :=
    { wg := wg_retiredAs (issues_wg h)
      warp := warp_retiredAs (issues_wg h) _
      live := hlive
      handler := (congrArg WarpCtl.handler hctl).trans hh
      ended := (congrArg WarpCtl.ended hctl).trans h.lives
      sigdone := (congrArg WarpCtl.sigdone hctl).trans hs
      parked := (goneOn_parked s.issues w).trans hm }
  rw [trap_answers h hh, enterPending_trap b ((congrArg WarpCtl.entry hctl).trans he) ((congrArg WarpCtl.recs hctl).trans hr) rfl]
  rfl

/-- TRET last in its clause leaves its handler, and traps outside one (R57, R273, R428). -/
theorem tret_answers (h : Issues s₀ s .tret act r g w) (hl : w.c.pos.idx = w.c.pos.cl.len) :
    (∀ k, w.c.handler = some k → exec .tret s₀ = .next (returnFromException
      { s.setWarp r w with issues := (s.setWarp r w).issues + 1 } r { w with lastIssue := (s.setWarp r w).issues } k)) ∧
    (w.c.handler = none → TrapsWith s₀ s .tret r w 0x01) := by
  have hx : exec .tret s₀ = _ := (lastOnly_last h hl _).trans (issues_runNamed h _)
  refine ⟨fun k hk => ?_, fun hk => ?_⟩
  · rw [hx, hk]
  · rw [TrapsWith, hx, hk, setWarp_twice]

/-- SIGDONE ends a pre-empt handler, and traps elsewhere (R275). -/
theorem sigdone_answers (h : Issues s₀ s .sigdone act r g w) :
    (w.c.handler = some 3 → exec .sigdone s₀ =
      .next (retiredAs s r { w with lastIssue := s.issues, c := { w.c with sigdone := true } })) ∧
    (w.c.handler ≠ some 3 → TrapsWith s₀ s .sigdone r w 0x01) := by
  have hx : exec .sigdone s₀ = execSigdone s₀ := rfl
  have hi : (s.setWarp r w).issues = s.issues := by rw [setWarp_frame]
  refine ⟨fun hk => ?_, fun hk => ?_⟩
  · rw [hx, execSigdone, issues_runNamed h, if_pos hk]
    dsimp only
    rw [hi, issues_setWarp, setWarp_twice]
    rfl
  · rw [TrapsWith, hx, execSigdone, issues_runNamed h, if_neg hk, setWarp_twice]

/-- The break message of a BKPT (R273, R435). -/
def breakMessage (s : State) (r : WRef) (g : Workgroup) (w : Warp) (n : Nat) : FaultMsg :=
  ⟨w.pcOf, s.asidOf g, n, 3, 0, g.handle, g.wgix, r.wp, r.wg, clusterOf g.tile, (s.die (dieOf g.tile)).tick, false⟩

/-- BKPT parks its warp on a break message where the slot debugs, and has no effect elsewhere (R273). -/
theorem bkpt_answers {n : BitVec 8} (h : Issues s₀ s (.bkpt n) act r g w) :
    (((s.setWarp r w).slot g.slot).dbg = false → RetiresAs s₀ s (.bkpt n) r (goneOn s.issues w)) ∧
    (((s.setWarp r w).slot g.slot).dbg = true → exec (.bkpt n) s₀ =
      .next ((sendMessage (s.setWarp r w) (breakMessage (s.setWarp r w) r (g.setWarp r.wp w) w n.toNat)).setWarp r
        { w with c := { w.c with wait := .brk (s.setWarp r w).dev.nextTag } })) := by
  have hx : exec (.bkpt n) s₀ = execBkpt n s₀ := rfl
  refine ⟨fun hd => ?_, fun hd => ?_⟩
  · rw [RetiresAs, hx, execBkpt, issues_runNamed h]
    exact congrArg _ ((if_neg (ne_true_of_eq_false hd)).trans (retire_goneOn id h.lives))
  · rw [hx, execBkpt, issues_runNamed h]
    exact congrArg _ (if_pos hd)

end

/-- Settles O33: each instruction by its meaning on the warp, and a boundary by the first event that is pending there. -/
theorem traps : Obligations.Traps := by
  unfold Obligations.Traps
  intro s₀ s n r g w s0 u flagged
  refine ⟨fun h hres hdis hh hr hs he hm => trap_taken h (live_iff.2 ⟨hres, hdis⟩) hh hr hs he hm,
    fun h => ⟨fun k hk hl => (tret_answers h hl).1 k hk, fun hk hl => (tret_answers h hl).2 hk⟩,
    fun s r g w hc hl => lastOnly_traps hc hl _, sigdone_answers,
    fun h => ⟨(bkpt_answers h).1, fun hd => ⟨_, rfl, rfl, rfl, rfl, (bkpt_answers h).2 hd⟩⟩,
    fun q h x hg hw hp hc hr => handlerEntry_idle hg hw (.inr (takes_parked hp hc hr)),
    fun q h x e hg hw hh hend hsig hp he hswap hres hdis => ?_, fun q h x hg hw hh hend hsig hp he => ⟨fun hswap hno => ?_,
      fun hfree => ⟨fun hstop => ?_, fun hres hdis => ?_⟩⟩, fun q x hw => warpReplay_eq hw⟩
  · have b : AtBoundary s q h x := ⟨hg, hw, live_iff.2 ⟨hres, hdis⟩, hh, hend, hsig, hp⟩
    rw [handlerEntry_enters hg hw (.inl hswap), enterPending_entry b he]
  · exact handlerEntry_held hg hw hswap (hno.imp_right (faultDue_none he))
  · refine handlerEntry_idle hg hw (.inl (Bool.eq_false_iff.2 fun hlive => ?_))
    obtain ⟨hres, hdis⟩ := live_iff.1 hlive
    simp [hres, hdis] at hstop
  · intro entry
    have b : AtBoundary s q h x := ⟨hg, hw, live_iff.2 ⟨hres, hdis⟩, hh, hend, hsig, hp⟩
    have hx := handlerEntry_enters hg hw (hfree.imp_right (And.imp_right (faultDue_recs hh hp)))
    refine ⟨fun hr => ?_, fun k hr ht => ?_, fun hr ht hc => ?_, fun hr ht hc hpre hm hl => ?_, fun hr ht hc hpre => ?_⟩
    · exact hx.trans (congrArg _ (enterPending_recs b he hr))
    · exact hx.trans (congrArg _ (enterPending_trap b he hr ht))
    · obtain ⟨t, hcancel⟩ := enterPending_cancel b he hr ht hc
      exact ⟨t, hx.trans (congrArg _ hcancel)⟩
    · exact ⟨s, hx.trans (congrArg _ (enterPending_preempt b he hr ht hc hpre hm hl))⟩
    · refine handlerEntry_idle hg hw (.inr ?_)
      simp [takes_unparked hh hp, eventPending, he, hr, ht, hc, hpre]

/-! ### Cancelling a level -/

section

variable {s : State} {k slot kind a id : Nat} {x : Level}

/-- The codes of a cancel, by the level that its handle names (R278, R384). -/
theorem cancelByHandle_unknown (hf : findLevel s slot kind a = none) : cancelByHandle s k slot kind a = .ok (s, 3) := by
  simp only [cancelByHandle, hf]

theorem cancelByHandle_complete (hf : findLevel s slot kind a = some id) (hx : s.level id = some x) (hc : x.complete = true) :
    cancelByHandle s k slot kind a = .ok (s, 1) := by
  simp only [cancelByHandle, hf, hx, hc, if_true]

theorem cancelByHandle_twice (hf : findLevel s slot kind a = some id) (hx : s.level id = some x) (hc : x.complete = false)
    (hd : x.cancelled = true) : cancelByHandle s k slot kind a = .ok (s, 2) := by
  simp only [cancelByHandle, hf, hx, hc, hd, Bool.false_eq_true, if_false, if_true]

theorem cancelByHandle_cancels {s1 : State} (hf : findLevel s slot kind a = some id) (hx : s.level id = some x)
    (hc : x.complete = false) (hd : x.cancelled = false) (h1 : cancelLevel s k id = .ok s1) :
    cancelByHandle s k slot kind a = .ok (s1, 0) := by
  simp only [cancelByHandle, hf, hx, hc, hd, h1, Bool.false_eq_true, if_false, IoRes.andThen]

/-- A cancelled level is marked in its counter (R386, R389). -/
theorem markCancelled_eq {pa : Nat} (hx : s.level id = some x) (hp : counterAt s k x = .ok pa) : markCancelled k (.ok s) id =
    .ok (queueWrite (s.setLevel id { x with cancelled := true }) (pa + 24) 8 ({ x with cancelled := true } : Level).control) := by
  have hp' : counterAt s k { x with cancelled := true } = .ok pa := hp
  simp only [markCancelled, IoRes.andThen, hx, hp', updCounter]

/-- The workgroups of a cancelled launch that have not been dispatched count as ended with error (R389). -/
theorem dropUndispatched_launch (hx : s.level id = some x) (hk : x.kind = 0) : dropUndispatched k (.ok s) id =
    count (s.setLevel id { x with next := x.total, again := [] }) k id (x.total - x.next + x.again.length)
      (x.total - x.next + x.again.length) := by
  simp only [dropUndispatched, IoRes.andThen, hx, hk, if_true]

/-- A workgroup when the levels of a list are cancelled: one of theirs that has not ended has the cancel requested of its warps (R389,
R443). -/
def cancelRequested (ids : List Nat) (g : Workgroup) : Workgroup :=
  if ids.contains g.level && g.status != .ended then
    { g with cancelled := true, warps := g.warps.map (fun w =>
      (w.1, { w.2 with c := { w.2.c with cancelReq := !w.2.c.ended } })) }
  else g

theorem requestCancel_wg (s : State) (ids : List Nat) (u : Nat) : (requestCancel s ids).wg u = (s.wg u).map (cancelRequested ids) := by
  have hmap : (requestCancel s ids).wgs = s.wgs.map (fun e => (e.1, cancelRequested ids e.2)) := by
    refine List.map_congr_left fun e _ => ?_
    unfold cancelRequested
    split <;> rfl
  rw [State.wg, hmap, find_map_values]
  rfl

theorem cancelRequested_of_mem {ids : List Nat} {g : Workgroup} (hl : ids.contains g.level = true) (he : g.status ≠ .ended) :
    cancelRequested ids g = { g with cancelled := true, warps := g.warps.map (fun w =>
      (w.1, { w.2 with c := { w.2.c with cancelReq := !w.2.c.ended } })) } := by
  refine if_pos ?_
  rw [hl, Bool.true_and, bne_iff_ne]
  exact he

theorem cancelRequested_other {ids : List Nat} {g : Workgroup} (h : ids.contains g.level = false ∨ g.status = .ended) :
    cancelRequested ids g = g := by
  refine if_neg ?_
  rw [Bool.and_eq_true, bne_iff_ne]
  rintro ⟨hl, he⟩
  exact h.elim (fun hout => Bool.false_ne_true (hout.symm.trans hl)) he

end

/-! ### CANCEL -/

section

variable {s₀ s s1 : State} {d b : BitVec 6} {l : BitVec 2} {r : WRef} {g : Workgroup} {w : Warp}

/-- CANCEL that carries out no cancel retires with its code (R278). -/
theorem cancel_code {code : Nat} (h : Issues s₀ s (.cancel d b l) act r g w)
    (hc : cancelByHandle (s.setWarp r w) (queueKey g.slot g.queue) g.slot l.toNat (w.sget b.toNat).toNat = .ok (s1, code + 1)) :
    RetiresFrom s₀ (.cancel d b l) r g w (s.setWarp r w) (w.sset d.toNat (BitVec.ofNat 64 (code + 1))) := by
  show execCancel d b l s₀ = _
  rw [execCancel, issues_runNamed h]
  dsimp only
  rw [show cancelByHandle _ (queueKey (g.setWarp r.wp w).slot (g.setWarp r.wp w).queue) (g.setWarp r.wp w).slot _ _ = _ from hc]
  rfl

/-- CANCEL that carries out a cancel retires with code 0 first, so that its warp may have the cancel requested too (R278). -/
theorem cancel_starts {id : Nat} (h : Issues s₀ s (.cancel d b l) act r g w)
    (hf : findLevel (s.setWarp r w) g.slot l.toNat (w.sget b.toNat).toNat = some id)
    (hc : cancelByHandle (s.setWarp r w) (queueKey g.slot g.queue) g.slot l.toNat (w.sget b.toNat).toNat = .ok (s1, 0)) :
    exec (.cancel d b l) s₀ = .next (afterIo (s.setWarp r w)
      (queueKey g.slot g.queue) (w.sget b.toNat).toNat (r.wg + 1)
      (cancelLevel (retire (s.setWarp r w) r (g.setWarp r.wp w) w (w.sset d.toNat 0) false) (queueKey g.slot g.queue) id)) := by
  show execCancel d b l s₀ = _
  rw [execCancel, issues_runNamed h]
  dsimp only
  rw [show cancelByHandle _ (queueKey (g.setWarp r.wp w).slot (g.setWarp r.wp w).queue) (g.setWarp r.wp w).slot _ _ = _ from hc,
    show findLevel _ (g.setWarp r.wp w).slot _ _ = _ from hf]
  rfl

end

/-! ### The CANCEL packet -/

section

variable {s s1 : State} {a j code : Nat} {ws : List Reg}

/-- The queue once its packet's accesses are done: the pages answered "none" to them have had their effect. -/
def packetDone (k : Nat) (t : State) : State :=
  t.setQueue k { t.queue k with nones := (t.queue k).nones.filter (fun x => x.1 != 0) }

/-- A packet that is dealt with leaves HEAD, but for one that has stopped its queue (R377). -/
theorem finishPacket_ok (s t : State) (k handle : Nat) : finishPacket s k handle (.ok t) = packetDone k (nextPacket t k) := rfl

theorem nextPacket_stopped {t : State} {k : Nat} (h : (t.queue k).state = 3) : nextPacket t k = t := if_pos h

/-- The status of a CANCEL packet with a legal place is written once the cancel has taken effect, unless that has stopped the queue
(R377, R384). -/
theorem parseCancel_answers (hz : (ws.getD 2 0).toNat ≠ 0) (ha : (ws.getD 2 0).toNat % 8 = 0) (hb : (ws.getD 2 0).toNat < 2 ^ 48)
    (hc : cancelByHandle s (queueKey a j) a (fieldOf (ws.getD 0 0) 16 2) (ws.getD 1 0).toNat = .ok (s1, code)) :
    ((s1.queue (queueKey a j)).state = 3 → parseCancel a j s ws = packetDone (queueKey a j) s1) ∧
    (∀ pa, (s1.queue (queueKey a j)).state ≠ 3 → queueXlate s (queueKey a j) (ws.getD 2 0).toNat .store 0x05 = .ok pa →
      parseCancel a j s ws = packetDone (queueKey a j) (nextPacket (queueWrite s1 pa 8 code) (queueKey a j))) := by
  have hok : placeOk (ws.getD 2 0).toNat = true := by simp only [placeOk, ha, hb, decide_true, Bool.and_self]
  have hplace : ¬ ((ws.getD 2 0).toNat ≠ 0 ∧ placeOk (ws.getD 2 0).toNat = false) := by rw [hok]; simp
  refine ⟨fun hstop => ?_, fun pa hgo hpa => ?_⟩
  · simp only [parseCancel, if_neg hplace, hc]
    rw [if_pos (.inr hstop), finishPacket_ok, nextPacket_stopped hstop]
  · simp only [parseCancel, if_neg hplace, hc]
    rw [if_neg (not_or.2 ⟨hz, hgo⟩), hpa]
    exact finishPacket_ok ..

end

/-- Settles O43: the code by the level that the handle names, the marks and counts of a cancel, and the packet's status by whether its
queue has stopped. -/
theorem cancels : Obligations.Cancels := by
  unfold Obligations.Cancels
  intro s₀ s d b l r g w i s0 h hi
  refine ⟨fun hf => cancel_code hi (cancelByHandle_unknown hf), fun id x hf hx => ⟨fun hc => ?_, fun hc hd => ?_,
    fun hc hd s1 s2 h1 h2 s3 h3 => ?_⟩, fun j x pa k hx hp => markCancelled_eq hx hp, fun j x k hx hk => dropUndispatched_launch hx hk,
    fun a j ws code s1 pa => ?_, fun ids u x hx => ?_⟩
  · exact cancel_code hi (cancelByHandle_complete hf hx hc)
  · exact cancel_code hi (cancelByHandle_twice hf hx hc hd)
  · rw [cancel_starts hi hf (cancelByHandle_cancels hf hx hc hd h1), ← h2, h3]
    rfl
  · intro st hz ha hb hc
    obtain ⟨hstop, hgo⟩ := parseCancel_answers hz ha hb hc
    exact ⟨hstop, hgo pa⟩
  · refine ⟨cancelRequested ids x, by rw [requestCancel_wg, hx]; rfl, fun hl he => ?_, cancelRequested_other⟩
    rw [cancelRequested_of_mem hl he]
    exact ⟨rfl, rfl⟩

/-! ### What leaving a tile does to the workgroups -/

theorem writeBackWhere_wgs (s : State) (t : Nat) (p : Line → Bool) : (writeBackWhere s t p).wgs = s.wgs :=
  foldl_keeps (p := State.wgs) (fun u l => writeBackLine_wgs u t l) _ s

theorem invalidateWhere_wgs (s : State) (t : Nat) (p : Line → Bool) : (invalidateWhere s t p).wgs = s.wgs :=
  foldl_keeps (p := State.wgs) (fun u l => invalidateLine_wgs u t l) _ s

theorem refreshClock_wgs (s : State) (c : Nat) : (refreshClock s c).wgs = s.wgs := by
  unfold refreshClock
  dsimp only
  split <;> rfl

/-- A context that leaves a tile leaves its workgroups as they are (R280, R286). -/
theorem afterLeaving_wgs (s : State) (t slot asid : Nat) : (afterLeaving s t slot asid).wgs = s.wgs := by
  unfold afterLeaving
  extract_lets mine s1 c
  have h1 : s1.wgs = s.wgs := by
    unfold s1
    split
    · exact writeBackWhere_wgs ..
    · exact invalidateWhere_wgs ..
  split
  · exact h1
  · exact (refreshClock_wgs ..).trans h1

theorem wcbSettle_wgs (s : State) (g : Workgroup) : (wcbSettle s g).wgs = s.wgs := by
  unfold wcbSettle
  dsimp only
  split <;> rfl

/-- A workgroup that is removed has ended, without a warp (R388). -/
theorem removeGroup_wg (s : State) (u : Nat) (g : Workgroup) (onTile : Bool) :
    (removeGroup s u g onTile).wg u = some { g with status := .ended, warps := [], sp := [], g := [] } := by
  have hput := wg_setWg_same s u { g with status := .ended, warps := [], sp := [], g := [] }
  unfold removeGroup
  dsimp only
  split
  · rw [State.wg, afterLeaving_wgs]
    exact hput
  · exact hput

/-- A workgroup that is switched out is saved, its pre-emption over (R275). -/
theorem storeGroup_wg (s : State) (u : Nat) (g : Workgroup) :
    ∃ h, (storeGroup s u g).wg u = some h ∧ h.status = .saved ∧ h.preTick = none := by
  unfold storeGroup
  extract_lets asid bound g'
  refine ⟨g', ?_, rfl, rfl⟩
  rw [State.wg, wcbSettle_wgs, afterLeaving_wgs]
  exact wg_setWg_same ..

/-! ### The end of a workgroup -/

section

variable {s : State} {u : Nat} {g : Workgroup}

/-- A workgroup that has left its tile does not end again. -/
theorem workgroupEnd_away (hg : s.wg u = some g) (h : g.status = .saved ∨ g.status = .placed ∨ g.status = .ended) :
    exec (.workgroupEnd u) s = .next s := by
  show execWorkgroupEnd u s = _
  rcases h with hs | hs | hs <;> simp [execWorkgroupEnd, hg, hs]

/-- A resident workgroup stays while it is to be discarded or a warp has not ended (R388, R442). -/
theorem workgroupEnd_stays (hg : s.wg u = some g) (hs : g.status = .resident)
    (h : g.discard = true ∨ ∃ w ∈ g.warps, w.2.c.ended = false) : exec (.workgroupEnd u) s = .next s := by
  have hno : (!g.discard && g.warps.all (fun x => x.2.c.ended)) = false := by
    rcases h with hd | ⟨w, hw, he⟩
    · simp [hd]
    · simp only [Bool.and_eq_false_imp, List.all_eq_false]
      exact fun _ => ⟨w, hw, by simp [he]⟩
  show execWorkgroupEnd u s = _
  simp only [execWorkgroupEnd, hg, hs, Bool.false_eq_true, if_false, beq_self_eq_true, Bool.true_and, hno, Bool.or_false, Bool.false_and]

/-- A resident workgroup whose warps have ended, with nothing outstanding, writes its lines back and leaves its convoys; once those writes
are acknowledged its record is written, it is counted, and it goes (R388). -/
theorem workgroupEnd_ends (hg : s.wg u = some g) (hs : g.status = .resident) (hd : g.discard = false)
    (he : ∀ w ∈ g.warps, w.2.c.ended = true) (hq : quiet s u g = true) (hsw : s.swapping g.tile = false)
    (hl : leavesLate s u g 1 = false) :
    let s2 := leaveConvoys (writeBackGroup s u g) u g
    ((s2.tile g.tile).unacked ≠ [] → exec (.workgroupEnd u) s = .next s2) ∧
    ((s2.tile g.tile).unacked = [] → ∀ s3 s4, exitRecord s2 g (exitInfo g) = .ok s3 → countGroup s3 g false = .ok s4 →
      exec (.workgroupEnd u) s =
        .next (wcbSettle (endGroup (afterIo s3 (queueKey g.slot g.queue) g.handle (u + 1) (.ok s4)) u g true) g)) := by
  intro s2
  have hall : g.warps.all (fun x => x.2.c.ended) = true := List.all_eq_true.2 he
  show (_ → execWorkgroupEnd u s = _) ∧ (_ → ∀ s3 s4, _ → _ → execWorkgroupEnd u s = _)
  simp only [execWorkgroupEnd, hg, hs, hd, hall, hq, hsw, hl, Bool.false_eq_true, if_false, beq_self_eq_true, Bool.not_false,
    Bool.and_self, Bool.or_false, if_true]
  refine ⟨fun hu => ?_, fun hu s3 s4 h3 h4 => ?_⟩
  · have hunacked : (!(s2.tile g.tile).unacked.isEmpty) = true := by simpa using hu
    exact congrArg _ (if_pos hunacked)
  · have hacked : (!(s2.tile g.tile).unacked.isEmpty) = false := by simp [hu]
    refine congrArg _ ((if_neg (ne_true_of_eq_false hacked)).trans ?_)
    rw [show exitRecord _ g (exitInfo g) = _ from h3]
    dsimp only
    rw [h4]
    rfl

end

/-! ### Discard, switch-out and restore -/

section

variable {s : State} {u : Nat} {g : Workgroup}

theorem switchOut_discards (hg : s.wg u = some g) (hs : g.status = .resident) (hsw : s.swapping g.tile = false)
    (hd : g.discard = true) : exec (.workgroupSwitchOut u) s = .next (discardGroup s u g) := by
  show execWorkgroupSwitchOut u s = _
  simp only [execWorkgroupSwitchOut, hg, hs, hsw, hd, and_self, if_true]

/-- A pre-empted workgroup whose warps are all done, not all of them ended, is switched out (R275, R441). -/
theorem switchOut_stores (hg : s.wg u = some g) (hs : g.status = .resident) (hsw : s.swapping g.tile = false)
    (hd : g.discard = false) (hp : g.preTick ≠ none) (ha : allDone s u g = true) (he : ∃ w ∈ g.warps, w.2.c.ended = false) :
    exec (.workgroupSwitchOut u) s = .next (switchOut s u g) := by
  obtain ⟨w, hw, hlives⟩ := he
  have hnot : g.warps.all (fun w => w.2.c.ended) = false := List.all_eq_false.2 ⟨w, hw, by simp [hlives]⟩
  have hgo : (g.preTick.isSome && allDone s u g && !g.warps.all (fun w => w.2.c.ended)) = true := by
    simp only [Option.isSome_iff_ne_none.2 hp, ha, hnot, Bool.not_false, Bool.and_self]
  show execWorkgroupSwitchOut u s = _
  simp only [execWorkgroupSwitchOut, hg, hs, hsw, hd, hgo, and_self, Bool.false_eq_true, if_false, if_true]

theorem switchOut_stays (hg : s.wg u = some g) (hd : g.discard = false) (h : g.preTick = none ∨ allDone s u g = false) :
    exec (.workgroupSwitchOut u) s = .next s := by
  have hno : (g.preTick.isSome && allDone s u g && !g.warps.all (fun w => w.2.c.ended)) = false := by
    rcases h with hp | ha
    · simp [hp]
    · simp [ha]
  show execWorkgroupSwitchOut u s = _
  simp only [execWorkgroupSwitchOut, hg, hd, hno, Bool.false_eq_true, if_false, ite_self]

/-- Without matrix instructions there are none to stop (R237). -/
theorem stopMatrices_none (hm : ∀ w ∈ g.warps, w.2.mat = none) : stopMatrices s u g = s := by
  refine (List.foldl_ext _ (fun s _ => s) s fun t w hw => ?_).trans (List.foldl_fixed _)
  simp only [hm w hw]

/-- A discarded workgroup whose level has not been cancelled is removed, and listed for its new dispatch (R276, R390, R442). -/
theorem discardGroup_listed {l : Level} (hg : s.wg u = some g) (hm : ∀ w ∈ g.warps, w.2.mat = none) (hq : quiet s u g = true)
    (hc : g.cancelled = false) (hl : leavesLate s u g 1 = false) :
    let s2 := leaveConvoys (writeBackGroup s u g) u g
    (s2.tile g.tile).unacked = [] → s2.level g.level = some l → discardGroup s u g =
      wcbSettle (removeGroup (s2.setLevel g.level { l with again := l.again ++
        [(g.wgix, g.warps.filterMap (fun w => w.2.region.map (fun p => (w.1, p))),
          (g.warps.filter (fun w => w.2.c.ended)).map (·.1))] }) u g true) g := by
  intro s2 hu hlevel
  simp only [discardGroup, stopMatrices_none hm, hg, hq, hl, hc, Bool.not_false, Bool.and_self, if_true]
  refine (if_neg (by simp [hu, s2])).trans ?_
  simp only [Bool.false_eq_true, if_false]
  rw [show State.level _ g.level = _ from hlevel]

theorem workgroupRestore_stays (hg : s.wg u = some g) (h : g.status ≠ .placed ∨ 2 ≤ (s.pair (pairOf (clusterOf g.tile))).gstate) :
    exec (.workgroupRestore u) s = .next s := by
  show execWorkgroupRestore u s = _
  rw [execWorkgroupRestore, hg]
  refine congrArg _ (if_neg ?_)
  rintro ⟨hs, hp⟩
  exact h.elim (· hs) (Nat.not_le.2 hp)

theorem workgroupRestore_restores (hg : s.wg u = some g) (hs : g.status = .placed)
    (hp : (s.pair (pairOf (clusterOf g.tile))).gstate < 2) : exec (.workgroupRestore u) s = .next (restoreGroup s u g) := by
  show execWorkgroupRestore u s = _
  rw [execWorkgroupRestore, hg]
  exact congrArg _ (if_pos ⟨hs, hp⟩)

end

/-! ### Bounds -/

section

variable {s : State} {u t : Nat} {g : Workgroup}

theorem preemptTimeout_early (hg : s.wg u = some g) (hp : g.preTick = some t) (hn : (s.die (dieOf g.tile)).tick < t + 20000) :
    exec (.preemptTimeout u) s = .next s := by
  show execPreemptTimeout u s = _
  simp only [execPreemptTimeout, hg, hp]
  exact congrArg _ (if_neg fun hlate => Nat.not_le.2 hn hlate.1)

/-- Past the bound of a pre-emption the calls of its workgroups end, and each expires, but for those that are to be discarded (R440, R441,
R468). -/
theorem preemptTimeout_late (hg : s.wg u = some g) (hp : g.preTick = some t) (hn : t + 20000 ≤ (s.die (dieOf g.tile)).tick)
    (hs : g.status = .resident) : exec (.preemptTimeout u) s = .next (if g.discard then endCalls s (gangOf u g)
      else (gangOf u g).foldl expireGroup (endCalls s (gangOf u g))) := by
  show execPreemptTimeout u s = _
  simp only [execPreemptTimeout, hg, hp]
  exact congrArg _ (if_pos ⟨hn, hs⟩)

/-- A warp that keeps another handler running ends its workgroup with error, and is reported (R440). -/
theorem expireGroup_errs {wp : Nat} {w : Warp} (hg : s.wg u = some g)
    (hf : g.warps.find? (fun w => !w.2.preemptDone && w.2.c.handler.isSome && w.2.c.handler != some 3) = some (wp, w))
    (hs : g.status = .resident) : expireGroup s u = endWithError (reportExpiry s g wp) u 0x54 wp w.c.pos.place 0 0 := by
  simp only [expireGroup, hg, hs, hf, ne_eq, not_true_eq_false, if_false]

theorem expireGroup_away (hg : s.wg u = some g) (hs : g.status ≠ .resident) : expireGroup s u = s := by
  simp only [expireGroup, hg]
  exact if_pos hs

/-- Reports to the management cores, warp by warp, leave the workgroups and the memory. -/
theorem reportExpiries_keep (s : State) (g : Workgroup) (ws : Table Warp) :
    (ws.foldl (fun s w => reportExpiry s g w.1) s).wgs = s.wgs ∧ (ws.foldl (fun s w => reportExpiry s g w.1) s).mem = s.mem :=
  ⟨foldl_keeps (p := State.wgs) (f := fun s w => reportExpiry s g w.1) (fun _ _ => rfl) ws s,
   foldl_keeps (p := State.mem) (f := fun s w => reportExpiry s g w.1) (fun _ _ => rfl) ws s⟩

theorem reportExpiries_list (s : State) (g : Workgroup) (ws : Table Warp) :
    (ws.foldl (fun s w => reportExpiry s g w.1) s).dev.expiries =
      s.dev.expiries ++ ws.map (fun w => ⟨g.slot, g.handle, g.wgix, w.1⟩) := by
  induction ws generalizing s with
  | nil => simp
  | cons w ws ih =>
    rw [List.foldl_cons, ih]
    simp [reportExpiry]

/-- Where no warp keeps another handler running, the pre-empt handlers are abandoned and reported (R440). -/
theorem expireGroup_abandons (hg : s.wg u = some g) (hs : g.status = .resident)
    (hw : ∀ w ∈ g.warps, w.2.preemptDone = true ∨ w.2.c.handler = none ∨ w.2.c.handler = some 3) : expireGroup s u =
      (g.warps.filter (fun w => w.2.c.handler == some 3 && !w.2.preemptDone)).foldl (fun s w => reportExpiry s g w.1)
        (s.setWg u { g with warps := g.warps.map (fun w => (w.1, w.2.preemptExpired)) }) := by
  have hf : g.warps.find? (fun w => !w.2.preemptDone && w.2.c.handler.isSome && w.2.c.handler != some 3) = none := by
    refine List.find?_eq_none.2 fun w hmem => ?_
    rcases hw w hmem with hd | hn | h3 <;> simp [*]
  simp only [expireGroup, hg, hs, hf, ne_eq, not_true_eq_false, if_false]

/-- The bound of a cancel, for a workgroup with a warp still in its cancel handler (R443). -/
theorem cancelTimeout_eq {wp : Nat} {w : Warp} (hg : s.wg u = some g) (hc : g.cancelTick = some t)
    (hf : g.warps.find? (fun w => !w.2.c.ended && w.2.c.handler == some 2) = some (wp, w)) :
    exec (.cancelTimeout u) s = .next (if t + 20000 ≤ (s.die (dieOf g.tile)).tick then
      (endWithError s u 0x30 wp w.c.pos.place 0 0).updWg u (fun g => { g with cancelled := true }) else s) := by
  show execCancelTimeout u s = _
  simp only [execCancelTimeout, hg, hc, hf]

end

/-- Settles O46: each event by what it finds of its workgroup, and what removing, storing and expiring leave of it. -/
theorem workgroupLife : Obligations.WorkgroupLife := by
  unfold Obligations.WorkgroupLife
  intro s u g hg k now
  refine ⟨workgroupEnd_away hg, workgroupEnd_stays hg, workgroupEnd_ends hg, fun b => ⟨_, removeGroup_wg s u g b, rfl, rfl⟩,
    fun b => rfl, switchOut_discards hg, fun hm hq hc hl l hu hlevel => discardGroup_listed hg hm hq hc hl hu hlevel, switchOut_stores hg,
    switchOut_stays hg, storeGroup_wg s u g, workgroupRestore_stays hg, workgroupRestore_restores hg,
    fun t hp => ⟨preemptTimeout_early hg hp, preemptTimeout_late hg hp⟩, fun wp w => expireGroup_errs hg, expireGroup_away hg,
    fun hs hw => ?_, fun t wp w hc hf => ⟨fun hearly => ?_, fun hlate => ?_⟩⟩
  · obtain ⟨hwgs, hmem⟩ := reportExpiries_keep (s.setWg u { g with warps := g.warps.map (fun w => (w.1, w.2.preemptExpired)) }) g
      (g.warps.filter (fun w => w.2.c.handler == some 3 && !w.2.preemptDone))
    rw [expireGroup_abandons hg hs hw]
    refine ⟨?_, reportExpiries_list .., hmem⟩
    rw [State.wg, hwgs]
    exact wg_setWg_same ..
  · rw [cancelTimeout_eq hg hc hf, if_neg (Nat.not_le.2 hearly)]
  · rw [cancelTimeout_eq hg hc hf, if_pos hlate]

end Sys2Proof.Proofs

/-! PROOFS of the family of scheduling: doorbells, queue descriptors, effective priorities and bandwidth windows, and what reset leaves.
First a rule for each operation on a queue. -/

namespace Sys2Proof.Proofs

open Sys2Proof.Machine Sys2Proof.Claims Sys2Proof.Laws Sys2Proof.Laws.State

/-! ### Reset -/

section

variable (n : Nat)

/-! Reset lists nothing, so every part of the machine reads as its reset value. -/

@[simp] theorem reset_slot : State.reset.slot n = Slot.reset := rfl
@[simp] theorem reset_queue : State.reset.queue n = Queue.reset := rfl
@[simp] theorem reset_cluster : State.reset.cluster n = Cluster.reset := rfl
@[simp] theorem reset_pair : State.reset.pair n = Pair.reset := rfl
@[simp] theorem reset_die : State.reset.die n = Die.reset := rfl
@[simp] theorem reset_tile : State.reset.tile n = Tile.reset := rfl
@[simp] theorem reset_wg : State.reset.wg n = none := rfl
@[simp] theorem reset_read : State.reset.mem.read n = 0 := rfl

end

/-- Settles O58: with no part listed, the registers of each number are the constants of the register tables. -/
theorem resetState : Obligations.ResetState := by
  unfold Obligations.ResetState
  intro n
  simp only [reset_slot, reset_queue, reset_cluster, reset_pair, reset_die, reset_tile, reset_wg, reset_read]
  decide

/-! ### Queues of the device -/

section

variable {s : State} {k n : Nat} {q : Queue}

@[simp] theorem queue_setQueue_same (s : State) (k : Nat) (q : Queue) : (s.setQueue k q).queue k = q := get_set_same ..

theorem queue_setQueue_other (s : State) (q : Queue) (h : n ≠ k) : (s.setQueue k q).queue n = s.queue n :=
  get_set_other _ _ _ _ _ h

@[simp] theorem setQueue_twice (s : State) (k : Nat) (q r : Queue) : (s.setQueue k q).setQueue k r = s.setQueue k r := by
  simp only [State.setQueue, set_set]

theorem queue_of_find (h : Table.find s.dev.queues n = some q) : s.queue n = q := by
  simp only [State.queue, Table.get, h, Option.getD_some]

theorem queueKey_slot_number (n : Nat) : queueKey (n / 64) (n % 64) = n := Nat.div_add_mod n 64

/-- Setting a number of a table to either of two values makes no difference to a fold that does not tell them apart. -/
theorem foldl_set_of_alike {α β : Type} {f : β → Nat × α → β} {x y : α} (h : ∀ b, f b (k, x) = f b (k, y)) (t : Table α) (b : β) :
    (Table.set t k x).foldl f b = (Table.set t k y).foldl f b := by
  induction t generalizing b with
  | nil => exact h b
  | cons e t ih =>
    simp only [Table.set]
    split
    · simp only [List.foldl_cons, h]
    · split
      · simp only [List.foldl_cons, h]
      · exact ih _

/-- The sum of a share depends on EN and on that share of the queue that is set (R403). -/
theorem shareSum_of_alike {x y : Queue} {f : Queue → Nat} (he : x.en = y.en) (hf : f x = f y) : shareSum s k x f = shareSum s k y f :=
  foldl_set_of_alike (fun b => by simp only [he, hf]) _ _

/-- A table whose values are changed by number lists each of them changed. -/
theorem find_map_entries {α : Type} (t : Table α) (f : Nat → α → α) (k : Nat) :
    Table.find (t.map (fun e => (e.1, f e.1 e.2))) k = (Table.find t k).map (f k) := by
  induction t with
  | nil => rfl
  | cons e t ih =>
    simp only [List.map_cons, Table.find, ih]
    split
    · next he => simp only [he, Option.map_some]
    · rfl

end

/-! ### STATE of a queue that neither waits nor stopped -/

/-- STATE once queue k stands as given: a queue that waits or has stopped keeps it, another parses while it is enabled and has packets
or a launch occupies it (R375). -/
def settledState (s : State) (k : Nat) (q : Queue) : Nat :=
  if 2 ≤ q.state then q.state
  else if q.en = true ∧ ((q.tail + 65536 - q.head) % 65536 ≠ 0 ∨ launchBusy s k = true) then 1 else 0

section

variable {s : State} {k n : Nat} {q : Queue}

theorem settledState_of_le (h : 2 ≤ q.state) : settledState s k q = q.state := if_pos h

theorem settledState_lt_two (h : q.state < 2) : settledState s k q < 2 := by
  rw [settledState, if_neg (Nat.not_le.2 h)]
  split <;> decide

/-- Settling a queue puts its STATE, and nothing else. -/
theorem settleQueue_eq (s : State) (k : Nat) : settleQueue s k = if 2 ≤ (s.queue k).state then s
    else s.setQueue k { s.queue k with state := settledState s k (s.queue k) } := by
  unfold settleQueue
  dsimp only
  split
  · rfl
  · next h =>
    simp only [settledState, if_neg h, Queue.held, Bool.and_eq_true, Bool.or_eq_true, decide_eq_true_eq, Nat.pos_iff_ne_zero]

theorem settleQueue_queue (s : State) (k : Nat) :
    (settleQueue s k).queue k = { s.queue k with state := settledState s k (s.queue k) } := by
  rw [settleQueue_eq]
  split
  · next h => rw [settledState_of_le h]
  · exact queue_setQueue_same ..

theorem settleQueue_queue_other (s : State) (h : n ≠ k) : (settleQueue s k).queue n = s.queue n := by
  rw [settleQueue_eq]
  split
  · rfl
  · exact queue_setQueue_other _ _ h

@[simp] theorem settleQueue_mem (s : State) (k : Nat) : (settleQueue s k).mem = s.mem := by
  rw [settleQueue_eq]
  split <;> rfl

@[simp] theorem settleQueue_wgs (s : State) (k : Nat) : (settleQueue s k).wgs = s.wgs := by
  rw [settleQueue_eq]
  split <;> rfl

end

/-! ### Doorbells -/

/-- Whether a TAIL would have the ring hold more than its size less one (R376). -/
def Overfull (q : Queue) (tail : Nat) : Prop := 2 ^ (q.size + 4) - 1 < (tail + 65536 - q.head) % 65536

section

variable {s : State} {k n tail : Nat}

/-- A doorbell that would overfill the ring stops its queue (R376). -/
theorem ringDoorbell_stops (h : Overfull (s.queue k) tail) :
    ringDoorbell s k tail = s.setQueue k { s.queue k with state := 3, err := 0x07 } := if_pos h

/-- Any other doorbell writes TAIL (R497). -/
theorem ringDoorbell_takes (h : ¬ Overfull (s.queue k) tail) :
    ringDoorbell s k tail = settleQueue (s.setQueue k { s.queue k with tail := tail }) k := if_neg h

theorem ringDoorbell_queue (h : ¬ Overfull (s.queue k) tail) : (ringDoorbell s k tail).queue k =
      { s.queue k with tail := tail, state := settledState s k { s.queue k with tail := tail } } := by
  rw [ringDoorbell_takes h, settleQueue_queue, queue_setQueue_same]
  rfl

theorem ringDoorbell_queue_other (hn : n ≠ k) : (ringDoorbell s k tail).queue n = s.queue n := by
  unfold ringDoorbell
  dsimp only
  split
  · exact queue_setQueue_other _ _ hn
  · rw [settleQueue_queue_other _ hn, queue_setQueue_other _ _ hn]

@[simp] theorem ringDoorbell_mem (s : State) (k tail : Nat) : (ringDoorbell s k tail).mem = s.mem := by
  unfold ringDoorbell
  dsimp only
  split
  · rfl
  · exact settleQueue_mem ..

@[simp] theorem ringDoorbell_wgs (s : State) (k tail : Nat) : (ringDoorbell s k tail).wgs = s.wgs := by
  unfold ringDoorbell
  dsimp only
  split
  · rfl
  · exact settleQueue_wgs ..

end

/-! ### Word 0 of a descriptor -/

/-- A queue with the RING bits of word 0, and with its HEAD where the slot is not bound (R375, R494). -/
def ringWritten (s : State) (k : Nat) (v : BitVec 64) : Queue :=
  { s.queue k with
    ring := (s.queue k).ring / 2 ^ 32 * 2 ^ 32 + fieldOf v 32 32
    head := if (s.slot (k / 64)).v then (s.queue k).head else fieldOf v 0 16 }

section

variable {s : State} {k n : Nat} {v : BitVec 64}

theorem ringWritten_unbound (hv : (s.slot (k / 64)).v = false) : ringWritten s k v =
    { s.queue k with ring := (s.queue k).ring / 2 ^ 32 * 2 ^ 32 + fieldOf v 32 32, head := fieldOf v 0 16 } := by
  simp only [ringWritten, hv, Bool.false_eq_true, if_false]

theorem ringWritten_bound (hv : (s.slot (k / 64)).v = true) : ringWritten s k v =
    { s.queue k with ring := (s.queue k).ring / 2 ^ 32 * 2 ^ 32 + fieldOf v 32 32 } := by
  simp only [ringWritten, hv, if_true]

/-- A write of word 0 is a doorbell of the queue with its new RING (R375). -/
theorem writeRing_eq (s : State) (k : Nat) (v : BitVec 64) :
    writeRing s k v = ringDoorbell (s.setQueue k (ringWritten s k v)) k (fieldOf v 16 16) := rfl

@[simp] theorem writeRing_mem (s : State) (k : Nat) (v : BitVec 64) : (writeRing s k v).mem = s.mem := ringDoorbell_mem ..

theorem writeRing_queue_other (hn : n ≠ k) : (writeRing s k v).queue n = s.queue n := by
  rw [writeRing_eq, ringDoorbell_queue_other hn, queue_setQueue_other _ _ hn]

variable {x : Queue}

theorem writeRing_stops (hx : ringWritten s k v = x) (h : Overfull x (fieldOf v 16 16)) :
    writeRing s k v = s.setQueue k { x with state := 3, err := 0x07 } := by
  subst hx
  rw [writeRing_eq, ringDoorbell_stops (by rwa [queue_setQueue_same]), setQueue_twice, queue_setQueue_same]

theorem writeRing_queue (hx : ringWritten s k v = x) (h : ¬ Overfull x (fieldOf v 16 16)) :
    ∃ st, (writeRing s k v).queue k = { x with tail := fieldOf v 16 16, state := st } := by
  subst hx
  rw [writeRing_eq, ringDoorbell_queue (by rwa [queue_setQueue_same]), queue_setQueue_same]
  exact ⟨_, rfl⟩

end

/-! ### Effective priorities -/

section

/-- A round of raising lowers no priority (R399). -/
theorem raiseOnce_le (edges : List (Nat × Nat)) (e : List Nat) (i : Nat) : e.getD i 0 ≤ (raiseOnce edges e).getD i 0 := by
  unfold raiseOnce
  induction edges generalizing e with
  | nil => exact Nat.le_refl _
  | cons x edges ih =>
    refine Nat.le_trans ?_ (ih _)
    dsimp only
    split
    · next hlt =>
      by_cases hi : x.2 = i
      · subst hi
        by_cases hlen : x.2 < e.length
        · simpa [hlen] using Nat.le_of_lt hlt
        · simp [hlen]
      · simp [hi]
    · exact Nat.le_refl _

theorem raiseAll_le (edges : List (Nat × Nat)) (e : List Nat) (rounds i : Nat) :
    e.getD i 0 ≤ (raiseAll edges e rounds).getD i 0 := by
  induction rounds generalizing e with
  | zero => exact Nat.le_refl _
  | succ rounds ih => exact Nat.le_trans (raiseOnce_le edges e i) (ih _)

/-- The effective priority of a queue is at least its own (R398). -/
theorem prio_le_effective (s : State) (a : Nat) {j : Nat} (hj : j < 64) :
    (s.queue (queueKey a j)).prio ≤ (effective s a).getD j 0 := by
  refine Nat.le_trans (Nat.le_of_eq ?_) (raiseAll_le ..)
  simp [hj]

/-- A queue when the effective priorities of slot a are those of a list (R398). -/
def prioritized (e : List Nat) (a n : Nat) (q : Queue) : Queue := if n / 64 = a then { q with eprio := e.getD (n % 64) 0 } else q

/-- A workgroup when those of slot a take the effective priority of their queue, as state t has it, in each warp (R398). -/
def followsQueue (t : State) (a : Nat) (g : Workgroup) : Workgroup :=
  if g.slot = a then
    { g with warps := g.warps.map (fun w => (w.1, { w.2 with sp := { w.2.sp with prio := (t.queue (queueKey a g.queue)).eprio } })) }
  else g

variable {s : State} {a n u : Nat} {q : Queue} {g : Workgroup}

@[simp] theorem updateEprio_mem (s : State) (a : Nat) : (updateEprio s a).mem = s.mem := rfl

theorem updateEprio_queue (h : Table.find s.dev.queues n = some q) :
    (updateEprio s a).queue n = prioritized (effective s a) a n q := by
  refine queue_of_find ((find_map_entries s.dev.queues (prioritized (effective s a) a) n).trans ?_)
  rw [h, Option.map_some]

theorem updateEprio_wg (s : State) (a u : Nat) : (updateEprio s a).wg u = (s.wg u).map (followsQueue (updateEprio s a) a) := by
  have hmap : (updateEprio s a).wgs = s.wgs.map (fun e => (e.1, followsQueue (updateEprio s a) a e.2)) := by
    refine List.map_congr_left fun e _ => ?_
    unfold followsQueue
    split <;> rfl
  rw [State.wg, hmap, find_map_values]
  rfl

/-- An update changes EPRIO of a queue alone (R398). -/
theorem prioritized_eq (e : List Nat) (a n : Nat) (q : Queue) : ∃ p, prioritized e a n q = { q with eprio := p } := by
  unfold prioritized
  split
  · exact ⟨_, rfl⟩
  · exact ⟨q.eprio, rfl⟩

theorem prioritized_eprio (e : List Nat) (a n : Nat) (q : Queue) :
    (prioritized e a n q).eprio = if n / 64 = a then e.getD (n % 64) 0 else q.eprio := by
  unfold prioritized
  split <;> rfl

/-- The workgroup after an update: its status stays, its warps have the effective priority of its queue where it is of the slot, and
it is as it was elsewhere (R398). -/
theorem updateEprio_resident (hg : s.wg u = some g) : ∃ g', (updateEprio s a).wg u = some g' ∧ g'.status = g.status ∧
    (g.slot = a → ∀ w ∈ g'.warps, w.2.sp.prio = ((updateEprio s a).queue (queueKey a g.queue)).eprio) ∧ (g.slot ≠ a → g' = g) := by
  rw [updateEprio_wg, hg, Option.map_some]
  unfold followsQueue
  by_cases hs : g.slot = a
  · rw [if_pos hs]
    refine ⟨_, rfl, rfl, fun _ w hw => ?_, fun hne => absurd hs hne⟩
    obtain ⟨w₀, _, rfl⟩ := List.mem_map.1 hw
    rfl
  · rw [if_neg hs]
    exact ⟨g, rfl, rfl, fun h => absurd h hs, fun _ => rfl⟩

end

/-! ### Word 1 of a descriptor -/

/-- A queue with the fields of word 1; STATE 0 restarts one that has stopped (R375, R377). -/
def described (q : Queue) (v : BitVec 64) : Queue :=
  let restart := decide (q.state = 3) && decide (fieldOf v 22 2 = 0)
  { q with
    asid := fieldOf v 48 16
    chsh := fieldOf v 40 8
    ptsh := fieldOf v 32 8
    prio := fieldOf v 29 3
    idem := v.getLsbD 25
    en := v.getLsbD 24
    size := fieldOf v 12 4
    ring := q.ring % 2 ^ 32 + fieldOf v 0 8 * 2 ^ 32
    state := if restart then 0 else q.state
    err := if restart then 0 else q.err
    conds := if restart then [] else q.conds
    nones := if restart then (q.settled 0).nones else q.nones }

/-- A queue with EN of word 1 and both shares n. -/
def shared (q : Queue) (v : BitVec 64) (n : Nat) : Queue := { q with en := v.getLsbD 24, chsh := n, ptsh := n }

section

variable {s : State} {k : Nat} {v : BitVec 64}

theorem described_stays {q : Queue} (h : q.state = 3) (hw : fieldOf v 22 2 ≠ 0) :
    (described q v).state = 3 ∧ (described q v).err = q.err := by
  simp [described, h, hw]

theorem described_restarts {q : Queue} (h : q.state = 3) (hw : fieldOf v 22 2 = 0) :
    (described q v).state = 0 ∧ (described q v).err = 0 := by
  simp [described, h, hw]

/-- The sums of the shares do not tell a queue with the word's fields from one with its EN and that share. -/
theorem chshSum_described (s : State) (k : Nat) (q : Queue) (v : BitVec 64) :
    shareSum s k (described q v) (·.chsh) = shareSum s k (shared q v (fieldOf v 40 8)) (·.chsh) := shareSum_of_alike rfl rfl

theorem ptshSum_described (s : State) (k : Nat) (q : Queue) (v : BitVec 64) :
    shareSum s k (described q v) (·.ptsh) = shareSum s k (shared q v (fieldOf v 32 8)) (·.ptsh) := shareSum_of_alike rfl rfl

/-- A word whose SIZE is not reserved: shares that would pass 224 leave the old values, and others let the word's fields and the
effective priorities that they give take force (R375, R403). -/
theorem writeQueue_eq (hz : fieldOf v 12 4 ≤ 12) : writeQueue s k v =
    if 224 < shareSum s k (shared (s.queue k) v (fieldOf v 40 8)) (·.chsh) ∨
      224 < shareSum s k (shared (s.queue k) v (fieldOf v 32 8)) (·.ptsh) then s
    else settleQueue (updateEprio (s.setQueue k (described (s.queue k) v)) (k / 64)) k := by
  have hfree : decide (fieldOf v 12 4 > 12) = false := decide_eq_false (Nat.not_lt.2 hz)
  rw [← chshSum_described, ← ptshSum_described]
  simp only [writeQueue, hfree, Bool.false_eq_true, if_false]
  rfl

/-- What taking the word's fields leaves of the queue: its EPRIO is the update's, its STATE is settled. -/
theorem settle_described (s : State) (k : Nat) (q : Queue) : ∃ p b,
    (settleQueue (updateEprio (s.setQueue k q) (k / 64)) k).queue k = { q with eprio := p, state := b } ∧
    (2 ≤ q.state → b = q.state) ∧ (q.state < 2 → b < 2) := by
  obtain ⟨p, hp⟩ := prioritized_eq (effective (s.setQueue k q) (k / 64)) (k / 64) k q
  have hq : (updateEprio (s.setQueue k q) (k / 64)).queue k = { q with eprio := p } :=
    (updateEprio_queue (find_set_same ..)).trans hp
  refine ⟨p, settledState (updateEprio (s.setQueue k q) (k / 64)) k { q with eprio := p }, ?_, fun h => settledState_of_le h,
    fun h => settledState_lt_two h⟩
  rw [settleQueue_queue, hq]

end

/-- Settles O44: doorbells and word 0 by how many packets the ring would hold, word 1 by the sums of the shares, and an update of
priorities by the slot of each queue and workgroup. -/
theorem queueRegisters : Obligations.QueueRegisters := by
  unfold Obligations.QueueRegisters
  intro s a j c v k q tail tooMany
  refine ⟨fun hfull => ?_, fun hfits => ⟨_, rfl, ?_⟩, fun hv => ⟨fun hfull => ?_, fun hfits => ⟨_, rfl, ?_⟩⟩,
    fun hv hfits => ⟨_, rfl, ?_⟩, fun _ hz => ⟨fun hover => ?_, fun hch hpt => ?_⟩, ⟨_, rfl, ?_⟩, rfl, ?_⟩
  · exact congrArg _ (ringDoorbell_stops hfull)
  · have hq : (ringDoorbell s k tail).queue k = _ := ringDoorbell_queue hfits
    refine ⟨(congrArg Queue.tail hq :), (congrArg Queue.head hq :), (congrArg Queue.state hq :), fun n hn => ringDoorbell_queue_other hn,
      ringDoorbell_mem .., ringDoorbell_wgs ..⟩
  · exact congrArg _ (writeRing_stops (ringWritten_unbound hv) hfull)
  · obtain ⟨st, hq⟩ := writeRing_queue (ringWritten_unbound hv) hfits
    exact ⟨(congrArg Queue.tail hq :), (congrArg Queue.ring hq :), (congrArg Queue.head hq :), fun n hn => writeRing_queue_other hn,
      writeRing_mem ..⟩
  · obtain ⟨st, hq⟩ := writeRing_queue (ringWritten_bound hv) hfits
    exact ⟨(congrArg Queue.tail hq :), (congrArg Queue.ring hq :), (congrArg Queue.head hq :), writeRing_mem ..⟩
  · exact congrArg _ ((writeQueue_eq hz).trans (if_pos hover))
  · have htaken := (writeQueue_eq hz).trans (if_neg (not_or.2 ⟨Nat.not_lt.2 hch, Nat.not_lt.2 hpt⟩))
    obtain ⟨p, b, hq, hkeep, hsettle⟩ := settle_described s k (described (s.queue k) v)
    refine ⟨_, congrArg Host.Outcome.next htaken, ?_⟩
    dsimp only
    rw [hq]
    refine ⟨rfl, rfl, rfl, rfl, rfl, rfl, rfl, rfl, rfl, rfl, fun h3 hw => ?_, fun h3 hw => ?_, settleQueue_mem ..⟩
    · obtain ⟨hstate, herr⟩ := described_stays h3 hw
      exact ⟨(hkeep (hstate ▸ by decide)).trans hstate, herr⟩
    · obtain ⟨hstate, herr⟩ := described_restarts h3 hw
      exact ⟨hsettle (hstate ▸ by decide), herr⟩
  · refine ⟨rfl, fun n x hx => ?_, fun u g hg => updateEprio_resident hg⟩
    rw [updateEprio_queue hx, prioritized_eprio]
  · rintro n x hx rfl
    have hle := prio_le_effective s (n / 64) (Nat.mod_lt n (by decide))
    rwa [queueKey_slot_number, queue_of_find hx] at hle

end Sys2Proof.Proofs

/-! PROOFS of the family of exceptions, the control block, collective calls, power and boot: what entering and leaving a handler leave of
the warp; the requests of the control block; how a call posts, pulls and ends; the registers of the device; the events of clocks, power
and gating; and the stages of boot. -/

namespace Sys2Proof.Proofs

open Sys2Proof.Machine Sys2Proof.Claims Sys2Proof.Laws Sys2Proof.Laws.State

/-! ### Fault records, one per place -/

/-- A record that is made later takes the place of one of its lane (R425). -/
theorem lastRecords_append (recs : List FaultRec) (f : FaultRec) :
    lastRecords (recs ++ [f]) = (lastRecords recs).filter (fun g => g.lane != f.lane) ++ [f] := by
  simp [lastRecords, List.foldl_append]

theorem mem_lastRecords_append {recs : List FaultRec} {f h : FaultRec} :
    h ∈ lastRecords (recs ++ [f]) ↔ (h ∈ lastRecords recs ∧ h.lane ≠ f.lane) ∨ h = f := by
  simp [lastRecords_append]

theorem lastRecords_subset (recs : List FaultRec) : ∀ f ∈ lastRecords recs, f ∈ recs := by
  induction recs using List.reverseRecOn with
  | nil => exact fun f hf => hf
  | append_singleton recs g ih =>
    intro f hf
    rcases mem_lastRecords_append.1 hf with ⟨hold, -⟩ | rfl
    · exact List.mem_append_left _ (ih f hold)
    · exact List.mem_append_right _ (List.mem_singleton_self f)

theorem lastRecords_covers (recs : List FaultRec) : ∀ f ∈ recs, ∃ h ∈ lastRecords recs, h.lane = f.lane := by
  induction recs using List.reverseRecOn with
  | nil => exact fun f hf => absurd hf List.not_mem_nil
  | append_singleton recs g ih =>
    intro f hf
    by_cases hlane : f.lane = g.lane
    · exact ⟨g, mem_lastRecords_append.2 (.inr rfl), hlane.symm⟩
    · have hold : f ∈ recs := (List.mem_append.1 hf).resolve_right fun h => hlane (List.mem_singleton.1 h ▸ rfl)
      obtain ⟨h, hmem, hh⟩ := ih f hold
      exact ⟨h, mem_lastRecords_append.2 (.inl ⟨hmem, hh ▸ hlane⟩), hh⟩

theorem lastRecords_lanes_nodup (recs : List FaultRec) : ((lastRecords recs).map (·.lane)).Nodup := by
  induction recs using List.reverseRecOn with
  | nil => exact List.nodup_nil
  | append_singleton recs g ih =>
    have hrest : (((lastRecords recs).filter (fun h => h.lane != g.lane)).map (·.lane)).Nodup :=
      ih.sublist (List.filter_sublist.map _)
    rw [lastRecords_append, List.map_append]
    refine List.Nodup.append hrest (List.nodup_singleton _) ?_
    simp

theorem lastRecords_of_nodup (recs : List FaultRec) (h : (recs.map (·.lane)).Nodup) : lastRecords recs = recs := by
  induction recs using List.reverseRecOn with
  | nil => rfl
  | append_singleton recs g ih =>
    rw [List.map_append, List.nodup_append] at h
    obtain ⟨hrecs, -, hapart⟩ := h
    rw [lastRecords_append, ih hrecs, List.filter_eq_self.2]
    intro f hf
    have hne : f.lane ≠ g.lane := hapart f.lane (List.mem_map_of_mem hf) g.lane (List.mem_singleton_self _)
    simpa using hne

/-! ### Letting go of holds -/

theorem holdEnded_wgs (s : State) (d : Nat) (r : WRef) (m : Member) : (s.holdEnded d r m).wgs = s.wgs := by
  unfold State.holdEnded
  split
  · exact countEvent_wgs ..
  · rfl

theorem unhold_wgs (s : State) (d : Nat) (r : WRef) : (unhold s d r).wgs = s.wgs := by
  unfold unhold
  refine foldl_keeps (p := State.wgs) (fun s c => foldl_keeps (p := State.wgs) (fun s m => ?_) _ s) _ s
  split
  · exact holdEnded_wgs ..
  · rfl

/-! ### Entering a handler -/

/-- A warp as an exception finds it: a fault or a pre-empt drops its prefetched vectors, a trap or a cancel leaves them (R27; DEDUCED, log
entry 17). -/
def excepted (w : Warp) (code : Nat) : Warp := if vectorOf code = 1 ∨ vectorOf code = 2 then w else w.dropPrefetch

/-- The machine once the holds of the excepted warp have ended (R368). -/
def released (s : State) (r : WRef) (g : Workgroup) (w : Warp) (code : Nat) : State :=
  unhold (s.setWarp r (excepted w code)) (dieOf g.tile) r

/-- The position that an end with error names: that of the first record, or else the warp's own (R432). -/
def exceptionPc (w : Warp) (recs : List FaultRec) : Nat := ((firstRecord recs).map (·.pc)).getD w.c.pos.place

/-- What a claim assumes of a warp that takes an exception: its workgroup is there, and it stands at a word with nothing of earlier work
left in it. -/
structure TakesFrom (s : State) (r : WRef) (g : Workgroup) (w : Warp) : Prop where
  wg : s.wg r.wg = some g
  stands : w.c.pos.mode ≠ .fell
  mat : w.mat = none
  nones : w.nones = []
  farFails : w.farFails = []

section

variable {s : State} {r : WRef} {g : Workgroup} {w : Warp} {code arg : Nat} {recs : List FaultRec} {index : Option Nat}

@[simp] theorem excepted_c (w : Warp) (code : Nat) : (excepted w code).c = w.c := by unfold excepted; split <;> rfl
@[simp] theorem excepted_sp (w : Warp) (code : Nat) : (excepted w code).sp = w.sp := by unfold excepted; split <;> rfl
@[simp] theorem excepted_outs (w : Warp) (code : Nat) : (excepted w code).outs = w.outs := by unfold excepted; split <;> rfl
@[simp] theorem excepted_s (w : Warp) (code : Nat) : (excepted w code).r.s = w.r.s := by unfold excepted; split <;> rfl
@[simp] theorem excepted_sAbsent (w : Warp) (code : Nat) : (excepted w code).r.sAbsent = w.r.sAbsent := by
  unfold excepted; split <;> rfl

@[simp] theorem excepted_vector (w : Warp) (code k : Nat) : (excepted w code).vector k = w.vector k := by
  simp only [Warp.vector, excepted_sp]

@[simp] theorem excepted_active (w : Warp) (code : Nat) : (excepted w code).active = w.active := by simp [Warp.active, Warp.live]

theorem vectorOf_trap_or_cancel : vectorOf code = 1 ∨ vectorOf code = 2 ↔ code = 0x20 ∨ code = 0x30 := by
  unfold vectorOf
  split
  · simp [*]
  · split
    · simp [*]
    · split <;> simp [*]

theorem released_wg (h : s.wg r.wg = some g) : (released s r g w code).wg r.wg = some (g.setWarp r.wp (excepted w code)) := by
  rw [released, State.wg, unhold_wgs]
  exact wg_setWarp _ _ _ _ h

theorem released_warp (h : s.wg r.wg = some g) : (released s r g w code).warp r = some (excepted w code) := by
  rw [State.warp, released_wg h]
  exact warp_setWarp_same ..

/-- Nothing of earlier work is left in the warp for an exception to drop. -/
theorem TakesFrom.cleared (h : TakesFrom s r g w) : ({ w with nones := [] } : Warp) = w ∧ w.settle = w ∧
    ({ w with farFails := [], mat := w.mat.map (fun m => { m with parked := false }) } : Warp) = w := by
  obtain ⟨-, hstands, hmat, hnones, hfar⟩ := h
  refine ⟨?_, if_neg hstands, ?_⟩
  · rw [← hnones]
  · rw [hmat, Option.map_none, ← hmat, ← hfar]

/-- The warp that an exception works on. -/
theorem excepted_eq (w : Warp) (code : Nat) : (if code = 0x20 ∨ code = 0x30 then w else w.dropPrefetch) = excepted w code :=
  if_congr vectorOf_trap_or_cancel.symm rfl rfl

@[simp] theorem tile_putWarp (g : Workgroup) (k : Nat) (w : Warp) : (g.setWarp k w).tile = g.tile := rfl

/-- Global faults alone come with records (R420). -/
theorem code_of_record {f : FaultRec} (hrecs : code ≠ 0x10 → recs = []) (hf : firstRecord recs = some f) : code = 0x10 := by
  by_contra hne
  rw [hrecs hne] at hf
  exact absurd hf nofun

/-- Where an exception goes once the holds of its warp have ended: by the handler that runs, and by the vector (R421, R430, R439, R440). -/
theorem takeException_eq (h : TakesFrom s r g w) (hrecs : code ≠ 0x10 → recs = []) {t : State}
    (ht : released s r g w code = t) {x : Warp} (hx : excepted w code = x) {g1 : Workgroup} (hg1 : g.setWarp r.wp x = g1)
    {k : Nat} (hk : vectorOf code = k) : takeException s r w code arg recs index =
      if w.c.handler = some 3 then
        reportExpiry (t.setWarp r { x with c := { x.c with sigdone := true, wait := .none } }) g1 r.wp
      else if w.c.handler.isSome then endWithError t r.wg 0x51 r.wp (exceptionPc w recs) 0 0
      else if w.vector (k) ≠ 0 then enterVector t r g1 x (k) ⟨code, arg, recs, index⟩
      else if k = 3 then (detachAll t (dieOf g.tile) r).updWarp r (fun v =>
        { v with c := { v.c with sigdone := true, wait := .none } })
      else
        let e := endWithError t r.wg code r.wp (exceptionPc w recs) (((firstRecord recs).map (·.kind)).getD 0)
          (((firstRecord recs).map (·.addr)).getD 0)
        if k = 2 then e.updWg r.wg (fun g => { g with cancelled := true }) else e := by
  subst ht hx hg1 hk
  have hg1 := released_wg (w := w) (code := code) h.wg
  obtain ⟨hnones, hsettle, hlast⟩ := h.cleared
  unfold released at hg1 ⊢
  rw [takeException, hnones]
  simp only [enterException, hsettle, hlast, excepted_eq, wg_setWarp _ _ _ _ h.wg, tile_putWarp, hg1, excepted_c, excepted_vector]
  rcases hfirst : firstRecord recs with _ | f
  · simp only [exceptionPc, hfirst, Option.map_none, Option.getD_none]
    rcases w.c.handler with _ | _ | _ | _ | _ | k <;> simp
  · obtain rfl := code_of_record hrecs hfirst
    simp only [exceptionPc, hfirst, Option.map_some, Option.getD_some, if_true]
    rcases w.c.handler with _ | _ | _ | _ | _ | k <;> simp [vectorOf]

end

/-! ### The handler's frame and what entering leaves -/

section

variable {s s3 s4 : State} {r : WRef} {g : Workgroup} {w v : Warp} {k : Nat} {code arg idx : Nat} {recs : List FaultRec}

/-- The argument of a cause: the number of records of a global fault (R427). -/
def causeArg (code arg : Nat) (recs : List FaultRec) : Nat := if code = 0x10 then (lastRecords recs).length else arg

/-- The cause of an entry (R427). -/
def entryCause (code arg : Nat) (recs : List FaultRec) : Nat :=
  causeWord code (causeArg code arg recs) ((lastRecords recs).any (fun f => f.lane == 32))

/-- What an entry writes: the frame, then the records (R425, R427). -/
def entryStores (y : Warp) (k code arg idx : Nat) (recs : List FaultRec) : List (Nat × Nat × Nat) :=
  handlerFrame y k (entryCause code arg recs) (recordMask (lastRecords recs)) idx ++ (lastRecords recs).flatMap recordStores

/-- A warp with what detaching has left of its memberships (R367). -/
def withMemberships (w v : Warp) : Warp := { w with sp := { w.sp with cvm := v.sp.cvm, detach := v.sp.detach } }

theorem withMemberships_vector (w v : Warp) (k : Nat) : (withMemberships w v).vector k = w.vector k := by
  unfold Warp.vector
  split <;> rfl

/-- The machine once the memberships of a warp have ended that takes a pre-empt (R367). -/
def detachedFor (s : State) (r : WRef) (g : Workgroup) (k : Nat) : State := if k = 3 then detachAll s (dieOf g.tile) r else s

theorem sArea_present (g : Workgroup) (wp : Nat) (ha : w.r.sAbsent = false) : sArea g wp w = [] := if_neg (by simp [ha])

@[simp] theorem fetchAreas_nil (s : State) (g : Workgroup) : fetchAreas s g [] = s := rfl

/-- An entry whose area misses waits for the page (R299, R434; DEDUCED, log entry 17). -/
theorem enterVector_parks (ha : w.r.sAbsent = false) {p : Nat} {ps : List Nat} (hmiss : areaMiss s g r.wp w .store = (s4, p :: ps))
    (e : Entry) : enterVector s r g w k e = (sendPages s4 r g 0 Acc.store.code (p :: ps)).1.setWarp r
      { w with c := { w.c with entry := some e, wait := .park (sendPages s4 r g 0 Acc.store.code (p :: ps)).2 } } := by
  simp only [enterVector, sArea_present g r.wp ha, fetchAreas_nil, hmiss]
  rfl

variable (ha : w.r.sAbsent = false) (hmiss : (areaMiss s g r.wp w .store).2 = []) (hs : detachedFor s r g k = s3)
  (hv : s3.warp r = some v)
include ha hmiss hs hv

/-- An entry whose area is there writes the frame and the records and goes to the vector; one of whose writes some write fails is a handler
fault (R426, R430). -/
theorem enterVector_writes {e : HwRes}
    (hst : hwStores s3 g (faultArea g r.wp) (entryStores (withMemberships w v) k code arg idx recs) = (s4, e)) :
    (e = .ok → enterVector s r g w k ⟨code, arg, recs, some idx⟩ = s4.setWarp r (enteredWarp g r.wp (withMemberships w v) k
      (entryCause code arg recs) (recordMask (lastRecords recs)))) ∧
    (e ≠ .ok → enterVector s r g w k ⟨code, arg, recs, some idx⟩ = endWithError s4 r.wg 0x51 r.wp w.c.pos.place 0 0) := by
  subst hs
  simp only [detachedFor] at hv hst
  simp only [entryStores, withMemberships, entryCause, causeArg] at hst
  simp only [enterVector, sArea_present g r.wp ha, fetchAreas_nil, List.flatMap_nil, List.nil_append, hmiss, List.isEmpty_nil, Bool.not_true,
    Bool.false_eq_true, if_false, fillS_present _ _ _ _ ha, hv, Option.map_some, Option.getD_some, hst]
  cases e with
  | ok => exact ⟨fun _ => rfl, fun he => absurd rfl he⟩
  | miss => exact ⟨nofun, fun _ => rfl⟩
  | fault => exact ⟨nofun, fun _ => rfl⟩

end

section

variable {g : Workgroup} {w : Warp} {wp k cause : Nat} {rmask : Mask}

/-- The registers that an entry sets, and that it sets no others (R426). -/
theorem enteredWarp_sget : let z := enteredWarp g wp w k cause rmask
    z.sget 63 = BitVec.ofNat 64 (faultArea g wp) ∧ z.sget 62 = BitVec.ofNat 64 cause ∧ z.sget 61 = w.active.setWidth 64 ∧
    z.sget 60 = rmask.setWidth 64 ∧ ∀ j, j < 60 → z.sget j = w.sget j := by
  have hset (d : Nat) : (enteredWarp g wp w k cause rmask).sget d =
      ((((w.sset 63 (BitVec.ofNat 64 (faultArea g wp))).sset 62 (BitVec.ofNat 64 cause)).sset 61 (w.active.setWidth 64)).sset 60
        (rmask.setWidth 64)).sget d := rfl
  simp only [hset]
  refine ⟨?_, ?_, ?_, ?_, fun j hj => ?_⟩
  · rw [sget_sset_other _ _ _ _ (by decide), sget_sset_other _ _ _ _ (by decide), sget_sset_other _ _ _ _ (by decide), sget_sset_same]
  · rw [sget_sset_other _ _ _ _ (by decide), sget_sset_other _ _ _ _ (by decide), sget_sset_same]
  · rw [sget_sset_other _ _ _ _ (by decide), sget_sset_same]
  · rw [sget_sset_same]
  · rw [sget_sset_other _ _ _ _ (by omega), sget_sset_other _ _ _ _ (by omega), sget_sset_other _ _ _ _ (by omega),
      sget_sset_other _ _ _ _ (by omega)]

/-- The rest of the warp after an entry: no stack, no loops, the vector as its target (R426). -/
theorem enteredWarp_rest : let z := enteredWarp g wp w k cause rmask
    z.c.stack = [] ∧ z.c.depth = 0 ∧ z.c.handler = some k ∧ z.c.wait = w.c.wait.entered k ∧
    z.c.pos = Pos.atTarget (w.vector k).toNat ∧ z.r = { w.r with s := z.r.s } ∧ z.sp = w.sp ∧ z.outs = w.outs ∧ z.active = w.live :=
  ⟨rfl, rfl, rfl, rfl, rfl, rfl, rfl, rfl, rfl⟩

theorem vector_vectorOf (w : Warp) (code : Nat) : w.vector (vectorOf code) =
    if vectorOf code = 0 then w.sp.hvFault else if vectorOf code = 1 then w.sp.hvTrap else if vectorOf code = 2 then w.sp.hvCancel
      else w.sp.hvPreempt := by
  unfold vectorOf
  split
  · rfl
  · split
    · rfl
    · split <;> rfl

theorem faultArea_eq (g : Workgroup) (wp : Nat) : faultArea g wp = g.area + 2048 * wp := by rw [faultArea, Nat.mul_comm]

/-- The words of a frame before its loop counts (R427). -/
theorem handlerFrame_take (w : Warp) (k cause idx : Nat) {b : Nat} (hb : b < 2 ^ 32) :
    (handlerFrame w k cause (BitVec.ofNat 32 b) idx).take 13 = [(0x000, 8, cause), (0x008, 8, w.c.pos.hdr), (0x010, 1, idx),
      (0x011, 1, 0x80 + k), (0x012, 1, w.c.stack.length), (0x013, 1, w.c.depth), (0x014, 4, w.active.toNat), (0x018, 4, b),
      (0x01C, 4, w.c.base.toNat), (0x020, 8, (w.sget 60).toNat), (0x028, 8, (w.sget 61).toNat), (0x030, 8, (w.sget 62).toNat),
      (0x038, 8, (w.sget 63).toNat)] := by
  simpa [handlerFrame] using hb

end

theorem exceptionEntry_holds : Sys2Proof.Claims.exceptionEntry := by
  intro s r g w code arg idx recs hg _ _ hstands hmat hnones hfar _ hrecs k vec x area rs count cause rmask first pc g1 s2 s3 t
  have hvec : w.vector k = vec := vector_vectorOf w code
  have ht : t = _ := takeException_eq (arg := arg) (index := some idx) ⟨hg, hstands, hmat, hnones, hfar⟩ hrecs
    (show _ = s2 from rfl) (show _ = x from rfl) (show _ = g1 from rfl)
    (show _ = k from rfl)
  have hpresent (ha : w.r.sAbsent = false) : x.r.sAbsent = false := (excepted_sAbsent w code).trans ha
  have enters (hh : w.c.handler = none) (hv : vec ≠ 0) : t = enterVector s2 r g1 x k ⟨code, arg, recs, some idx⟩ := by
    rw [ht, if_neg (by simp [hh]), if_neg (by simp [hh]), if_pos (hvec ▸ hv)]
  refine ⟨fun hh hv ha => ⟨fun s4 p ps hmiss => ?_, fun hmiss v hv3 => ⟨fun hk => ?_, fun s4 hst => ?_, fun s4 e hst he => ?_⟩⟩,
    fun h hh h3 => ?_, fun hh => ?_, fun hh hv => ?_, lastRecords_lanes_nodup recs,
    lastRecords_subset recs, lastRecords_covers recs, lastRecords_of_nodup recs, fun f _ => rfl, fun b => ?_⟩
  · rw [enters hh hv, enterVector_parks (hpresent ha) hmiss]
  · have hs : s3 = s2 := if_neg hk
    rw [hs] at hv3
    exact Option.some.inj (hv3.symm.trans (released_warp hg))
  · have hst' : hwStores s3 g1 (faultArea g1 r.wp) (entryStores (withMemberships x v) k code arg idx recs) = (s4, .ok) := by
      rw [faultArea_eq]
      exact hst
    refine ⟨_, (enters hh hv).trans ((enterVector_writes (hpresent ha) hmiss rfl hv3 hst').1 rfl), ?_⟩
    obtain ⟨h63, h62, h61, h60, hrest⟩ := enteredWarp_sget (g := g1) (w := withMemberships x v) (wp := r.wp) (k := k)
      (cause := entryCause code arg recs) (rmask := recordMask (lastRecords recs))
    have hctl : x.c = w.c := excepted_c w code
    have hgoes : (withMemberships x v).vector k = vec :=
      (withMemberships_vector x v k).trans ((excepted_vector w code k).trans hvec)
    obtain ⟨hstack, hdepth, hin, hwait, hpos, hr, hsp, houts, hact⟩ := enteredWarp_rest (g := g1) (w := withMemberships x v) (wp := r.wp)
      (k := k) (cause := entryCause code arg recs) (rmask := recordMask (lastRecords recs))
    rw [hgoes] at hpos
    refine ⟨h63.trans (congrArg _ (faultArea_eq g1 r.wp)), h62, h61.trans (congrArg _ (excepted_active w code)), h60,
      fun j hj => (hrest j hj).trans (congrArg (Table.get · 0 j) (excepted_s w code)), hstack, hdepth, hin,
      hwait.trans (congrArg (fun c : WarpCtl => c.wait.entered k) hctl), hpos, hr, hsp,
      houts.trans (excepted_outs w code), hact.trans (congrArg (fun c : WarpCtl => c.base &&& ~~~c.exited &&& ~~~c.fmask) hctl)⟩
  · have hst' : hwStores s3 g1 (faultArea g1 r.wp) (entryStores (withMemberships x v) k code arg idx recs) = (s4, e) := by
      rw [faultArea_eq]
      exact hst
    rw [enters hh hv, (enterVector_writes (hpresent ha) hmiss rfl hv3 hst').2 he]
    exact congrArg (fun c : WarpCtl => endWithError s4 r.wg 0x51 r.wp c.pos.place 0 0) (excepted_c w code)
  · rw [ht, if_neg (by simp [hh, h3]), if_pos (by simp [hh])]
    rfl
  · rw [ht, if_pos hh]
    rfl
  · rw [if_neg (by simp [hh]), if_neg (by simp [hh]), if_neg (by simp [hvec, hv])] at ht
    refine ⟨fun h2 h3 => ?_, fun h2 => ?_, fun h3 => ?_⟩
    · rw [ht, if_neg h3]
      exact if_neg h2
    · rw [ht, if_neg (by simp [h2])]
      exact if_pos h2
    · rw [ht, if_pos h3]
      show _ = (if k = 3 then detachAll s2 (g.tile / 128) r else s2).updWarp r _
      rw [if_pos h3]
      rfl
  · by_cases hb : b < 2 ^ 32
    · exact .inl (handlerFrame_take w k cause idx hb).symm
    · exact .inr (Nat.le_of_not_lt hb)

/-! ### Leaving a handler -/

section

variable {s s1 s2 : State} {r : WRef} {g : Workgroup} {w u : Warp} {k : Nat} {ws : List Reg}

theorem stackOfFrame_length {st : List StackEntry} {n : Nat} (h : stackOfFrame ws n = some st) : st.length = n := by
  induction n generalizing st with
  | zero =>
    obtain rfl : [] = st := Option.some.inj h
    rfl
  | succ n ih =>
    unfold stackOfFrame at h
    split at h
    · next st' hst =>
      dsimp only at h
      split at h
      · cases h
      · obtain rfl := Option.some.inj h
        rw [List.length_cons, ih hst]
    · cases h

/-- The handler frame breaks a rule: its INDEX, the height of its stack, or the depth of its loops (R428). -/
def FrameOut (ws : List Reg) : Prop :=
  (7 < fieldOf (ws.getD 2 0) 0 8 ∧ fieldOf (ws.getD 2 0) 0 8 ≠ 0xFF) ∨ 32 < fieldOf (ws.getD 2 0) 16 8 ∨ 3 < fieldOf (ws.getD 2 0) 24 8

theorem restoreFrame_refuses (h : FrameOut ws) : restoreFrame w ws = none := by
  unfold restoreFrame
  dsimp only
  rw [if_pos]
  rcases h with hindex | hstack | hloops
  · exact .inl hindex
  · exact .inr (.inl hstack)
  · exact .inr (.inr (.inl hloops))

/-- The position of a frame: one whose INDEX is 0xFF traps again (R58, R428). -/
def framePos (ws : List Reg) : Pos :=
  if fieldOf (ws.getD 2 0) 0 8 = 0xFF then ⟨(ws.getD 1 0).toNat, 0, .trap, .none⟩
  else ⟨(ws.getD 1 0).toNat, fieldOf (ws.getD 2 0) 0 8, .flow, .none⟩

/-- What a frame that is restored leaves of the warp (R428). -/
theorem restoreFrame_restores (h : restoreFrame w ws = some u) :
    u.r.s = ((((w.sset 60 (ws.getD 4 0)).sset 61 (ws.getD 5 0)).sset 62 (ws.getD 6 0)).sset 63 (ws.getD 7 0)).r.s ∧
    u.c.handler = none ∧ u.c.depth = fieldOf (ws.getD 2 0) 24 8 ∧ u.c.stack.length = fieldOf (ws.getD 2 0) 16 8 ∧
    u.c.lc = [(0, fieldOf (ws.getD 8 0) 0 32), (1, fieldOf (ws.getD 8 0) 32 32), (2, fieldOf (ws.getD 9 0) 0 32)] ∧
    u.c.exited = w.c.exited ∧ u.c.fmask = w.c.fmask ∧ u.c.pos = framePos ws := by
  unfold restoreFrame at h
  dsimp only at h
  split at h
  · cases h
  · split at h
    · cases h
    · next st hst =>
      obtain rfl := Option.some.inj h
      exact ⟨rfl, rfl, rfl, stackOfFrame_length hst, rfl, rfl, rfl, rfl⟩

/-- The registers that a frame restores, and that it restores no others (R428). -/
theorem restoreFrame_sget (h : restoreFrame w ws = some u) : u.sget 60 = ws.getD 4 0 ∧ u.sget 61 = ws.getD 5 0 ∧
    u.sget 62 = ws.getD 6 0 ∧ u.sget 63 = ws.getD 7 0 ∧ ∀ j, j < 60 → u.sget j = w.sget j := by
  obtain ⟨hs, -⟩ := restoreFrame_restores h
  have hset (d : Nat) : u.sget d = ((((w.sset 60 (ws.getD 4 0)).sset 61 (ws.getD 5 0)).sset 62 (ws.getD 6 0)).sset 63
      (ws.getD 7 0)).sget d := congrArg (Table.get · 0 d) hs
  simp only [hset]
  refine ⟨?_, ?_, ?_, ?_, fun j hj => ?_⟩
  · rw [sget_sset_other _ _ _ _ (by decide), sget_sset_other _ _ _ _ (by decide), sget_sset_other _ _ _ _ (by decide), sget_sset_same]
  · rw [sget_sset_other _ _ _ _ (by decide), sget_sset_other _ _ _ _ (by decide), sget_sset_same]
  · rw [sget_sset_other _ _ _ _ (by decide), sget_sset_same]
  · rw [sget_sset_same]
  · rw [sget_sset_other _ _ _ _ (by omega), sget_sset_other _ _ _ _ (by omega), sget_sset_other _ _ _ _ (by omega),
      sget_sset_other _ _ _ _ (by omega)]

variable (hg : s.wg r.wg = some g)
include hg

/-- From a cancel handler every live lane exits, and the warp ends (R428). -/
theorem returnFromException_cancels : returnFromException s r w 2 = (leaveAll s (dieOf g.tile) r).setWarp r
    { w with sp := { w.sp with cvm := 0 }, c := { w.c with exited := w.c.exited ||| w.live, ended := true, handler := none } } := by
  simp only [returnFromException, hg, if_true]

variable (hk : k ≠ 2)
include hk

/-- A frame whose page misses parks the warp (R429, R434). -/
theorem returnFromException_parks {p : Nat} {ps : List Nat} (hmiss : areaMiss s g r.wp w .load = (s1, p :: ps)) :
    returnFromException s r w k = (sendPages s1 r g 0 Acc.load.code (p :: ps)).1.setWarp r
      { w with c := { w.c with wait := .park (sendPages s1 r g 0 Acc.load.code (p :: ps)).2 } } := by
  simp only [returnFromException, hg, hk, if_false, hmiss]
  rfl

variable (hmiss : (areaMiss s g r.wp w .load).2 = [])
include hmiss

/-- A frame that cannot be read is a handler fault (R428). -/
theorem returnFromException_unread {e : HwRes} (he : e ≠ .ok) (hl : hwLoadWords s g (faultArea g r.wp) 96 = (s2, ws, e)) :
    returnFromException s r w k = endWithError s2 r.wg 0x51 r.wp w.c.pos.place 0 0 := by
  simp only [returnFromException, hg, hk, if_false, hmiss, hl]
  cases e with
  | ok => exact absurd rfl he
  | miss => rfl
  | fault => rfl

variable (hl : hwLoadWords s g (faultArea g r.wp) 96 = (s2, ws, .ok))
include hl

/-- One that breaks its rules is a handler fault (R428). -/
theorem returnFromException_refused (hf : restoreFrame w ws = none) :
    returnFromException s r w k = endWithError s2 r.wg 0x51 r.wp w.c.pos.place 0 0 := by
  simp only [returnFromException, hg, hk, if_false, hmiss, hl, hf]
  rfl

/-- The warp resumes as its frame gives where it has active lanes (R428). -/
theorem returnFromException_resumes (hf : restoreFrame w ws = some u) (ha : u.active ≠ 0) (he : u.c.ended = false) :
    returnFromException s r w k = s2.setWarp r { u with nones := [] } := by
  have hresume : u.resumeEmpty = u := if_neg fun h => ha h.1
  simp only [returnFromException, hg, hk, if_false, hmiss, hl, hf, hresume, he]
  rfl

end

theorem exceptionReturn_holds : Sys2Proof.Claims.exceptionReturn := by
  intro s r g w k s2 ws hg t word byte
  refine ⟨fun h2 => ?_, fun s1 p ps h2 hmiss => returnFromException_parks hg h2 hmiss, fun h2 hmiss hl => ?_, fun e h2 hmiss he hl => ?_⟩
  · subst h2
    exact ⟨_, _, returnFromException_cancels hg, rfl, rfl, rfl⟩
  · rw [← faultArea_eq] at hl
    refine ⟨returnFromException_refused hg h2 hmiss hl, restoreFrame_refuses, fun u hu => ?_⟩
    obtain ⟨h60, h61, h62, h63, hrest⟩ := restoreFrame_sget hu
    obtain ⟨-, hhandler, hdepth, hstack, hlc, hexited, hfmask, hpos⟩ := restoreFrame_restores hu
    refine ⟨h60, h61, h62, h63, hrest, hhandler, hdepth, hstack, ?_, ?_, hexited, hfmask, ?_, fun hi => ?_, fun hi => ?_,
      returnFromException_resumes hg h2 hmiss hl hu⟩
    · rw [hlc]
      exact fieldOf_zero _ _
    · rw [hlc]
      exact Nat.mod_eq_of_lt (Nat.div_lt_of_lt_mul (word 8).isLt)
    · rw [hpos]
      unfold framePos
      split <;> rfl
    · rw [hpos, framePos, if_neg]
      · exact ⟨rfl, rfl⟩
      · exact hi
    · rw [hpos, framePos, if_pos]
      exact hi
  · rw [← faultArea_eq] at hl
    exact returnFromException_unread hg h2 hmiss he hl

/-- Settles O34: an exception goes by the handler that runs and by the vector, and what entering and leaving write and restore is read off
the frame. -/
theorem exceptions : Obligations.Exceptions := by
  unfold Obligations.Exceptions
  exact ⟨exceptionEntry_holds, exceptionReturn_holds⟩

/-! ### Requests of the control block -/

section

variable {s : State} {a h n u : Nat} {g : Workgroup}

/-- A request is ignored while one is in progress (R496). -/
theorem wcbRequest_busy (hb : s.dev.wcbState = 1) (op : Nat) (f : Nat → Workgroup → State) : wcbRequest s op a h n f = s := if_pos hb

theorem wcbRequest_nobody (hb : s.dev.wcbState ≠ 1) (ht : wcbTarget s a h n = none) (op : Nat) (f : Nat → Workgroup → State) :
    wcbRequest s op a h n f = wcbWrite s op a h n 2 1 := by
  rw [wcbRequest, if_neg hb, ht]

theorem wcbRequest_somebody (hb : s.dev.wcbState ≠ 1) (ht : wcbTarget s a h n = some (u, g)) (op : Nat) (f : Nat → Workgroup → State) :
    wcbRequest s op a h n f = f u g := by
  rw [wcbRequest, if_neg hb, ht]

/-- Each of the four is a request, by its OP (R496). -/
theorem wcbOps_request (s : State) {x : Nat × Instr}
    (hx : x ∈ [(1, Instr.wcbPreempt a h n), (2, .wcbPreemptGang a h n), (3, .wcbRestore a h n), (4, .wcbEnd a h n)]) :
    ∃ f, exec x.2 s = .next (wcbRequest s x.1 a h n f) := by
  simp only [List.mem_cons, List.not_mem_nil, or_false] at hx
  rcases hx with rfl | rfl | rfl | rfl <;> exact ⟨_, rfl⟩

theorem seatedNow_iff (g : Workgroup) : g.seatedNow = true ↔ g.status = .resident ∨ g.status = .placed := by
  simp [Workgroup.seatedNow]

/-- A pre-emption of one that has a place and is not being pre-empted marks it or its gang (R437, R441). -/
theorem preemptRequest_marks (hs : g.status = .resident ∨ g.status = .placed) (hp : g.preTick = none) (op : Nat) :
    preemptRequest s op a h n u g = (gangOf u g).foldl preemptGroup (wcbWrite s op a h n 1 0) :=
  if_pos ⟨(seatedNow_iff g).2 hs, hp⟩

/-- Any other ends with code 2 (R496). -/
theorem preemptRequest_refuses (hno : (g.status ≠ .resident ∧ g.status ≠ .placed) ∨ g.preTick ≠ none) (op : Nat) :
    preemptRequest s op a h n u g = wcbWrite s op a h n 2 2 := by
  refine if_neg fun hm => ?_
  obtain ⟨hseat, hp⟩ := hm
  rcases hno with ⟨hres, hplaced⟩ | htick
  · exact ((seatedNow_iff g).1 hseat).elim hres hplaced
  · exact htick hp

section

variable (hb : s.dev.wcbState ≠ 1) (ht : wcbTarget s a h n = some (u, g))
include hb ht

theorem wcbPreempt_eq : exec (.wcbPreempt a h n) s = .next (preemptRequest s 1 a h n u g) :=
  congrArg _ (wcbRequest_somebody hb ht ..)

theorem wcbPreemptGang_eq : exec (.wcbPreemptGang a h n) s =
    .next (if g.gangLaunch then preemptRequest s 2 a h n u g else wcbWrite s 2 a h n 2 2) :=
  congrArg _ (wcbRequest_somebody hb ht ..)

/-- A restore waits for its dispatcher where every member that lives is saved (R441, R496). -/
theorem wcbRestore_waits (hs : g.status = .saved) (hl : g.gangLaunch = false) (hg : s.wg u = some g) :
    exec (.wcbRestore a h n) s = .next (wcbWrite s 3 a h n 1 0) := by
  refine congrArg _ ((wcbRequest_somebody hb ht ..).trans (if_pos ⟨hs, ?_⟩))
  simp [gangOf, hl, hg, hs]

theorem wcbRestore_refuses (hs : g.status ≠ .saved) : exec (.wcbRestore a h n) s = .next (wcbWrite s 3 a h n 2 2) :=
  congrArg _ ((wcbRequest_somebody hb ht ..).trans (if_neg fun hsaved => hs hsaved.1))

theorem wcbEnd_refuses (hs : g.status ≠ .saved) : exec (.wcbEnd a h n) s = .next (wcbWrite s 4 a h n 2 2) :=
  congrArg _ ((wcbRequest_somebody hb ht ..).trans (if_neg hs))

theorem wcbEnd_ends (hs : g.status = .saved) : exec (.wcbEnd a h n) s =
    .next (endSaved (wcbWrite s 4 a h n 1 0) (4, a % 8, h % 2 ^ 48, n % 2 ^ 64) u g) :=
  congrArg _ ((wcbRequest_somebody hb ht ..).trans (if_pos hs))

end

/-- What the exit record of a saved workgroup says that is ended (R432, R443). -/
def savedExit (g : Workgroup) : ExitInfo := ⟨g.wgix, 0x30, g.nwarps, true, true, 0, 0, 0, 0, g.warps.map (fun w => w.2.c.fmask.toNat)⟩

/-- The end of a saved workgroup waits for a page of its exit record (DEDUCED, log entry 33). -/
theorem endSaved_waits {r : Nat × Nat × Nat × Nat} {p c : Nat} (hx : exitRecord s g (savedExit g) = .miss p c) :
    endSaved s r u g = queueMiss (wcbAnswer s r 1 0) (queueKey g.slot g.queue) p c g.handle (u + 1) := by
  rw [savedExit] at hx
  simp only [endSaved, hx, IoRes.andThen]

/-- With its record written and its count made, it ends and is removed (R443). -/
theorem endSaved_removes {r : Nat × Nat × Nat × Nat} {s1 s2 : State} (hx : exitRecord s g (savedExit g) = .ok s1)
    (hc : countGroup s1 g true = .ok s2) : endSaved s r u g =
      endGroup (wcbAnswer (afterIo s2 (queueKey g.slot g.queue) g.handle (u + 1) (.ok s2)) r 2 0) u g false := by
  rw [savedExit] at hx
  simp only [endSaved, hx, IoRes.andThen, hc]

/-- A workgroup that is pre-empted: it is discarded where its queue is idempotent, and else its warps take the trap (R437, R442). -/
def preempted (s : State) (g : Workgroup) : Workgroup :=
  let x := { g with preTick := some (s.die (dieOf g.tile)).tick }
  if (s.queue (queueKey g.slot g.queue)).idem then { x with discard := true }
  else { x with warps := x.warps.map (fun w => (w.1, { w.2 with c := { w.2.c with preReq := !w.2.c.ended } })) }

theorem preemptGroup_wg (hg : s.wg u = some g) (hs : g.status = .resident ∨ g.status = .placed) :
    (preemptGroup s u).wg u = some (preempted s g) := by
  have hput : preemptGroup s u = s.setWg u (preempted s g) := by
    simp only [preemptGroup, State.updWg, hg, (seatedNow_iff g).2 hs]
    rfl
  rw [hput, wg_setWg_same]

end

/-- Settles O47: a request by whether one is in progress and whom it names, and what each of the four does by where that stands. -/
theorem controlBlock : Obligations.ControlBlock := by
  unfold Obligations.ControlBlock
  intro s a h n ops
  refine ⟨fun x hx hb => ?_, fun x hx hb ht => ?_, fun u g hb ht => ⟨fun hs hp => ?_, fun hno => ?_, fun hs hp hl => ?_, fun hl => ?_,
    fun hs => ⟨wcbRestore_refuses hb ht hs, wcbEnd_refuses hb ht hs⟩, wcbRestore_waits hb ht, fun hs => ⟨fun p c hx => ?_,
    fun s1 s2 hx hc => ?_⟩⟩, fun r st code => ⟨rfl, rfl, rfl⟩, fun op st code => rfl, fun u g hg hs =>
    ⟨_, preemptGroup_wg hg hs, ?_, fun hi => ?_, fun hi => ?_⟩⟩
  · obtain ⟨f, hf⟩ := wcbOps_request s hx
    rw [hf, wcbRequest_busy hb]
  · obtain ⟨f, hf⟩ := wcbOps_request s hx
    rw [hf, wcbRequest_nobody hb ht]
  · rw [wcbPreempt_eq hb ht, preemptRequest_marks hs hp]
  · rw [wcbPreempt_eq hb ht, preemptRequest_refuses hno]
  · rw [wcbPreemptGang_eq hb ht, if_pos hl, preemptRequest_marks hs hp, gangOf, if_pos hl]
  · rw [wcbPreemptGang_eq hb ht, hl]
    rfl
  · rw [wcbEnd_ends hb ht hs, endSaved_waits hx]
  · rw [wcbEnd_ends hb ht hs, endSaved_removes hx hc]
  · unfold preempted
    dsimp only
    split <;> rfl
  · rw [preempted, if_pos hi]
  · rw [preempted, if_neg (by simp [hi])]
    exact ⟨rfl, rfl⟩

/-! ### Collective calls -/

section

variable {s : State} {id : Nat} {g : Workgroup} {c : Copy} {k j : Call}

/-- Work on behalf of a warp that does nothing leaves the machine (R402). -/
theorem onBehalf_idle {r : WRef} {f : State → State} (h : f { s with cur := some r } = { s with cur := some r }) : s.onBehalf r f = s := by
  rw [State.onBehalf, h]

theorem onBehalf_eq {r : WRef} {f : State → State} {t : State} (h : f { s with cur := some r } = t) :
    s.onBehalf r f = { t with cur := s.cur } := by
  rw [State.onBehalf, h]

theorem memberRes_ok {α : Type} {x : CopyRes α} {t : State} {v : α} {f : State → α → State} (h : x = .ok t v) :
    memberRes g c k x f = f t v := by
  rw [h, memberRes]

theorem peerOf_eq_some {cs : List Call} {rank : Nat} (h : peerOf cs k rank = some j) :
    j ∈ cs ∧ j.posted = true ∧ j.rank = rank ∧ k.meets j = true := by
  have htest := List.find?_some h
  simp only [Bool.and_eq_true, beq_iff_eq] at htest
  obtain ⟨⟨hmeets, hrank⟩, hposted⟩ := htest
  exact ⟨List.mem_of_find?_eq_some h, hposted, hrank, hmeets⟩

/-- No call stands under a rank whose calls have not posted (R459). -/
theorem peerOf_eq_none {cs : List Call} {rank : Nat} (h : ∀ j ∈ cs, k.meets j = true → j.rank = rank → j.posted = false) :
    peerOf cs k rank = none := by
  refine List.find?_eq_none.2 fun j hj htest => ?_
  simp only [Bool.and_eq_true, beq_iff_eq] at htest
  obtain ⟨⟨hmeets, hrank⟩, hposted⟩ := htest
  exact Bool.false_ne_true ((h j hj hmeets hrank).symm.trans hposted)

/-- A test of every member of this device that has posted, which fails where one has not. -/
theorem all_peers_iff (s : State) (k : Call) (p : Call → Bool) :
    ((k.group.filter (k.rankLocal s.dev.devid)).all (fun r => match peerOf s.dev.calls k r with
      | some j => p j
      | none => false)) = true ↔
    ∀ rank ∈ k.group, k.rankLocal s.dev.devid rank = true → ∃ j, peerOf s.dev.calls k rank = some j ∧ p j = true := by
  rw [List.all_eq_true]
  simp only [List.mem_filter, and_imp]
  refine forall₃_congr fun rank _ _ => ?_
  cases peerOf s.dev.calls k rank <;> simp

theorem groupFormed_iff (s : State) (k : Call) : groupFormed s k = true ↔
    ∀ rank ∈ k.group, k.rankLocal s.dev.devid rank = true → ∃ j, peerOf s.dev.calls k rank = some j ∧ j.formed = true :=
  all_peers_iff s k Call.formed

theorem groupFlagged_iff (s : State) (k : Call) : groupFlagged s k = true ↔
    ∀ rank ∈ k.group, k.rankLocal s.dev.devid rank = true → ∃ j, peerOf s.dev.calls k rank = some j ∧ j.result ≠ none := by
  simp only [← Option.isSome_iff_ne_none]
  exact all_peers_iff s k (fun j => j.result.isSome)

theorem paramsDiffer_iff (s : State) (k : Call) : paramsDiffer s k = true ↔ ∃ r ∈ k.group, k.rankLocal s.dev.devid r = true ∧
    ∃ j, peerOf s.dev.calls k r = some j ∧ j.params ≠ k.params := by
  rw [paramsDiffer, List.any_eq_true]
  simp only [List.mem_filter, and_assoc]
  refine exists_congr fun r => and_congr_right fun _ => and_congr_right fun _ => ?_
  cases peerOf s.dev.calls k r <;> simp

/-- What is formed without a pull leaves the call posted as it was (R460, R463). -/
theorem localSteps_posted (k : Call) (n : Nat) : (localSteps k n).posted = k.posted := by
  induction n generalizing k with
  | zero => rfl
  | succ n ih =>
    unfold localSteps
    extract_lets i own k1 m k2
    have h1 : k1.posted = k.posted := by
      unfold k1
      split
      · split
        · split <;> rfl
        · rfl
      · rfl
    have h2 : k2.posted = k1.posted := by
      unfold k2
      split
      · split
        · split <;> rfl
        · split <;> rfl
        · rfl
      · rfl
    exact (ih k2).trans (h2.trans h1)

/-! Posting (R459). -/

/-- The places of the rendezvous table that a call finds taken, those of the calls that stand before it among them (R406, R459). -/
def placesUsed (s : State) (k : Call) : Nat :=
  (s.dev.calls.filter (fun j => (j.posted && !j.ended && decide (j.size > 1)) || postsBefore s k j)).length

/-- Whether a call is a member of another's group that has failed (R459). -/
def failedPeer (k j : Call) : Bool := j.failed && k.meets j && k.group.contains j.rank

theorem posted_le_placesUsed (s : State) (k : Call) :
    (s.dev.calls.filter (fun j => j.posted && !j.ended && decide (j.size > 1))).length ≤ placesUsed s k :=
  (List.monotone_filter_right _ fun _ h => by rw [h, Bool.true_or]).length_le

/-- The blocks of a contribution under q4, each with its new residuals (R466). -/
def contributedBlocks (k : Call) (xs rs : List Nat) : List (List Nat × List Nat) :=
  ((cutSegs k.segs xs).zip (cutSegs k.segs rs)).map (fun p => q4Block p.1 p.2)

/-- The call with its contribution, as it posts (R459, R466). -/
def contributed (k : Call) (xs rs : List Nat) : Call :=
  { k with posted := true, x := if shapeQ4 k.shape then (contributedBlocks k xs rs).map (·.1) else cutSegs k.segs xs }

/-- The call once it has formed what needs no pull: position 0 has its own contribution as its P (R460, R461). -/
def postedCall (k : Call) (xs rs : List Nat) : Call :=
  let k1 := contributed k xs rs
  localSteps (if k1.hasP && decide (k1.pos = 0) then { k1 with p := k1.x } else k1) k.segs

theorem postedCall_eq (k : Call) (xs rs : List Nat) : postedCall k xs rs =
    localSteps (if (contributed k xs rs).hasP = true ∧ (contributed k xs rs).pos = 0 then
      { contributed k xs rs with p := (contributed k xs rs).x } else contributed k xs rs) k.segs :=
  congrArg (localSteps · k.segs) (if_congr (by simp) rfl rfl)

theorem postedCall_posted (k : Call) (xs rs : List Nat) : (postedCall k xs rs).posted = true := by
  rw [postedCall, localSteps_posted]
  split <;> rfl

/-- What posting writes: residuals, what the call publishes, and the headers of its buffers (R462, R466, R521). -/
def postWrites (k : Call) (xs rs : List Nat) : EngWrites :=
  (if shapeQ4 k.shape then [(shapeResid k.shape, 4 * shapeSize k.shape, packEls 32 ((contributedBlocks k xs rs).flatMap (·.2)))] else []) ++
    publishWrites k.shape k (postedCall k xs rs) false ++ publishWrites k.shape k (postedCall k xs rs) true ++
    headerWrites (postedCall k xs rs) false ++ headerWrites (postedCall k xs rs) true

/-- The machine once an engine's writes are made, with the lines that they dirtied and the call as it is then. -/
def engineWrote (s : State) (c : Copy) (lines : List Nat) (k : Call) : State := (s.setCopy (lines.foldl Copy.addLine c)).setCall k

/-- Whether a call has its place of the rendezvous table; one of a group of one needs none (R459). -/
theorem placeFree (hroom : k.size = 1 ∨ placesUsed s k < 256) : (decide (k.size > 1) && decide (placesUsed s k ≥ 256)) = false := by
  rcases hroom with h1 | hfew
  · simp [h1]
  · simp [hfew]

section

variable (ha : activeCall s id = some (g, c, k))
include ha

theorem rendezvousPost_posted (hp : k.posted = true) : exec (.rendezvousPost id) s = .next s := by
  show execRendezvousPost id s = _
  simp only [execRendezvousPost, ha]
  exact congrArg _ (onBehalf_idle (if_pos (by simp [hp])))

/-- With every place taken a call waits (R459). -/
theorem rendezvousPost_waits (hsize : k.size > 1) (hfull : 256 ≤ placesUsed { s with cur := some c.w } k) :
    exec (.rendezvousPost id) s = .next s := by
  show execRendezvousPost id s = _
  simp only [execRendezvousPost, ha]
  refine congrArg _ (onBehalf_idle (if_pos ?_))
  rw [placesUsed] at hfull
  simp [hsize, hfull]

variable (hp : k.posted = false) (hroom : k.size = 1 ∨ placesUsed { s with cur := some c.w } k < 256)
include hp hroom

/-- A call that has its place looks whether its group has failed before it reads anything (R459). -/
theorem rendezvousPost_eq : exec (.rendezvousPost id) s = .next (s.onBehalf c.w (fun t =>
    match t.dev.calls.find? (failedPeer k) with
    | some j => failMember t k 0x06 j.failWord
    | none => memberRes g c k (engineReads t g c (callElem k.shape) (contribAddr k.shape) 0 (shapeSize k.shape)) (fun t xs =>
        memberRes g c k (engineReads t g c 4 (fun e => shapeResid k.shape + 4 * e) 0 (if shapeQ4 k.shape then shapeSize k.shape else 0))
          (fun t rs => memberRes g c k (engineWrites t g c (postWrites k xs rs)) (fun t lines =>
            ensureRemotes (engineWrote t c lines (postedCall k xs rs)) (postedCall k xs rs)))))) := by
  have hgo := placeFree hroom
  show execRendezvousPost id s = _
  simp only [execRendezvousPost, ha]
  refine congrArg _ (onBehalf_eq ((if_neg ?_).trans ?_))
  · rw [hp, Bool.false_or]
    exact (Bool.eq_false_iff.1 hgo :)
  · rfl

/-- A call whose group has failed ends in its turn (R459). -/
theorem rendezvousPost_ends (hf : s.dev.calls.find? (failedPeer k) = some j) : exec (.rendezvousPost id) s =
    .next { failMember { s with cur := some c.w } k 0x06 j.failWord with cur := s.cur } := by
  rw [rendezvousPost_eq ha hp hroom]
  refine congrArg _ (onBehalf_eq ?_)
  dsimp only
  rw [hf]

/-- A call posts once its reads and its writes have succeeded (R459, R465, R466). -/
theorem rendezvousPost_posts (hno : ∀ j ∈ s.dev.calls, failedPeer k j = false) {s1 s2 s3 : State} {xs rs lines : List Nat}
    (hx : engineReads { s with cur := some c.w } g c (callElem k.shape) (contribAddr k.shape) 0 (shapeSize k.shape) = .ok s1 xs)
    (hr : engineReads s1 g c 4 (fun e => shapeResid k.shape + 4 * e) 0 (if shapeQ4 k.shape then shapeSize k.shape else 0) = .ok s2 rs)
    (hw : engineWrites s2 g c (postWrites k xs rs) = .ok s3 lines) : exec (.rendezvousPost id) s =
    .next { ensureRemotes (engineWrote s3 c lines (postedCall k xs rs)) (postedCall k xs rs) with cur := s.cur } := by
  have hf : s.dev.calls.find? (failedPeer k) = none := List.find?_eq_none.2 fun j hj => by simp [hno j hj]
  rw [rendezvousPost_eq ha hp hroom]
  refine congrArg _ (onBehalf_eq ?_)
  dsimp only
  rw [hf]
  exact (memberRes_ok hx).trans ((memberRes_ok hr).trans (memberRes_ok hw))

end

end

/-! Pulls and the flag union (R461, R464, R467, R468). -/

section

variable {s : State} {id seg rank word : Nat} {up : Bool} {g : Workgroup} {c : Copy} {k j : Call} {st : Stage}

/-- A call that has not posted forms nothing (R461). -/
theorem nextStage_unposted (hp : k.posted = false) (up : Bool) (seg : Nat) : nextStage k up seg = none := if_pos (by simp [hp])

theorem sourceCall_unposted (hr : k.group[stageSource k st]? = some rank) (hlocal : k.rankLocal s.dev.devid rank = true)
    (hno : ∀ j ∈ s.dev.calls, k.meets j = true → j.rank = rank → j.posted = false) (seg : Nat) : sourceCall s k st seg = none := by
  rw [sourceCall, hr, Option.bind_some, if_pos hlocal, peerOf_eq_none hno]

section

variable (ha : activeCall s id = some (g, c, k))
include ha

theorem pullRequest_unposted (hp : k.posted = false) : exec (.pullRequest id up seg) s = .next s := by
  show execPullRequest id up seg s = _
  simp only [execPullRequest, ha, nextStage_unposted hp]

variable (hst : nextStage k up seg = some st)
include hst

theorem pullRequest_cutOff (hcut : pullCutOff s c k (pullRank k st) = true) :
    exec (.pullRequest id up seg) s = .next (failPair s k (pullRank k st)) := by
  show execPullRequest id up seg s = _
  simp only [execPullRequest, ha, hst, hcut, if_true]

/-- The segment of a pull arrives, is combined, and what it forms is published (R461-R463, R521). -/
theorem pullData_forms {v : List Nat} {fl : BitVec 8} {s2 : State} {lines : List Nat} (hasked : k.asked.contains (up, seg) = true)
    (hsrc : sourceCall s k st seg = some j) (hv : stageValue k j st seg = some (v, fl)) {k2 : Call}
    (hk2 : localSteps (addStage { k with asked := k.asked.filter (fun a => a != (up, seg)) } st v fl) k.segs = k2)
    (hw : engineWrites { s with cur := some c.w } g c (publishWrites k.shape k k2 false ++ publishWrites k.shape k k2 true) =
      .ok s2 lines) : exec (.pullData id up seg) s = .next { engineWrote s2 c lines k2 with cur := s.cur } := by
  subst hk2
  show execPullData id up seg s = _
  simp only [execPullData, ha, hst, hasked, if_true, hsrc, hv]
  exact congrArg _ (onBehalf_eq (memberRes_ok hw))

variable (hroute : pullCutOff s c k (pullRank k st) = false)
include hroute

/-- A member of another device that ends its call ends the group (DESIGN CHOICE, log entry 28). -/
theorem pullRequest_farEnds (hfate : remoteFate s k (pullRank k st) = some word) :
    exec (.pullRequest id up seg) s = .next (failGroup s k 0x06 word) := by
  show execPullRequest id up seg s = _
  simp only [execPullRequest, ha, hst, hroute, Bool.false_eq_true, if_false, hfate]

variable (hfate : remoteFate s k (pullRank k st) = none)
include hfate

theorem pullRequest_noSource (hsrc : sourceCall s k st seg = none) : exec (.pullRequest id up seg) s = .next s := by
  show execPullRequest id up seg s = _
  simp only [execPullRequest, ha, hst, hroute, Bool.false_eq_true, if_false, hfate, hsrc]

/-- A pull from a call that has posted, by whether the two agree and whether the segment is there (R459, R461). -/
theorem pullRequest_source (hsrc : sourceCall s k st seg = some j) : exec (.pullRequest id up seg) s = .next (
    if j.params ≠ k.params then failGroup s k 0x06 (statusWord false true 0)
    else if (stageValue k j st seg).isSome = true ∧ k.asked.contains (up, seg) = false then
      s.setCall { k with asked := (up, seg) :: k.asked }
    else s) := by
  show execPullRequest id up seg s = _
  simp only [execPullRequest, ha, hst, hroute, Bool.false_eq_true, if_false, hfate, hsrc]
  exact congrArg _ (if_congr bne_iff_ne rfl (if_congr (by simp) rfl rfl))

end

section

variable (ha : activeCall s id = some (g, c, k))
include ha

theorem flagUnion_unformed (hf : k.formed = false) : exec (.flagUnion id) s = .next s := by
  show execFlagUnion id s = _
  simp only [execFlagUnion, ha, hf, Bool.false_and, Bool.false_eq_true, if_false]

variable (hf : k.formed = true)
include hf

theorem flagUnion_disagrees (hd : paramsDiffer s k = true) :
    exec (.flagUnion id) s = .next (failGroup s k 0x06 (statusWord false true 0)) := by
  show execFlagUnion id s = _
  simp only [execFlagUnion, ha, hf, hd, Bool.and_self, if_true]

variable (hd : paramsDiffer s k = false)
include hd

theorem flagUnion_waits (hg : groupFormed s k = false) : exec (.flagUnion id) s = .next s := by
  show execFlagUnion id s = _
  simp only [execFlagUnion, ha, hf, hd, hg, Bool.and_false, Bool.false_eq_true, if_false]

variable (hg : groupFormed s k = true)
include hg

theorem flagUnion_cutOff (hcut : groupCut s k = true) : exec (.flagUnion id) s = .next (failCut s k) := by
  show execFlagUnion id s = _
  simp only [execFlagUnion, ha, hf, hd, hg, hcut, Bool.and_false, Bool.and_self, Bool.false_eq_true, if_false, if_true]

variable (hcut : groupCut s k = false)
include hcut

theorem flagUnion_farEnds (hfate : k.group.findSome? (remoteFate s k) = some word) :
    exec (.flagUnion id) s = .next (failGroup s k 0x06 word) := by
  show execFlagUnion id s = _
  simp only [execFlagUnion, ha, hf, hd, hg, hcut, Bool.and_false, Bool.and_self, Bool.false_eq_true, if_false, if_true, hfate]

/-- The union is written, and the results may be (R464). -/
theorem flagUnion_writes (hfate : k.group.findSome? (remoteFate s k) = none) {s2 : State} {lines : List Nat}
    (hw : engineWrites { s with cur := some c.w } g c (if shapeSweep k.shape false = 0 then []
      else [(shapeSweep k.shape false + 8, 8, statusWord false false (flagUnionOf s k))]) = .ok s2 lines) :
    exec (.flagUnion id) s = .next { engineWrote s2 c lines { k with result := some (resultBytes k) } with cur := s.cur } := by
  show execFlagUnion id s = _
  simp only [execFlagUnion, ha, hf, hd, hg, hcut, Bool.and_false, Bool.and_self, Bool.false_eq_true, if_false, if_true, hfate]
  exact congrArg _ (onBehalf_eq (memberRes_ok hw))

end

end

/-- Settles O39: posting by the places and the group, a pull by its route and its source, the union by what the group has formed. -/
theorem collectiveCalls : Obligations.CollectiveCalls := by
  unfold Obligations.CollectiveCalls
  intro s id g c k ha own written
  refine ⟨rendezvousPost_posted ha, fun hp hsize hfull => rendezvousPost_waits ha hsize (Nat.le_trans hfull (posted_le_placesUsed _ k)),
    ⟨fun j hp hroom hf => rendezvousPost_ends ha hp hroom hf, fun hp hroom hno s1 xs s2 rs s3 lines hx hr => ?_⟩,
    fun up seg hp => pullRequest_unposted ha hp, fun up seg st rank hst hrank hlocal hroute hfate hno => ?_,
    fun rank j => peerOf_eq_some, groupFormed_iff s k, groupFlagged_iff s k, fun up seg st hst => ⟨pullRequest_cutOff ha hst,
    fun word hroute hfate => pullRequest_farEnds ha hst hroute hfate, fun j hroute hfate hsrc => ⟨fun hne => ?_, fun heq hval hasked => ?_,
    fun heq hval => ?_⟩, fun j v fl s2 lines hasked hsrc hv => pullData_forms ha hst hasked hsrc hv rfl⟩,
    flagUnion_unformed ha, flagUnion_disagrees ha, flagUnion_waits ha, flagUnion_cutOff ha, paramsDiffer_iff s k,
    fun hf hd hg hcut => ⟨fun word => flagUnion_farEnds ha hf hd hg hcut, fun hfate s2 lines hw => flagUnion_writes ha hf hd hg hcut hfate hw⟩,
    fun s1 e ws hw => ?_⟩
  · intro blocks k1 k2 k3 hw
    have hk3 : k3 = postedCall k xs rs := (postedCall_eq k xs rs).symm
    clear_value k3
    subst hk3
    exact ⟨rendezvousPost_posts ha hp hroom hno hx hr hw, postedCall_posted k xs rs⟩
  · exact pullRequest_noSource ha hst hroute hfate (sourceCall_unposted hrank hlocal hno seg)
  · rw [pullRequest_source ha hst hroute hfate hsrc, if_pos hne]
  · rw [pullRequest_source ha hst hroute hfate hsrc, if_neg (by simp [heq]), if_pos ⟨hval, hasked⟩]
  · rw [pullRequest_source ha hst hroute hfate hsrc, if_neg (by simp [heq]), if_neg (by simp [hval])]
  · rw [hw, memberRes]

/-! ### Registers of the device -/

section

variable {s : State} {a c d e n p off : Nat} {v : BitVec 64}

/-- A write in the block of a die (R492). -/
theorem monitorWrite_die (hd : d < 4) (ho : off < 0x01000000) (h8 : off % 8 = 0) :
    exec (.monitorRegisterWrite (0x01000000 * d + off) v) s = .next (dieWrite s d off v) := by
  have hdie : (0x01000000 * d + off) / 0x01000000 = d := by omega
  have hoff : (0x01000000 * d + off) % 0x01000000 = off := by omega
  refine congrArg _ ((if_neg (by omega)).trans ((if_pos (by omega)).trans ?_))
  rw [hdie, hoff]

/-- A write in the I/O die's regions (R492). -/
theorem monitorWrite_io (h8 : off % 8 = 0) : exec (.monitorRegisterWrite (0x04000000 + off) v) s = .next (ioWrite s off v) := by
  refine congrArg _ ((if_neg (by omega)).trans ((if_neg (by omega)).trans ?_))
  rw [Nat.add_sub_cancel_left]

theorem monitorRead_die (hd : d < 4) (ho : off < 0x01000000) (h8 : off % 8 = 0) :
    monitorRead s (0x01000000 * d + off) = dieRead s d off := by
  have hdie : (0x01000000 * d + off) / 0x01000000 = d := by omega
  have hoff : (0x01000000 * d + off) % 0x01000000 = off := by omega
  rw [monitorRead, if_neg (by omega), if_pos (by omega), hdie, hoff]

theorem monitorRead_io (h8 : off % 8 = 0) : monitorRead s (0x04000000 + off) = (s, ioRead s off) := by
  rw [monitorRead, if_neg (by omega), if_neg (by omega), Nat.add_sub_cancel_left]

/-- Clamping to a range from below first or from above first gives the same. -/
theorem clamp_comm {lo hi : Nat} (h : lo ≤ hi) (x : Nat) : min hi (max lo x) = max lo (min hi x) := by omega

/-! The regions of a write (R492). -/

theorem write_pairpwr (hd : d < 4) (hp : p < 8) : exec (.monitorRegisterWrite (0x01000000 * d + 0x20000 + 0x100 * p) v) s =
    exec (.pairpwrWrite (8 * d + p) v) s := by
  rw [Nat.add_assoc, monitorWrite_die hd (by omega) (by omega), dieWrite, if_neg (by omega), if_pos (by omega), if_pos (by omega),
    Nat.add_sub_cancel_left, Nat.mul_div_cancel_left _ (by decide)]
  rfl

theorem write_diepwr (hd : d < 4) : exec (.monitorRegisterWrite (0x01000000 * d + 0x30000) v) s = exec (.diepwrWrite d v) s := by
  rw [monitorWrite_die hd (by decide) rfl]
  rfl

theorem write_rotctl (hd : d < 4) (hc : c < 16) : exec (.monitorRegisterWrite (0x01000000 * d + 0x1000 * c + 8) v) s =
    exec (.rotctlWrite (16 * d + c) v) s := by
  have hblock : (0x1000 * c + 8) / 0x1000 = c := by omega
  have hoff : (0x1000 * c + 8) % 0x1000 = 8 := by omega
  rw [Nat.add_assoc, monitorWrite_die hd (by omega) (by omega), dieWrite, if_pos (by omega), hblock, hoff]
  rfl

theorem write_doorbell (ha : a < 8) (hn : n < 64) : exec (.monitorRegisterWrite (0x04008000 + 512 * a + 8 * n) v) s =
    exec (.doorbell a n v) s := by
  have haddr : 0x04008000 + 512 * a + 8 * n = 0x04000000 + (0x8000 + (512 * a + 8 * n)) := by omega
  have hslot : (512 * a + 8 * n) / 512 = a := by omega
  have hqueue : (0x8000 + (512 * a + 8 * n)) % 512 / 8 = n := by omega
  rw [haddr, monitorWrite_io (by omega), ioWrite, if_neg (by omega), if_pos (by omega), Nat.add_sub_cancel_left, hslot, hqueue]
  rfl

theorem write_contextSlot (ha : a < 8) (ho : off < 256) (h8 : off % 8 = 0) :
    exec (.monitorRegisterWrite (0x04050000 + 256 * a + off) v) s = exec (.contextSlotWrite a off v) s := by
  have haddr : 0x04050000 + 256 * a + off = 0x04000000 + (0x50000 + (256 * a + off)) := by omega
  have hslot : (256 * a + off) / 256 = a := by omega
  have hoff : (0x50000 + (256 * a + off)) % 256 = off := by omega
  rw [haddr, monitorWrite_io (by omega), ioWrite, if_neg (by omega), if_neg (by omega), if_neg (by omega), if_neg (by omega),
    if_neg (by omega), if_pos (by omega), Nat.add_sub_cancel_left, hslot, hoff]
  rfl

theorem read_diepwr (hd : d < 4) : monitorRead s (0x01000000 * d + 0x30000) = (s, diepwrWord (s.die d)) := by
  rw [monitorRead_die hd (by decide) rfl]
  rfl

theorem read_doorbell (ha : a < 8) (hn : n < 64) : monitorRead s (0x04008000 + 512 * a + 8 * n) =
    (s, BitVec.ofNat 64 (s.queue (queueKey a n)).tail) := by
  have haddr : 0x04008000 + 512 * a + 8 * n = 0x04000000 + (0x8000 + (512 * a + 8 * n)) := by omega
  have hkey : (512 * a + 8 * n) / 8 = queueKey a n := by rw [queueKey]; omega
  rw [haddr, monitorRead_io (by omega), ioRead, if_neg (by omega), if_pos (by omega), Nat.add_sub_cancel_left, hkey]

/-! Inbound windows (R451). -/

/-- The bits of a word of a window that are not reserved. -/
theorem windowMask_bits (hn : n < 3) (i : Nat) : (BitVec.ofNat 64 (windowMask n)).getLsbD i =
    if n = 0 then decide (i < 10 ∨ (59 ≤ i ∧ i < 64)) else decide (12 ≤ i ∧ i < 38) := by
  by_cases hi : i < 64
  · have first : ∀ j : Fin 64, (BitVec.ofNat 64 (windowMask 0)).getLsbD j = decide (j.1 < 10 ∨ (59 ≤ j.1 ∧ j.1 < 64)) := by decide
    have others : ∀ j : Fin 64, (BitVec.ofNat 64 (windowMask 1)).getLsbD j = decide (12 ≤ j.1 ∧ j.1 < 38) := by decide
    rcases n with _ | _ | _ | n
    · exact first ⟨i, hi⟩
    · exact others ⟨i, hi⟩
    · exact others ⟨i, hi⟩
    · omega
  · rw [BitVec.getLsbD_of_ge _ _ (by omega)]
    split <;> simp <;> omega

/-- The device with a word of a window written. -/
def windowWritten (s : State) (e n : Nat) (v : BitVec 64) : State :=
  { s with dev := { s.dev with windows := Table.set s.dev.windows (8 * e + n) (v &&& BitVec.ofNat 64 (windowMask n)) } }

theorem windowWritten_same (s : State) (e n : Nat) (v : BitVec 64) :
    (windowWritten s e n v).dev.window e n = v &&& BitVec.ofNat 64 (windowMask n) := get_set_same ..

theorem windowWritten_other {f j : Nat} (hn : n < 3) (hj : j < 8) (h : (f, j) ≠ (e, n)) :
    (windowWritten s e n v).dev.window f j = s.dev.window f j := by
  refine get_set_other _ _ _ _ _ fun hkey => h ?_
  obtain ⟨rfl, rfl⟩ : f = e ∧ j = n := by omega
  rfl

/-! Context slots (R494). -/

theorem areasHeld_seated (s : State) (q : Slot) (asid : Nat) (f : Workgroup → Nat) {t : State}
    (ht : t.wgs = s.wgs.map (fun g => (g.1, { g.2 with slot := f g.2 }))) : areasHeld t q asid = areasHeld s q asid := by
  simp only [areasHeld, ht, List.any_map]
  rfl

/-- Where a workgroup stands once a context is bound to slot a: with it, or at none if its own had the slot (R494; DEDUCED, log entry 46). -/
def seatAt (asid a : Nat) (g : Workgroup) : Nat := if g.asid = asid then a else if g.slot = a then 8 else g.slot

theorem bindSlot_wgs (s : State) (a : Nat) (q : Slot) :
    (bindSlot s a q).wgs = s.wgs.map (fun g => (g.1, { g.2 with slot := seatAt q.asid a g.2 })) := rfl

theorem bindSlot_wg {u : Nat} {g : Workgroup} (q : Slot) (hg : s.wg u = some g) :
    (bindSlot s a q).wg u = some { g with slot := seatAt q.asid a g } := by
  rw [State.wg, bindSlot_wgs]
  refine (find_map_values s.wgs (fun g => { g with slot := seatAt q.asid a g }) u).trans ?_
  rw [show Table.find s.wgs u = some g from hg, Option.map_some]

theorem bindSlot_slot (s : State) (a : Nat) (q : Slot) : (bindSlot s a q).slot a = { q with used := areasHeld s q q.asid } := by
  rw [bindSlot, slot_setSlot_same, areasHeld_seated s q q.asid (seatAt q.asid a) rfl]

theorem contextSlotWrite_unbound {q : Slot} (ha : a < 8) (hq : s.slot a = q) (hv : q.v = false) :
    exec (.contextSlotWrite a off v) s =
      .next (if (q.write off v).v = true then bindSlot s a (q.write off v) else s.setSlot a (q.write off v)) := by
  subst hq
  show execContextSlotWrite a off v s = _
  rw [execContextSlotWrite, Nat.mod_eq_of_lt ha]
  exact congrArg _ (if_pos hv)

/-- A slot that is bound takes DEFLEVEL, CAP, DBG and V, unless that would unbind it too early (R494). -/
theorem contextSlotWrite_bound {q : Slot} (ha : a < 8) (hq : s.slot a = q) (hv : q.v = true) :
    exec (.contextSlotWrite a off v) s = .next (if off ≠ 0 then s
      else if v.getLsbD 0 = false ∧ mayUnbind s a = false then s
      else s.setSlot a { q with deflevel := fieldOf v 44 4, cap := fieldOf v 40 4, dbg := v.getLsbD 1, v := v.getLsbD 0,
                                used := if v.getLsbD 0 then q.used else [] }) := by
  subst hq
  show execContextSlotWrite a off v s = _
  rw [execContextSlotWrite, Nat.mod_eq_of_lt ha]
  exact congrArg _ (if_neg (by simp [hv]))

theorem contextSlotWrite_stays {q : Slot} (ha : a < 8) (hq : s.slot a = q) (hv : q.v = false) (hw : (q.write off v).v = false) :
    exec (.contextSlotWrite a off v) s = .next (s.setSlot a (q.write off v)) := by
  rw [contextSlotWrite_unbound ha hq hv, if_neg (by simp [hw])]

/-- The pool of a slot stays while areas of it are in use (R495). -/
theorem write_pool_used {q : Slot} (hu : q.used ≠ []) (v : Reg) : q.write 0x20 v = q ∧ q.write 0x28 v = q := by
  have hne : ¬ q.used.isEmpty = true := by simpa using hu
  exact ⟨if_neg hne, if_neg hne⟩

end

/-- Settles O50: the fields that registers take, the register that an address of the monitor interface names, and a context slot by
whether it is bound. -/
theorem deviceRegisters : Obligations.DeviceRegisters := by
  unfold Obligations.DeviceRegisters
  intro s p d c e n a off addr v
  refine ⟨?_, ?_, ⟨_, rfl, ?_, fun j hj => ?_, rfl, rfl⟩, fun hout => ?_, fun he hn => ⟨windowWritten s e n v, ?_, fun i => ?_,
    fun f j hj hne => windowWritten_other hn hj hne, rfl, rfl⟩, fun h8 => congrArg _ (if_pos h8), write_pairpwr, write_diepwr, write_rotctl,
    write_doorbell, rfl, rfl, fun h8 => if_pos h8, rfl, read_diepwr, read_doorbell, write_contextSlot, fun ha => ?_⟩
  · refine congrArg (fun x => Host.Outcome.next (s.setPair p { s.pair p with pfloor := x, gateen := v.getLsbD 26 })) ?_
    exact clamp_comm (by decide) _
  · refine congrArg (fun x => Host.Outcome.next (s.setDie d { s.die d with budget := x })) ?_
    exact clamp_comm (by decide) _
  · rw [State.updMonitor, State.updCluster, cluster_setCluster_same, get_set_same]
    rfl
  · rw [State.updMonitor, State.updCluster, cluster_setCluster_same, get_set_other _ _ _ _ _ hj]
  · exact congrArg _ (if_neg (by omega))
  · exact congrArg _ (if_pos ⟨he, hn⟩)
  · rw [windowWritten_same, BitVec.getLsbD_and, windowMask_bits hn]
  · intro q
    refine ⟨fun hv ho => ?_, fun hv h0 hm => ?_, fun hv hgo => ?_, fun hv => ⟨fun h0 => contextSlotWrite_stays ha rfl hv h0,
      fun h1 => ⟨bindSlot s a (q.write 0 v), ?_, rfl, bindSlot_slot s a _, fun u g hg =>
      bindSlot_wg _ hg⟩, contextSlotWrite_stays ha rfl hv hv,
      contextSlotWrite_stays ha rfl hv hv⟩, fun hv hu => ?_⟩
    · rw [contextSlotWrite_bound ha rfl hv, if_pos ho]
    · rw [contextSlotWrite_bound ha rfl hv, if_neg (by decide), if_pos ⟨h0, hm⟩]
    · rw [contextSlotWrite_bound ha rfl hv, if_neg (by decide), if_neg (by rcases hgo with h | h <;> simp [h])]
    · rw [contextSlotWrite_unbound ha rfl hv]
      exact congrArg _ (if_pos h1)
    · obtain ⟨hbase, hsize⟩ := write_pool_used (v := v) hu
      refine ⟨?_, ?_⟩
      · rw [contextSlotWrite_stays ha rfl hv (hbase ▸ hv), hbase]
      · rw [contextSlotWrite_stays ha rfl hv (hsize ▸ hv), hsize]

/-! ### Parts changed one after another -/

section

variable {α : Type} {f : State → Nat → State} {read : State → Nat → α} {l : List Nat} {e : Nat}

/-- Changes of numbered parts, each of its own part alone, leave a part that none of them is of. -/
theorem foldl_read_other (others : ∀ s c e, e ≠ c → read (f s c) e = read s e) (he : e ∉ l) (s : State) :
    read (l.foldl f s) e = read s e := by
  induction l generalizing s with
  | nil => rfl
  | cons c l ih =>
    rw [List.mem_cons, not_or] at he
    obtain ⟨hne, hrest⟩ := he
    exact (ih hrest _).trans (others s c e hne)

/-- Of a part that one of them is of they leave what that one does to it as it was. -/
theorem foldl_read_at (others : ∀ s c e, e ≠ c → read (f s c) e = read s e) {P : α → Prop} (hl : l.Nodup) (he : e ∈ l) (s : State)
    (h : ∀ u, read u e = read s e → P (read (f u e) e)) : P (read (l.foldl f s) e) := by
  induction l generalizing s with
  | nil => exact absurd he List.not_mem_nil
  | cons c l ih =>
    rw [List.nodup_cons] at hl
    obtain ⟨hfresh, hrest⟩ := hl
    by_cases hec : e = c
    · subst hec
      rw [List.foldl_cons, foldl_read_other others hfresh]
      exact h s rfl
    · have hin : e ∈ l := (List.mem_cons.1 he).resolve_left hec
      exact ih hrest hin (f s c) fun u hu => h u (hu.trans (others s c e hec))

end

theorem span_nodup (a n : Nat) : (span a n).Nodup :=
  List.Nodup.map (fun _ _ h => Nat.add_left_cancel h) List.nodup_range

theorem mem_span {a n i : Nat} (h : i < n) : a + i ∈ span a n := List.mem_map_of_mem (List.mem_range.2 h)

theorem pairClusters_nodup (p : Nat) : (pairClusters p).Nodup := by simp [pairClusters]

/-! ### The clock of one cluster -/

/-- The limits on a cluster that its clock's changes leave as they are: cap, clamp and placement limit, and its ILEVEL. -/
def clockLimits (k : Clock) : Nat × Bool × Nat × Nat := (k.pcap, k.clamp, k.plim, k.ilevel)

/-- Nothing but the clock of cluster c has changed. -/
structure ClockOnly (c : Nat) (s t : State) : Prop where
  rest : t = { s with clusters := t.clusters }
  others : ∀ e, e ≠ c → t.cluster e = s.cluster e

/-- What follows from the clock of cluster c has: its limits stand. -/
structure ClockFollows (c : Nat) (s t : State) : Prop extends ClockOnly c s t where
  limits : clockLimits (t.cluster c).clk = clockLimits (s.cluster c).clk

section

variable {s t u : State} {c e p : Nat} {k : Clock} {f : Clock → Clock}

theorem ClockOnly.refl (c : Nat) (s : State) : ClockOnly c s s := ⟨rfl, fun _ _ => rfl⟩

theorem ClockOnly.trans (h : ClockOnly c s t) (h' : ClockOnly c t u) : ClockOnly c s u := by
  refine ⟨?_, fun e he => (h'.others e he).trans (h.others e he)⟩
  rw [h'.rest, h.rest]

theorem ClockOnly.mem (h : ClockOnly c s t) : t.mem = s.mem := by rw [h.rest]
theorem ClockOnly.wgs (h : ClockOnly c s t) : t.wgs = s.wgs := by rw [h.rest]
theorem ClockOnly.pairs (h : ClockOnly c s t) : t.pairs = s.pairs := by rw [h.rest]
theorem ClockOnly.dies (h : ClockOnly c s t) : t.dies = s.dies := by rw [h.rest]

theorem ClockFollows.refl (c : Nat) (s : State) : ClockFollows c s s := ⟨.refl c s, rfl⟩

theorem ClockFollows.trans (h : ClockFollows c s t) (h' : ClockFollows c t u) : ClockFollows c s u :=
  ⟨h.toClockOnly.trans h'.toClockOnly, h'.limits.trans h.limits⟩

theorem updClk_only (s : State) (c : Nat) (f : Clock → Clock) : ClockOnly c s (s.updClk c f) :=
  ⟨rfl, fun _ he => cluster_setCluster_other _ _ _ _ he⟩

@[simp] theorem updClk_clk (s : State) (c : Nat) (f : Clock → Clock) : ((s.updClk c f).cluster c).clk = f (s.cluster c).clk := by
  rw [State.updClk, cluster_setCluster_same]

theorem updClk_follows (hf : ∀ k, clockLimits (f k) = clockLimits k) (s : State) (c : Nat) : ClockFollows c s (s.updClk c f) :=
  ⟨updClk_only s c f, by rw [updClk_clk, hf]⟩

/-- The lock of the idle generator leaves the limits and the level in force (R475). -/
theorem lockTo_keeps (k : Clock) (l tick : Nat) : clockLimits (k.lockTo l tick) = clockLimits k ∧ (k.lockTo l tick).level = k.level := by
  unfold Clock.lockTo
  split <;> exact ⟨rfl, rfl⟩

/-- A change that begins leaves the limits and the level in force (R476). -/
theorem change_keeps (k : Clock) (st l tick : Nat) : clockLimits (k.change st l tick) = clockLimits k ∧ (k.change st l tick).level = k.level :=
  lockTo_keeps ..

theorem refreshClock_follows (s : State) (c : Nat) : ClockFollows c s (refreshClock s c) := by
  have htarget := updClk_follows (f := fun k => { k with target := clockTarget (s.cluster c) }) (fun _ => rfl) s c
  unfold refreshClock
  dsimp only
  split
  · exact htarget
  · exact htarget.trans (updClk_follows (fun k => (change_keeps k ..).1) _ c)

/-- A change that begins waits for its lock: the level in force stands (R476). -/
theorem refreshClock_level (s : State) (c : Nat) : ((refreshClock s c).cluster c).clk.level = (s.cluster c).clk.level := by
  unfold refreshClock
  dsimp only
  split
  · rw [updClk_clk]
  · rw [updClk_clk, (change_keeps ..).2, updClk_clk]

theorem switchClock_follows (s : State) (c : Nat) : ClockFollows c s (switchClock s c) := by
  refine updClk_follows (fun k => ?_) s c
  exact (lockTo_keeps ..).1

theorem trySwitch_follows (s : State) (c : Nat) : ClockFollows c s (trySwitch s c) := by
  unfold trySwitch
  dsimp only
  split
  · exact .refl c s
  · split
    · exact (switchClock_follows s c).trans (refreshClock_follows _ c)
    · split
      · split
        · exact .refl c s
        · exact switchClock_follows s c
      · exact .refl c s

/-- No switch comes while a lock lasts, or in the tick in which what it waited for was there (R475, R476). -/
theorem trySwitch_waits (h : (s.cluster c).clk.locking = true ∨ (s.die (dieOfCluster c)).tick ≤ (s.cluster c).clk.lockEnd ∨
    (s.die (dieOfCluster c)).tick ≤ (s.cluster c).clk.since) : trySwitch s c = s := by
  refine if_pos ?_
  rw [readyBefore]
  rcases h with hlock | hlate
  · simp [hlock]
  · have hnot : ¬ max (s.cluster c).clk.since (s.cluster c).clk.lockEnd < (s.die (dieOfCluster c)).tick := by omega
    simp [hnot]

end

/-! ### Caps, samples and the clamp -/

section

variable {s t : State} {c d e p i : Nat}

/-- Nothing but clusters has changed. -/
def ClustersOnly (s t : State) : Prop := t = { s with clusters := t.clusters }

theorem ClustersOnly.refl (s : State) : ClustersOnly s s := Eq.refl s
theorem ClustersOnly.mem (h : ClustersOnly s t) : t.mem = s.mem := by rw [h]
theorem ClustersOnly.wgs (h : ClustersOnly s t) : t.wgs = s.wgs := by rw [h]

theorem ClustersOnly.pair (h : ClustersOnly s t) (p : Nat) : t.pair p = s.pair p := by
  have hpairs : t.pairs = s.pairs := by rw [h]
  rw [State.pair, hpairs, State.pair]

theorem ClustersOnly.die (h : ClustersOnly s t) (d : Nat) : t.die d = s.die d := by
  have hdies : t.dies = s.dies := by rw [h]
  rw [State.die, hdies, State.die]

/-- Events of clocks, one for each of some clusters, leave all else. -/
theorem foldl_clustersOnly {f : State → Nat → State} (hf : ∀ s c, ClockOnly c s (f s c)) (l : List Nat) (s : State) :
    ClustersOnly s (l.foldl f s) := by
  induction l generalizing s with
  | nil => exact .refl s
  | cons c l ih =>
    rw [ClustersOnly, List.foldl_cons, ih, (hf s c).rest]

theorem lowerCap_only (s : State) (c : Nat) : ClockOnly c s (lowerCap s c) :=
  (updClk_only ..).trans (refreshClock_follows ..).toClockOnly

theorem raiseCap_only (s : State) (c : Nat) : ClockOnly c s (raiseCap s c) :=
  (updClk_only ..).trans (refreshClock_follows ..).toClockOnly

theorem raiseCap_plim (s : State) (c : Nat) : ((raiseCap s c).cluster c).clk.plim = (s.cluster c).clk.plim := by
  have hlimits := (refreshClock_follows (s.updClk c (fun k =>
    { k with pcap := min 15 (k.pcap + 1), clamp := k.clamp && decide (k.pcap < 14) })) c).limits
  rw [updClk_clk] at hlimits
  exact congrArg (fun x => x.2.2.1) hlimits

/-- What the runs of samples leave: the pair but for its runs, and all but the clocks (R483). -/
theorem capRuns_keeps (s : State) (p a b : Nat) : (∃ m n, (capRuns s p a b).pair p = { s.pair p with outRun := m, inRun := n }) ∧
    (capRuns s p a b).mem = s.mem ∧ (capRuns s p a b).wgs = s.wgs := by
  have hlower := lowerCap_only (s.setPair p { s.pair p with outRun := 0 }) (if a < b then 2 * p + 1 else 2 * p)
  have hraise := foldl_clustersOnly (f := fun s c => if (s.cluster c).clk.pcap < 15 then raiseCap s c else s) (fun s c => by
    split
    · exact raiseCap_only s c
    · exact .refl c s) (pairClusters p) (s.setPair p { s.pair p with inRun := 0 })
  unfold capRuns
  dsimp only
  split
  · refine ⟨⟨0, (s.pair p).inRun, ?_⟩, hlower.mem, hlower.wgs⟩
    rw [State.pair, hlower.pairs]
    exact pair_setPair_same ..
  · split
    · exact ⟨⟨(s.pair p).outRun, 0, (hraise.pair p).trans (pair_setPair_same ..)⟩, hraise.mem, hraise.wgs⟩
    · exact ⟨⟨_, _, rfl⟩, rfl, rfl⟩

/-- A balance sample is taken once in every 10 ticks of a pair that is not gated (R481). -/
theorem balanceSample_waits {a b : Nat} (h : 3 ≤ (s.pair p).gstate ∨ (s.die (p / 8)).tick % 10 ≠ 0 ∨
    (s.pair p).sampleAt = some (s.die (p / 8)).tick) : exec (.balanceSample p a b) s = .next s := if_pos h

/-- The pair with a sample of its layer currents (R482, R485). -/
def sampled (s : State) (p a b : Nat) : Pair :=
  let x := s.pair p
  let change := ballastStep s p a b
  { x with
    ballast := match change with
      | some (i, n) => Table.set x.ballast i n
      | none => x.ballast
    ieven := a, iodd := b, bal := !outOfBalance a b, sampled := true, sampleAt := some (s.die (p / 8)).tick
    outRun := if outOfBalance a b && change.isNone then x.outRun + 1 else 0
    inRun := if innerBand a b then x.inRun + 1 else 0 }

theorem balanceSample_takes {a b : Nat} (hg : (s.pair p).gstate < 3) (ht : (s.die (p / 8)).tick % 10 = 0)
    (hn : (s.pair p).sampleAt ≠ some (s.die (p / 8)).tick) (ha : a < 1024) (hb : b < 1024) :
    exec (.balanceSample p a b) s = .next (capRuns (s.setPair p (sampled s p a b)) p a b) := by
  refine (if_neg ?_).trans ?_
  · rintro (h | h | h)
    · exact absurd hg (Nat.not_lt.2 h)
    · exact h ht
    · exact hn h
  · rw [Nat.mod_eq_of_lt ha, Nat.mod_eq_of_lt hb]
    rfl

theorem outOfBalance_iff (a b : Nat) : (!outOfBalance a b) = true ↔ 10 * (a - b + (b - a)) ≤ max a b := by
  simp [outOfBalance, currentGap]

/-! The power of a die (R486-R488). -/

/-- The die with a sample of its power (R486). -/
def powerTaken (y : Die) (power : Nat) : Die :=
  { y with powerAt := some y.tick, power := sat16 power, overs := if sat16 power > y.budget then sat16 (y.overs + 1) else y.overs }

/-- A cluster under a budget that is not used takes 8 more places, and its cap relaxes (R487, R488). -/
def relaxed (s : State) (c : Nat) : State := relaxClamp (s.updClk c (fun k => { k with plim := min 256 (k.plim + 8) })) c

theorem relaxed_only (s : State) (c : Nat) : ClockOnly c s (relaxed s c) := by
  unfold relaxed relaxClamp
  split
  · exact (updClk_only ..).trans (raiseCap_only ..)
  · exact updClk_only ..

theorem relaxed_plim (s : State) (c : Nat) : ((relaxed s c).cluster c).clk.plim = min 256 ((s.cluster c).clk.plim + 8) := by
  unfold relaxed relaxClamp
  split
  · rw [raiseCap_plim, updClk_clk]
  · rw [updClk_clk]

theorem powerSample_waits {power : Nat} {draws : List Nat} (h : (s.die d).tick % 1000 ≠ 0 ∨ (s.die d).powerAt = some (s.die d).tick) :
    exec (.powerSample d power draws) s = .next s := if_pos h

/-- A power sample: over the budget the heaviest cluster loses a place, and under 0.9 of it every limit rises (R486-R488). -/
theorem powerSample_takes {power : Nat} {draws : List Nat} (ht : (s.die d).tick % 1000 = 0)
    (hn : (s.die d).powerAt ≠ some (s.die d).tick) {t : State} (hs : s.setDie d (powerTaken (s.die d) power) = t) :
    exec (.powerSample d power draws) s = .next (
      if sat16 power > (s.die d).budget then
        match heaviest s d draws with
        | some i => t.updClk (16 * d + i) (fun k => { k with plim := max 1 (residents s (16 * d + i) - 1) })
        | none => t
      else if 10 * sat16 power < 9 * (s.die d).budget then (dieClusters d).foldl relaxed t
      else t) := by
  subst hs
  refine (if_neg (not_or.2 ⟨not_not.2 ht, hn⟩)).trans ?_
  by_cases hover : sat16 power > (s.die d).budget
  · refine (if_pos hover).trans (Eq.trans ?_ (congrArg _ (if_pos hover).symm))
    split
    · next i hi =>
      rw [show heaviest s d draws = some i from hi]
      rfl
    · next hi =>
      rw [show heaviest s d draws = none from hi]
      rfl
  · refine (if_neg hover).trans (Eq.trans ?_ (congrArg _ (if_neg hover).symm))
    by_cases hunder : 10 * sat16 power < 9 * (s.die d).budget
    · exact (if_pos hunder).trans (congrArg _ (if_pos hunder).symm)
    · exact (if_neg hunder).trans (congrArg _ (if_neg hunder).symm)

/-! The hard clamp (R488). -/

/-- The cap and the clamp that a cluster over its fallback takes (R488). -/
def clampedClk (s : State) (c : Nat) : State :=
  s.updClk c (fun k => { k with pcap := fallbackOf (s.cluster c).clk.level, clamp := true })

/-- A change that a clamp begins or retargets switches at once where it can (R488). -/
theorem retarget_follows (s : State) (c l tick : Nat) : ClockFollows c s (trySwitch (s.updClk c (fun k => k.change 2 l tick)) c) :=
  (updClk_follows (fun k => (change_keeps k ..).1) s c).trans (trySwitch_follows _ c)

/-- A clamp sets the cap and the clamp of a cluster above its fallback, whatever change is under way; it leaves one at its fallback. -/
theorem clampCluster_cases (s : State) (c : Nat) :
    ((s.cluster c).clk.level ≤ fallbackOf (s.cluster c).clk.level ∧ clampCluster s c = s) ∨
    (fallbackOf (s.cluster c).clk.level < (s.cluster c).clk.level ∧ ClockFollows c (clampedClk s c) (clampCluster s c)) := by
  unfold clampCluster
  dsimp only
  split
  · next hle => exact .inl ⟨hle, rfl⟩
  · next hgt =>
    refine .inr ⟨Nat.lt_of_not_le hgt, ?_⟩
    split
    · exact retarget_follows ..
    · split
      · split
        · exact retarget_follows ..
        · exact .refl ..
      · split
        · exact .refl ..
        · exact retarget_follows ..

theorem clampCluster_only (s : State) (c : Nat) : ClockOnly c s (clampCluster s c) := by
  rcases clampCluster_cases s c with ⟨-, hsame⟩ | ⟨-, hfollows⟩
  · rw [hsame]
    exact .refl ..
  · exact (updClk_only ..).trans hfollows.toClockOnly

theorem clampCluster_clamps (h : (s.cluster c).clk.level - 4 < (s.cluster c).clk.level) :
    ((clampCluster s c).cluster c).clk.clamp = true ∧ ((clampCluster s c).cluster c).clk.pcap = (s.cluster c).clk.level - 4 := by
  rcases clampCluster_cases s c with ⟨hle, -⟩ | ⟨-, hfollows⟩
  · exact absurd h (Nat.not_lt.2 hle)
  · have hlimits := hfollows.limits
    rw [clampedClk, updClk_clk] at hlimits
    exact ⟨congrArg (fun x => x.2.1) hlimits, congrArg (fun x => x.1) hlimits⟩

theorem hardClamp_waits {power : Nat} (h : 4 * power ≤ 5 * (s.die d).budget) : exec (.hardClamp d power) s = .next s :=
  if_neg (Nat.not_lt.2 h)

theorem hardClamp_clamps {power : Nat} (h : 5 * (s.die d).budget < 4 * power) : exec (.hardClamp d power) s =
    .next ((dieClusters d).foldl clampCluster (s.setDie d { s.die d with hard := sat16 ((s.die d).hard + 1) })) := if_pos h

/-! Stall windows (R489). -/

theorem countEvent_ratio (s : State) (c src v n : Nat) : ((s.countEvent c src v n).cluster c).ratio = (s.cluster c).ratio ∧
    ((s.countEvent c src v n).cluster c).sample = (s.cluster c).sample ∧ (s.countEvent c src v n).mem = s.mem := by
  unfold State.countEvent
  dsimp only
  split
  · rw [cluster_setCluster_same]
    exact ⟨rfl, rfl, rfl⟩
  · exact ⟨rfl, rfl, rfl⟩

theorem writeRatio_writes {stalled held : Nat} (h : (s.cluster c).sample = some (stalled, held)) :
    ((writeRatio s c).cluster c).ratio = stallRatio (stalled, held) ∧ ((writeRatio s c).cluster c).sample = none ∧
    (writeRatio s c).mem = s.mem ∧ (writeRatio s c).wgs = s.wgs := by
  simp only [writeRatio, h]
  obtain ⟨hratio, hsample, hmem⟩ := countEvent_ratio
    (s.setCluster c { s.cluster c with ratio := stallRatio (stalled, held), sample := none }) c 8 (stallRatio (stalled, held)) 1
  rw [cluster_setCluster_same] at hratio hsample
  exact ⟨hratio, hsample, hmem, countEvent_wgs ..⟩

end

/-! ### Gating -/

section

variable {s : State} {c e p t : Nat}

theorem gatingIdleExpiry_gates (hg : (s.pair p).gstate = 1) (hi : pairIdle s p = true)
    (ht : (s.pair p).since + 2048 ≤ (s.die (p / 8)).tick) : exec (.gatingIdleExpiry p) s =
    .next (s.setPair p { s.pair p with gstate := 2, since := (s.die (p / 8)).tick }) := if_pos ⟨hg, hi, ht⟩

theorem gatingIdleExpiry_waits (h : (s.pair p).gstate ≠ 1 ∨ pairIdle s p = false ∨ (s.die (p / 8)).tick < (s.pair p).since + 2048) :
    exec (.gatingIdleExpiry p) s = .next s := by
  refine if_neg fun hrun => ?_
  obtain ⟨hg, hi, ht⟩ := hrun
  rcases h with h | h | h
  · exact h hg
  · exact Bool.false_ne_true (h.symm.trans hi)
  · exact Nat.not_le.2 h ht

theorem writeBackLine_tile_other (s : State) (t line : Nat) (he : e ≠ t) : (writeBackLine s t line).tile e = s.tile e := by
  cases h : (s.tile t).line line with
  | none => rw [writeBackLine_absent h]
  | some l =>
    by_cases hd : l.dirty = 0
    · rw [writeBackLine_clean h hd]
    · obtain ⟨W, S, Q, hw⟩ := writeBackLine_dirty h hd
      rw [hw]
      exact get_set_other _ _ _ _ _ he

theorem invalidateWhere_tile_other (s : State) (t : Nat) (f : Line → Bool) (he : e ≠ t) :
    (invalidateWhere s t f).tile e = s.tile e :=
  foldl_keeps (p := fun s : State => s.tile e)
    (fun u l => (tile_setTile_other _ _ _ _ he).trans (writeBackLine_tile_other u t l he)) _ s

theorem gateTile_other (s : State) (t : Nat) (he : e ≠ t) : (gateTile s t).tile e = s.tile e :=
  (tile_setTile_other _ _ _ _ he).trans (invalidateWhere_tile_other s t _ he)

/-- A tile that is gated holds no line, no code and no translation (R491). -/
theorem gateTile_empties (s : State) (t : Nat) : ((gateTile s t).tile t).lines = [] ∧ ((gateTile s t).tile t).code = [] ∧
    ((gateTile s t).tile t).pages = [] := by
  rw [gateTile, tile_setTile_same]
  refine ⟨?_, rfl, rfl⟩
  show ((invalidateWhere s t _).tile t).lines = []
  rw [invalidateWhere, invalidateLines_lines, List.filter_eq_nil_iff]
  exact fun l hl => by simpa using mem_linesWhere hl rfl

theorem gateTile_wgs (s : State) (t : Nat) : (gateTile s t).wgs = s.wgs := invalidateWhere_wgs ..

theorem gateCluster_other (s : State) (c : Nat) (he : e ≠ c) : (gateCluster s c).cluster e = s.cluster e :=
  (cluster_setCluster_other _ _ _ _ he).trans (cluster_setCluster_other _ _ _ _ he)

theorem gateCluster_gates (s : State) (c : Nat) :
    ((gateCluster s c).cluster c).clk.cstate = 4 ∧ ((gateCluster s c).cluster c).upper = [] := by
  rw [gateCluster, cluster_setCluster_same, State.updClk, cluster_setCluster_same]
  exact ⟨rfl, rfl⟩

/-- The tiles and clusters of a pair without power (R491). -/
def gatedParts (s : State) (p : Nat) : State := (pairClusters p).foldl gateCluster ((span (16 * p) 16).foldl gateTile s)

theorem gatedParts_wgs (s : State) (p : Nat) : (gatedParts s p).wgs = s.wgs :=
  (foldl_keeps (p := State.wgs) (f := gateCluster) (fun _ _ => rfl) _ _).trans (foldl_keeps (p := State.wgs) gateTile_wgs _ s)

theorem gatedParts_tile (s : State) {i : Nat} (hi : i < 16) : ((gatedParts s p).tile (16 * p + i)).lines = [] ∧
    ((gatedParts s p).tile (16 * p + i)).code = [] ∧ ((gatedParts s p).tile (16 * p + i)).pages = [] := by
  have htiles : (gatedParts s p).tiles = ((span (16 * p) 16).foldl gateTile s).tiles :=
    foldl_keeps (p := State.tiles) (f := gateCluster) (fun _ _ => rfl) _ _
  rw [State.tile, htiles]
  exact foldl_read_at (read := State.tile) (P := fun x => x.lines = [] ∧ x.code = [] ∧ x.pages = []) (fun s c _ he => gateTile_other s c he)
    (span_nodup _ _) (mem_span hi) s fun u _ => gateTile_empties u _

theorem gatedParts_cluster (s : State) (hc : c ∈ pairClusters p) :
    ((gatedParts s p).cluster c).clk.cstate = 4 ∧ ((gatedParts s p).cluster c).upper = [] := by
  unfold gatedParts
  exact foldl_read_at (f := gateCluster) (read := State.cluster) (P := fun x => x.clk.cstate = 4 ∧ x.upper = []) (l := pairClusters p)
    (e := c) (fun s c _ he => gateCluster_other s c he) (pairClusters_nodup p) hc _ fun u _ => gateCluster_gates u c

theorem residents_congr {s t : State} (h : t.wgs = s.wgs) (c : Nat) : residents t c = residents s c := by
  rw [residents, h, residents]

/-- Whether a placement waits for a pair (R396). -/
def placedOn (s : State) (p : Nat) : Bool := (pairClusters p).any (fun c => decide (residents s c > 0))

theorem placedOn_eq_false (s : State) (p : Nat) : placedOn s p = false ↔ residents s (2 * p) = 0 ∧ residents s (2 * p + 1) = 0 := by
  simp [placedOn, pairClusters]

theorem gatingDone_gates (hg : (s.pair p).gstate = 2) (ht : (s.pair p).since + 20 ≤ (s.die (p / 8)).tick) :
    exec (.gatingDone p) s = .next ((gatedParts s p).setPair p { s.pair p with
      ballast := [], gstate := if placedOn (gatedParts s p) p then 4 else 3, since := (s.die (p / 8)).tick }) := if_pos ⟨hg, ht⟩

theorem gatingDone_waits (h : (s.pair p).gstate ≠ 2 ∨ (s.die (p / 8)).tick < (s.pair p).since + 20) :
    exec (.gatingDone p) s = .next s := if_neg fun hrun => h.elim (· hrun.1) (Nat.not_lt.2 hrun.2)

/-- A pair that has woken, its rail at the voltage that its clusters require (R490). -/
def wokenPair (s : State) (p : Nat) : Pair :=
  { s.pair p with
    gstate := 0, sampled := false, ieven := 0, iodd := 0, bal := true, outRun := 0, inRun := 0
    vnow := (pairClusters p).foldl (fun a c => max a (levelVoltage (s.cluster c).clk.ilevel)) (s.pair p).pfloor }

theorem pairWakeDone_wakes (hg : (s.pair p).gstate = 4) (ht : (s.pair p).since + 500 ≤ (s.die (p / 8)).tick) :
    exec (.pairWakeDone p) s = .next ((pairClusters p).foldl wakeClock (s.setPair p (wokenPair s p))) := if_pos ⟨hg, ht⟩

theorem pairWakeDone_waits (h : (s.pair p).gstate ≠ 4 ∨ (s.die (p / 8)).tick < (s.pair p).since + 500) :
    exec (.pairWakeDone p) s = .next s := if_neg fun hrun => h.elim (· hrun.1) (Nat.not_lt.2 hrun.2)

theorem setCluster_only (s : State) (c : Nat) (x : Cluster) : ClockOnly c s (s.setCluster c x) :=
  ⟨rfl, fun _ he => cluster_setCluster_other _ _ _ _ he⟩

/-- A cluster whose clock wakes changes alone (R490). -/
theorem wakeClock_only (s : State) (c : Nat) : ClockOnly c s (wakeClock s c) := by
  refine ClockOnly.trans ?_ (refreshClock_follows _ c).toClockOnly
  exact (updClk_only s c _).trans (setCluster_only _ c _)

theorem wakeClock_level (s : State) (c : Nat) : ((wakeClock s c).cluster c).clk.level = (s.cluster c).clk.ilevel := by
  rw [wakeClock, refreshClock_level, cluster_setCluster_same]
  exact congrArg Clock.level (updClk_clk ..)

/-- The clusters of a pair wake at their ILEVEL (R490). -/
theorem wakeClocks_level (s : State) (hc : c ∈ pairClusters p) :
    (((pairClusters p).foldl wakeClock s).cluster c).clk.level = (s.cluster c).clk.ilevel :=
  foldl_read_at (read := State.cluster) (P := fun x => x.clk.level = (s.cluster c).clk.ilevel)
    (fun s c _ he => (wakeClock_only s c).others _ he) (pairClusters_nodup p) hc s fun u hu => by rw [wakeClock_level, hu]

end

/-! ### What each event leaves -/

section

theorem tile_setPair (s : State) (p t : Nat) (x : Pair) : (s.setPair p x).tile t = s.tile t := rfl
theorem cluster_setPair (s : State) (p c : Nat) (x : Pair) : (s.setPair p x).cluster c = s.cluster c := rfl

variable {s : State} {c d p a b power : Nat} {draws : List Nat}

/-- A lock that has not ended stays (R475). -/
theorem clockLockDone_waits (hl : (s.cluster c).clk.locking = true) (ht : (s.die (dieOfCluster c)).tick < (s.cluster c).clk.lockEnd) :
    exec (.clockLockDone c) s = .next s := by
  refine if_neg ?_
  simpa [hl] using ht

/-- A lock that has ended, or was none, lets the switch come (R475). -/
theorem clockLockDone_switches (h : (s.cluster c).clk.locking = false ∨ (s.cluster c).clk.lockEnd ≤ (s.die (dieOfCluster c)).tick) :
    exec (.clockLockDone c) s = .next (trySwitch (s.updClk c (fun k => { k with locking := false })) c) := by
  refine if_pos ?_
  simpa using h

theorem voltageTargetReached_waits (h : 3 ≤ (s.pair p).gstate ∨ (s.pair p).vnow ≠ requiredVoltage s p) :
    exec (.voltageTargetReached p) s = .next s :=
  if_neg fun hrun => h.elim (Nat.not_le.2 hrun.1) (· hrun.2)

/-- The state after a power sample (R486-R488). -/
def powerSampled (s : State) (d power : Nat) (draws : List Nat) : State :=
  let t := s.setDie d (powerTaken (s.die d) power)
  if sat16 power > (s.die d).budget then
    match heaviest s d draws with
    | some i => t.updClk (16 * d + i) (fun k => { k with plim := max 1 (residents s (16 * d + i) - 1) })
    | none => t
  else if 10 * sat16 power < 9 * (s.die d).budget then (dieClusters d).foldl relaxed t
  else t

/-- A power sample changes its die and clocks of clusters alone (R486-R488). -/
theorem powerSampled_only (s : State) (d power : Nat) (draws : List Nat) :
    ClustersOnly (s.setDie d (powerTaken (s.die d) power)) (powerSampled s d power draws) := by
  unfold powerSampled
  dsimp only
  split
  · split
    · exact (updClk_only ..).rest
    · exact .refl _
  · split
    · exact foldl_clustersOnly relaxed_only ..
    · exact .refl _

theorem powerSampled_die (s : State) (d power : Nat) (draws : List Nat) :
    (powerSampled s d power draws).die d = powerTaken (s.die d) power :=
  ((powerSampled_only ..).die d).trans (die_setDie_same ..)

/-- Over the budget the heaviest cluster loses a place (R487). -/
theorem powerSampled_over {i : Nat} (h : (s.die d).budget < sat16 power) (hi : heaviest s d draws = some i) :
    ((powerSampled s d power draws).cluster (16 * d + i)).clk.plim = max 1 (residents s (16 * d + i) - 1) := by
  rw [powerSampled, if_pos h, hi]
  exact congrArg Clock.plim (updClk_clk ..)

/-- Under 0.9 of the budget every limit of the die rises (R487). -/
theorem powerSampled_under {i : Nat} (h : 10 * sat16 power < 9 * (s.die d).budget) (hi : i < 16) :
    ((powerSampled s d power draws).cluster (16 * d + i)).clk.plim = min 256 ((s.cluster (16 * d + i)).clk.plim + 8) := by
  have hover : ¬ sat16 power > (s.die d).budget := by omega
  rw [powerSampled, if_neg hover, if_pos h]
  exact foldl_read_at (f := relaxed) (read := State.cluster) (P := fun x => x.clk.plim = min 256 ((s.cluster (16 * d + i)).clk.plim + 8))
    (l := dieClusters d) (e := 16 * d + i) (fun s c _ he => (relaxed_only s c).others _ he) (span_nodup ..) (mem_span hi) _ fun u hu => by
    rw [relaxed_plim, hu]
    rfl

/-- Between the two no limit changes (R487). -/
theorem powerSampled_between (hover : sat16 power ≤ (s.die d).budget) (hunder : 9 * (s.die d).budget ≤ 10 * sat16 power) :
    (powerSampled s d power draws).clusters = s.clusters := by
  rw [powerSampled, if_neg (Nat.not_lt.2 hover), if_neg (Nat.not_lt.2 hunder)]
  rfl

/-- The state after a hard clamp (R488). -/
def hardClamped (s : State) (d : Nat) : State :=
  (dieClusters d).foldl clampCluster (s.setDie d { s.die d with hard := sat16 ((s.die d).hard + 1) })

/-- A hard clamp counts in its die, and changes clocks of clusters besides (R488). -/
theorem hardClamped_only (s : State) (d : Nat) :
    ClustersOnly (s.setDie d { s.die d with hard := sat16 ((s.die d).hard + 1) }) (hardClamped s d) :=
  foldl_clustersOnly clampCluster_only ..

theorem hardClamped_die (s : State) (d : Nat) : (hardClamped s d).die d = { s.die d with hard := sat16 ((s.die d).hard + 1) } :=
  ((hardClamped_only ..).die d).trans (die_setDie_same ..)

theorem hardClamped_clamps {i : Nat} (hi : i < 16) (h : (s.cluster (16 * d + i)).clk.level - 4 < (s.cluster (16 * d + i)).clk.level) :
    ((hardClamped s d).cluster (16 * d + i)).clk.clamp = true ∧
    ((hardClamped s d).cluster (16 * d + i)).clk.pcap = (s.cluster (16 * d + i)).clk.level - 4 := by
  unfold hardClamped
  exact foldl_read_at (f := clampCluster) (read := State.cluster)
    (P := fun x => x.clk.clamp = true ∧ x.clk.pcap = (s.cluster (16 * d + i)).clk.level - 4)
    (l := dieClusters d) (e := 16 * d + i) (fun s c _ he => (clampCluster_only s c).others _ he) (span_nodup ..) (mem_span hi) _ fun u hu => by
    have hsame : u.cluster (16 * d + i) = s.cluster (16 * d + i) := hu
    rw [← hsame] at h ⊢
    exact clampCluster_clamps h

/-- What a window that ends without its sample does, is nothing (R489; log entry 27). -/
theorem stallWindow_waits {stalled held : Nat} (h : (s.cluster c).sample ≠ some (stalled, held)) :
    exec (.stallWindow c stalled held) s = .next s := congrArg _ (if_neg h)

theorem stallWindow_writes {stalled held : Nat} (h : (s.cluster c).sample = some (stalled, held)) :
    exec (.stallWindow c stalled held) s = .next (writeRatio s c) := congrArg _ (if_pos h)

/-- The clusters of a pair that wakes change alone (R490). -/
theorem wakeClocks_only (s : State) (p : Nat) : ClustersOnly s ((pairClusters p).foldl wakeClock s) := foldl_clustersOnly wakeClock_only ..

end

/-- Settles O49: each event by the condition under which it acts, and what its changes of clocks, one cluster after another, leave. -/
theorem powerAndClocks : Obligations.PowerAndClocks := by
  unfold Obligations.PowerAndClocks
  intro s c p d power a b draws k x y now
  refine ⟨fun q l tick => rfl, trySwitch_waits, clockLockDone_waits, clockLockDone_switches, voltageTargetReached_waits,
    fun hg hv => if_pos ⟨hg, hv⟩,
    balanceSample_waits, fun hg ht hn ha hb => ⟨_, balanceSample_takes hg ht hn ha hb, ?_⟩,
    powerSample_waits, fun ht hn => ⟨powerSampled s d power draws, powerSample_takes ht hn rfl, ?_⟩,
    hardClamp_waits, fun h => ⟨hardClamped s d, hardClamp_clamps h, ?_⟩,
    fun stalled held => stallWindow_waits, fun stalled held h => ⟨_, stallWindow_writes h, writeRatio_writes h⟩,
    gatingIdleExpiry_gates, gatingIdleExpiry_waits,
    fun hg ht => ⟨_, gatingDone_gates hg ht, ?_⟩, gatingDone_waits,
    fun hg ht => ⟨_, pairWakeDone_wakes hg ht, ?_⟩, pairWakeDone_waits⟩
  · obtain ⟨⟨m, n, hpair⟩, hmem, hwgs⟩ := capRuns_keeps (s.setPair p (sampled s p a b)) p a b
    rw [hpair, pair_setPair_same]
    exact ⟨rfl, rfl, rfl, rfl, outOfBalance_iff a b, hmem, hwgs⟩
  · beta_reduce
    rw [powerSampled_die]
    exact ⟨rfl, rfl, (powerSampled_only s d power draws).mem, rfl, fun i => powerSampled_over,
      fun hunder i hi => powerSampled_under hunder hi, powerSampled_between⟩
  · beta_reduce
    rw [hardClamped_die]
    exact ⟨rfl, (hardClamped_only s d).mem, fun i hi => hardClamped_clamps hi⟩
  · obtain ⟨heven, hodd⟩ : 2 * p ∈ pairClusters p ∧ 2 * p + 1 ∈ pairClusters p := by simp [pairClusters]
    obtain ⟨hstate, hupper⟩ := gatedParts_cluster s heven
    obtain ⟨hstate', hupper'⟩ := gatedParts_cluster s hodd
    simp only [pair_setPair_same, tile_setPair, cluster_setPair]
    refine ⟨trivial, ?_, fun i hi => gatedParts_tile s hi, hstate, hstate', hupper, hupper'⟩
    have hplaced := placedOn_eq_false (gatedParts s p) p
    rw [residents_congr (gatedParts_wgs s p), residents_congr (gatedParts_wgs s p)] at hplaced
    by_cases h : placedOn (gatedParts s p) p = false
    · rw [if_pos (hplaced.1 h)]
      simp [h]
    · rw [if_neg fun hnone => h (hplaced.2 hnone)]
      simp [h]
  · have hwake := wakeClocks_only (s.setPair p (wokenPair s p)) p
    beta_reduce
    rw [hwake.pair, pair_setPair_same]
    exact ⟨rfl, wakeClocks_level _ (by simp [pairClusters]), wakeClocks_level _ (by simp [pairClusters]), rfl, hwake.mem⟩

/-! ### Boot -/

section

variable {s : State} {d : Device} {x : BitVec 64} {k first stage minSvn : Nat}

/-- The first slot's image is taken where it is good (R500). -/
theorem pickImage_first (h : imageReason d (imageAt first stage) minSvn = none) : pickImage d first stage minSvn = .inl first := by
  simp only [pickImage, h]

theorem pickImage_other (h : imageReason d (imageAt first stage) minSvn ≠ none)
    (ho : imageReason d (imageAt (1 - first) stage) minSvn = none) : pickImage d first stage minSvn = .inl (1 - first) := by
  obtain ⟨why, hwhy⟩ := Option.ne_none_iff_exists'.1 h
  simp only [pickImage, hwhy, ho]

theorem pickImage_neither (h : imageReason d (imageAt first stage) minSvn ≠ none)
    (ho : imageReason d (imageAt (1 - first) stage) minSvn ≠ none) : ∃ why, pickImage d first stage minSvn = .inr why := by
  obtain ⟨why, hwhy⟩ := Option.ne_none_iff_exists'.1 h
  obtain ⟨last, hlast⟩ := Option.ne_none_iff_exists'.1 ho
  exact ⟨last, by simp only [pickImage, hwhy, hlast]⟩

/-- Which slot the straps name first (R498). -/
def strappedSlot (x : BitVec 64) : Nat := if x.getLsbD 3 then 1 else 0

theorem strapped_bootstrap (d : Device) (x : BitVec 64) : (poweredDevice d x).bootstrap.getLsbD 3 = x.getLsbD 3 := by
  show (x &&& strapMask).getLsbD 3 = x.getLsbD 3
  simp [strapMask]

/-- The ROM with the image that it picks (R500). -/
theorem romStage_picks (h : pickImage (poweredDevice d x) (strappedSlot x) 1 d.minSvn1 = .inl k) :
    romStage (poweredDevice d x) = deriveKeys { poweredDevice d x with
      stage := 1, bootSlot := k, svn1 := imageField d.flash (imageAt k 1) 4 4
      meas1 := Config.shake256 (payloadOf d.flash (imageAt k 1)) 64, meas2 := measureStage2 (poweredDevice d x) k } := by
  rw [strappedSlot, ← strapped_bootstrap d] at h
  rw [romStage, show (poweredDevice d x).minSvn1 = d.minSvn1 from rfl, h]
  rfl

theorem romStage_halts {why : Nat} (h : pickImage (poweredDevice d x) (strappedSlot x) 1 d.minSvn1 = .inr why) :
    romStage (poweredDevice d x) = { poweredDevice d x with halted := some why, locked := true } := by
  rw [strappedSlot, ← strapped_bootstrap d] at h
  rw [romStage, show (poweredDevice d x).minSvn1 = d.minSvn1 from rfl, h]
  rfl

/-- What persists over a power-on, whatever the ROM finds: flash, fuses, the device's place, and a secret that is locked (R498, R502). -/
theorem romStage_persists (d : Device) (x : BitVec 64) : let e := romStage (poweredDevice d x)
    e.flash = d.flash ∧ e.devid = d.devid ∧ e.secret = d.secret ∧ e.locked = true ∧ e.queues = [] ∧ e.bootstrap = x &&& 0xFFFF0F#64 := by
  cases hp : pickImage (poweredDevice d x) (strappedSlot x) 1 d.minSvn1 with
  | inl k =>
    rw [romStage_picks hp]
    exact ⟨rfl, rfl, rfl, rfl, rfl, rfl⟩
  | inr why =>
    rw [romStage_halts hp]
    exact ⟨rfl, rfl, rfl, rfl, rfl, rfl⟩

/-- A locked secret reads as zero (R502). -/
theorem secretRead_locked (h : d.locked = true) : d.secretRead = d.secret.map (fun _ => 0#8) := if_pos h

/-- What stage 1 leaves of memory: nothing of base memory (R500). -/
def baseCleared (s : State) : State := { s with mem := s.mem.filter (fun c => decide (c.1 ≥ 2 ^ 48)) }

theorem baseCleared_mem (s : State) : ∀ c ∈ (baseCleared s).mem, 2 ^ 48 ≤ c.1 := by
  intro c hc
  simpa using (List.mem_filter.1 hc).2

theorem bootStage1_waits (h : s.dev.stage ≠ 1 ∨ s.dev.halted ≠ none) : exec .bootStage1 s = .next s :=
  congrArg _ (if_neg fun hrun => h.elim (· hrun.1) (· hrun.2))

theorem bootStage1_loads (hs : s.dev.stage = 1) (hh : s.dev.halted = none) (hp : pickImage s.dev s.dev.bootSlot 2 s.dev.minSvn2 = .inl k) :
    exec .bootStage1 s = .next { baseCleared s with
      dev := { s.dev with stage := 2, svn2 := imageField s.dev.flash (imageAt k 2) 4 4 } } := by
  refine congrArg _ ((if_pos ⟨hs, hh⟩).trans ?_)
  rw [hp]
  rfl

theorem bootStage1_halts {why : Nat} (hs : s.dev.stage = 1) (hh : s.dev.halted = none)
    (hp : pickImage s.dev s.dev.bootSlot 2 s.dev.minSvn2 = .inr why) :
    exec .bootStage1 s = .next { baseCleared s with dev := { s.dev with halted := some why } } := by
  refine congrArg _ ((if_pos ⟨hs, hh⟩).trans ?_)
  rw [hp]
  rfl

/-- The dispatcher of a die is released (R500). -/
def releaseDie (s : State) (d : Nat) : State := s.setDie d { s.die d with released := true }

theorem releaseDie_released (s : State) {d e : Nat} (h : d = e ∨ (s.die d).released = true) : ((releaseDie s e).die d).released = true := by
  by_cases hd : d = e
  · subst hd
    rw [releaseDie, die_setDie_same]
  · rw [releaseDie, die_setDie_other _ _ _ _ hd]
    exact h.resolve_left hd

theorem releaseDies_released (ds : List Nat) (s : State) {d : Nat} (h : d ∈ ds ∨ (s.die d).released = true) :
    ((ds.foldl releaseDie s).die d).released = true := by
  induction ds generalizing s with
  | nil => exact h.resolve_left List.not_mem_nil
  | cons e ds ih =>
    refine ih _ ?_
    rcases h with hd | hd
    · rcases List.mem_cons.1 hd with rfl | hd
      · exact .inr (releaseDie_released s (.inl rfl))
      · exact .inl hd
    · exact .inr (releaseDie_released s (.inr hd))

theorem bootStage2_waits (h : s.dev.stage ≠ 2 ∨ s.dev.halted ≠ none ∨ (s.die 0).released = true) : exec .bootStage2 s = .next s := by
  refine congrArg _ (if_neg fun hrun => ?_)
  obtain ⟨hs, hh, hr⟩ := hrun
  rcases h with h | h | h
  · exact h hs
  · exact h hh
  · exact Bool.false_ne_true (hr.symm.trans h)

/-- Stage 2 trains the ports, sets the base of BAR2 and releases the dispatchers (R500, R503). -/
theorem bootStage2_runs (hs : s.dev.stage = 2) (hh : s.dev.halted = none) (hr : (s.die 0).released = false) :
    exec .bootStage2 s = .next ([0, 1, 2, 3].foldl releaseDie (setBar2 { s with dev := trainPorts s.dev })) :=
  congrArg _ (if_pos ⟨hs, hh, hr⟩)

theorem mem_trainedPorts (d : Device) (k : Nat) : k ∈ (trainPorts d).ports ↔ k < 16 ∧ d.bootstrap.getLsbD (8 + k) = true := by
  simp [trainPorts]

theorem mem_trainedEth (d : Device) (k : Nat) : k ∈ (trainPorts d).ethUp ↔ k < 2 ∧ d.bootstrap.getLsbD (1 + k) = true := by
  have hk : k < 2 ↔ k = 0 ∨ k = 1 := by omega
  simp [trainPorts, hk]

end

/-- Settles O52: power-on and the stages by the images that they pick, and the report and the status answer by what they write. -/
theorem boot : Obligations.Boot := by
  unfold Obligations.Boot
  intro s x nonce first
  obtain ⟨hflash, hdevid, hsecret, hlocked, hqueues, hstraps⟩ := romStage_persists s.dev x
  refine ⟨⟨_, rfl, rfl, rfl, rfl, rfl, rfl, rfl, hflash, hdevid, hsecret, hlocked, hqueues, hstraps, fun hgood => ?_, ?_, fun hbad =>
    ⟨fun hother => ?_, fun hother => ?_⟩⟩, bootStage1_waits, fun hs hh => ?_, bootStage2_waits, fun hs hh hr => ?_,
    fun hs => congrArg _ (if_neg hs), fun hs => congrArg _ (if_pos hs), ?_, ⟨_, rfl, _, rfl, rfl, rfl, rfl⟩⟩
  · have hrom := romStage_picks (pickImage_first (stage := 1) hgood)
    dsimp only
    rw [hrom]
    exact ⟨rfl, rfl, rfl, rfl, rfl⟩
  · exact (secretRead_locked hlocked).trans (congrArg _ hsecret)
  · have hrom := romStage_picks (pickImage_other (stage := 1) hbad hother)
    dsimp only
    rw [hrom]
    exact ⟨rfl, rfl, rfl⟩
  · obtain ⟨why, hp⟩ := pickImage_neither hbad hother
    dsimp only
    rw [romStage_halts hp]
    exact ⟨rfl, nofun⟩
  · cases hp : pickImage s.dev s.dev.bootSlot 2 s.dev.minSvn2 with
    | inl k => exact ⟨_, bootStage1_loads hs hh hp, baseCleared_mem s, rfl, fun _ => ⟨rfl, hh⟩, .inl ⟨rfl, hh⟩⟩
    | inr why =>
      refine ⟨_, bootStage1_halts hs hh hp, baseCleared_mem s, rfl, fun hgood => ?_, .inr ⟨hs, nofun⟩⟩
      rw [pickImage_first hgood] at hp
      cases hp
  · refine ⟨_, bootStage2_runs hs hh hr, fun d hd => releaseDies_released _ _ (.inl ?_), mem_trainedPorts s.dev, rfl, mem_trainedEth s.dev,
      rfl, rfl⟩
    simp only [List.mem_cons, List.not_mem_nil, or_false]
    omega
  · rintro d' hid hal hdev hsvn1 hsvn2 hm1 hm2
    simp only [reportBody, hid, hal, hdev, hsvn1, hsvn2, hm1, hm2]

end Sys2Proof.Proofs
